-- ==== Sys2Proof/Word.lean ====
section
/-! DEFINITION. The word types of the module and their plainest arithmetic: bytes, the sparse tables that hold
registers and memories, and the identifiers (pane, logical cell, port, requester) that operands carry. -/

namespace Sys2Proof

/-- One byte. Every multi-byte field is little-endian unless its definition says otherwise (R2). -/
abbrev Byte := BitVec 8

/-- A sparse table: pairs of key and value, keys strictly rising, an absent key reading as the table's default.
`Machine/Ops.lean` holds the operations. -/
abbrev Tbl (β : Type) := List (Nat × β)

/-- A byte-addressed memory: a sparse table of bytes (a list of `Host.Cell`), an unlisted address reading 0. -/
abbrev Mem := Tbl Byte

/-- Pane P0 to P15 (Table 01-3). -/
abbrev Pane16 := Fin 16

/-- Logical cell 0 to 31 of a pane (R67). -/
abbrev LCell := Fin 32

/-- ClouzLink port: 0 +X, 1 -X, 2 +Y, 3 -Y, 4 +Z, 5 -Z (Table 09-2). -/
abbrev PortId := Fin 6

/-- Requester of the Doorkeeper: 0 the physical function, n virtual function n, 17 the fabric-manager channel
(R356). -/
abbrev Req := Fin 18

end Sys2Proof
end

