-- ==== Sys2Proof/Syntax.lean ====
section
/-! DEFINITION. The commands the block takes: one constructor of `Instr` for each row of spec/opcode_table.json, with
the operands the row's rules give it. The row of each constructor is in LAWS.json ("mnemonics"). -/

namespace Sys2Proof

/-- Who makes a register access: a PCIe function, the sideband or the fabric manager (R41, R506, R513). -/
inductive Accessor where
  /-- The physical function. -/
  | pf
  /-- Virtual function n + 1, the one of pane Pn (R332). -/
  | vf (n : Pane16)
  /-- The sideband. -/
  | sideband
  /-- The fabric manager. -/
  | fm
  deriving DecidableEq, Repr

/-- A command packet: the header of Table 14-6 less its opcode (the row is the opcode), the parameter bytes that
follow it, and what a DMA read at `BULK_ADDR` delivers (`none`: the DMA faults, R362). -/
structure Packet where
  protoMajor : Byte
  rsvd3 : Byte
  seq : BitVec 32
  paramBytes : BitVec 16
  rsvd10 : BitVec 48
  bulkAddr : BitVec 64
  bulkLen : BitVec 64
  params : List Byte
  bulk : Option (List Byte)
  deriving DecidableEq, Repr

/-- A slot header (Table 09-3). -/
structure SlotHdr where
  slotNo : BitVec 8
  kind : BitVec 8
  hold : Bool
  abort : Bool
  isSealed : Bool
  cvPresent : Bool
  beat : BitVec 48
  srcDevice : BitVec 16
  jobTag : BitVec 32
  planBeat : BitVec 32
  origBeat : BitVec 32
  origSlot : BitVec 8
  origKind : BitVec 8
  holdJob : BitVec 32
  abortJob : BitVec 32
  abortColl : BitVec 16
  abortOrigin : BitVec 16
  abortHops : BitVec 8
  deriving DecidableEq, Repr

/-- A slot as it leaves a port or reaches one: header, payload and the `CHECK` of its trailer (Table 09-4). -/
structure SlotImg where
  hdr : SlotHdr
  payload : List Byte
  check : BitVec 64
  deriving DecidableEq, Repr

/-- A slot arriving at a port: the FEC outcome of the codewords that carried it, and its contents (R233, R243). -/
structure RxSlot where
  uncorrectable : Bool
  correctedCodewords : Nat
  /-- Symbols corrected, by physical lane. -/
  laneSymbols : List Nat
  img : SlotImg
  /-- The module that a sealed unscheduled slot is bound for: neither its header nor its ciphertext shows a module on the
  way where it goes (log entry 75). -/
  dest : BitVec 16
  deriving DecidableEq, Repr

/-- A sill block's fields (Table 09-2); `replayReq` lists the used entries. -/
structure Sill where
  beat : BitVec 48
  srcDevice : BitVec 16
  srcPort : BitVec 8
  timeState : BitVec 8
  laneMap : BitVec 8
  laneSwitch : BitVec 8
  llMajor : BitVec 8
  llMinor : BitVec 8
  split : BitVec 8
  cv : BitVec 8
  creditRet : List (BitVec 16)
  replayReq : List (BitVec 32)
  deriving DecidableEq, Repr

/-- What an error-correcting memory reports on an access (R141, R142, Table 16-2 rows C and D). -/
inductive Ecc where
  /-- No error. -/
  | clean
  /-- An error the code corrected. -/
  | corrected
  /-- An error the code could not correct. -/
  | uncorrectable
  deriving DecidableEq, Repr

/-- A place in a ring engine's staging buffer: chunk `chunk` of stream `stream`. -/
structure ChunkAt where
  stream : Nat
  chunk : Nat
  deriving DecidableEq, Repr

/-- Which pass of a collective a chunk belongs to (R259, R263). -/
inductive ChunkPass where
  /-- The reduce-scatter stages of BX64's exponent pre-pass (R263). -/
  | exponents
  /-- The all-gather stages of the pre-pass. -/
  | exponentsBack
  /-- A reduce-scatter stage (R260). -/
  | reduce
  /-- An all-gather stage (R259). -/
  | gather
  deriving DecidableEq, Repr

/-- A chunk's place in its collective: pass, axis of the stage, whether it is the tray level's part of the stage (R260),
first element and number of elements. -/
structure ChunkId where
  pass : ChunkPass
  axis : Fin 3
  tray : Bool
  elem : Nat
  count : Nat
  deriving DecidableEq, Repr

/-- An event as its source delivers it to the recorder (R472, R473). -/
structure Event where
  code : BitVec 16
  source : BitVec 16
  beat : Nat
  tick : Nat
  pane : BitVec 8
  payload : List Byte
  localTime : Bool
  deriving DecidableEq, Repr

/-- A fabric-manager fragment, from the sideband (Table 21-4) or a `MGMT` slot (Table 21-5). -/
structure FmFragment where
  mtype : BitVec 8
  device : BitVec 16
  entry : BitVec 16
  xid : BitVec 32
  ofs : BitVec 32
  total : BitVec 32
  bytes : List Byte
  deriving DecidableEq, Repr

/-- A signed island update package (R462): the outcome of its signature check and what it changes. -/
structure MeterUpdate where
  signatureOk : Bool
  firmware : Bool
  legalVersion : BitVec 32
  legalSha : List Byte
  intervalMs : Nat
  deriving DecidableEq, Repr

/-- What a pane's test phase reports: units whose signature differed twice (R423) and the block's signature. -/
structure TestReport where
  failedCells : BitVec 34
  failedPcs : BitVec 68
  failedLogic : BitVec 8
  signature : BitVec 64
  deriving DecidableEq, Repr

/-- The commands: one constructor per row of spec/opcode_table.json. -/
inductive Instr where
  -- Beat, ticks and time (02_beat_and_time.md)
  | beatMarker (word : BitVec 48) (crc : BitVec 8) (cyclesOk : Bool)
  | missingMarker
  | holdoverBeat
  | holdoverLimitReached
  | beatTrimWrite (by' : Accessor) (value : BitVec 32)
  | beatBoundary
  | planEpochStart (lead : Pane16)
  | stepBoundary (lead : Pane16)
  | blockStart (p : Pane16) (c : LCell)
  | slackExpired (p : Pane16) (c : LCell)
  -- The cell's instructions (03_cells.md); the word is the one the cell fetches
  | nop (p : Pane16) (c : LCell)
  | loop (p : Pane16) (c : LCell)
  | endloop (p : Pane16) (c : LCell)
  | skip (p : Pane16) (c : LCell)
  | pset (p : Pane16) (c : LCell)
  | endBlock (p : Pane16) (c : LCell)
  | scalarAdd (p : Pane16) (c : LCell)
  | scalarSubtract (p : Pane16) (c : LCell)
  | scalarAnd (p : Pane16) (c : LCell)
  | scalarOr (p : Pane16) (c : LCell)
  | scalarXor (p : Pane16) (c : LCell)
  | scalarShiftLeft (p : Pane16) (c : LCell)
  | scalarShiftRightLogical (p : Pane16) (c : LCell)
  | scalarShiftRightArith (p : Pane16) (c : LCell)
  | scalarMultiply (p : Pane16) (c : LCell)
  | scalarSetIfLessSigned (p : Pane16) (c : LCell)
  | scalarSetIfLessUnsigned (p : Pane16) (c : LCell)
  | scalarSetIfEqual (p : Pane16) (c : LCell)
  | scalarMove (p : Pane16) (c : LCell)
  | scalarLoad (p : Pane16) (c : LCell)
  | scalarStore (p : Pane16) (c : LCell)
  | tmm (p : Pane16) (c : LCell)
  | tmmComplete (p : Pane16) (c : LCell) (token : BitVec 6)
  | tdrain (p : Pane16) (c : LCell)
  | tdrainComplete (p : Pane16) (c : LCell) (token : BitVec 6)
  | vmemLoad (p : Pane16) (c : LCell) (ecc : Ecc)
  | vmemStore (p : Pane16) (c : LCell)
  | stridedLoad (p : Pane16) (c : LCell)
  | stridedStore (p : Pane16) (c : LCell)
  | localGather (p : Pane16) (c : LCell)
  | ldsplit (p : Pane16) (c : LCell)
  | stsplit (p : Pane16) (c : LCell)
  | vopAdd (p : Pane16) (c : LCell)
  | vopSubtract (p : Pane16) (c : LCell)
  | vopMultiply (p : Pane16) (c : LCell)
  | fusedMultiplyAdd (p : Pane16) (c : LCell)
  | vopMinimum (p : Pane16) (c : LCell)
  | vopMaximum (p : Pane16) (c : LCell)
  | compareEqual (p : Pane16) (c : LCell)
  | compareLess (p : Pane16) (c : LCell)
  | compareLessOrEqual (p : Pane16) (c : LCell)
  | convert (p : Pane16) (c : LCell)
  | vopMove (p : Pane16) (c : LCell)
  | exp2 (p : Pane16) (c : LCell)
  | log2 (p : Pane16) (c : LCell)
  | rcp (p : Pane16) (c : LCell)
  | rsqrt (p : Pane16) (c : LCell)
  | laneSum (p : Pane16) (c : LCell)
  | laneMaximum (p : Pane16) (c : LCell)
  | nearTierLoad (p : Pane16) (c : LCell)
  | nearTierStore (p : Pane16) (c : LCell)
  | localMove (p : Pane16) (c : LCell)
  | exchange (p : Pane16) (c : LCell)
  | nearTierGather (p : Pane16) (c : LCell)
  | dmaComplete (p : Pane16) (c : LCell) (token : BitVec 6) (err : Option (BitVec 30 × Ecc))
  | syncWait (p : Pane16) (c : LCell)
  | paneBarrier (p : Pane16) (c : LCell)
  | barrierComplete (p : Pane16) (bar : BitVec 4)
  | syncArrive (p : Pane16) (c : LCell)
  | syncLatchWait (p : Pane16) (c : LCell)
  | syncAcquire (p : Pane16) (c : LCell)
  | syncRelease (p : Pane16) (c : LCell)
  | latchOpComplete (p : Pane16) (c : LCell) (token : BitVec 6)
  | put (p : Pane16) (c : LCell)
  | get (p : Pane16) (c : LCell)
  | rmoAdd (p : Pane16) (c : LCell)
  | swap (p : Pane16) (c : LCell)
  | compareSwap (p : Pane16) (c : LCell)
  | rmoArrive (p : Pane16) (c : LCell)
  | rmoWait (p : Pane16) (c : LCell)
  | rmoAcquire (p : Pane16) (c : LCell)
  | rmoRelease (p : Pane16) (c : LCell)
  | rng (p : Pane16) (c : LCell)
  | reservedClass (p : Pane16) (c : LCell)
  | issuePastProgram (p : Pane16) (c : LCell)
  -- Remote operations, windows, latches, Coherent Control Region (08_remote_ops_and_latches.md)
  | requestMessageReceived (p : Pane16)
  | responseMessageReceived (p : Pane16)
  | refusalReceived (p : Pane16)
  | rmoResend (p : Pane16) (tag : BitVec 32)
  | rmoTimeout (p : Pane16) (tag : BitVec 32)
  | syncWaitLimit (p : Pane16) (c : LCell) (token : BitVec 6)
  | windowRevokeDone (p : Pane16) (entry : BitVec 8)
  | ccrRequest (r : Fin 21) (line : BitVec 20) (own : Bool) (store : Option (BitVec 64 × BitVec 512))
  | ccrWriteback (r : Fin 21) (line : BitVec 20)
  | ccrSnoop (r : Fin 21) (line : BitVec 20)
  -- ClouzLink (09_clouzlink.md)
  | slotTransmit (port : PortId) (slot : BitVec 8)
  | sillTransmit (port : PortId)
  | slotReceived (port : PortId) (rx : RxSlot)
  | sillReceived (port : PortId) (sill : Sill) (crc : BitVec 32)
  | laneSwitch (port : PortId)
  | replayTimeout (port : PortId)
  | presenceDetected (port : PortId)
  | equalizeDone (port : PortId)
  | alignDone (port : PortId) (delay : Nat)
  | negotiateDone (port : PortId) (peer : Sill)
  | trainingTimeout (port : PortId)
  | trainingBackoffExpired (port : PortId)
  -- Ring engines (10_collectives.md)
  | chunkAdvance (lead : Pane16) (coll : Nat) (id : ChunkId) (inp out : Option ChunkAt)
  | collectiveDone (lead : Pane16) (coll : Nat) (normOthers noiseOthers : BitVec 640) (contribOthers : BitVec 32)
      (nanOthers : Bool)
  | gridBeat (p : Pane16)
  | abortStop (lead : Pane16)
  | abortEntryExpiry
  -- Near tier, sparing, far tier (06_memory_tiers.md, 07_far_tier_media.md)
  | nearReadRetry (p : Pane16) (line : BitVec 30) (second : Ecc)
  | spareTakeoverDone (p : Pane16)
  | refreshShadow (p : Pane16) (quarter : Fin 4)
  | scrubBurst (p : Pane16) (line : BitVec 30) (ecc : Ecc)
  | pcCopyDone (p : Pane16)
  | extentStart (lead : Pane16) (extent : Nat)
  | extentDone (lead : Pane16) (extent : Nat)
  | journalDurable (upto : Nat)
  | mapCheckpoint
  | gcVictim (channel : Fin 64)
  | gcErase (channel : Fin 64)
  | wearLevel (channel : Fin 64)
  | readRecalibration (channel : Fin 64)
  | farReadRetry (owner : Fin 17) (lun : BitVec 32) (recovered : Bool)
  | programFailed (channel : Fin 64)
  | holdupMeasure (micros : BitVec 32)
  | recover
  | inputPowerLoss
  | bankCharged
  -- Doorkeeper opcodes (14_command_interface.md): a doorbell with this packet
  | hello (r : Req) (k : Packet)
  | ctxCreate (r : Req) (k : Packet)
  | ctxTeardown (r : Req) (k : Packet)
  | groupBind (r : Req) (k : Packet)
  | ctxReset (r : Req) (k : Packet)
  | engineReset (r : Req) (k : Packet)
  | paneReset (r : Req) (k : Packet)
  | moduleReset (r : Req) (k : Packet)
  | slotAlloc (r : Req) (k : Packet)
  | streamShare (r : Req) (k : Packet)
  | farQuota (r : Req) (k : Packet)
  | latchAlloc (r : Req) (k : Packet)
  | jobMapLoad (r : Req) (k : Packet)
  | coordLoad (r : Req) (k : Packet)
  | identitySet (r : Req) (k : Packet)
  | planLoad (r : Req) (k : Packet)
  | planStart (r : Req) (k : Packet)
  | planStop (r : Req) (k : Packet)
  | windowGrant (r : Req) (k : Packet)
  | windowRevoke (r : Req) (k : Packet)
  | sealKey (r : Req) (k : Packet)
  | latchOrphan (r : Req) (k : Packet)
  | swapIn (r : Req) (k : Packet)
  | swapOut (r : Req) (k : Packet)
  | shardFetch (r : Req) (k : Packet)
  | shardFetchTimeout (r : Req)
  | buddySet (r : Req) (k : Packet)
  | stormNow (r : Req) (k : Packet)
  | drainSet (r : Req) (k : Packet)
  | restore (r : Req) (k : Packet)
  | restoreTimeout (r : Req)
  | modeSetPowerCap (r : Req) (k : Packet)
  | modeSetSlotSplit (r : Req) (k : Packet)
  | modeSetHoldoverLimit (r : Req) (k : Packet)
  | modeSetCheckValueMode (r : Req) (k : Packet)
  | modeSetCheckValuePoly (r : Req) (k : Packet)
  | modeSetFarTierWrites (r : Req) (k : Packet)
  | modeSetExactBf16 (r : Req) (k : Packet)
  | modeSetSealedFrames (r : Req) (k : Packet)
  | modeSetStormInterval (r : Req) (k : Packet)
  | modeSetDrainInterval (r : Req) (k : Packet)
  | modeGet (r : Req) (k : Packet)
  | selfTest (r : Req) (k : Packet)
  | shutdown (r : Req) (k : Packet)
  | meterRead (r : Req) (k : Packet)
  | meterIdent (r : Req) (k : Packet)
  | eventFreeze (r : Req) (k : Packet)
  | eventRead (r : Req) (k : Packet)
  | eventThaw (r : Req) (k : Packet)
  | escape (opcode : BitVec 16) (k : Packet)
  | commandStart (r : Req)
  | commandReply (r : Req)
  | commandOverrun (r : Req)
  -- Teardown, resets, storm copies, drain, store (13, 15, 16, 21)
  | teardownBegin (p : Pane16)
  | writersStopped (p : Pane16)
  | shutterComplete (p : Pane16)
  | ctxResetEnd (p : Pane16)
  | snapshotDone (lead : Pane16)
  | stormFrameReceived (frame : List Byte)
  | stormAckReceived (lead : Pane16)
  | copyAbandonTimeout (lead : Pane16)
  | drainStaged (lead : Pane16)
  | storeGrantReceived (xid : BitVec 32) (rkey : BitVec 32) (addr : BitVec 64)
  | rdmaWritesComplete (xid : BitVec 32)
  | rdmaReadsComplete (xid : BitVec 32) (bytes : List Byte)
  | storeDoneReceived (xid : BitVec 32) (sstatus : BitVec 8) (objCrc : BitVec 64)
  | storeRefuseReceived (xid : BitVec 32) (sstatus : BitVec 8) (retryMs : BitVec 32)
  | storeRetryExpiry (xid : BitVec 32)
  | storeConnectionLost (xid : BitVec 32)
  | subwindowRollover
  | hubWatchdogExpiry
  | engineFault (engine : Fin 28)
  | paneHardwareFault (p : Pane16)
  | hubFault
  | resetEscalation
  | testStart
  | testPhaseDone (p : Pane16) (report : TestReport)
  | hubTestDone (passed : Bool) (signature : BitVec 64)
  -- Metrology Island (18_metrology_island.md)
  | meterIntervalBoundary
  | meterRecordRetry (durable : Bool)
  | debugPadsEnabled
  | meterUpdatePackage (u : MeterUpdate)
  | islandStart
  -- Event recorder (19_event_recorder.md)
  | eventDelivery (e : Event)
  | eventAccept
  | suppressedSummary
  | spillDone
  -- Start-up, power, host and sideband (20, 21, 22)
  | pwrEnAssert
  | pwrEnDeassert
  | resetNRise (straps : BitVec 4)
  | resetNPulse
  | doorkeeperReady
  | paneBringupDone
  | thermalThreshold (sensor : Fin 33) (celsius : Nat)
  | thermalClear
  | capEffecterSet (mode : BitVec 2)
  | vfFlr (n : Pane16)
  | pfFlr
  | vfEnableChange (numVfs : Nat)
  | atsInvalidation (addr : BitVec 64) (fn : Fin 17)
  | wideRegisterRead (by' : Accessor) (ofs : BitVec 21) (size : Nat)
  | registerWrite (by' : Accessor) (ofs : BitVec 21) (size : Nat) (value : BitVec 64)
  | sbRegisterRead (xid : BitVec 32) (ofs : BitVec 32) (bytes : BitVec 16)
  | sbRegisterWrite (xid : BitVec 32) (ofs : BitVec 32) (bytes : BitVec 16) (value : BitVec 64)
  | sbMeterIdent (xid : BitVec 32)
  | fmRequestFragment (f : FmFragment)
  | fmFragmentReceived (port : PortId) (f : FmFragment)
  | fmReceiptRepeat
  | fmUnreachableTimeout
  | blockEraseComplete (channel : Fin 64) (block : BitVec 15) (failed : Bool)
  | pageProgramComplete (channel : Fin 64)
  | ccrSnoopAck (r : Fin 21) (line : BitVec 20)
  | ethernetUncorrectableCodeword (engine : Fin 2)
  | portRetrainingOrder (port : PortId)
  | pldmFirmwareUpdate (target : Fin 3) (accepted : Bool)
  deriving DecidableEq, Repr

end Sys2Proof
end

