-- ==== Sys2Proof/Decode.lean ====
section
/-! DEFINITION. The commands that words of the opcode table spell: spec/opcode_table.json gives no row any bits. -/

namespace Sys2Proof

/-- The command that the bits of a table word spell: none, as no row of the table has bits. -/
def decodeTableWord (_nbits _w : Nat) : Option Instr := none

end Sys2Proof
end

