-- ==== Sys2Proof/Config.lean ====
section
/-! DEFINITION. What an implementation fixes and the manual leaves open. Every constant here is opaque: no proof can see
a value of it, so a statement about it holds for every value. The first argument of a free value is the counter
`State.free` at the moment the value is taken, so that two takings need not agree. -/

namespace Sys2Proof

/-- R540, R43: which of two orders a race on a 64-byte line resolves to (`true`: the other instruction's access comes
first). Second argument: which line or which write. -/
opaque Config.raceBit : Nat → Nat → Bool

/-- The module's serial number (Table 18-5 `SERIAL`): its low 16 bits are the first start-up identifier (R487). -/
opaque Config.serial : BitVec 64

/-- A bit that the manual leaves open: what a word the manual calls undefined reads as. -/
opaque Config.freeBit : Nat → Bool

/-- A byte that the manual leaves undefined (R378), by the free counter and the place. -/
opaque Config.freeByte : Nat → Nat → BitVec 8

/-- A 64-bit value that the manual leaves open, by the free counter. -/
opaque Config.freeWord : Nat → BitVec 64

/-- R443: a reading of the island's converters (an energy in mJ), by the free counter and the rail group. -/
opaque Config.energy : Nat → Nat → Nat

/-- R167: the XTS-AES-256 key pair of a drawing of the far-tier controller's random bit generator. -/
opaque Config.farKey : Nat → BitVec 512

/-- R242: the recalibration pattern, 3,072 bytes by place. -/
opaque Config.recalByte : Nat → BitVec 8

/-- R441, R458: the Ed25519 signature of a message under the island's key, 64 bytes. -/
opaque Config.sign : List (BitVec 8) → List (BitVec 8)

/-- R441: the island's public key, 32 bytes. -/
opaque Config.publicKey : List (BitVec 8)

/-- R441: Lazhaux's endorsement of that key, 64 bytes. -/
opaque Config.endorsement : List (BitVec 8)

/-- R460: the SHA-256 digest of the island's firmware and configuration as shipped, 32 bytes. -/
opaque Config.legalSha : List (BitVec 8)

/-- R423, R432: the ROM references: the CRC-64 over the reference signatures of the units of a block (0 to 15 a pane, 16
the hub) that the ledger's retired masks (cells, pseudo-channels) leave untested. -/
opaque Config.romSignature : Nat → BitVec 34 → BitVec 68 → BitVec 64

/-- R430: the version of the ROM reference table. -/
opaque Config.romVersion : BitVec 8

/-- R509: the host has enabled ATS (configuration space is not modelled). -/
opaque Config.atsEnabled : Bool

end Sys2Proof
end

