-- ==== Sys2Proof/Machine/Bits.lean ====
section
/-! DEFINITION. Bit fields, little-endian bytes, the sparse tables and byte memories every unit uses, and the check
values of the manual (CRC-8 of the beat word, CRC-32C, CRC-32, CRC-64). -/

namespace Sys2Proof.Machine

/-- Bits `[hi:lo]` of a number, bit 0 the least significant (00_scope.md, Numbers and units). -/
def fld (w hi lo : Nat) : Nat := (w >>> lo) % 2 ^ (hi + 1 - lo)

/-- Bit `i` of a number. -/
def bitAt (w i : Nat) : Bool := w.testBit i

/-- A Boolean as one bit. -/
def b2n (b : Bool) : Nat := if b then 1 else 0

/-- The value of `w` bits read as a two's-complement integer. -/
def toSigned (w n : Nat) : Int := if (n % 2 ^ w) < 2 ^ (w - 1) then (n % 2 ^ w : Nat) else (n % 2 ^ w : Nat) - (2 ^ w : Nat)

/-- The `w`-bit two's-complement code of an integer. -/
def ofSigned (w : Nat) (i : Int) : Nat := (i % (2 ^ w : Nat)).toNat

/-- A counter field that saturates at `2^w - 1`. -/
def satAdd (w a b : Nat) : Nat := min (2 ^ w - 1) (a + b)

/-- Division rounded up. -/
def ceilDiv (a b : Nat) : Nat := (a + b - 1) / b

/-! ### Little-endian bytes (R2) -/

/-- The number that a list of bytes spells, first byte least significant. -/
def leNat : List Byte → Nat
  | [] => 0
  | b :: r => b.toNat + 256 * leNat r

/-- The `k` bytes of a number, least significant first. -/
def natLe : Nat → Nat → List Byte
  | 0, _ => []
  | k + 1, n => BitVec.ofNat 8 n :: natLe k (n / 256)

/-- `n` bytes at offset `o` of a byte list, as a number; bytes past its end read as zero. -/
def leAt (l : List Byte) (o n : Nat) : Nat := leNat ((l.drop o).take n)

/-- `n` bytes at offset `o` of a byte list, padded with zeros to that length. -/
def bytesAt (l : List Byte) (o n : Nat) : List Byte :=
  let t := (l.drop o).take n
  t ++ List.replicate (n - t.length) 0

/-- The bytes of a list with the ones at offset `o` replaced. -/
def putBytes (l : List Byte) (o : Nat) (d : List Byte) : List Byte :=
  bytesAt l 0 o ++ d ++ l.drop (o + d.length)

/-- `n` zero bytes. -/
def zeros (n : Nat) : List Byte := List.replicate n 0

/-- An all-zero list of bytes. -/
def allZero (l : List Byte) : Bool := l.all (· == 0)

/-! ### Sparse tables -/

/-- The entry of a table at a key, `d` where the table lists none. -/
def tblGet {β : Type} (d : β) : Tbl β → Nat → β
  | [], _ => d
  | (k, v) :: r, a => if k = a then v else tblGet d r a

/-- The table with the entry at a key set; an entry equal to the default is not listed. -/
def tblPut {β : Type} [DecidableEq β] (d : β) : Tbl β → Nat → β → Tbl β
  | [], a, v => if v = d then [] else [(a, v)]
  | (k, w) :: r, a, v =>
    if a < k then (if v = d then (k, w) :: r else (a, v) :: (k, w) :: r)
    else if a = k then (if v = d then r else (a, v) :: r)
    else (k, w) :: tblPut d r a v

/-- The table with the entry at a key set, whatever its value. -/
def tblSet {β : Type} : Tbl β → Nat → β → Tbl β
  | [], a, v => [(a, v)]
  | (k, w) :: r, a, v =>
    if a < k then (a, v) :: (k, w) :: r
    else if a = k then (a, v) :: r
    else (k, w) :: tblSet r a v

/-- The table without the entry at a key. -/
def tblDel {β : Type} (t : Tbl β) (a : Nat) : Tbl β := t.filter fun e => e.1 != a

/-- The entry of a table at a key, if it lists one. -/
def tblFind {β : Type} (t : Tbl β) (a : Nat) : Option β := (t.find? fun e => e.1 == a).map Prod.snd

/-- Keys strictly rising from above `lo`, no entry equal to the default. -/
def tblWfFrom {β : Type} [DecidableEq β] (d : β) : Option Nat → Tbl β → Bool
  | _, [] => true
  | none, (k, v) :: r => decide (v ≠ d) && tblWfFrom d (some k) r
  | some lo, (k, v) :: r => decide (lo < k) && decide (v ≠ d) && tblWfFrom d (some k) r

/-- The canonical form of a table. -/
def tblWf {β : Type} [DecidableEq β] (d : β) (t : Tbl β) : Bool := tblWfFrom d none t

/-- The table without its entries from key `lo` to `lo + n - 1`. -/
def tblClear {β : Type} (t : Tbl β) (lo n : Nat) : Tbl β := t.filter fun e => !(lo ≤ e.1 && e.1 < lo + n)

/-- The table with the entry at a key changed. -/
def tblMod {β : Type} [DecidableEq β] (d : β) (t : Tbl β) (a : Nat) (f : β → β) : Tbl β :=
  tblPut d t a (f (tblGet d t a))

/-! ### Byte memories: an unlisted address reads 0 -/

/-- The canonical form of a byte memory. -/
def Memory.wf (m : Mem) : Bool := tblWf (0 : Byte) m

/-- One byte of a memory. -/
def memGet (m : Mem) (a : Nat) : Byte := tblGet 0 m a

/-- A memory with one byte written. -/
def memSet (m : Mem) (a : Nat) (b : Byte) : Mem := tblPut 0 m a b

/-- `n` bytes of a memory from an address. -/
def memRead (m : Mem) : Nat → Nat → List Byte
  | _, 0 => []
  | a, n + 1 => memGet m a :: memRead m (a + 1) n

/-- A memory with bytes written from an address. -/
def memWrite (m : Mem) : Nat → List Byte → Mem
  | _, [] => m
  | a, b :: r => memWrite (memSet m a b) (a + 1) r

/-- A memory with `n` bytes from an address set to zero. -/
def memZero (m : Mem) (a n : Nat) : Mem := tblClear m a n

/-- `n` bytes of a memory, as a little-endian number. -/
def memNat (m : Mem) (a n : Nat) : Nat := leNat (memRead m a n)

/-! ### Check values -/

/-- R16: the CRC-8 (polynomial 0x07) of a beat number, bit 0 first. -/
def beatCrc (beat : Nat) : Nat :=
  (List.range 48).foldl (fun reg i =>
    let fb := (b2n (bitAt beat i)).xor (b2n (bitAt reg 7))
    let reg := (reg <<< 1) % 256
    if fb = 1 then reg.xor 7 else reg) 0

/-- One byte through a reflected CRC register with reflected polynomial `poly`. -/
def crcReflByte (poly reg : Nat) (b : Byte) : Nat :=
  (List.range 8).foldl (fun r _ => if r % 2 = 1 then (r / 2).xor poly else r / 2) (reg.xor b.toNat)

/-- One byte through an unreflected CRC register of `w` bits. -/
def crcNormByte (w poly reg : Nat) (b : Byte) : Nat :=
  (List.range 8).foldl (fun r _ =>
    if bitAt r (w - 1) then ((r <<< 1) % 2 ^ w).xor poly else (r <<< 1) % 2 ^ w)
    (reg.xor (b.toNat <<< (w - 8)))

/-- CRC-32C (0x1EDC_6F41), with the initial value, reflection and final XOR of its standard. -/
def crc32c (l : List Byte) : Nat := (l.foldl (crcReflByte 0x82F63B78) 0xFFFFFFFF).xor 0xFFFFFFFF

/-- CRC-32 of IEEE 802.3 (0x04C1_1DB7). -/
def crc32 (l : List Byte) : Nat := (l.foldl (crcReflByte 0xEDB88320) 0xFFFFFFFF).xor 0xFFFFFFFF

/-- CRC-64 with the ECMA-182 polynomial (0x42F0_E1EB_A9EA_3693): initial value 0, unreflected, no final XOR. -/
def crc64 (l : List Byte) : Nat := l.foldl (crcNormByte 64 0x42F0E1EBA9EA3693) 0

/-- The check value of a polynomial selection: 0 CRC-32C, 1 CRC-32, otherwise CRC-64 (Table 09-2, `CV`). -/
def checkValue (poly : Nat) (l : List Byte) : Nat :=
  if poly = 0 then crc32c l else if poly = 1 then crc32 l else crc64 l

end Sys2Proof.Machine
end

