-- ==== Sys2Proof/Machine/State.lean ====
section
/-! DEFINITION. The state of the module: every register, buffer, counter, mode and pin the manual gives it, as plain
data, and the queue of waiting commands. INVENTORY.md lists each piece with its rule and its reset value. -/

namespace Sys2Proof.Machine

/-! ### Beat, ticks and time (02_beat_and_time.md) -/

/-- The four time states of Table 02-1. -/
inductive TimeMode where
  /-- `UNSYNC`. -/
  | unsync
  /-- `LOCKED`. -/
  | locked
  /-- `HOLDOVER`. -/
  | holdover
  /-- `FREE_RUN`. -/
  | freeRun
  deriving DecidableEq, Repr

/-- The beat unit. -/
structure BeatUnit where
  /-- The beat counter (48 bits on the wire; the manual makes no provision for its wrap). -/
  beat : Nat
  /-- The tick counter, 0 to 8,191. -/
  tick : Nat
  /-- Ticks still to pass before the boundary of the beat loaded at a lock (R542). -/
  lead : Nat
  /-- `TIME_STATE`. -/
  mode : TimeMode
  /-- `HOLDOVER_LIMIT_SEL`. -/
  limitSel : BitVec 2
  /-- The holdover limit in force in the episode in progress, in beats (mode 0x0003). -/
  episodeLimit : Nat
  /-- `PHASE_HITS`. -/
  phaseHits : BitVec 16
  /-- `HOLDOVER_BEATS`. -/
  holdoverBeats : BitVec 32
  /-- `TRIM`, in hub nonvolatile cells. -/
  trim : BitVec 12
  /-- `TRIM_ACTIVE`. -/
  trimActive : BitVec 12
  /-- Consecutive good markers so far (R25, R33). -/
  goodMarkers : Nat
  /-- Number and arrival instant (in local ticks) of the last marker that passed its CRC. -/
  lastMarker : Option (Nat × Int)
  /-- Beat of the last entry to `LOCKED` from `UNSYNC` or `FREE_RUN` (R22). -/
  lockBeat : Option Nat
  /-- Number of the last valid marker. -/
  markerFor : Option Nat
  /-- The last beat counted as a phase hit. -/
  hitFor : Option Nat
  /-- The last beat counted as a holdover beat. -/
  holdFor : Option Nat
  /-- Phase error still to be corrected after a return from holdover, in ticks (R33). -/
  phaseError : Int
  /-- Beat of the last one-tick correction (R33). -/
  phaseStep : Nat
  /-- A one-tick correction makes the present beat longer by one fabric cycle, in which the tick counter stands (R33). -/
  stretch : Bool
  /-- The beat in which `FREE_RUN` was entered: scheduled slots and sequencers stop at its end (R31). -/
  runOut : Option Nat
  deriving DecidableEq, Repr

/-! ### Cells (03_cells.md, 04_arithmetic.md) -/

/-- One lane of an accumulator set (R79 to R89). -/
structure Lane where
  /-- The 96-bit integer N. -/
  n : BitVec 96
  /-- The FP32 value of FP32 mode (R89). -/
  f32 : BitVec 32
  /-- Mark `NAN`. -/
  nan : Bool
  /-- Mark `PINF`. -/
  pinf : Bool
  /-- Mark `NINF`. -/
  ninf : Bool
  /-- The lane's inexact flag (R81). -/
  inexact : Bool
  /-- The lane is anchor-violated (R82). -/
  viol : Bool
  deriving DecidableEq, Repr

/-- The mode of an accumulator set (R539). -/
inductive AccMode where
  /-- Empty. -/
  | empty
  /-- Long. -/
  | long
  /-- FP32. -/
  | fp32
  deriving DecidableEq, Repr

/-- One accumulator set: its 8,192 lanes, its chain's K count, chain marks and lane exponents. -/
structure AccSet where
  mode : AccMode
  /-- K elements accumulated by the chain (R84). -/
  kCount : Nat
  /-- Chain mark: OR of the lanes' inexact marks (R539). -/
  inexact : Bool
  /-- Chain mark: OR of the lanes' violation marks (R539). -/
  viol : Bool
  /-- T of lane (i, j) is `tBase` plus row anchor i plus column anchor j (R79). -/
  tBase : Int
  rowAnc : Tbl Int
  colAnc : Tbl Int
  /-- Lanes by number i x 64 + j. -/
  lanes : Tbl Lane
  deriving DecidableEq, Repr

/-- A `TMM` between issue and its token: its word, its operand addresses and masks, and the old contents of operand
lines that something else has written since (R540). -/
structure TmmOp where
  word : BitVec 128
  /-- The exact BF16 mode of its group at issue (R90). -/
  exact : Bool
  a : Nat
  b : Nat
  asc : Nat
  bsc : Nat
  anc : Nat
  rowMask : BitVec 128
  colMask : BitVec 64
  /-- Line address and content before a write, oldest first. -/
  olds : List (Nat × BitVec 512)
  deriving DecidableEq, Repr

/-- A `TDRAIN` between issue and its token. -/
structure DrainOp where
  word : BitVec 128
  dst : Nat
  sc : Nat
  mxsc : Nat
  anc : Nat
  idxBase : Nat
  idxRow : Nat
  /-- The job step counter of its block, and the seeds, for stochastic draws (R99, R100). -/
  step : Nat
  k0 : BitVec 64
  k1 : BitVec 64
  /-- The set as the drain has read it, once a later `TMM` has gone on with the set (R48). -/
  snap : Option AccSet
  /-- Ranges of its output area that something else has written since its issue (R540). -/
  hits : List (Nat × Nat)
  deriving DecidableEq, Repr

/-- A `DMA` transfer between issue and its token, with its addresses and length. -/
structure DmaOp where
  word : BitVec 128
  loc : Nat
  remote : Nat
  len : Nat
  /-- Byte offsets of a gather, read at issue. -/
  offsets : List Nat
  deriving DecidableEq, Repr

/-- A local latch operation between issue and its token (R213): the latch, the completion record's address, whether it is
a `WAIT` or `ACQUIRE`, the instant (in ticks) its limit runs out, and its outcome once the latch unit has answered. -/
structure LatchOp where
  latch : Nat
  comp : Nat
  waits : Bool
  limit : Option Nat
  outcome : Option (Nat × BitVec 64)
  /-- Its operation (Table 08-1) and operand, and the retry-at beat after the remote-waiter table has refused it
  (R214). -/
  op : Nat
  arg : Nat
  retryAt : Option Nat
  deriving DecidableEq, Repr

/-- What an asynchronous instruction is. -/
inductive FlightKind where
  /-- A `TMM`. -/
  | tmm (op : TmmOp)
  /-- A `TDRAIN`. -/
  | tdrain (op : DrainOp)
  /-- A `DMA` transfer. -/
  | dma (op : DmaOp)
  /-- A local latch operation. -/
  | latch (op : LatchOp)
  deriving DecidableEq, Repr

/-- An asynchronous instruction that has issued and whose token is not yet set. -/
structure Flight where
  token : Nat
  kind : FlightKind
  /-- Index of the instruction in the cell program. -/
  index : Nat
  deriving DecidableEq, Repr

/-- An open loop (R74). -/
structure LoopFrame where
  /-- Index of the instruction after `LOOP`. -/
  body : Nat
  /-- `TRIP`. -/
  trip : Nat
  /-- Times the body has run, the current one included. -/
  runs : Nat
  deriving DecidableEq, Repr

/-- One physical cell (Table 03-1). -/
structure Cell where
  /-- The local store, 6,291,456 bytes. -/
  store : Mem
  /-- Accumulator set A. -/
  accA : AccSet
  /-- Accumulator set B. -/
  accB : AccSet
  /-- Mode of set A as of the last instruction issued (R539). -/
  issA : AccMode
  /-- Mode of set B as of the last instruction issued. -/
  issB : AccMode
  /-- 32 vector registers of 64 lanes x 32 bits, lane 0 lowest. -/
  vregs : Tbl (BitVec 2048)
  /-- 8 predicate registers. -/
  preds : Tbl (BitVec 64)
  /-- 32 scalar registers. -/
  sregs : Tbl (BitVec 64)
  /-- The instruction store. -/
  istore : Tbl (BitVec 128)
  /-- `INSTR_COUNT` of the loaded program (R545). -/
  instrCount : Nat
  /-- The sequencer table. -/
  seqTab : Tbl (BitVec 64)
  /-- `SEQ_COUNT`. -/
  seqCount : Nat
  /-- Tokens set by their last use. -/
  tokSet : BitVec 64
  /-- Tokens named by an instruction that has not completed. -/
  tokBusy : BitVec 64
  /-- Asynchronous instructions in progress, oldest first. -/
  flights : List Flight
  /-- A block is running. -/
  running : Bool
  /-- Index of the next instruction. -/
  pc : Nat
  /-- Open loops, innermost first. -/
  loops : List LoopFrame
  /-- Job step counter and seeds of the running block (R55, R99, R129). -/
  jobStep : Nat
  k0 : BitVec 64
  k1 : BitVec 64
  /-- The barrier at which issue is stopped. -/
  barrier : Option (BitVec 4)
  /-- Next sequencer entry. -/
  seqIdx : Nat
  /-- Plan step of the next sequencer entry. -/
  seqStep : Nat
  /-- Issue has stopped for a fault or a halt (R52, R31, R282). -/
  halted : Bool
  deriving DecidableEq, Repr

/-! ### Near tier (06_memory_tiers.md) -/

/-- A near-tier range that the manual calls undefined (R282, R378): its offset and length, the free value that fills it
until it is written, and the logical pseudo-channels whose bytes do not belong to it. -/
structure FreeRange where
  ofs : Nat
  len : Nat
  tag : Nat
  skip : BitVec 64
  deriving DecidableEq, Repr

/-- A pane's near-tier stack. -/
structure NearTier where
  /-- The bytes, by near-tier offset below 48 GiB (R138). -/
  mem : Mem
  /-- Lines (offset / 64) that carry the poison pattern (R142). -/
  poison : Tbl Bool
  /-- Lines whose first read was uncorrectable and whose retry is due (R142); the scrubber's own retries are marked, and a
  write that reaches such a line cancels them (R143). -/
  retries : List (Nat × Bool)
  /-- `CE_COUNT`. -/
  ceCount : BitVec 24
  /-- `UE_COUNT`. -/
  ueCount : BitVec 16
  /-- `LAST_UE_PC`. -/
  lastUePc : BitVec 7
  /-- `NEAR_PC_RETIRED`, from the retirement ledger. -/
  pcRetired : BitVec 68
  /-- Logical pseudo-channels held by a spare: physical 64 to 67; an unlisted one is held by its own number (R146). -/
  pcSub : Tbl Nat
  /-- `NEAR_SHORT`. -/
  short : Bool
  /-- Pseudo-channel copies or zeroings in progress: logical number, spare, and whether the old contents are dropped
  (R147). -/
  copying : List (Nat × Nat × Bool)
  /-- Physical pseudo-channels declared faulty whose retirement waits for the end of the Plan (R147): number, whether
  an error was uncorrectable. -/
  duePcs : List (Nat × Bool)
  /-- Ranges that the manual calls undefined (R282, R378). -/
  undef : List FreeRange
  deriving DecidableEq, Repr

/-! ### Far tier (06_memory_tiers.md, 07_far_tier_media.md) -/

/-- A map entry: physical location (Table 07-1; all ones for none) and generation (R160). -/
structure MapEntry where
  phys : BitVec 32
  gen : BitVec 32
  deriving DecidableEq, Repr

/-- An owner slot: generation and XTS-AES-256 key pair in the key store (R167), and the map. -/
structure FarOwner where
  gen : BitVec 32
  key : BitVec 512
  map : Tbl MapEntry
  deriving DecidableEq, Repr

/-- A programmed map unit on the media: what its ciphertext was made of (R168): owner slot, map unit and generation, the
key pair, and the contents. -/
structure MediaUnit where
  owner : Nat
  lun : Nat
  gen : BitVec 32
  key : BitVec 512
  data : Mem
  /-- Every read retry failed: it returns poison until it is rewritten (R179). -/
  bad : Bool
  deriving DecidableEq, Repr

/-- The state of a flash block. -/
inductive BlockState where
  /-- In the free pool. -/
  | free
  /-- Open as a foreground write destination. -/
  | openW
  /-- Open as the collector's destination. -/
  | openG
  /-- In use, closed. -/
  | used
  /-- An erase is in progress. -/
  | erasing
  /-- Retired, never used again. -/
  | retired
  deriving DecidableEq, Repr

/-- One flash block (R171, R176, R177). -/
structure Block where
  state : BlockState
  /-- Next map unit to program. -/
  next : Nat
  erases : Nat
  reads : Nat
  /-- Beat of its oldest data. -/
  since : Nat
  /-- The beat in which it fell due for refresh by its reads or an uncorrectable unit (R176, R179). -/
  dueRefresh : Option Nat
  /-- Declared faulty: to be retired once its valid units are relocated (R180). -/
  dueRetire : Bool
  deriving DecidableEq, Repr

/-- A journal record (Table 07-2), field by field. -/
structure JRec where
  seq : Nat
  type : BitVec 8
  owner : Nat
  gen : BitVec 32
  lun : Nat
  count : Nat
  newPhys : BitVec 32
  oldPhys : BitVec 32
  aux : BitVec 32
  beat : Nat
  /-- CRC-32C over its other 60 bytes. -/
  crc : BitVec 32
  deriving DecidableEq, Repr

/-- A map checkpoint (R166): the `SEQ` and beat of its `MAP_CKPT`, the owners' maps and generations, and the blocks'
states. -/
structure Ckpt where
  seq : Nat
  beat : Nat
  owners : Tbl FarOwner
  blocks : Tbl BlockState
  deriving DecidableEq, Repr

/-- What a far-tier write belongs to, told when it is acknowledged (R165). -/
inductive FarSink where
  /-- A command of a requester: `SWAP_OUT` or `SHARD_FETCH`. -/
  | command (r : Nat)
  /-- A recorder spill of a segment (R477). -/
  | spill (segment : Nat)
  /-- Storm staging of the group led by a pane (R393). -/
  | staging (lead : Nat)
  deriving DecidableEq, Repr

/-- A data-page program on a channel: a map unit of a write request, or a run of units relocated from a location. One
without a location waits for a block of its channel to become free. -/
structure FarProg where
  channel : Nat
  phys : BitVec 32
  owner : Nat
  lun : Nat
  gen : BitVec 32
  key : BitVec 512
  data : Mem
  bad : Bool
  /-- Contents of the further units of a run, with whether they are poison. -/
  more : List (Mem × Bool)
  /-- The write request it belongs to. -/
  write : Option Nat
  /-- Quarter bytes that a byte of it counts towards `LIFE_USED`. -/
  weight : Nat
  /-- The former location of a relocation. -/
  moved : Option (BitVec 32)
  deriving DecidableEq, Repr

/-- A far-tier write request: units still to program, and the highest `SEQ` of its `MAP_SET` records. -/
structure FarWrite where
  ident : Nat
  owner : Nat
  left : Nat
  lastSeq : Nat
  sink : FarSink
  deriving DecidableEq, Repr

/-- A collection of a victim block (R171): its location with unit 0, the `SEQ` of its last `MOVE`. -/
structure GcJob where
  channel : Nat
  block : Nat
  lastSeq : Nat
  deriving DecidableEq, Repr

/-- The far-tier controller. -/
structure FarTier where
  /-- Owner slots 0 to 16 (R167). -/
  owners : Tbl FarOwner
  /-- Programmed units by physical location. -/
  media : Tbl MediaUnit
  /-- Blocks by channel x 32,768 + block. -/
  blocks : Tbl Block
  /-- The channel of the next map unit (R162). -/
  nextChannel : Nat
  /-- Journal records since the last durable map checkpoint, oldest first. -/
  journal : List JRec
  nextSeq : Nat
  /-- Records below this `SEQ` are durable (R164). -/
  durSeq : Nat
  /-- The last durable map checkpoint (R166). -/
  ckpt : Ckpt
  /-- A checkpoint whose `MAP_CKPT` is not durable yet. -/
  ckptNext : Option Ckpt
  progs : List FarProg
  writes : List FarWrite
  nextWrite : Nat
  gcs : List GcJob
  /-- Bytes written to the media (R153). -/
  written : Nat
  /-- The same as they count towards `LIFE_USED`, in quarter bytes: four a byte, three in endurance mode (Table 20-5). -/
  life : Nat
  /-- Life marks of R153 already reported: 0, 80 or 100. -/
  lifeMark : Nat
  readOnly : Bool
  holdupLow : Bool
  recovering : Bool
  uncorr : BitVec 16
  /-- Far-tier quotas by pane, in GiB (R150). -/
  quotas : Tbl Nat
  /-- `CERT_SEQ`: shutters so far, in the key store (Table 13-4). -/
  certSeq : Nat
  /-- Key drawings so far. -/
  keyDraws : Nat
  /-- Owner slots whose zeroing waits for its `GEN_BUMP`: slot and `SEQ` (R169). -/
  zeroing : List (Nat × Nat)
  /-- Channels that recalibrated in the current epoch (R178). -/
  recalibrated : BitVec 64
  /-- Beat of the last hold-up measurement (R183). -/
  holdupBeat : Nat
  /-- Input power is below its threshold: no program, erase or key update is admitted (R182). -/
  powerLost : Bool
  deriving DecidableEq, Repr

/-! ### Remote operations, windows and latches (08_remote_ops_and_latches.md) -/

/-- A window entry (Table 08-6). -/
structure Window where
  base : BitVec 64
  length : BitVec 64
  peerJob : BitVec 32
  peerDevice : BitVec 16
  scope : BitVec 8
  wstate : BitVec 8
  ops : BitVec 16
  peerPanes : BitVec 16
  isSealed : Bool
  deriving DecidableEq, Repr

/-- A seal key slot: a loaded key and its frame counter (R205). -/
structure SealSlot where
  key : Option (BitVec 256)
  counter : BitVec 64
  deriving DecidableEq, Repr

/-- A message of Table 08-5 with its data; `result` is a latch or atomic result known on this module. -/
structure Msg where
  op : BitVec 4
  isResponse : Bool
  code : BitVec 8
  srcDevice : BitVec 16
  srcPane : BitVec 4
  torusRel : Bool
  srcEpoch : BitVec 16
  jobTag : BitVec 32
  tag : BitVec 32
  target : BitVec 64
  fragOfs : BitVec 32
  length : BitVec 32
  data : List Byte
  /-- It arrived in a sealed frame that authenticated. -/
  isSealed : Bool
  /-- The Plan pane of its source, when it is known on this module (Table 08-5 gives it no field). -/
  srcPlan : Option Nat
  /-- The logical cell of its source, likewise; 0 from the wire. -/
  srcCell : Nat
  /-- The result of a latch operation, when it is known on this module (Table 08-5 gives it no field). -/
  result : Option (BitVec 64)
  deriving DecidableEq, Repr

/-- A remote operation in progress at its source. -/
structure RmoOp where
  tag : BitVec 32
  lcell : Nat
  token : Nat
  /-- Index of the instruction in the cell program. -/
  index : Nat
  op : BitVec 4
  target : BitVec 64
  torusRel : Bool
  device : BitVec 16
  comp : Nat
  loc : Nat
  length : Nat
  opa : BitVec 64
  opb : BitVec 64
  tolerate : Bool
  /-- Its timeout or wait limit (R195), as beat and tick. -/
  deadline : Nat × Nat
  /-- `GET`: bytes received so far; and the first failing code of its fragments. -/
  got : Nat
  code : BitVec 8
  /-- Retry-at beat after a refusal of admission (R196). -/
  retryAt : Option Nat
  /-- `PUT` data as read at issue. -/
  data : List Byte
  deriving DecidableEq, Repr

/-- A `PUT` in progress at its target: bytes received and the first code other than `OK` (R202). -/
structure PutIn where
  srcDevice : BitVec 16
  srcPane : BitVec 4
  tag : BitVec 32
  got : Nat
  /-- Offsets of the fragments counted. -/
  seen : List Nat
  code : BitVec 8
  deriving DecidableEq, Repr

/-- A message queued for injection towards another module (R249). -/
structure OutMsg where
  device : BitVec 16
  msg : Msg
  deriving DecidableEq, Repr

/-- A request that this pane has turned away and that has not come again (R193): its source, tag and fragment, and the
beat after which it is no longer expected. -/
structure TurnedAway where
  device : BitVec 16
  pane : BitVec 4
  tag : BitVec 32
  ofs : BitVec 32
  until' : Nat
  deriving DecidableEq, Repr

/-- A refusal on its way (R250): for the source pane, the tag and the retry-at beat. -/
structure RefusalMsg where
  srcDevice : BitVec 16
  srcPane : BitVec 4
  tag : BitVec 32
  retryAt : Nat
  deriving DecidableEq, Repr

/-- A unit of unscheduled traffic that waits to leave on a port: its class (Table 09-6), its destination module and its
bytes; `seal` names the pane whose context's data it carries and whether its group seals frames. -/
structure Parcel where
  klass : Nat
  device : BitVec 16
  bytes : List Byte
  /-- The pane that its payload is metered to here (R445); none for transit and module traffic. -/
  pane : Option Nat
  /-- Contributor of R248: a pane below 16, 16 + port for transit, 22 for the hub's own. -/
  via : Nat
  /-- Already sealed by its source: it passes on whole. -/
  sealedHdr : Option SlotHdr
  /-- The slot it came in, when it is on its way through: arrival port, beat, slot number (R247). -/
  slot : Option (Nat × Nat × Nat)
  deriving DecidableEq, Repr

/-- Remote-operation state of a pane controller. -/
structure RmoUnit where
  /-- The window table, 256 entries (R199). -/
  windows : Tbl Window
  /-- Key slots 0 and 1. -/
  keys : Tbl SealSlot
  /-- The key slot loaded last, which seals the frames the context sends. -/
  keySel : Nat
  ops : List RmoOp
  nextTag : BitVec 32
  putsIn : List PutIn
  /-- Injection queues of requests and of responses (R249). -/
  injReq : List OutMsg
  injResp : List OutMsg
  /-- Responses, and `BULK` parcels, that wait for room in their injection queue (R249). -/
  respRest : List OutMsg
  late : List Parcel
  /-- Requests that this pane has turned away, for the order of R193. -/
  turned : List TurnedAway
  /-- Requests, responses and refusals that have reached the pane and wait to be served. -/
  reqQ : List Msg
  respQ : List Msg
  refQ : List RefusalMsg
  timeouts : BitVec 16
  nacksIn : BitVec 16
  retries : BitVec 16
  sealFails : BitVec 16
  deriving DecidableEq, Repr

/-- A waiter on a latch: a cell of this module by token, or a remote operation by tag. -/
structure Waiter where
  device : BitVec 16
  pane : BitVec 4
  lcell : Nat
  epoch : BitVec 16
  /-- Target count of a `WAIT`. -/
  target : BitVec 48
  /-- When its request came (R215). -/
  stamp : Nat
  /-- Token of a local latch operation. -/
  localTok : Option Nat
  /-- The request of a remote operation, to answer it. -/
  req : Option Msg
  deriving DecidableEq, Repr

/-- A latch (Table 08-9), its queue of `ACQUIRE`s and its `WAIT`s; `REMOTE_WAIT` and `WAITER_SUMMARY` are read off
these (`latchWord`). -/
structure Latch where
  count : BitVec 48
  holderDevice : BitVec 16
  holderPane : BitVec 4
  state : BitVec 2
  holderEpoch : BitVec 16
  owner : BitVec 5
  ownerEpoch : BitVec 16
  queue : List Waiter
  waits : List Waiter
  deriving DecidableEq, Repr

/-! ### Coherent Control Region (R218 to R221) -/

/-- Directory and cache states. -/
inductive Mesi where
  /-- Modified. -/
  | m
  /-- Exclusive. -/
  | e
  /-- Shared. -/
  | s
  /-- Invalid. -/
  | i
  deriving DecidableEq, Repr

/-- A cached copy of a line. -/
structure CcrCopy where
  state : Mesi
  data : BitVec 512
  deriving DecidableEq, Repr

/-- A request for a line: the requester, whether for ownership, the store that caused it (a mask of the bytes it writes,
and the line that holds them), and the tick it arrived. -/
structure CcrReq where
  requester : Nat
  own : Bool
  store : Option (BitVec 64 × BitVec 512)
  at' : Nat
  deriving DecidableEq, Repr

/-- A transaction at a home: the request, the caches that have not yet answered its snoops, and those whose answer has
not yet reached the home. -/
structure CcrTxn where
  req : CcrReq
  snoops : List Nat
  acks : List Nat
  deriving DecidableEq, Repr

/-- A line of the region: the SRAM's data, the cached copies, the transaction and the requests behind it. -/
structure CcrLine where
  data : BitVec 512
  copies : Tbl CcrCopy
  txn : Option CcrTxn
  waiting : List CcrReq
  deriving DecidableEq, Repr

/-! ### ClouzLink ports (09_clouzlink.md) -/

/-- A slot in the 3-beat store of a transmit direction (R243). -/
structure SentSlot where
  beat : Nat
  img : SlotImg
  deriving DecidableEq, Repr

/-- A slot whose replay the receiver has asked for: its beat and number, the beat of the first request (R243, R245). -/
structure WantedSlot where
  beat : Nat
  slot : Nat
  since : Nat
  deriving DecidableEq, Repr

/-- An unscheduled slot held back until an earlier one's replay has arrived (R244): beat, slot, contents. -/
structure HeldSlot where
  beat : Nat
  slot : Nat
  img : SlotImg
  /-- The module that a sealed slot is bound for. -/
  dest : BitVec 16
  deriving DecidableEq, Repr

/-- A plan slot to be re-sent under a `FORWARD` run (R122): lead pane of the group, plan beat, slot index, contents. -/
structure FwdSlot where
  lead : Nat
  planBeat : Nat
  index : Nat
  img : SlotImg
  /-- Re-sent at once as a replay with this identity (R244). -/
  asReplay : Option (Nat × Nat)
  deriving DecidableEq, Repr

/-- One ClouzLink port. -/
structure Port where
  /-- `LINK_STATE`. -/
  state : BitVec 4
  idleLane : BitVec 3
  split : BitVec 2
  splitMismatch : Bool
  cvPoly : BitVec 2
  cvMode : Bool
  llMajor : BitVec 4
  llMinor : BitVec 4
  linkDelay : BitVec 12
  peerDevice : BitVec 16
  peerPort : BitVec 3
  /-- Beat in which the present state was entered (Table 09-1). -/
  since : Nat
  /-- Consecutive failed training attempts (R228). -/
  attempts : Nat
  /-- End of a training back-off, or of the first attempt's delay. -/
  backoff : Option Nat
  deriving DecidableEq, Repr

/-- The error counts of a port (Table 09-9). -/
structure PortErrors where
  fecCorrected : BitVec 24
  fecUncorr : BitVec 16
  replays : BitVec 16
  checkFails : BitVec 8
  deriving DecidableEq, Repr

/-- The traffic of a port: credits, stores, queues, lane switching. -/
structure PortTraffic where
  /-- Slots sent and slots returned, by class, modulo 65,536 (R247). -/
  sent : Tbl Nat
  returned : Tbl Nat
  /-- Slots freed here, by class. -/
  freed : Tbl Nat
  /-- The last 3 beats of slots sent (R243). -/
  store : List SentSlot
  /-- Slots the peer asks to have replayed: beat bits [23:0], number, and the beat from which they are sent. -/
  replayDue : List (Nat × Nat × Nat)
  /-- Replays this end has asked for. -/
  wanted : List WantedSlot
  /-- Unscheduled slots held back for order (R244). -/
  held : List HeldSlot
  /-- Unscheduled traffic that waits to leave, transit included. -/
  out : List Parcel
  fwd : List FwdSlot
  /-- Slots sent in the current beat by `MGMT` and first-share `BULK` (R248). -/
  mgmtSent : Nat
  bulkSent : Nat
  /-- The contributor served last within each class (R248). -/
  lastVia : Tbl Nat
  /-- Consecutive sills that failed their CRC (R232). -/
  badSills : Nat
  /-- Lane switches under way: beat, direction (0 transmit, 1 receive) and physical lane (R226). -/
  switches : List (Nat × Nat × Nat)
  /-- A lane this end must name in its next sill. -/
  switchAsk : Option Nat
  /-- Physical lanes retired, of 5, in the direction received here and in the one sent. -/
  lanesRx : BitVec 5
  lanesTx : BitVec 5
  peerTime : BitVec 8
  /-- `LL_MAJOR` and `LL_MINOR` of the peer's last sill. -/
  peerOffer : BitVec 16
  /-- Beat number of the sill that the slots now arriving follow (R238). -/
  rxBeat : Nat
  /-- Replays that have arrived, latest first: the last 64. -/
  got : List (Nat × Nat)
  /-- Slots that have been re-sent, and the beat of each re-sending. -/
  resent : List (Nat × Nat × Nat)
  /-- What the port has sent in this beat (R224): 0 before the sill, n + 1 once slots below n have gone out. -/
  txNext : Nat
  /-- What the port sent last: a slot, a sill. -/
  lastSlot : Option SlotImg
  lastSill : Option Sill
  deriving DecidableEq, Repr

/-- A check-value unit in `LEDGER` mode (Table 09-10). -/
structure CvUnit where
  value : BitVec 64
  stream : BitVec 16
  func : BitVec 5
  lstate : BitVec 2
  uncovered : Bool
  /-- Lead pane of the attached stream's group, and slots still to come. -/
  lead : Nat
  left : Nat
  /-- A teardown has detached it from its stream (R341 step 2). -/
  cut : Bool
  deriving DecidableEq, Repr

/-- An entry of the coordinate table (`COORD_LOAD`). -/
structure CoordEntry where
  device : BitVec 16
  x : Nat
  y : Nat
  z : Nat
  deriving DecidableEq, Repr

/-- The six ports with what they share. -/
structure LinkUnit where
  ports : Tbl Port
  errors : Tbl PortErrors
  traffic : Tbl PortTraffic
  /-- Check-value units 0 to 11 by 2 x port + direction. -/
  cv : Tbl CvUnit
  /-- The coordinate table, in identifier order of loading. -/
  coord : List CoordEntry
  deriving DecidableEq, Repr

/-! ### Ring engines, holds and aborts (10_collectives.md) -/

/-- An abort table entry (R281): its key, its hops, the beat it was entered. -/
structure AbortEntry where
  job : BitVec 32
  coll : BitVec 16
  origin : BitVec 16
  hops : BitVec 8
  beat : Nat
  /-- Trigger of Table 10-6, when this module detected it. -/
  trigger : Option (BitVec 4)
  deriving DecidableEq, Repr

/-- A HOLD received or raised: the job, the beat, and whether this module raised it (R273, R274). -/
structure HoldEntry where
  job : BitVec 32
  beat : Nat
  raised : Bool
  deriving DecidableEq, Repr

/-- `COLL_STATUS` of a pane (Table 10-7). -/
structure CollStatus where
  abortBeat : BitVec 48
  origin : BitVec 16
  coll : BitVec 16
  hops : BitVec 8
  trigger : BitVec 4
  aborted : Bool
  originSelf : Bool
  job : BitVec 32
  deriving DecidableEq, Repr

/-- A chunk that a ring engine has advanced (R258), with the places it came from and went to. -/
structure ChunkDone where
  id : ChunkId
  inp : Option ChunkAt
  out : Option ChunkAt
  deriving DecidableEq, Repr

/-- A chunk that is final in a stage but the last: the member's contribution to the next stage (R260). -/
structure ChunkHeld where
  id : ChunkId
  items : List Nat
  deriving DecidableEq, Repr

/-- A collective in progress (R256 to R272). -/
structure CollRun where
  /-- Its descriptor's index. -/
  index : Nat
  /-- Plan step in which it runs. -/
  step : Nat
  /-- The global exponent byte of each block that is known (R263). -/
  expo : Tbl (BitVec 8)
  normOwn : BitVec 640
  noiseOwn : BitVec 640
  nanSeen : Bool
  /-- Chunks advanced so far. -/
  done : List ChunkDone
  /-- Results of stages. -/
  held : List ChunkHeld
  /-- Ranges of elements, as first and number, whose exponent bytes are known. -/
  known : List (Nat × Nat)
  /-- Ranges of elements that stand at `DST_ADDR`. -/
  written : List (Nat × Nat)
  deriving DecidableEq, Repr

/-- Ring-engine state of the module. -/
structure CollUnit where
  aborts : List AbortEntry
  holds : List HoldEntry
  holdsRaised : BitVec 16
  holdPeriods : BitVec 16
  abortsSeen : BitVec 16
  deriving DecidableEq, Repr

/-! ### Panes, contexts and groups (05, 10, 12, 13) -/

/-- `PANE_STATE` (Table 13-2). -/
inductive PaneState where
  /-- `FREE`. -/
  | free
  /-- `OPEN`. -/
  | opened
  /-- `TEARDOWN`. -/
  | teardown
  /-- `SHUTTERING`. -/
  | shuttering
  /-- `TESTING`. -/
  | testing
  /-- `OUT_OF_SERVICE`. -/
  | outOfService
  deriving DecidableEq, Repr

/-- A teardown asked for or under way (R341): its cause (Table 13-4), whether the far tier is kept, the beat d, the tag
and epoch of the context that ends. -/
structure Shutter where
  cause : BitVec 8
  keepFar : Bool
  /-- Beat d of step 1. -/
  d : Nat
  oldTag : BitVec 32
  oldEpoch : BitVec 16
  /-- `SEQ` of the `GEN_BUMP` that zeroes the owner slot. -/
  farSeq : Nat
  farZeroed : Bool
  latchesFreed : Nat
  /-- A pane reset (rung 3) ends with it. -/
  paneReset : Bool
  deriving DecidableEq, Repr

/-- `CTX_FAULT` (Table 16-4). -/
structure CtxFault where
  beat : BitVec 48
  job : BitVec 32
  epoch : BitVec 16
  source : BitVec 16
  fcode : BitVec 8
  lcell : BitVec 6
  deriving DecidableEq, Repr

/-- The status registers of a pane: `PANE_SEQ_STATUS`, `CTX_SLOWDOWN`, `HOLD_CAUSES`. -/
structure PaneRegs where
  heldBeats : BitVec 32
  lateMax : BitVec 32
  lastStepBeats : BitVec 24
  slowdown : BitVec 24
  stepsDone : BitVec 16
  ownLate : BitVec 16
  streamLate : BitVec 16
  notReady : BitVec 16
  peerHold : BitVec 16
  deriving DecidableEq, Repr

/-- `HSTATE` of a storm-copy buffer held for a buddy (Table 15-6). -/
inductive HState where
  /-- Empty. -/
  | empty
  /-- Frames are arriving. -/
  | opened
  /-- Committed. -/
  | committed
  deriving DecidableEq, Repr

/-- One buffer of a storm region that a pane holds for a source group (R386, R387): an entry of `STORM_HELD`
(Table 15-6), with the place of its buffer. -/
structure HeldCopy where
  /-- Near-tier offset of the buffer. -/
  base : Nat
  step : BitVec 48
  srcDevice : BitVec 16
  srcPane : BitVec 4
  hstate : HState
  /-- `FRAMES`. -/
  frames : BitVec 32
  deriving DecidableEq, Repr

/-- One pane. -/
structure Pane where
  state : PaneState
  /-- Context epoch (R211). -/
  epoch : BitVec 16
  /-- Job tag of the context; zero when none. -/
  jobTag : BitVec 32
  /-- The owner slot's record: job tag and `KEPT` (R347). -/
  ownerTag : BitVec 32
  kept : Bool
  regs : PaneRegs
  coll : CollStatus
  near : NearTier
  rmo : RmoUnit
  /-- `CELL_ARITH_FLAGS` by logical cell. -/
  arith : Tbl (BitVec 8)
  /-- Logical cells held by a spare: physical 32 or 33; an unlisted one is held by its own number (R67). -/
  cellSub : Tbl Nat
  /-- Physical cells retired, from the retirement ledger. -/
  retired : BitVec 34
  /-- Physical cells declared faulty whose retirement is due: number, uncorrectable (R69, R70). -/
  dueCells : List (Nat × Bool)
  /-- Spare takeovers in progress: logical cell and spare (R68). -/
  takeovers : List (Nat × Nat)
  /-- Latches of the context's list, in order of allocation (R208). -/
  latchList : List Nat
  /-- Arrivals at each barrier, as logical cells (Table 03-9). -/
  barriers : Tbl (BitVec 32)
  shutter : Option Shutter
  cert : List Byte
  ctxFault : CtxFault
  /-- Beat of the end of a context reset in progress (R408). -/
  resetUntil : Option Nat
  /-- Beat boundary from which a context reset that has been ordered acts (R408). -/
  resetFrom : Option Nat
  /-- The pane is out of service for a failed self-test. -/
  failedTest : Bool
  /-- A pane reset asked for while a shutter was in progress waits for it (R345). -/
  resetDue : Bool
  /-- Storm-copy buffers held, by 3 x region + buffer (Table 15-6). -/
  held : Tbl HeldCopy
  deriving DecidableEq, Repr

/-- The end of a Plan (R130, R31, R282). -/
inductive PlanEnd where
  /-- Stopped at the end of a step. -/
  | stopped
  /-- Terminated by loss of time. -/
  | lostTime
  /-- Terminated by abort. -/
  | aborted
  deriving DecidableEq, Repr

/-- What made a held beat (R352). -/
inductive HoldCause where
  /-- A block beyond its slack. -/
  | ownLate
  /-- A late stream-class extent. -/
  | streamLate
  /-- A stream or collective not ready. -/
  | notReady
  /-- HOLD from another member. -/
  | peer
  deriving DecidableEq, Repr

/-- An accepted start and the run that follows it (R129, R54, R55). -/
structure Run where
  epoch : Nat
  /-- Job step counter of plan step 0 (R99). -/
  firstStep : Nat
  /-- Steps to run; 0 until stopped. -/
  stepCount : Nat
  k0 : BitVec 64
  k1 : BitVec 64
  /-- Plan beat 0 has begun. -/
  started : Bool
  /-- The plan beat that the next unheld beat takes (R54): in an unheld beat one more than its own, in a held beat the
  one that the held beat would have taken. -/
  nextBeat : Nat
  /-- Plan step in progress. -/
  planStep : Nat
  /-- The last plan step whose boundary the group's storm copies have gone through (R388, R390). -/
  stormStep : Nat
  /-- A stop takes effect at the end of the step (R130). -/
  stopping : Bool
  /-- The present beat is held, and for what cause. -/
  held : Option HoldCause
  /-- Plan beats before which beats were held, and how many (R55, R56: the lateness of a block). -/
  holdLog : List (Nat × Nat)
  /-- A hold that a pane has asked for: its cause and the beat of asking (R57). -/
  wantHold : Option (HoldCause × Nat)
  /-- Module beat of the first beat of the plan step in progress (R351). -/
  stepStart : Nat
  /-- Hold periods to come, as their first beats (R273). -/
  periods : List (Nat × HoldCause)
  /-- Consecutive grid beats at which HOLD was raised (R277), and the last of them. -/
  gridRuns : Nat
  lastGrid : Nat
  /-- Module beats and the plan beats they took, latest first: the last 16 unheld beats (R244). -/
  taken : List (Nat × Nat)
  /-- Slots received of each receive stream (R121), by 65,536 x plan step + stream, of this step and the one before. -/
  received : Tbl Nat
  /-- Slots received of each chunk, and the plan beat of the last (R258), by 2^32 x the key of its stream + chunk. -/
  chunks : Tbl (Nat × Nat)
  /-- Transmit streams that have begun in this step. -/
  begun : Tbl Bool
  /-- Extents in progress: index, plan step (R156). -/
  extents : List (Nat × Nat)
  /-- Extents already started in this step. -/
  extentsDone : List Nat
  colls : List CollRun
  collsDone : List Nat
  /-- The sum of the step's `NORM_SQ` fields (R291), and whether a record of the step saw NaN or infinity (R293). -/
  normSum : BitVec 640
  normNan : Bool
  deriving DecidableEq, Repr

/-- A storm copy in progress (R388 to R391). -/
structure CopyRun where
  /-- Job step of the boundary it copies. -/
  step : Nat
  buf : Nat
  /-- Its snapshot is complete. -/
  taken : Bool
  /-- Beat in which its `COMMIT` was sent. -/
  commitBeat : Option Nat
  /-- The copy also feeds a drain. -/
  drain : Bool
  deriving DecidableEq, Repr

/-- A drain of a snapshot to the store (R393 to R395). -/
structure DrainRun where
  step : Nat
  jobTag : BitVec 32
  /-- The store object descriptor (Table 21-6). -/
  desc : List Byte
  /-- Step B + I, before whose plan beat 0 the drain is to be complete (R394). -/
  limit : Nat
  /-- Its staging has been written to the far tier, acknowledged or not. -/
  wrote : Bool
  /-- Staged in the far tier. -/
  staged : Bool
  image : List (List Byte)
  deriving DecidableEq, Repr

/-- `BUDDY_SET` (R386) and `DRAIN_SET` (R393) of a group, and its intervals. -/
structure StormCfg where
  buddy : Option (BitVec 16 × BitVec 8 × Nat × Nat)
  /-- Storm interval I, in steps. -/
  interval : Nat
  /-- Drain interval N, in steps, and the store object descriptor. -/
  drain : Option (Nat × List Byte)
  /-- `STORM_NOW` is pending. -/
  now : Bool
  /-- A warning of failure is pending (R388). -/
  warned : Bool
  /-- Staging region, in GiB (R150). -/
  stagingGib : Nat
  deriving DecidableEq, Repr

/-- `STORM_STATUS` (Table 15-5). -/
structure StormStatus where
  drainedStep : BitVec 48
  drainState : BitVec 2
  buddyLost : Bool
  lastBuf : BitVec 2
  commitStep : BitVec 48
  abandoned : BitVec 16
  deriving DecidableEq, Repr

/-- A job map (Table 12-2). -/
structure JobMap where
  family : BitVec 64
  variant : BitVec 32
  jobTag : BitVec 32
  shape : Nat × Nat × Nat
  fold : BitVec 3
  entries : List (BitVec 16)
  deriving DecidableEq, Repr

/-- A context group: the panes bound together, its allocations, its Plan and its run. -/
structure Group where
  /-- Panes of the group. -/
  members : BitVec 16
  /-- Slot masks by 2 x port + direction (Table 13-1). -/
  slots : Tbl (BitVec 256)
  streamShare : Nat
  jobMap : Option JobMap
  exactBf16 : Bool
  isSealed : Bool
  /-- The loaded Plan, as delivered. -/
  plan : Option (List Byte)
  /-- Its end, once it has ended. -/
  ended : Option PlanEnd
  /-- Actual lengths of the last 64 steps completed since Plan load, latest first (R351). -/
  lengths : List Nat
  /-- An abort detected or received for its job, which stops its Plan at the next boundary (R282). -/
  abortDue : Option AbortEntry
  run : Option Run
  /-- Misplaced slots (R124). -/
  misplaced : Nat
  /-- The last beat in which a misplaced slot was recorded: one event a beat. -/
  misplacedBeat : Option Nat
  storm : StormCfg
  status : StormStatus
  /-- Storm copies in progress, oldest first. -/
  copies : List CopyRun
  deriving DecidableEq, Repr

/-! ### Doorkeeper (14_command_interface.md) -/

/-- `MSTATE`. -/
inductive MState where
  /-- `IDLE`. -/
  | idle
  /-- `WAITING`. -/
  | waiting
  /-- `RUNNING`. -/
  | running
  /-- `DONE`. -/
  | done
  deriving DecidableEq, Repr

/-- A status reply (Table 14-7): status, echoes, beats and result. -/
structure Reply where
  status : BitVec 16
  opcode : BitVec 16
  seq : BitVec 32
  atBeat : Nat
  detail : BitVec 16
  stampBeat : Nat
  stampTick : Nat
  result : List Byte
  /-- Bulk-out bytes written at `BULK_ADDR`. -/
  bulk : List Byte
  deriving DecidableEq, Repr

/-- A command in its mailbox, waiting or running. -/
structure Job where
  opcode : BitVec 16
  packet : Packet
  /-- Order of acceptance of its doorbell, as beat x 8,192 + tick (R367). -/
  order : Nat
  /-- Beat in which it started. -/
  start : Option Nat
  /-- Its bound from Table 14-11 in beats (R374). -/
  bound : Nat
  /-- Panes it locks (R366); all ones for the whole module. -/
  locks : BitVec 16
  wholeModule : Bool
  /-- The reply with which it will end, once its effect has decided it; `none` while it is still open. -/
  outcome : Option Reply
  /-- Near-tier ranges it is writing (pane, offset, length), which an end by `ST_ABORTED` leaves undefined (R378). -/
  writing : List (Nat × Nat × Nat)
  /-- Data frames or bytes that have arrived for it, how many there will be, and the beat of the last arrival (R397). -/
  got : Nat
  need : Option Nat
  lastBeat : Nat
  deriving DecidableEq, Repr

/-- A mailbox (R357); requester 17's is the fabric-manager channel's. -/
structure Mailbox where
  mstate : MState
  stateBeat : Nat
  refusals : BitVec 16
  atBeat : Nat
  doneIe : Bool
  escIe : Bool
  /-- `HELLO` has fixed the command-protocol version (R365). -/
  hello : Bool
  job : Option Job
  reply : Option Reply
  /-- Request area, as the driver writes it. -/
  request : Tbl Byte
  deriving DecidableEq, Repr

/-- The escape of mailbox 0 (R376, R377). -/
structure Escape where
  /-- `ESTATE`: 0 idle, 1 running, 3 done are encoded by the register. -/
  estate : MState
  job : Option Job
  reply : Option Reply
  request : Tbl Byte
  deriving DecidableEq, Repr

/-- The Doorkeeper. -/
structure Doorkeeper where
  /-- It serves commands (R373). -/
  ready : Bool
  mbx : Tbl Mailbox
  esc : Escape
  deriving DecidableEq, Repr
/-! ### Faults and resets (16_faults_and_reset.md) -/

/-- A window counter of Table 16-2: the current sub-window's number, the counts of it and the seven before it, newest
first, and whether its warning stands (R402, R404). -/
structure WinCount where
  sub : Nat
  counts : List Nat
  warned : Bool
  deriving DecidableEq, Repr

/-- A fault notice (Table 16-7). -/
structure Notice where
  ntype : BitVec 8
  pane : BitVec 8
  moduleId : BitVec 16
  jobTag : BitVec 32
  epoch : BitVec 16
  code : BitVec 8
  index : BitVec 8
  stampBeat : Nat
  stampTick : Nat
  source : BitVec 16
  nseq : BitVec 64
  deriving DecidableEq, Repr

/-- A reset that the module has initiated itself (R413): its rung, its pane or engine, its bound as a beat. -/
structure SelfReset where
  rung : Nat
  index : Nat
  deadline : Nat
  deriving DecidableEq, Repr

/-- Fault counting, notices and reset bookkeeping. -/
structure FaultUnit where
  /-- Window counters by row x 2^24 + index (rows A = 1 to L = 11). -/
  windows : Tbl WinCount
  /-- `HUB_DEGRADED`. -/
  hubDegraded : Bool
  /-- `REF_SUSPECT`. -/
  refSuspect : Bool
  /-- `LAST_RESET`. -/
  lastReset : BitVec 3
  /-- `DECLARATIONS`. -/
  declarations : BitVec 24
  /-- `NOTICES_LOST`. -/
  noticesLost : BitVec 16
  /-- Notices not yet sent, oldest first. -/
  notices : List Notice
  /-- `NSEQ` of the last notice. -/
  nseq : BitVec 64
  /-- Beats counted since the last module reset that a hub fault caused (R412). -/
  sinceHubFault : Option Nat
  /-- Beat of the last pane hardware fault, by pane (R410). -/
  paneFaults : Tbl Nat
  /-- Beat of the last row L declaration, by engine. -/
  ethDeclared : Tbl Nat
  /-- Ethernet engines out of service. -/
  ethOut : BitVec 2
  /-- Resets the module has initiated itself and that are not complete (R413). -/
  selfResets : List SelfReset
  /-- The hub failed its self-test after a power cycle: the module stays in reset (R412, R426). -/
  hubDead : Bool
  deriving DecidableEq, Repr

/-! ### Self-test (17_self_test.md) -/

/-- An entry of `TEST_LEDGER` (Table 17-3). -/
structure TestEntry where
  signature : BitVec 64
  steppingTag : BitVec 16
  count : BitVec 16
  result : BitVec 4
  used : Bool
  deriving DecidableEq, Repr

/-- The test of one pane (Table 17-4). -/
structure PaneTest where
  tstate : BitVec 3
  phase : Nat
  /-- Beat in which the phase started. -/
  since : Nat
  /-- Order of starting, for R428 and R429. -/
  order : Nat
  /-- Units that have failed so far: physical cells, physical pseudo-channels, pane-logic units (R423). -/
  failedCells : BitVec 34
  failedPcs : BitVec 68
  failedLogic : BitVec 8
  deriving DecidableEq, Repr

/-- The self-test unit. -/
structure TestUnit where
  /-- Entries 0 to 16; one not listed is as manufacture left it (`ledgerZero`). -/
  ledger : Tbl TestEntry
  panes : Tbl PaneTest
  /-- `HUB_TSTATE`. -/
  hub : BitVec 3
  hubSince : Nat
  /-- Beats that the hub test of this start-up has taken (R486). -/
  hubSpent : Nat
  /-- `PARKED`. -/
  parked : Bool
  /-- `FAILED_MASK`. -/
  failedMask : BitVec 16
  /-- A `SHUTDOWN` has returned: `some true` with `TEST` (R433). -/
  shutdown : Option Bool
  nextOrder : Nat
  /-- Panes whose start-up test is due after their shutter (R432). -/
  startDue : BitVec 16
  deriving DecidableEq, Repr

/-! ### Metrology Island (18_metrology_island.md) -/

/-- What the island accumulates for a pane's open occupancy, for a pane's kept space, or for the module (R443, R446,
R447). Times in nanoseconds of island time. -/
structure Meter where
  jobTag : BitVec 32
  epoch : BitVec 16
  occBeats : Nat
  occNs : Nat
  nearAcc : Nat
  /-- Far tier, in byte x ns. -/
  farAcc : Nat
  torus : Nat
  eth : Nat
  refusals : Nat
  /-- The module beat was not `LOCKED` for part of the span. -/
  notLocked : Bool
  /-- Island ms of the record that opened the span. -/
  sinceMs : Nat
  deriving DecidableEq, Repr

/-- A record: `SEQ`, body (64 bytes) and signature (64 bytes). -/
structure MeterRec where
  seq : Nat
  body : List Byte
  sig : List Byte
  deriving DecidableEq, Repr

/-- The Metrology Island. -/
structure Island where
  /-- It has power and runs. -/
  running : Bool
  /-- Island time in nanoseconds (R449). -/
  ns : Nat
  /-- Island ms of the last interval boundary. -/
  lastBoundary : Nat
  intervalMs : Nat
  /-- `NEWEST_SEQ`. -/
  newestSeq : Nat
  /-- Records by `SEQ` mod 65,536. -/
  store : Tbl MeterRec
  /-- Records that could not yet be made durable (R466). -/
  held : List MeterRec
  readSeq : Nat
  lostUnread : BitVec 32
  storeWarn : Bool
  fault : Bool
  /-- It has stopped measuring and writing (R461, R466). -/
  stopped : Bool
  debugOpen : Bool
  sealCount : BitVec 16
  legalVersion : BitVec 32
  legalSha : List Byte
  /-- Open occupancies by pane. -/
  meters : Tbl Meter
  /-- Kept spaces by pane. -/
  kept : Tbl Meter
  /-- The module's own account (R447). -/
  oper : Meter
  deriving DecidableEq, Repr

/-! ### Event recorder (19_event_recorder.md) -/

/-- The last record of a privileged code (R476): ring offset, segment, fold key, `COUNT`, length. -/
structure LastRec where
  ofs : Nat
  seg : Nat
  key : List Byte
  source : BitVec 16
  count : Nat
  deriving DecidableEq, Repr

/-- A record of the recorder's own that fell due during a freeze (R475): code, stamp (none: when written), payload. -/
structure DueRec where
  code : BitVec 16
  stamp : Option (Nat × Nat)
  payload : List Byte
  deriving DecidableEq, Repr

/-- The event recorder. -/
structure Recorder where
  /-- The 8 MiB ring. -/
  ring : Mem
  /-- Offset of the next record. -/
  wr : Nat
  /-- `SEG_NO` of the current segment; none before the first. -/
  segNo : Option Nat
  /-- Records in each segment held, by `SEG_NO`. -/
  segRecs : Tbl Nat
  nextRseq : Nat
  /-- Events delivered and not yet accepted, each with the instant of its delivery (R473). -/
  queue : List (Nat × Event)
  /-- Beat and tick of the last acceptance. -/
  lastAccept : Option (Nat × Nat)
  lost : BitVec 24
  /-- Events lost since the last `EV_RECORDS_LOST` of cause 0. -/
  lostSince : Nat
  frozen : Bool
  drops : BitVec 16
  dropStamps : Option ((BitVec 16 × Nat × Nat) × (BitVec 16 × Nat × Nat))
  /-- `SPILLED_SEG`; none while no segment is durable. -/
  spilled : Option Nat
  /-- Segments queued for spill, oldest first; the first may be in progress. -/
  spillQueue : List Nat
  spilling : Bool
  limit : Nat
  /-- Records written of each limited code, by epoch x 65,536 + code (R474). -/
  written : Tbl Nat
  /-- Events suppressed, by epoch x 65,536 + code. -/
  suppressed : Tbl Nat
  /-- New records of each privileged code in an epoch, by epoch x 65,536 + code (R476). -/
  fresh : Tbl Nat
  /-- The last record of each privileged code, by code. -/
  lastRec : Tbl LastRec
  /-- Epoch up to which `EV_SUPPRESSED` has been written (exclusive). -/
  summed : Nat
  due : List DueRec
  deriving DecidableEq, Repr

/-! ### Power, modes and identity (20_startup_power_and_modes.md, 22_package_and_electrical.md) -/

/-- Start-up, pins, power and thermal state. -/
structure PowerUnit where
  /-- The 54 V input is present. -/
  input : Bool
  /-- Pins of Table 22-4. -/
  pwrEn : Bool
  pwrGood : Bool
  holdupOk : Bool
  resetN : Bool
  thermTrip : Bool
  straps : BitVec 4
  /-- Sideband static address (R534). -/
  sbAddr : BitVec 8
  /-- The hub is out of reset. -/
  hubUp : Bool
  /-- Beat of t0. -/
  t0 : Nat
  /-- Step 7 of Table 20-1 is done. -/
  broughtUp : Bool
  capMode : BitVec 2
  capReq : BitVec 2
  capThrottle : Bool
  trip : Bool
  tripWarn : Bool
  crit : Bool
  /-- A critical threshold halts every sequencer at the next boundary (R500). -/
  critDue : Bool
  hotSensor : BitVec 8
  hotTemp : BitVec 8
  inputW : BitVec 16
  trips : BitVec 16
  /-- Last temperature of each sensor. -/
  temps : Tbl Nat
  /-- Beat since which every sensor has been below its clear threshold. -/
  coolSince : Option Nat
  /-- The cell clock in force, in MHz. -/
  mhz : Nat
  /-- Slot split, check-value mode and polynomial, far-tier write mode (Table 20-5). -/
  slotSplit : BitVec 2
  cvFrame : Bool
  cvPoly : BitVec 2
  farEndurance : Bool
  /-- Identifier of the accepted `IDENTITY_SET` of this power-up. -/
  identity : Option (BitVec 16)
  /-- Config byte of `IDENTITY_SET`. -/
  idConfig : BitVec 8
  /-- Identifier kept in hub nonvolatile cells (R487). -/
  startId : Option (BitVec 16)
  /-- `COORD_LOAD` has been accepted in this power-up (R488). -/
  coordLoaded : Bool
  /-- The images that step 5 of Table 20-1 loads, by target (0 Doorkeeper, 1 service cores, 2 far-tier controller), each
  as the number of its delivery, 0 as shipped; and those that run (R512). -/
  firmware : Tbl Nat
  fwRunning : Tbl Nat
  deriving DecidableEq, Repr

/-! ### Host, sideband, fabric-manager channel and store (21_host_and_storage_interfaces.md) -/

/-- The completion of a register access. -/
inductive Completion where
  /-- None yet. -/
  | none
  /-- Read data. -/
  | data (v : BitVec 64)
  /-- A write, accepted or ignored. -/
  | written
  /-- Unsupported Request. -/
  | unsupported
  deriving DecidableEq, Repr

/-- PCIe state. -/
structure HostUnit where
  vfEnable : Bool
  numVfs : Nat
  /-- The completion of the last register access. -/
  last : Completion
  /-- Register snapshots by function (0 PF, n VF n): base offset and the words (R507). -/
  snaps : Tbl (Nat × List (BitVec 64))
  /-- MSI-X table and PBA of each function, by function x 4,096 + offset; an unlisted byte is as reset leaves it: every
  vector masked, all else zero. -/
  msix : Tbl Byte
  /-- MSI-X writes made, latest first, as function and vector: the last 16. -/
  fired : List (Nat × Nat)
  /-- Translation cache: function and page (R509). -/
  ats : List (Nat × Nat)
  deriving DecidableEq, Repr

/-- A reply on the sideband (Table 21-4). -/
structure SbReply where
  kind : BitVec 8
  sstatus : BitVec 8
  device : BitVec 16
  xid : BitVec 32
  ofs : BitVec 32
  total : BitVec 32
  data : List Byte
  deriving DecidableEq, Repr

/-- A request packet being put together from its fragments, at the module that runs it. -/
structure FmPacket where
  entry : BitVec 16
  xid : BitVec 32
  total : Nat
  /-- Bytes received, by offset. -/
  bytes : Mem
  got : Nat
  deriving DecidableEq, Repr

/-- A request this module relays as entry module: its transaction, target, and the beat from which its 1,024 beats
run (R514). -/
structure FmRelay where
  xid : BitVec 32
  device : BitVec 16
  since : Option Nat
  got : Nat
  deriving DecidableEq, Repr

/-- The fabric-manager channel. -/
structure FmUnit where
  partials : List FmPacket
  relays : List FmRelay
  /-- The request that requester 17 is running: its entry module (none: this module), `XID`, beat of the last receipt. -/
  current : Option (Option (BitVec 16) × BitVec 32 × Nat)
  /-- Replies that this module has put on its sideband, latest first: the last 16. -/
  replies : List SbReply
  deriving DecidableEq, Repr

/-- Who a store transaction belongs to. -/
inductive StoreOwner where
  /-- The drain of the group led by a pane. -/
  | drain (lead : Nat)
  /-- A `SHARD_FETCH` of a requester. -/
  | fetch (r : Nat)
  /-- A store `RESTORE` of a requester. -/
  | restore (r : Nat)
  deriving DecidableEq, Repr

/-- Where a store transaction stands (R519, R520). -/
inductive StorePhase where
  /-- `OPEN` sent. -/
  | opening
  /-- Granted; data frames or reads under way. -/
  | moving
  /-- `CLOSE` sent. -/
  | closed
  /-- Refused busy: to be retried at the beat given. -/
  | waiting (beat : Nat)
  deriving DecidableEq, Repr

/-- A store-layer transaction (R518). -/
structure StoreTxn where
  xid : BitVec 32
  owner : StoreOwner
  phase : StorePhase
  desc : List Byte
  moduleId : BitVec 16
  step : BitVec 48
  length : Nat
  rkey : BitVec 32
  addr : BitVec 64
  objCrc : BitVec 64
  deriving DecidableEq, Repr

/-- The store layer. -/
structure StoreUnit where
  txns : List StoreTxn
  nextXid : BitVec 32
  /-- Drains in progress, by owner slot (the lead pane of the group). -/
  drains : Tbl DrainRun
  /-- Messages sent, latest first: the last 16 (Table 21-7). -/
  sent : List (List Byte)
  deriving DecidableEq, Repr

/-! ### The module -/

/-- The module's state. -/
structure State where
  time : BeatUnit
  /-- Panes P0 to P15. -/
  panes : Tbl Pane
  /-- Physical cells by 64 x pane + number. -/
  cells : Tbl Cell
  /-- Context groups. -/
  groups : List Group
  far : FarTier
  /-- The latch pool, by latch number. -/
  latches : Tbl Latch
  /-- The Coherent Control Region, by line. -/
  ccr : Tbl CcrLine
  links : LinkUnit
  collU : CollUnit
  dk : Doorkeeper
  faults : FaultUnit
  test : TestUnit
  island : Island
  evrec : Recorder
  power : PowerUnit
  host : HostUnit
  fm : FmUnit
  store : StoreUnit
  /-- Free values drawn so far (the model's own field, not the manual's). -/
  free : Nat
  /-- Commands waiting, first in first out. -/
  pending : List Instr
  deriving DecidableEq, Repr
/-! ### Outcomes -/

/-- Why the machine stops with a fault. No command of this block stops the machine: what the manual calls a fault ends a
context, resets a domain or is counted, and is a next state. The type has no constructor. -/
inductive Fault where
  deriving DecidableEq, Repr

/-- Why a command has no meaning. -/
inductive Refusal where
  /-- Raised by the arm of a command that has no meaning yet, which it names. Safe: nothing is claimed of it. -/
  | notModelled (mnemonic : String)
  deriving DecidableEq, Repr

/-! ### Reset: the module at t0 (R485, R542) -/

/-- The beat unit at t0: tick 0 of local beat 0, `UNSYNC` (R542, Table 02-1, Tables 02-4 and 02-5). -/
def BeatUnit.reset : BeatUnit :=
  { beat := 0, tick := 0, lead := 0, mode := .unsync, limitSel := 2, episodeLimit := 1024, phaseHits := 0
    holdoverBeats := 0, trim := 0, trimActive := 0, goodMarkers := 0, lastMarker := none, lockBeat := none
    markerFor := none, hitFor := none, holdFor := none, phaseError := 0, phaseStep := 0, stretch := false, runOut := none }

/-- An empty accumulator set (R539). -/
def AccSet.reset : AccSet :=
  { mode := .empty, kCount := 0, inexact := false, viol := false, tBase := 0, rowAnc := [], colAnc := [], lanes := [] }

/-- A cell with everything zero. -/
def Cell.reset : Cell :=
  { store := [], accA := .reset, accB := .reset, issA := .empty, issB := .empty, vregs := [], preds := [], sregs := []
    istore := [], instrCount := 0, seqTab := [], seqCount := 0, tokSet := 0, tokBusy := 0, flights := []
    running := false, pc := 0, loops := [], jobStep := 0, k0 := 0, k1 := 0, barrier := none, seqIdx := 0
    seqStep := 0, halted := false }

/-- A near-tier stack with everything zero (Tables 06-2 and 06-3). -/
def NearTier.reset : NearTier :=
  { mem := [], poison := [], retries := [], ceCount := 0, ueCount := 0, lastUePc := 0x7F, pcRetired := 0, pcSub := []
    short := false, copying := [], duePcs := [], undef := [] }

/-- Remote-operation state with no window, no key and nothing in progress. -/
def RmoUnit.reset : RmoUnit :=
  { windows := [], keys := [], keySel := 0, ops := [], nextTag := 0, putsIn := [], injReq := [], injResp := []
    respRest := [], late := [], turned := [], reqQ := [], respQ := [], refQ := [], timeouts := 0, nacksIn := 0, retries := 0, sealFails := 0 }

/-- No fault recorded (Table 16-4). -/
def CtxFault.reset : CtxFault := { beat := 0, job := 0, epoch := 0, source := 0, fcode := 0, lcell := 0x3F }

/-- Pane registers at zero (Tables 03-5, 13-7 and 13-8). -/
def PaneRegs.reset : PaneRegs :=
  { heldBeats := 0, lateMax := 0, lastStepBeats := 0, slowdown := 0, stepsDone := 0, ownLate := 0, streamLate := 0
    notReady := 0, peerHold := 0 }

/-- `COLL_STATUS` at zero (Table 10-7). -/
def CollStatus.reset : CollStatus :=
  { abortBeat := 0, origin := 0, coll := 0, hops := 0, trigger := 0, aborted := false, originSelf := false, job := 0 }

/-- A pane at t0: `SHUTTERING` until step 8 of Table 20-1 (R486, Table 13-10). -/
def Pane.reset : Pane :=
  { state := .shuttering, epoch := 0, jobTag := 0, ownerTag := 0, kept := false, regs := .reset, coll := .reset
    near := .reset, rmo := .reset, arith := [], cellSub := [], retired := 0, dueCells := [], takeovers := []
    latchList := [], barriers := [], shutter := none, cert := List.replicate 64 0, ctxFault := .reset
    resetUntil := none, resetFrom := none, failedTest := false, resetDue := false, held := [] }

/-- A far-tier controller that has yet to run `recover` (Table 20-1 step 6), with nothing written. -/
def FarTier.reset : FarTier :=
  { owners := [], media := [], blocks := [], nextChannel := 0, journal := [], nextSeq := 0, durSeq := 0
    ckpt := { seq := 0, beat := 0, owners := [], blocks := [] }, ckptNext := none, progs := [], writes := [], nextWrite := 0, gcs := [], written := 0, life := 0, lifeMark := 0
    readOnly := false, holdupLow := true, recovering := true, uncorr := 0, quotas := [], certSeq := 0, keyDraws := 17
    zeroing := [], recalibrated := 0, holdupBeat := 0, powerLost := false }

/-- A port `DOWN` (Table 09-8). -/
def Port.reset : Port :=
  { state := 0, idleLane := 4, split := 0, splitMismatch := false, cvPoly := 0, cvMode := true, llMajor := 0, llMinor := 0
    linkDelay := 0, peerDevice := 0, peerPort := 0, since := 0, attempts := 0, backoff := none }

/-- Error counts at zero (Table 09-9). -/
def PortErrors.reset : PortErrors := { fecCorrected := 0, fecUncorr := 0, replays := 0, checkFails := 0 }

/-- No traffic. -/
def PortTraffic.reset : PortTraffic :=
  { sent := [], returned := [], freed := [], store := [], replayDue := [], wanted := [], held := [], out := [], fwd := []
    mgmtSent := 0, bulkSent := 0, lastVia := [], badSills := 0, switches := [], switchAsk := none, lanesRx := 0
    lanesTx := 0, peerTime := 0, peerOffer := 0, rxBeat := 0, got := [], resent := [], txNext := 0, lastSlot := none
    lastSill := none }

/-- An idle check-value unit (Table 09-10). -/
def CvUnit.reset : CvUnit :=
  { value := 0, stream := 0, func := 0, lstate := 0, uncovered := false, lead := 0, left := 0, cut := false }

/-- A mailbox at reset (Tables 14-3 to 14-5). -/
def Mailbox.reset : Mailbox :=
  { mstate := .idle, stateBeat := 0, refusals := 0, atBeat := 0, doneIe := false, escIe := false, hello := false
    job := none, reply := none, request := [] }

/-- No test (Table 17-4). -/
def PaneTest.reset : PaneTest :=
  { tstate := 0, phase := 0, since := 0, order := 0, failedCells := 0, failedPcs := 0, failedLogic := 0 }

/-- A meter that has accrued nothing. -/
def Meter.reset : Meter :=
  { jobTag := 0, epoch := 0, occBeats := 0, occNs := 0, nearAcc := 0, farAcc := 0, torus := 0, eth := 0, refusals := 0
    notLocked := false, sinceMs := 0 }

/-- The island at the module's first start. -/
def Island.reset : Island :=
  { running := true, ns := 0, lastBoundary := 0, intervalMs := 30000, newestSeq := 0, store := [], held := [], readSeq := 0
    lostUnread := 0, storeWarn := false, fault := false, stopped := false, debugOpen := false, sealCount := 0
    legalVersion := 0x01000007, legalSha := [], meters := [], kept := [], oper := .reset }

/-- An empty recorder (Tables 19-3 to 19-5). -/
def Recorder.reset : Recorder :=
  { ring := [], wr := 0, segNo := none, segRecs := [], nextRseq := 0, queue := [], lastAccept := none, lost := 0
    lostSince := 0, frozen := false, drops := 0, dropStamps := none, spilled := none
    spillQueue := [], spilling := false, limit := 64, written := [], suppressed := [], fresh := [], lastRec := []
    summed := 0, due := [] }

/-- Power and modes at t0 of the first power-up (Tables 20-1, 20-3, 20-5, 20-6). -/
def PowerUnit.reset : PowerUnit :=
  { input := true, pwrEn := true, pwrGood := true, holdupOk := true, resetN := true, thermTrip := false, straps := 0
    sbAddr := 0x30, hubUp := true, t0 := 0, broughtUp := false, capMode := 0, capReq := 0
    capThrottle := false, trip := false, tripWarn := false, crit := false, critDue := false, hotSensor := 0xFF
    hotTemp := 0, inputW := 0, trips := 0, temps := [], coolSince := none, mhz := 1800, slotSplit := 0
    cvFrame := true, cvPoly := 0, farEndurance := false, identity := none, idConfig := 0, startId := none
    coordLoaded := false, firmware := [], fwRunning := [] }

/-- The module at t0 of its first power-up (R485): the hub has just left reset. -/
def State.reset : State :=
  { time := .reset
    panes := []
    cells := []
    groups := []
    far := .reset
    latches := []
    ccr := []
    links := { ports := [], errors := [], traffic := [], cv := [], coord := [] }
    collU := { aborts := [], holds := [], holdsRaised := 0, holdPeriods := 0, abortsSeen := 0 }
    dk := { ready := false, mbx := [], esc := { estate := .idle, job := none, reply := none, request := [] } }
    faults :=
      { windows := [], hubDegraded := false, refSuspect := false, lastReset := 0, declarations := 0, noticesLost := 0
        notices := [], nseq := 0, sinceHubFault := none, paneFaults := [], ethDeclared := [], ethOut := 0
        selfResets := [], hubDead := false }
    test :=
      { ledger := [], panes := [], hub := 0, hubSince := 0, hubSpent := 0, parked := false
        failedMask := 0, shutdown := none, nextOrder := 0, startDue := 0 }
    island := .reset
    evrec := .reset
    power := .reset
    host :=
      { vfEnable := false, numVfs := 0, last := .none, snaps := [], msix := [], fired := [], ats := [] }
    fm := { partials := [], relays := [], current := none, replies := [] }
    store := { txns := [], nextXid := 0, drains := [], sent := [] }
    free := 0
    pending := [] }

end Sys2Proof.Machine
end

