-- ==== Sys2Proof/Machine/Ops.lean ====
section
/-! DEFINITION. The named operations every family shares: panes, cells and groups by number, the time stamp, free values,
the delivery of an event to the recorder (R473, R479), fault notices (R416), and the refusal counts of the island
(R360, R468). -/

namespace Sys2Proof.Machine

/-! ### Panes, cells, groups -/

/-- Pane P`p`. -/
def pane (s : State) (p : Nat) : Pane := tblGet Pane.reset s.panes p

/-- The state with one pane replaced. -/
def setPane (s : State) (p : Nat) (v : Pane) : State := { s with panes := tblSet s.panes p v }

/-- The state with one pane changed. -/
def modPane (s : State) (p : Nat) (f : Pane → Pane) : State := setPane s p (f (pane s p))

/-- Every pane of a mask changed. -/
def modPanes (s : State) (mask : BitVec 16) (f : Nat → Pane → Pane) : State :=
  (List.range 16).foldl (fun s p => if mask.getLsbD p then modPane s p (f p) else s) s

/-- The panes of a mask, in increasing number. -/
def maskPanes (mask : BitVec 16) : List Nat := (List.range 16).filter (mask.getLsbD ·)

/-- One pane as a mask. -/
def paneBit (p : Nat) : BitVec 16 := 1#16 <<< p

/-- Key of a physical cell. -/
def cellKey (p c : Nat) : Nat := 64 * p + c

/-- Physical cell `c` of pane `p`. -/
def physCell (s : State) (p c : Nat) : Cell := tblGet Cell.reset s.cells (cellKey p c)

/-- The state with one physical cell replaced. -/
def setPhysCell (s : State) (p c : Nat) (v : Cell) : State := { s with cells := tblSet s.cells (cellKey p c) v }

/-- R67: the physical cell that holds a logical number. -/
def physOf (s : State) (p l : Nat) : Nat := tblGet l (pane s p).cellSub l

/-- Logical cell `l` of pane `p`. -/
def cell (s : State) (p l : Nat) : Cell := physCell s p (physOf s p l)

/-- The state with one logical cell replaced. -/
def setCell (s : State) (p l : Nat) (v : Cell) : State := setPhysCell s p (physOf s p l) v

/-- The state with one logical cell changed. -/
def modCell (s : State) (p l : Nat) (f : Cell → Cell) : State := setCell s p l (f (cell s p l))

/-- Every logical cell of a pane changed. -/
def modCells (s : State) (p : Nat) (f : Cell → Cell) : State :=
  (List.range 32).foldl (fun s l => modCell s p l f) s

/-- R334: the lead pane of a member mask. -/
def leadOf (m : BitVec 16) : Nat := ((List.range 16).find? (m.getLsbD ·)).getD 16

/-- The group that holds a pane's context. -/
def groupOf (s : State) (p : Nat) : Option Group := s.groups.find? fun g => g.members.getLsbD p

/-- The group led by a pane. -/
def groupLed (s : State) (lead : Nat) : Option Group := s.groups.find? fun g => leadOf g.members == lead

/-- The state with the group led by a pane changed. -/
def modGroup (s : State) (lead : Nat) (f : Group → Group) : State :=
  { s with groups := s.groups.map fun g => if leadOf g.members == lead then f g else g }

/-- The state with the run of the group led by a pane changed. -/
def modRun (s : State) (lead : Nat) (f : Run → Run) : State :=
  modGroup s lead fun g => { g with run := g.run.map f }

/-- The job tag of a group: that of its lead pane's context (R334). -/
def groupTag (s : State) (g : Group) : BitVec 32 := (pane s (leadOf g.members)).jobTag

/-- The group has an accepted start (R128): it has a run. -/
def hasStart (g : Group) : Bool := g.run.isSome

/-- Some group has an accepted start. -/
def anyStart (s : State) : Bool := s.groups.any hasStart

/-- `STORM_STATUS` with nothing in it (Table 15-5). -/
def stormZero : StormStatus :=
  { drainedStep := 0, drainState := 0, buddyLost := false, lastBuf := 0, commitStep := 0, abandoned := 0 }

/-- A group with nothing given to it, for one pane. -/
def Group.alone (p : Nat) : Group :=
  { members := paneBit p, slots := [], streamShare := 0, jobMap := none, exactBf16 := false, isSealed := false
    plan := none, ended := none, lengths := [], abortDue := none, run := none, misplaced := 0, misplacedBeat := none
    storm := { buddy := none, interval := 4, drain := none, now := false, warned := false, stagingGib := 0 }
    status := stormZero, copies := [] }

/-! ### Time, stamps, free values -/

/-- The present instant in ticks of the module's own count. -/
def now (s : State) : Nat := s.time.beat * 8192 + s.time.tick

/-- Table 02-1: scheduled slots and step sequencers run. -/
def plansRun (s : State) : Bool := s.time.mode == .locked || s.time.mode == .holdover

/-- R31: the present beat is the one in which `FREE_RUN` was entered, whose end stops the Plans that loss of time has
terminated. -/
def lastBeatOfTime (s : State) : Bool := s.time.mode == .freeRun && s.time.runOut == some s.time.beat

/-- Scheduled slots and step sequencers run in the present beat (Table 02-1, R31 steps 2 and 3). -/
def slotsRun (s : State) : Bool := plansRun s || lastBeatOfTime s

/-- A group's Plan still issues: it has not ended, or loss of time has ended it in the present beat (R31). -/
def issuesStill (s : State) (g : Group) : Bool :=
  g.ended.isNone || (g.ended == some .lostTime && lastBeatOfTime s)

/-- Stamps are taken on the local count (Table 19-1 `LOCAL_TIME`). -/
def localTime (s : State) : Bool := s.time.mode == .unsync || s.time.mode == .freeRun

/-- R35: a stamp as 10 bytes. -/
def stampBytes (beat tick source : Nat) : List Byte := natLe 10 (beat * 2 ^ 32 + tick * 2 ^ 19 + source)

/-- The state after a free value has been taken. -/
def tookFree (s : State) : State := { s with free := s.free + 1 }

/-- The module identifier in use (R136, R487). -/
def moduleId (s : State) : BitVec 16 :=
  s.power.identity.getD (s.power.startId.getD (Config.serial.truncate 16))

/-! ### Bytes that the manual calls undefined (R282, R378) -/

/-- What a write leaves of a range of undefined bytes. -/
def cutRange (ofs n : Nat) (r : FreeRange) : List FreeRange :=
  let e := r.ofs + r.len
  let lo := max r.ofs (ofs + n)
  (if r.ofs < min e ofs then [{ r with len := min e ofs - r.ofs }] else [])
  ++ (if lo < e then [{ r with ofs := lo, len := e - lo }] else [])

/-- A near-tier range takes a free content. -/
def scramble (s : State) (p ofs n : Nat) : State :=
  if n = 0 then s
  else modPane (tookFree s) p fun x =>
    { x with near := { x.near with undef := x.near.undef.flatMap (cutRange ofs n) ++ [⟨ofs, n, s.free, 0⟩] } }

/-! ### Events (R472, R473, R479) -/

/-- R473: an event joins those delivered in the same fabric cycle in increasing source order. -/
def queueInsert (at' : Nat) (e : Event) : List (Nat × Event) → List (Nat × Event)
  | [] => [(at', e)]
  | (t, x) :: r => if t = at' && e.source.toNat < x.source.toNat then (at', e) :: (t, x) :: r
                   else (t, x) :: queueInsert at' e r

/-- Delivery of an event to the recorder. -/
def deliver (s : State) (e : Event) : State :=
  let q := s.evrec
  let st := (e.source, e.beat, e.tick)
  if q.frozen then
    { s with evrec := { q with
        drops := BitVec.ofNat 16 (satAdd 16 q.drops.toNat 1)
        dropStamps := some (match q.dropStamps with
          | some (a, _) => (a, st)
          | none => (st, st)) } }
  else if 256 ≤ q.queue.length then
    { s with evrec := { q with lost := BitVec.ofNat 24 (satAdd 24 q.lost.toNat 1), lostSince := q.lostSince + 1 } }
  else { s with evrec := { q with queue := queueInsert (now s) e q.queue } }

/-- Pane field of a record that concerns none. -/
def noPane : Nat := 0xFF

/-- A source records an event now. -/
def record (s : State) (code source pane : Nat) (payload : List Byte) : State :=
  deliver s
    { code := BitVec.ofNat 16 code, source := BitVec.ofNat 16 source, beat := s.time.beat, tick := s.time.tick
      pane := BitVec.ofNat 8 pane, payload := payload, localTime := localTime s }

/-- Source numbers of Table 02-3. -/
def srcDoorkeeper : Nat := 0x0001
/-- Service cores 0 to 3. -/
def srcServiceCore (n : Nat) : Nat := 0x0002 + n
/-- PCIe host port. -/
def srcHostPort : Nat := 0x0030
/-- Check-value units 0 to 11. -/
def srcCv (n : Nat) : Nat := 0x0050 + n
/-- Ring engine of an axis. -/
def srcRing (axis : Nat) : Nat := 0x0010 + axis
/-- ClouzLink port. -/
def srcPort (port : Nat) : Nat := 0x0020 + port
/-- Ethernet engine. -/
def srcEth (e : Nat) : Nat := 0x0031 + e
/-- Far-tier controller. -/
def srcFar : Nat := 0x0040
/-- Metrology Island. -/
def srcIsland : Nat := 0x0060
/-- Beat unit, and the recorder's own records. -/
def srcBeat : Nat := 0x0070
/-- Pane controller. -/
def srcPane (p : Nat) : Nat := 0x0100 + p
/-- Near-tier stack. -/
def srcNear (p : Nat) : Nat := 0x0200 + p
/-- Physical cell. -/
def srcCell (p c : Nat) : Nat := 0x1000 + 64 * p + c
/-- Service core 3, which triages faults (Table 01-1). -/
def srcService : Nat := srcServiceCore 3

/-- R36: a number that Table 02-3 gives to a source. Numbers not listed are not used. -/
def srcListed (n : Nat) : Bool :=
  n == srcDoorkeeper || (srcServiceCore 0 ≤ n && n ≤ srcServiceCore 3) || (srcRing 0 ≤ n && n ≤ srcRing 2)
  || (srcPort 0 ≤ n && n ≤ srcPort 5) || n == srcHostPort || n == srcEth 0 || n == srcEth 1 || n == srcFar
  || (srcCv 0 ≤ n && n ≤ srcCv 11) || n == srcIsland || n == srcBeat || (srcPane 0 ≤ n && n ≤ srcPane 15)
  || (srcNear 0 ≤ n && n ≤ srcNear 15) || (srcCell 0 0 ≤ n && n < srcCell 16 0 && (n - srcCell 0 0) % 64 < 34)

/-! ### Fault notices (R416) -/

/-- A byte of a function's MSI-X table or PBA after reset: each vector's mask bit is 1. -/
def msixReset (o : Nat) : Byte := if o % 16 = 12 && o < 2048 then 1 else 0

/-- A byte of a function's MSI-X table or PBA. -/
def msixByte (s : State) (fn o : Nat) : Byte := tblGet (msixReset o) s.host.msix (fn * 4096 + o)

/-- The state with such a byte changed. -/
def setMsixByte (s : State) (fn o : Nat) (b : Byte) : State :=
  { s with host := { s.host with msix := tblPut (msixReset o) s.host.msix (fn * 4096 + o) b } }

/-- A vector's mask bit. -/
def vectorMasked (s : State) (fn vector : Nat) : Bool := (msixByte s fn (16 * vector + 12)).getLsbD 0

/-- R508: an MSI-X write by a function; a masked vector is pending instead. -/
def msix (s : State) (fn vector : Nat) : State :=
  if vectorMasked s fn vector then setMsixByte s fn 0x800 (msixByte s fn 0x800 ||| (1#8 <<< vector))
  else { s with host := { s.host with fired := ((fn, vector) :: s.host.fired).take 16 } }

/-- The queue of 64 notices with a new one: when it is full, the oldest warning makes room, or the new one is dropped;
either is counted. -/
def queueNotice (s : State) (ntype pane : Nat) (tag : BitVec 32) (epoch : BitVec 16) (code index source : Nat) :
    State :=
  let f := s.faults
  let n : Notice :=
    { ntype := BitVec.ofNat 8 ntype, pane := BitVec.ofNat 8 pane, moduleId := moduleId s, jobTag := tag, epoch := epoch
      code := BitVec.ofNat 8 code, index := BitVec.ofNat 8 index, stampBeat := s.time.beat, stampTick := s.time.tick
      source := BitVec.ofNat 16 source, nseq := f.nseq + 1 }
  if f.notices.length < 64 then
    msix { s with faults := { f with notices := f.notices ++ [n], nseq := f.nseq + 1 } } 0 2
  else
    let lost := BitVec.ofNat 16 (satAdd 16 f.noticesLost.toNat 1)
    if f.notices.any (·.ntype == 2) then
      msix { s with faults := { f with
        notices := f.notices.eraseP (·.ntype == 2) ++ [n], nseq := f.nseq + 1, noticesLost := lost } } 0 2
    else { s with faults := { f with noticesLost := lost } }

/-- R416: `ALERT_N` is asserted while a notice waits (and for a power-cycle request, whose notice is type 5). -/
def alertN (s : State) : Bool := !s.faults.notices.isEmpty

/-! ### Metering taps (R360, R445, R468) -/

/-- The island's account of a pane's open occupancy, or the module's own, changed. -/
def modMeter (s : State) (p : Nat) (f : Meter → Meter) : State :=
  if s.island.stopped then s
  else match tblFind s.island.meters p with
    | some m => { s with island := { s.island with meters := tblSet s.island.meters p (f m) } }
    | none => { s with island := { s.island with oper := f s.island.oper } }

/-- A refusal charged to a pane, or to the operator (any number above 15). -/
def meterRefusal (s : State) (p : Nat) : State := modMeter s p fun m => { m with refusals := m.refusals + 1 }

/-- Torus payload attributed to a pane (R445). -/
def meterTorus (s : State) (p n : Nat) : State := modMeter s p fun m => { m with torus := m.torus + n }

/-- Ethernet payload attributed to a pane (R445). -/
def meterEth (s : State) (p n : Nat) : State := modMeter s p fun m => { m with eth := m.eth + n }

end Sys2Proof.Machine
end

