-- ==== Sys2Proof/Machine/Clock.lean ====
section
/-! DEFINITION. The passing of time: one fabric cycle (R542, Table 02-1), and island time with what the island accrues
over it (R443, R449). -/

namespace Sys2Proof.Machine

/-- Bytes that an owner slot's map holds at its current generation (Table 18-1 far tier): 16,384 per unit (R160). -/
def mappedBytes (s : State) (slot : Nat) : Nat :=
  match tblFind s.far.owners slot with
  | some o => (o.map.filter fun e => e.2.gen == o.gen && e.2.phys != BitVec.allOnes 32).length * 16384
  | none => 0

/-- What a meter accrues over a time. -/
def accrue (s : State) (dt slot : Nat) (m : Meter) : Meter :=
  { m with occNs := m.occNs + dt, nearAcc := m.nearAcc + 48 * dt, farAcc := m.farAcc + dt * mappedBytes s slot
           notLocked := m.notLocked || s.time.mode != .locked }

/-- Island time passes, in nanoseconds; a kept space accrues its far tier alone (R446). -/
def islandPass (s : State) (dt : Nat) : State :=
  let i := s.island
  if !i.running || i.stopped then s
  else { s with island := { i with
    ns := i.ns + dt
    meters := i.meters.map fun e => (e.1, accrue s dt e.1 e.2)
    kept := i.kept.map fun e => (e.1, accrue s dt e.1 e.2)
    oper := accrue s dt 17 i.oper } }

/-- One fabric cycle passes: the tick counter counts, up to the last tick of the beat; its return to 0 is the boundary
(`BEAT_BOUNDARY`). While the hub is in reset no tick is counted (20_startup_power_and_modes.md). -/
def idleTick (s : State) : State :=
  let s1 := islandPass s 1
  if !s1.power.hubUp then s1
  else if 0 < s1.time.lead then { s1 with time := { s1.time with lead := s1.time.lead - 1 } }
  else if s1.time.stretch then { s1 with time := { s1.time with stretch := false } }
  else if s1.time.tick < 8191 then { s1 with time := { s1.time with tick := s1.time.tick + 1 } }
  else s1

end Sys2Proof.Machine
end

