-- ==== Sys2Proof/Machine/Ccr.lean ====
section
/-! DEFINITION. The Coherent Control Region (R218 to R221): its lines at their homes, the cached copies, and the
transactions of the directory protocol. -/

namespace Sys2Proof.Machine

/-- A line of zeros that no cache holds. -/
def lineZero : CcrLine := { data := 0, copies := [], txn := none, waiting := [] }

/-- No copy. -/
def copyZero : CcrCopy := { state := .i, data := 0 }

/-- One line. -/
def ccrLine (s : State) (n : Nat) : CcrLine := tblGet lineZero s.ccr n

/-- One line replaced. -/
def setLine (s : State) (n : Nat) (l : CcrLine) : State := { s with ccr := tblPut lineZero s.ccr n l }

/-- The requester that accesses the region uncached (R218). -/
def ccrUncached : Nat := 20

/-- Lines of latches, which are never cached (Table 08-10). -/
def latchLine (n : Nat) : Bool := n < 16384

/-- A line with the bytes of a mask replaced. -/
def mergeLine (old mask new : Nat) : Nat :=
  (List.range 64).foldl (fun acc i =>
    acc + fld (if bitAt mask i then new else old) (8 * i + 7) (8 * i) * 2 ^ (8 * i)) 0

/-- A store applied to a line. -/
def storeLine (d : BitVec 512) : Option (BitVec 64 × BitVec 512) → BitVec 512
  | some (m, v) => BitVec.ofNat 512 (mergeLine d.toNat m.toNat v.toNat)
  | none => d

/-- The copy a cache holds. -/
def copyOf (l : CcrLine) (r : Nat) : CcrCopy := tblGet copyZero l.copies r

/-- One copy replaced. -/
def setCopy (l : CcrLine) (r : Nat) (c : CcrCopy) : CcrLine := { l with copies := tblPut copyZero l.copies r c }

/-- The caches that a request must snoop: every other copy for ownership, the one in M or E for a read. -/
def snoopsOf (l : CcrLine) (q : CcrReq) : List Nat :=
  (l.copies.filter fun e => e.1 != q.requester
    && (if q.own then e.2.state != .i else e.2.state == .m || e.2.state == .e)).map Prod.fst

/-- A request is granted: the uncached requester leaves no copy; a cache that gains ownership performs its store at once
(R221). -/
def grantLine (l : CcrLine) (q : CcrReq) : CcrLine :=
  if q.requester = ccrUncached then { l with data := if q.own then storeLine l.data q.store else l.data }
  else if q.own then
    let c := copyOf l q.requester
    let d := if c.state = .m then c.data else l.data
    setCopy l q.requester { state := if q.store.isSome || c.state = .m then .m else .e, data := storeLine d q.store }
  else if (copyOf l q.requester).state != .i then l
  else
    let shared := l.copies.any fun e => e.1 != q.requester && e.2.state != .i
    setCopy l q.requester { state := if shared then .s else .e, data := l.data }

/-- Requests that wait are served until one must wait for snoops; `fuel` bounds their number. -/
def serveLine : Nat → CcrLine → CcrLine
  | 0, l => l
  | fuel + 1, l => match l.txn, l.waiting with
    | none, q :: r =>
      let sn := snoopsOf l q
      if sn.isEmpty then serveLine fuel (grantLine { l with waiting := r } q)
      else { l with waiting := r, txn := some { req := q, snoops := sn, acks := [] } }
    | _, _ => l

/-- The requests that wait, in order of arrival, and of requester number within a fabric cycle (R220). -/
def queueReq (q : CcrReq) : List CcrReq → List CcrReq
  | [] => [q]
  | x :: r => if x.at' = q.at' && q.requester < x.requester then q :: x :: r else x :: queueReq q r

/-- `CCR_REQUEST` (R218, R219). -/
def execCcrRequest (r : Fin 21) (line : BitVec 20) (own : Bool) (store : Option (BitVec 64 × BitVec 512)) (s : State) :
    Host.Outcome State Fault Refusal :=
  if latchLine line.toNat then .next s
  else
    let l := ccrLine s line.toNat
    let q : CcrReq := { requester := r.val, own := own, store := store, at' := now s }
    let w := queueReq q l.waiting
    .next (setLine s line.toNat (serveLine w.length { l with waiting := w }))

/-- `CCR_WRITEBACK` (R220): a modified line comes home, and its cache gives the copy up. -/
def execCcrWriteback (r : Fin 21) (line : BitVec 20) (s : State) : Host.Outcome State Fault Refusal :=
  let l := ccrLine s line.toNat
  let c := copyOf l r.val
  if c.state = .m then .next (setLine s line.toNat (setCopy { l with data := c.data } r.val copyZero)) else .next s

/-- `CCR_SNOOP` (R220, R221): a cache answers a snoop: a modified line's data goes to the home; for ownership the copy is
invalidated, for a read it becomes shared. A cache whose writeback has gone answers that it is in flight. -/
def execCcrSnoop (r : Fin 21) (line : BitVec 20) (s : State) : Host.Outcome State Fault Refusal :=
  let l := ccrLine s line.toNat
  match l.txn with
  | some t =>
    if t.snoops.contains r.val then
      let c := copyOf l r.val
      let l1 := { l with
        data := if c.state = .m then c.data else l.data
        txn := some { t with snoops := t.snoops.filter (· != r.val), acks := t.acks ++ [r.val] } }
      let c1 : CcrCopy := if t.req.own || c.state = .i then copyZero else { c with state := .s }
      .next (setLine s line.toNat (setCopy l1 r.val c1))
    else .next s
  | none => .next s

/-- `CCR_SNOOP_ACK` (R219): an acknowledgement reaches the home; with the last one the transaction ends. -/
def execCcrSnoopAck (r : Fin 21) (line : BitVec 20) (s : State) : Host.Outcome State Fault Refusal :=
  let l := ccrLine s line.toNat
  match l.txn with
  | some t =>
    if t.acks.contains r.val then
      let t1 := { t with acks := t.acks.filter (· != r.val) }
      if t1.snoops.isEmpty && t1.acks.isEmpty then
        let l1 := grantLine { l with txn := none } t.req
        .next (setLine s line.toNat (serveLine l1.waiting.length l1))
      else .next (setLine s line.toNat { l with txn := some t1 })
    else .next s
  | none => .next s

end Sys2Proof.Machine
end

