-- ==== Sys2Proof/Machine/Flags.lean ====
section
/-! DEFINITION. The bits of `CELL_ARITH_FLAGS` (Table 04-6), which every arithmetic operation answers beside its
result. -/

namespace Sys2Proof.Machine

/-- Bit 0: infinity times zero, infinities of opposite sign combined, an invalid operation (Table 04-6). -/
def flInvalid : Nat := 0x01
/-- Bit 1: an operand was NaN, or an MX scale was 0xFF. -/
def flNanIn : Nat := 0x02
/-- Bit 2: `SAT` = 1 at an overflow or at an infinity written (R93). -/
def flSatClamp : Nat := 0x04
/-- Bit 3: a nonzero value rounded to zero (R91), or below the smallest E8M0 value (R538). -/
def flUnf : Nat := 0x08
/-- Bit 4: a finite value overflowed (R93, R96, R89). -/
def flOvf : Nat := 0x10
/-- Bit 5: an instruction produced and wrote a NaN (R94). -/
def flNanOut : Nat := 0x20
/-- Bit 6: a product was truncated on entry to the long accumulator (R81). -/
def flInexact : Nat := 0x40
/-- Bit 7: a product reached 2^T in some lane (R82). -/
def flAnchor : Nat := 0x80

/-- The flags of a mask without those of another. -/
def flWithout (f g : Nat) : Nat := f.land (0xFF - g)

/-- The flag of a condition. -/
def flIf (c : Bool) (f : Nat) : Nat := if c then f else 0

/-- The union of the flags of a list. -/
def flUnion (l : List Nat) : Nat := l.foldl Nat.lor 0

end Sys2Proof.Machine
end

