-- ==== Sys2Proof/Machine/Num.lean ====
section
/-! DEFINITION. Number formats and rounding (04_arithmetic.md): the element formats of Table 04-1, the format codes of
Table 04-2, rounding points (R91 to R94), MX blocks (R76, R95) and E8M0 (R538), all in exact integer arithmetic. -/

namespace Sys2Proof.Machine

/-- A decoded value: NaN, an infinity, or the exact number (-1)^neg * m * 2^e. -/
inductive Num where
  /-- Not a number. -/
  | nan
  /-- An infinity of the given sign. -/
  | inf (neg : Bool)
  /-- A finite value. -/
  | fin (neg : Bool) (m : Nat) (e : Int)
  deriving DecidableEq, Repr

/-- The element formats of Table 04-1 with a mantissa. -/
inductive Elem where
  /-- FP32. -/
  | fp32
  /-- BF16. -/
  | bf16
  /-- FP16. -/
  | fp16
  /-- FP8 E4M3. -/
  | e4m3
  /-- FP8 E5M2. -/
  | e5m2
  /-- FP6 E2M3. -/
  | e2m3
  /-- FP6 E3M2. -/
  | e3m2
  /-- FP4 E2M1. -/
  | e2m1
  deriving DecidableEq, Repr

/-- Bits of one element (Table 04-1). -/
def Elem.width : Elem → Nat
  | .fp32 => 32 | .bf16 => 16 | .fp16 => 16 | .e4m3 => 8 | .e5m2 => 8 | .e2m3 => 6 | .e3m2 => 6 | .e2m1 => 4

/-- Mantissa bits (Table 04-1). -/
def Elem.mbits : Elem → Nat
  | .fp32 => 23 | .bf16 => 7 | .fp16 => 10 | .e4m3 => 3 | .e5m2 => 2 | .e2m3 => 3 | .e3m2 => 2 | .e2m1 => 1

/-- Exponent bits (Table 04-1). -/
def Elem.ebits (f : Elem) : Nat := f.width - 1 - f.mbits

/-- Exponent bias (Table 04-1). -/
def Elem.bias : Elem → Nat
  | .fp32 => 127 | .bf16 => 127 | .fp16 => 15 | .e4m3 => 7 | .e5m2 => 15 | .e2m3 => 1 | .e3m2 => 3 | .e2m1 => 1

/-- Infinities and NaNs in the all-ones exponent, as IEEE 754 (Table 04-1). -/
def Elem.ieee : Elem → Bool
  | .fp32 => true | .bf16 => true | .fp16 => true | .e5m2 => true | _ => false

/-- The code of the largest finite magnitude (Table 04-1). -/
def Elem.maxCode (f : Elem) : Nat :=
  match f with
  | .e4m3 => 0x7E
  | _ => if f.ieee then (2 ^ f.ebits - 1) * 2 ^ f.mbits - 1 else 2 ^ (f.width - 1) - 1

/-- The canonical NaN of a format (R94); formats without NaN never write one. -/
def Elem.nanCode : Elem → Nat
  | .fp32 => 0x7FC00000 | .bf16 => 0x7FC0 | .fp16 => 0x7E00 | .e4m3 => 0x7F | .e5m2 => 0x7E | _ => 0

/-- Exponent of the smallest normal value. -/
def Elem.emin (f : Elem) : Int := 1 - (f.bias : Int)

/-- The value of a code (R75, R77). -/
def Elem.decode (f : Elem) (c : Nat) : Num :=
  let neg := bitAt c (f.width - 1)
  let ex := fld c (f.width - 2) f.mbits
  let man := c % 2 ^ f.mbits
  if f.ieee && ex == 2 ^ f.ebits - 1 then (if man = 0 then .inf neg else .nan)
  else if f = .e4m3 && ex == 15 && man == 7 then .nan
  else if ex = 0 then .fin neg man (f.emin - f.mbits)
  else .fin neg (2 ^ f.mbits + man) ((ex : Int) - f.bias - f.mbits)

/-- The sign bit of a code. -/
def Elem.signed (f : Elem) (neg : Bool) (c : Nat) : Nat := if neg then c + 2 ^ (f.width - 1) else c

/-- The value of an E8M0 byte (R75). -/
def e8m0Decode (c : Nat) : Num := if c % 256 = 255 then .nan else .fin false 1 ((c % 256 : Nat) - 127)

/-- ⌊log2⌋ of m * 2^e for m > 0. -/
def ilog2 (m : Nat) (e : Int) : Int := (m.log2 : Int) + e

/-- Rounding modes of R91; a code of 3 is reserved. -/
inductive RMode where
  /-- To nearest, ties to even. -/
  | rne
  /-- Toward zero. -/
  | rtz
  /-- Stochastic, with the draw of the element. -/
  | sr (draw : Nat)
  deriving DecidableEq, Repr

/-- R91 steps 1 to 5: m * 2^e in units of 2^q, rounded to an integer; `odd` tells whether a given lower neighbour has
an odd lowest mantissa bit. -/
def roundUnits (mode : RMode) (odd : Nat → Bool) (m : Nat) (e q : Int) : Nat :=
  if q ≤ e then m <<< (e - q).toNat
  else
    let d := (q - e).toNat
    let lo := m >>> d
    let rem := m % 2 ^ d
    if rem = 0 then lo
    else match mode with
      | .rtz => lo
      | .rne => if 2 ^ d < 2 * rem || (2 ^ d == 2 * rem && odd lo) then lo + 1 else lo
      | .sr r => if 2 ^ 32 ≤ (rem <<< 32) / 2 ^ d + r then lo + 1 else lo

/-- R93: an overflow (`infinite = false`) or an infinity written, to a target of the format; `mx` for an element of an
MX output. -/
def overflow (f : Elem) (mode : RMode) (sat mx neg infinite : Bool) : Nat × Nat :=
  let fl := flIf (!infinite) flOvf + flIf sat flSatClamp
  let big := f.signed neg f.maxCode
  if sat || mx then (big, fl)
  else if !infinite && mode == .rtz then (big, fl)
  else if f.ieee then (f.signed neg ((2 ^ f.ebits - 1) * 2 ^ f.mbits), fl)
  else if f = .e4m3 then (f.nanCode, fl + flNanOut)
  else (big, fl)

/-- R91: a finite value rounded into a format, with its flags. -/
def roundFin (f : Elem) (mode : RMode) (sat mx neg : Bool) (m : Nat) (e : Int) : Nat × Nat :=
  if m = 0 then (f.signed neg 0, 0)
  else
    let q := max (ilog2 m e) f.emin - f.mbits
    let k := roundUnits mode (fun lo => lo % 2 == 1) m e q
    let code := ((q + f.mbits + f.bias - 1) * (2 ^ f.mbits : Nat)).toNat + k
    if k = 0 then (f.signed neg 0, flUnf)
    else if f.maxCode < code then overflow f mode sat mx neg false
    else (f.signed neg code, 0)

/-- A value rounded into a format (R91 to R94), with the flags it sets. -/
def roundNum (f : Elem) (mode : RMode) (sat mx : Bool) : Num → Nat × Nat
  | .nan => if f.ieee || f = .e4m3 then (f.nanCode, flNanOut) else (0, 0)
  | .inf neg => overflow f mode sat mx neg true
  | .fin neg m e => roundFin f mode sat mx neg m e

/-- R538: a value converted to E8M0. -/
def roundE8m0 (mode : RMode) (sat : Bool) : Num → Nat × Nat
  | .nan => (0xFF, flNanOut)
  | .inf true => (0xFF, flNanOut + flInvalid)
  | .inf false => if sat then (0xFE, flSatClamp) else (0xFF, flNanOut)
  | .fin neg m e =>
    if m = 0 then (0, 0)
    else if neg then (0xFF, flNanOut + flInvalid)
    else
      let q := ilog2 m e
      -- lo = 2^q, hi = 2^(q + 1), a span of one lo; the code's lowest bit stands for the mantissa's (R91 step 3)
      let k := roundUnits mode (fun _ => (q + 127) % 2 == 1) m e q
      let c := if k = 1 then q + 127 else q + 128
      if 254 < c then
        if sat then (0xFE, flOvf + flSatClamp)
        else if mode == .rtz then (0xFE, flOvf) else (0xFF, flOvf + flNanOut)
      else if c < 0 then (0, flUnf)
      else (c.toNat, 0)

/-! ### Format codes (Table 04-2) -/

/-- The element format of a code; E8M0, `RAW96` and the reserved codes have none. -/
def fmtElem : Nat → Option Elem
  | 0 => some .fp32 | 1 => some .bf16 | 2 => some .fp16 | 3 => some .e4m3 | 4 => some .e5m2
  | 5 => some .e4m3 | 6 => some .e5m2 | 7 => some .e2m3 | 8 => some .e3m2 | 9 => some .e2m1
  | _ => none

/-- The element format of a code that names one. -/
def fmtElemD (c : Nat) : Elem := (fmtElem c).getD .fp32

/-- MX formats: codes 0x5 to 0x9. -/
def fmtMx (c : Nat) : Bool := 5 ≤ c && c ≤ 9

/-- BF16 and FP16. -/
def fmtHalf (c : Nat) : Bool := c == 1 || c == 2

/-- Codes allowed as an input of `TMM` other than `RAW96` (Table 04-2). -/
def fmtTmm (c : Nat) : Bool := 1 ≤ c && c ≤ 9

/-- Codes allowed as an output of `TDRAIN`. -/
def fmtDrain (c : Nat) : Bool := c ≤ 10

/-- Codes allowed in `VOP` convert. -/
def fmtConvert (c : Nat) : Bool := c ≤ 9 || c == 11

/-- Bits of one element of a format code, `RAW96` aside. -/
def fmtWidth (c : Nat) : Nat := if c = 11 then 8 else (fmtElemD c).width

/-- The value of an element's code in a format code. -/
def fmtDecode (c code : Nat) : Num := if c = 11 then e8m0Decode code else (fmtElemD c).decode code

/-- A value times 2^x. -/
def Num.shift (x : Int) : Num → Num
  | .fin neg m e => .fin neg m (e + x)
  | v => v

/-- The value of an MX element under the E8M0 scale byte of its block (R76); a scale of 0xFF is NaN. -/
def mxValue (c code scale : Nat) : Num :=
  if scale % 256 = 255 then .nan else (fmtDecode c code).shift ((scale % 256 : Nat) - 127)

/-- Element `i` of a packed array of `w`-bit elements, held as a little-endian number (R76). -/
def packedGet (w arr i : Nat) : Nat := fld arr (w * i + w - 1) (w * i)

/-- The number whose packed elements are the given codes, element 0 first. -/
def packElems (w : Nat) : List Nat → Nat
  | [] => 0
  | c :: r => c % 2 ^ w + 2 ^ w * packElems w r

/-- Exact product of a value and another (R81, Table 03-9 `SCALE_MODE`); `none` for infinity times zero. -/
def Num.mul : Num → Num → Option Num
  | .nan, _ => some .nan
  | _, .nan => some .nan
  | .inf a, .inf b => some (.inf (a != b))
  | .inf a, .fin b m _ => if m = 0 then none else some (.inf (a != b))
  | .fin a m _, .inf b => if m = 0 then none else some (.inf (a != b))
  | .fin a m e, .fin b n g => some (.fin (a != b) (m * n) (e + g))

/-- A finite value as a signed multiple of 2^q for q at most its exponent. -/
def finUnits (neg : Bool) (m : Nat) (e q : Int) : Int :=
  let k : Int := (m <<< (e - q).toNat : Nat)
  if neg then -k else k

/-- Exact sum of two finite values; a zero sum is negative only when both terms are negative zeros or zero results of
negative terms (IEEE 754, round to nearest). -/
def finAdd (a : Bool) (m : Nat) (e : Int) (b : Bool) (n : Nat) (g : Int) : Num :=
  let q := min e g
  let s := finUnits a m e q + finUnits b n g q
  if s = 0 then .fin (a && b) 0 0 else .fin (decide (s < 0)) s.natAbs q

/-- Whether a value is NaN. -/
def Num.isNan : Num → Bool
  | .nan => true
  | _ => false

/-- Whether a value is finite. -/
def Num.isFin : Num → Bool
  | .fin _ _ _ => true
  | _ => false

/-- The comparison of two magnitudes m * 2^e < n * 2^g. -/
def magLt (m : Nat) (e : Int) (n : Nat) (g : Int) : Bool :=
  let q := min e g
  decide (m <<< (e - q).toNat < n <<< (g - q).toNat)

/-- `eMax` of R95 for an MX element format. -/
def mxEmax : Elem → Int
  | .e4m3 => 8 | .e5m2 => 15 | .e2m3 => 2 | .e3m2 => 4 | .e2m1 => 2 | _ => 0

/-- R95: one block of values with the rounding mode of each, into scale byte, element codes and flags. -/
def mxBlock (f : Elem) (sat : Bool) (vals : List (Num × RMode)) : Nat × List Nat × Nat :=
  if vals.any (fun v => !v.1.isFin) then (0xFF, vals.map fun _ => 0, flNanOut)
  else
    let amax := vals.foldl (fun (a : Nat × Int) v => match v.1 with
      | .fin _ m e => if magLt a.1 a.2 m e then (m, e) else a
      | _ => a) (0, 0)
    if amax.1 = 0 then (0, vals.map fun _ => 0, 0)
    else
      let x := max (-127) (min 127 (ilog2 amax.1 amax.2 - mxEmax f))
      let rs := vals.map fun v => roundNum f v.2 sat true (v.1.shift (-x))
      ((x + 127).toNat, rs.map Prod.fst, flUnion (rs.map Prod.snd))

end Sys2Proof.Machine
end

