-- ==== Sys2Proof/Machine/Operands.lean ====
section
/-! DEFINITION. The instruction word of a cell: its class and operation codes, its fields (Tables 03-3, 03-9 and 08-2)
and the checks an instruction passes when it issues (R52, R73, R78, R186). Words are numbers below 2^128. -/

namespace Sys2Proof.Machine

/-- Class code, bits [127:124]. -/
def wClass (w : Nat) : Nat := fld w 127 124

/-- Operation code of the classes that hold it in bits [123:120]. -/
def wOp4 (w : Nat) : Nat := fld w 123 120

/-- Operation code of `VOP`, bits [123:118]. -/
def wVop (w : Nat) : Nat := fld w 123 118

/-- Completion token, bits [119:114] of the asynchronous classes and the latch operations. -/
def wToken (w : Nat) : Nat := fld w 119 114

/-- A mask of the bits [hi:lo]. -/
def maskBits (hi lo : Nat) : Nat := (2 ^ (hi + 1 - lo) - 1) <<< lo

/-- The union of bit ranges. -/
def maskUnion (l : List (Nat × Nat)) : Nat := l.foldl (fun a r => a.lor (maskBits r.1 r.2)) 0

/-- The bits that Table 03-9, or Table 08-2 for `RMO`, names for a word's class and operation; `none` when the class is
reserved or its operation code is not listed (R52, R73). -/
def namedBits (w : Nat) : Option Nat :=
  let op := wOp4 w
  match wClass w with
  | 0x0 =>
    if op = 0 then some (maskBits 127 120)
    else if op = 1 then some (maskUnion [(127, 120), (119, 104)])
    else if op = 2 then some (maskUnion [(127, 120), (103, 100)])
    else if op = 3 then some (maskUnion [(127, 120), (119, 108)])
    else if op = 4 then some (maskUnion [(127, 120), (111, 109), (63, 0)])
    else if op = 5 then some (maskBits 127 120)
    else none
  | 0x1 => if op ≤ 0xE then some (maskUnion [(127, 104), (63, 0)]) else none
  | 0x2 => some (maskUnion [(127, 121), (119, 69)])
  | 0x3 => some (maskUnion [(127, 77), (63, 32)])
  | 0x4 =>
    if op ≤ 1 then some (maskUnion [(127, 110), (104, 99)])
    else if op ≤ 4 then some (maskBits 127 99)
    else if op ≤ 6 then some (maskUnion [(127, 105), (102, 99)])
    else none
  | 0x5 =>
    if wVop w = 9 then some (maskBits 127 74)
    else if wVop w ≤ 0xA then some (maskUnion [(127, 90), (81, 74)])
    else none
  | 0x6 => some (maskUnion [(127, 122), (117, 108), (96, 93)])
  | 0x7 => some (maskUnion [(127, 123), (117, 108), (96, 93)])
  | 0x8 =>
    if op ≤ 2 then some (maskBits 127 99)
    else if op = 3 then some (maskBits 127 94)
    else if op = 4 then some (maskUnion [(127, 104), (93, 75)])
    else none
  | 0x9 => if op ≤ 8 then some (maskBits 127 85) else none
  | 0xA =>
    if op = 0 then some (maskUnion [(127, 120), (63, 0)])
    else if op = 1 then some (maskBits 127 116)
    else if op = 2 then some (maskUnion [(127, 99)])
    else if op = 3 then some (maskBits 127 79)
    else if op = 4 then some (maskUnion [(127, 109), (103, 79)])
    else if op = 5 then some (maskUnion [(127, 109), (103, 99)])
    else none
  | 0xB => some (maskUnion [(127, 109), (63, 32)])
  | _ => none

/-- Values that a field of the word must hold (R73: a value outside its stated range; R78, R91, R46: format and
rounding codes; R539: `RAW96` with `ACC_KEEP` clear; R543: `ANCHOR_OUT` of another format). -/
def fieldsOk (w : Nat) : Bool :=
  let op := wOp4 w
  match wClass w with
  | 0x0 =>
    if op = 1 then fld w 119 104 != 0
    else if op = 3 then fld w 119 112 != 0
    else true
  | 0x2 =>
    let fa := fld w 113 110
    let fb := fld w 109 106
    (if fa = 10 then bitAt w 122
      else fmtTmm fa && fmtTmm fb && (fmtHalf fa == fmtHalf fb))
    && (!bitAt w 121 || fld w 73 69 ≤ 29)
  | 0x3 =>
    let f := fld w 113 110
    fmtDrain f && fld w 122 121 != 3 && fld w 109 108 != 3
    && (!bitAt w 107 || fmtMx f || fmtHalf f)
  | 0x4 => if op ≤ 4 then fld w 104 103 != 3 else true
  | 0x5 =>
    if wVop w = 9 then fmtConvert (fld w 89 86) && fmtConvert (fld w 85 82) && fld w 81 80 != 3
    else true
  | 0x8 => if op = 4 then fld w 81 80 != 3 else true
  | _ => true

/-- R52, R73: the word is an instruction the cell can run. -/
def wordLegal (w : Nat) : Bool :=
  match namedBits w with
  | none => false
  | some m => (w.land (maskBits 127 0)).lor m == m && fieldsOk w

/-- R53: the instructions that name a completion token. -/
def namesToken (w : Nat) : Bool :=
  match wClass w with
  | 0x2 => true
  | 0x3 => true
  | 0x8 => true
  | 0x9 => true
  | 0xA => 2 ≤ wOp4 w
  | _ => false

/-- The rounding mode of a two-bit `RMODE` field with the draw of the element. -/
def rmodeOf (code draw : Nat) : RMode := if code = 0 then .rne else if code = 1 then .rtz else .sr draw

/-- Element bytes of the `WIDTH` field of `VMEM`. -/
def vmemSize (w : Nat) : Nat := [4, 2, 1].getD (fld w 104 103) 4

/-- Element bytes of the `ESIZE` field of a near-tier gather. -/
def gatherSize (w : Nat) : Nat := [8, 64, 256].getD (fld w 81 80) 8

/-- K of a `TMM` word. -/
def tmmK (w : Nat) : Nat := 32 * (fld w 105 99 + 1)

/-- Bytes from one row of K elements to the next: whole 64-byte lines (Table 03-9 `A_REG`). -/
def rowStride (width k : Nat) : Nat := ceilDiv (k * width / 8) 64 * 64

end Sys2Proof.Machine
end

