-- ==== Sys2Proof/Machine/Vec.lean ====
section
/-! DEFINITION. Vector-unit arithmetic (R96), the special functions (R97), the lane trees (R50) and the Leek generator
(R98). Every FP32 operation answers its 32-bit code and the flags it sets. -/

namespace Sys2Proof.Machine

/-- The canonical FP32 NaN with the flags of an operation that writes it (R94). -/
def f32NaN (fl : Nat) : Nat × Nat := (0x7FC00000, fl.lor flNanOut)

/-- An FP32 result rounded once to nearest even; the FP32 operations never set `UNF_OUT` (R96). -/
def f32Out (v : Num) : Nat × Nat :=
  let r := roundNum .fp32 .rne false false v
  (r.1, flWithout r.2 flUnf)

/-- An infinity an operation passes on: no overflow (R93). -/
def f32Inf (neg : Bool) : Nat × Nat := (if neg then 0xFF800000 else 0x7F800000, 0)

/-- The sum of two values with R96's flags. DESIGN CHOICE (log entry 69): a signaling NaN is a NaN like any other, so it
sets `NAN_IN` and not `INVALID`; R96 knows one kind of NaN. -/
def addNum : Num → Num → Nat × Nat
  | .nan, _ => f32NaN flNanIn
  | _, .nan => f32NaN flNanIn
  | .inf a, .inf b => if a = b then f32Inf a else f32NaN flInvalid
  | .inf a, .fin _ _ _ => f32Inf a
  | .fin _ _ _, .inf b => f32Inf b
  | .fin a m e, .fin b n g => f32Out (finAdd a m e b n g)

/-- FP32 add (R96). -/
def f32Add (a b : Nat) : Nat × Nat := addNum (Elem.fp32.decode a) (Elem.fp32.decode b)

/-- FP32 subtract: the sum with the second operand's sign turned (R96). -/
def f32Sub (a b : Nat) : Nat × Nat := f32Add a (b.xor 0x80000000)

/-- FP32 multiply (R96). -/
def f32Mul (a b : Nat) : Nat × Nat :=
  let x := Elem.fp32.decode a
  let y := Elem.fp32.decode b
  if x.isNan || y.isNan then f32NaN flNanIn
  else match x.mul y with
    | none => f32NaN flInvalid
    | some (.inf neg) => f32Inf neg
    | some v => f32Out v

/-- FP32 fused multiply-add, one rounding; 0 x Inf + NaN sets both flags (R96). -/
def f32Fma (a b c : Nat) : Nat × Nat :=
  let x := Elem.fp32.decode a
  let y := Elem.fp32.decode b
  let z := Elem.fp32.decode c
  let bad := !x.isNan && !y.isNan && (x.mul y).isNone
  if x.isNan || y.isNan || z.isNan then f32NaN (flNanIn + flIf bad flInvalid)
  else match x.mul y with
    | none => f32NaN flInvalid
    | some p => addNum p z

/-- Whether x < y for values that are not NaN, -0 equal to +0. -/
def numLt : Num → Num → Bool
  | .inf a, .inf b => a && !b
  | .inf a, .fin _ _ _ => a
  | .fin _ _ _, .inf b => !b
  | .fin a m e, .fin b n g =>
    decide (finUnits a m e (min e g) < finUnits b n g (min e g))
  | _, _ => false

/-- Whether two values that are not NaN are equal, -0 equal to +0. -/
def numEq (x y : Num) : Bool := !numLt x y && !numLt y x

/-- FP32 minimum (`mx = false`) or maximum: -0 below +0, the canonical NaN when either is NaN (R96). -/
def f32MinMax (mx : Bool) (a b : Nat) : Nat × Nat :=
  let x := Elem.fp32.decode a
  let y := Elem.fp32.decode b
  if x.isNan || y.isNan then f32NaN flNanIn
  else
    let aBelow := numLt x y || (numEq x y && bitAt a 31)
    (if aBelow == mx then b else a, 0)

/-- The three compares of `VOP`. -/
inductive Cmp where
  /-- Equal. -/
  | eq
  /-- Less. -/
  | lt
  /-- Less or equal. -/
  | le
  deriving DecidableEq, Repr

/-- FP32 compare; a NaN operand gives 0 and sets `NAN_IN` (R96, Table 03-9 `PDST`). DESIGN CHOICE (log entry 69): less and
less-or-equal are the quiet predicates, so that a NaN operand does not set `INVALID`. -/
def f32Cmp (c : Cmp) (a b : Nat) : Bool × Nat :=
  let x := Elem.fp32.decode a
  let y := Elem.fp32.decode b
  if x.isNan || y.isNan then (false, flNanIn)
  else match c with
    | .eq => (numEq x y, 0)
    | .lt => (numLt x y, 0)
    | .le => (!numLt y x, 0)

/-! ### Special functions (R97) -/

/-- Fraction bits of the fixed-point evaluation of `EXP2` and `LOG2`: far below the nearest rounding boundary of any
FP32 argument (log entry 6). -/
def sfBits : Nat := 256

/-- ⌊ln 2 * 2^256⌋. -/
def ln2Fix : Nat := 80260960185991308862233904206310070533990667611589946606122867505419956976171

/-- The terms of the exponential series of z / 2^256, summed. -/
def expSeries : Nat → Nat → Nat → Nat → Nat → Nat
  | 0, _, _, _, acc => acc
  | n + 1, z, k, t, acc => expSeries n z (k + 1) (t * z / (2 ^ sfBits * (k + 1))) (acc + t)

/-- The terms of the series of the inverse hyperbolic tangent, from power p = t^(2k+1). -/
def atanhSeries : Nat → Nat → Nat → Nat → Nat → Nat
  | 0, _, _, _, acc => acc
  | n + 1, t2, k, p, acc => atanhSeries n t2 (k + 1) (p * t2 / 2 ^ sfBits) (acc + p / (2 * k + 1))

/-- Integer square root by bits, `n` bits from the top. -/
def isqrtBits : Nat → Nat → Nat → Nat
  | 0, _, r => r
  | n + 1, x, r => isqrtBits n x (if (r + 2 ^ n) * (r + 2 ^ n) ≤ x then r + 2 ^ n else r)

/-- `EXP2` of a finite value. -/
def exp2Fin (neg : Bool) (m : Nat) (e : Int) : Nat × Nat :=
  let r : Int := finUnits neg m (e + sfBits) 0
  if m = 0 then (0x3F800000, 0)
  else if 12 ≤ ilog2 m e then (if neg then (0, 0) else f32Inf false)
  else
    let one : Nat := 2 ^ sfBits
    let n : Int := r / (one : Int)
    let fr := (r % (one : Int)).toNat
    let z := fr * ln2Fix / 2 ^ sfBits
    f32Out (.fin false (expSeries 80 z 0 (2 ^ sfBits) 0) (n - sfBits))

/-- `LOG2` of a positive finite value. -/
def log2Fin (m : Nat) (e : Int) : Nat × Nat :=
  let n := ilog2 m e
  let f := m * 2 ^ sfBits / 2 ^ m.log2
  let t := (f - 2 ^ sfBits) * 2 ^ sfBits / (f + 2 ^ sfBits)
  let l := 2 * atanhSeries 100 (t * t / 2 ^ sfBits) 0 t 0 * 2 ^ sfBits / ln2Fix
  let one : Nat := 2 ^ sfBits
  let v : Int := n * (one : Int) + l
  f32Out (.fin (decide (v < 0)) v.natAbs (-(sfBits : Int)))

/-- The quotient 2^k / m with a last bit that tells whether it was inexact. -/
def stickyDiv (k m : Nat) : Nat := 2 * (2 ^ k / m) + b2n (2 ^ k % m != 0)

/-- `RCP` of a nonzero finite value. -/
def rcpFin (neg : Bool) (m : Nat) (e : Int) : Nat × Nat :=
  let k := m.log2 + 40
  f32Out (.fin neg (stickyDiv k m) (-(e + k + 1)))

/-- `RSQRT` of a positive finite value. -/
def rsqrtFin (m : Nat) (e : Int) : Nat × Nat :=
  let m' := if e % 2 = 0 then m else 2 * m
  let h := (e - e % 2) / 2
  let k : Nat := 64
  let s := isqrtBits 66 (2 ^ (2 * k) / m') 0
  f32Out (.fin false (2 * s + b2n (s * s * m' != 2 ^ (2 * k))) (-(h + k + 1)))

/-- The four special functions of `VSF` by their `FN` code (R97, Table 03-9), with the special cases of R97. They are
no rounding points and no operations of R96, so they set neither `OVF_OUT` nor `UNF_OUT`. -/
def f32Sf (fn : Nat) (a : Nat) : Nat × Nat :=
  let r := match Elem.fp32.decode a with
    | .nan => f32NaN flNanIn
    | .inf neg =>
      if fn = 0 then (if neg then (0, 0) else f32Inf false)
      else if fn = 1 then (if neg then f32NaN flInvalid else f32Inf false)
      else if fn = 2 then (if neg then (0x80000000, 0) else (0, 0))
      else (if neg then f32NaN flInvalid else (0, 0))
    | .fin neg m e =>
      if fn = 0 then exp2Fin neg m e
      else if fn = 1 then (if m = 0 then f32Inf true else if neg then f32NaN flInvalid else log2Fin m e)
      else if fn = 2 then (if m = 0 then f32Inf neg else rcpFin neg m e)
      else (if m = 0 then f32Inf neg else if neg then f32NaN flInvalid else rsqrtFin m e)
  (r.1, flWithout r.2 (flOvf + flUnf))

/-! ### Lane trees (R50) -/

/-- One level of the pairwise tree; each element carries the flags so far. -/
def treeLevel (op : Nat → Nat → Nat × Nat) : List (Nat × Nat) → List (Nat × Nat)
  | a :: b :: r =>
    let x := op a.1 b.1
    (x.1, (a.2.lor b.2).lor x.2) :: treeLevel op r
  | l => l

/-- The pairwise tree over 64 lanes, six levels (R50). -/
def laneTree (op : Nat → Nat → Nat × Nat) (lanes : List Nat) : Nat × Nat :=
  let l0 := lanes.map fun v => (v, 0)
  ((List.range 6).foldl (fun l _ => treeLevel op l) l0).headD (0, 0)

/-! ### The Leek generator (R98) -/

/-- The rotation amounts of `leek`. -/
def leekRot (i : Nat) : Nat := [13, 41, 29, 50, 7, 36, 22, 59].getD (i % 8) 0

/-- The key words of `leek`. -/
def leekKey (k0 k1 : BitVec 64) (j : Nat) : BitVec 64 :=
  if j = 0 then k0 else if j = 1 then k1 else k0 ^^^ k1 ^^^ 0x9E6D41B327C5F08A#64

/-- One round of `leek`. -/
def leekRound (k0 k1 : BitVec 64) (ab : BitVec 64 × BitVec 64) (i : Nat) : BitVec 64 × BitVec 64 :=
  let a := ab.1 + ab.2
  let b := ab.2.rotateLeft (leekRot i) ^^^ a
  if i % 4 = 3 then
    let j := i / 4 + 1
    (a + leekKey k0 k1 (j % 3), b + leekKey k0 k1 ((j + 1) % 3) + BitVec.ofNat 64 j)
  else (a, b)

/-- The 32-bit draw of the Leek generator (R98). -/
def leek (k0 k1 : BitVec 64) (step tensor elem : Nat) : Nat :=
  let a := BitVec.ofNat 64 (step % 2 ^ 48 + (tensor % 2 ^ 16) * 2 ^ 48)
  let b := BitVec.ofNat 64 (elem % 2 ^ 48 + (tensor / 2 ^ 16 % 2 ^ 16) * 2 ^ 48)
  let r := (List.range 12).foldl (leekRound k0 k1) (a + k0, b + k1)
  r.1.toNat >>> 32

/-- FP32 canonicalisation of the split store: a NaN becomes 0x7FC0_0000 (R104). -/
def canonNaN (w : Nat) : Nat := if (Elem.fp32.decode w).isNan then 0x7FC00000 else w

end Sys2Proof.Machine
end

