-- ==== Sys2Proof/Machine/CellOps.lean ====
section
/-! DEFINITION. The registers, tokens and local store of one cell, and the arithmetic of its accumulator sets: what a
`TMM` adds (R79 to R90) and what a `TDRAIN` writes (R86, R91 to R95, R543). -/

namespace Sys2Proof.Machine

/-- Bytes of a local store (R42). -/
def localBytes : Nat := 6291456

/-- R73: a range of `n` bytes lies in the local store. -/
def localOk (a n : Nat) : Bool := a + n ≤ localBytes

/-! ### Registers -/

/-- Scalar register `i`. -/
def sreg (c : Cell) (i : Nat) : Nat := (tblGet (0 : BitVec 64) c.sregs i).toNat

/-- A cell with scalar register `i` written. -/
def setSreg (c : Cell) (i v : Nat) : Cell := { c with sregs := tblPut 0 c.sregs i (BitVec.ofNat 64 v) }

/-- Predicate register `i`. -/
def pred (c : Cell) (i : Nat) : Nat := (tblGet (0 : BitVec 64) c.preds i).toNat

/-- A cell with predicate register `i` written. -/
def setPred (c : Cell) (i v : Nat) : Cell := { c with preds := tblPut 0 c.preds i (BitVec.ofNat 64 v) }

/-- Vector register `i`, as one number with lane 0 lowest. -/
def vregNat (c : Cell) (i : Nat) : Nat := (tblGet (0 : BitVec 2048) c.vregs i).toNat

/-- The 64 lanes of a vector register. -/
def vlanes (c : Cell) (i : Nat) : List Nat :=
  let v := vregNat c i
  (List.range 64).map fun l => fld v (32 * l + 31) (32 * l)

/-- A cell with vector register `i` written. -/
def setVregNat (c : Cell) (i v : Nat) : Cell := { c with vregs := tblPut 0 c.vregs i (BitVec.ofNat 2048 v) }

/-- A cell with the lanes of vector register `i` written. -/
def setVlanes (c : Cell) (i : Nat) (lanes : List Nat) : Cell := setVregNat c i (packElems 32 lanes)

/-- The lane mask of a predicated instruction: every lane when `PRED_EN` is clear (R62). -/
def activeMask (c : Cell) (en : Bool) (p : Nat) : Nat := if en then pred c p else 2 ^ 64 - 1

/-! ### Tokens (R53, R541) -/

/-- Whether an instruction's token is still unset from its previous use (R53). -/
def tokenBusy (c : Cell) (t : Nat) : Bool := c.tokBusy.getLsbD t

/-- One token as a mask. -/
def tokMask (t : Nat) : BitVec 64 := 1#64 <<< t

/-- An instruction has issued with this token. -/
def takeToken (c : Cell) (t : Nat) : Cell :=
  { c with tokBusy := c.tokBusy ||| tokMask t, tokSet := c.tokSet &&& ~~~(tokMask t) }

/-- The instruction that holds this token has completed. -/
def giveToken (c : Cell) (t : Nat) : Cell :=
  { c with tokBusy := c.tokBusy &&& ~~~(tokMask t), tokSet := c.tokSet ||| tokMask t }

/-- The cell without the flight that holds a token. -/
def dropFlight (c : Cell) (t : Nat) : Cell := { c with flights := c.flights.filter (·.token != t) }

/-- The cell with a new flight, the youngest; `pc` is already at the next instruction. -/
def addFlight (c : Cell) (t : Nat) (k : FlightKind) : Cell := { c with flights := c.flights ++ [⟨t, k, c.pc - 1⟩] }

/-! ### Accumulator sets -/

/-- A lane at the start of a chain. -/
def laneZero : Lane := { n := 0, f32 := 0, nan := false, pinf := false, ninf := false, inexact := false, viol := false }

/-- An empty set (R539). -/
def accZero : AccSet :=
  { mode := .empty, kCount := 0, inexact := false, viol := false, tBase := 0, rowAnc := [], colAnc := [], lanes := [] }

/-- The accumulator set a `SET` bit names. -/
def accOf (c : Cell) (b : Bool) : AccSet := if b then c.accB else c.accA

/-- A cell with one accumulator set replaced. -/
def setAcc (c : Cell) (b : Bool) (a : AccSet) : Cell := if b then { c with accB := a } else { c with accA := a }

/-- The mode of a set in issue order. -/
def issMode (c : Cell) (b : Bool) : AccMode := if b then c.issB else c.issA

/-- A cell with the issue-order mode of a set replaced. -/
def setIssMode (c : Cell) (b : Bool) (m : AccMode) : Cell := if b then { c with issB := m } else { c with issA := m }

/-- T of lane (i, j) (R79). -/
def laneT (a : AccSet) (i j : Nat) : Int := a.tBase + tblGet 0 a.rowAnc i + tblGet 0 a.colAnc j

/-- Tₑ of an element format (Table 04-3). -/
def elemTe : Elem → Int
  | .e4m3 => 9 | .e5m2 => 16 | .e2m3 => 3 | .e3m2 => 5 | .e2m1 => 3 | _ => 1

/-- R80: the operand format takes anchors from the local store. -/
def wantsAnchor (exact : Bool) (fmt : Nat) : Bool := fmtMx fmt || (exact && fmtHalf fmt)

/-- R539: the mode a `TMM` calls for. -/
def tmmMode (exact : Bool) (fa : Nat) : AccMode := if fmtHalf fa && !exact then .fp32 else .long

/-- The K values of row or column `i` of an operand, with their block scales (R76, R81). -/
def operandVals (m : Mem) (fmt base scBase k i : Nat) : List Num :=
  let w := fmtWidth fmt
  let arr := memNat m (base + i * rowStride w k) (k * w / 8)
  (List.range k).map fun x =>
    let code := packedGet w arr x
    if fmtMx fmt then mxValue fmt code (memGet m (scBase + i * (k / 32) + x / 32)).toNat else fmtDecode fmt code

/-- R81, R82, R88: one product into a lane of exponent T. -/
def addProduct (t : Int) (s : Lane × Nat) (p : Num × Num) : Lane × Nat :=
  let (l, fl) := s
  match p.1.mul p.2 with
  | none => ({ l with nan := true }, fl.lor flInvalid)
  | some .nan => ({ l with nan := true }, fl.lor flNanIn)
  | some (.inf true) => ({ l with ninf := true }, fl)
  | some (.inf false) => ({ l with pinf := true }, fl)
  | some (.fin neg m e) =>
    if m = 0 then (l, fl)
    else if t ≤ ilog2 m e then ({ l with viol := true }, fl.lor flAnchor)
    else
      let sh := e - (t - 71)
      let q := if 0 ≤ sh then m <<< sh.toNat else m >>> (-sh).toNat
      let lost := decide (sh < 0) && q <<< (-sh).toNat != m
      ({ l with n := if neg then l.n - BitVec.ofNat 96 q else l.n + BitVec.ofNat 96 q, inexact := l.inexact || lost },
        fl.lor (flIf lost flInexact))

/-- A lane of the long accumulator with the products of one `TMM` added. -/
def laneLong (t : Int) (l : Lane) (ps : List (Num × Num)) : Lane × Nat :=
  let r := ps.foldl (addProduct t) (l, 0)
  (r.1, r.2.lor (flIf (r.1.pinf && r.1.ninf && !(l.pinf && l.ninf)) flInvalid))

/-- What a group of products has come to so far (R89). -/
structure GroupAcc where
  nan : Bool
  pinf : Bool
  ninf : Bool
  sum : Option Num
  fl : Nat

/-- One product into a group. -/
def groupAdd (g : GroupAcc) (p : Num × Num) : GroupAcc :=
  match p.1.mul p.2 with
  | none => { g with nan := true, fl := g.fl.lor flInvalid }
  | some .nan => { g with nan := true, fl := g.fl.lor flNanIn }
  | some (.inf true) => { g with ninf := true }
  | some (.inf false) => { g with pinf := true }
  | some (.fin a m e) =>
    { g with sum := some (match g.sum with
        | some (.fin b n h) => finAdd b n h a m e
        | _ => .fin a m e) }

/-- R89: the exact sum of one group, rounded once to FP32. DESIGN CHOICE (log entry 69): a group that holds a NaN and
infinities of both signs answers the NaN with `NAN_IN` and does not set `INVALID`. -/
def groupSum (ps : List (Num × Num)) : Nat × Nat :=
  let g := ps.foldl groupAdd { nan := false, pinf := false, ninf := false, sum := none, fl := 0 }
  if g.nan then (0x7FC00000, g.fl)
  else if g.pinf && g.ninf then (0x7FC00000, g.fl.lor flInvalid)
  else if g.pinf then (0x7F800000, g.fl)
  else if g.ninf then (0xFF800000, g.fl)
  else
    let r := f32Out (g.sum.getD (.fin false 0 0))
    (r.1, g.fl.lor r.2)

/-- R89: groups of 16 added in order to the FP32 value of a lane. -/
def laneTree32 : List (List (Num × Num)) → Nat → Nat → Nat × Nat
  | [], v, fl => (v, fl)
  | g :: r, v, fl =>
    let s := groupSum g
    let a := f32Add v s.1
    laneTree32 r a.1 ((fl.lor s.2).lor a.2)

/-- A list cut into pieces of 16. -/
def groups16 {α : Type} (l : List α) : List (List α) :=
  (List.range (ceilDiv l.length 16)).map fun g => (l.drop (16 * g)).take 16

/-- The set that a `TMM` with `ACC_KEEP` clear starts from (R79, R89, R539). -/
def chainStart (m : Mem) (op : TmmOp) : AccSet :=
  let w := op.word.toNat
  let fa := fld w 113 110
  let fb := fld w 109 106
  let mode := tmmMode op.exact fa
  let anchors (n base : Nat) : Tbl Int :=
    (List.range n).foldl (fun t i => tblPut 0 t i (toSigned 16 (memNat m (base + 2 * i) 2))) []
  if mode = .fp32 then { accZero with mode := .fp32 }
  else
    { accZero with
      mode := .long
      tBase := elemTe (fmtElemD fa) + elemTe (fmtElemD fb)
      rowAnc := if wantsAnchor op.exact fa then anchors 128 op.anc else []
      colAnc := if wantsAnchor op.exact fb then anchors 64 (op.anc + 256) else [] }

/-- A set with the products of a `TMM` added, and the flags (R62, R81 to R90). -/
def tmmAdd (m : Mem) (op : TmmOp) (set : AccSet) : AccSet × Nat :=
  let w := op.word.toNat
  let fa := fld w 113 110
  let fb := fld w 109 106
  let k := tmmK w
  let cols := ((List.range 64).filter (op.colMask.getLsbD ·)).map fun j =>
    (j, operandVals m fb op.b op.bsc k j)
  let rows := (List.range 128).filter (op.rowMask.getLsbD ·)
  rows.foldl (fun (s : AccSet × Nat) i =>
    let a := operandVals m fa op.a op.asc k i
    cols.foldl (fun (s : AccSet × Nat) (jb : Nat × List Num) =>
      let key := i * 64 + jb.1
      let l := tblGet laneZero s.1.lanes key
      let ps := a.zip jb.2
      if s.1.mode = .fp32 then
        let r := laneTree32 (groups16 ps) l.f32.toNat 0
        ({ s.1 with lanes := tblPut laneZero s.1.lanes key { l with f32 := BitVec.ofNat 32 r.1 } },
          s.2.lor (flWithout r.2 flNanOut))
      else
        let r := laneLong (laneT s.1 i jb.1) l ps
        ({ s.1 with
            lanes := tblPut laneZero s.1.lanes key r.1
            inexact := s.1.inexact || r.1.inexact
            viol := s.1.viol || r.1.viol }, s.2.lor r.2)) s) (set, 0)

/-- R87: the T signature of a set. -/
def tSignature (a : AccSet) : Nat :=
  crc32c (((List.range 8192).map fun l => natLe 4 (ofSigned 32 (laneT a (l / 64) (l % 64)))).flatten)

/-- R88: N of the marks. -/
def nMark (k : Nat) : BitVec 96 := BitVec.ofNat 96 (2 ^ 95 + k)

/-- R87, R88: one lane of an image added to a lane. -/
def mergeLane (l : Lane) (n : BitVec 96) : Lane :=
  if n = nMark 1 then { l with nan := true }
  else if n = nMark 2 then { l with pinf := true }
  else if n = nMark 3 then { l with ninf := true }
  else { l with n := l.n + n }

/-- R87: a drained image merged into a set: the new set and the flags. Masked rows and columns contribute nothing (R62). -/
def mergeImage (m : Mem) (base : Nat) (rows : BitVec 128) (cols : BitVec 64) (set : AccSet) : AccSet × Nat :=
  let tr := memNat m (base + 98304) 8
  let inx := bitAt tr 24
  let vio := bitAt tr 25
  let fl0 := flIf inx flInexact + flIf vio flAnchor
  let s0 := { set with
    kCount := set.kCount + fld tr 23 0 + 1, inexact := set.inexact || inx, viol := set.viol || vio }
  ((List.range 8192).filter fun key => rows.getLsbD (key / 64) && cols.getLsbD (key % 64)).foldl
    (fun (s : AccSet × Nat) key =>
    let l := tblGet laneZero s.1.lanes key
    let l' := mergeLane l (BitVec.ofNat 96 (memNat m (base + 12 * key) 12))
    ({ s.1 with lanes := tblPut laneZero s.1.lanes key l' },
      s.2.lor (flIf (l'.pinf && l'.ninf && !(l.pinf && l.ninf)) flInvalid))) (s0, fl0)

/-- R84: the most K elements of a chain. -/
def chainLimit : Nat := 16777216

/-- Fault codes of Table 16-3 that a cell raises. -/
def fcIllegal : Nat := 0x01
/-- Arithmetic fault. -/
def fcArith : Nat := 0x02
/-- Address out of range. -/
def fcAddress : Nat := 0x03

/-- What a `TMM` makes of its set when it runs: the set and the flags, or the fault of R84 or R87. -/
def tmmResult (m : Mem) (op : TmmOp) (set : AccSet) : Except Nat (AccSet × Nat) :=
  let w := op.word.toNat
  if fld w 113 110 = 10 then
    let r := mergeImage m op.a op.rowMask op.colMask set
    if fld (memNat m (op.a + 98304) 8) 63 32 ≠ tSignature set then .error fcIllegal
    else if chainLimit < r.1.kCount then .error fcArith
    else .ok r
  else
    let s0 := if bitAt w 122 then set else chainStart m op
    if chainLimit < s0.kCount + tmmK w then .error fcArith
    else .ok (tmmAdd m op { s0 with kCount := s0.kCount + tmmK w })

/-! ### Drains -/

/-- Table 04-5: what a lane drains as, before any scale. -/
def laneValue (a : AccSet) (i j : Nat) : Num :=
  let l := tblGet laneZero a.lanes (i * 64 + j)
  if a.mode = .fp32 then Elem.fp32.decode l.f32.toNat
  else if l.nan || l.viol || (l.pinf && l.ninf) then .nan
  else if l.pinf then .inf false
  else if l.ninf then .inf true
  else if l.n = 0 then .fin false 0 0
  else .fin l.n.msb l.n.toInt.natAbs (laneT a i j - 71)

/-- Table 03-9 `SCALE_MODE`: the exact product with an FP32 scale; a long zero stays +0 (Table 04-5), an FP32 zero takes
its sign under IEEE 754 (R89). -/
def scaledValue (long : Bool) (v : Num) (scale : Nat) : Num × Nat :=
  let s := Elem.fp32.decode scale
  if s.isNan then (.nan, flNanIn)
  else if v.isNan then (.nan, 0)
  else match v.mul s with
    | none => (.nan, flInvalid)
    | some (.fin neg m e) => if long && m == 0 then (.fin false 0 0, 0) else (.fin neg m e, 0)
    | some p => (p, 0)

/-- Bytes of a `RAW96` image (R86, R87). -/
def rawImage (a : AccSet) : List Byte :=
  let lane (key : Nat) : BitVec 96 :=
    let l := tblGet laneZero a.lanes key
    if l.nan || l.viol || (l.pinf && l.ninf) then nMark 1
    else if l.pinf then nMark 2 else if l.ninf then nMark 3 else l.n
  ((List.range 8192).map fun k => natLe 12 (lane k).toNat).flatten
  ++ natLe 8 ((a.kCount - 1) % 2 ^ 24 + b2n a.inexact * 2 ^ 24 + b2n a.viol * 2 ^ 25 + tSignature a * 2 ^ 32)

/-- R100: the draw of output element (i, j) of a drain. -/
def drainDraw (op : DrainOp) (i j : Nat) : Nat :=
  leek op.k0 op.k1 op.step (fld op.word.toNat 63 32) (op.idxBase + i * op.idxRow + j)

/-- R543: the anchor of a row of BF16 or FP16 codes as written. -/
def halfAnchor (f : Elem) (codes : List Nat) : Int :=
  codes.foldl (fun a c =>
    let ex := fld c (f.width - 2) f.mbits
    if ex = 2 ^ f.ebits - 1 then a else max a ((if ex = 0 then (1 : Int) else ex) - f.bias)) f.emin

/-- R543: the anchor of a row of MX blocks. -/
def mxAnchor (scales : List Nat) : Int :=
  scales.foldl (fun a s => if s = 255 then a else max a ((s : Int) - 127)) (-127)

/-- What a drain writes to the local store, address and bytes, and the flags it sets (R86, R91 to R95, R543). -/
def drainWrites (m : Mem) (op : DrainOp) (a : AccSet) : List (Nat × List Byte) × Nat :=
  let w := op.word.toNat
  let fmt := fld w 113 110
  let sat := bitAt w 120
  if fmt = 10 then ([(op.dst, rawImage a)], 0)
  else
    let f := fmtElemD fmt
    let sm := fld w 109 108
    let value (i j : Nat) : Num × Nat :=
      let v := laneValue a i j
      if sm = 0 then (v, 0)
      else scaledValue (a.mode == .long) v (memNat m (op.sc + 4 * (if sm = 1 then i else j)) 4)
    let mode (i j : Nat) : RMode :=
      if fld w 122 121 = 2 then .sr (drainDraw op i j) else rmodeOf (fld w 122 121) 0
    let stride := rowStride f.width 64
    -- one row: its bytes, its scales, its anchor, its flags
    let row (i : Nat) : List Byte × List Nat × Int × Nat :=
      let vs := (List.range 64).map fun j => (value i j, mode i j)
      let fl0 := flUnion (vs.map fun v => v.1.2)
      if fmtMx fmt then
        let b0 := mxBlock f sat ((vs.take 32).map fun v => (v.1.1, v.2))
        let b1 := mxBlock f sat ((vs.drop 32).map fun v => (v.1.1, v.2))
        (natLe (8 * f.width) (packElems f.width (b0.2.1 ++ b1.2.1)), [b0.1, b1.1], mxAnchor [b0.1, b1.1],
          (fl0.lor b0.2.2).lor b1.2.2)
      else
        let rs := vs.map fun v => roundNum f v.2 sat false v.1.1
        (natLe (8 * f.width) (packElems f.width (rs.map Prod.fst)), [], halfAnchor f (rs.map Prod.fst),
          fl0.lor (flUnion (rs.map Prod.snd)))
    let rows := (List.range 128).map row
    let body := rows.zipIdx.map fun r => (op.dst + r.2 * stride, r.1.1)
    let scales := if fmtMx fmt then
        [(op.mxsc, (rows.map fun r => r.2.1.map (BitVec.ofNat 8)).flatten)] else []
    let anchors := if bitAt w 107 then
        [(op.anc, (rows.map fun r => natLe 2 (ofSigned 16 r.2.2.1)).flatten)] else []
    (body ++ scales ++ anchors, flUnion (rows.map fun r => r.2.2.2))

/-- The address ranges of what a drain writes. -/
def drainRanges (op : DrainOp) : List (Nat × Nat) :=
  let w := op.word.toNat
  let fmt := fld w 113 110
  if fmt = 10 then [(op.dst, 98312)]
  else
    let width := (fmtElemD fmt).width
    [(op.dst, 127 * rowStride width 64 + 8 * width)]
    ++ (if fmtMx fmt then [(op.mxsc, 256)] else [])
    ++ (if bitAt w 107 then [(op.anc, 256)] else [])

/-- The address ranges of what a `TMM` reads (R540). -/
def tmmRanges (op : TmmOp) : List (Nat × Nat) :=
  let w := op.word.toNat
  let fa := fld w 113 110
  let fb := fld w 109 106
  let k := tmmK w
  if fa = 10 then [(op.a, 98312)]
  else
    let wa := fmtWidth fa
    let wb := fmtWidth fb
    [(op.a, 127 * rowStride wa k + k * wa / 8), (op.b, 63 * rowStride wb k + k * wb / 8)]
    ++ (if fmtMx fa then [(op.asc, 128 * (k / 32))] else [])
    ++ (if fmtMx fb then [(op.bsc, 64 * (k / 32))] else [])
    ++ (if !bitAt w 122 && wantsAnchor op.exact fa then [(op.anc, 256)] else [])
    ++ (if !bitAt w 122 && wantsAnchor op.exact fb then [(op.anc + 256, 128)] else [])

/-! ### The local store, with the races of R540 -/

/-- The 64-byte lines of a range. -/
def linesOf (a n : Nat) : List Nat :=
  if n = 0 then [] else (List.range ((a + n - 1) / 64 + 1 - a / 64)).map fun i => (a / 64 + i) * 64

/-- Whether a 64-byte line holds a byte of a range. -/
def lineIn (line : Nat) (r : Nat × Nat) : Bool := line < r.1 + r.2 && r.1 < line + 64

/-- What a write of a range leaves in the flights it races with: the old lines of a `TMM`'s operands, and the range for
a `TDRAIN` whose output it meets. -/
def noteWrite (m : Mem) (a n : Nat) (f : Flight) : Flight :=
  match f.kind with
  | .tmm op =>
    let hit := (linesOf a n).filter fun l => (tmmRanges op).any (lineIn l)
    { f with kind := .tmm { op with olds := op.olds ++ hit.map fun l => (l, BitVec.ofNat 512 (memNat m l 64)) } }
  | .tdrain op =>
    if (linesOf a n).any fun l => (drainRanges op).any (lineIn l) then
      { f with kind := .tdrain { op with hits := op.hits ++ [(a, n)] } }
    else f
  | _ => f

/-- Bytes written to the local store. -/
def writeLocal (c : Cell) (a : Nat) (d : List Byte) : Cell :=
  { c with store := memWrite c.store a d, flights := c.flights.map (noteWrite c.store a d.length) }

/-- Whether an earlier `TMM` of the list still works on a set. -/
def tmmPending (set : Bool) (fs : List Flight) : Bool :=
  fs.any fun f => match f.kind with
    | .tmm op => bitAt op.word.toNat 123 == set
    | _ => false

/-- The set a drain reads, once it may read it: its snapshot, or the set itself when no earlier `TMM` works on it. -/
def drainSource (c : Cell) (before : List Flight) (op : DrainOp) : Option AccSet :=
  let set := bitAt op.word.toNat 123
  match op.snap with
  | some a => some a
  | none => if tmmPending set before then none else some (accOf c set)

/-- The flights before the one with a token. -/
def flightsBefore (c : Cell) (t : Nat) : List Flight := c.flights.takeWhile (·.token != t)

/-- The memory as a reader of a range sees it: a line of a drain's output may already hold what the drain writes
(R540). `fr` is the free counter. -/
def racedStore (c : Cell) (fr a n : Nat) : Mem :=
  c.flights.foldl (fun m f => match f.kind with
    | .tdrain op =>
      let lines := (linesOf a n).filter fun l => (drainRanges op).any (lineIn l)
      if lines.isEmpty then m
      else match drainSource c (flightsBefore c f.token) op with
        | none => m
        | some set =>
          let full := (drainWrites c.store op set).1.foldl (fun m w => memWrite m w.1 w.2) c.store
          lines.foldl (fun m l => if Config.raceBit fr l then memWrite m l (memRead full l 64) else m) m
    | _ => m) c.store

/-- Bytes read from the local store. -/
def readLocal (c : Cell) (fr a n : Nat) : List Byte :=
  if c.flights.isEmpty then memRead c.store a n else memRead (racedStore c fr a n) a n

/-- The memory as a reader of several ranges sees it. -/
def racedRanges (c : Cell) (fr : Nat) (rs : List (Nat × Nat)) : Mem :=
  (rs.foldl (fun (c : Cell) r => { c with store := racedStore c fr r.1 r.2 }) c).store

/-- The operands of a `TMM` as it reads them: an overwritten line is old or new (R540). -/
def tmmView (m : Mem) (fr : Nat) (op : TmmOp) : Mem :=
  (op.olds.zipIdx.foldr (fun p m =>
    if Config.raceBit fr p.2 then memWrite m p.1.1 (natLe 64 p.1.2.toNat) else m) m)

/-- A byte of an output line that something else wrote keeps that write when the drain's line came first (R540). -/
def drainByte (old : Mem) (fr : Nat) (hits : List (Nat × Nat)) (m : Mem) (a : Nat) (b : Byte) : Mem :=
  let raced := hits.any fun h => h.1 ≤ a && a < h.1 + h.2
  if raced && Config.raceBit fr (a / 64) then memSet m a (memGet old a) else memSet m a b

/-- The output of a drain written, with the races of R540. -/
def landDrain (c : Cell) (fr : Nat) (op : DrainOp) (ws : List (Nat × List Byte)) : Cell :=
  ws.foldl (fun c w =>
    if op.hits.isEmpty then writeLocal c w.1 w.2
    else
      let m := w.2.zipIdx.foldl (fun m p => drainByte c.store fr op.hits m (w.1 + p.2) p.1) c.store
      writeLocal c w.1 (memRead m w.1 w.2.length)) c

/-! ### Pure cell operations and their outcome -/

/-- The outcome of an instruction on its cell: the cell and the flags it sets, or a fault of the context. -/
inductive CellOut where
  /-- The cell after it, and the bits it sets in `CELL_ARITH_FLAGS`. -/
  | ok (c : Cell) (fl : Nat)
  /-- A fault code of Table 16-3, and the faulting address if there is one. -/
  | fault (code : Nat) (addr : Nat := 0)
  deriving Repr

/-- A `TMM` leaves the array: its set as R81 to R90 make it, its token set. Drains issued before it that have not yet
landed have read the set (R48). -/
def finishTmm (c : Cell) (fr t : Nat) (op : TmmOp) : CellOut :=
  let set := bitAt op.word.toNat 123
  let old := accOf c set
  let before := flightsBefore c t
  match tmmResult (tmmView (racedRanges c fr (tmmRanges op)) fr op) op old with
  | .error code => .fault code
  | .ok (a, fl) =>
    let snapped := c.flights.map fun f =>
      if before.contains f then
        match f.kind with
        | .tdrain d => if bitAt d.word.toNat 123 == set && d.snap.isNone then
            { f with kind := .tdrain { d with snap := some old } } else f
        | _ => f
      else f
    .ok (giveToken (dropFlight (setAcc { c with flights := snapped } set a) t) t) fl

/-- A `TDRAIN` lands: its output in the local store, its token set. DESIGN CHOICE (log entry 68): its scales are read
here, at its completion; R540 puts their reading within its duration and bounds no race on them. -/
def finishDrain (c : Cell) (fr t : Nat) (op : DrainOp) (a : AccSet) : CellOut :=
  let ws := drainWrites c.store op a
  .ok (giveToken (landDrain (dropFlight c t) fr op ws.1) t) ws.2

end Sys2Proof.Machine
end

