-- ==== Sys2Proof/Machine/CellUnits.lean ====
section
/-! DEFINITION. The synchronous instructions of a cell on its own state (classes `CTRL`, `SCALAR`, `VMEM`, `VOP`, `VSF`,
`VRED`, `RNG`; Table 03-9). Each takes the instruction word and the cell with `pc` already at the next instruction. -/

namespace Sys2Proof.Machine

/-! ### `CTRL` (R60, R61, R74) -/

/-- `LOOP`: at most 4 deep (R74). -/
def ctrlLoop (w : Nat) (c : Cell) : CellOut :=
  if 4 ≤ c.loops.length then .fault fcIllegal
  else .ok { c with loops := ⟨c.pc, fld w 119 104, 1⟩ :: c.loops } 0

/-- `ENDLOOP`: the body again until it has run `TRIP` times or the exit predicate has a bit set (R74). -/
def ctrlEndloop (w : Nat) (c : Cell) : CellOut :=
  match c.loops with
  | [] => .fault fcIllegal
  | f :: r =>
    if f.trip ≤ f.runs || (bitAt w 103 && pred c (fld w 102 100) != 0) then .ok { c with loops := r } 0
    else .ok { c with pc := f.body, loops := { f with runs := f.runs + 1 } :: r } 0

/-- `SKIP` (R61). -/
def ctrlSkip (w : Nat) (c : Cell) : CellOut :=
  let p := pred c (fld w 111 109)
  let take := if bitAt w 108 then p == 2 ^ 64 - 1 else p != 0
  .ok (if take then { c with pc := c.pc + fld w 119 112 } else c) 0

/-- `PSET`. -/
def ctrlPset (w : Nat) (c : Cell) : CellOut := .ok (setPred c (fld w 111 109) (fld w 63 0)) 0

/-- `END`: the block ends and its open loops close (R74). -/
def ctrlEnd (c : Cell) : CellOut := .ok { c with running := false, loops := [] } 0

/-! ### `SCALAR` -/

/-- Second operand of the operations 0x0 to 0xC: `IMM` or `SRC_B`. -/
def scalarB (w : Nat) (c : Cell) : Nat := if bitAt w 104 then fld w 63 0 else sreg c (fld w 109 105)

/-- A two-operand scalar operation. -/
def scalarAlu (f : Nat → Nat → Nat) (w : Nat) (c : Cell) : CellOut :=
  .ok (setSreg c (fld w 119 115) (f (sreg c (fld w 114 110)) (scalarB w c))) 0

/-- 64-bit subtraction. -/
def sub64 (a b : Nat) : Nat := (a + 2 ^ 64 - b) % 2 ^ 64

/-- Shift left, zero for 64 or more. -/
def shl64 (a b : Nat) : Nat := if 64 ≤ b then 0 else (a <<< b) % 2 ^ 64

/-- Logical shift right, zero for 64 or more. -/
def shr64 (a b : Nat) : Nat := if 64 ≤ b then 0 else a >>> b

/-- Arithmetic shift right; by 64 or more, the sign in every bit. -/
def sra64 (a b : Nat) : Nat := ofSigned 64 (toSigned 64 a / (2 ^ min b 64 : Nat))

/-- Set if less, signed. -/
def slt64 (a b : Nat) : Nat := b2n (decide (toSigned 64 a < toSigned 64 b))

/-- Set if less, unsigned. -/
def sltu64 (a b : Nat) : Nat := b2n (decide (a < b))

/-- Set if equal. -/
def seq64 (a b : Nat) : Nat := b2n (decide (a = b))

/-- Address of a scalar load or store: base plus `IMM`, always added, in 64 bits. -/
def scalarAddr (w : Nat) (c : Cell) : Nat := (sreg c (fld w 114 110) + fld w 63 0) % 2 ^ 64

/-- R73: a scalar access lies in the local store and is 8-byte aligned. -/
def scalarAddrOk (a : Nat) : Bool := localOk a 8 && a % 8 == 0

/-- Scalar load of 8 bytes. -/
def scalarLoadOp (fr w : Nat) (c : Cell) : CellOut :=
  let a := scalarAddr w c
  if scalarAddrOk a then .ok (setSreg c (fld w 119 115) (leNat (readLocal c fr a 8))) 0 else .fault fcAddress a

/-- Scalar store of 8 bytes. -/
def scalarStoreOp (w : Nat) (c : Cell) : CellOut :=
  let a := scalarAddr w c
  if scalarAddrOk a then .ok (writeLocal c a (natLe 8 (sreg c (fld w 109 105)))) 0 else .fault fcAddress a

/-! ### `VMEM` -/

/-- The lanes of a mask, in order. -/
def maskLanes (mask : Nat) : List Nat := (List.range 64).filter (bitAt mask ·)

/-- The active lanes of a `VMEM` word. -/
def vmemActive (w : Nat) (c : Cell) : List Nat := maskLanes (activeMask c (bitAt w 102) (fld w 101 99))

/-- A local-store range given as an integer address (R73: computed exactly). -/
def localOkInt (a : Int) (n : Nat) : Bool := decide (0 ≤ a) && localOk a.toNat n

/-- The first address that a list of lanes gives outside the local store, as 64 bits. -/
def firstBad (addr : Nat → Int) (n : Nat) (act : List Nat) : Nat :=
  match act.find? fun l => !localOkInt (addr l) n with
  | some l => ofSigned 64 (addr l)
  | none => 0

/-- Load of the active lanes from their addresses, zero-extended (Table 03-9 `WIDTH`). -/
def vloadAt (addr : Nat → Int) (fr w : Nat) (c : Cell) : CellOut :=
  let n := vmemSize w
  let act := vmemActive w c
  if act.all fun l => localOkInt (addr l) n then
    let old := vlanes c (fld w 119 115)
    .ok (setVlanes c (fld w 119 115) (old.zipIdx.map fun p =>
      if act.contains p.2 then leNat (readLocal c fr (addr p.2).toNat n) else p.1)) 0
  else .fault fcAddress (firstBad addr n act)

/-- Store of the active lanes to their addresses, lane 0 first, the low part of each (Table 03-9 `WIDTH`). -/
def vstoreAt (addr : Nat → Int) (w : Nat) (c : Cell) : CellOut :=
  let n := vmemSize w
  let act := vmemActive w c
  if act.all fun l => localOkInt (addr l) n then
    let v := vlanes c (fld w 119 115)
    .ok (act.foldl (fun c l => writeLocal c (addr l).toNat (natLe n (v.getD l 0))) c) 0
  else .fault fcAddress (firstBad addr n act)

/-- Lane address of a contiguous load or store. -/
def laneAddr (w : Nat) (c : Cell) (l : Nat) : Int := (sreg c (fld w 114 110) + l * vmemSize w : Nat)

/-- Lane address of a strided load or store: `ADDR_REG` + l x stride, exactly. -/
def strideAddr (w : Nat) (c : Cell) (l : Nat) : Int :=
  (sreg c (fld w 114 110) : Int) + (l : Int) * toSigned 64 (sreg c (fld w 109 105))

/-- Lane address of a local gather: an unsigned 32-bit offset from `ADDR_REG` (R63). -/
def gatherAddr (w : Nat) (c : Cell) (l : Nat) : Int :=
  (sreg c (fld w 114 110) + (vlanes c (fld w 109 105)).getD l 0 : Nat)

/-- Addresses of the two planes of a split access for one lane (R104). -/
def splitOk (w : Nat) (c : Cell) (act : List Nat) : Bool :=
  act.all fun l => localOk (sreg c (fld w 114 110) + 2 * l) 2 && localOk (sreg c (fld w 109 105) + 2 * l) 2

/-- The first plane address outside the local store. -/
def splitBad (w : Nat) (c : Cell) (act : List Nat) : Nat :=
  match act.find? fun l => !(localOk (sreg c (fld w 114 110) + 2 * l) 2 && localOk (sreg c (fld w 109 105) + 2 * l) 2) with
  | some l =>
    let hi := sreg c (fld w 114 110) + 2 * l
    if localOk hi 2 then (sreg c (fld w 109 105) + 2 * l) % 2 ^ 64 else hi % 2 ^ 64
  | none => 0

/-- `LDSPLIT` (R104). -/
def ldsplitOp (fr w : Nat) (c : Cell) : CellOut :=
  let act := vmemActive w c
  if splitOk w c act then
    let hi := sreg c (fld w 114 110)
    let lo := sreg c (fld w 109 105)
    let old := vlanes c (fld w 119 115)
    .ok (setVlanes c (fld w 119 115) (old.zipIdx.map fun p =>
      if act.contains p.2 then
        leNat (readLocal c fr (hi + 2 * p.2) 2) * 65536 + leNat (readLocal c fr (lo + 2 * p.2) 2)
      else p.1)) 0
  else .fault fcAddress (splitBad w c act)

/-- `STSPLIT` (R104): a NaN is first replaced by the canonical one. It is a rounding point, so a NaN it writes sets
`NAN_OUT` (R94). -/
def stsplitOp (w : Nat) (c : Cell) : CellOut :=
  let act := vmemActive w c
  if splitOk w c act then
    let hi := sreg c (fld w 114 110)
    let lo := sreg c (fld w 109 105)
    let v := vlanes c (fld w 119 115)
    .ok (act.foldl (fun c l =>
      let x := canonNaN (v.getD l 0)
      writeLocal (writeLocal c (hi + 2 * l) (natLe 2 (x / 65536))) (lo + 2 * l) (natLe 2 (x % 65536))) c)
      (flIf (act.any fun l => (Elem.fp32.decode (v.getD l 0)).isNan) flNanOut)
  else .fault fcAddress (splitBad w c act)

/-! ### `VOP`, `VSF`, `VRED`, `RNG` -/

/-- The lane mask of a `VOP`, `VSF` or `VRED` word. -/
def vopMask (w : Nat) (c : Cell) : Nat := activeMask c (bitAt w 96) (fld w 95 93)

/-- The lanes of `SRC_B`: a vector register, or with `BCAST` the low word of a scalar register. -/
def vopB (w : Nat) (c : Cell) : List Nat :=
  if bitAt w 97 then List.replicate 64 (sreg c (fld w 107 103) % 2 ^ 32) else vlanes c (fld w 107 103)

/-- A lane-wise operation that writes a vector register; masked lanes keep their value (R62). -/
def vopLanes (f : Nat → Nat × Nat) (w : Nat) (c : Cell) : CellOut :=
  let mask := vopMask w c
  let dst := fld w 117 113
  let rs := (vlanes c dst).zipIdx.map fun p => if bitAt mask p.2 then f p.2 else (p.1, 0)
  .ok (setVlanes c dst (rs.map Prod.fst)) (flUnion (rs.map Prod.snd))

/-- A `VOP` of two sources. -/
def vop2 (f : Nat → Nat → Nat × Nat) (w : Nat) (c : Cell) : CellOut :=
  let a := vlanes c (fld w 112 108)
  let b := vopB w c
  vopLanes (fun l => f (a.getD l 0) (b.getD l 0)) w c

/-- The fused multiply-add (R96). -/
def vopFma (w : Nat) (c : Cell) : CellOut :=
  let a := vlanes c (fld w 112 108)
  let b := vopB w c
  let d := vlanes c (fld w 102 98)
  vopLanes (fun l => f32Fma (a.getD l 0) (b.getD l 0) (d.getD l 0)) w c

/-- The register move: bits unchanged, no flag (R94). -/
def vopMoveOp (w : Nat) (c : Cell) : CellOut :=
  let a := vlanes c (fld w 112 108)
  vopLanes (fun l => (a.getD l 0, 0)) w c

/-- A compare: bit l of `PDST` for each active lane (Table 03-9 `PDST`). -/
def vopCompare (k : Cmp) (w : Nat) (c : Cell) : CellOut :=
  let mask := vopMask w c
  let a := vlanes c (fld w 112 108)
  let b := vopB w c
  let old := pred c (fld w 92 90)
  let rs := (List.range 64).map fun l =>
    if bitAt mask l then f32Cmp k (a.getD l 0) (b.getD l 0) else (bitAt old l, 0)
  .ok (setPred c (fld w 92 90) (packElems 1 (rs.map fun r => b2n r.1))) (flUnion (rs.map Prod.snd))

/-- The source values of a convert (Table 03-9 `FMT_IN`): packed from lane 0, MX scales in lane 63. -/
def convertIn (fmt reg : Nat) : List Num :=
  let w := fmtWidth fmt
  (List.range 64).map fun l =>
    let code := packedGet w reg l
    if fmtMx fmt then mxValue fmt code (fld reg (32 * 63 + (if l < 32 then 7 else 15)) (32 * 63 + (if l < 32 then 0 else 8)))
    else fmtDecode fmt code

/-- A number with bits [hi:lo] replaced. -/
def putBits (w hi lo v : Nat) : Nat := w - fld w hi lo * 2 ^ lo + v % 2 ^ (hi + 1 - lo) * 2 ^ lo

/-- `VOP` convert (R91 to R95, R538; Table 03-9 `FMT_OUT`). -/
def vopConvert (w : Nat) (c : Cell) : CellOut :=
  let fin := fld w 89 86
  let fout := fld w 85 82
  let sat := bitAt w 79
  let mask := vopMask w c
  let dst := fld w 117 113
  let old := vregNat c dst
  let draws := vlanes c (fld w 78 74)
  let vals := convertIn fin (vregNat c (fld w 112 108))
  let mode (l : Nat) : RMode := rmodeOf (fld w 81 80) (draws.getD l 0)
  let wd := fmtWidth fout
  let nanIn := flIf (vals.zipIdx.any fun p => bitAt mask p.2 && p.1.isNan) flNanIn
  if fmtMx fout then
    let blk (b : Nat) : List (Num × RMode) := (List.range 32).map fun i =>
      let l := 32 * b + i
      (if bitAt mask l then vals.getD l .nan else .fin false 0 0, mode l)
    let b0 := mxBlock (fmtElemD fout) sat (blk 0)
    let b1 := mxBlock (fmtElemD fout) sat (blk 1)
    let codes := (b0.2.1 ++ b1.2.1).zipIdx.map fun p => if bitAt mask p.2 then p.1 else packedGet wd old p.2
    let v := putBits old (64 * wd - 1) 0 (packElems wd codes)
    .ok (setVregNat c dst (putBits v (32 * 63 + 15) (32 * 63) (b0.1 + 256 * b1.1)))
      ((nanIn.lor b0.2.2).lor b1.2.2)
  else
    let rs := vals.zipIdx.map fun p =>
      if bitAt mask p.2 then
        (if fout = 11 then roundE8m0 (mode p.2) sat p.1 else roundNum (fmtElemD fout) (mode p.2) sat false p.1)
      else (packedGet wd old p.2, 0)
    .ok (setVregNat c dst (putBits old (64 * wd - 1) 0 (packElems wd (rs.map Prod.fst))))
      (nanIn.lor (flUnion (rs.map Prod.snd)))

/-- A special function on the active lanes (R97). -/
def vsfOp (fn w : Nat) (c : Cell) : CellOut :=
  let a := vlanes c (fld w 112 108)
  vopLanes (fun l => f32Sf fn (a.getD l 0)) w c

/-- A lane tree into a scalar register: masked lanes enter as +0 for a sum and as -Inf for a maximum (R50). -/
def vredOp (op : Nat → Nat → Nat × Nat) (masked w : Nat) (c : Cell) : CellOut :=
  let mask := vopMask w c
  let lanes := (vlanes c (fld w 112 108)).zipIdx.map fun p => if bitAt mask p.2 then p.1 else masked
  let r := laneTree op lanes
  .ok (setSreg c (fld w 117 113) r.1) r.2

/-- `RNG`: lane l draws for index `IDX_BASE` + l x `IDX_STRIDE`; an index at or above 2^48 is an arithmetic fault
(R99, R100). -/
def rngOp (k0 k1 : BitVec 64) (step w : Nat) (c : Cell) : CellOut :=
  let base := sreg c (fld w 118 114)
  let stride := sreg c (fld w 113 109)
  if 2 ^ 48 ≤ base + 63 * stride then .fault fcArith
  else .ok (setVlanes c (fld w 123 119)
    ((List.range 64).map fun l => leek k0 k1 step (fld w 63 32) (base + l * stride))) 0

end Sys2Proof.Machine
end

