-- ==== Sys2Proof/Machine/Crypto.lean ====
section
/-! DEFINITION. SHA-256 (the digests of Plans and of the island's firmware, R127 and R460) and AES-256-GCM (sealed
frames, R204 and R205), and XTS-AES-256 (the far tier's media, R167 and R168), from their public
standards. -/

namespace Sys2Proof.Machine

/-! ### SHA-256 (FIPS 180-4) -/

/-- The largest root of a power `k` of which does not exceed `n`, found bit by bit from bit `b - 1` down. -/
def rootBits (k n : Nat) : Nat → Nat → Nat
  | 0, r => r
  | b + 1, r => rootBits k n b (if (r + 2 ^ b) ^ k ≤ n then r + 2 ^ b else r)

/-- The first 32 bits of the fraction of the `k`-th root of a number below 512. -/
def rootFraction (k p : Nat) : Nat := rootBits k (p * 2 ^ (32 * k)) 37 0 % 2 ^ 32

/-- The primes below a number of at most 361. -/
def primesBelow (n : Nat) : List Nat :=
  (List.range n).filter fun p => 2 ≤ p && (List.range 19).all fun d => d < 2 || p ≤ d || p % d != 0

/-- The round constants: fractions of the cube roots of the first 64 primes. -/
def shaRoundWords : List Nat := (primesBelow 312).map (rootFraction 3)

/-- The initial digest: fractions of the square roots of the first eight primes. -/
def shaStart : List Nat := (primesBelow 20).map (rootFraction 2)

/-- A sum of 32-bit words. -/
def sumWords (l : List Nat) : Nat := l.foldl (· + ·) 0 % 2 ^ 32

/-- The exclusive or of three words made from one: rotations right by `a` and `b`, and by `c` a rotation or a shift. -/
def shaSigma (a b c : Nat) (rotate : Bool) (x : Nat) : Nat :=
  let turn (n : Nat) : Nat := x / 2 ^ n + x % 2 ^ n * 2 ^ (32 - n)
  (turn a).xor ((turn b).xor (if rotate then turn c else x / 2 ^ c))

/-- The next word of a message schedule that is held latest word first. -/
def shaNext (w : List Nat) : Nat :=
  sumWords [shaSigma 17 19 10 false (w.getD 1 0), w.getD 6 0, shaSigma 7 18 3 false (w.getD 14 0), w.getD 15 0]

/-- The working words of a block in two halves: the first four, and the last four. -/
structure ShaHalves where
  head : List Nat
  tail : List Nat
  deriving DecidableEq, Repr

/-- One round with the sum of its constant and its schedule word. -/
def shaRound (v : ShaHalves) (kw : Nat) : ShaHalves :=
  let pick (l : List Nat) (i : Nat) : Nat := l.getD i 0
  let e := pick v.tail 0
  let choice := (pick v.tail 2).xor (e.land ((pick v.tail 1).xor (pick v.tail 2)))
  let a := pick v.head 0
  let both := (pick v.head 1).land (pick v.head 2)
  let most := both.lor (a.land ((pick v.head 1).lor (pick v.head 2)))
  let t := [pick v.tail 3, shaSigma 6 11 25 true e, choice, kw]
  { head := sumWords (t ++ [shaSigma 2 13 22 true a, most]) :: v.head.take 3
    tail := sumWords (pick v.head 3 :: t) :: v.tail.take 3 }

/-- The rounds of a block: each takes the schedule's sixteen latest words, oldest of them first used, and adds the word
that follows them. -/
def shaRounds : List Nat → List Nat → ShaHalves → ShaHalves
  | [], _, v => v
  | k :: r, w, v => shaRounds r ((shaNext w :: w).take 16) (shaRound v (sumWords [k, w.getD 15 0]))

/-- One 64-byte block into the digest words. -/
def shaBlock (h : List Nat) (blk : List Byte) : List Nat :=
  let w := (List.range 16).map fun i => leNat (bytesAt blk (4 * (15 - i)) 4).reverse
  let v := shaRounds shaRoundWords w { head := h.take 4, tail := h.drop 4 }
  (h.zip (v.head ++ v.tail)).map fun q => sumWords [q.1, q.2]

/-- SHA-256 of a byte list, 32 bytes. -/
def sha256 (l : List Byte) : List Byte :=
  let m := l ++ (0x80#8 :: zeros ((119 - l.length % 64) % 64)) ++ (natLe 8 (8 * l.length)).reverse
  let h := (List.range (m.length / 64)).foldl (fun h i => shaBlock h (bytesAt m (64 * i) 64)) shaStart
  h.flatMap fun w => (natLe 4 w).reverse

/-! ### AES-256 (FIPS 197) and GCM (SP 800-38D) -/

/-- Multiplication by x in GF(2^8) of AES. -/
def gfDouble (a : Nat) : Nat := if a < 128 then 2 * a else (2 * a - 256).xor 0x1b

/-- Multiplication in GF(2^8) of AES. -/
def gfMul (a b : Nat) : Nat :=
  ((List.range 8).foldl (fun (acc : Nat × Nat) i =>
    (if bitAt b i then acc.1.xor acc.2 else acc.1, gfDouble acc.2)) (0, a)).1

/-- The inverse in GF(2^8), by the 254th power; 0 for 0. -/
def gfInv (a : Nat) : Nat :=
  let a2 := gfMul a a
  let a4 := gfMul a2 a2
  let a8 := gfMul a4 a4
  let a16 := gfMul a8 a8
  let a32 := gfMul a16 a16
  let a64 := gfMul a32 a32
  let a128 := gfMul a64 a64
  gfMul a128 (gfMul a64 (gfMul a32 (gfMul a16 (gfMul a8 (gfMul a4 a2)))))

/-- The AES substitution of one byte. -/
def aesSub (a : Nat) : Nat :=
  let b := gfInv a
  let r (n : Nat) := ((b <<< n).lor (b >>> (8 - n))) % 256
  ((((b.xor (r 1)).xor (r 2)).xor (r 3)).xor (r 4)).xor 0x63

/-- Bytewise exclusive or of two lists. -/
def xorL (a b : List Nat) : List Nat := (a.zip b).map fun p => p.1.xor p.2

/-- The round keys of AES-256, as 4-byte words latest first, extended by `n` words from word `i`. -/
def aesExpand : Nat → Nat → List (List Nat) → List (List Nat)
  | 0, _, w => w
  | n + 1, i, w =>
    let prev := w.getD 0 []
    let t := if i % 8 = 0 then
        xorL (((prev.drop 1) ++ (prev.take 1)).map aesSub) [2 ^ (i / 8 - 1), 0, 0, 0]
      else if i % 8 = 4 then prev.map aesSub else prev
    aesExpand n (i + 1) (xorL (w.getD 7 []) t :: w)

/-- A list cut into pieces of `k`, `n` of them. -/
def cut {α : Type} (k : Nat) : Nat → List α → List (List α)
  | 0, _ => []
  | n + 1, l => l.take k :: cut k n (l.drop k)

/-- The shift of the rows of an AES state held column by column. -/
def aesShift (st : List Nat) : List Nat :=
  (List.range 16).map fun i => st.getD ((i % 4) + 4 * ((i / 4 + i % 4) % 4)) 0

/-- The mix of the columns of an AES state. -/
def aesMix (st : List Nat) : List Nat :=
  (List.range 16).map fun i =>
    let c := i / 4
    let a (k : Nat) := st.getD (4 * c + (i + k) % 4) 0
    (((gfDouble (a 0)).xor ((gfDouble (a 1)).xor (a 1))).xor (a 2)).xor (a 3)

/-- AES-256 encryption of one 16-byte block under a 32-byte key. -/
def aes256 (key blk : List Nat) : List Nat :=
  let ws := (aesExpand 52 8 (cut 4 8 key).reverse).reverse
  let ks := (cut 4 15 ws).map List.flatten
  let st := xorL blk (ks.getD 0 [])
  let st := (List.range 13).foldl (fun s r => xorL (aesMix (aesShift (s.map aesSub))) (ks.getD (r + 1) [])) st
  xorL (aesShift (st.map aesSub)) (ks.getD 14 [])

/-- The big-endian number of a list of byte values. -/
def beNat (l : List Nat) : Nat := l.foldl (fun a b => 256 * a + b) 0

/-- The `k` big-endian byte values of a number. -/
def natBe (k n : Nat) : List Nat := ((List.range k).map fun i => n / 256 ^ i % 256).reverse

/-- Multiplication in GF(2^128) of GCM. -/
def ghMul (x y : Nat) : Nat :=
  ((List.range 128).foldl (fun (zv : Nat × Nat) i =>
    (if bitAt x (127 - i) then zv.1.xor zv.2 else zv.1,
     if zv.2 % 2 = 1 then (zv.2 / 2).xor (0xe1 * 2 ^ 120) else zv.2 / 2)) (0, y)).1

/-- A list padded with zeros to a whole number of 16-byte blocks. -/
def pad16 (l : List Nat) : List Nat := l ++ List.replicate ((16 - l.length % 16) % 16) 0

/-- GHASH of a list of whole blocks. -/
def ghash (h : Nat) (l : List Nat) : Nat :=
  (cut 16 (l.length / 16) l).foldl (fun y b => ghMul (y.xor (beNat b)) h) 0

/-- The counter-mode stream of GCM over data, from block counter 2. -/
def gcmCrypt (key nonce data : List Nat) : List Nat :=
  ((cut 16 (ceilDiv data.length 16) data).zipIdx.map fun p =>
    xorL p.1 (aes256 key (nonce ++ natBe 4 (p.2 + 2)))).flatten

/-- The 16-byte authentication tag of GCM. -/
def gcmTag (key nonce aad cipher : List Nat) : List Nat :=
  let h := beNat (aes256 key (List.replicate 16 0))
  let s := ghash h (pad16 aad ++ pad16 cipher ++ natBe 8 (8 * aad.length) ++ natBe 8 (8 * cipher.length))
  xorL (natBe 16 s) (aes256 key (nonce ++ natBe 4 1))

/-- The inverse of the AES substitution. -/
def aesUnsub (a : Nat) : Nat :=
  let r (n : Nat) := ((a <<< n).lor (a >>> (8 - n))) % 256
  gfInv ((((r 1).xor (r 3)).xor (r 6)).xor 5)

/-- The inverse of the shift of the rows. -/
def aesUnshift (st : List Nat) : List Nat :=
  (List.range 16).map fun i => st.getD ((i % 4) + 4 * ((i / 4 + 4 - i % 4) % 4)) 0

/-- The inverse of the mix of the columns. -/
def aesUnmix (st : List Nat) : List Nat :=
  (List.range 16).map fun i =>
    let a (k : Nat) := st.getD (4 * (i / 4) + (i + k) % 4) 0
    (((gfMul (a 0) 14).xor (gfMul (a 1) 11)).xor (gfMul (a 2) 13)).xor (gfMul (a 3) 9)

/-- AES-256 decryption of one 16-byte block. -/
def aes256Inv (key blk : List Nat) : List Nat :=
  let ks := (cut 4 15 (aesExpand 52 8 (cut 4 8 key).reverse).reverse).map List.flatten
  let open' (st : List Nat) : List Nat := (aesUnshift st).map aesUnsub
  let st := (List.range 13).foldl (fun s r => aesUnmix (xorL (open' s) (ks.getD (13 - r) []))) (xorL blk (ks.getD 14 []))
  xorL (open' st) (ks.getD 0 [])

/-- XTS (IEEE 1619): the next tweak word, a little-endian number times x. -/
def xtsNext (t : Nat) : Nat := if t < 2 ^ 127 then 2 * t else (2 * t - 2 ^ 128).xor 0x87

/-- XTS over whole blocks from a tweak word, `f` being the block cipher under the first key. -/
def xtsBlocks (f : List Nat → List Nat) : Nat → List (List Nat) → List Nat
  | _, [] => []
  | t, b :: r =>
    let m := (List.range 16).map fun i => t / 256 ^ i % 256
    xorL (f (xorL b m)) m ++ xtsBlocks f (xtsNext t) r

/-- XTS-AES-256 over a data unit of whole blocks, with a 64-byte key pair and a 128-bit tweak. -/
def xtsCrypt (decrypt : Bool) (keys : List Nat) (tweak : Nat) (data : List Nat) : List Nat :=
  let w := aes256 (keys.drop 32) ((List.range 16).map fun i => tweak / 256 ^ i % 256)
  xtsBlocks ((if decrypt then aes256Inv else aes256) (keys.take 32)) (w.foldr (fun b n => b + 256 * n) 0)
    (cut 16 (data.length / 16) data)

/-- A byte list as numbers. -/
def toNats (l : List Byte) : List Nat := l.map BitVec.toNat

/-- Numbers as bytes. -/
def toBytes (l : List Nat) : List Byte := l.map (BitVec.ofNat 8)

end Sys2Proof.Machine
end

