-- ==== Sys2Proof/Machine/LinkOps.lean ====
section
/-! DEFINITION. What the ports carry: the byte layouts of slots, sills and messages (Tables 08-5, 09-2 to 09-4, 09-7,
21-5), sealing (R204, R205), the coordinate table with the fixed paths of R192, and the queues of unscheduled traffic. -/

namespace Sys2Proof.Machine

/-! ### Ports -/

/-- One port. -/
def portOf (s : State) (p : Nat) : Port := tblGet Port.reset s.links.ports p

/-- One port changed. -/
def modPort (s : State) (p : Nat) (f : Port → Port) : State :=
  { s with links := { s.links with ports := tblSet s.links.ports p (f (portOf s p)) } }

/-- The traffic of a port. -/
def trafOf (s : State) (p : Nat) : PortTraffic := tblGet PortTraffic.reset s.links.traffic p

/-- The traffic of a port changed. -/
def modTraf (s : State) (p : Nat) (f : PortTraffic → PortTraffic) : State :=
  { s with links := { s.links with traffic := tblSet s.links.traffic p (f (trafOf s p)) } }

/-- The error counts of a port changed. -/
def modErrs (s : State) (p : Nat) (f : PortErrors → PortErrors) : State :=
  { s with links := { s.links with
      errors := tblSet s.links.errors p (f (tblGet PortErrors.reset s.links.errors p)) } }

/-- A check-value unit: 2p + d (R238). -/
def cvOf (s : State) (u : Nat) : CvUnit := tblGet CvUnit.reset s.links.cv u

/-- A check-value unit changed. -/
def modCv (s : State) (u : Nat) (f : CvUnit → CvUnit) : State :=
  { s with links := { s.links with cv := tblSet s.links.cv u (f (cvOf s u)) } }

/-- `LINK_STATE` codes. -/
def lsDown : BitVec 4 := 0
/-- `DETECT`. -/
def lsDetect : BitVec 4 := 1
/-- `EQUALIZE`. -/
def lsEqualize : BitVec 4 := 2
/-- `ALIGN`. -/
def lsAlign : BitVec 4 := 3
/-- `NEGOTIATE`. -/
def lsNegotiate : BitVec 4 := 4
/-- `ACTIVE`. -/
def lsActive : BitVec 4 := 5
/-- `CABLE_FAULT`. -/
def lsCableFault : BitVec 4 := 6
/-- `FAILED`. -/
def lsFailed : BitVec 4 := 7

/-- A port is `ACTIVE`. -/
def portActive (s : State) (p : Nat) : Bool := (portOf s p).state == lsActive

/-- Scheduled slots of a split (Table 09-5): slots below this number. -/
def schedSlots (split : Nat) : Nat := if split = 1 then 192 else if split = 2 then 240 else 224

/-- U of a split. -/
def unschedSlots (split : Nat) : Nat := 256 - schedSlots split

/-- U in the present beat: one less where slot 255 carries `RECAL` (R242). -/
def slotsNow (s : State) : Nat := unschedSlots s.power.slotSplit.toNat - b2n (s.time.beat % 64 == 0)

/-- The first slot of a port that is unscheduled at both ends (R230): the larger scheduled range when the splits
differ, which the peer's code gives. -/
def firstUnsched (s : State) (p : Nat) : Nat :=
  let own := schedSlots s.power.slotSplit.toNat
  if (portOf s p).splitMismatch then max own (schedSlots (portOf s p).split.toNat) else own

/-! ### Slots and sills as bytes -/

/-- Slot kinds of Table 09-3. -/
def kIdle : Nat := 0
/-- `PLAN`. -/
def kPlan : Nat := 1
/-- `REQUEST`. -/
def kRequest : Nat := 2
/-- `RESPONSE`. -/
def kResponse : Nat := 3
/-- `MGMT`. -/
def kMgmt : Nat := 4
/-- `BULK`. -/
def kBulk : Nat := 5
/-- `REPLAY`. -/
def kReplay : Nat := 6
/-- `RECAL`. -/
def kRecal : Nat := 7

/-- The class of Table 09-6 that a kind carries. -/
def kindClass (k : Nat) : Option Nat :=
  if k = kRequest then some 0 else if k = kResponse then some 1 else if k = kMgmt then some 2
  else if k = kBulk then some 3 else none

/-- The kind of a class. -/
def classKind (c : Nat) : Nat := [kRequest, kResponse, kMgmt, kBulk].getD c kRequest

/-- Receive buffer of a class (Table 09-6). -/
def classBuffer (c : Nat) : Nat := if c = 2 then 32 else 128

/-- A header with nothing set. -/
def hdrZero : SlotHdr :=
  { slotNo := 0, kind := 0, hold := false, abort := false, isSealed := false, cvPresent := false, beat := 0
    srcDevice := 0, jobTag := 0, planBeat := 0, origBeat := 0, origSlot := 0, origKind := 0, holdJob := 0
    abortJob := 0, abortColl := 0, abortOrigin := 0, abortHops := 0 }

/-- A header as its 64 bytes (Table 09-3). -/
def hdrBytes (h : SlotHdr) : List Byte :=
  [h.slotNo, h.kind,
    BitVec.ofNat 8 (b2n h.hold + 2 * b2n h.abort + 4 * b2n h.isSealed + 8 * b2n h.cvPresent), 0]
  ++ natLe 6 h.beat.toNat ++ natLe 2 h.srcDevice.toNat ++ natLe 4 h.jobTag.toNat ++ natLe 4 h.planBeat.toNat
  ++ natLe 4 h.origBeat.toNat ++ [h.origSlot, h.origKind] ++ zeros 2 ++ natLe 4 h.holdJob.toNat
  ++ natLe 4 h.abortJob.toNat ++ natLe 2 h.abortColl.toNat ++ natLe 2 h.abortOrigin.toNat ++ [h.abortHops] ++ zeros 23

/-- R236: the authenticated image of a header. -/
def hdrImage (h : SlotHdr) : List Byte :=
  let kind := if h.kind.toNat = kReplay then h.origKind else h.kind
  [0, kind, BitVec.ofNat 8 (4 * b2n h.isSealed), 0] ++ zeros 8 ++ natLe 4 h.jobTag.toNat ++ zeros 48

/-- R238: the check value of a slot between a sender's header and the receiving port, with `CV_PRESENT` set. -/
def slotCheck (poly : Nat) (rxDevice rxPort : Nat) (beat : Nat) (h : SlotHdr) (payload : List Byte) : Nat :=
  checkValue poly (natLe 2 rxDevice ++ natLe 1 rxPort ++ natLe 6 beat ++ natLe 1 h.slotNo.toNat
    ++ hdrBytes h ++ payload)

/-- A sill as its first 3,196 bytes (Table 09-2). -/
def sillBytes (x : Sill) : List Byte :=
  (List.replicate 8 [0xA5, 0x5A]).flatten ++ natLe 6 x.beat.toNat ++ natLe 2 x.srcDevice.toNat
  ++ [x.srcPort, x.timeState, x.laneMap, x.laneSwitch, x.llMajor, x.llMinor, x.split, x.cv]
  ++ bytesAt (x.creditRet.flatMap fun c => natLe 2 c.toNat) 0 8
  ++ bytesAt (x.replayReq.flatMap fun r => natLe 4 r.toNat) 0 64 ++ zeros 3092

/-- The `CRC` a sill carries. -/
def sillCrc (x : Sill) : Nat := crc32c (sillBytes x)

/-! ### Sealing (R204, R205) -/

/-- Payload bytes of a stream slot (R204). -/
def slotData (isSealed : Bool) : Nat := if isSealed then 3008 else 3072

/-- Data bytes a remote message carries at most (R197, R204). -/
def fragMax (isSealed : Bool) : Nat := if isSealed then 2976 else 3040

/-- The nonce of R205. -/
def sealNonce (counter device pane slot : Nat) : List Nat :=
  toNats (natLe 8 counter ++ natLe 2 device ++ natLe 1 pane ++ natLe 1 slot)

/-- The first 48 bytes of the seal trailer (Table 08-8). -/
def sealTrailer (counter tag device pane slot : Nat) : List Byte :=
  natLe 8 counter ++ natLe 4 tag ++ natLe 2 device ++ natLe 1 pane ++ natLe 1 slot ++ zeros 32

/-- A key as bytes. -/
def keyBytes (k : BitVec 256) : List Nat := toNats (natLe 32 k.toNat)

/-- A payload of at most 3,008 bytes sealed into 3,072. -/
def sealPayload (k : BitVec 256) (counter tag device pane slot : Nat) (h : SlotHdr) (d : List Byte) : List Byte :=
  let t := sealTrailer counter tag device pane slot
  let n := sealNonce counter device pane slot
  let c := gcmCrypt (keyBytes k) n (toNats (bytesAt d 0 3008))
  toBytes c ++ t ++ toBytes (gcmTag (keyBytes k) n (toNats (hdrImage h ++ t)) c)

/-- A sealed payload opened under a key: its 3,008 bytes, or none when it fails authentication (R206). -/
def openPayload (k : BitVec 256) (h : SlotHdr) (p : List Byte) : Option (List Byte) :=
  let t := bytesAt p 3008 48
  let n := sealNonce (leAt p 3008 8) (leAt p 3020 2) (leAt p 3022 1) (leAt p 3023 1)
  let c := toNats (bytesAt p 0 3008)
  if gcmTag (keyBytes k) n (toNats (hdrImage h ++ t)) c = toNats (bytesAt p 3056 16) then
    some (toBytes (gcmCrypt (keyBytes k) n c))
  else none

/-- The key a pane's context holds in a slot. -/
def sealKeyOf (s : State) (p slot : Nat) : Option (BitVec 256) :=
  (tblGet { key := none, counter := 0 } (pane s p).rmo.keys slot).key

/-- R205: a pane's context seals one frame: the payload and the state with its counter advanced; none without a
key. -/
def sealFrame (s : State) (p : Nat) (h : SlotHdr) (d : List Byte) : Option (State × List Byte) :=
  let r := (pane s p).rmo
  let e := tblGet { key := none, counter := 0 } r.keys r.keySel
  e.key.map fun k =>
    (modPane s p fun x => { x with rmo := { x.rmo with
        keys := tblSet x.rmo.keys r.keySel { e with counter := e.counter + 1 } } },
      sealPayload k e.counter.toNat (pane s p).jobTag.toNat (moduleId s).toNat p r.keySel h d)

/-! ### Messages (R197, Table 08-5) -/

/-- `DATA_BYTES` of a message. -/
def msgDataBytes (isSealed : Bool) (op : Nat) (resp : Bool) (len ofs : Nat) : Nat :=
  if op = 0 then (if resp then 0 else min (fragMax isSealed) (len - ofs))
  else if op = 1 then (if resp then min (fragMax isSealed) (len - ofs) else 0)
  else if resp then (if op ≤ 4 then 8 else 0)
  else if op ≤ 8 then 16 else 0

/-- A message as bytes, padded to 8. -/
def msgBytes (m : Msg) : List Byte :=
  let n := m.data.length
  [BitVec.ofNat 8 (64 + 128 * b2n m.isResponse + m.op.toNat), m.code]
  ++ natLe 2 m.srcDevice.toNat ++ [BitVec.ofNat 8 (m.srcPane.toNat + 16 * b2n m.torusRel), 0]
  ++ natLe 2 m.srcEpoch.toNat ++ natLe 4 m.jobTag.toNat ++ natLe 4 m.tag.toNat ++ natLe 8 m.target.toNat
  ++ natLe 4 m.fragOfs.toNat ++ natLe 4 m.length.toNat ++ m.data ++ zeros ((8 - n % 8) % 8)

/-- One message at the head of a payload, and how many bytes it takes. -/
def parseMsg (isSealed : Bool) (d : List Byte) : Msg × Nat :=
  let b0 := leAt d 0 1
  let op := fld b0 3 0
  let resp := bitAt b0 7
  let len := leAt d 28 4
  let ofs := leAt d 24 4
  let n := msgDataBytes isSealed op resp len ofs
  ({ op := BitVec.ofNat 4 op, isResponse := resp, code := BitVec.ofNat 8 (leAt d 1 1)
     srcDevice := BitVec.ofNat 16 (leAt d 2 2), srcPane := BitVec.ofNat 4 (leAt d 4 1)
     torusRel := bitAt (leAt d 4 1) 4, srcEpoch := BitVec.ofNat 16 (leAt d 6 2)
     jobTag := BitVec.ofNat 32 (leAt d 8 4), tag := BitVec.ofNat 32 (leAt d 12 4)
     target := BitVec.ofNat 64 (leAt d 16 8), fragOfs := BitVec.ofNat 32 ofs, length := BitVec.ofNat 32 len
     data := bytesAt d 32 n, isSealed := isSealed, srcPlan := none, srcCell := 0, result := none },
    32 + ceilDiv n 8 * 8)

/-- The messages of a payload, up to the zero byte that ends the slot; `fuel` bounds their number. -/
def parseMsgs (isSealed : Bool) : Nat → List Byte → List Msg
  | 0, _ => []
  | fuel + 1, d =>
    if d.length < 32 || leAt d 0 1 = 0 then []
    else
      let r := parseMsg isSealed d
      r.1 :: parseMsgs isSealed fuel (d.drop r.2)

/-! ### Global addresses (Table 06-1) -/

/-- `DEVICE`, bits [63:48]. -/
def gaDevice (a : BitVec 64) : Nat := fld a.toNat 63 48
/-- `PANE`, bits [47:44]. -/
def gaPane (a : BitVec 64) : Nat := fld a.toNat 47 44
/-- `TIER`, bit [43]. -/
def gaTier (a : BitVec 64) : Nat := fld a.toNat 43 43
/-- `OFFSET`, bits [42:0]. -/
def gaOfs (a : BitVec 64) : Nat := fld a.toNat 42 0

/-- A global address. -/
def mkGa (device pane tier ofs : Nat) : BitVec 64 :=
  BitVec.ofNat 64 (device * 2 ^ 48 + pane * 2 ^ 44 + tier * 2 ^ 43 + ofs)

/-! ### Coordinates and paths (R192, R253) -/

/-- The coordinates of a module in the table. -/
def coordOf (s : State) (d : BitVec 16) : Option CoordEntry := s.links.coord.find? (·.device == d)

/-- Length of an axis: one more than the largest coordinate in the table. -/
def axisLen (s : State) (axis : Nat) : Nat :=
  s.links.coord.foldl (fun m e => max m ([e.x, e.y, e.z].getD axis 0 + 1)) 1

/-- A coordinate of an entry. -/
def coordAxis (e : CoordEntry) (axis : Nat) : Nat := [e.x, e.y, e.z].getD axis 0

/-- The way round a ring of n from a to b: hops, and whether it goes the negative way. -/
def ringWay (n a b : Nat) : Nat × Bool :=
  let d := (b + n - a) % n
  if 2 * d ≤ n then (d, false) else (n - d, true)

/-- R192: the port through which traffic for a module leaves: X first, then Y, then Z. -/
def routePort (s : State) (dst : BitVec 16) : Option Nat :=
  match coordOf s (moduleId s), coordOf s dst with
  | some a, some b =>
    (List.range 3).findSome? fun axis =>
      let w := ringWay (axisLen s axis) (coordAxis a axis) (coordAxis b axis)
      if w.1 = 0 then none else some (2 * axis + b2n w.2)
  | _, _ => none

/-- Hops of the path of R192. -/
def hopsTo (s : State) (dst : BitVec 16) : Nat :=
  match coordOf s (moduleId s), coordOf s dst with
  | some a, some b =>
    ((List.range 3).map fun axis =>
      (ringWay (axisLen s axis) (coordAxis a axis) (coordAxis b axis)).1).foldl (· + ·) 0
  | _, _ => 0

/-! ### Unscheduled traffic -/

/-- Contributor number of the hub's own traffic. -/
def viaHub : Nat := 22

/-- Parcels of a pane and a class that wait on the ports: its injection queue of that class (R249). -/
def parcelsOf (s : State) (via c : Nat) : Nat :=
  ((List.range 6).map fun p => ((trafOf s p).out.filter fun x => x.via == via && x.klass == c).length).foldl (· + ·) 0

/-- A parcel joins the queue of the port towards its module; one for a module out of reach is dropped. -/
def queueParcel (s : State) (p : Parcel) : State :=
  match routePort s p.device with
  | some port => modTraf s port fun t => { t with out := t.out ++ [p] }
  | none => s

/-- A parcel is sent: one of a pane whose injection queue holds 64 waits for room in it (R249). -/
def sendParcel (s : State) (p : Parcel) : State :=
  if p.via < 16 && 64 ≤ parcelsOf s p.via p.klass then
    modPane s p.via fun x => { x with rmo := { x.rmo with late := x.rmo.late ++ [p] } }
  else queueParcel s p

/-- A management message of this module for another (Table 09-6 class 2). -/
def sendMgmt (s : State) (device : BitVec 16) (bytes : List Byte) : State :=
  sendParcel s { klass := 2, device := device, bytes := bytes, pane := none, via := viaHub, sealedHdr := none
                 slot := none }

/-- A refusal message (Table 09-7). -/
def refusalBytes (s : State) (r : RefusalMsg) : List Byte :=
  [0x01, BitVec.ofNat 8 r.srcPane.toNat] ++ natLe 2 r.srcDevice.toNat ++ natLe 4 r.tag.toNat
  ++ natLe 6 r.retryAt ++ natLe 2 (moduleId s).toNat ++ zeros 16

/-- A fabric-manager fragment in a `MGMT` slot (Table 21-5). -/
def fragBytes (f : FmFragment) : List Byte :=
  [f.mtype, 0] ++ natLe 2 f.device.toNat ++ natLe 2 f.entry.toNat ++ natLe 2 f.bytes.length
  ++ natLe 4 f.xid.toNat ++ natLe 4 f.ofs.toNat ++ natLe 4 f.total.toNat ++ zeros 12 ++ f.bytes

/-- The fragments of a packet of at most `n` bytes each. -/
def cutFrags (n : Nat) (mk : Nat → List Byte → FmFragment) (d : List Byte) : List FmFragment :=
  if d.isEmpty then [mk 0 []]
  else (List.range (ceilDiv d.length n)).map fun i => mk (i * n) ((d.drop (i * n)).take n)

/-- A reply on the sideband. -/
def pushSb (s : State) (r : SbReply) : State := { s with fm := { s.fm with replies := (r :: s.fm.replies).take 16 } }

/-- A reply fragment on the sideband (kind 0x04). -/
def sbReply (s : State) (device : BitVec 16) (f : FmFragment) : State :=
  pushSb s { kind := 0x04, sstatus := 0, device := device, xid := f.xid, ofs := f.ofs, total := f.total, data := f.bytes }

/-- R514: reply bytes of requester 17's command go to its entry module, or onto this module's sideband. -/
def fmReplyTo (s : State) (entry : Option (BitVec 16)) (xid : BitVec 32) (d : List Byte) : State :=
  match entry with
  | none =>
    (cutFrags 4096 (fun o b =>
        { mtype := 0x03, device := moduleId s, entry := moduleId s, xid := xid, ofs := BitVec.ofNat 32 o
          total := BitVec.ofNat 32 d.length, bytes := b }) d).foldl (fun s f => sbReply s f.device f) s
  | some e =>
    (cutFrags 3040 (fun o b =>
        { mtype := 0x03, device := e, entry := e, xid := xid, ofs := BitVec.ofNat 32 o
          total := BitVec.ofNat 32 d.length, bytes := b }) d).foldl
      (fun s f => sendMgmt s e (fragBytes f)) s

end Sys2Proof.Machine
end

