-- ==== Sys2Proof/Machine/DkOps.lean ====
section
/-! DEFINITION. The Doorkeeper's shared operations (14_command_interface.md): the table of opcodes as lengths, rights,
locks and bounds, the mailboxes, replies, refusals, and the ending of commands by an escape or a module event. -/

namespace Sys2Proof.Machine

/-! ### Opcodes (Table 14-11) -/

/-- Opcode numbers. -/
def opHello : Nat := 0x0001
/-- `CTX_TEARDOWN`. -/
def opTeardown : Nat := 0x0011
/-- `CTX_RESET`. -/
def opCtxReset : Nat := 0x0013
/-- `ENGINE_RESET`. -/
def opEngineReset : Nat := 0x0014
/-- `PANE_RESET`. -/
def opPaneReset : Nat := 0x0015
/-- `MODULE_RESET`. -/
def opModuleReset : Nat := 0x0016
/-- `JOB_MAP_LOAD`. -/
def opMapLoad : Nat := 0x0024
/-- `PLAN_LOAD`. -/
def opPlanLoad : Nat := 0x0030
/-- `WINDOW_GRANT`. -/
def opGrant : Nat := 0x0040
/-- `CTX_CREATE`. -/
def opCreate : Nat := 0x0010
/-- `SWAP_OUT`. -/
def opSwapOut : Nat := 0x0051
/-- `SHARD_FETCH`. -/
def opShardFetch : Nat := 0x0052
/-- `RESTORE`. -/
def opRestore : Nat := 0x0063
/-- `MODE_SET`. -/
def opModeSet : Nat := 0x0070
/-- `SELF_TEST`. -/
def opSelfTest : Nat := 0x0080
/-- `SHUTDOWN`. -/
def opShutdown : Nat := 0x0081
/-- `WINDOW_REVOKE`. -/
def opRevoke : Nat := 0x0041
/-- `EVENT_FREEZE`. -/
def opFreeze : Nat := 0x00A0

/-- Parameter bytes of each opcode; none for a code that Table 14-11 does not list. -/
def paramLen (op : Nat) : Option Nat :=
  match op with
  | 0x0001 => some 8
  | 0x0010 => some 8
  | 0x0011 => some 2
  | 0x0012 => some 2
  | 0x0013 => some 1
  | 0x0014 => some 1
  | 0x0015 => some 1
  | 0x0016 => some 0
  | 0x0020 => some 388
  | 0x0021 => some 8
  | 0x0022 => some 4
  | 0x0023 => some 4
  | 0x0024 => some 1
  | 0x0025 => some 0
  | 0x0026 => some 3
  | 0x0030 => some 1
  | 0x0031 => some 34
  | 0x0032 => some 2
  | 0x0040 => some 36
  | 0x0041 => some 2
  | 0x0042 => some 40
  | 0x0043 => some 6
  | 0x0050 => some 32
  | 0x0051 => some 32
  | 0x0052 => some 88
  | 0x0060 => some 24
  | 0x0061 => some 1
  | 0x0062 => some 72
  | 0x0063 => some 80
  | 0x0070 => some 8
  | 0x0071 => some 4
  | 0x0080 => some 2
  | 0x0081 => some 1
  | 0x0090 => some 12
  | 0x0091 => some 0
  | 0x00A0 => some 0
  | 0x00A1 => some 12
  | 0x00A2 => some 0
  | _ => none

/-- The opcode moves bulk data (R362). -/
def hasBulk (op : Nat) : Bool := [0x0024, 0x0025, 0x0030, 0x0090, 0x00A1].contains op

/-- The opcode takes bulk data in. -/
def bulkIn (op : Nat) : Bool := [0x0024, 0x0025, 0x0030].contains op

/-- Reserved bits of the parameters, as byte offset and mask (R361). -/
def reservedBits (op : Nat) : List (Nat × Nat) :=
  let span (o n : Nat) : List (Nat × Nat) := (List.range n).map fun i => (o + i, 0xFF)
  match op with
  | 0x0001 => span 3 5
  | 0x0010 => (1, 0xFE) :: span 2 2
  | 0x0011 => [(1, 0xFE)]
  | 0x0020 => span 1 3
  | 0x0021 => span 1 3
  | 0x0022 => span 1 1
  | 0x0023 => span 1 1
  | 0x0026 => [(2, 0xFE)]
  | 0x0031 => span 1 1
  | 0x0032 => [(1, 0xFE)]
  | 0x0040 => span 1 3 ++ [(32, 0xFE)] ++ span 33 3
  | 0x0042 => span 1 7
  | 0x0043 => span 3 1
  | 0x0050 => span 1 5
  | 0x0051 => span 1 7
  | 0x0052 => span 1 5
  | 0x0060 => span 1 1 ++ span 5 3
  | 0x0062 => span 1 1 ++ span 4 4
  | 0x0063 => span 2 2 ++ span 10 6
  | 0x0070 => span 3 1
  | 0x0071 => span 3 1
  | 0x0081 => [(0, 0xFE)]
  | _ => []

/-- Parameter fields of a packet: `n` bytes at offset `o`. -/
def prm (k : Packet) (o n : Nat) : Nat := leAt k.params o n

/-- Reserved bytes of the store object descriptor among the parameters (Table 21-6); `RESTORE` has one with source 1
(log entry 74). -/
def descReserved (op : Nat) (k : Packet) : List (Nat × Nat) :=
  let at' (o : Nat) : List (Nat × Nat) := ((List.range 7).map fun i => (o + 41 + i, 0xFF)) ++
    (List.range 8).map fun i => (o + 56 + i, 0xFF)
  if op = opShardFetch then at' 24 else if op = 0x0062 then at' 8
  else if op = opRestore && prm k 1 1 == 1 then at' 16 else []

/-- Check 4 of Table 14-8: the byte offset of the first bad field within the packet, if there is one. -/
def badField (op : Nat) (k : Packet) : Option Nat :=
  let len := (paramLen op).getD 0
  if k.rsvd3 ≠ 0 then some 3
  else if k.paramBytes.toNat ≠ len then some 8
  else if k.rsvd10 ≠ 0 then some 10
  else if !hasBulk op && k.bulkAddr ≠ 0 then some 16
  else if (!hasBulk op && k.bulkLen ≠ 0) || 2 ^ 40 < k.bulkLen.toNat then some 24
  else ((reservedBits op ++ descReserved op k).find? fun r => (prm k r.1 1).land r.2 ≠ 0).map fun r => 32 + r.1

/-! ### What a command names, locks and may do -/

/-- The panes of the group a pane leads, or the pane alone. -/
def groupMask (s : State) (lead : Nat) : BitVec 16 :=
  match groupLed s lead with
  | some g => g.members
  | none => paneBit lead

/-- The pane of a global address among the parameters. -/
def adrPane (k : Packet) (o : Nat) : Nat := fld (prm k o 8) 47 44

/-- The panes a command names (a group by its lead pane: every pane of the group). -/
def namedPanes (s : State) (r op : Nat) (k : Packet) : BitVec 16 :=
  let p := prm k 0 1
  match op with
  | 0x0010 => paneBit p
  | 0x0011 => paneBit p
  | 0x0012 => BitVec.ofNat 16 (prm k 0 2)
  | 0x0013 => paneBit p
  | 0x0015 => paneBit p
  | 0x0020 => groupMask s p
  | 0x0021 => groupMask s p
  | 0x0022 => paneBit p
  | 0x0023 => paneBit p
  | 0x0024 => groupMask s p
  | 0x0030 => groupMask s p
  | 0x0031 => groupMask s p
  | 0x0032 => groupMask s p
  | 0x0040 => paneBit p
  | 0x0041 => paneBit p
  | 0x0042 => if 1 ≤ r && r ≤ 16 then paneBit (r - 1) else 0
  | 0x0050 => paneBit p ||| BitVec.ofNat 16 (prm k 6 2) ||| paneBit (adrPane k 8)
  | 0x0051 => paneBit p ||| paneBit (adrPane k 8) ||| paneBit (adrPane k 16)
  | 0x0052 => paneBit p ||| BitVec.ofNat 16 (prm k 6 2) ||| paneBit (adrPane k 8)
  | 0x0060 => groupMask s p
  | 0x0061 => groupMask s p
  | 0x0062 => groupMask s p
  | 0x0063 => groupMask s p
  | 0x0070 => if prm k 2 1 = 0xFF then 0 else groupMask s (prm k 2 1)
  | 0x0071 => if prm k 2 1 = 0xFF then 0 else groupMask s (prm k 2 1)
  | 0x0080 => BitVec.ofNat 16 (prm k 0 2)
  | _ => 0

/-- R366: the opcode locks the whole module. -/
def locksAll (op : Nat) (k : Packet) : Bool :=
  op == 0x0026 || op == 0x0025 || op == opShutdown || (op == opModeSet && prm k 2 1 == 0xFF)

/-- The rights of Table 14-10. -/
inductive Right where
  /-- Mailbox 0. -/
  | pf
  /-- The fabric-manager channel. -/
  | fm
  /-- A virtual function, for its own pane or group. -/
  | vf
  /-- A virtual function, for the group its pane leads. -/
  | vl
  /-- Every requester. -/
  | any
  deriving DecidableEq, Repr

/-- Table 14-11 Rights; `MODE_SET` as Table 20-5 gives. -/
def rightsOf (op : Nat) (k : Packet) : List Right :=
  match op with
  | 0x0001 => [.any]
  | 0x0010 => [.pf]
  | 0x0011 => [.pf, .vf]
  | 0x0012 => [.pf]
  | 0x0013 => [.pf]
  | 0x0014 => [.pf, .fm]
  | 0x0015 => [.pf]
  | 0x0016 => [.pf, .fm]
  | 0x0020 => [.pf]
  | 0x0021 => [.pf]
  | 0x0022 => [.pf]
  | 0x0023 => [.pf]
  | 0x0024 => [.pf, .fm]
  | 0x0025 => [.pf, .fm]
  | 0x0026 => [.fm]
  | 0x0030 => [.pf, .vl]
  | 0x0031 => [.pf, .vl]
  | 0x0032 => [.pf, .vl, .fm]
  | 0x0040 => [.pf, .vf]
  | 0x0041 => [.pf, .vf]
  | 0x0042 => [.vf]
  | 0x0043 => [.pf, .fm]
  | 0x0050 => [.pf, .vf]
  | 0x0051 => [.pf, .vf]
  | 0x0052 => [.pf, .vf]
  | 0x0060 => [.pf, .fm]
  | 0x0061 => [.pf, .vl, .fm]
  | 0x0062 => [.pf, .fm]
  | 0x0063 => [.pf, .fm]
  | 0x0070 =>
    let m := prm k 0 2
    if m = 2 || m = 4 || m = 5 || m = 9 then [.pf, .fm]
    else if m = 7 then [.pf, .vl]
    else if m = 0 || m > 10 || m = 10 then [.any]
    else [.pf]
  | 0x0071 => [.any]
  | 0x0080 => [.pf]
  | 0x0081 => [.pf, .fm]
  | 0x0090 => [.pf, .vf]
  | 0x0091 => [.any]
  | _ => [.pf]

/-- The pane holds a context: from its creation to the end of its teardown (Table 13-2). -/
def holdsContext (s : State) (p : Nat) : Bool := (pane s p).state == .opened || (pane s p).state == .teardown

/-- R199, R372: what a virtual function's command names beside the panes of its group: a pane number that no pane has,
or, for a window command, another pane's context. -/
def namesBeyond (own op : Nat) (k : Packet) : Bool :=
  if op = opGrant || op = 0x0041 then prm k 0 1 != own
  else [0x0011, 0x0050, 0x0051, 0x0052].contains op && decide (16 ≤ prm k 0 1)

/-- Check 5: a requester holds a right for a command (Table 14-10, R199, R335, R372). -/
def holdsRight (s : State) (r op : Nat) (k : Packet) : Right → Bool
  | .any => true
  | .pf => r == 0
  | .fm => r == 17
  | .vf =>
    let own := r - 1
    let g := match groupOf s own with
      | some g => g.members
      | none => paneBit own
    1 ≤ r && r ≤ 16 && holdsContext s own && !namesBeyond own op k
      && (namedPanes s r op k &&& ~~~(g ||| paneBit own)) == 0
  | .vl =>
    let own := r - 1
    let lead := if op = opModeSet then prm k 2 1 else prm k 0 1
    1 ≤ r && r ≤ 16 && holdsContext s own && lead == own && (groupLed s own).isSome

/-- Check 5 of Table 14-8. -/
def mayRun (s : State) (r op : Nat) (k : Packet) : Bool := (rightsOf op k).any (holdsRight s r op k)

/-! ### Replies -/

/-- What a command answers. -/
structure Ans where
  status : Nat
  atBeat : Nat := 0
  detail : Nat := 0
  result : List Byte := []
  bulk : List Byte := []
  deriving DecidableEq, Repr

/-- Status codes of Table 14-13. -/
def stOk : Nat := 0x0000
/-- `ST_BUSY`. -/
def stBusy : Nat := 0x0101
/-- `ST_NOT_READY`. -/
def stNotReady : Nat := 0x0102
/-- `ST_TESTING`. -/
def stTesting : Nat := 0x0103
/-- `ST_FAR_FULL`. -/
def stFarFull : Nat := 0x0104
/-- `ST_BAD_VERSION`. -/
def stBadVersion : Nat := 0x0201
/-- `ST_BAD_OPCODE`. -/
def stBadOpcode : Nat := 0x0202
/-- `ST_BAD_PARAM`. -/
def stBadParam : Nat := 0x0203
/-- `ST_NO_RIGHTS`. -/
def stNoRights : Nat := 0x0204
/-- `ST_BAD_STATE`. -/
def stBadState : Nat := 0x0205
/-- `ST_PLAN_ACTIVE`. -/
def stPlanActive : Nat := 0x0206
/-- `ST_CONFLICT`. -/
def stConflict : Nat := 0x0207
/-- `ST_NO_RESOURCE`. -/
def stNoResource : Nat := 0x0208
/-- `ST_READ_ONLY`. -/
def stReadOnly : Nat := 0x0209
/-- `ST_PLAN_REJECTED`. -/
def stPlanRejected : Nat := 0x0301
/-- `ST_START_REFUSED`. -/
def stStartRefused : Nat := 0x0302
/-- `ST_MAP_REJECTED`. -/
def stMapRejected : Nat := 0x0303
/-- `ST_ABORTED`. -/
def stAborted : Nat := 0x0401
/-- `ST_IO_ERROR`. -/
def stIoError : Nat := 0x0402
/-- `ST_MEDIA_ERROR`. -/
def stMediaError : Nat := 0x0403
/-- `ST_INTERNAL`. -/
def stInternal : Nat := 0x0404

/-- `PANE_STATE` codes. -/
def paneStateCode : PaneState → Nat
  | .free => 0 | .opened => 1 | .teardown => 2 | .shuttering => 3 | .testing => 4 | .outOfService => 5

/-- `ST_BAD_STATE` naming a pane. -/
def badState (s : State) (p : Nat) : Ans :=
  { status := stBadState, detail := (p % 16) * 256 + paneStateCode (pane s p).state }

/-- `ST_OK`. -/
def ansOk : Ans := { status := stOk }

/-- `ST_BAD_PARAM` for the parameter at offset `o`. -/
def badParam (o : Nat) : Ans := { status := stBadParam, detail := 32 + o }

/-- The reply of a command, stamped now (Table 14-7). -/
def mkReply (s : State) (op seq : Nat) (a : Ans) : Reply :=
  { status := BitVec.ofNat 16 a.status, opcode := BitVec.ofNat 16 op, seq := BitVec.ofNat 32 seq, atBeat := a.atBeat
    detail := BitVec.ofNat 16 a.detail, stampBeat := s.time.beat, stampTick := s.time.tick, result := a.result
    bulk := a.bulk }

/-- A reply as its bytes: header and result (Table 14-7). -/
def replyBytes (r : Reply) : List Byte :=
  natLe 2 r.status.toNat ++ natLe 2 r.opcode.toNat ++ natLe 4 r.seq.toNat ++ natLe 6 r.atBeat ++ natLe 2 r.detail.toNat
  ++ stampBytes r.stampBeat r.stampTick srcDoorkeeper ++ natLe 2 r.result.length ++ zeros 4 ++ r.result

/-! ### Mailboxes -/

/-- A requester's mailbox. -/
def mbx (s : State) (r : Nat) : Mailbox := tblGet Mailbox.reset s.dk.mbx r

/-- A mailbox changed. -/
def modMbx (s : State) (r : Nat) (f : Mailbox → Mailbox) : State :=
  { s with dk := { s.dk with mbx := tblSet s.dk.mbx r (f (mbx s r)) } }

/-- `MSTATE` of a mailbox; `STATE_BEAT` is the beat of its last change (Table 14-3). -/
def setMState (s : State) (st : MState) (m : Mailbox) : Mailbox :=
  { m with mstate := st, stateBeat := if m.mstate = st then m.stateBeat else s.time.beat }

/-- Virtual function n exists (R503). -/
def vfExists (s : State) (n : Nat) : Bool := s.host.vfEnable && n ≤ s.host.numVfs

/-- R511: replies of a mailbox whose virtual function is disabled are discarded, also when it has been enabled again
since, which leaves the mailbox `IDLE` with the command still in hand. -/
def replyLost (s : State) (r : Nat) : Bool :=
  1 ≤ r && r ≤ 16 && (!s.host.vfEnable || ((mbx s r).job.isSome && (mbx s r).mstate == .idle))

/-- R358: a reply is written, the mailbox goes `DONE`, and the interrupt is raised. On the fabric-manager channel the
reply is sent (R514). -/
def finish (s : State) (r : Nat) (rep : Reply) : State :=
  if replyLost s r then
    modMbx s r fun m => { setMState s .idle m with job := none, reply := none, hello := false }
  else
    let s1 := modMbx s r fun m => { setMState s .done m with job := none, reply := some rep }
    if r = 17 then
      match s.fm.current with
      | some (entry, xid, _) =>
        fmReplyTo { s1 with fm := { s1.fm with current := none } } entry xid (replyBytes rep ++ rep.bulk)
      | none => s1
    else if (mbx s r).doneIe then msix s1 r 0
    else s1

/-- The number of the mailbox that belongs to nobody. -/
def noRequester : Nat := 18

/-- Far-tier writes and store transactions of a command that has ended go on without it: nothing is told (R378). -/
def orphanWork (s : State) (r : Nat) : State :=
  { s with
    far := { s.far with writes := s.far.writes.map fun w =>
      if w.sink = .command r then { w with sink := .command noRequester } else w }
    store := { s.store with txns := s.store.txns.filter fun x => x.owner != .fetch r && x.owner != .restore r } }

/-- A window entry of free content (R378). -/
def freeWindow (n : Nat) : Window :=
  { base := Config.freeWord n, length := Config.freeWord (n + 1), peerJob := (Config.freeWord (n + 2)).truncate 32
    peerDevice := (Config.freeWord (n + 3)).truncate 16, scope := (Config.freeWord (n + 4)).truncate 8
    wstate := (Config.freeWord (n + 5)).truncate 8, ops := (Config.freeWord (n + 6)).truncate 16
    peerPanes := (Config.freeWord (n + 7)).truncate 16, isSealed := Config.freeBit n }

/-- A job map of free content, of the length delivered (R378). -/
def freeMap (n len : Nat) : JobMap :=
  { family := Config.freeWord n, variant := (Config.freeWord (n + 1)).truncate 32
    jobTag := (Config.freeWord (n + 2)).truncate 32
    shape := ((Config.freeWord (n + 3)).toNat % 65536, (Config.freeWord (n + 4)).toNat % 65536,
      (Config.freeWord (n + 5)).toNat % 65536)
    fold := (Config.freeWord (n + 6)).truncate 3
    entries := (List.range len).map fun i => (Config.freeWord (n + 7 + i)).truncate 16 }

/-- The lowest window entry of a pane that is not in use. -/
def unusedWindow (s : State) (p : Nat) : Option Nat :=
  (List.range 256).find? fun i => !((pane s p).rmo.windows.any fun e => e.1 == i && e.2.wstate != 0)

/-- The contents of map unit `lun` with free bytes where it lies in a range of its owner's space. -/
def spoilUnit (seed ofs n lun : Nat) (d : Mem) : Mem :=
  let lo := max ofs (lun * 16384)
  let hi := min (ofs + n) ((lun + 1) * 16384)
  if lo < hi then memWrite d (lo - lun * 16384) ((List.range (hi - lo)).map fun i => Config.freeByte seed (lo + i)) else d

/-- R378: a range of an owner's far-tier space is left undefined: what is programmed there, and what is about to be. -/
def spoilFar (s : State) (o ofs n : Nat) : State :=
  let here (lun : Nat) (phys : BitVec 32) : Bool := match (tblFind s.far.owners o).bind fun w => tblFind w.map lun with
    | some e => e.phys == phys
    | none => false
  { s with
    free := s.free + 1
    far := { s.far with
      media := s.far.media.map fun e =>
        if e.2.owner = o && here e.2.lun (BitVec.ofNat 32 e.1) then
          (e.1, { e.2 with data := spoilUnit s.free ofs n e.2.lun e.2.data })
        else e
      progs := s.far.progs.map fun g =>
        if g.owner = o && g.write.isSome then { g with data := spoilUnit s.free ofs n g.lun g.data } else g } }

/-- The far-tier range that a command writes: owner, offset and length. -/
def farWriting (j : Job) : Option (Nat × Nat × Nat) :=
  let at' (o l : Nat) : Option (Nat × Nat × Nat) :=
    let a : BitVec 64 := BitVec.ofNat 64 (prm j.packet o 8)
    if gaTier a = 1 then some (gaPane a, gaOfs a, prm j.packet l 8) else none
  if j.opcode.toNat = opSwapOut then at' 16 24 else if j.opcode.toNat = opShardFetch then at' 8 16 else none

/-- R378: what a running command was writing when it is aborted is undefined: near-tier ranges, a far-tier range, a
window entry being granted, a job map in delivery. A Plan in delivery is not loaded. -/
def leaveUndefined (s : State) (j : Job) : State :=
  let s1 := j.writing.foldl (fun s w => scramble s w.1 w.2.1 w.2.2) s
  let p := prm j.packet 0 1
  if j.start.isNone || j.outcome.isSome then s1
  else match farWriting j with
    | some w => spoilFar s1 w.1 w.2.1 w.2.2
    | none =>
      if j.opcode.toNat = opGrant then
        match unusedWindow s1 p with
        | some i => modPane { s1 with free := s1.free + 8 } p fun x =>
            { x with rmo := { x.rmo with windows := tblSet x.rmo.windows i (freeWindow s1.free) } }
        | none => s1
      else if j.opcode.toNat = opMapLoad then
        let len := j.packet.bulkLen.toNat / 2
        modGroup { s1 with free := s1.free + 7 + len } p fun g => { g with jobMap := some (freeMap s1.free len) }
      else s1

/-- A command ends now with an answer, whatever stage it has reached; what it was writing is left undefined when it is
aborted (R378). -/
def endNow (s : State) (r : Nat) (a : Ans) : State :=
  match (mbx s r).job with
  | some j =>
    let s1 := orphanWork (if a.status = stOk then s else leaveUndefined s j) r
    finish s1 r (mkReply s1 j.opcode.toNat j.packet.seq.toNat a)
  | none => s

/-- The outcome of a running command is decided; its reply follows (`COMMAND_REPLY`). -/
def decideJob (s : State) (r : Nat) (a : Ans) : State :=
  modMbx s r fun m => { m with job := m.job.map fun j =>
    { j with outcome := some (mkReply s j.opcode.toNat j.packet.seq.toNat a) } }

/-- The requesters whose running, undecided command satisfies a test. -/
def openJobs (s : State) (f : Job → Bool) : List Nat :=
  (List.range 18).filter fun r => match (mbx s r).job with
    | some j => j.start.isSome && j.outcome.isNone && f j
    | none => false

/-- The outcome of every running, undecided command that satisfies a test. -/
def decideJobs (s : State) (f : Job → Bool) (a : Ans) : State := (openJobs s f).foldl (fun s r => decideJob s r a) s

/-- Two commands want a common lock (R366). -/
def conflict (a b : Job) : Bool :=
  (a.wholeModule && (b.wholeModule || b.locks != 0)) || (b.wholeModule && a.locks != 0)
  || (a.locks &&& b.locks) != 0

/-- R366: a command with the locks that it needs now: the panes of a group change with the commands ahead of it. -/
def withLocks (s : State) (r : Nat) (j : Job) : Job := { j with locks := namedPanes s r j.opcode.toNat j.packet }

/-- The commands in hand: requester and command, a waiting one with the locks that it needs now. -/
def jobsInHand (s : State) : List (Nat × Job) :=
  (List.range 18).filterMap fun r => (mbx s r).job.map fun j => (r, if j.start.isNone then withLocks s r j else j)

/-- R367: the command `b` of requester `rb` comes before the command `a` of requester `ra`. -/
def before (rb : Nat) (b : Job) (ra : Nat) (a : Job) : Bool :=
  b.start.isSome || b.order < a.order || (b.order == a.order && rb < ra)

/-- R367: every lock a requester's waiting command needs is free, and no earlier command waits for one of them. -/
def canStart (s : State) (r : Nat) (j : Job) : Bool :=
  (jobsInHand s).all (fun e => e.1 == r || !(before e.1 e.2 r j && conflict e.2 j))
  && (match s.dk.esc.job with
      | some e => !conflict e j
      | none => true)

/-- R360: a refusal is charged to the pane of a virtual function, or to the operator. -/
def chargeRefusal (s : State) (r : Nat) : State := meterRefusal s (if 1 ≤ r && r ≤ 16 then r - 1 else 16)

/-! ### Escapes and module events over commands (R369, R377) -/

/-- A command holds or waits for a lock of a mask (R366). -/
def wantsLock (mask : BitVec 16) (j : Job) : Bool := (j.wholeModule && mask != 0) || (j.locks &&& mask) != 0

/-- Every command that holds or waits for a lock of a mask ends `ST_ABORTED`, but for those a test spares. -/
def abortLocked (s : State) (mask : BitVec 16) (detail : Nat) (spare : Job → Bool) : State :=
  (jobsInHand s).foldl (fun s e =>
    if wantsLock mask e.2 && !spare e.2 then endNow s e.1 { status := stAborted, detail := detail } else s) s

/-- A command that waits for a pane's shutter. -/
def waitsForPane (p : Nat) (j : Job) : Bool :=
  (j.opcode.toNat == opTeardown || j.opcode.toNat == opPaneReset) && prm j.packet 0 1 == p

/-- A command that has started a pane's shutter, or that returns with it (R345, R377). -/
def ownsShutter (p : Nat) (j : Job) : Bool := j.start.isSome && (waitsForPane p j || j.opcode.toNat == opShutdown)

/-- The escape's reply (R376, R377). -/
def endEscape (s : State) (a : Ans) : State :=
  match s.dk.esc.job with
  | some j =>
    let r := mkReply s j.opcode.toNat j.packet.seq.toNat a
    let s1 := { s with dk := { s.dk with esc := { s.dk.esc with estate := .done, job := none, reply := some r } } }
    if (mbx s 0).escIe then msix s1 0 1 else s1
  | none => s

/-- The escape in hand, when it satisfies a test, ends with an answer. -/
def endEscapeIf (s : State) (f : Job → Bool) (a : Ans) : State :=
  match s.dk.esc.job with
  | some j => if f j then endEscape s a else s
  | none => s

/-- R369, R377: a module event takes a pane's lock, as an escape does; the command whose shutter is in progress on the
pane goes on. -/
def abortForEvent (s : State) (p : Nat) : State :=
  let x := (pane s p).state
  let spare (j : Job) : Bool := (x == .teardown || x == .shuttering) && ownsShutter p j
  endEscapeIf (abortLocked s (paneBit p) 2 spare) (fun j => wantsLock (paneBit p) j && !spare j)
    { status := stAborted, detail := 2 }

end Sys2Proof.Machine
end

