-- ==== Sys2Proof/Machine/FaultOps.lean ====
section
/-! DEFINITION. Faults as every family raises them (16_faults_and_reset.md): window counting with warnings and
declarations (R402 to R405), a fault charged to a context (R406) and the teardown it starts (R353). -/

namespace Sys2Proof.Machine

/-! ### Window counting (Table 16-2); rows A = 1 to L = 11 -/

/-- Row numbers. -/
def rowA : Nat := 1
/-- Near tier, uncorrectable. -/
def rowB : Nat := 2
/-- Cell, corrected. -/
def rowC : Nat := 3
/-- Cell, uncorrectable. -/
def rowD : Nat := 4
/-- ClouzLink lane, corrected symbols. -/
def rowE : Nat := 5
/-- ClouzLink port, uncorrectable codewords. -/
def rowF : Nat := 6
/-- ClouzLink port, `FRAME` check failures. -/
def rowG : Nat := 7
/-- Far-tier block. -/
def rowH : Nat := 8
/-- Hub SRAM bank. -/
def rowJ : Nat := 9
/-- Beat reference. -/
def rowK : Nat := 10
/-- Ethernet engine. -/
def rowL : Nat := 11

/-- Warning threshold, fault threshold and W of a row. -/
def rowLimits (row : Nat) : Nat × Nat × Nat :=
  match row with
  | 1 => (256, 1024, 2 ^ 24)
  | 2 => (1, 2, 2 ^ 27)
  | 3 => (64, 256, 2 ^ 24)
  | 4 => (1, 2, 2 ^ 27)
  | 5 => (2 ^ 27, 2 ^ 28, 2 ^ 20)
  | 6 => (16, 64, 2 ^ 20)
  | 7 => (4, 16, 2 ^ 20)
  | 8 => (1, 2, 2 ^ 27)
  | 9 => (64, 256, 2 ^ 24)
  | 10 => (16, 64, 2 ^ 20)
  | _ => (16, 64, 2 ^ 20)

/-- Index of a near-tier pseudo-channel or a cell in its rows. -/
def unitIndex (pane unit : Nat) : Nat := pane * 128 + unit

/-- Index of a ClouzLink lane in row E: port, direction (0 transmit, 1 receive), physical lane. -/
def laneIndex (port dir lane : Nat) : Nat := port * 16 + dir * 8 + lane

/-- The pane that rows A to D name. -/
def rowPane (row index : Nat) : Nat := if row ≤ rowD then index / 128 else noPane

/-- The index an event and a notice of a row give. -/
def rowIndex (row index : Nat) : Nat := if row ≤ rowD then index % 128 else index % 65536

/-- The index byte of a notice: none for blocks, banks and the reference (Table 16-7). -/
def noticeIndex (row index : Nat) : Nat :=
  if row ≤ rowD then index % 128 else if row = rowE then index % 8 else if row ≤ rowG then index / 2
  else if row = rowL then index else 0xFF

/-- The source that reports a row. -/
def rowSource (row index : Nat) : Nat :=
  if row ≤ rowB then srcNear (index / 128) else if row ≤ rowD then srcCell (index / 128) (index % 128)
  else if row = rowE then srcPort (index / 16) else if row ≤ rowG then srcPort (index / 2)
  else if row = rowH then srcFar else if row = rowJ then srcDoorkeeper else if row = rowK then srcBeat
  else srcEth index

/-- Key of a counter. -/
def winKey (row index : Nat) : Nat := row * 2 ^ 24 + index

/-- A counter that counts nothing. -/
def winZero : WinCount := { sub := 0, counts := [], warned := false }

/-- The sum over the current sub-window and the seven before it. -/
def winSum (c : WinCount) : Nat := c.counts.foldl (· + ·) 0

/-- R402: a counter moved to the sub-window of a beat. -/
def winRoll (row beat : Nat) (c : WinCount) : WinCount :=
  let n := beat / ((rowLimits row).2.2 / 8)
  let k := if c.counts.isEmpty then 0 else if n = c.sub then 0 else if c.sub < n then n - c.sub else 1
  let counts := ((List.replicate (min k 8) 0) ++ c.counts).take 8
  let c' := { c with sub := n, counts := counts }
  { c' with warned := c.warned && (rowLimits row).1 ≤ 2 * winSum c' }

/-- The state with a counter replaced. -/
def setWin (s : State) (key : Nat) (c : WinCount) : State :=
  { s with faults := { s.faults with windows := tblSet s.faults.windows key c } }

/-- R404: the groups that a warning from a row concerns note it (for R388). -/
def warnGroups (s : State) (row index : Nat) : State :=
  { s with groups := s.groups.map fun g =>
      if row ≤ rowD && !g.members.getLsbD (index / 128) then g
      else { g with storm := { g.storm with warned := true } } }

/-- R404, R416: a warning of failure. -/
def raiseWarning (s : State) (row index : Nat) : State :=
  let p := rowPane row index
  let s1 := record s 0x0600 (rowSource row index) p (natLe 1 row ++ natLe 2 (rowIndex row index))
  let s2 := queueNotice s1 2 p (if p < 16 then (pane s p).jobTag else 0) (if p < 16 then (pane s p).epoch else 0)
    row (noticeIndex row index) (rowSource row index)
  warnGroups s2 row index

/-- R405: the count of declarations, and the counter of the declared resource cleared. -/
def noteDeclared (s : State) (row index : Nat) : State :=
  let f := s.faults
  { s with faults := { f with
    windows := tblDel f.windows (winKey row index)
    declarations := BitVec.ofNat 24 (satAdd 24 f.declarations.toNat 1) } }

/-- R404, R405, R416: a declaration's warning of failure and its notice. -/
def tellDeclared (s : State) (row index : Nat) : State :=
  let p := rowPane row index
  queueNotice (raiseWarning s row index) 3 p (if p < 16 then (pane s p).jobTag else 0)
    (if p < 16 then (pane s p).epoch else 0) row (noticeIndex row index) (rowSource row index)

/-- R405, but for the action of the row: the resource is declared faulty and its counter cleared. -/
def declareFaulty (s : State) (row index : Nat) : State :=
  let s1 := record (noteDeclared s row index) 0x0601 (rowSource row index) (rowPane row index)
    (natLe 1 row ++ natLe 2 (rowIndex row index))
  tellDeclared s1 row index

/-- R402 to R405: `n` errors of a source counted; the answer says whether it is declared faulty by them. -/
def countError (s : State) (row index n : Nat) : State × Bool :=
  let lim := rowLimits row
  let c := winRoll row s.time.beat (tblGet winZero s.faults.windows (winKey row index))
  let c1 := { c with counts := match c.counts with
    | [] => [n]
    | h :: r => (h + n) :: r }
  let sum := winSum c1
  let warnNow := decide (lim.1 ≤ sum) && !c1.warned
  let c2 := { c1 with
    warned := c1.warned || warnNow
    counts := if lim.2.1 < sum then [lim.2.1] else c1.counts }
  let s1 := setWin s (winKey row index) c2
  let s2 := if warnNow then raiseWarning s1 row index else s1
  if lim.2.1 ≤ sum then (declareFaulty s2 row index, true) else (s2, false)

/-- R402: a row holds an error of a resource within its window. -/
def errorsCounted (s : State) (row index : Nat) : Bool :=
  0 < winSum (winRoll row s.time.beat (tblGet winZero s.faults.windows (winKey row index)))

/-- Table 16-9 `WARN_ACTIVE`. -/
def warnActive (s : State) : Bool :=
  s.faults.windows.any fun e => (rowLimits (e.1 / 2 ^ 24)).1 ≤ winSum (winRoll (e.1 / 2 ^ 24) s.time.beat e.2)

/-! ### Faults of a context -/

/-- R341, R353: a teardown of a pane is asked for: its beat d is the next boundary. An `OPEN` pane with one already
asked for keeps the first. -/
def askTeardown (s : State) (p cause : Nat) (keepFar : Bool) : State :=
  modPane s p fun x =>
    if x.state = .opened && x.shutter.isNone then
      let sh : Shutter :=
        { cause := BitVec.ofNat 8 cause, keepFar := keepFar, d := s.time.beat + 1, oldTag := x.jobTag
          oldEpoch := x.epoch, farSeq := 0, farZeroed := false, latchesFreed := 0, paneReset := false }
      { x with shutter := some sh }
    else x

/-- R406: the payload of `EV_CTX_FAULT`. -/
def faultPayload (fcode lcell : Nat) (x : Pane) (index addr : Nat) : List Byte :=
  natLe 1 fcode ++ natLe 1 lcell ++ natLe 4 x.jobTag.toNat ++ natLe 2 x.epoch.toNat ++ natLe 2 index ++ natLe 8 addr

/-- `LCELL` when no cell raised the fault. -/
def noCell : Nat := 0x3F

/-- R406: `CTX_FAULT` takes a fault. -/
def setCtxFault (s : State) (p fcode source lcell : Nat) : State :=
  modPane s p fun x => { x with ctxFault :=
    { beat := BitVec.ofNat 48 s.time.beat, job := x.jobTag, epoch := x.epoch, source := BitVec.ofNat 16 source
      fcode := BitVec.ofNat 8 fcode, lcell := BitVec.ofNat 6 lcell } }

/-- R406, R353, R416, R369: a fault is charged to the context of a pane: recorded once, reported, and the context's
teardown begun. A later fault of the same context changes nothing. -/
def contextFault (s : State) (p fcode source lcell index addr : Nat) : State :=
  let x := pane s p
  if x.state ≠ .opened || x.ctxFault.fcode ≠ 0 then s
  else
    let s1 := setCtxFault s p fcode source lcell
    let s2 := record s1 0x0200 source p (faultPayload fcode lcell x index addr)
    let s3 := queueNotice s2 1 p x.jobTag x.epoch fcode (if lcell = noCell then 0xFF else lcell) source
    abortForEvent (askTeardown s3 p 2 true) p

/-- A fault that an instruction of a logical cell raises: its issue stops and its context is charged (R52). -/
def cellFault (s : State) (p l fcode index addr : Nat) : State :=
  contextFault (modCell s p l fun c => { c with halted := true }) p fcode (srcCell p (physOf s p l)) l index addr

/-- Fault codes of Table 16-3 beside those of a cell's own instructions: a failed remote operation. -/
def fcRemote : Nat := 0x04
/-- Wait limit expired. -/
def fcWait : Nat := 0x05
/-- Poison consumed. -/
def fcPoison : Nat := 0x06
/-- Uncorrectable error in a cell. -/
def fcCellUncorr : Nat := 0x07
/-- Sealed scheduled slot failed authentication. -/
def fcSeal : Nat := 0x08
/-- Pseudo-channel declared faulty on uncorrectable errors while a Plan ran. -/
def fcPseudo : Nat := 0x09
/-- Pane hardware fault. -/
def fcPaneHw : Nat := 0x0A

/-! ### Plans and their runs -/

/-- The group has a Plan in progress: its run has begun. -/
def planRunning (g : Group) : Bool := match g.run with
  | some r => r.started
  | none => false

/-- A pane runs a Plan. -/
def paneRunsPlan (s : State) (p : Nat) : Bool := match groupOf s p with
  | some g => planRunning g
  | none => false

end Sys2Proof.Machine
end

