-- ==== Sys2Proof/Machine/Plan.lean ====
section
/-! DEFINITION. The Plan container (05_plans.md): its sections and entries read from the bytes delivered, and the load
checks of Table 05-9. -/

namespace Sys2Proof.Machine

/-! ### Header and directory -/

/-- `n` bytes at offset `o` of a Plan or section, as a number. -/
abbrev rd (d : List Byte) (o n : Nat) : Nat := leAt d o n

/-- `STEP_BEATS`. -/
def planStepBeats (d : List Byte) : Nat := rd d 40 4
/-- `SLACK_TICKS`. -/
def planSlack (d : List Byte) : Nat := rd d 44 4
/-- `PANE_COUNT`. -/
def planPanes (d : List Byte) : Nat := rd d 48 2
/-- `POWER_MODE`. -/
def planPower (d : List Byte) : Nat := rd d 50 1
/-- `MODULES`. -/
def planModules (d : List Byte) : Nat := rd d 52 4
/-- `FLAGS`. -/
def planFlags (d : List Byte) : Nat := rd d 14 2
/-- `DONE_LATCH` of the header. -/
def planDoneLatch (d : List Byte) : Nat := rd d 160 4

/-- A directory entry (Table 05-2). -/
structure Sec where
  type : Nat
  sflags : Nat
  pane : Nat
  ofs : Nat
  len : Nat
  crc : Nat
  deriving DecidableEq, Repr

/-- The section directory. -/
def planSecs (d : List Byte) : List Sec :=
  (List.range (rd d 12 2)).map fun i =>
    let o := 256 + 32 * i
    { type := rd d o 2, sflags := rd d (o + 2) 2, pane := rd d (o + 4) 1, ofs := rd d (o + 8) 8, len := rd d (o + 16) 8
      crc := rd d (o + 24) 4 }

/-- The bytes of a section. -/
def secBytes (d : List Byte) (x : Sec) : List Byte := (d.drop x.ofs).take x.len

/-- The bytes of a group-wide section; empty when the Plan has none. -/
def secOf (d : List Byte) (type : Nat) : List Byte :=
  match (planSecs d).find? (·.type == type) with
  | some x => secBytes d x
  | none => []

/-- The Plan has a section of a group-wide type, be it empty. -/
def secHas (d : List Byte) (type : Nat) : Bool := (planSecs d).any (·.type == type)

/-- Section types of Table 05-4. -/
def secKnown (t : Nat) : Bool := 1 ≤ t && t ≤ 10

/-! ### Cell programs (R114) -/

/-- The record of one cell: instructions and sequencer entries. -/
structure CellRec where
  instrs : List Nat
  seqs : List Nat
  deriving DecidableEq, Repr

/-- The offset of each cell record in a section: records follow one another on 16-byte boundaries. -/
def cellOfs (x : List Byte) : Nat → Nat
  | 0 => 0
  | l + 1 =>
    let o := cellOfs x l
    o + ceilDiv (16 + 16 * rd x o 4 + 8 * rd x (o + 4) 4) 16 * 16

/-- One cell record. -/
def cellRec (x : List Byte) (l : Nat) : CellRec :=
  let o := cellOfs x l
  let n := rd x o 4
  { instrs := (List.range n).map fun i => rd x (o + 16 + 16 * i) 16
    seqs := (List.range (rd x (o + 4) 4)).map fun i => rd x (o + 16 + 16 * n + 8 * i) 8 }

/-- The `CELL_PROGRAM` of a Plan pane. -/
def cellProgram (d : List Byte) (k : Nat) : List Byte :=
  match (planSecs d).find? fun x => x.type == 1 && x.pane == k with
  | some x => secBytes d x
  | none => []

/-- Fields of a sequencer entry (Table 03-4): `BEAT_OFS`. -/
def seqBeat (e : Nat) : Nat := fld e 63 44
/-- `TICK`. -/
def seqTick (e : Nat) : Nat := fld e 43 31
/-- `PC`. -/
def seqPc (e : Nat) : Nat := fld e 30 17
/-- `FENCE`. -/
def seqFence (e : Nat) : Bool := bitAt e 1
/-- `LAST`. -/
def seqLast (e : Nat) : Bool := bitAt e 0

/-- R114: the entries of one cell. -/
def seqOk (stepBeats instrs : Nat) (es : List Nat) : Bool :=
  (es.zip (es.drop 1)).all (fun p =>
    seqBeat p.1 < seqBeat p.2 || (seqBeat p.1 == seqBeat p.2 && seqTick p.1 < seqTick p.2))
  && es.zipIdx.all (fun p => seqLast p.1 == (p.2 + 1 == es.length))
  && es.all fun e => seqPc e < instrs && seqBeat e < stepBeats && seqTick e < 8192

/-- R114: one record fits in its section and satisfies the rule. -/
def cellRecOk (stepBeats : Nat) (x : List Byte) (l : Nat) : Bool :=
  let o := cellOfs x l
  let n := rd x o 4
  let m := rd x (o + 4) 4
  n ≤ 16384 && m ≤ 4096 && o + 16 + 16 * n + 8 * m ≤ x.length && seqOk stepBeats n (cellRec x l).seqs

/-! ### Slot runs and streams (Tables 05-6, 05-7) -/

/-- `KIND` of a slot run. -/
inductive RunKind where
  /-- `RING`. -/
  | ring
  /-- `PUT`. -/
  | put
  /-- `FORWARD`. -/
  | forward
  deriving DecidableEq, Repr

/-- A slot run; kind code 3 and above is kept in `kindCode`. -/
structure SlotRun where
  beatOfs : Nat
  beats : Nat
  first : Nat
  count : Nat
  port : Nat
  rx : Bool
  kindCode : Nat
  stream : Nat
  outPort : Nat
  streamOfs : Nat
  deriving DecidableEq, Repr

/-- A slot run from its 128 bits. -/
def mkRun (w : Nat) : SlotRun :=
  { beatOfs := fld w 127 108, beats := if fld w 107 88 = 0 then 1048576 else fld w 107 88, first := fld w 87 80
    count := fld w 79 72 + 1, port := fld w 71 69, rx := bitAt w 68, kindCode := fld w 67 65, stream := fld w 63 48
    outPort := fld w 47 45, streamOfs := fld w 44 0 }

/-- The slot runs of a Plan. -/
def planRuns (d : List Byte) : List SlotRun :=
  let x := secOf d 2
  (List.range (rd x 16 4)).map fun i => mkRun (rd x (20 + 16 * i) 16)

/-- `SLOTS_NEEDED` by 2 x port + direction. -/
def slotsNeeded (d : List Byte) (u : Nat) : Nat := rd (secOf d 2) u 1

/-- A stream descriptor. -/
structure StreamD where
  addr : BitVec 64
  length : Nat
  readyCell : Nat
  readyToken : Nat
  rx : Bool
  doneLatch : Nat
  paneMask : BitVec 16
  window : Nat
  deriving DecidableEq, Repr

/-- Streams of a Plan. -/
def streamCount (d : List Byte) : Nat := rd (secOf d 3) 0 4

/-- A stream descriptor of a Plan. -/
def planStream (d : List Byte) (n : Nat) : StreamD :=
  let x := secOf d 3
  let o := 16 + 32 * n
  { addr := BitVec.ofNat 64 (rd x o 8), length := rd x (o + 8) 8, readyCell := rd x (o + 16) 1
    readyToken := rd x (o + 17) 1, rx := bitAt (rd x (o + 18) 2) 0, doneLatch := rd x (o + 20) 4
    paneMask := BitVec.ofNat 16 (rd x (o + 24) 2), window := rd x (o + 26) 2 }

/-- Slots of a stream, of 3,072 bytes or, in a sealed group, 3,008 (R204). -/
def streamSlots (isSealed : Bool) (x : StreamD) : Nat := ceilDiv x.length (slotData isSealed)

/-- The run covers a step-relative plan beat. -/
def runAt (r : SlotRun) (beat : Nat) : Bool := r.beatOfs ≤ beat && beat < r.beatOfs + r.beats

/-- The run covers a slot index of a step-relative plan beat. -/
def runCovers (r : SlotRun) (beat idx : Nat) : Bool := runAt r beat && r.first ≤ idx && idx < r.first + r.count

/-- R117: the stream slot number that a run gives a slot index of a plan beat. -/
def runSlot (r : SlotRun) (beat idx : Nat) : Nat := r.streamOfs + (beat - r.beatOfs) * r.count + (idx - r.first)

/-- Two runs share a slot (R118). -/
def runsMeet (a b : SlotRun) : Bool :=
  a.port == b.port && a.rx == b.rx && a.beatOfs < b.beatOfs + b.beats && b.beatOfs < a.beatOfs + a.beats
  && a.first < b.first + b.count && b.first < a.first + a.count

/-- No two entries of a list satisfy a test. -/
def noPair {α : Type} (f : α → α → Bool) : List α → Bool
  | [] => true
  | a :: r => r.all (fun b => !f a b) && noPair f r

/-- The k-th lowest set bit of a mask. -/
def nthBit {w : Nat} (m : BitVec w) (k : Nat) : Option Nat := ((List.range w).filter (m.getLsbD ·))[k]?

/-- The place of a bit among the set bits of a mask. -/
def bitRank {w : Nat} (m : BitVec w) (b : Nat) : Nat := ((List.range b).filter (m.getLsbD ·)).length

/-! ### Latch references, windows, memory map, collectives, tensors, variants -/

/-- R134: the layout of a Plan latch reference below a number of Plan panes; 0xFFFF_FFFF names none. -/
def latchRefOk (panes r : Nat) : Bool := r == 0xFFFFFFFF || (fld r 27 16 == 0 && fld r 31 28 < panes)

/-- A window requirement (Table 05-8). -/
structure WinReq where
  base : BitVec 64
  length : Nat
  dx : Int
  dy : Int
  dz : Int
  scope : Nat
  ops : Nat
  isSealed : Bool
  peerPanes : BitVec 16
  deriving DecidableEq, Repr

/-- The window requirements of a Plan. -/
def planWindows (d : List Byte) : List WinReq :=
  let x := secOf d 4
  (List.range (rd x 0 4)).map fun i =>
    let o := 16 + 32 * i
    { base := BitVec.ofNat 64 (rd x o 8), length := rd x (o + 8) 8, dx := toSigned 8 (rd x (o + 16) 1)
      dy := toSigned 8 (rd x (o + 17) 1), dz := toSigned 8 (rd x (o + 18) 1), scope := rd x (o + 19) 1
      ops := rd x (o + 20) 2, isSealed := bitAt (rd x (o + 22) 1) 0, peerPanes := BitVec.ofNat 16 (rd x (o + 24) 2) }

/-- A latch entry: Plan pane, index, initial count (Table 05-13). -/
def planLatches (d : List Byte) : List (Nat × Nat × Nat) :=
  let x := secOf d 10
  (List.range (rd x 0 4)).map fun i =>
    let o := 16 + 16 * i
    (rd x o 1, rd x (o + 4) 4, rd x (o + 8) 6)

/-- A near-tier range (Table 06-6). -/
structure MemRange where
  base : BitVec 64
  length : Nat
  kind : Nat
  deriving DecidableEq, Repr

/-- The ranges of a memory map. -/
def planRanges (d : List Byte) : List MemRange :=
  let x := secOf d 7
  (List.range (rd x 0 4)).map fun i =>
    let o := 16 + 32 * i
    { base := BitVec.ofNat 64 (rd x o 8), length := rd x (o + 8) 8, kind := rd x (o + 16) 1 }

/-- A stream-class extent (Table 06-7). -/
structure Extent where
  far : BitVec 64
  length : Nat
  near : BitVec 64
  start : Nat
  need : Nat
  free : Nat
  rate : Nat
  doneLatch : Nat
  paneMask : BitVec 16
  deriving DecidableEq, Repr

/-- The extents of a memory map. -/
def planExtents (d : List Byte) : List Extent :=
  let x := secOf d 7
  let base := 16 + 32 * rd x 0 4
  (List.range (rd x 4 4)).map fun i =>
    let o := base + 48 * i
    { far := BitVec.ofNat 64 (rd x o 8), length := rd x (o + 8) 8, near := BitVec.ofNat 64 (rd x (o + 16) 8)
      start := rd x (o + 24) 4, need := rd x (o + 28) 4, free := rd x (o + 32) 4, rate := rd x (o + 36) 4
      doneLatch := rd x (o + 40) 4, paneMask := BitVec.ofNat 16 (rd x (o + 44) 2) }

/-- A collective descriptor (Table 10-2). -/
structure CollD where
  ident : Nat
  kind : Nat
  wire : Nat
  inFmt : Nat
  outFmt : Nat
  round : Nat
  axes : Nat
  cflags : Nat
  chunkSlots : Nat
  tensor : Nat
  src : BitVec 64
  dst : BitVec 64
  elements : Nat
  stage : BitVec 64
  stageBytes : Nat
  contrib : Nat
  doneLatch : Nat
  readyCell : Nat
  readyToken : Nat
  stats : BitVec 64
  deriving DecidableEq, Repr

/-- Collectives of a Plan. -/
def collCount (d : List Byte) : Nat := rd (secOf d 5) 0 2

/-- One collective descriptor. -/
def planColl (d : List Byte) (i : Nat) : CollD :=
  let x := secOf d 5
  let o := 16 + 80 * i
  { ident := rd x o 2, kind := rd x (o + 2) 1, wire := rd x (o + 3) 1, inFmt := rd x (o + 4) 1
    outFmt := rd x (o + 5) 1, round := rd x (o + 6) 1, axes := rd x (o + 7) 1, cflags := rd x (o + 8) 1
    chunkSlots := rd x (o + 9) 1 + 1, tensor := rd x (o + 12) 4, src := BitVec.ofNat 64 (rd x (o + 16) 8)
    dst := BitVec.ofNat 64 (rd x (o + 24) 8), elements := rd x (o + 32) 8, stage := BitVec.ofNat 64 (rd x (o + 40) 8)
    stageBytes := rd x (o + 48) 4, contrib := rd x (o + 52) 4, doneLatch := rd x (o + 56) 4
    readyCell := rd x (o + 60) 1, readyToken := rd x (o + 61) 1, stats := BitVec.ofNat 64 (rd x (o + 64) 8) }

/-- G of `HOLD_GRID` in beats (Table 10-1); 16 for a Plan without collectives. -/
def holdGrid (d : List Byte) : Nat := [16, 32, 64, 128].getD (rd (secOf d 5) 2 1) 16

/-- A tensor with its storm fields (Tables 05-15, 15-1). -/
structure TensorD where
  ident : Nat
  fmt : Nat
  rank : Nat
  sclass : Nat
  elemBytes : Nat
  firstElem : Nat
  count : Nat
  shard : BitVec 64
  deriving DecidableEq, Repr

/-- The tensors of a Plan. -/
def planTensors (d : List Byte) : List TensorD :=
  let x := secOf d 8
  (List.range (rd x 0 4)).map fun i =>
    let o := 16 + 104 * i
    { ident := rd x o 4, fmt := rd x (o + 4) 1, rank := rd x (o + 5) 1, sclass := rd x (o + 72) 1
      elemBytes := rd x (o + 73) 1, firstElem := rd x (o + 80) 8, count := rd x (o + 88) 8
      shard := BitVec.ofNat 64 (rd x (o + 96) 8) }

/-- `UPDATE_BEAT`. -/
def updateBeat (d : List Byte) : Nat := rd (secOf d 8) 4 4

/-- Offsets of the entries of a `VARIANTS` section (R312); `n` entries follow the head. -/
def variantOfs (x : List Byte) : Nat → Nat
  | 0 => 16
  | i + 1 => variantOfs x i + 32 + 32 * rd x (variantOfs x i + 24) 4

/-- Shape and fold of the entry that a Plan's own `VARIANT_ID` names (R315). -/
def ownVariant (d : List Byte) : Option (Nat × Nat × Nat × Nat) :=
  let x := secOf d 9
  ((List.range (rd x 0 4)).map (variantOfs x)).findSome? fun o =>
    if rd x o 4 = rd d 32 4 then some (rd x (o + 8) 2, rd x (o + 10) 2, rd x (o + 12) 2, rd x (o + 14) 1) else none

/-! ### Group and Plan panes -/

/-- R108: the pane of a group that a Plan pane is mapped onto. -/
def planPane (g : Group) (k : Nat) : Nat := (nthBit g.members k).getD 16

/-- The Plan pane of a pane of the group. -/
def planPaneNo (g : Group) (p : Nat) : Nat := bitRank g.members p

/-- The panes of a group that a Plan's pane mask names. -/
def planMaskPanes (g : Group) (m : BitVec 16) : List Nat := (maskPanes m).map (planPane g)

/-- The slot allocation of a group on a port and direction: empty while the ends' splits differ (R230). -/
def allocOf (s : State) (g : Group) (port : Nat) (rx : Bool) : BitVec 256 :=
  if (portOf s port).splitMismatch then 0 else tblGet 0 g.slots (2 * port + b2n rx)

/-! ### The load checks (Table 05-9) -/

/-- 48 GiB (R138). -/
def nearBytes : Nat := 0xC00000000

/-- The module's capability descriptor, as offset, size and value with the comparison of Table 05-3: 0 equal, 1 at most,
2 subset. -/
def capability (mhz : Nat) : List (Nat × Nat × Nat × Nat) :=
  [(0, 2, 1, 0), (2, 2, 32, 1), (4, 4, 6144, 1), (8, 2, 16384, 1), (10, 2, 4096, 1), (12, 2, mhz, 0),
   (14, 2, 8192, 0), (16, 2, 1, 0), (18, 1, 6, 1), (19, 1, 2, 1), (20, 4, 0xFFF, 2), (24, 4, 0x3FF, 2),
   (28, 4, 49152, 1), (32, 2, 256, 1), (34, 2, 256, 0), (36, 2, 3072, 0), (38, 4, 65536, 1)]

/-- `CELL_MHZ` of a power mode (Table 20-3). -/
def modeMhz (m : Nat) : Nat := [1800, 1500, 1200].getD m 0

/-- The module's descriptor as 64 bytes. -/
def capBytes (mhz : Nat) : List Byte := ((capability mhz).flatMap fun f => natLe f.2.1 f.2.2.1) ++ zeros 22

/-- R111. -/
def capOk (d : List Byte) : Bool :=
  let mhz := modeMhz (planPower d)
  planPower d ≤ 2 && allZero (bytesAt d 106 22) &&
  (capability mhz).all fun f =>
    let v := rd d (64 + f.1) f.2.1
    if f.2.2.2 = 0 then v == f.2.2.1 else if f.2.2.2 = 1 then v ≤ f.2.2.1 else v.lor f.2.2.1 == f.2.2.1

/-- Two byte ranges overlap. -/
def overlap (a n b m : Nat) : Bool := a < b + m && b < a + n && 0 < n && 0 < m

/-- Check 4: R109, the counts of R110, and the CRCs. -/
def dirOk (d : List Byte) : Bool :=
  let secs := planSecs d
  let head := 256 + 32 * secs.length
  1 ≤ secs.length && secs.length ≤ 1024 && head ≤ d.length
  && secs.all (fun x => x.ofs % 64 == 0 && x.ofs + x.len ≤ d.length && head ≤ x.ofs)
  && noPair (fun a b => overlap a.ofs a.len b.ofs b.len) secs
  && noPair (fun a b => a.type == b.type && 2 ≤ a.type && a.type ≤ 10) secs
  && (List.range (planPanes d)).all (fun k => (secs.filter fun x => x.type == 1 && x.pane == k).length == 1)
  && secs.all (fun x => x.type != 1 || x.pane < planPanes d)
  && secs.all fun x => crc32c (secBytes d x) == x.crc

/-- Check 9: the layouts of the slot table and the streams. -/
def slotsOk (d : List Byte) : Bool :=
  let t := secOf d 2
  let x := secOf d 3
  let runs := planRuns d
  let n := streamCount d
  let panes := planPanes d
  (!secHas d 2 || (20 ≤ t.length && t.length == 20 + 16 * rd t 16 4))
  && (!secHas d 3 || (16 ≤ x.length && n ≤ 65536 && x.length == 16 + 32 * n))
  && runs.all (fun r =>
    r.beatOfs + r.beats ≤ planStepBeats d && r.port ≤ 5 && r.kindCode ≤ 2
    && r.first + r.count ≤ slotsNeeded d (2 * r.port + b2n r.rx)
    && (if r.kindCode = 2 then r.outPort ≤ 5 && r.outPort != r.port
        else r.stream < n && (planStream d r.stream).rx == r.rx))
  && noPair runsMeet runs
  && (List.range n).all fun i =>
    let m := planStream d i
    1 ≤ m.length && gaDevice m.addr == 0 && gaPane m.addr < panes && gaTier m.addr == 0
    && gaOfs m.addr + m.length ≤ nearBytes
    && (m.rx || ((m.readyCell ≤ 31 || m.readyCell == 0xFF) && m.readyToken ≤ 63))
    && (!m.rx || (m.paneMask != 0 && (m.paneMask >>> panes) == 0))
    && latchRefOk panes m.doneLatch

/-- Set bits of a mask. -/
def bitCount {w : Nat} (m : BitVec w) : Nat := ((List.range w).filter (m.getLsbD ·)).length

/-- R157 for one extent. -/
def extentOk (s : State) (g : Group) (d : List Byte) (e : Extent) : Bool :=
  let quota := tblGet 0 s.far.quotas (planPane g (gaPane e.far)) * 2 ^ 30
  e.start < e.need && e.need ≤ e.free && e.free ≤ planStepBeats d
  && 1 ≤ e.rate && e.rate ≤ 1835008 && 16 + ceilDiv e.length e.rate ≤ e.need - e.start
  && gaTier e.far == 1 && gaDevice e.far == 0 && gaPane e.far < planPanes d && gaOfs e.far < quota
  && gaOfs e.far + e.length ≤ quota
  && gaTier e.near == 0 && gaDevice e.near == 0 && gaPane e.near < planPanes d && e.paneMask != 0 && (e.paneMask >>> planPanes d) == 0
  && (maskPanes e.paneMask).all fun k => (planRanges d).any fun r =>
      r.kind == 1 && gaPane r.base == k && gaOfs r.base ≤ gaOfs e.near
      && gaOfs e.near + e.length ≤ gaOfs r.base + r.length

/-- Check 11. -/
def mapOk (s : State) (g : Group) (d : List Byte) : Bool :=
  let x := secOf d 7
  let rs := planRanges d
  let es := planExtents d
  (!secHas d 7 || (16 ≤ x.length && x.length == 16 + 32 * rd x 0 4 + 48 * rd x 4 4))
  && rs.all (fun r => r.kind ≤ 3 && gaTier r.base == 0 && gaDevice r.base == 0 && gaPane r.base < planPanes d
      && gaOfs r.base + r.length ≤ nearBytes)
  && noPair (fun a b => gaPane a.base == gaPane b.base && overlap (gaOfs a.base) a.length (gaOfs b.base) b.length) rs
  && es.all (extentOk s g d)
  && es.all (fun e =>
      ((es.filter fun f => f.start ≤ e.start && e.start < f.need).map (·.rate)).foldl (· + ·) 0 ≤ g.streamShare)
  && noPair (fun a b => (a.paneMask &&& b.paneMask) != 0
      && overlap (gaOfs a.near) a.length (gaOfs b.near) b.length && a.start < b.free && b.start < a.free) es

/-- Every byte of a list of ranges of a section is zero. -/
def zeroAt (x : List Byte) (l : List (Nat × Nat)) : Bool := l.all fun r => allZero (bytesAt x r.1 r.2)

/-- Reserved bytes of the entries of a section. -/
def zeroEach (x : List Byte) (head size n : Nat) (l : List (Nat × Nat)) : Bool :=
  (List.range n).all fun i => zeroAt x (l.map fun r => (head + size * i + r.1, r.2))

/-- Check 12: limits, and reserved fields zero throughout the container. `STEP_BEATS` 0 breaks the range of Table 05-1,
for which Table 05-9 names no check: the model refuses it here (log entry 70). -/
def reservedOk (d : List Byte) : Bool :=
  planSlack d ≤ 65535 && 1 ≤ planStepBeats d && planStepBeats d ≤ 1048576
  && rd d 14 2 < 4 && zeroAt d [(51, 1), (62, 2), (164, 92)]
  && (List.range (rd d 12 2)).all (fun i =>
      rd d (256 + 32 * i + 2) 2 < 2 && zeroAt d [(256 + 32 * i + 5, 3), (256 + 32 * i + 28, 4)])
  && (List.range (planPanes d)).all (fun k => let x := cellProgram d k
      (List.range 32).all fun l => allZero (bytesAt x (cellOfs x l + 8) 8)
        && (cellRec x l).seqs.all fun e => fld e 16 2 == 0)
  && (let t := secOf d 2
      zeroAt t [(12, 4)] && (List.range (rd t 16 4)).all fun i => !bitAt (rd t (20 + 16 * i) 16) 64)
  && (let x := secOf d 3
      zeroAt x [(4, 12)] && zeroEach x 16 32 (rd x 0 4) [(28, 4)]
        && (List.range (rd x 0 4)).all fun i => rd x (16 + 32 * i + 18) 2 < 2)
  && (let x := secOf d 4
      zeroAt x [(4, 12)] && zeroEach x 16 32 (rd x 0 4) [(23, 1), (26, 6)]
        && (List.range (rd x 0 4)).all fun i =>
          rd x (16 + 32 * i + 20) 2 < 64 && rd x (16 + 32 * i + 22) 1 < 2)
  && (let x := secOf d 5
      zeroAt x [(3, 13)] && zeroEach x 16 80 (rd x 0 2) [(10, 2), (62, 2), (72, 8)]
        && (List.range (rd x 0 2)).all fun i =>
          rd x (16 + 80 * i + 6) 1 < 8 && rd x (16 + 80 * i + 7) 1 < 8 && rd x (16 + 80 * i + 8) 1 < 4)
  && (let x := secOf d 6
      zeroAt x [(4, 12)] && zeroEach x 16 32 (rd x 0 4) [(21, 11)])
  && (let x := secOf d 7
      zeroAt x [(8, 8)] && zeroEach x 16 32 (rd x 0 4) [(17, 15)]
        && zeroEach x (16 + 32 * rd x 0 4) 48 (rd x 4 4) [(46, 2)])
  && (let x := secOf d 8
      zeroAt x [(8, 8)] && zeroEach x 16 104 (rd x 0 4) [(6, 2), (74, 6)])
  && (let x := secOf d 9
      zeroAt x [(4, 12)] && (List.range (rd x 0 4)).all fun i =>
        rd x (variantOfs x i + 14) 1 < 8 && zeroAt x [(variantOfs x i + 28, 4)])
  && (let x := secOf d 10
      zeroAt x [(4, 12)] && zeroEach x 16 16 (rd x 0 4) [(1, 3), (14, 2)])

/-- A section is absent, or as long as its head and `n` entries require. -/
def lenIs (d : List Byte) (type head size n : Nat) : Bool :=
  !secHas d type || (head ≤ (secOf d type).length && (secOf d type).length == head + size * n)

/-- A Plan-relative near-tier address: device 0, a Plan pane, tier 0 (R108, R137). Whether its range stays below 48 GiB
is asked of streams, ranges and extents alone (R119, R126, R154). -/
def nearAddrOk (d : List Byte) (a : BitVec 64) : Bool := gaDevice a == 0 && gaPane a < planPanes d && gaTier a == 0

/-- The values that Table 10-2 gives a collective descriptor. -/
def collOk (d : List Byte) (c : CollD) : Bool :=
  c.ident ≤ 0xFFFE && c.kind ≤ 2 && c.wire ≤ 3 && c.round % 4 ≤ 2
  && (if c.kind = 1 then c.inFmt ≤ 11 && c.outFmt == c.inFmt
      else c.wire ≤ 2 && c.inFmt ≤ 2 && (if c.wire = 2 then c.outFmt == c.inFmt else c.outFmt ≤ 9 || c.outFmt == 11))
  && 1 ≤ c.contrib && c.contrib ≤ 65536 && (c.kind == 1 || c.wire == 0 || c.contrib == 1)
  && (c.readyCell ≤ 31 || c.readyCell == 0xFF) && c.readyToken ≤ 63
  && nearAddrOk d c.src && nearAddrOk d c.dst && nearAddrOk d c.stage && (c.cflags == 0 || nearAddrOk d c.stats)
  && latchRefOk (planPanes d) c.doneLatch

/-- The values that Table 05-14 gives a reduction-tree entry at an offset. -/
def treeOk (x : List Byte) (o : Nat) : Bool :=
  let k := rd x (o + 4) 4
  32 ≤ k && k ≤ 4096 && k % 32 == 0 && 1 ≤ rd x (o + 16) 2 && rd x (o + 16) 2 ≤ 32 && 1 ≤ rd x (o + 18) 2
  && rd x (o + 20) 1 ≤ 1

/-- The values that Tables 05-15 and 15-1 give a tensor entry at an offset. -/
def tensorOk (d x : List Byte) (o : Nat) : Bool :=
  let rank := rd x (o + 5) 1
  rd x (o + 4) 1 ≤ 11 && 1 ≤ rank && rank ≤ 8
  && (List.range 8).all (fun i => i < rank || rd x (o + 8 + 8 * i) 8 == 0)
  && ((List.range rank).map fun i => rd x (o + 8 + 8 * i) 8).foldl (· * ·) 1 < 2 ^ 48
  && rd x (o + 72) 1 ≤ 1
  && (rd x (o + 72) 1 == 0 || (1 ≤ rd x (o + 73) 1 && rd x (o + 73) 1 ≤ 8 && rd x (o + 88) 8 % 8 == 0
      && nearAddrOk d (BitVec.ofNat 64 (rd x (o + 96) 8))))

/-- The values that Table 12-1 gives a variant entry at an offset. -/
def variantOk (v : List Byte) (o : Nat) : Bool :=
  rd v (o + 15) 1 ≤ 1 && 1 ≤ rd v (o + 24) 4 && rd v (o + 24) 4 ≤ 65536
  && rd v (o + 4) 4 == rd v (o + 8) 2 * (rd v (o + 10) 2 * rd v (o + 12) 2)

/-- Check 13. That the defined layout takes in the values that the tables state is the model's reading (log entry 70). -/
def othersOk (d : List Byte) : Bool :=
  let w := secOf d 4
  let l := secOf d 10
  let r := secOf d 6
  let t := secOf d 8
  let c := secOf d 5
  let v := secOf d 9
  lenIs d 4 16 32 (rd w 0 4) && rd w 0 4 ≤ 65536 && (planWindows d).all (fun q => q.scope ≤ 2)
  && lenIs d 10 16 16 (rd l 0 4) && rd l 0 4 ≤ 65536 && (planLatches d).all (fun e => e.2.1 ≤ 65535)
  && lenIs d 6 16 32 (rd r 0 4) && (List.range (rd r 0 4)).all (fun i => treeOk r (16 + 32 * i))
  && lenIs d 8 16 104 (rd t 0 4) && (List.range (rd t 0 4)).all (fun i => tensorOk d t (16 + 104 * i))
  && lenIs d 5 16 80 (rd c 0 2) && rd c 0 2 ≤ 4096 && rd c 2 1 ≤ 3
  && (List.range (collCount d)).all (fun i => collOk d (planColl d i))
  && (!secHas d 9 || (16 ≤ v.length && v.length == variantOfs v (rd v 0 4)
      && (List.range (rd v 0 4)).all fun i => variantOk v (variantOfs v i)))

/-- A Plan latch reference lies within the list of the context that holds its Plan pane. -/
def refHeld (s : State) (g : Group) (r : Nat) : Bool :=
  r == 0xFFFFFFFF || (fld r 27 16 == 0 && fld r 31 28 < bitCount g.members
    && fld r 15 0 < (pane s (planPane g (fld r 31 28))).latchList.length)

/-- Check 14. -/
def latchesOk (s : State) (g : Group) (d : List Byte) : Bool :=
  (planLatches d).all (fun e => e.1 < planPanes d && e.2.1 < (pane s (planPane g e.1)).latchList.length)
  && refHeld s g (planDoneLatch d)
  && (List.range (streamCount d)).all (fun i => refHeld s g (planStream d i).doneLatch)
  && (planExtents d).all (fun e => refHeld s g e.doneLatch)
  && (List.range (collCount d)).all fun i => refHeld s g (planColl d i).doneLatch

/-- Check 3: size and digest. -/
def digestOk (d : List Byte) (bulkLen : Nat) : Bool :=
  rd d 16 8 == d.length && d.length == bulkLen
  && sha256 (d.take 128 ++ zeros 32 ++ d.drop 160) == bytesAt d 128 32

/-- R127: the number of the first load check that a Plan fails. An annotation section with `REQUIRED` set, which
Table 05-4 says never occurs, is of a known type and is ignored (log entry 70). -/
def loadCheck (s : State) (g : Group) (d : List Byte) (bulkLen : Nat) : Option Nat :=
  let t (n : Nat) (ok : Bool) : Option Nat := if ok then none else some n
  [t 1 (rd d 0 4 == 0x4C505A4C && rd d 8 4 == 256), t 2 (rd d 4 2 == 1), t 3 (digestOk d bulkLen), t 4 (dirOk d),
   t 5 ((planSecs d).all fun x => secKnown x.type || 0x8000 ≤ x.type || !bitAt x.sflags 0), t 6 (capOk d),
   t 7 (planPanes d == bitCount g.members),
   t 8 ((List.range (planPanes d)).all fun k =>
      (List.range 32).all fun l => cellRecOk (planStepBeats d) (cellProgram d k) l),
   t 9 (slotsOk d),
   t 10 ((List.range 12).all fun u => slotsNeeded d u ≤ bitCount (allocOf s g (u / 2) (u % 2 == 1))),
   t 11 (mapOk s g d), t 12 (reservedOk d), t 13 (othersOk d), t 14 (latchesOk s g d)].findSome? id

end Sys2Proof.Machine
end

