-- ==== Sys2Proof/Machine/Near.lean ====
section
/-! DEFINITION. The near tier as its users meet it (R138 to R148): bytes and poison by line, corrected and uncorrectable
errors, the retirement of pseudo-channels and of cells (R67 to R71), and the commands of refresh, scrub, retry and
sparing. -/

namespace Sys2Proof.Machine

/-! ### Bytes and poison -/

/-- R139: the logical pseudo-channel of a near-tier offset. -/
def lpcOf (ofs : Nat) : Nat := (fld ofs 13 8).xor (fld ofs 19 14)

/-- R146: the physical pseudo-channel of an offset. -/
def physPc (m : NearTier) (ofs : Nat) : Nat := tblGet (lpcOf ofs) m.pcSub (lpcOf ofs)

/-- Line numbers of a range. -/
def nearLines (ofs n : Nat) : List Nat := (linesOf ofs n).map (· / 64)

/-- A line carries the poison pattern. -/
def isPoison (m : NearTier) (line : Nat) : Bool := tblGet false m.poison line

/-- A range holds a poisoned line. -/
def rangePoison (m : NearTier) (ofs n : Nat) : Bool :=
  m.poison.any fun e => e.2 && lineIn (64 * e.1) (ofs, n)

/-- One byte: in a range that the manual calls undefined, a free value until it is written. -/
def nearByte (m : NearTier) (a : Nat) : Byte :=
  match m.undef.find? fun r => r.ofs ≤ a && a < r.ofs + r.len && !r.skip.getLsbD (lpcOf a) with
  | some r => Config.freeByte r.tag a
  | none => memGet m.mem a

/-- The bytes of a range. -/
def nearGet (m : NearTier) (ofs n : Nat) : List Byte :=
  if m.undef.isEmpty then memRead m.mem ofs n else (List.range n).map fun i => nearByte m (ofs + i)

/-- A line lies wholly within a range. -/
def lineWhole (line ofs n : Nat) : Bool := ofs ≤ 64 * line && 64 * line + 64 ≤ ofs + n

/-- Bytes of a write from an offset on, those of a poisoned line that the write does not cover being lost. -/
def nearSkip (poison : Tbl Bool) (ofs n : Nat) : Mem → Nat → List Byte → Mem
  | m, _, [] => m
  | m, a, b :: r =>
    nearSkip poison ofs n
      (if tblGet false poison (a / 64) && !lineWhole (a / 64) ofs n then m else memSet m a b) (a + 1) r

/-- R142: a write: a whole line loses its poison; part of a poisoned line is lost. A scrub write-back due to a line that
the write reaches is cancelled (R143). -/
def nearPut (m0 : NearTier) (ofs : Nat) (d : List Byte) : NearTier :=
  let m := { m0 with
    undef := m0.undef.flatMap (cutRange ofs d.length)
    retries := m0.retries.filter fun r => !(r.2 && lineIn (64 * r.1) (ofs, d.length)) }
  if m.poison.isEmpty then { m with mem := memWrite m.mem ofs d }
  else { m with
    mem := nearSkip m.poison ofs d.length m.mem ofs d
    poison := m.poison.filter fun e => !lineWhole e.1 ofs d.length }

/-- The near tier of a pane. -/
def nearOf (s : State) (p : Nat) : NearTier := (pane s p).near

/-- The near tier of a pane changed. -/
def modNear (s : State) (p : Nat) (f : NearTier → NearTier) : State :=
  modPane s p fun x => { x with near := f x.near }

/-- Bytes read from a pane's near tier. -/
def nearRead (s : State) (p ofs n : Nat) : List Byte := nearGet (nearOf s p) ofs n

/-- Bytes written to a pane's near tier. -/
def nearWrite (s : State) (p ofs : Nat) (d : List Byte) : State := modNear s p fun m => nearPut m ofs d

/-- R138: a near-tier range lies below 48 GiB. -/
def nearOk (ofs n : Nat) : Bool := ofs + n ≤ nearBytes

/-! ### Retirement -/

/-- Cells of a pane not retired. -/
def usableCells (x : Pane) : Nat := 34 - bitCount x.retired

/-- R71, R148: the pane is short of cells or of pseudo-channels. -/
def paneShort (x : Pane) : Bool := usableCells x < 32 || x.near.short

/-- R71, R148: a pane of the group goes out of service: the group accepts no Plan. -/
def groupShort (s : State) (g : Group) : Bool := (maskPanes g.members).any fun p => paneShort (pane s p)

/-- The lowest spare of a range that is neither retired nor in use. -/
def freeSpare (lo n : Nat) (retired : Nat → Bool) (used : List Nat) : Option Nat :=
  ((List.range n).map (lo + ·)).find? fun i => !retired i && !used.contains i

/-- Spares of a pane's cells in use or being brought in. -/
def cellSparesUsed (x : Pane) : List Nat := x.cellSub.map Prod.snd ++ x.takeovers.map Prod.snd

/-- Spares of a pane's stack in use or being brought in. -/
def pcSparesUsed (m : NearTier) : List Nat := m.pcSub.map Prod.snd ++ m.copying.map fun c => c.2.1

/-- A pane that is short goes out of service: at once when it is free; a pane with a context once that context's
teardown, which this starts, has ended. -/
def goOutOfService (s : State) (p : Nat) : State :=
  let x := pane s p
  if x.state = .free then setPane s p { x with state := .outOfService }
  else if x.state = .opened then abortForEvent (askTeardown s p 2 true) p
  else s

/-- The logical cell that a physical cell holds. -/
def logicalOf (s : State) (p c : Nat) : Option Nat := (List.range 32).find? fun l => physOf s p l == c

/-- The counters of a source are dropped: a retired resource is no longer counted (R402). -/
def dropCount (s : State) (row index : Nat) : State :=
  { s with faults := { s.faults with windows := tblDel s.faults.windows (winKey row index) } }

/-- The logical cell that a physical cell holds, or is being brought in for (R67). -/
def numberOf (s : State) (p c : Nat) : Option Nat :=
  match (pane s p).takeovers.find? (·.2 == c) with
  | some t => some t.1
  | none => logicalOf s p c

/-- R67, R68: a physical cell is retired now: its contents are lost (R342), and the lowest free spare, zeroed, begins to
take its logical number. A spare that is itself retired while it is being brought in gives way to the next free one. -/
def substCell (s : State) (p c : Nat) : State :=
  let x := pane s p
  if x.retired.getLsbD c then s
  else
    let holder := numberOf s p c
    let spare := freeSpare 32 2 (x.retired.getLsbD ·) (c :: cellSparesUsed x)
    let others := x.takeovers.filter (·.2 != c)
    let x1 := { x with
      retired := x.retired ||| (1#34 <<< c), dueCells := x.dueCells.filter (·.1 != c)
      takeovers := (match holder, spare with
        | some l, some sp => others ++ [(l, sp)]
        | _, _ => others) }
    let s1 := setPhysCell (setPane s p x1) p c .reset
    let s2 := match spare with
      | some sp => if holder.isSome then setPhysCell s1 p sp .reset else s1
      | none => s1
    let s3 := dropCount (dropCount s2 rowC (unitIndex p c)) rowD (unitIndex p c)
    if paneShort x1 then goOutOfService s3 p else s3

/-- R69, R70: a cell declared faulty is retired at once, or, while its pane runs a Plan, when the Plan or the context
ends. -/
def retireCell (s : State) (p c : Nat) (uncorr : Bool) : State :=
  if (pane s p).retired.getLsbD c then s
  else if paneRunsPlan s p || (uncorr && (pane s p).shutter.isSome) then
    modPane s p fun x => { x with dueCells := x.dueCells.filter (·.1 != c) ++ [(c, uncorr)] }
  else substCell s p c

/-- The entries of a table whose near-tier offset (key x unit) lies outside a logical pseudo-channel. -/
def dropPc {β : Type} (unit l : Nat) (t : Tbl β) : Tbl β := t.filter fun e => lpcOf (unit * e.1) != l

/-- A stack without the contents of a logical pseudo-channel: every byte of it zero, no line poisoned. -/
def zeroPc (l : Nat) (m : NearTier) : NearTier :=
  { m with mem := dropPc 1 l m.mem, poison := dropPc 64 l m.poison
           undef := m.undef.map fun r => { r with skip := r.skip ||| (1#64 <<< l) } }

/-- R148, R342: a pseudo-channel is retired and no spare takes its number: its contents are lost, which leaves free values,
and the pane goes out of service. -/
def losePc (s : State) (p l pc : Nat) : State :=
  goOutOfService (modNear (tookFree s) p fun m =>
    let z := zeroPc l m
    { z with
      pcRetired := m.pcRetired ||| (1#68 <<< tblGet l m.pcSub l) ||| (1#68 <<< pc), short := true
      copying := m.copying.filter (·.1 != l), duePcs := m.duePcs.filter (·.1 != pc)
      undef := z.undef ++ [⟨0, nearBytes, s.free, ~~~(1#64 <<< l)⟩] }) p

/-- R146 to R148: a physical pseudo-channel is retired now: the lowest free spare begins to take its number, with its
contents copied or, with `drop`, zeroed. A spare retired while the copy to it runs gives way to the next free one; without
a free spare the pane goes out of service. -/
def substPc (s : State) (p pc : Nat) (drop : Bool) : State :=
  let m := nearOf s p
  let spare := freeSpare 64 4 (m.pcRetired.getLsbD ·) (pc :: pcSparesUsed m)
  match m.copying.find? (·.2.1 == pc) with
  | some (l, _, dr) => match spare with
    | some sp => modNear s p fun m =>
        { m with pcRetired := m.pcRetired ||| (1#68 <<< pc), duePcs := m.duePcs.filter (·.1 != pc)
                 copying := m.copying.map fun x => if x.2.1 = pc then (l, sp, dr || drop) else x }
    | none => losePc s p l pc
  | none => match (List.range 64).find? fun l => tblGet l m.pcSub l == pc with
    | none => modNear s p fun m => { m with pcRetired := m.pcRetired ||| (1#68 <<< pc) }
    | some l =>
      if m.copying.any (·.1 == l) then
        modNear s p fun m => { m with copying := m.copying.map fun x => if x.1 = l then (l, x.2.1, x.2.2 || drop) else x }
      else match spare with
        | some sp => modNear s p fun m =>
            { m with copying := m.copying ++ [(l, sp, drop)], duePcs := m.duePcs.filter (·.1 != pc) }
        | none => losePc s p l pc

/-- R147: a pseudo-channel declared faulty. -/
def retirePc (s : State) (p pc : Nat) (uncorr : Bool) : State :=
  if (nearOf s p).pcRetired.getLsbD pc then s
  else if paneRunsPlan s p then
    let s1 := modNear s p fun m => { m with duePcs := m.duePcs.filter (·.1 != pc) ++ [(pc, uncorr)] }
    if uncorr then contextFault s1 p fcPseudo (srcNear p) noCell 0 0 else s1
  else substPc s p pc uncorr

/-- R70, R147: a Plan of the pane has ended: what was declared on correctable errors while it ran is replaced. -/
def releaseDue (s : State) (p : Nat) : State :=
  let x := pane s p
  let s1 := (x.dueCells.filter fun c => !c.2).foldl (fun s c => substCell s p c.1) s
  (x.near.duePcs.filter fun c => !c.2).foldl (fun s c => substPc s p c.1 false) s1

/-! ### Errors -/

/-- R141, R402: a corrected near-tier error at an offset. -/
def nearCorrected (s : State) (p ofs : Nat) : State :=
  let pc := physPc (nearOf s p) ofs
  let s1 := modNear s p fun m => { m with ceCount := BitVec.ofNat 24 (satAdd 24 m.ceCount.toNat 1) }
  let s2 := record s1 0x0300 (srcNear p) p (stampBytes s.time.beat s.time.tick (srcNear p) ++ natLe 1 0 ++ natLe 2 pc)
  let bad := errorsCounted s2 rowB (unitIndex p pc)
  let r := countError s2 rowA (unitIndex p pc) 1
  if r.2 then retirePc r.1 p pc bad else r.1

/-- R142: a line that stays uncorrectable: it is poisoned and counted. -/
def nearUncorrectable (s : State) (p line : Nat) : State :=
  let pc := physPc (nearOf s p) (64 * line)
  let s1 := modNear s p fun m =>
    { m with poison := tblPut false m.poison line true, ueCount := BitVec.ofNat 16 (satAdd 16 m.ueCount.toNat 1)
             lastUePc := BitVec.ofNat 7 pc }
  let s2 := record s1 0x0301 (srcNear p) p (natLe 1 pc ++ natLe 8 (64 * line))
  let r := countError s2 rowB (unitIndex p pc) 1
  if r.2 then retirePc r.1 p pc true else r.1

/-- What a first read of a line reports: a corrected error is counted; an uncorrectable one calls for the retry of R142,
unless the line already carries poison. The answer says whether a retry is due. -/
def nearFirst (s : State) (p line : Nat) (scrub : Bool) : Ecc → State × Bool
  | .clean => (s, false)
  | .corrected => (nearCorrected s p (64 * line), false)
  | .uncorrectable =>
    if isPoison (nearOf s p) line then (s, false)
    else if (nearOf s p).retries.any (·.1 == line) then (s, true)
    else (modNear s p fun m => { m with retries := m.retries ++ [(line, scrub)] }, true)

/-- An error that a cell's own memories report (Table 16-2 rows C and D): a corrected one is counted; an uncorrectable
one is charged to the context (R401) and may retire the cell. -/
def cellEcc (s : State) (p l : Nat) : Ecc → State
  | .clean => s
  | .corrected =>
    let c := physOf s p l
    let s1 := record s 0x0300 (srcCell p c) p
      (stampBytes s.time.beat s.time.tick (srcCell p c) ++ natLe 1 1 ++ natLe 2 c)
    let bad := errorsCounted s1 rowD (unitIndex p c)
    let r := countError s1 rowC (unitIndex p c) 1
    if r.2 then retireCell r.1 p c bad else r.1
  | .uncorrectable =>
    let c := physOf s p l
    let s1 := cellFault s p l fcCellUncorr (cell s p l).pc 0
    let r := countError s1 rowD (unitIndex p c) 1
    if r.2 then retireCell r.1 p c true else r.1

/-! ### Commands -/

/-- `NEAR_READ_RETRY` (R142): the second read of a line, 64 cycles after a first read that could not be corrected. The
first read may be any requester's (a transfer, the scrubber, a remote operation, a ring engine, a storm copy, the merge of
a partial write: log entry 67). A line that already carries poison is not read again. -/
def execNearReadRetry (p : Pane16) (line : BitVec 30) (second : Ecc) (s : State) : Host.Outcome State Fault Refusal :=
  if nearBytes / 64 ≤ line.toNat || isPoison (nearOf s p.val) line.toNat then .next s
  else
    let s1 := modNear s p.val fun m => { m with retries := m.retries.filter (·.1 != line.toNat) }
    match second with
    | .uncorrectable => .next (nearUncorrectable s1 p.val line.toNat)
    | _ => .next (nearCorrected s1 p.val (64 * line.toNat))

/-- `SPARE_TAKEOVER_DONE` (R68): the oldest takeover ends: the spare holds the logical number. -/
def execSpareTakeoverDone (p : Pane16) (s : State) : Host.Outcome State Fault Refusal :=
  match (pane s p.val).takeovers with
  | [] => .next s
  | (l, sp) :: r =>
    .next (modPane s p.val fun x => { x with takeovers := r, cellSub := tblSet x.cellSub l sp })

/-- `REFRESH_SHADOW` (R144): a refresh keeps what the stack holds; it only delays other accesses. -/
def execRefreshShadow (_p : Pane16) (_quarter : Fin 4) (s : State) : Host.Outcome State Fault Refusal := .next s

/-- `SCRUB_BURST` (R143): the patrol scrubber reads a line. -/
def execScrubBurst (p : Pane16) (line : BitVec 30) (ecc : Ecc) (s : State) : Host.Outcome State Fault Refusal :=
  if line.toNat < nearBytes / 64 then .next (nearFirst s p.val line.toNat true ecc).1 else .next s

/-- `PC_COPY_DONE` (R147): the oldest copy or zeroing ends, and the spare holds the number. -/
def execPcCopyDone (p : Pane16) (s : State) : Host.Outcome State Fault Refusal :=
  match (nearOf s p.val).copying with
  | [] => .next s
  | (l, sp, drop) :: r =>
    let old := tblGet l (nearOf s p.val).pcSub l
    let s1 := modNear s p.val fun m =>
      let z := if drop then zeroPc l m else m
      { z with copying := r, pcSub := tblSet m.pcSub l sp, pcRetired := m.pcRetired ||| (1#68 <<< old) }
    .next (dropCount (dropCount s1 rowA (unitIndex p.val old)) rowB (unitIndex p.val old))

end Sys2Proof.Machine
end

