-- ==== Sys2Proof/Machine/Cells.lean ====
section
/-! DEFINITION. The issue of a cell's instructions (R51 to R53, R73, R545) and the rows of the classes `CTRL`, `SCALAR`,
`VMEM`, `VOP`, `VSF`, `VRED` and `RNG` (Table 03-9). A row is the instruction at the cell's `pc` when that instruction
is of the row; of any other instruction, and of a cell that issues nothing, it is no event, and the state stays. -/

namespace Sys2Proof.Machine

/-! ### Issue -/

/-- The instruction at a cell's `pc`. -/
def issueWord (c : Cell) : Nat := (tblGet (0 : BitVec 128) c.istore c.pc).toNat

/-- R56, R73, R52: the cell runs a block and nothing stops its issue. -/
def cellRuns (s : State) (p l : Nat) : Bool :=
  let c := cell s p l
  c.running && !c.halted && c.barrier.isNone && (pane s p).state == .opened && (pane s p).resetUntil.isNone
  && s.power.hubUp

/-- The cell can issue the instruction at its `pc`. -/
def canIssue (s : State) (p l : Nat) : Bool := cellRuns s p l && (cell s p l).pc < (cell s p l).instrCount

/-- The cell has gone past the instruction. -/
def stepPc (c : Cell) : Cell := { c with pc := c.pc + 1 }

/-- R107: flags of Table 04-6 set in a logical cell's `CELL_ARITH_FLAGS`. -/
def addFlags (s : State) (p l fl : Nat) : State :=
  if fl = 0 then s
  else modPane s p fun x => { x with arith := tblPut 0 x.arith l (tblGet 0 x.arith l ||| BitVec.ofNat 8 fl) }

/-- The outcome of a pure cell operation that has begun at instruction `index`. -/
def landOut (s : State) (p l index : Nat) : CellOut → State
  | .ok c fl => addFlags (setCell s p l c) p l fl
  | .fault code addr => cellFault s p l code index addr

/-- An instruction of a row issues: an illegal word faults (R52, R73), a busy token stalls (R53), and otherwise the
instruction acts. -/
def issueWith (row : Nat → Bool) (act : State → Nat → Nat → Nat → State) (s : State) (p l : Nat) : State :=
  let c := cell s p l
  let w := issueWord c
  if !canIssue s p l || !row w then s
  else if !wordLegal w then cellFault s p l fcIllegal c.pc 0
  else if namesToken w && tokenBusy c (wToken w) then s
  else act s p l w

/-- A pure operation as the act of an instruction. -/
def actCell (f : Nat → Cell → CellOut) (s : State) (p l w : Nat) : State :=
  let c := cell s p l
  landOut s p l c.pc (f w (stepPc c))

/-- A pure operation that reads the local store, where it may meet a drain in progress (R540). -/
def actRead (f : Nat → Nat → Cell → CellOut) (s : State) (p l w : Nat) : State :=
  let c := cell s p l
  landOut (if c.flights.isEmpty then s else tookFree s) p l c.pc (f s.free w (stepPc c))

/-- A row of a class and operation code in bits [123:120]. -/
def rowOp (cls op : Nat) (w : Nat) : Bool := wClass w == cls && wOp4 w == op

/-- A row of `VOP`. -/
def rowVop (op : Nat) (w : Nat) : Bool := wClass w == 5 && wVop w == op

/-- A row of `VSF`. -/
def rowVsf (fn : Nat) (w : Nat) : Bool := wClass w == 6 && fld w 123 122 == fn

/-- A row of `VRED`. -/
def rowVred (fn : Nat) (w : Nat) : Bool := wClass w == 7 && fld w 123 123 == fn

/-! ### `CTRL` -/

/-- `NOP`. -/
def execNop (p : Pane16) (c : LCell) (s : State) : Host.Outcome State Fault Refusal :=
  .next (issueWith (rowOp 0 0) (actCell fun _ c => .ok c 0) s p.val c.val)

/-- `LOOP` (R60, R74). -/
def execLoop (p : Pane16) (c : LCell) (s : State) : Host.Outcome State Fault Refusal :=
  .next (issueWith (rowOp 0 1) (actCell ctrlLoop) s p.val c.val)

/-- `ENDLOOP` (R74). -/
def execEndloop (p : Pane16) (c : LCell) (s : State) : Host.Outcome State Fault Refusal :=
  .next (issueWith (rowOp 0 2) (actCell ctrlEndloop) s p.val c.val)

/-- `SKIP` (R61). -/
def execSkip (p : Pane16) (c : LCell) (s : State) : Host.Outcome State Fault Refusal :=
  .next (issueWith (rowOp 0 3) (actCell ctrlSkip) s p.val c.val)

/-- `PSET`. -/
def execPset (p : Pane16) (c : LCell) (s : State) : Host.Outcome State Fault Refusal :=
  .next (issueWith (rowOp 0 4) (actCell ctrlPset) s p.val c.val)

/-- `END` (R56, R74). -/
def execEndBlock (p : Pane16) (c : LCell) (s : State) : Host.Outcome State Fault Refusal :=
  .next (issueWith (rowOp 0 5) (actCell fun _ c => ctrlEnd c) s p.val c.val)

/-! ### `SCALAR` -/

/-- Scalar add. -/
def execScalarAdd (p : Pane16) (c : LCell) (s : State) : Host.Outcome State Fault Refusal :=
  .next (issueWith (rowOp 1 0x0) (actCell (scalarAlu fun a b => a + b)) s p.val c.val)

/-- Scalar subtract. -/
def execScalarSubtract (p : Pane16) (c : LCell) (s : State) : Host.Outcome State Fault Refusal :=
  .next (issueWith (rowOp 1 0x1) (actCell (scalarAlu sub64)) s p.val c.val)

/-- Scalar and. -/
def execScalarAnd (p : Pane16) (c : LCell) (s : State) : Host.Outcome State Fault Refusal :=
  .next (issueWith (rowOp 1 0x2) (actCell (scalarAlu Nat.land)) s p.val c.val)

/-- Scalar or. -/
def execScalarOr (p : Pane16) (c : LCell) (s : State) : Host.Outcome State Fault Refusal :=
  .next (issueWith (rowOp 1 0x3) (actCell (scalarAlu Nat.lor)) s p.val c.val)

/-- Scalar exclusive or. -/
def execScalarXor (p : Pane16) (c : LCell) (s : State) : Host.Outcome State Fault Refusal :=
  .next (issueWith (rowOp 1 0x4) (actCell (scalarAlu Nat.xor)) s p.val c.val)

/-- Scalar shift left. -/
def execScalarShiftLeft (p : Pane16) (c : LCell) (s : State) : Host.Outcome State Fault Refusal :=
  .next (issueWith (rowOp 1 0x5) (actCell (scalarAlu shl64)) s p.val c.val)

/-- Scalar shift right, logical. -/
def execScalarShiftRightLogical (p : Pane16) (c : LCell) (s : State) : Host.Outcome State Fault Refusal :=
  .next (issueWith (rowOp 1 0x6) (actCell (scalarAlu shr64)) s p.val c.val)

/-- Scalar shift right, arithmetic. -/
def execScalarShiftRightArith (p : Pane16) (c : LCell) (s : State) : Host.Outcome State Fault Refusal :=
  .next (issueWith (rowOp 1 0x7) (actCell (scalarAlu sra64)) s p.val c.val)

/-- Scalar multiply, low 64 bits. -/
def execScalarMultiply (p : Pane16) (c : LCell) (s : State) : Host.Outcome State Fault Refusal :=
  .next (issueWith (rowOp 1 0x8) (actCell (scalarAlu fun a b => a * b)) s p.val c.val)

/-- Scalar set if less, signed. -/
def execScalarSetIfLessSigned (p : Pane16) (c : LCell) (s : State) : Host.Outcome State Fault Refusal :=
  .next (issueWith (rowOp 1 0x9) (actCell (scalarAlu slt64)) s p.val c.val)

/-- Scalar set if less, unsigned. -/
def execScalarSetIfLessUnsigned (p : Pane16) (c : LCell) (s : State) : Host.Outcome State Fault Refusal :=
  .next (issueWith (rowOp 1 0xA) (actCell (scalarAlu sltu64)) s p.val c.val)

/-- Scalar set if equal. -/
def execScalarSetIfEqual (p : Pane16) (c : LCell) (s : State) : Host.Outcome State Fault Refusal :=
  .next (issueWith (rowOp 1 0xB) (actCell (scalarAlu seq64)) s p.val c.val)

/-- Scalar move: the second operand. -/
def execScalarMove (p : Pane16) (c : LCell) (s : State) : Host.Outcome State Fault Refusal :=
  .next (issueWith (rowOp 1 0xC) (actCell (scalarAlu fun _ b => b)) s p.val c.val)

/-- Scalar load. -/
def execScalarLoad (p : Pane16) (c : LCell) (s : State) : Host.Outcome State Fault Refusal :=
  .next (issueWith (rowOp 1 0xD) (actRead scalarLoadOp) s p.val c.val)

/-- Scalar store. -/
def execScalarStore (p : Pane16) (c : LCell) (s : State) : Host.Outcome State Fault Refusal :=
  .next (issueWith (rowOp 1 0xE) (actCell scalarStoreOp) s p.val c.val)

/-! ### `VMEM` -/

/-- Vector load. An error of the local store that the load meets is counted, and an uncorrectable one is charged to the
context instead of the load (R69, Table 16-2 rows C and D). -/
def execVmemLoad (p : Pane16) (c : LCell) (ecc : Ecc) (s : State) : Host.Outcome State Fault Refusal :=
  if !canIssue s p.val c.val || !rowOp 4 0 (issueWord (cell s p.val c.val)) then .next s
  else
    let s1 := cellEcc s p.val c.val ecc
    .next (issueWith (rowOp 4 0) (actRead fun fr w x => vloadAt (laneAddr w x) fr w x) s1 p.val c.val)

/-- Vector store. -/
def execVmemStore (p : Pane16) (c : LCell) (s : State) : Host.Outcome State Fault Refusal :=
  .next (issueWith (rowOp 4 1) (actCell fun w x => vstoreAt (laneAddr w x) w x) s p.val c.val)

/-- Strided load. -/
def execStridedLoad (p : Pane16) (c : LCell) (s : State) : Host.Outcome State Fault Refusal :=
  .next (issueWith (rowOp 4 2) (actRead fun fr w x => vloadAt (strideAddr w x) fr w x) s p.val c.val)

/-- Strided store. -/
def execStridedStore (p : Pane16) (c : LCell) (s : State) : Host.Outcome State Fault Refusal :=
  .next (issueWith (rowOp 4 3) (actCell fun w x => vstoreAt (strideAddr w x) w x) s p.val c.val)

/-- Local gather (R63). -/
def execLocalGather (p : Pane16) (c : LCell) (s : State) : Host.Outcome State Fault Refusal :=
  .next (issueWith (rowOp 4 4) (actRead fun fr w x => vloadAt (gatherAddr w x) fr w x) s p.val c.val)

/-- `LDSPLIT` (R104). -/
def execLdsplit (p : Pane16) (c : LCell) (s : State) : Host.Outcome State Fault Refusal :=
  .next (issueWith (rowOp 4 5) (actRead ldsplitOp) s p.val c.val)

/-- `STSPLIT` (R104). -/
def execStsplit (p : Pane16) (c : LCell) (s : State) : Host.Outcome State Fault Refusal :=
  .next (issueWith (rowOp 4 6) (actCell stsplitOp) s p.val c.val)

/-! ### `VOP` -/

/-- Vector add (R96). -/
def execVopAdd (p : Pane16) (c : LCell) (s : State) : Host.Outcome State Fault Refusal :=
  .next (issueWith (rowVop 0x00) (actCell (vop2 f32Add)) s p.val c.val)

/-- Vector subtract. -/
def execVopSubtract (p : Pane16) (c : LCell) (s : State) : Host.Outcome State Fault Refusal :=
  .next (issueWith (rowVop 0x01) (actCell (vop2 f32Sub)) s p.val c.val)

/-- Vector multiply. -/
def execVopMultiply (p : Pane16) (c : LCell) (s : State) : Host.Outcome State Fault Refusal :=
  .next (issueWith (rowVop 0x02) (actCell (vop2 f32Mul)) s p.val c.val)

/-- Fused multiply-add. -/
def execFusedMultiplyAdd (p : Pane16) (c : LCell) (s : State) : Host.Outcome State Fault Refusal :=
  .next (issueWith (rowVop 0x03) (actCell vopFma) s p.val c.val)

/-- Vector minimum. -/
def execVopMinimum (p : Pane16) (c : LCell) (s : State) : Host.Outcome State Fault Refusal :=
  .next (issueWith (rowVop 0x04) (actCell (vop2 (f32MinMax false))) s p.val c.val)

/-- Vector maximum. -/
def execVopMaximum (p : Pane16) (c : LCell) (s : State) : Host.Outcome State Fault Refusal :=
  .next (issueWith (rowVop 0x05) (actCell (vop2 (f32MinMax true))) s p.val c.val)

/-- Compare equal. -/
def execCompareEqual (p : Pane16) (c : LCell) (s : State) : Host.Outcome State Fault Refusal :=
  .next (issueWith (rowVop 0x06) (actCell (vopCompare .eq)) s p.val c.val)

/-- Compare less. -/
def execCompareLess (p : Pane16) (c : LCell) (s : State) : Host.Outcome State Fault Refusal :=
  .next (issueWith (rowVop 0x07) (actCell (vopCompare .lt)) s p.val c.val)

/-- Compare less or equal. -/
def execCompareLessOrEqual (p : Pane16) (c : LCell) (s : State) : Host.Outcome State Fault Refusal :=
  .next (issueWith (rowVop 0x08) (actCell (vopCompare .le)) s p.val c.val)

/-- Convert (R91 to R95, R538). -/
def execConvert (p : Pane16) (c : LCell) (s : State) : Host.Outcome State Fault Refusal :=
  .next (issueWith (rowVop 0x09) (actCell vopConvert) s p.val c.val)

/-- Vector move. -/
def execVopMove (p : Pane16) (c : LCell) (s : State) : Host.Outcome State Fault Refusal :=
  .next (issueWith (rowVop 0x0A) (actCell vopMoveOp) s p.val c.val)

/-! ### `VSF`, `VRED`, `RNG` -/

/-- `EXP2` (R97). -/
def execExp2 (p : Pane16) (c : LCell) (s : State) : Host.Outcome State Fault Refusal :=
  .next (issueWith (rowVsf 0) (actCell (vsfOp 0)) s p.val c.val)

/-- `LOG2`. -/
def execLog2 (p : Pane16) (c : LCell) (s : State) : Host.Outcome State Fault Refusal :=
  .next (issueWith (rowVsf 1) (actCell (vsfOp 1)) s p.val c.val)

/-- `RCP`. -/
def execRcp (p : Pane16) (c : LCell) (s : State) : Host.Outcome State Fault Refusal :=
  .next (issueWith (rowVsf 2) (actCell (vsfOp 2)) s p.val c.val)

/-- `RSQRT`. -/
def execRsqrt (p : Pane16) (c : LCell) (s : State) : Host.Outcome State Fault Refusal :=
  .next (issueWith (rowVsf 3) (actCell (vsfOp 3)) s p.val c.val)

/-- Lane sum (R50). -/
def execLaneSum (p : Pane16) (c : LCell) (s : State) : Host.Outcome State Fault Refusal :=
  .next (issueWith (rowVred 0) (actCell (vredOp f32Add 0)) s p.val c.val)

/-- Lane maximum (R50). -/
def execLaneMaximum (p : Pane16) (c : LCell) (s : State) : Host.Outcome State Fault Refusal :=
  .next (issueWith (rowVred 1) (actCell (vredOp (f32MinMax true) 0xFF800000)) s p.val c.val)

/-- `RNG` (R99, R100). -/
def execRng (p : Pane16) (c : LCell) (s : State) : Host.Outcome State Fault Refusal :=
  .next (issueWith (fun w => wClass w == 0xB) (actCell fun w x => rngOp x.k0 x.k1 x.jobStep w x) s p.val c.val)

/-! ### Faults of issue -/

/-- R52, R73: a reserved class code, or an operation code that Table 03-9 does not list. -/
def rowUnlisted (w : Nat) : Bool := (namedBits w).isNone

/-- `RESERVED_CLASS` (R52). -/
def execReservedClass (p : Pane16) (c : LCell) (s : State) : Host.Outcome State Fault Refusal :=
  .next (issueWith rowUnlisted (fun s _ _ _ => s) s p.val c.val)

/-- `ISSUE_PAST_PROGRAM` (R545). -/
def execIssuePastProgram (p : Pane16) (c : LCell) (s : State) : Host.Outcome State Fault Refusal :=
  let x := cell s p.val c.val
  if cellRuns s p.val c.val && x.instrCount ≤ x.pc then .next (cellFault s p.val c.val fcIllegal x.pc 0) else .next s

end Sys2Proof.Machine
end

