-- ==== Sys2Proof/Machine/Tensor.lean ====
section
/-! DEFINITION. The tensor array's instructions (R45 to R49, R79 to R90, R539, R540, R543): `TMM` and `TDRAIN` at their
issue and at their completion. -/

namespace Sys2Proof.Machine

/-- R90: the exact BF16 mode of a pane's group. -/
def groupExact (s : State) (p : Nat) : Bool := match groupOf s p with
  | some g => g.exactBf16
  | none => false

/-- The `TMM` that a word and the registers give. -/
def mkTmm (exact : Bool) (w : Nat) (c : Cell) : TmmOp :=
  let mr := fld w 73 69
  let masked := bitAt w 121
  { word := BitVec.ofNat 128 w, exact := exact, a := sreg c (fld w 98 94), b := sreg c (fld w 93 89)
    asc := sreg c (fld w 88 84), bsc := sreg c (fld w 83 79), anc := sreg c (fld w 78 74)
    rowMask := if masked then BitVec.ofNat 128 (sreg c mr + 2 ^ 64 * sreg c (mr + 1)) else BitVec.allOnes 128
    colMask := if masked then BitVec.ofNat 64 (sreg c (mr + 2)) else BitVec.allOnes 64, olds := [] }

/-- R539: the mode a `TMM` leaves its set in, in issue order, or none where it is illegal. -/
def tmmIssue (exact : Bool) (w : Nat) (c : Cell) : Option AccMode :=
  let have' := issMode c (bitAt w 123)
  let fa := fld w 113 110
  if fa = 10 then (if have' = .long then some .long else none)
  else
    let want := tmmMode exact fa
    if bitAt w 122 && have' != want then none else some want

/-- The first of a list of ranges that leaves the local store. -/
def badRange (rs : List (Nat × Nat)) : Option Nat := (rs.find? fun r => !localOk r.1 r.2).map Prod.fst

/-- A `TMM` issues. -/
def issueTmm (exact : Bool) (w : Nat) (c : Cell) : CellOut :=
  match tmmIssue exact w c with
  | none => .fault fcIllegal
  | some m =>
    let op := mkTmm exact w c
    match badRange (tmmRanges op) with
    | some a => .fault fcAddress a
    | none =>
      .ok (addFlight (takeToken (setIssMode c (bitAt w 123) m) (wToken w)) (wToken w) (.tmm op)) 0

/-- `TMM` (R79). -/
def execTmm (p : Pane16) (c : LCell) (s : State) : Host.Outcome State Fault Refusal :=
  .next (issueWith (fun w => wClass w == 2) (actCell (issueTmm (groupExact s p.val))) s p.val c.val)

/-- The flight of a cell that holds a token. -/
def flightOf (c : Cell) (t : Nat) : Option Flight := c.flights.find? (·.token == t)

/-- R47: the array works on one `TMM` at a time, in order. -/
def noTmmBefore (fs : List Flight) : Bool := !fs.any fun f => match f.kind with
  | .tmm _ => true
  | _ => false

/-- R49: drains follow one another. -/
def noDrainBefore (fs : List Flight) : Bool := !fs.any fun f => match f.kind with
  | .tdrain _ => true
  | _ => false

/-- The pane's cells still work: its context has not yet been shuttered. -/
def cellAlive (s : State) (p : Nat) : Bool :=
  ((pane s p).state == .opened || (pane s p).state == .teardown) && s.power.hubUp

/-- `TMM_COMPLETE` (R47, R540): the oldest `TMM` ends. -/
def execTmmComplete (p : Pane16) (c : LCell) (token : BitVec 6) (s : State) : Host.Outcome State Fault Refusal :=
  let x := cell s p.val c.val
  match flightOf x token.toNat with
  | some { token := t, kind := .tmm op, index := i } =>
    if cellAlive s p.val && noTmmBefore (flightsBefore x t) then
      .next (landOut (tookFree s) p.val c.val i (finishTmm x s.free t op))
    else .next s
  | _ => .next s

/-- The `TDRAIN` that a word and the registers give. -/
def mkDrain (w : Nat) (c : Cell) : DrainOp :=
  { word := BitVec.ofNat 128 w, dst := sreg c (fld w 106 102), sc := sreg c (fld w 101 97)
    mxsc := sreg c (fld w 96 92), anc := sreg c (fld w 91 87), idxBase := sreg c (fld w 86 82)
    idxRow := sreg c (fld w 81 77), step := c.jobStep, k0 := c.k0, k1 := c.k1, snap := none, hits := [] }

/-- The range of the FP32 scales of a drain. -/
def drainScales (op : DrainOp) : List (Nat × Nat) :=
  let w := op.word.toNat
  if fld w 113 110 = 10 || fld w 109 108 = 0 then []
  else [(op.sc, if fld w 109 108 = 1 then 512 else 256)]

/-- A `TDRAIN` issues (R539, R73, R100). -/
def issueDrain (w : Nat) (c : Cell) : CellOut :=
  let m := issMode c (bitAt w 123)
  let op := mkDrain w c
  if m = .empty || (fld w 113 110 == 10 && m == .fp32) then .fault fcIllegal
  else match badRange (drainRanges op ++ drainScales op) with
    | some a => .fault fcAddress a
    | none =>
      if fld w 113 110 != 10 && fld w 122 121 == 2 && 2 ^ 48 ≤ op.idxBase + 127 * op.idxRow + 63 then .fault fcArith
      else .ok (addFlight (takeToken c (wToken w)) (wToken w) (.tdrain op)) 0

/-- `TDRAIN` (R49). -/
def execTdrain (p : Pane16) (c : LCell) (s : State) : Host.Outcome State Fault Refusal :=
  .next (issueWith (fun w => wClass w == 3) (actCell issueDrain) s p.val c.val)

/-- `TDRAIN_COMPLETE` (R48, R540): the oldest drain, once it has read its set, has written its output. -/
def execTdrainComplete (p : Pane16) (c : LCell) (token : BitVec 6) (s : State) : Host.Outcome State Fault Refusal :=
  let x := cell s p.val c.val
  match flightOf x token.toNat with
  | some { token := t, kind := .tdrain op, index := i } =>
    if cellAlive s p.val && noDrainBefore (flightsBefore x t) then
      match drainSource x (flightsBefore x t) op with
      | some set => .next (landOut (tookFree s) p.val c.val i (finishDrain x s.free t op set))
      | none => .next s
    else .next s
  | _ => .next s

end Sys2Proof.Machine
end

