-- ==== Sys2Proof/Machine/Dma.lean ====
section
/-! DEFINITION. The `DMA` class (R63 to R65, R73, R137, R138, R541): transfers at their issue and at their completion.
A transfer's bytes are read and written at its completion, in one step. -/

namespace Sys2Proof.Machine

/-- The longest transfer (R73). -/
def dmaMax : Nat := 6291456

/-- R63, R137, R138: a 64-bit address names `n` bytes of the near tier of pane `p` of this module. -/
def ownNear (s : State) (p a n : Nat) : Bool :=
  let g := BitVec.ofNat 64 a
  gaDevice g == (moduleId s).toNat && gaPane g == p && gaTier g == 0 && nearOk (gaOfs g) n

/-- R63: the range lies within one `MEMORY_MAP` range that the Plan gives the pane. -/
def inMemoryMap (s : State) (p ofs n : Nat) : Bool :=
  match groupOf s p with
  | none => false
  | some g => match g.plan with
    | none => false
    | some d => (planRanges d).any fun r =>
        gaPane r.base == planPaneNo g p && gaOfs r.base ≤ ofs && ofs + n ≤ gaOfs r.base + r.length

/-- The near-tier pieces of a transfer: offset and length. -/
def dmaPieces (op : DmaOp) : List (Nat × Nat) :=
  let w := op.word.toNat
  match wOp4 w with
  | 0 => [(gaOfs (BitVec.ofNat 64 op.remote), op.len)]
  | 1 => [(gaOfs (BitVec.ofNat 64 op.remote), op.len)]
  | 4 => op.offsets.map fun o => (gaOfs (BitVec.ofNat 64 (op.remote + o)), gatherSize w)
  | _ => []

/-- A transfer of operations 0x0 to 0x3 as the registers give it. -/
def mkDma (w : Nat) (c : Cell) : DmaOp :=
  { word := BitVec.ofNat 128 w, loc := sreg c (fld w 113 109), remote := sreg c (fld w 108 104)
    len := sreg c (fld w 103 99), offsets := [] }

/-- A gather as the registers and its offset list give it. -/
def mkGather (fr w : Nat) (c : Cell) : DmaOp :=
  let n := fld w 93 82 + 1
  let d := readLocal c fr (sreg c (fld w 79 75)) (8 * n)
  { word := BitVec.ofNat 128 w, loc := sreg c (fld w 113 109), remote := sreg c (fld w 108 104)
    len := n * gatherSize w, offsets := (List.range n).map fun i => leAt d (8 * i) 8 }

/-- The transfer joins the cell's flights. -/
def startDma (w : Nat) (op : DmaOp) (c : Cell) : CellOut :=
  .ok (addFlight (takeToken c (wToken w)) (wToken w) (.dma op)) 0

/-- Issue of operations 0x0 to 0x3, given the test of the far end. -/
def issueDma (farOk : Nat → Nat → Bool) (w : Nat) (c : Cell) : CellOut :=
  let op := mkDma w c
  if op.len = 0 || dmaMax < op.len then .fault fcAddress
  else if !localOk op.loc op.len then .fault fcAddress op.loc
  else if !farOk op.remote op.len then .fault fcAddress op.remote
  else startDma w op c

/-- Issue of a gather. -/
def issueGather (s : State) (p fr w : Nat) (c : Cell) : CellOut :=
  let n := fld w 93 82 + 1
  let tab := sreg c (fld w 79 75)
  if !localOk tab (8 * n) then .fault fcAddress tab
  else
    let op := mkGather fr w c
    if !localOk op.loc op.len then .fault fcAddress op.loc
    else match op.offsets.find? fun o =>
        let a := (op.remote + o) % 2 ^ 64
        !(ownNear s p a (gatherSize w) && inMemoryMap s p (gaOfs (BitVec.ofNat 64 a)) (gatherSize w)) with
      | some o => .fault fcAddress ((op.remote + o) % 2 ^ 64)
      | none => startDma w op c

/-- `NEAR_TIER_LOAD`. -/
def execNearTierLoad (p : Pane16) (c : LCell) (s : State) : Host.Outcome State Fault Refusal :=
  .next (issueWith (rowOp 8 0) (actCell (issueDma (ownNear s p.val))) s p.val c.val)

/-- `NEAR_TIER_STORE`. -/
def execNearTierStore (p : Pane16) (c : LCell) (s : State) : Host.Outcome State Fault Refusal :=
  .next (issueWith (rowOp 8 1) (actCell (issueDma (ownNear s p.val))) s p.val c.val)

/-- `LOCAL_MOVE`. -/
def execLocalMove (p : Pane16) (c : LCell) (s : State) : Host.Outcome State Fault Refusal :=
  .next (issueWith (rowOp 8 2) (actCell (issueDma localOk)) s p.val c.val)

/-- `EXCHANGE` (R65). -/
def execExchange (p : Pane16) (c : LCell) (s : State) : Host.Outcome State Fault Refusal :=
  .next (issueWith (rowOp 8 3) (actCell (issueDma localOk)) s p.val c.val)

/-- `NEAR_TIER_GATHER` (R63). -/
def execNearTierGather (p : Pane16) (c : LCell) (s : State) : Host.Outcome State Fault Refusal :=
  .next (issueWith (rowOp 8 4) (actRead (issueGather s p.val)) s p.val c.val)

/-! ### Completion -/

/-- The bytes a move delivers: where source and destination overlap without being equal, the manual gives no order of
reading and writing, and a byte whose source the move itself writes is free. -/
def moveBytes (fr : Nat) (overlaps : Bool) (src dst n : Nat) (d : List Byte) : List Byte :=
  if !overlaps || src = dst then d
  else d.zipIdx.map fun b => if dst ≤ src + b.2 && src + b.2 < dst + n then Config.freeByte fr b.2 else b.1

/-- The cell that has finished a transfer: its token is set. -/
def endFlight (c : Cell) (t : Nat) : Cell := giveToken (dropFlight c t) t

/-- A finished load or gather: poison faults the context (R142); otherwise the bytes land in the local store. -/
def landLoad (s : State) (p l t i : Nat) (op : DmaOp) : State :=
  let m := nearOf s p
  let ps := dmaPieces op
  match ps.find? fun q => rangePoison m q.1 q.2 with
  | some q => cellFault s p l fcPoison i (mkGa (moduleId s).toNat p 0 q.1).toNat
  | none => modCell s p l fun c => endFlight (writeLocal c op.loc (ps.flatMap fun q => nearGet m q.1 q.2)) t

/-- A finished store. -/
def landStore (s : State) (p l t : Nat) (op : DmaOp) : State :=
  let c := cell s p l
  let d := readLocal c s.free op.loc op.len
  modCell (nearWrite s p (gaOfs (BitVec.ofNat 64 op.remote)) d) p l (endFlight · t)

/-- A finished move or exchange. -/
def landMove (s : State) (p l t target : Nat) (op : DmaOp) : State :=
  let d := moveBytes s.free (target == l) op.loc op.remote op.len (readLocal (cell s p l) s.free op.loc op.len)
  modCell (modCell s p target fun c => writeLocal c op.remote d) p l (endFlight · t)

/-- A finished transfer. -/
def landDma (s : State) (p l t i : Nat) (op : DmaOp) : State :=
  let w := op.word.toNat
  match wOp4 w with
  | 1 => landStore s p l t op
  | 2 => landMove s p l t l op
  | 3 => landMove s p l t (fld w 98 94) op
  | _ => landLoad s p l t i op

/-- `DMA_COMPLETE` (R541). `err` is a line at which a near-tier access of the transfer met an error: the transfer goes
on once the retry of R142 has settled the line. -/
def execDmaComplete (p : Pane16) (c : LCell) (token : BitVec 6) (err : Option (BitVec 30 × Ecc)) (s : State) :
    Host.Outcome State Fault Refusal :=
  match flightOf (cell s p.val c.val) token.toNat with
  | some { token := t, kind := .dma op, index := i } =>
    let touches (line : Nat) : Bool := (dmaPieces op).any (lineIn (64 * line))
    if !cellAlive s p.val || (nearOf s p.val).retries.any fun r => touches r.1 then .next s
    else
      let r := match err with
        | some (line, e) => if touches line.toNat then nearFirst s p.val line.toNat false e else (s, false)
        | none => (s, false)
      if r.2 then .next r.1 else .next (landDma (tookFree r.1) p.val c.val t i op)
  | _ => .next s

end Sys2Proof.Machine
end

