-- ==== Sys2Proof/Machine/Remote.lean ====
section
/-! DEFINITION. Remote memory operations as the hub carries them (08_remote_ops_and_latches.md): addresses (R188, R316),
messages and their delivery (R197, R198, R249 to R252), responses, refusals, and the completion of an operation at its
source (R190, R191). -/

namespace Sys2Proof.Machine

/-! ### Completion codes (Table 08-4) -/

/-- `OK`. -/
def cOk : Nat := 0x00
/-- `OK_ORPHANED`. -/
def cOrphaned : Nat := 0x01
/-- `NACK_NO_WINDOW`. -/
def cNoWindow : Nat := 0x10
/-- `NACK_RANGE`. -/
def cRange : Nat := 0x11
/-- `NACK_UNAVAILABLE`. -/
def cUnavailable : Nat := 0x12
/-- `NACK_NOT_HOLDER`. -/
def cNotHolder : Nat := 0x13
/-- `ERR_POISON`. -/
def cPoison : Nat := 0x20
/-- `ERR_TIMEOUT`. -/
def cTimeout : Nat := 0x21

/-- `OK` and `OK_ORPHANED`. -/
def codeOk (c : Nat) : Bool := c ≤ cOrphaned

/-- A completion record (Table 08-3). -/
def recordBytes (s : State) (code : Nat) (result : BitVec 64) : List Byte :=
  natLe 16 (s.time.beat % 2 ^ 48 + code * 2 ^ 56 + (if codeOk code then result.toNat else 0) * 2 ^ 64)

/-! ### Panes, groups and addresses -/

/-- The remote-operation state of a pane controller. -/
def rmoOf (s : State) (p : Nat) : RmoUnit := (pane s p).rmo

/-- The remote-operation state of a pane controller changed. -/
def modRmo (s : State) (p : Nat) (f : RmoUnit → RmoUnit) : State :=
  modPane s p fun x => { x with rmo := f x.rmo }

/-- R204: the group of a pane seals its frames. -/
def groupSealed (s : State) (p : Nat) : Bool := match groupOf s p with
  | some g => g.isSealed
  | none => false

/-- R188: the group bound to a job tag: the one of lowest lead. -/
def groupOfTag (s : State) (tag : BitVec 32) : Option Group :=
  (List.range 16).findSome? fun p => match groupLed s p with
    | some g => if groupTag s g == tag then some g else none
    | none => none

/-- R198, check 1 of Table 08-7: the pane is out of reset and its context is not being torn down. -/
def paneLive (s : State) (p : Nat) : Bool :=
  let x := pane s p
  x.resetUntil.isNone && x.state != .teardown && x.state != .shuttering

/-- R188: the pane a message is for; none when no group pane answers a Plan pane number. -/
def targetPane (s : State) (m : Msg) : Option Nat :=
  if m.torusRel then
    match groupOfTag s m.jobTag with
    | some g => nthBit g.members (gaPane m.target)
    | none => none
  else some (gaPane m.target)

/-- The result of resolving the `DEVICE` of an address. -/
inductive Resolved where
  /-- A module identifier. -/
  | device (d : BitVec 16)
  /-- No module answers it. -/
  | nowhere
  /-- Past the end of a folded axis (R316). -/
  | pastEnd
  deriving DecidableEq, Repr

/-- One coordinate of a relative address; none past the end of a folded axis. -/
def relCoord (fold : Bool) (n here : Nat) (d : Int) : Option Nat :=
  let c := (here : Int) + d
  if fold then (if decide (0 ≤ c) && decide (c < n) then some c.toNat else none)
  else if n = 0 then none else some (c % (n : Int)).toNat

/-- R188, R316: relative offsets resolved in a shape, from a module's own coordinates. -/
def relResolve (fold : Nat) (shape here : Nat × Nat × Nat) (dev : Nat) (find : Nat × Nat × Nat → Option (BitVec 16)) :
    Resolved :=
  match relCoord (bitAt fold 0) shape.1 here.1 (toSigned 6 (fld dev 15 10)),
        relCoord (bitAt fold 1) shape.2.1 here.2.1 (toSigned 5 (fld dev 9 5)),
        relCoord (bitAt fold 2) shape.2.2 here.2.2 (toSigned 5 (fld dev 4 0)) with
  | some x, some y, some z => match find (x, y, z) with
    | some d => .device d
    | none => .nowhere
  | _, _, _ => .pastEnd

/-- Coordinates of an index of a job map (R313). -/
def mapCoord (shape : Nat × Nat × Nat) (i : Nat) : Nat × Nat × Nat :=
  (i % shape.1, i / shape.1 % shape.2.1, i / shape.1 / shape.2.1)

/-- Index of coordinates in a job map. -/
def mapIndex (shape : Nat × Nat × Nat) (c : Nat × Nat × Nat) : Nat := c.1 + shape.1 * (c.2.1 + shape.2.1 * c.2.2)

/-- The place of an identifier in a list. -/
def idxOfDev (l : List (BitVec 16)) (d : BitVec 16) : Option Nat :=
  (l.zipIdx.find? fun e => e.1 == d).map Prod.snd

/-- R188: the module that an address names; relative offsets go through the job map (R316), or, in a group without one,
through the coordinate table. -/
def resolveDevice (s : State) (p : Nat) (rel : Bool) (a : BitVec 64) : Resolved :=
  let dev := gaDevice a
  if !rel then .device (BitVec.ofNat 16 dev)
  else match (groupOf s p).bind (·.jobMap) with
    | some j => match idxOfDev j.entries (moduleId s) with
      | some i => relResolve j.fold.toNat j.shape (mapCoord j.shape i) dev fun c => j.entries[mapIndex j.shape c]?
      | none => .nowhere
    | none => match coordOf s (moduleId s) with
      | some e => relResolve 0 (axisLen s 0, axisLen s 1, axisLen s 2) (e.x, e.y, e.z) dev fun c =>
          (s.links.coord.find? fun x => (x.x, x.y, x.z) == c).map (·.device)
      | none => .nowhere

/-! ### Refusals (R196, R249 to R252) -/

/-- Slots that messages of some sizes take in a row, none spanning two slots (R197). -/
def packSlots (cap : Nat) : List Nat → Nat → Nat
  | [], used => if used = 0 then 0 else 1
  | n :: r, used => if used ≠ 0 && cap < used + n then 1 + packSlots cap r n else packSlots cap r (used + n)

/-- R251: slots that the messages of a queue take: those for one port, and in a sealed group for one module, share
slots. -/
def slotsQueued (s : State) (p : Nat) (q : List OutMsg) : Nat :=
  let key (m : OutMsg) : Nat := if groupSealed s p then m.device.toNat else (routePort s m.device).getD 6
  (((q.map key).eraseDups).map fun k =>
    packSlots (slotData (groupSealed s p)) ((q.filter fun m => key m == k).map fun m => (msgBytes m.msg).length) 0).foldl
      (· + ·) 0

/-- R251: the retry-at beat, `q` slots being queued ahead. -/
def retryBeat (s : State) (q : Nat) (device : BitVec 16) (tag : BitVec 32) : Nat :=
  s.time.beat + min 1024 (ceilDiv q (slotsNow s) + (device.toNat.xor (tag.toNat % 65536)) % 8)

/-- R468: a refusal is charged to the source pane when it is on this module, else to the operator. -/
def chargeSource (s : State) (device : BitVec 16) (p : Nat) : State :=
  meterRefusal s (if device == moduleId s then p else 16)

/-- R250: the target refuses a request: the refusal goes to the source's pane controller. -/
def refuseMsg (s : State) (m : Msg) (q : Nat) : State :=
  let r : RefusalMsg :=
    { srcDevice := m.srcDevice, srcPane := m.srcPane, tag := m.tag, retryAt := retryBeat s q m.srcDevice m.tag }
  let s1 := chargeSource s m.srcDevice m.srcPane.toNat
  if m.srcDevice == moduleId s then modRmo s1 m.srcPane.toNat fun u => { u with refQ := u.refQ ++ [r] }
  else sendMgmt s1 m.srcDevice (refusalBytes s r)

/-! ### Responses -/

/-- R249: responses enter their injection queue as far as it holds them. -/
def fillResponses (u : RmoUnit) : RmoUnit :=
  let room := 64 - u.injResp.length
  { u with injResp := u.injResp ++ u.respRest.take room, respRest := u.respRest.drop room }

/-- A response leaves a pane for the source of its request: on this module it reaches the source's pane controller. -/
def sendResponse (s : State) (p : Nat) (r : Msg) : State :=
  if r.srcDevice == moduleId s then modRmo s r.srcPane.toNat fun u => { u with respQ := u.respQ ++ [r] }
  else modRmo s p fun u => fillResponses { u with respRest := u.respRest ++ [{ device := r.srcDevice, msg := r }] }

/-- R190: the answer to a request. -/
def respond (s : State) (p : Nat) (m : Msg) (code : Nat) (data : List Byte) (result : Option (BitVec 64)) : State :=
  sendResponse s p { m with
    isResponse := true, code := BitVec.ofNat 8 code, data := data, result := result, isSealed := false, srcPlan := none }

/-- A `NACK_` of a pane is counted (Table 08-11). -/
def countNack (s : State) (p code : Nat) : State :=
  if cNoWindow ≤ code && code < cPoison then
    modRmo s p fun u => { u with nacksIn := BitVec.ofNat 16 (satAdd 16 u.nacksIn.toNat 1) }
  else s

/-- The answer with a failing code. On the wire it carries the `DATA_BYTES` of its operation (R197), whose contents are
free. -/
def respondCode (s : State) (p : Nat) (m : Msg) (code : Nat) : State :=
  let n := if m.srcDevice == moduleId s then 0
           else msgDataBytes (groupSealed s p) m.op.toNat true m.length.toNat m.fragOfs.toNat
  let s1 := countNack s p code
  respond (if n = 0 then s1 else tookFree s1) p m code ((List.range n).map (Config.freeByte s.free)) (some 0)

/-- The pieces of a request that are checked and performed on their own (R202): a `PUT` of this module comes as one
message that holds all its fragments. -/
def fragsOf (s : State) (p : Nat) (m : Msg) : List Msg :=
  let f := fragMax (groupSealed s p)
  if m.op.toNat = 0 then
    (List.range (ceilDiv m.data.length f)).map fun i =>
      { m with target := m.target + BitVec.ofNat 64 (i * f), fragOfs := m.fragOfs + BitVec.ofNat 32 (i * f)
               data := (m.data.drop (i * f)).take f }
  else [m]

/-- A message that a pane has turned away is this one. -/
def TurnedAway.same (x : TurnedAway) (m : Msg) : Bool :=
  x.device == m.srcDevice && x.pane == m.srcPane && x.tag == m.tag && x.ofs == m.fragOfs

/-- R193: a request comes behind one of its source pane that was turned away. -/
def TurnedAway.ahead (x : TurnedAway) (m : Msg) : Bool :=
  x.device == m.srcDevice && x.pane == m.srcPane && x.tag != m.tag && decide ((m.tag - x.tag).toNat < 2 ^ 31)

/-- The requests that a pane has turned away and still expects. -/
def stillTurned (s : State) (p : Nat) : List TurnedAway := (rmoOf s p).turned.filter fun x => s.time.beat ≤ x.until'

/-- A pane turns a request away, `q` slots being queued ahead (R250): what its source sends behind it has to wait too, for
as long as the request may still come again (R193, log entry 75). -/
def turnAway (s : State) (p : Nat) (m : Msg) (q : Nat) : State :=
  let x : TurnedAway :=
    { device := m.srcDevice, pane := m.srcPane, tag := m.tag, ofs := m.fragOfs
      until' := retryBeat s q m.srcDevice m.tag + 2 * hopsTo s m.srcDevice + 3 }
  refuseMsg (modRmo s p fun u => { u with turned := (stillTurned s p).filter (!·.same m) ++ [x] }) m q

/-- Slots that the requests waiting at a pane came in. -/
def waitingSlots (s : State) (p : Nat) : Nat :=
  packSlots 3072 (((rmoOf s p).reqQ.flatMap (fragsOf s p)).map fun m => (msgBytes m).length) 0

/-- A request reaches this module (R193, R198, R250): it joins those that wait for its pane, is refused when 64 wait or
when an earlier one of its source has been turned away, or is discarded. A Plan pane that no group pane answers is out of
range. -/
def deliverRequest (s : State) (m : Msg) : State :=
  match targetPane s m with
  | none => respondCode s 0 m cRange
  | some p =>
    if !paneLive s p then s
    else if 64 ≤ (rmoOf s p).reqQ.length || (stillTurned s p).any (·.ahead m) then turnAway s p m (waitingSlots s p)
    else modRmo s p fun u => { u with reqQ := u.reqQ ++ [m], turned := (stillTurned s p).filter (!·.same m) }

/-- A response reaches the module of its source. -/
def deliverResponse (s : State) (m : Msg) : State :=
  modRmo s m.srcPane.toNat fun u => { u with respQ := u.respQ ++ [m] }

/-! ### An operation at its source -/

/-- Timeout codes of `TMO`, in beats (Table 08-2). -/
def tmoBeats (c : Nat) : Nat := [256, 1024, 4096, 16384].getD c 256

/-- The operation is `WAIT` or `ACQUIRE`. -/
def opWaits (op : Nat) : Bool := op == 6 || op == 7

/-- The messages of an operation: a `PUT` to another module in fragments (R197), anything else one. -/
def opMsgs (s : State) (p : Nat) (o : RmoOp) : List Msg :=
  let g := groupOf s p
  let base : Msg :=
    { op := o.op, isResponse := false, code := 0, srcDevice := moduleId s, srcPane := BitVec.ofNat 4 p
      torusRel := o.torusRel, srcEpoch := (pane s p).epoch, jobTag := (pane s p).jobTag, tag := o.tag
      target := o.target, fragOfs := 0, length := BitVec.ofNat 32 o.length, data := [], isSealed := false
      srcPlan := g.map fun g => planPaneNo g p, srcCell := o.lcell, result := none }
  if o.op.toNat = 0 then
    if o.device == moduleId s then [{ base with data := o.data }]
    else
      let f := fragMax (groupSealed s p)
      (List.range (ceilDiv o.length f)).map fun i =>
        { base with target := o.target + BitVec.ofNat 64 (i * f), fragOfs := BitVec.ofNat 32 (i * f)
                    data := (o.data.drop (i * f)).take f }
  else if o.op.toNat = 1 then [base]
  else [{ base with data := natLe 8 o.opa.toNat ++ natLe 8 o.opb.toNat }]

/-- The operations in progress of a pane with one changed. -/
def modOp (s : State) (p : Nat) (tag : BitVec 32) (f : RmoOp → RmoOp) : State :=
  modRmo s p fun u => { u with ops := u.ops.map fun o => if o.tag == tag then f o else o }

/-- A refusal has reached the source (R196): the operation waits for its retry-at beat. -/
def noteRefusal (s : State) (p : Nat) (tag : BitVec 32) (beat : Nat) : State :=
  modOp (modRmo s p fun u => { u with retries := BitVec.ofNat 16 (satAdd 16 u.retries.toNat 1) }) p tag
    fun o => { o with retryAt := some beat }

/-- R193: an earlier operation of the pane for the same pane has been refused and not yet admitted again. Where one names
its pane relatively and the other does not, they may name one pane. -/
def behindRefused (s : State) (p : Nat) (o : RmoOp) : Bool :=
  ((rmoOf s p).ops.takeWhile (·.tag != o.tag)).any fun x =>
    x.device == o.device && (x.torusRel != o.torusRel || gaPane x.target == gaPane o.target)
    && (x.retryAt.isSome || (rmoOf s p).refQ.any (·.tag == x.tag))

/-- R249: an operation asks for admission: its messages enter the injection queue, or, for this module, reach their
pane; or it is refused, as all its fragments must fit in the queue. It waits behind an earlier one of its target that has
been refused (R193). -/
def admitOp (s : State) (p : Nat) (o : RmoOp) : State :=
  let ms := opMsgs s p o
  if behindRefused s p o then modOp s p o.tag fun x => { x with retryAt := some s.time.beat }
  else if o.device == moduleId s then ms.foldl deliverRequest s
  else if (routePort s o.device).isNone then s
  else
    let q := (rmoOf s p).injReq
    if 64 < q.length + ms.length then
      meterRefusal (noteRefusal s p o.tag (retryBeat s (slotsQueued s p q) (moduleId s) o.tag)) p
    else modRmo s p fun u => { u with injReq := u.injReq ++ ms.map fun m => { device := o.device, msg := m } }

/-- R190, R191: an operation of a cell completes: its record is written, its token set; a failure faults the context
unless `tolerated`. -/
def completeAt (s : State) (p l token index comp code : Nat) (result : BitVec 64) (waits tolerated : Bool) (addr : Nat) :
    State :=
  let s1 := modCell s p l fun c => giveToken (writeLocal c comp (recordBytes s code result)) token
  let s2 := if code = cTimeout then
      modRmo s1 p fun u => { u with timeouts := BitVec.ofNat 16 (satAdd 16 u.timeouts.toNat 1) } else s1
  if codeOk code || (tolerated && !waits) then s2
  else cellFault s2 p l (if waits && code = cTimeout then fcWait else fcRemote) index addr

/-- A remote operation completes. -/
def completeOp (s : State) (p : Nat) (o : RmoOp) (code : Nat) (result : BitVec 64) : State :=
  let s1 := modRmo s p fun u => { u with ops := u.ops.filter (·.tag != o.tag) }
  completeAt s1 p o.lcell o.token o.index o.comp code result (opWaits o.op.toNat) o.tolerate o.target.toNat

end Sys2Proof.Machine
end

