-- ==== Sys2Proof/Machine/Latches.lean ====
section
/-! DEFINITION. The latch unit (R207 to R217): latches, their holders and waiters, and the four latch operations at
their home. -/

namespace Sys2Proof.Machine

/-- A latch not allocated (Table 08-9 reset). -/
def latchZero : Latch :=
  { count := 0, holderDevice := 0, holderPane := 0, state := 0, holderEpoch := 0, owner := 0x1F, ownerEpoch := 0
    queue := [], waits := [] }

/-- `STATE` codes. -/
def laFree : BitVec 2 := 0
/-- `HELD`. -/
def laHeld : BitVec 2 := 1
/-- `ORPHANED`. -/
def laOrphaned : BitVec 2 := 2

/-- One latch. -/
def latchOf (s : State) (i : Nat) : Latch := tblGet latchZero s.latches i

/-- One latch changed. -/
def modLatch (s : State) (i : Nat) (f : Latch → Latch) : State :=
  { s with latches := tblPut latchZero s.latches i (f (latchOf s i)) }

/-- `OWNER` of the context of a pane: that of virtual function n, n = pane + 1 (R332). -/
def ownerCode (p : Nat) : BitVec 5 := BitVec.ofNat 5 (p + 1)

/-- R211: the latch counts as unallocated: no owner, or its owner's context epoch has moved on. -/
def latchFree (s : State) (i : Nat) : Bool :=
  let l := latchOf s i
  l.owner == 0x1F || (1 ≤ l.owner.toNat && l.owner.toNat ≤ 16
    && l.ownerEpoch != (pane s (l.owner.toNat - 1)).epoch)

/-- R211, check 3 of Table 08-7: the latch is allocated to the current context of a pane. -/
def latchHeldBy (s : State) (i p : Nat) : Bool :=
  i < 65536 && (latchOf s i).owner == ownerCode p && (latchOf s i).ownerEpoch == (pane s p).epoch

/-- A latch as its 128 bits (Table 08-9). -/
def latchWord (own : BitVec 16) (l : Latch) : BitVec 128 :=
  let all := l.queue ++ l.waits
  let summary := (List.range 16).foldl (fun m p =>
    m + b2n (all.any fun w => w.device == own && w.pane.toNat == p) * 2 ^ p) 0
  BitVec.ofNat 128 (summary + l.ownerEpoch.toNat * 2 ^ 16 + l.owner.toNat * 2 ^ 35 + l.holderEpoch.toNat * 2 ^ 40
    + b2n (all.any fun w => w.device != own) * 2 ^ 57 + l.state.toNat * 2 ^ 58 + l.holderPane.toNat * 2 ^ 60
    + l.holderDevice.toNat * 2 ^ 64 + l.count.toNat * 2 ^ 80)

/-- R214: entries of the remote-waiter table in use: queued `ACQUIRE`s, and `WAIT`s from other modules. -/
def waitersUsed (s : State) : Nat :=
  (s.latches.map fun e => e.2.queue.length + (e.2.waits.filter fun w => w.device != moduleId s).length).foldl (· + ·) 0

/-- R215: a requester's number: module, pane, logical cell. -/
def requesterNo (w : Waiter) : Nat := (w.device.toNat * 16 + w.pane.toNat) * 64 + w.lcell

/-- R215: a queue with one more requester: in order of arrival, and of requester number within a tick. -/
def joinQueue (w : Waiter) : List Waiter → List Waiter
  | [] => [w]
  | x :: r => if x.stamp = w.stamp && requesterNo w < requesterNo x then w :: x :: r else x :: joinQueue w r

/-- R212: a `WAIT` for a target is met. -/
def waitMet (count target : BitVec 48) : Bool := (count - target).toNat < 2 ^ 47

/-- The latch operation of a cell with a token has its outcome. -/
def setOutcome (fs : List Flight) (t code : Nat) (result : BitVec 64) : List Flight :=
  fs.map fun f => match f.kind with
    | .latch op => if f.token = t then { f with kind := .latch { op with outcome := some (code, result) } } else f
    | _ => f

/-- A requester has its answer: a cell of this module through its flight, a remote operation by a response. -/
def answerWaiter (s : State) (home : Nat) (w : Waiter) (code : Nat) (result : BitVec 64) : State :=
  match w.localTok, w.req with
  | some t, _ => modCell s w.pane.toNat w.lcell fun c => { c with flights := setOutcome c.flights t code result }
  | none, some m =>
    if codeOk code then respond s home m code [] (some result) else respondCode s home m code
  | none, none => s

/-- The pane whose context owns a latch. -/
def latchHome (l : Latch) : Nat := l.owner.toNat - 1

/-- The latch is granted to a requester. -/
def grantTo (l : Latch) (w : Waiter) : Latch :=
  { l with state := laHeld, holderDevice := w.device, holderPane := w.pane, holderEpoch := w.epoch }

/-- R212: the latch passes to the head of its queue, or becomes free. -/
def grantNext (s : State) (i code : Nat) : State :=
  let l := latchOf s i
  match l.queue with
  | w :: r => answerWaiter (modLatch s i fun l => grantTo { l with queue := r } w) (latchHome l) w code 0
  | [] => modLatch s i fun l => { l with state := laFree }

/-- R217: the holder is lost: the head of the queue is granted the latch as orphaned. -/
def orphanLatch (s : State) (i : Nat) : State :=
  let l := latchOf s i
  match l.queue with
  | _ :: _ => grantNext s i cOrphaned
  | [] => modLatch s i fun l => { l with state := laOrphaned }

/-- A latch is held by a module's pane in an epoch. -/
def latchHolder (l : Latch) (device : BitVec 16) (p : BitVec 4) (epoch : BitVec 16) : Bool :=
  l.state == laHeld && l.holderDevice == device && l.holderPane == p && l.holderEpoch == epoch

/-- R216: every latch that a lost holder holds is orphaned. -/
def orphanAll (s : State) (device : BitVec 16) (p : BitVec 4) (epoch : BitVec 16) : State :=
  ((s.latches.filter fun e => latchHolder e.2 device p epoch).map Prod.fst).foldl orphanLatch s

/-- The entries of a pane's context in the latches' queues are dropped (R341 step 2, R408). -/
def dropWaiters (s : State) (p : Nat) : State :=
  let dev := moduleId s
  let keep (w : Waiter) : Bool := !(w.device == dev && w.pane.toNat == p)
  { s with latches := s.latches.map fun e =>
      (e.1, { e.2 with queue := e.2.queue.filter keep, waits := e.2.waits.filter keep }) }

/-- The outcome of a latch operation at its home. -/
inductive LatchOut where
  /-- It is answered at once. -/
  | done (s : State) (code : Nat) (result : BitVec 64)
  /-- It waits. -/
  | waits (s : State)
  /-- The remote-waiter table is full (R214). -/
  | full
  deriving Repr

/-- R216, second case: a request from the holder's pane in another epoch shows that the holder is lost. -/
def noteEpoch (s : State) (i : Nat) (w : Waiter) : State :=
  let l := latchOf s i
  if l.state == laHeld && l.holderDevice == w.device && l.holderPane == w.pane && l.holderEpoch != w.epoch then
    orphanLatch s i
  else s

/-- `ARRIVE` (R212): the count grows and the waits it meets are answered. -/
def latchArrive (s : State) (i : Nat) (n : Nat) : State :=
  let l := latchOf s i
  let count := l.count + BitVec.ofNat 48 n
  let met := l.waits.filter fun w => waitMet count w.target
  let s1 := modLatch s i fun l => { l with count := count, waits := l.waits.filter fun w => !waitMet count w.target }
  met.foldl (fun s w => answerWaiter s (latchHome l) w cOk (count.setWidth 64)) s1

/-- R212, R214, R216, R217: a latch operation on an allocated latch. `op` is the code of Table 08-1. -/
def latchRequest (s0 : State) (op i : Nat) (a : Nat) (w : Waiter) : LatchOut :=
  let s := noteEpoch s0 i w
  let l := latchOf s i
  if op = 5 then
    .done (latchArrive s i a) cOk ((l.count + BitVec.ofNat 48 a).setWidth 64)
  else if op = 6 then
    if waitMet l.count w.target then .done s cOk (l.count.setWidth 64)
    else if w.device != moduleId s && 4096 ≤ waitersUsed s then .full
    else .waits (modLatch s i fun l => { l with waits := l.waits ++ [w] })
  else if op = 7 then
    if l.state = laHeld then
      if 4096 ≤ waitersUsed s then .full
      else .waits (modLatch s i fun l => { l with queue := joinQueue w l.queue })
    else .done (modLatch s i fun l => grantTo l w) (if l.state = laOrphaned then cOrphaned else cOk) 0
  else if latchHolder l w.device w.pane w.epoch then .done (grantNext s i cOk) cOk 0
  else .done s cNotHolder 0

/-- A latch with its count set and nothing held (R208, R210). -/
def freshLatch (s : State) (p count : Nat) : Latch :=
  { latchZero with count := BitVec.ofNat 48 count, owner := ownerCode p, ownerEpoch := (pane s p).epoch }

/-- R134, R209: the latch that a Plan latch reference of a group names. -/
def refLatch (s : State) (g : Group) (r : Nat) : Option Nat :=
  if r = 0xFFFFFFFF then none else (pane s (planPane g (fld r 31 28))).latchList[fld r 15 0]?

/-- The module's own `ARRIVE` with increment 1 on a Plan latch reference (R121, R130, R156, R272). -/
def arriveRef (s : State) (g : Group) (r : Nat) : State :=
  match refLatch s g r with
  | some i => latchArrive s i 1
  | none => s

end Sys2Proof.Machine
end

