-- ==== Sys2Proof/Machine/Coll.lean ====
section
/-! DEFINITION. What collectives and jobs share (10_collectives.md): a member's shard, aborts as they are detected,
received and kept in the abort table (R279 to R281), and the end of a Plan (R130, R282). -/

namespace Sys2Proof.Machine

/-! ### Shards (R257) -/

/-- The torus shape of a Plan's variant. -/
def planShape (d : List Byte) : Nat × Nat × Nat := (rd d 56 2, rd d 58 2, rd d 60 2)

/-- This module's coordinates in the variant's shape: its coordinates in the job map (R313, R316), or in the coordinate
table where the group has none. -/
def memberCoord (s : State) (g : Group) (d : List Byte) : Nat × Nat × Nat :=
  let sh := planShape d
  match g.jobMap with
  | some j => mapCoord j.shape ((idxOfDev j.entries (moduleId s)).getD 0)
  | none => match coordOf s (moduleId s) with
    | some e => (e.x % max 1 sh.1, e.y % max 1 sh.2.1, e.z % max 1 sh.2.2)
    | none => (0, 0, 0)

/-- Length of an axis of a shape. -/
def axisOf (sh : Nat × Nat × Nat) (axis : Nat) : Nat := [sh.1, sh.2.1, sh.2.2].getD axis 0

/-- T of one axis: half its length, 1 where that is below 2 or the axis takes no part. -/
def axisShards (c : CollD) (sh : Nat × Nat × Nat) (axis : Nat) : Nat :=
  if bitAt c.axes axis && 2 < axisOf sh axis then axisOf sh axis / 2 else 1

/-- T, the number of shards. -/
def collShards (c : CollD) (sh : Nat × Nat × Nat) : Nat :=
  axisShards c sh 0 * (axisShards c sh 1 * axisShards c sh 2)

/-- The shard number of a member. -/
def shardNo (c : CollD) (sh at' : Nat × Nat × Nat) : Nat :=
  let half (axis x : Nat) : Nat := if bitAt c.axes axis then x / 2 else 0
  half 0 at'.1 * (axisShards c sh 1 * axisShards c sh 2) + half 1 at'.2.1 * axisShards c sh 2 + half 2 at'.2.2

/-- R257, R260: first element and number of elements that a member works on in the stage of an axis of a reduce-scatter
in the order X, Y, Z; of axis 3, its shard. -/
def regionAt (c : CollD) (sh at' : Nat × Nat × Nat) (axis : Nat) : Nat × Nat :=
  (List.range axis).foldl (fun r a =>
    let n := r.2 / axisShards c sh a
    (r.1 + (if bitAt c.axes a then axisOf at' a / 2 else 0) * n, n)) (0, c.elements)

/-- R259: the axes of a collective's stages, in the order of a reduce-scatter. -/
def collStages (c : CollD) (sh : Nat × Nat × Nat) : List Nat :=
  (List.range 3).filter fun a => bitAt c.axes a && decide (2 ≤ axisOf sh a)

/-! ### Rings (R260, R267, R318) -/

/-- The order in which a ring of `n` members visits their coordinates. -/
def ringOrder (fold : Bool) (n : Nat) : List Nat :=
  if fold && 4 ≤ n then (List.range (n / 2)).map (2 * ·) ++ ((List.range (n / 2)).map (2 * · + 1)).reverse
  else List.range n

/-- The port of an axis that leads along a travel from one coordinate of a ring to the next, `plus` being the direction of
travel: on a folded axis the port on the other's side, else the port of the travel's sign. -/
def ringPort (fold plus : Bool) (axis here there : Nat) : Nat :=
  2 * axis + (if fold then (if here < there then 0 else 1) else if plus then 0 else 1)

/-- The port of an axis that leads to the tray-mate (R260, R316): that of the sign in which coordinate XOR 1 lies. -/
def copperPort (axis here : Nat) : Nat := 2 * axis + here % 2

/-- What a member does with a chunk in a stage: the port it comes in on and the port it leaves on, whether the member adds
its own contribution, whether the chunk is then final in the stage, and how many roundings it has had in the stage. -/
structure RingStep where
  inPort : Option Nat
  outPort : Option Nat
  own : Bool
  last : Bool
  hops : Nat
  deriving DecidableEq, Repr

/-- R260, R267, R318: the step of the member at coordinate `here` of an axis of length `n` with a chunk of quarter `q` of
part `h` of the stage's elements. A part is what one tray's two members end up with; quarters 0 and 1 travel in the +
direction and end at the even and the odd member, quarters 2 and 3 in the - direction. Which elements travel which way is
the model's choice (log entry 39). -/
def ringStep (fold : Bool) (axis n here h q : Nat) (tray : Bool) : Option RingStep :=
  let plus := decide (q < 2)
  if n = 2 then
    let port := fun back : Bool => if fold then copperPort axis here else 2 * axis + b2n (plus == back)
    if tray then some { inPort := some (port true), outPort := none, own := true, last := true, hops := 1 }
    else some { inPort := none, outPort := some (port false), own := true, last := false, hops := 0 }
  else
    let l := ringOrder fold n
    let f := 2 * h + q % 2
    let at' := l.idxOf here
    let gone := if plus then (at' + 2 * n - l.idxOf f - 1) % n else (l.idxOf f + 2 * n - at' - 1) % n
    let neighbour := fun ahead : Bool => l.getD ((if plus == ahead then at' + 1 else at' + n - 1) % n) 0
    if tray then
      if here / 2 = f / 2 && here ≠ f then
        some { inPort := some (copperPort axis here), outPort := none, own := false, last := true, hops := n - 1 }
      else none
    else some
      { inPort := if gone = 0 then none else some (ringPort fold (!plus) axis here (neighbour false))
        outPort := some (if gone + 1 = n then copperPort axis here else ringPort fold plus axis here (neighbour true))
        own := true, last := decide (gone + 1 = n), hops := gone }

/-- Elements of a shard. -/
def shardElems (c : CollD) (sh : Nat × Nat × Nat) : Nat := c.elements / collShards c sh

/-- Bits of an element that a collective moves: a lane of a `RAW96` image has 96 (R86, Table 10-3). -/
def moveWidth (fmt : Nat) : Nat := if fmt = 10 then 96 else fmtWidth fmt

/-- Bytes of `n` elements of a format. -/
def fmtBytes (fmt n : Nat) : Nat := ceilDiv (n * moveWidth fmt) 8

/-- Bytes at `DST_ADDR`: a shard for a `REDUCE_SCATTER`, else the whole tensor. -/
def dstBytes (d : List Byte) (c : CollD) : Nat :=
  fmtBytes c.outFmt (if c.kind = 0 then shardElems c (planShape d) else c.elements)

/-- R282: the output, the staging buffer and the statistics record of a collective that an abort has stopped. -/
def scrambleColl (s : State) (g : Group) (d : List Byte) (i : Nat) : State :=
  let c := planColl d i
  let at' (a : BitVec 64) : Nat := planPane g (gaPane a)
  let s1 := scramble s (at' c.dst) (gaOfs c.dst) (dstBytes d c)
  let s2 := scramble s1 (at' c.stage) (gaOfs c.stage) c.stageBytes
  if c.cflags = 0 then s2 else scramble s2 (at' c.stats) (gaOfs c.stats) 192

/-! ### The abort table (R281) -/

/-- Two entries have one key. -/
def sameAbort (a b : AbortEntry) : Bool := a.job == b.job && a.coll == b.coll && a.origin == b.origin

/-- The table holds an entry for 128 beats. -/
def abortHeld (s : State) (e : AbortEntry) : Bool := s.time.beat < e.beat + 128

/-- An entry is made; a full table loses its oldest. -/
def enterAbort (s : State) (e : AbortEntry) : State :=
  let t := s.collU.aborts.filter fun x => !sameAbort x e
  { s with collU := { s.collU with
    aborts := (if 64 ≤ t.length then t.drop 1 else t) ++ [e]
    abortsSeen := BitVec.ofNat 16 (satAdd 16 s.collU.abortsSeen.toNat 1) } }

/-- Every group of a job with an accepted start is to stop for an abort (R282, R330). -/
def dueAbort (s : State) (e : AbortEntry) : State :=
  { s with groups := s.groups.map fun g =>
      if groupTag s g == e.job && g.run.isSome && g.abortDue.isNone then { g with abortDue := some e } else g }

/-- The entry of an abort that this module detects. -/
def ownAbort (s : State) (job : BitVec 32) (coll trigger : Nat) : AbortEntry :=
  { job := job, coll := BitVec.ofNat 16 coll, origin := moduleId s, hops := 0, beat := s.time.beat
    trigger := some (BitVec.ofNat 4 trigger) }

/-- R279, R280: a trigger of Table 10-6 is detected. -/
def detectAbort (s : State) (job : BitVec 32) (coll trigger : Nat) : State :=
  let e := ownAbort s job coll trigger
  dueAbort (enterAbort s e) e

/-- `ABORT_COLL` where no single collective is concerned. -/
def noColl : Nat := 0xFFFF

/-- Trigger for the job of a group, if it has an accepted start. -/
def abortGroup (s : State) (g : Group) (coll trigger : Nat) : State :=
  if g.run.isSome then detectAbort s (groupTag s g) coll trigger else s

/-- R281: an abort arrives in a slot header. One that the table holds is ignored, but that of several copies in one beat
the largest hops count. -/
def receiveAbort (s : State) (job : BitVec 32) (coll origin : BitVec 16) (hops : Nat) : State :=
  let e : AbortEntry :=
    { job := job, coll := coll, origin := origin, hops := BitVec.ofNat 8 (min 255 (hops + 1)), beat := s.time.beat
      trigger := none }
  match s.collU.aborts.find? fun x => sameAbort x e && abortHeld s x with
  | some x =>
    if x.beat = s.time.beat && x.trigger.isNone && x.hops.toNat < e.hops.toNat then
      { s with collU := { s.collU with aborts := s.collU.aborts.map fun y => if sameAbort y e then e else y } }
    else s
  | none => dueAbort (enterAbort s e) { e with hops := BitVec.ofNat 8 (min 255 hops) }

/-- R280, R281: the entries whose flag goes out in this beat; that of a loss of time goes out in its own beat too
(R31 step 1, log entry 72). -/
def abortFlags (s : State) : List AbortEntry :=
  s.collU.aborts.filter fun e => (e.beat < s.time.beat || (e.beat == s.time.beat && e.trigger == some 4))
    && s.time.beat ≤ e.beat + 4

/-! ### The end of a Plan -/

/-- The step sequencers of a pane halt: no block starts and no instruction issues; what the cells hold stays. -/
def haltPane (s : State) (p : Nat) : State := modCells s p fun c => { c with halted := true }

/-- Slots under a group's `FORWARD` runs that have not left do not leave any more (R122). -/
def dropFwd (s : State) (lead : Nat) : State :=
  { s with links := { s.links with traffic := s.links.traffic.map fun e =>
      (e.1, { e.2 with fwd := e.2.fwd.filter (·.lead != lead) }) } }

/-- A group's run is over: replacements that waited for it take place (R70, R147). -/
def dropRun (s : State) (g : Group) : State :=
  (maskPanes g.members).foldl releaseDue
    (modGroup (dropFwd s (leadOf g.members)) (leadOf g.members) fun g => { g with run := none, abortDue := none })

/-- R282, R31: the collectives of a group stop. -/
def stopColls (s : State) (g : Group) : State :=
  match g.plan, g.run with
  | some d, some r =>
    modRun (r.colls.foldl (fun s c => scrambleColl s g d c.index) s) (leadOf g.members) fun r => { r with colls := [] }
  | _, _ => s

/-- Table 10-7: `COLL_STATUS` of a pane takes an abort. -/
def setCollStatus (s : State) (p : Nat) (e : AbortEntry) : State :=
  modPane s p fun x => { x with coll :=
    { abortBeat := BitVec.ofNat 48 s.time.beat, origin := e.origin, coll := e.coll, hops := e.hops
      trigger := e.trigger.getD 0, aborted := true, originSelf := e.trigger.isSome, job := e.job } }

/-- R282: the record of one context whose Plan an abort has ended. -/
def recordAbort (s : State) (p : Nat) (e : AbortEntry) : State :=
  record s 0x0202 (srcPane p) p
    (natLe 4 e.job.toNat ++ natLe 2 (pane s p).epoch.toNat ++ natLe 1 (e.trigger.getD 0).toNat
      ++ natLe 1 e.hops.toNat ++ natLe 2 e.origin.toNat ++ natLe 2 e.coll.toNat)

/-- R282: a group stops for an abort. -/
def stopForAbort (s : State) (g : Group) (e : AbortEntry) : State :=
  let ps := maskPanes g.members
  let s1 := ps.foldl haltPane (stopColls s g)
  let s2 := ps.foldl (fun s p => recordAbort (setCollStatus s p e) p e) s1
  dropRun (modGroup s2 (leadOf g.members) fun g => { g with ended := some .aborted }) g

/-- `ABORT_STOP` (R282): at the first beat boundary after an abort of its job. -/
def execAbortStop (lead : Pane16) (s : State) : Host.Outcome State Fault Refusal :=
  match groupLed s lead.val with
  | some g => match g.abortDue with
    | some e => if e.beat < s.time.beat && g.ended.isNone then .next (stopForAbort s g e) else .next s
    | none => .next s
  | none => .next s

/-- `ABORT_ENTRY_EXPIRY` (R281): entries held for 128 beats are dropped. -/
def execAbortEntryExpiry (s : State) : Host.Outcome State Fault Refusal :=
  .next { s with collU := { s.collU with aborts := s.collU.aborts.filter (abortHeld s) } }

end Sys2Proof.Machine
end

