-- ==== Sys2Proof/Machine/Meter.lean ====
section
/-! DEFINITION. The Metrology Island (18_metrology_island.md): its records, their store and signatures, the seal count, and
what `METER_READ` and `METER_IDENT` return. -/

namespace Sys2Proof.Machine

/-- The island changed. -/
def modIsland (s : State) (f : Island → Island) : State := { s with island := f s.island }

/-- Island time in milliseconds (R449). -/
def islandMs (s : State) : Nat := s.island.ns / 1000000

/-- Record types of Table 18-3. -/
def rtOpen : Nat := 1
/-- `INTERVAL`. -/
def rtInterval : Nat := 2
/-- `CLOSE`. -/
def rtClose : Nat := 3
/-- `KEPT`. -/
def rtKept : Nat := 4
/-- `OPERATOR`. -/
def rtOperator : Nat := 5
/-- `SEAL`. -/
def rtSeal : Nat := 6
/-- `POWER`. -/
def rtPower : Nat := 7

/-! ### The record store (R454, R455, R466) -/

/-- The message that a signature covers (R458): the tag "LZMTRREC", the serial number, the body. -/
def signedBytes (body : List Byte) : List Byte :=
  [0x4C, 0x5A, 0x4D, 0x54, 0x52, 0x52, 0x45, 0x43] ++ natLe 8 Config.serial.toNat ++ body

/-- Unread records. -/
def unreadCount (i : Island) : Nat := i.newestSeq - i.readSeq

/-- The oldest `SEQ` still held. -/
def oldestSeq (i : Island) : Nat := if i.newestSeq = 0 then 0 else i.newestSeq - min 65535 (i.newestSeq - 1)

/-- An event of the island (R455, R466); `STORE_WARN` (cause 1) and `METER_FAULT` (cause 2) as they become 1 fire vector 3
of the physical function (R508). -/
def meterEvent (s : State) (cause count : Nat) : State :=
  let s1 := record s 0x0800 srcIsland noPane (natLe 1 cause ++ natLe 4 count)
  if cause = 0 then s1 else msix s1 0 3

/-- R454, R455: a record enters the store; one that no one has read may be lost by it. -/
def storeRec (s : State) (r : MeterRec) : State :=
  let lost := match tblFind s.island.store (r.seq % 65536) with
    | some o => decide (s.island.readSeq < o.seq)
    | none => false
  let s1 := modIsland s fun i => { i with
    store := tblSet i.store (r.seq % 65536) r
    lostUnread := if lost then BitVec.ofNat 32 (satAdd 32 i.lostUnread.toNat 1) else i.lostUnread }
  let s2 := if lost then meterEvent s1 0 s1.island.lostUnread.toNat else s1
  if 49152 ≤ unreadCount s2.island && !s2.island.storeWarn then
    meterEvent (modIsland s2 fun i => { i with storeWarn := true }) 1 (unreadCount s2.island)
  else s2

/-- R466: a record that cannot be made durable is held; past 256 the island stops. -/
def holdRec (s : State) (r : MeterRec) : State :=
  modIsland s fun i =>
    if 256 ≤ i.held.length then { i with stopped := true, fault := true } else { i with held := i.held ++ [r] }

/-- The head of a body (Table 18-2 bytes 0 to 22). -/
def bodyHead (s : State) (rtype p flags seq tag epoch : Nat) : List Byte :=
  natLe 1 (16 + rtype) ++ natLe 1 p ++ natLe 1 flags ++ natLe 6 seq ++ natLe 2 s.island.sealCount.toNat ++ natLe 4 tag
  ++ natLe 2 epoch ++ natLe 6 (islandMs s)

/-- The island writes a record: `rest` is bytes 23 to 63 of its body. -/
def writeRec (s : State) (rtype p flags tag epoch : Nat) (rest : List Byte) : State :=
  let i := s.island
  if !i.running || i.stopped then s
  else
    let seq := i.newestSeq + 1
    let body := bytesAt (bodyHead s rtype p flags seq tag epoch ++ rest) 0 64
    let r : MeterRec := { seq := seq, body := body, sig := Config.sign (signedBytes body) }
    let s1 := modIsland s fun i => { i with newestSeq := seq }
    if i.fault then holdRec s1 r else storeRec s1 r

/-- Pane field of the module's own records. -/
def modulePane : Nat := 0xFF

/-! ### Measurands (Table 18-1, R448) -/

/-- Bytes 23 to 63 of a record from a meter: its span, an energy, and the two fields that `OPERATOR` records use
otherwise. -/
def measurands (s : State) (m : Meter) (energy near far : Nat) : List Byte :=
  natLe 6 s.time.beat ++ natLe 3 m.occBeats ++ natLe 4 (m.occNs / 1000) ++ natLe 4 energy ++ natLe 4 near ++ natLe 4 far
  ++ natLe 6 m.torus ++ natLe 6 m.eth ++ natLe 4 (min (2 ^ 32 - 1) m.refusals)

/-- GiB·ms and GB·ms of a meter. -/
def nearUnits (m : Meter) : Nat := m.nearAcc / 1000000
/-- GB·ms: 10^9 bytes over 10^6 ns. -/
def farUnits' (m : Meter) : Nat := m.farAcc / 1000000000000000

/-- R448: a meter after a record of it: the remainders are carried. -/
def afterRecord (s : State) (m : Meter) : Meter :=
  { m with
    occBeats := 0, occNs := m.occNs % 1000, nearAcc := m.nearAcc % 1000000, farAcc := m.farAcc % 1000000000000000
    torus := 0, eth := 0, refusals := 0, notLocked := s.time.mode != .locked, sinceMs := islandMs s }

/-- `RFLAGS` of a span: not locked, low power, and what the caller adds. -/
def recFlags (m : Meter) (energy extra : Nat) : Nat :=
  b2n m.notLocked + 2 * b2n (decide (energy * 1000 < 16 * (m.occNs / 1000))) + extra
  + 16 * b2n (decide (2 ^ 32 - 1 ≤ m.refusals))

/-- A record of a pane's occupancy, `INTERVAL` or `CLOSE`, its energy a reading of the island's converters. -/
def paneRec (s : State) (rtype p : Nat) (m : Meter) (extra : Nat) : State :=
  let e := Config.energy s.free p
  writeRec (tookFree s) rtype p (recFlags m e extra) m.jobTag.toNat m.epoch.toNat (measurands s m e (nearUnits m) (farUnits' m))

/-- A record of a kept space: its far tier alone. -/
def keptRec (s : State) (p : Nat) (m : Meter) (extra : Nat) : State :=
  writeRec s rtKept p (b2n m.notLocked + extra) m.jobTag.toNat 0
    (natLe 6 s.time.beat ++ zeros 3 ++ zeros 4 ++ zeros 4 ++ zeros 4 ++ natLe 4 (farUnits' m) ++ zeros 16)

/-- An `OPERATOR` record: the energies are those of the 54 V input, of the hub, link and far-tier rails, and of the panes
without an occupancy (Table 18-3). -/
def operRec (s : State) : State :=
  let m := s.island.oper
  let e (k : Nat) : Nat := Config.energy s.free k
  let flags := b2n m.notLocked + 16 * b2n (decide (2 ^ 32 - 1 ≤ m.refusals))
  modIsland (writeRec (tookFree s) rtOperator modulePane flags 0 0 (measurands s m (e 16) (e 17) (e 18))) fun i =>
    { i with oper := afterRecord s i.oper }

/-- A `SEAL` or `POWER` record (Table 18-4). -/
def legalRec (s : State) (rtype cause : Nat) : State :=
  let i := s.island
  let sha := if i.legalSha.isEmpty then Config.legalSha else i.legalSha
  writeRec s rtype modulePane 0 0 0 (natLe 1 cause ++ zeros 4 ++ natLe 4 i.legalVersion.toNat ++ bytesAt sha 0 32)

/-! ### Occupancies and kept spaces (R444, R446, R450) -/

/-- An occupancy opens: an `OPEN` record with every measurand zero. -/
def openOccupancy (s : State) (p : Nat) : State :=
  let x := pane s p
  let m : Meter :=
    { Meter.reset with jobTag := x.jobTag, epoch := x.epoch, sinceMs := islandMs s, notLocked := s.time.mode != .locked }
  modIsland (writeRec s rtOpen p 0 x.jobTag.toNat x.epoch.toNat (measurands s Meter.reset 0 0 0)) fun i =>
    { i with meters := tblSet i.meters p m }

/-- An occupancy closes, with `RFLAGS` bits of its own. -/
def closeOccupancy (s : State) (p extra : Nat) : State :=
  match tblFind s.island.meters p with
  | some m => modIsland (paneRec s rtClose p m extra) fun i => { i with meters := tblDel i.meters p }
  | none => s

/-- The metering of a kept space begins. -/
def openKept (s : State) (p : Nat) : State :=
  let m : Meter :=
    { Meter.reset with jobTag := (pane s p).ownerTag, sinceMs := islandMs s, notLocked := s.time.mode != .locked }
  modIsland s fun i => { i with kept := tblSet i.kept p m }

/-- The metering of a kept space ends with a final record. -/
def closeKept (s : State) (p extra : Nat) : State :=
  match tblFind s.island.kept p with
  | some m => modIsland (keptRec s p m extra) fun i => { i with kept := tblDel i.kept p }
  | none => s

/-- Every kept chain has a final record; metering goes on where `resume` says so. -/
def endKept (s : State) (extra : Nat) (resume : Bool) : State :=
  (List.range 16).foldl (fun s p => match tblFind s.island.kept p with
    | some m =>
      let s1 := keptRec s p m extra
      if resume then modIsland s1 fun i => { i with kept := tblSet i.kept p (afterRecord s m) }
      else modIsland s1 fun i => { i with kept := tblSet i.kept p { afterRecord s m with farAcc := 0 } }
    | none => s) s

/-- Every open occupancy closes. -/
def closeAll (s : State) (extra : Nat) : State := (List.range 16).foldl (fun s p => closeOccupancy s p extra) s

/-! ### Boundaries -/

/-- The record of one pane at a boundary; an occupancy that opened in the same millisecond has none (R451). -/
def boundaryRec (s : State) (p : Nat) : State :=
  match tblFind s.island.meters p with
  | some m =>
    if islandMs s ≤ m.sinceMs then s
    else modIsland (paneRec s rtInterval p m 0) fun i => { i with meters := tblSet i.meters p (afterRecord s m) }
  | none => s

/-- `METER_INTERVAL_BOUNDARY` (R449 to R451): kept spaces, occupancies in increasing pane number, the module. -/
def execMeterIntervalBoundary (s : State) : Host.Outcome State Fault Refusal :=
  let i := s.island
  if !i.running || i.stopped || islandMs s < i.lastBoundary + i.intervalMs then .next s
  else
    let s1 := endKept s 0 true
    let s2 := operRec ((List.range 16).foldl boundaryRec s1)
    .next (modIsland s2 fun i => { i with lastBoundary := islandMs s - islandMs s % i.intervalMs })

/-- `METER_RECORD_RETRY` (R466): the island tries again to make its records durable; a first failure is that of the
newest record. -/
def execMeterRecordRetry (durable : Bool) (s : State) : Host.Outcome State Fault Refusal :=
  let i := s.island
  if !i.running then .next s
  else if durable then
    if i.stopped then .next s
    else .next (i.held.foldl storeRec (modIsland s fun i => { i with held := [], fault := false }))
  else if i.fault then .next s
  else
    match tblFind i.store (i.newestSeq % 65536) with
    | some r =>
      .next (meterEvent (modIsland s fun i => { i with
        fault := true, held := [r], store := tblDel i.store (i.newestSeq % 65536) }) 2 1)
    | none => .next (meterEvent (modIsland s fun i => { i with fault := true }) 2 0)

/-! ### Seal, updates, starts (R461, R462, R465) -/

/-- R461: the seal count rises and a `SEAL` record is written; at 0xFFFF it stays, and no record follows. -/
def sealEvent (s : State) (cause : Nat) : State :=
  let i := s.island
  if i.sealCount = 0xFFFF then s
  else
    let s1 := legalRec (modIsland s fun i => { i with sealCount := i.sealCount + 1 }) rtSeal cause
    if s1.island.sealCount = 0xFFFF then modIsland s1 fun i => { i with stopped := true } else s1

/-- `DEBUG_PADS_ENABLED` (R442, R461). -/
def execDebugPadsEnabled (s : State) : Host.Outcome State Fault Refusal :=
  .next (sealEvent (modIsland s fun i => { i with debugOpen := true }) 3)

/-- Record intervals of R449. -/
def intervalOk (ms : Nat) : Bool := ms == 10000 || ms == 30000 || ms == 60000

/-- An update package is admitted (R462). -/
def updateOk (s : State) (u : MeterUpdate) : Bool :=
  s.island.running && u.signatureOk && s.island.meters.isEmpty && intervalOk u.intervalMs

/-- `METER_UPDATE_PACKAGE` (R462): refused when its signature fails or an occupancy is open; otherwise the chains are
closed, the change is made, and a `SEAL` record follows. -/
def execMeterUpdatePackage (u : MeterUpdate) (s : State) : Host.Outcome State Fault Refusal :=
  if updateOk s u then
    let s1 := operRec (endKept s 0 true)
    let s2 := modIsland s1 fun i =>
      { i with legalVersion := u.legalVersion, legalSha := bytesAt u.legalSha 0 32, intervalMs := u.intervalMs }
    .next (sealEvent s2 (if u.firmware then 1 else 2))
  else .next s

/-- R465: input loss: occupancies and kept chains close, an `OPERATOR` and a `POWER` record are written, and the island
stops. -/
def islandLoss (s : State) : State :=
  if !s.island.running then s
  else
    let s1 := operRec (endKept (closeAll s 4) 4 false)
    modIsland (legalRec s1 rtPower 1) fun i => { i with running := false, held := [] }

/-- `ISLAND_START` (R465, R467): the input is present, and the island starts again after a loss; island time goes on where it stood. -/
def execIslandStart (s : State) : Host.Outcome State Fault Refusal :=
  if s.island.running then .next s
  else
    let s1 := modIsland { s with power := { s.power with input := true, pwrGood := s.power.pwrEn } } fun i =>
      { i with running := true, fault := false, stopped := i.sealCount == 0xFFFF
               oper := { Meter.reset with sinceMs := islandMs s } }
    .next (legalRec s1 rtPower 2)

/-- R463: a module reset closes every occupancy. -/
def islandReset (s : State) : State := closeAll s 8

/-! ### Reading (R459, Table 18-5) -/

/-- The durable records from a `SEQ` on, oldest first. -/
def recordsFrom (i : Island) (first : Nat) : List MeterRec :=
  ((List.range (i.newestSeq + 1 - first)).map (first + ·)).filterMap fun q => match tblFind i.store (q % 65536) with
    | some r => if r.seq = q then some r else none
    | none => none

/-- Records that a virtual function may have: its pane's, of the pane's current job tag. -/
def ownRecord (s : State) (p : Nat) (r : MeterRec) : Bool :=
  leAt r.body 1 1 == p && leAt r.body 11 4 == (pane s p).jobTag.toNat

/-- `METER_READ`: the records, the `SEQ` at which the next read starts, and the reader's note. -/
def meterRead (s : State) (vf : Option Nat) (first count : Nat) : List MeterRec × Nat :=
  let i := s.island
  let from' := max first (max 1 (oldestSeq i))
  let all := recordsFrom i from'
  let mine := match vf with
    | some p => all.filter (ownRecord s p)
    | none => all
  let got := mine.take count
  let next := if mine.length ≤ count then max from' (i.newestSeq + 1) else match got.getLast? with
    | some r => r.seq + 1
    | none => from'
  (got, next)

/-- R455: the physical function has read up to a record. -/
def noteRead (s : State) (recs : List MeterRec) : State :=
  modIsland s fun i =>
    let q := recs.foldl (fun m r => max m r.seq) i.readSeq
    { i with readSeq := q, storeWarn := i.storeWarn && decide (32768 ≤ i.newestSeq - q) }

/-- The result of `METER_IDENT` (Table 18-5). -/
def meterIdent (s : State) : List Byte :=
  let i := s.island
  let sha := if i.legalSha.isEmpty then Config.legalSha else i.legalSha
  [1, 0, 0, 0] ++ natLe 4 i.legalVersion.toNat ++ bytesAt sha 0 32 ++ natLe 2 i.sealCount.toNat
  ++ natLe 2 (i.intervalMs / 1000) ++ zeros 4 ++ natLe 8 Config.serial.toNat ++ bytesAt Config.publicKey 0 32
  ++ bytesAt Config.endorsement 0 64 ++ natLe 6 i.newestSeq ++ natLe 6 (oldestSeq i) ++ natLe 6 i.readSeq ++ zeros 2
  ++ natLe 4 i.lostUnread.toNat ++ natLe 6 (islandMs s) ++ zeros 2

/-- `METER_STATUS` (Table 18-6). -/
def meterStatus (i : Island) : Nat :=
  b2n i.fault * 2 ^ 63 + b2n i.debugOpen * 2 ^ 62 + b2n i.storeWarn * 2 ^ 61 + i.sealCount.toNat * 2 ^ 32
  + min 65536 (unreadCount i)

end Sys2Proof.Machine
end

