-- ==== Sys2Proof/Machine/CtxReset.lean ====
section
/-! DEFINITION. The reset of a context (16_faults_and_reset.md R408), which acts at a beat boundary, and what it shares with
a teardown: the queues that are dropped, the cells that are zeroed, the Plan that is aborted. -/

namespace Sys2Proof.Machine

/-- Parcels of a pane that wait on the ports are dropped (R341 step 2). -/
def dropParcels (s : State) (p : Nat) : State :=
  { s with links := { s.links with traffic := s.links.traffic.map fun e =>
      (e.1, { e.2 with out := e.2.out.filter fun x => x.pane != some p }) } }

/-- The injection queues, the messages that wait, the remote-waiter entries and the windows of a pane's context go;
its operations are no longer awaited. -/
def dropQueues (s : State) (p : Nat) (keys : Bool) : State :=
  let s1 := modRmo s p fun u =>
    { u with windows := [], ops := [], putsIn := [], injReq := [], injResp := []
             respRest := [], late := [], turned := [], reqQ := [], respQ := [], refQ := []
             keys := if keys then [] else u.keys, keySel := if keys then 0 else u.keySel }
  dropParcels (dropWaiters s1 p) p

/-- Cells of a pane, spares included, at zero (Table 13-3). -/
def zeroCells (s : State) (p : Nat) : State :=
  modPane { s with cells := s.cells.filter fun e => e.1 / 64 != p } p fun x => { x with arith := [], barriers := [] }

/-- A start that has not begun is cancelled; a running Plan is aborted under trigger 0x3. -/
def abortForPane (s : State) (p : Nat) : State := match groupOf s p with
  | some g =>
    if planRunning g then abortGroup s g noColl 3
    else modGroup s (leadOf g.members) fun g => { g with run := none }
  | none => s

/-- Rung 1 on a pane's context, at its beat boundary d: the pane is in reset until d + 16. -/
def resetContext (s : State) (p : Nat) : State :=
  let old := (pane s p).epoch
  let s1 := haltPane (abortForPane s p) p
  let s2 := zeroCells (dropQueues s1 p false) p
  let s3 := modPane s2 p fun x => { x with epoch := x.epoch + 1, latchList := [], resetFrom := none, resetUntil := some (s.time.beat + 16) }
  let s4 := modIsland s3 fun i => { i with meters := match tblFind i.meters p with
    | some m => tblSet i.meters p { m with epoch := old + 1 }
    | none => i.meters }
  orphanAll s4 (moduleId s4) (BitVec.ofNat 4 p) old

/-- A reset of a pane's context is ordered: it acts from the next beat boundary. -/
def askContextReset (s : State) (p : Nat) : State := modPane s p fun x => { x with resetFrom := some (s.time.beat + 1) }

/-- R408: at a beat boundary, the reset of a pane's context that has been ordered begins. -/
def contextResetDue (s : State) (p : Nat) : State := match (pane s p).resetFrom with
  | some d => if d ≤ s.time.beat && (pane s p).state == .opened then resetContext s p else s
  | none => s

end Sys2Proof.Machine
end

