-- ==== Sys2Proof/Machine/Time.lean ====
section
/-! DEFINITION. The beat unit (02_beat_and_time.md): markers and lock (R16, R17, R25, R542), holdover (R27 to R31, R33)
and `BEAT_TRIM` (R19, R41). -/

namespace Sys2Proof.Machine

/-- The beat unit changed. -/
def modTime (s : State) (f : BeatUnit → BeatUnit) : State := { s with time := f s.time }

/-- Code of a time state (Table 02-4). -/
def timeCode : TimeMode → Nat
  | .unsync => 0 | .locked => 1 | .holdover => 2 | .freeRun => 3

/-- The present instant on the module's own count, in ticks, before the first boundary too (R542). -/
def nowTicks (s : State) : Int := (now s : Int) - s.time.lead - (if s.time.stretch then 1 else 0)

/-- The time state changes; the event carries the old and the new state (Table 19-2). -/
def enterTime (s : State) (m : TimeMode) : State :=
  let s1 := modTime s fun t => { t with mode := m }
  record s1 0x0101 srcBeat noPane (natLe 1 (timeCode s.time.mode) ++ natLe 1 (timeCode m))

/-- R17, R402: a phase hit is counted; the reference declared faulty is `REF_SUSPECT` (Table 16-2 row K). -/
def phaseHit (s : State) : State :=
  let s1 := modTime s fun t => { t with phaseHits := BitVec.ofNat 16 (satAdd 16 t.phaseHits.toNat 1) }
  let r := countError s1 rowK 0 1
  if r.2 then { r.1 with faults := { r.1.faults with refSuspect := true } } else r.1

/-- R17: a phase hit of one beat of the count in which no valid marker arrives, counted once. Complete beat words of 512
ticks do not fit twice into a window of 33, so a marker that fails in its beat's window leaves the beat without a valid
one. -/
def beatHit (s : State) (b : Nat) : State :=
  if s.time.markerFor = some b || s.time.hitFor = some b then s
  else modTime (phaseHit s) fun t => { t with hitFor := some b }

/-- The beat of the count in which a marker arrives now: from 16 ticks before its own marker's predicted instant until 16
ticks before the next one's (R17). -/
def markerBeat (s : State) : Nat := ((nowTicks s + s.time.trimActive.toNat + 16) / 8192).toNat

/-- R17: a marker within 16 ticks of the instant predicted for it. -/
def onTime (s : State) (num : Nat) : Bool :=
  decide ((nowTicks s - ((num * 8192 : Nat) - (s.time.trimActive.toNat : Int))).natAbs ≤ 16)

/-- Spans that are being counted in beats go on over a step of the beat counter: the beats from which they run step with
it. -/
def stepSpans (s : State) (by' : Nat → Nat) : State :=
  let job (j : Job) : Job := { j with start := j.start.map by', lastBeat := by' j.lastBeat, order := by' (j.order / 8192) * 8192 + j.order % 8192 }
  { s with
    power := { s.power with t0 := by' s.power.t0, coolSince := s.power.coolSince.map by' }
    links := { s.links with
      ports := s.links.ports.map fun e =>
        (e.1, { e.2 with since := by' e.2.since, backoff := e.2.backoff.map by' })
      traffic := s.links.traffic.map fun e =>
        (e.1, { e.2 with wanted := e.2.wanted.map fun w => { w with since := by' w.since }
                         resent := e.2.resent.map fun r => (r.1, r.2.1, by' r.2.2) }) }
    dk := { s.dk with
      mbx := s.dk.mbx.map fun e => (e.1, { e.2 with job := e.2.job.map job })
      esc := { s.dk.esc with job := s.dk.esc.job.map job } }
    test := { s.test with
      hubSince := by' s.test.hubSince
      panes := s.test.panes.map fun e => (e.1, { e.2 with since := by' e.2.since }) }
    faults := { s.faults with selfResets := s.faults.selfResets.map fun r => { r with deadline := by' r.deadline } }
    fm := { s.fm with
      relays := s.fm.relays.map fun r => { r with since := r.since.map by' }
      current := s.fm.current.map fun c => (c.1, c.2.1, by' c.2.2) }
    panes := s.panes.map fun e => (e.1, { e.2 with
      resetUntil := e.2.resetUntil.map by', resetFrom := e.2.resetFrom.map by'
      rmo := { e.2.rmo with ops := e.2.rmo.ops.map fun o =>
        { o with deadline := (by' o.deadline.1, o.deadline.2), retryAt := o.retryAt.map by' } } }) }

/-- R25, R542: the module locks: the counters step to the reference and `TRIM_ACTIVE` is loaded (R19). DESIGN CHOICE (log
entry 66): from the marker's arrival to the boundary that falls `TRIM_ACTIVE` ticks later the beat counter shows the new
number and the tick counter stands at 0. -/
def enterLocked (s : State) (num : Nat) : State :=
  let own := s.time.beat
  let s1 := modTime (stepSpans s fun b => b + num - own) fun t =>
    { t with
      beat := num, tick := 0, lead := t.trim.toNat, trimActive := t.trim, lockBeat := some num, goodMarkers := 0
      lastMarker := some (num, (num * 8192 : Nat) - (t.trim.toNat : Int)), markerFor := some num
      phaseError := 0, phaseStep := num, stretch := false, runOut := none }
  let s2 := enterTime s1 .locked
  if s.time.mode = .freeRun && own ≠ num then record s2 0x0103 srcBeat noPane (natLe 6 own ++ natLe 6 num) else s2

/-- A marker in `UNSYNC` or `FREE_RUN`: R17's conditions against the last marker that passed its CRC. One whose predecessor
arrived more than 8,208 ticks before meets the first and the third condition; a run goes on with the next number (R25). -/
def looseMarker (s : State) (num : Nat) (good : Bool) : State :=
  if !good then modTime (phaseHit s) fun t => { t with goodMarkers := 0 }
  else
    let noted := modTime s fun t => { t with lastMarker := some (num, nowTicks s) }
    let runOf (st : State) (n : Nat) : State :=
      if 4 ≤ n then enterLocked st num else modTime st fun t => { t with goodMarkers := n }
    match s.time.lastMarker with
    | none => runOf noted 1
    | some (n, at') =>
      let late := decide (at' + 8208 < nowTicks s)
      let timely := late || decide ((nowTicks s - at' - 8192).natAbs ≤ 16)
      let numbered := num == n + 1
      let st := if timely && (late || numbered) then noted else phaseHit noted
      runOf st (if !timely then 0 else if numbered then s.time.goodMarkers + 1 else 1)

/-- A marker in `LOCKED` or `HOLDOVER`: R17's conditions against the module's own count; the fourth consecutive valid one
ends a holdover without a step (R33). -/
def boundMarker (s : State) (num : Nat) (good : Bool) : State :=
  let s0 := if good then modTime s fun t => { t with lastMarker := some (num, nowTicks s) } else s
  if good && onTime s num then
    if s.time.markerFor = some num then s0
    else
      let n := if s.time.markerFor = some (num - 1) then s.time.goodMarkers + 1 else 1
      let s1 := modTime s0 fun t => { t with markerFor := some num, goodMarkers := n }
      if s.time.mode = .holdover && 4 ≤ n then
        let err := nowTicks s - ((num * 8192 : Nat) - (s.time.trimActive.toNat : Int))
        enterTime (modTime s1 fun t => { t with goodMarkers := 0, phaseError := err, phaseStep := t.beat }) .locked
      else s1
  else beatHit (modTime s0 fun t => { t with goodMarkers := 0 }) (markerBeat s)

/-- `BEAT_MARKER` (R16, R17, R25, R33, R34): a marker arrives with its beat word; `cyclesOk` is false when the word did
not come whole. -/
def execBeatMarker (word : BitVec 48) (crc : BitVec 8) (cyclesOk : Bool) (s : State) :
    Host.Outcome State Fault Refusal :=
  let good := cyclesOk && beatCrc word.toNat == crc.toNat
  .next (if plansRun s then boundMarker s word.toNat good else looseMarker s word.toNat good)

/-- R29: a beat counts as a holdover beat. -/
def countHoldover (s : State) : State :=
  let s1 := modTime s fun t =>
    { t with holdoverBeats := BitVec.ofNat 32 (satAdd 32 t.holdoverBeats.toNat 1), holdFor := some t.beat }
  record s1 0x0100 srcBeat noPane (stampBytes s.time.beat s.time.tick srcBeat)

/-- R26: the holdover limit of a selection, in beats. -/
def holdoverLimit (sel : BitVec 2) : Nat := if sel = 0 then 256 else if sel = 1 then 512 else 1024

/-- The window of this beat's marker has passed without a valid marker. -/
def markerMissed (s : State) : Bool :=
  s.time.markerFor != some s.time.beat
    && decide (((s.time.beat * 8192 : Nat) : Int) - s.time.trimActive.toNat + 16 < nowTicks s)

/-- `MISSING_MARKER` (R17, R27): a beat passes without a valid marker. In `UNSYNC` and `FREE_RUN` a beat in which no marker
arrives counts nothing, and the numbers of the markers tell whether a run of R25 goes on. -/
def execMissingMarker (s : State) : Host.Outcome State Fault Refusal :=
  match s.time.mode with
  | .locked =>
    if markerMissed s then
      let s1 := modTime (beatHit s s.time.beat) fun t =>
        { t with holdoverBeats := 0, goodMarkers := 0, episodeLimit := holdoverLimit t.limitSel }
      .next (countHoldover (enterTime s1 .holdover))
    else .next s
  | .holdover =>
    if markerMissed s then .next (modTime (beatHit s s.time.beat) fun t => { t with goodMarkers := 0 }) else .next s
  | _ => .next s

/-- `HOLDOVER_BEAT` (R28, R29): one more beat of the episode counts. -/
def execHoldoverBeat (s : State) : Host.Outcome State Fault Refusal :=
  if s.time.mode = .holdover && s.time.holdFor ≠ some s.time.beat
      && s.time.holdoverBeats.toNat < s.time.episodeLimit then
    let s1 := countHoldover s
    .next (if markerMissed s then beatHit s1 s.time.beat else s1)
  else .next s

/-- R31: the running Plan of a group is terminated by loss of time. -/
def loseTime (s : State) (g : Group) : State :=
  let tag := groupTag s g
  let e := ownAbort s tag noColl 4
  let s1 := modGroup (stopColls s g) (leadOf g.members) fun g => { g with ended := some .lostTime }
  (maskPanes g.members).foldl (fun s p =>
    recordAbort (record (setCollStatus s p e) 0x0104 (srcPane p) p
      (natLe 4 tag.toNat ++ natLe 2 (pane s p).epoch.toNat)) p e) s1

/-- `HOLDOVER_LIMIT_REACHED` (R31): the beat after the last that the limit allows. Collectives abort and Plans end in it;
scheduled slots and sequencers go on to its end (`issuesStill`, `execBeatBoundary`). -/
def execHoldoverLimitReached (s : State) : Host.Outcome State Fault Refusal :=
  if s.time.mode = .holdover && s.time.holdFor ≠ some s.time.beat
      && s.time.episodeLimit ≤ s.time.holdoverBeats.toNat then
    let s1 := enterTime (modTime s fun t => { t with goodMarkers := 0, runOut := some t.beat }) .freeRun
    let tags := ((s.groups.filter fun g => g.plan.isSome).map (groupTag s)).eraseDups
    let s2 := tags.foldl (fun s t => detectAbort s t noColl 4) s1
    .next ((s.groups.filter planRunning).foldl loseTime s2)
  else .next s

/-- `BEAT_TRIM_WRITE` (R19, R41): the physical function or the fabric manager stores `TRIM`. -/
def execBeatTrimWrite (by' : Accessor) (value : BitVec 32) (s : State) : Host.Outcome State Fault Refusal :=
  match by' with
  | .vf _ => .next s
  | .sideband => .next s
  | _ =>
    let v := value.setWidth 12
    let s1 := modTime s fun t => { t with trim := v }
    .next (if plansRun s then
        record s1 0x0102 srcBeat noPane (natLe 2 v.toNat ++ natLe 2 s.time.trimActive.toNat)
      else s1)

end Sys2Proof.Machine
end

