-- ==== Sys2Proof/Machine/FarTier.lean ====
section
/-! DEFINITION. The far tier (06_memory_tiers.md, 07_far_tier_media.md): blocks and pools, the map and its journal,
reads, writes, logical zeroing, collection, recovery, and the extents that Plans stream. -/

namespace Sys2Proof.Machine

/-! ### Blocks (R160, R173, R177) -/

/-- Map unit, in bytes. -/
def unitBytes : Nat := 16384
/-- Blocks of a channel (R160: about 2,096). -/
def chanBlockCount : Nat := 2096
/-- Map units of a block. -/
def blockUnits : Nat := 2048
/-- No location. -/
def noPhys : BitVec 32 := BitVec.allOnes 32

/-- A block that nothing has been written to. -/
def blockZero : Block :=
  { state := .free, next := 0, erases := 0, reads := 0, since := 0, dueRefresh := none, dueRetire := false }

/-- Key of a block. -/
def blkKey (ch b : Nat) : Nat := ch * 32768 + b

/-- A location (Table 07-1). -/
def mkPhys (ch b u : Nat) : BitVec 32 := BitVec.ofNat 32 (ch * 2 ^ 26 + b * 2 ^ 11 + u)

/-- The block of a location. -/
def physBlk (p : BitVec 32) : Nat := p.toNat / 2048

/-- The far tier changed. -/
def modFar (s : State) (f : FarTier → FarTier) : State := { s with far := f s.far }

/-- One block. -/
def blkOf (s : State) (k : Nat) : Block := tblGet blockZero s.far.blocks k

/-- One block changed. -/
def modBlk (s : State) (k : Nat) (f : Block → Block) : State :=
  modFar s fun t => { t with blocks := tblSet t.blocks k (f (tblGet blockZero t.blocks k)) }

/-- The blocks of a channel that the table lists, by block number. -/
def listedBlks (s : State) (ch : Nat) : List (Nat × Block) :=
  (s.far.blocks.filter fun e => e.1 / 32768 == ch).map fun e => (e.1 % 32768, e.2)

/-- Free blocks of a channel. -/
def freeBlks (s : State) (ch : Nat) : Nat :=
  chanBlockCount - ((listedBlks s ch).filter fun e => e.2.state != .free).length

/-- Table 07-4. -/
def poolState (n : Nat) : Nat := if 84 < n then 0 else if 43 ≤ n then 1 else if 11 ≤ n then 2 else 3

/-- The lowest block number that a rising list does not hold. -/
def firstGap : Nat → List Nat → Nat
  | n, [] => n
  | n, k :: r => if k = n then firstGap (n + 1) r else n

/-- The better of two entries under a strict order. -/
def bestOf {α : Type} (less : α → α → Bool) : List α → Option α
  | [] => none
  | a :: r => some (r.foldl (fun b x => if less x b then x else b) a)

/-- The free blocks of a channel that a choice can fall on: those listed, and the lowest of those never used. -/
def freeCands (s : State) (ch : Nat) : List (Nat × Nat) :=
  let l := listedBlks s ch
  let gap := firstGap 0 (l.map Prod.fst)
  (l.filterMap fun e => if e.2.state = .free then some (e.2.erases, e.1) else none)
  ++ (if gap < chanBlockCount then [(0, gap)] else [])

/-- R177: the free block with the lowest erase count, then the lowest number. -/
def pickFree (s : State) (ch : Nat) : Option Nat :=
  (bestOf (fun a b : Nat × Nat => a.1 < b.1 || (a.1 == b.1 && a.2 < b.2)) (freeCands s ch)).map Prod.snd

/-! ### The journal and its checkpoints (R163, R164, R166) -/

/-- The first 60 bytes of a record (Table 07-2). -/
def recBody (r : JRec) : List Byte :=
  natLe 8 r.seq ++ [r.type, BitVec.ofNat 8 r.owner, 0, 0] ++ natLe 4 r.gen.toNat ++ natLe 8 r.lun ++ natLe 4 r.count
  ++ natLe 4 r.newPhys.toNat ++ natLe 4 r.oldPhys.toNat ++ natLe 4 r.aux.toNat ++ natLe 8 (r.beat % 2 ^ 48) ++ zeros 12

/-- A record as its 64 bytes. -/
def jrecBytes (r : JRec) : List Byte := recBody r ++ natLe 4 r.crc.toNat

/-- A record with its CRC-32C. -/
def sealRec (r : JRec) : JRec := { r with crc := BitVec.ofNat 32 (crc32c (recBody r)) }

/-- R184: replay takes a record: its CRC passes and its type is not reserved. -/
def recGood (r : JRec) : Bool := 1 ≤ r.type.toNat && r.type.toNat ≤ 8 && r.crc.toNat == crc32c (recBody r)

/-- An owner slot before its first change: generation 0, its own first key pair, nothing mapped. -/
def ownerZero (o : Nat) : FarOwner := { gen := 0, key := Config.farKey o, map := [] }

/-- R166: entries of an older generation are dropped. -/
def dropStale (o : FarOwner) : FarOwner := { o with map := o.map.filter fun e => e.2.gen == o.gen }

/-- A record takes the next `SEQ`. -/
def appendRec (s : State) (r : JRec) : State :=
  modFar s fun t =>
    { t with nextSeq := t.nextSeq + 1
             journal := t.journal ++ [sealRec { r with seq := t.nextSeq, beat := s.time.beat }] }

/-- A map checkpoint is written: it holds until its `MAP_CKPT` is durable beside the one before. The locator that the
record gives is a free value. -/
def checkpoint (s : State) : State :=
  let s1 := modFar s fun t => { t with owners := t.owners.map fun e => (e.1, dropStale e.2) }
  let next : Ckpt :=
    { seq := s1.far.nextSeq, beat := s.time.beat, owners := s1.far.owners
      blocks := s1.far.blocks.map fun e => (e.1, e.2.state) }
  let s2 := appendRec (tookFree s1)
    { seq := 0, type := 8, owner := 0, gen := 0, lun := 0, count := 0, newPhys := 0, oldPhys := 0
      aux := (Config.freeWord s.free).truncate 32, beat := 0, crc := 0 }
  modFar s2 fun t => { t with ckptNext := some next }

/-- The beat of the last checkpoint, and the records since. -/
def sinceCkpt (t : FarTier) : Nat × Nat := match t.ckptNext with
  | some c => (c.beat, t.nextSeq - c.seq)
  | none => (t.ckpt.beat, t.nextSeq - t.ckpt.seq)

/-- The media takes no program or erase (R182, R183, R184). -/
def mediaIdle (s : State) : Bool := s.far.recovering || s.far.powerLost || s.far.holdupLow

/-- R166: a checkpoint that can wait no longer is written: after 262,144 records, or 1,048,576 beats. -/
def checkpointIfDue (s : State) : State :=
  if !(s.far.recovering || s.far.powerLost)
      && (262144 ≤ (sinceCkpt s.far).2 || (sinceCkpt s.far).1 + 1048576 ≤ s.time.beat) then checkpoint s
  else s

/-- A record is appended, after a checkpoint that its number would pass. -/
def journal (s : State) (type owner : Nat) (gen : BitVec 32) (lun count : Nat) (newPhys oldPhys aux : BitVec 32) :
    State :=
  appendRec (checkpointIfDue s)
    { seq := 0, type := BitVec.ofNat 8 type, owner := owner, gen := gen, lun := lun, count := count, newPhys := newPhys
      oldPhys := oldPhys, aux := aux, beat := 0, crc := 0 }

/-- The `SEQ` of the latest record. -/
def lastSeqOf (s : State) : Nat := s.far.nextSeq - 1

/-- Record types of Table 07-3. -/
def jMapSet : Nat := 1
/-- `MOVE`. -/
def jMove : Nat := 2
/-- `TRIM`. -/
def jTrim : Nat := 3
/-- `GEN_BUMP`. -/
def jGenBump : Nat := 4
/-- `OPEN_BLOCK`. -/
def jOpen : Nat := 5
/-- `ERASE_DONE`. -/
def jErase : Nat := 6
/-- `RETIRE_BLOCK`. -/
def jRetire : Nat := 7
/-- A record that names a block alone. -/
def journalBlk (s : State) (type ch b : Nat) : State := journal s type 0 0 0 0 0 0 (mkPhys ch b 0)

/-! ### Places to write -/

/-- A block is taken from the free pool as a destination. -/
def openBlk (s : State) (ch b : Nat) (st : BlockState) : State :=
  modBlk (journalBlk s jOpen ch b) (blkKey ch b) fun x =>
    { x with state := st, next := 0, reads := 0, since := s.time.beat }

/-- The open destination of a kind on a channel. A block declared faulty is none (R180). -/
def openOf (s : State) (ch : Nat) (st : BlockState) : Option Nat :=
  ((listedBlks s ch).find? fun e => e.2.state == st && !e.2.dueRetire).map Prod.fst

/-- The next unit of a destination; a full one is closed. -/
def takeUnit (s : State) (ch b : Nat) : State × BitVec 32 :=
  let u := (blkOf s (blkKey ch b)).next
  (modBlk s (blkKey ch b) fun x =>
    { x with next := u + 1, state := if blockUnits ≤ u + 1 then .used else x.state }, mkPhys ch b u)

/-- The place of the next unit on a channel, opening a block where none is open; none when the pool is empty. -/
def placeUnit (s : State) (ch : Nat) (st : BlockState) : Option (State × BitVec 32) :=
  match openOf s ch st with
  | some b => some (takeUnit s ch b)
  | none => (pickFree s ch).map fun b => takeUnit (openBlk s ch b st) ch b

/-! ### Owners, maps and reads (R161, R167) -/

/-- An owner slot. -/
def ownerOf (s : State) (o : Nat) : FarOwner := tblGet (ownerZero o) s.far.owners o

/-- An owner slot changed. -/
def modOwner (s : State) (o : Nat) (f : FarOwner → FarOwner) : State :=
  modFar s fun t => { t with owners := tblSet t.owners o (f (tblGet (ownerZero o) t.owners o)) }

/-- The location a map gives a unit: none without an entry of the owner's current generation (R161). -/
def mappedAt (s : State) (o lun : Nat) : Option (BitVec 32) :=
  let w := ownerOf s o
  match tblFind w.map lun with
  | some e => if e.phys != noPhys && e.gen == w.gen then some e.phys else none
  | none => none

/-- The unit a read finds; none for zeros. -/
def unitAt (s : State) (o lun : Nat) : Option MediaUnit := (mappedAt s o lun).bind fun p => tblFind s.far.media p.toNat

/-! ### Ciphertext (R167, R168) -/

/-- The tweak of a data unit. -/
def unitTweak (lun : Nat) (gen : BitVec 32) (owner : Nat) : Nat :=
  lun % 2 ^ 64 + 2 ^ 64 * gen.toNat + 2 ^ 96 * (owner % 256)

/-- The bytes of a key pair. -/
def pairBytes (k : BitVec 512) : List Nat := toNats (natLe 64 k.toNat)

/-- What stands on the media for a unit: its contents under XTS-AES-256. -/
def unitCipher (u : MediaUnit) : List Nat :=
  xtsCrypt false (pairBytes u.key) (unitTweak u.lun u.gen u.owner) (toNats (memRead u.data 0 unitBytes))

/-- The contents of a unit as its owner's key pair and the tweak of the read decrypt them: those it was written with, where
both are the same; else what decryption makes of the ciphertext. -/
def unitData (s : State) (o lun : Nat) (u : MediaUnit) : Mem :=
  let w := ownerOf s o
  if u.key = w.key ∧ unitTweak u.lun u.gen u.owner = unitTweak lun w.gen o then u.data
  else memWrite [] 0 (toBytes (xtsCrypt true (pairBytes w.key) (unitTweak lun w.gen o) (unitCipher u)))

/-! ### Reads (R161, R176, R179) -/

/-- A range of bytes cut at map units: unit, offset within it, length. -/
def cutUnits : Nat → Nat → Nat → List (Nat × Nat × Nat)
  | 0, _, _ => []
  | fuel + 1, ofs, n =>
    if n = 0 then []
    else
      let k := min n (unitBytes - ofs % unitBytes)
      (ofs / unitBytes, ofs % unitBytes, k) :: cutUnits fuel (ofs + k) (n - k)

/-- The units of a range of an owner's space. -/
def farUnits (ofs n : Nat) : List (Nat × Nat × Nat) := cutUnits (n / unitBytes + 2) ofs n

/-- Part of a unit as it reads: its bytes, or none for poison (R179). -/
def readUnit (s : State) (o lun ofs n : Nat) : Option (List Byte) :=
  match unitAt s o lun with
  | some u => if u.bad then none else some (memRead (unitData s o lun u) ofs n)
  | none => some (zeros n)

/-- R176: a block serves one more read. -/
def countBlkRead (s : State) (k : Nat) : State :=
  modBlk s k fun b =>
    { b with reads := b.reads + 1
             dueRefresh := if b.dueRefresh.isNone && 200000 ≤ b.reads + 1 then some s.time.beat else b.dueRefresh }

/-- R176: a read of a unit is served by the block that it is mapped to. -/
def countRead (s : State) (o lun : Nat) : State :=
  match mappedAt s o lun with
  | some p => countBlkRead s (physBlk p)
  | none => s

/-- R176: the reads of a range are counted. -/
def countReads (s : State) (o ofs n : Nat) : State := (farUnits ofs n).foldl (fun s e => countRead s o e.1) s

/-- The bytes of a range of an owner's space, poison reading as free bytes (R480 reads the spill area so). -/
def farBytes (s : State) (o ofs n : Nat) : List Byte :=
  (farUnits ofs n).flatMap fun e => match readUnit s o e.1 e.2.1 e.2.2 with
    | some d => d
    | none => (List.range e.2.2).map fun i => Config.freeByte s.free (e.1 * unitBytes + e.2.1 + i)

/-- Lines of a near-tier range become poison (R142). -/
def poisonNear (s : State) (p ofs n : Nat) : State :=
  modNear s p fun m =>
    { m with poison := (nearLines ofs n).foldl (fun t l => tblPut false t l true) m.poison }

/-- A range of the far tier written to near-tier ranges: panes with offsets. -/
def farToNear (s : State) (o ofs n : Nat) (dests : List (Nat × Nat)) : State :=
  (farUnits ofs n).foldl (fun s e =>
    let at' := e.1 * unitBytes + e.2.1 - ofs
    let d := readUnit s o e.1 e.2.1 e.2.2
    dests.foldl (fun s q => match d with
      | some b => nearWrite s q.1 (q.2 + at') b
      | none => poisonNear s q.1 (q.2 + at') e.2.2) (countRead s o e.1)) s

/-! ### Writes (R162, R165, R175) -/

/-- The far tier takes no write: read-only, low hold-up, recovering or without input power. -/
def farClosed (s : State) : Bool := s.far.readOnly || s.far.holdupLow || s.far.recovering || s.far.powerLost

/-- The channels that the units of a write would use (R162). -/
def writeChannels (s : State) (ofs n : Nat) : List Nat :=
  (List.range (min (farUnits ofs n).length 64)).map fun i => (s.far.nextChannel + i) % 64

/-- R175: a write meets a channel whose pool is critical. -/
def farExhausted (s : State) (ofs n : Nat) : Bool :=
  (writeChannels s ofs n).any fun c => poolState (freeBlks s c) == 3

/-- Quarter bytes a byte counts towards `LIFE_USED` in the write mode in force. -/
def lifeWeight (s : State) : Nat := if s.power.farEndurance then 3 else 4

/-- A program joins those of its channel; where the channel has no place for it, it waits for one (R175, R180). -/
def addProg (s : State) (g : FarProg) : State :=
  match placeUnit s g.channel (if g.moved.isSome then .openG else .openW) with
  | some (s1, p) => modFar s1 fun t => { t with progs := t.progs ++ [{ g with phys := p }] }
  | none => modFar s fun t => { t with progs := t.progs ++ [{ g with phys := noPhys }] }

/-- One unit of a write begins to be programmed: on the next channel, with what the unit held where the write leaves
part of it. A unit that reads as poison stays so until it is rewritten whole (R179). -/
def progUnit (s : State) (o lun ofs : Nat) (d : List Byte) (write : Nat) : State :=
  let ch := s.far.nextChannel
  let w := ownerOf s o
  let part := decide (d.length < unitBytes)
  let old : Mem := match unitAt s o lun with
    | some u => if part then unitData s o lun u else []
    | none => []
  let bad := part && ((unitAt s o lun).elim false (·.bad))
  let s1 := modFar (if part then countRead s o lun else s) fun t => { t with nextChannel := (ch + 1) % 64 }
  addProg s1
    { channel := ch, phys := noPhys, owner := o, lun := lun, gen := w.gen, key := w.key, data := memWrite old ofs d
      bad := bad, more := [], write := some write, weight := lifeWeight s, moved := none }

/-- A write request that has been admitted. -/
def farWrite (s : State) (o ofs : Nat) (d : List Byte) (sink : FarSink) : State :=
  let us := farUnits ofs d.length
  let id := s.far.nextWrite
  let s1 := modFar s fun t =>
    { t with nextWrite := id + 1
             writes := t.writes ++ [{ ident := id, owner := o, left := us.length, lastSeq := 0, sink := sink }] }
  us.foldl (fun s e =>
    progUnit s o e.1 e.2.1 ((d.drop (e.1 * unitBytes + e.2.1 - ofs)).take e.2.2) id) s1

/-- A command's far-tier write is acknowledged. -/
def ackCommand (s : State) (r : Nat) : State :=
  match (mbx s r).job with
  | some j => if j.opcode.toNat = opSwapOut || j.opcode.toNat = opShardFetch then decideJob s r ansOk else s
  | none => s

/-- R165: writes whose units are all programmed and whose records are durable are acknowledged. -/
def ackWrites (s : State) : State :=
  let done (w : FarWrite) : Bool := w.left == 0 && w.lastSeq < s.far.durSeq
  let s1 := modFar s fun t => { t with writes := t.writes.filter fun w => !done w }
  (s.far.writes.filter done).foldl (fun s w => match w.sink with
    | .command r => ackCommand s r
    | _ => s) s1

/-- R153: percentage of the rated 14.6 x 10^15 bytes. -/
def lifeUsed (t : FarTier) : Nat := min 255 (t.life * 100 / (4 * 14600000000000000))

/-- R153: bytes written to the media are counted, and the marks of 80 and 100 per cent reported once. -/
def countWritten (s : State) (n weight : Nat) : State :=
  let s1 := modFar s fun t => { t with written := t.written + n, life := t.life + weight * n }
  let u := lifeUsed s1.far
  let mark := if 100 ≤ u then 100 else if 80 ≤ u then 80 else 0
  if s.far.lifeMark < mark then
    record (modFar s1 fun t => { t with lifeMark := mark }) 0x0302 srcFar noPane (natLe 1 u)
  else s1

/-! ### Maps -/

/-- The map entry of a unit. -/
def setMap (o : FarOwner) (lun : Nat) (p gen : BitVec 32) : FarOwner :=
  { o with map := tblSet o.map lun { phys := p, gen := gen } }

/-- R172: a `MOVE` of one unit takes effect only on the entry it names. -/
def moveMap (o : FarOwner) (lun : Nat) (old new gen : BitVec 32) : FarOwner :=
  match tblFind o.map lun with
  | some e => if e.phys == old && e.gen == gen then setMap o lun new gen else o
  | none => o

/-- Units of a block that some owner's map points to with its current generation: owner and unit. -/
def validUnits (s : State) (ch b : Nat) : List (Nat × Nat × BitVec 32) :=
  (List.range 17).flatMap fun o =>
    let w := ownerOf s o
    (w.map.filter fun e => e.2.gen == w.gen && e.2.phys != noPhys && physBlk e.2.phys == blkKey ch b).map fun e =>
      (o, e.1, e.2.phys)

/-- The valid units of a block in unit order. -/
def unitOrder (l : List (Nat × Nat × BitVec 32)) : List (Nat × Nat × BitVec 32) :=
  (List.range blockUnits).flatMap fun u => l.filter fun e => e.2.2.toNat % blockUnits == u

/-! ### Commands of the media -/

/-- The units of a program: contents and poison, in order. -/
def FarProg.units (g : FarProg) : List (Mem × Bool) := (g.data, g.bad) :: g.more

/-- The units of a program stand on the media; the block's reads count anew (R176). -/
def putUnits (s : State) (g : FarProg) : State :=
  let unit (i : Nat) (u : Mem × Bool) : MediaUnit :=
    { owner := g.owner, lun := g.lun + i, gen := g.gen, key := g.key, data := u.1, bad := u.2 }
  modBlk (modFar s fun t =>
    { t with media := g.units.zipIdx.foldl (fun m e => tblSet m (g.phys.toNat + e.2) (unit e.2 e.1)) t.media })
    (physBlk g.phys) fun b => { b with reads := 0 }

/-- A program finishes: its units are on the media, its record is appended, the map follows. -/
def landProg (s : State) (g : FarProg) : State :=
  let n := g.units.length
  let s1 := countWritten (putUnits s g) (n * unitBytes) g.weight
  match g.moved with
  | some old =>
    let s2 := journal s1 jMove g.owner g.gen g.lun n g.phys old 0
    let s3 := modOwner s2 g.owner fun o => (List.range n).foldl (fun o i =>
      moveMap o (g.lun + i) (old + BitVec.ofNat 32 i) (g.phys + BitVec.ofNat 32 i) g.gen) o
    modFar s3 fun t =>
      { t with gcs := t.gcs.map fun j => if j.channel = g.channel then { j with lastSeq := lastSeqOf s2 } else j }
  | none =>
    let s2 := journal s1 jMapSet g.owner g.gen g.lun 1 g.phys 0 0
    let s3 := modOwner s2 g.owner fun o => setMap o g.lun g.phys g.gen
    modFar s3 fun t =>
      { t with writes := t.writes.map fun w =>
          if some w.ident == g.write then { w with left := w.left - 1, lastSeq := max w.lastSeq (lastSeqOf s2) } else w }

/-- R176: the beat in which a block fell due for refresh, if it has: by its reads, an uncorrectable unit, or its age. -/
def refreshDue (s : State) (b : Block) : Option Nat :=
  let old := b.since + 2 ^ 40
  match b.dueRefresh with
  | some t => some (min t old)
  | none => if old ≤ s.time.beat then some old else none

/-- R174: the refresh of a closed block has waited 1,048,576 beats. -/
def refreshOverdue (s : State) (b : Block) : Bool :=
  b.state == .used && ((refreshDue s b).elim false fun t => t + 1048576 ≤ s.time.beat)

/-- R174: the collector's guaranteed share holds on a channel. -/
def shareHeld (s : State) (ch : Nat) : Bool :=
  2 ≤ poolState (freeBlks s ch) || (listedBlks s ch).any fun e => refreshOverdue s e.2

/-- A program is ready to run on a channel. -/
def progReady (ch : Nat) (g : FarProg) : Bool := g.channel == ch && g.phys != noPhys

/-- R178: the program that a channel serves next: the collector's under its share first, else foreground writes first;
within a class the oldest. -/
def oldestProg (s : State) (ch : Nat) : Option FarProg :=
  let gc := s.far.progs.find? fun g => progReady ch g && g.moved.isSome
  let fg := s.far.progs.find? fun g => progReady ch g && g.moved.isNone
  if shareHeld s ch then gc.orElse fun _ => fg else fg.orElse fun _ => gc

/-- `PAGE_PROGRAM_COMPLETE` (R165, R171). -/
def execPageProgramComplete (channel : Fin 64) (s : State) : Host.Outcome State Fault Refusal :=
  match oldestProg s channel.val with
  | some g => .next (landProg (modFar s fun t => { t with progs := t.progs.erase g }) g)
  | none => .next s

/-- Programs that wait for a place on a channel are placed, as far as there is one. -/
def placeWaiting (s : State) (ch : Nat) : State :=
  (s.far.progs.filter fun g => g.channel == ch && g.phys == noPhys).foldl (fun s g =>
    addProg (modFar s fun t => { t with progs := t.progs.erase g }) g) s

/-- Table 16-2 row H: an error of a block; one declared faulty takes no more programs and is to be retired (R180). -/
def blockError (s : State) (k : Nat) : State :=
  let r := countError s rowH k 1
  if r.2 then modBlk r.1 k fun b =>
    { b with dueRetire := true, state := if b.state == .openW || b.state == .openG then .used else b.state }
  else r.1

/-- `PROGRAM_FAILED` (R180): the same data goes to another location of the channel, before the write is acknowledged; a
run of units goes unit by unit. What was programmed in vain counts as written (R153). -/
def execProgramFailed (channel : Fin 64) (s : State) : Host.Outcome State Fault Refusal :=
  match oldestProg s channel.val with
  | some g =>
    let s1 := blockError (countWritten (modFar s fun t => { t with progs := t.progs.erase g })
      (g.units.length * unitBytes) g.weight) (physBlk g.phys)
    .next (g.units.zipIdx.foldl (fun s e => addProg s
      { g with lun := g.lun + e.2, data := e.1.1, bad := e.1.2, more := []
               moved := g.moved.map (· + BitVec.ofNat 32 e.2) }) s1)
  | none => .next s

/-- R169: zeroings whose `GEN_BUMP` is durable are complete: the teardown of the pane learns of it. -/
def zeroingDone (s : State) : State :=
  let done := s.far.zeroing.filter fun z => z.2 < s.far.durSeq
  let s1 := modFar s fun t => { t with zeroing := t.zeroing.filter fun z => !(z.2 < s.far.durSeq) }
  done.foldl (fun s z => modPane s z.1 fun x =>
    { x with shutter := x.shutter.map fun sh => { sh with farSeq := z.2, farZeroed := true } }) s1

/-- A checkpoint whose `MAP_CKPT` is durable takes the place of the one before. -/
def commitCkpt (t : FarTier) : FarTier := match t.ckptNext with
  | some c => if c.seq < t.durSeq then
      { t with ckpt := c, ckptNext := none, journal := t.journal.filter fun r => c.seq < r.seq }
    else t
  | none => t

/-- Map entries that differ between two sets of maps. -/
def changedEntries (a b : Tbl FarOwner) : Nat :=
  (b.map fun e => ((e.2.map.filter fun x => tblFind (tblGet (ownerZero e.1) a e.1).map x.1 != some x.2)).length).foldl
    (· + ·) 0

/-- R164: every record below a `SEQ` is durable: its page has been programmed in both copies. The bytes of records and of
map pages count as written (R153): 64 a record and copy, 8 a map entry. -/
def makeDurable (s : State) (upto : Nat) : State :=
  let n := max s.far.durSeq (min upto s.far.nextSeq)
  let pages := match s.far.ckptNext with
    | some c => if c.seq < n then 8 * changedEntries s.far.ckpt.owners c.owners else 0
    | none => 0
  modFar (countWritten s (128 * (n - s.far.durSeq) + pages) (lifeWeight s)) fun t => commitCkpt { t with durSeq := n }

/-- `JOURNAL_DURABLE` (R164, R165): the journal page whose last record has the `SEQ` before `upto` has been programmed and
has passed its read-back check in both copies. -/
def execJournalDurable (upto : Nat) (s : State) : Host.Outcome State Fault Refusal :=
  .next (zeroingDone (ackWrites (makeDurable s upto)))

/-- `MAP_CHECKPOINT` (R166). -/
def execMapCheckpoint (s : State) : Host.Outcome State Fault Refusal :=
  .next (if s.far.recovering || s.far.powerLost then s else checkpoint s)

/-- Blocks of a channel that the 4 TB of the far tier fill, spread evenly over the channels (R160, R162). -/
def fullBlocks : Nat := ceilDiv 4000000000000 (64 * blockUnits * unitBytes)

/-- R181: with every block of its share of the 4 TB written, the channel cannot hold its pool above critical. -/
def checkReadOnly (s : State) (ch : Nat) : State :=
  let retired := ((listedBlks s ch).filter fun e => e.2.state == .retired).length
  if !s.far.readOnly && chanBlockCount - retired ≤ fullBlocks + 10 then
    record (modFar s fun t => { t with readOnly := true }) 0x0304 srcFar noPane []
  else s

/-- A block is retired. -/
def retireBlk (s : State) (ch b : Nat) : State :=
  let s1 := modBlk (journalBlk s jRetire ch b) (blkKey ch b) fun x => { x with state := .retired, dueRetire := false }
  checkReadOnly (modFar (dropCount s1 rowH (blkKey ch b)) fun t =>
    { t with media := tblClear t.media (blkKey ch b * 2048) 2048 }) ch

/-- No foreground work waits on a channel. -/
def channelIdle (s : State) (ch : Nat) : Bool := s.far.progs.all fun g => g.channel != ch || g.moved.isSome

/-- The closed block with the fewest valid units, then the lowest erase count, then the lowest number (R171). -/
def fewestValid (s : State) (ch : Nat) : Option Nat :=
  let c := ((listedBlks s ch).filter fun e => e.2.state == .used).map fun e =>
    ((validUnits s ch e.1).length, e.2.erases, e.1)
  (bestOf (fun a b : Nat × Nat × Nat =>
    a.1 < b.1 || (a.1 == b.1 && (a.2.1 < b.2.1 || (a.2.1 == b.2.1 && a.2.2 < b.2.2)))) c).map fun x => x.2.2

/-- The collector's next victim on a channel (R171, R173, R174, R176, R180): a block to be retired, or one whose refresh is
overdue; under its share the block with the fewest valid units; in idle channel time one due for refresh, or, where the
pool is `FAIR`, the block with the fewest valid units. -/
def victimOf (s : State) (ch : Nat) : Option Nat :=
  let l := (listedBlks s ch).filter fun e => e.2.state == .used
  let pool := poolState (freeBlks s ch)
  match l.find? (fun e => e.2.dueRetire), l.find? (fun e => refreshOverdue s e.2) with
  | some e, _ => some e.1
  | none, some e => some e.1
  | none, none =>
    if 2 ≤ pool then fewestValid s ch
    else if !channelIdle s ch then none
    else match l.find? fun e => (refreshDue s e.2).isSome with
      | some e => some e.1
      | none => if pool = 1 then fewestValid s ch else none

/-- A unit follows the last unit of a relocation on its channel, at its source and at its destination. -/
def extendsRun (g : FarProg) (e : Nat × Nat × BitVec 32) (u : MediaUnit) (p : BitVec 32) : Bool :=
  let n := BitVec.ofNat 32 g.units.length
  g.moved.any (fun old => old + n == e.2.2) && g.owner == u.owner && g.gen == u.gen && g.key == u.key
  && g.lun + g.units.length == u.lun && g.phys != noPhys && g.phys + n == p && physBlk g.phys == physBlk p

/-- The relocation of one unit begins: its ciphertext goes unchanged to a place on its own channel (R162, R168); units
that follow one another make a run (R171). Without a place the unit stays where it is. -/
def moveUnit (ch : Nat) (s : State) (e : Nat × Nat × BitVec 32) : State :=
  match tblFind s.far.media e.2.2.toNat, placeUnit s ch .openG with
  | some u, some (s1, p) =>
    let fresh : FarProg :=
      { channel := ch, phys := p, owner := u.owner, lun := u.lun, gen := u.gen, key := u.key, data := u.data, bad := u.bad
        more := [], write := none, weight := lifeWeight s, moved := some e.2.2 }
    modFar (countBlkRead s1 (physBlk e.2.2)) fun t => match t.progs.getLast? with
      | some g => if extendsRun g e u p then
          { t with progs := t.progs.dropLast ++ [{ g with more := g.more ++ [(u.data, u.bad)] }] }
        else { t with progs := t.progs ++ [fresh] }
      | none => { t with progs := [fresh] }
  | _, _ => s

/-- The valid units of a block begin to be relocated. -/
def moveValid (s : State) (ch b : Nat) : State := (unitOrder (validUnits s ch b)).foldl (moveUnit ch) s

/-- A block is taken as a victim: no more is programmed into it. -/
def collect (s : State) (ch b : Nat) : State :=
  moveValid (modFar (modBlk s (blkKey ch b) fun x => { x with state := .used }) fun t =>
    { t with gcs := t.gcs ++ [{ channel := ch, block := b, lastSeq := 0 }] }) ch b

/-- `GC_VICTIM` (R171, R174, R176). -/
def execGcVictim (channel : Fin 64) (s : State) : Host.Outcome State Fault Refusal :=
  if mediaIdle s || s.far.gcs.any (·.channel == channel.val) then .next s
  else match victimOf s channel.val with
    | some b => .next (collect s channel.val b)
    | none => .next s

/-- `GC_ERASE` (R171): the `MOVE`s are durable and no valid unit is left: the victim's erase begins, or it is retired.
Units that had no place to go are offered one again. Reads are served whole in one step, so none is in progress. -/
def execGcErase (channel : Fin 64) (s : State) : Host.Outcome State Fault Refusal :=
  match s.far.gcs.find? (·.channel == channel.val) with
  | none => .next s
  | some j =>
    let moving := s.far.progs.any fun g => g.channel == channel.val && g.moved.isSome
    if mediaIdle s || moving || !(j.lastSeq < s.far.durSeq || j.lastSeq == 0) then .next s
    else if !(validUnits s j.channel j.block).isEmpty then .next (moveValid s j.channel j.block)
    else
      let s1 := modFar s fun t => { t with gcs := t.gcs.filter (·.channel != channel.val) }
      if (blkOf s (blkKey j.channel j.block)).dueRetire then .next (retireBlk s1 j.channel j.block)
      else .next (modBlk s1 (blkKey j.channel j.block) fun b => { b with state := .erasing })

/-- `BLOCK_ERASE_COMPLETE` (R171, R180): the block joins the free pool, and programs that wait for a place get one. -/
def execBlockEraseComplete (channel : Fin 64) (block : BitVec 15) (failed : Bool) (s : State) :
    Host.Outcome State Fault Refusal :=
  let k := blkKey channel.val block.toNat
  if (blkOf s k).state ≠ .erasing then .next s
  else if failed then
    let r := countError s rowH k 1
    .next (retireBlk r.1 channel.val block.toNat)
  else
    let s1 := modBlk s k fun b => { blockZero with erases := b.erases + 1 }
    .next (placeWaiting (modFar (journalBlk s1 jErase channel.val block.toNat) fun t =>
      { t with media := tblClear t.media (k * 2048) 2048 }) channel.val)

/-- Blocks in use. -/
def inUse (b : Block) : Bool := b.state == .used || b.state == .openW || b.state == .openG

/-- Erase spread of a channel's blocks in use (R177). -/
def eraseSpread (s : State) (ch : Nat) : Nat :=
  let l := ((listedBlks s ch).filter fun e => inUse e.2).map fun e => e.2.erases
  match l with
  | [] => 0
  | a :: r => r.foldl max a - r.foldl min a

/-- `WEAR_LEVEL` (R177): in idle channel time the in-use block with the lowest erase count moves into the free block with
the highest. -/
def execWearLevel (channel : Fin 64) (s : State) : Host.Outcome State Fault Refusal :=
  let ch := channel.val
  let low := bestOf (fun a b : Nat × Nat => a.1 < b.1)
    (((listedBlks s ch).filter fun e => inUse e.2).map fun e => (e.2.erases, e.1))
  let high := bestOf (fun a b : Nat × Nat => b.1 < a.1) (freeCands s ch)
  match low, high with
  | some v, some d =>
    if mediaIdle s || eraseSpread s ch ≤ 256 || 2 ≤ poolState (freeBlks s ch) || s.far.progs.any (·.channel == ch)
        || s.far.gcs.any (·.channel == ch) then .next s
    else
      let s1 := match openOf s ch .openG with
        | some b => modBlk s (blkKey ch b) fun x => { x with state := .used }
        | none => s
      .next (collect (openBlk s1 ch d.2 .openG) ch v.2)
  | _, _ => .next s

/-- `READ_RECALIBRATION` (R178): channel c recalibrates in beat 64 c of an epoch. -/
def execReadRecalibration (channel : Fin 64) (s : State) : Host.Outcome State Fault Refusal :=
  if s.time.beat % 4096 = 64 * channel.val then
    .next (modFar s fun t => { t with recalibrated := t.recalibrated ||| (1#64 <<< channel.val) })
  else .next s

/-- `FAR_READ_RETRY` (R179): a failing unit is read again with shifted levels; when every retry fails it is poison. -/
def execFarReadRetry (owner : Fin 17) (lun : BitVec 32) (recovered : Bool) (s : State) :
    Host.Outcome State Fault Refusal :=
  match mappedAt s owner.val lun.toNat with
  | none => .next s
  | some p =>
    if recovered then .next s
    else
      let s1 := modFar s fun t =>
        { t with
          uncorr := BitVec.ofNat 16 (satAdd 16 t.uncorr.toNat 1)
          media := t.media.map fun e => if e.1 = p.toNat then (e.1, { e.2 with bad := true }) else e }
      let s2 := record s1 0x0303 srcFar (if owner.val < 16 then owner.val else noPane)
        (natLe 4 p.toNat ++ natLe 1 owner.val ++ natLe 8 lun.toNat)
      .next (blockError (modBlk s2 (physBlk p) fun b =>
        { b with dueRefresh := some (b.dueRefresh.getD s.time.beat) }) (physBlk p))

/-- `HOLDUP_MEASURE` (R183). -/
def execHoldupMeasure (micros : BitVec 32) (s : State) : Host.Outcome State Fault Refusal :=
  let low := decide (micros.toNat < 10000)
  let s1 := modFar s fun t => { t with holdupLow := low, holdupBeat := s.time.beat }
  .next (if low then record s1 0x0305 srcFar noPane (natLe 4 micros.toNat) else s1)

/-! ### Recovery (R184) -/

/-- One journal record applied to the owners' maps. -/
def replayMap (os : Tbl FarOwner) (r : JRec) : Tbl FarOwner :=
  let upd (f : FarOwner → FarOwner) : Tbl FarOwner :=
    tblSet os r.owner (f (tblGet (ownerZero r.owner) os r.owner))
  let each (f : FarOwner → Nat → FarOwner) : Tbl FarOwner :=
    upd fun o => (List.range r.count).foldl f o
  match r.type.toNat with
  | 1 => each fun o i => setMap o (r.lun + i) (r.newPhys + BitVec.ofNat 32 i) r.gen
  | 2 => each fun o i =>
      moveMap o (r.lun + i) (r.oldPhys + BitVec.ofNat 32 i) (r.newPhys + BitVec.ofNat 32 i) r.gen
  | 3 => each fun o i => { o with map := tblDel o.map (r.lun + i) }
  | 4 => upd fun o => { o with gen := r.gen }
  | _ => os

/-- One journal record applied to the blocks' states: an open block counts as in use. -/
def replayBlk (m : Tbl BlockState) (r : JRec) : Tbl BlockState :=
  match r.type.toNat with
  | 5 => tblSet m (physBlk r.aux) .used
  | 6 => tblSet m (physBlk r.aux) .free
  | 7 => tblSet m (physBlk r.aux) .retired
  | _ => m

/-- The generation of an owner as the journal has it. -/
def journalGen (os : Tbl FarOwner) (o : Nat) : BitVec 32 := (tblGet (ownerZero o) os o).gen

/-- A block as replay finds it: an open one is closed. -/
def replayedBlk (m : Tbl BlockState) (k : Nat) (b : Block) : Block :=
  match tblGet .free m k with
  | .free => { blockZero with erases := b.erases }
  | .retired => { b with state := .retired, dueRetire := false }
  | _ => { b with state := .used }

/-- `recover`: a block that is neither free nor retired and holds no valid unit is erased, or retired where that is due.
While the hold-up is low no erase is admitted (R183): the collector erases it later. -/
def recoverBlk (s : State) (k : Nat) : State :=
  let b := blkOf s k
  if b.state = .free || b.state = .retired || !(validUnits s (k / 32768) (k % 32768)).isEmpty then s
  else if b.dueRetire then retireBlk s (k / 32768) (k % 32768)
  else if s.far.holdupLow then s
  else modFar (journalBlk (modBlk s k fun b => { blockZero with erases := b.erases + 1 }) jErase (k / 32768) (k % 32768))
    fun t => { t with media := tblClear t.media (k * 2048) 2048 }

/-- The durable records that replay takes, up to the first that does not pass. -/
def durableRecs (t : FarTier) : List JRec := (t.journal.takeWhile fun r => r.seq < t.durSeq && recGood r)

/-- `recover` of R184: maps and block states from the last checkpoint and the durable journal, the generations from the
key store. -/
def recoverFar (s : State) : State :=
  let t := s.far
  let recs := durableRecs t
  let maps := recs.foldl replayMap t.ckpt.owners
  let states := recs.foldl replayBlk t.ckpt.blocks
  let owners := (List.range 17).foldl (fun os o =>
    match tblFind maps o, tblFind t.owners o with
    | none, none => os
    | _, _ =>
      let live := ownerOf s o
      tblSet os o { live with map := (tblGet (ownerZero o) maps o).map }) []
  let s1 := modFar s fun t =>
    { t with owners := owners, progs := [], writes := [], gcs := []
             blocks := t.blocks.map fun e => (e.1, replayedBlk states e.1 e.2) }
  let s2 := (List.range 17).foldl (fun s o =>
    if (ownerOf s o).gen = journalGen maps o then s
    else journal s jGenBump o (ownerOf s o).gen 0 0 0 0 0) s1
  let s3 := (t.blocks.map Prod.fst).foldl recoverBlk s2
  let s4 := checkpoint (makeDurable s3 s3.far.nextSeq)
  zeroingDone (modFar (makeDurable s4 s4.far.nextSeq) fun t => { t with recovering := false })

/-- `RECOVER` (R184, R485): step 6 of Table 20-1, after the controller's firmware has been loaded. -/
def execRecover (s : State) : Host.Outcome State Fault Refusal :=
  .next (if s.dk.ready && s.far.recovering && !s.far.powerLost then recoverFar s else s)

/-- R182: what the controller does on loss of input power: programs in progress complete, and the journal buffer is
programmed; erases in progress stay unfinished. -/
def farPowerLoss (s : State) : State :=
  let ps := s.far.progs
  let s1 := modFar s fun t => { t with powerLost := true, progs := [] }
  let s2 := (ps.filter (·.phys != noPhys)).foldl landProg s1
  makeDurable s2 s2.far.nextSeq

/-! ### Logical zeroing (R169, R170) -/

/-- R395: the staging and drain of a group end with its owner slot. -/
def dropStaging (s : State) (slot : Nat) : State :=
  match tblFind s.store.drains slot with
  | some d =>
    let s1 := record s 0x0306 srcFar slot (natLe 4 d.jobTag.toNat ++ natLe 6 d.step)
    let s2 := modGroup s1 slot fun g => { g with status := { g.status with drainState := 0 } }
    { s2 with store := { s2.store with
        drains := tblDel s2.store.drains slot, txns := s2.store.txns.filter fun x => x.owner != .drain slot } }
  | none => s

/-- Extents of every run whose far range lies in a pane's space are cut off. -/
def dropExtents (s : State) (p : Nat) : State :=
  { s with groups := s.groups.map fun g => match g.plan with
      | some d => { g with run := g.run.map fun r =>
          { r with extents := r.extents.filter fun e => match (planExtents d)[e.1]? with
              | some x => planPane g (gaPane x.far) != p
              | none => false } }
      | none => g }

/-- R169: an owner slot is zeroed: operations that name it are aborted, key and generation replaced, and `GEN_BUMP`
appended; its durability ends the zeroing. -/
def zeroOwner (s : State) (slot : Nat) : State :=
  let s0 := dropExtents (dropStaging s slot) slot
  let cmds := s0.far.writes.filterMap fun w => match w.sink with
    | .command r => if w.owner = slot then some r else none
    | _ => none
  let s1 := cmds.foldl (fun s r => endNow s r { status := stAborted, detail := 2 }) s0
  let gone (id : Option Nat) : Bool := s1.far.writes.any fun w => w.owner == slot && some w.ident == id
  let s2 := modFar s1 fun t =>
    { t with progs := t.progs.filter (fun g => !gone g.write), writes := t.writes.filter (·.owner != slot) }
  let gen := (ownerOf s2 slot).gen + 1
  let s3 := modOwner (modFar s2 fun t => { t with keyDraws := t.keyDraws + 1 }) slot fun o =>
    { o with gen := gen, key := Config.farKey s2.far.keyDraws }
  let s4 := journal s3 jGenBump slot gen 0 0 0 0 0
  modFar s4 fun t => { t with zeroing := t.zeroing.filter (·.1 != slot) ++ [(slot, lastSeqOf s4)] }

/-! ### Extents (R156, R158, R159) -/

/-- The plan beat that runs, or that a held beat keeps waiting. -/
def runBeat (r : Run) : Nat := if r.held.isSome then r.nextBeat else r.nextBeat - 1

/-- `EXTENT_START` (R156, R158): at `START_BEAT` of a step an extent begins to be read; in a held beat none begins. -/
def execExtentStart (lead : Pane16) (extent : Nat) (s : State) : Host.Outcome State Fault Refusal :=
  match groupLed s lead.val with
  | some g => match g.plan, g.run with
    | some d, some r => match (planExtents d)[extent]? with
      | some e =>
        let rel := runBeat r - r.planStep * planStepBeats d
        if r.started && r.held.isNone && e.start ≤ rel && rel < planStepBeats d
            && !r.extentsDone.contains extent && !(r.extents.any fun x => x.1 == extent) then
          .next (modRun s lead.val fun r =>
            { r with extents := r.extents ++ [(extent, r.planStep)], extentsDone := r.extentsDone ++ [extent] })
        else .next s
      | none => .next s
    | _, _ => .next s
  | none => .next s

/-- `EXTENT_DONE` (R156): the last byte is written in every pane, and the done latch receives its `ARRIVE`. -/
def execExtentDone (lead : Pane16) (extent : Nat) (s : State) : Host.Outcome State Fault Refusal :=
  match groupLed s lead.val with
  | some g => match g.plan, g.run with
    | some d, some r => match (planExtents d)[extent]? with
      | some e =>
        if r.extents.any fun x => x.1 == extent then
          let s1 := modRun s lead.val fun r => { r with extents := r.extents.filter fun x => x.1 != extent }
          let s2 := farToNear s1 (planPane g (gaPane e.far)) (gaOfs e.far) e.length
            ((planMaskPanes g e.paneMask).map fun p => (p, gaOfs e.near))
          .next (arriveRef s2 g e.doneLatch)
        else .next s
      | none => .next s
    | _, _ => .next s
  | none => .next s

end Sys2Proof.Machine
end

