-- ==== Sys2Proof/Machine/Frames.lean ====
section
/-! DEFINITION. Storm frames (R381 to R384, R386, R387, R392): what a copy holds, how a frame is laid out, how one is
written into a pane, and the elements that a restore takes from one (R396). -/

namespace Sys2Proof.Machine

/-- Bytes of a frame. -/
def frameSize : Nat := 3072

/-- Data bytes a frame carries at most (R384). -/
def frameData (isSealed : Bool) : Nat := if isSealed then 2944 else 3008

/-- R384: the `CRC` of a frame. -/
def frameCrc (f : List Byte) : Nat := crc32c (bytesAt f 0 48 ++ bytesAt f 56 4 ++ bytesAt f 64 3008)

/-- What a frame's header gives (Table 15-2). -/
structure FrameHdr where
  ftype : Nat
  buf : Nat
  tag : BitVec 32
  device : BitVec 16
  tray : Nat
  step : Nat
  bytes : Nat
  number : Nat
  tensor : Nat
  elem : Nat
  family : Nat
  variant : Nat
  deriving DecidableEq, Repr

/-- A frame as its 3,072 bytes. -/
def mkFrame (h : FrameHdr) (dest : BitVec 64) (d : List Byte) : List Byte :=
  let head := natLe 4 0x4D525453 ++ natLe 1 h.ftype ++ natLe 1 0x10 ++ natLe 1 h.buf ++ [0] ++ natLe 4 h.tag.toNat
    ++ natLe 2 h.device.toNat ++ natLe 1 h.tray ++ [0] ++ natLe 6 h.step ++ natLe 2 h.bytes ++ natLe 4 h.number
    ++ natLe 4 h.tensor ++ natLe 6 h.elem ++ zeros 2 ++ natLe 8 h.family
  let tail := natLe 4 h.variant
  let body := bytesAt d 0 3008
  head ++ natLe 8 dest.toNat ++ tail ++ natLe 4 (crc32c (head ++ tail ++ body)) ++ body

/-- A frame's header read. -/
def frameHdr (f : List Byte) : FrameHdr :=
  { ftype := leAt f 4 1, buf := leAt f 6 1, tag := BitVec.ofNat 32 (leAt f 8 4), device := BitVec.ofNat 16 (leAt f 12 2)
    tray := leAt f 14 1, step := leAt f 16 6, bytes := leAt f 22 2, number := leAt f 24 4, tensor := leAt f 28 4
    elem := leAt f 32 6, family := leAt f 40 8, variant := leAt f 56 4 }

/-- `DEST`. -/
def frameDest (f : List Byte) : BitVec 64 := BitVec.ofNat 64 (leAt f 48 8)

/-- The frame with another `DEST`, which its `CRC` does not cover. -/
def redirect (f : List Byte) (dest : BitVec 64) : List Byte := putBytes f 48 (natLe 8 dest.toNat)

/-- A storm frame of a supported format whose `CRC` holds (R385, R392). -/
def frameOk (f : List Byte) : Bool :=
  leAt f 0 4 == 0x4D525453 && fld (leAt f 5 1) 7 4 == 1 && leAt f 60 4 == frameCrc f

/-- `FTYPE` codes. -/
def ftOpen : Nat := 1
/-- `DATA`. -/
def ftData : Nat := 2
/-- `COMMIT`. -/
def ftCommit : Nat := 3

/-! ### What a copy holds (R381 to R384) -/

/-- R383: the tray index of this module. -/
def trayIndex (s : State) (g : Group) (d : List Byte) : Nat :=
  let c := memberCoord s g d
  c.1 % 2 + 2 * (c.2.1 % 2) + 4 * (c.2.2 % 2)

/-- The state tensors of a Plan. -/
def stateTensors (d : List Byte) : List TensorD := (planTensors d).filter (·.sclass == 1)

/-- Elements a data frame of a tensor holds. -/
def frameElems (isSealed : Bool) (t : TensorD) : Nat := frameData isSealed / max 1 t.elemBytes

/-- Data frames of a copy (`n`). -/
def copyFrames (isSealed : Bool) (d : List Byte) : Nat :=
  ((stateTensors d).map fun t => ceilDiv (t.count / 8) (max 1 (frameElems isSealed t))).foldl (· + ·) 0

/-- The pane and offset of an element of a tensor. -/
def elemPlace (g : Group) (t : TensorD) (e : Nat) : Nat × Nat :=
  (planPane g (gaPane t.shard), gaOfs t.shard + (e - t.firstElem) * t.elemBytes)

/-- The runs of elements of this module's eighth, one for each data frame: tensor, first element, elements. -/
def copyRuns (isSealed : Bool) (tray : Nat) (d : List Byte) : List (TensorD × Nat × Nat) :=
  (stateTensors d).flatMap fun t =>
    let n := t.count / 8
    let per := max 1 (frameElems isSealed t)
    (List.range (ceilDiv n per)).map fun i => (t, t.firstElem + tray * n + i * per, min per (n - i * per))

/-- A header for a group's copy. -/
def copyHdr (s : State) (g : Group) (d : List Byte) (step buf ftype number bytes : Nat) : FrameHdr :=
  { ftype := ftype, buf := buf, tag := groupTag s g, device := moduleId s, tray := trayIndex s g d, step := step
    bytes := bytes, number := number, tensor := 0, elem := 0, family := rd d 24 8, variant := rd d 32 4 }

/-- The data frames 1 to n of a copy, without destinations. -/
def copyData (s : State) (g : Group) (d : List Byte) (step buf : Nat) : List (List Byte) :=
  ((copyRuns g.isSealed (trayIndex s g d) d).zipIdx).map fun r =>
    let t := r.1.1
    let n := r.1.2.2 * t.elemBytes
    let at' := elemPlace g t r.1.2.1
    mkFrame { copyHdr s g d step buf ftData (r.2 + 1) n with tensor := t.ident, elem := r.1.2.1 } 0
      (nearRead s at'.1 at'.2 n)

/-- Control-frame data (Table 15-3). -/
def controlData (d : List Byte) (commit : Bool) (frames : List (List Byte)) : List Byte :=
  let crcs := frames.flatMap fun f => bytesAt f 60 4
  natLe 4 (if commit then frames.length else 0) ++ natLe 4 (stateTensors d).length
  ++ natLe 8 (if commit then crc64 crcs else 0) ++ natLe 8 ((frames.map fun f => leAt f 22 2).foldl (· + ·) 0)

/-- Frame 0 of a copy. -/
def controlFrame (s : State) (g : Group) (d : List Byte) (step buf : Nat) (commit : Bool) (frames : List (List Byte)) :
    List Byte :=
  mkFrame (copyHdr s g d step buf (if commit then ftCommit else ftOpen) 0 24) 0 (controlData d commit frames)

/-! ### Buffers (R386, R387, R392, Table 15-6) -/

/-- Frames of one buffer of a region of `len` bytes. -/
def bufFrames (len : Nat) : Nat := len / (3 * frameSize)

/-- Offset of a frame in a region. -/
def bufOfs (base len buf number : Nat) : Nat := base + buf * (bufFrames len * frameSize) + number * frameSize

/-- R387: the frame at an offset of a pane lies within a `STORM` range of the Plan loaded in its group. -/
def inStormRange (s : State) (p ofs : Nat) : Bool :=
  match groupOf s p with
  | some g => match g.plan with
    | some d => (planRanges d).any fun r =>
        r.kind == 3 && planPane g (gaPane r.base) == p && gaOfs r.base ≤ ofs
          && ofs + frameSize ≤ gaOfs r.base + r.length
    | none => false
  | none => false

/-- R387: a storm frame may be written at an offset of a pane. -/
def mayStorm (s : State) (p ofs : Nat) (tag : BitVec 32) : Bool :=
  p < 16 && (pane s p).state == .opened && (pane s p).jobTag == tag && inStormRange s p ofs

/-- R137, R387: a frame's `DEST` is a near-tier address of this module, and the frame may be written there. -/
def frameMay (s : State) (f : List Byte) : Bool :=
  let a := frameDest f
  gaDevice a == (moduleId s).toNat && gaTier a == 0 && mayStorm s (gaPane a) (gaOfs a) (frameHdr f).tag

/-- R392: the buffer at a base holds a committed copy: its step, if so. -/
def committedAt (s : State) (p base : Nat) : Option Nat :=
  let f0 := nearRead s p base frameSize
  let h := frameHdr f0
  let n := leAt f0 64 4
  if !(frameOk f0 && h.ftype == ftCommit && h.number == 0) then none
  else
    let fs := (List.range n).map fun i => nearRead s p (base + (i + 1) * frameSize) frameSize
    if fs.all (fun f => frameOk f && (frameHdr f).step == h.step)
        && crc64 (fs.flatMap fun f => bytesAt f 60 4) == leAt f0 72 8 then some h.step else none

/-- Whose copies a buffer holds. -/
def sameHeld (h : FrameHdr) (x : HeldCopy) : Bool := x.srcDevice == h.device

/-- The entry of `STORM_HELD` that a frame's buffer has in a pane: the region that holds the source's copies at that
place, or the lowest one not in use; none past the four that a pane reports. -/
def heldKey (s : State) (p : Nat) (h : FrameHdr) (base : Nat) : Option Nat :=
  let held := (pane s p).held
  match held.find? fun e => e.1 % 3 == h.buf && e.2.base == base with
  | some e => some e.1
  | none =>
    match held.find? fun e => sameHeld h e.2 && !(held.any fun f => f.1 == e.1 / 3 * 3 + h.buf) with
    | some e => some (e.1 / 3 * 3 + h.buf)
    | none => ((List.range 4).find? fun r => !(held.any fun e => e.1 / 3 == r)).map fun r => 3 * r + h.buf

/-- The base of the buffer that a frame belongs to. -/
def frameBase (f : List Byte) : Nat := gaOfs (frameDest f) - (frameHdr f).number * frameSize

/-- `STORM_HELD` takes note of a frame just written. -/
def noteHeld (s : State) (p : Nat) (srcPane : Option Nat) (f : List Byte) : State :=
  let h := frameHdr f
  let base := frameBase f
  match heldKey s p h base with
  | none => s
  | some k =>
    let fresh : HeldCopy :=
      { base := base, step := BitVec.ofNat 48 h.step, srcDevice := h.device
        srcPane := srcPane.elim ((Config.freeWord s.free).truncate 4) (BitVec.ofNat 4), hstate := .opened, frames := 0 }
    let old := tblGet fresh (pane s p).held k
    let new : HeldCopy :=
      if h.ftype = ftOpen then fresh
      else
        let more := { old with frames := BitVec.ofNat 32 (satAdd 32 old.frames.toNat 1) }
        if h.ftype = ftCommit && committedAt s p base == some h.step then
          { more with hstate := .committed, step := BitVec.ofNat 48 h.step }
        else more
    modPane (tookFree s) p fun x => { x with held := tblSet x.held k new }

/-- A frame is written at its `DEST`, if R387 lets it; `srcPane` is the source group's lead pane where it is known: no
field of Table 15-2 carries it, so that of another module's copy is a free value. -/
def writeFrame (s : State) (srcPane : Option Nat) (f : List Byte) : State :=
  let p := gaPane (frameDest f)
  if frameMay s f then noteHeld (nearWrite s p (gaOfs (frameDest f)) f) p srcPane f else s

/-! ### Restore (R396) -/

/-- The elements of a data frame that fall within the group's tray shards, written where the Plan's storm fields put
them. -/
def restoreFrame (s : State) (g : Group) (d : List Byte) (f : List Byte) : State :=
  let h := frameHdr f
  match (stateTensors d).find? (·.ident == h.tensor) with
  | none => s
  | some t =>
    let n := h.bytes / max 1 t.elemBytes
    (List.range n).foldl (fun s i =>
      let e := h.elem + i
      if t.firstElem ≤ e && e < t.firstElem + t.count then
        let at' := elemPlace g t e
        nearWrite s at'.1 at'.2 (bytesAt f (64 + i * t.elemBytes) t.elemBytes)
      else s) s

/-- The ranges that a restore of a group may write. -/
def restoreRanges (g : Group) (d : List Byte) : List (Nat × Nat × Nat) :=
  (stateTensors d).map fun t => (planPane g (gaPane t.shard), gaOfs t.shard, t.count * t.elemBytes)

end Sys2Proof.Machine
end

