-- ==== Sys2Proof/Machine/Store.lean ====
section
/-! DEFINITION. The store layer (R517 to R520): object descriptors, transactions with the shared file store, drains,
shard fetches and restores from the store, and their time limit (R374, R397). -/

namespace Sys2Proof.Machine

/-- The store layer changed. -/
def modStore (s : State) (f : StoreUnit → StoreUnit) : State := { s with store := f s.store }

/-- Message kinds of Table 21-7: `OPEN_WRITE`. -/
def skOpenWrite : Nat := 1
/-- `OPEN_READ`. -/
def skOpenRead : Nat := 2
/-- `CLOSE`. -/
def skClose : Nat := 4

/-- A message of a transaction (Table 21-7). -/
def storeMsg (x : StoreTxn) (kind : Nat) : List Byte :=
  natLe 1 kind ++ [0] ++ natLe 2 x.moduleId.toNat ++ natLe 4 x.xid.toNat ++ bytesAt x.desc 24 12
  ++ natLe 6 x.step.toNat ++ zeros 14 ++ natLe 8 x.length ++ zeros 8 ++ natLe 8 x.objCrc.toNat

/-- A message leaves as a SEND. -/
def sendStore (s : State) (x : StoreTxn) (kind : Nat) : State :=
  modStore s fun t => { t with sent := (storeMsg x kind :: t.sent).take 16 }

/-- The transaction with a number. -/
def txnOf (s : State) (xid : BitVec 32) : Option StoreTxn := s.store.txns.find? (·.xid == xid)

/-- A transaction replaced. -/
def setTxn (s : State) (x : StoreTxn) : State :=
  modStore s fun t => { t with txns := t.txns.map fun y => if y.xid == x.xid then x else y }

/-- The transactions of an owner are forgotten. -/
def dropTxns (s : State) (o : StoreOwner) : State :=
  modStore s fun t => { t with txns := t.txns.filter (·.owner != o) }

/-- The kind of message that opens a transaction. -/
def openKind : StoreOwner → Nat
  | .drain _ => skOpenWrite
  | _ => skOpenRead

/-- A transaction opens (R519 step 1, R520). -/
def openTxn (s : State) (o : StoreOwner) (desc : List Byte) (device : BitVec 16) (step length : Nat) : State :=
  let x : StoreTxn :=
    { xid := s.store.nextXid, owner := o, phase := .opening, desc := desc, moduleId := device
      step := BitVec.ofNat 48 step, length := length, rkey := 0, addr := 0, objCrc := 0 }
  let s1 := modStore (dropTxns s o) fun t => { t with txns := t.txns ++ [x], nextXid := t.nextXid + 1 }
  sendStore s1 x (openKind o)

/-- The running command that a fetch or restore transaction serves. -/
def storeJob (s : State) (o : StoreOwner) : Option (Nat × Job) :=
  let get (r op : Nat) : Option (Nat × Job) := match (mbx s r).job with
    | some j => if j.opcode.toNat = op && j.start.isSome && j.outcome.isNone then some (r, j) else none
    | none => none
  match o with
  | .drain _ => none
  | .fetch r => get r opShardFetch
  | .restore r => get r opRestore

/-- The descriptor of a command's packet. -/
def jobDesc (j : Job) : List Byte := bytesAt j.packet.params (if j.opcode.toNat = opRestore then 16 else 24) 64

/-! ### Drains (R393, R519) -/

/-- A drain's object: frames 1 to n, then frame 0. -/
def drainObject (d : DrainRun) : List Byte := ((d.image.drop 1) ++ d.image.take 1).flatten

/-- A staged drain begins, or begins again, from step 1. -/
def startDrain (s : State) (lead : Nat) : State :=
  match tblFind s.store.drains lead with
  | some d =>
    openTxn (modGroup s lead fun g => { g with status := { g.status with
        drainState := if g.status.drainState = 3 then 3 else 2 } })
      (.drain lead) d.desc (moduleId s) d.step (d.image.length * frameSize)
  | none => dropTxns s (.drain lead)

/-- The drain is complete. -/
def endDrain (s : State) (lead : Nat) (step : BitVec 48) : State :=
  let s1 := modGroup s lead fun g => { g with status := { g.status with drainedStep := step, drainState := 0 } }
  modStore (dropTxns s1 (.drain lead)) fun t => { t with drains := tblDel t.drains lead }

/-- A shared-store failure ends a command (R520). -/
def storeFailure : Ans := { status := stIoError, detail := 1 }

/-- The command of a fetch or restore transaction ends. -/
def endStoreJob (s : State) (o : StoreOwner) (a : Ans) : State :=
  match storeJob s o with
  | some (r, _) => endNow (dropTxns s o) r a
  | none => dropTxns s o

/-! ### Fetches and restores (R520) -/

/-- The panes of a mask, each with the offset of an address. -/
def spread (mask : BitVec 16) (a : BitVec 64) : List (Nat × Nat) := (maskPanes mask).map fun p => (p, gaOfs a)

/-- A fetched object reaches its destination: near-tier panes at once, a far-tier space as a write that ends the command
when it is acknowledged. -/
def landFetch (s : State) (r : Nat) (j : Job) (d : List Byte) : State :=
  let dst : BitVec 64 := BitVec.ofNat 64 (prm j.packet 8 8)
  if gaTier dst = 0 then
    let s1 := (spread (BitVec.ofNat 16 (prm j.packet 6 2)) dst).foldl (fun s q => nearWrite s q.1 q.2 d) s
    decideJob s1 r ansOk
  else farWrite s (gaPane dst) (gaOfs dst) d (.command r)

/-- R395, R392: an object whose last 3,072 bytes are a `COMMIT` frame committed for the frames before it: its data
frames. -/
def objectFrames (d : List Byte) (step : Nat) : Option (List (List Byte)) :=
  let n := d.length / frameSize - 1
  let f0 := bytesAt d (n * frameSize) frameSize
  let fs := (List.range n).map fun i => bytesAt d (i * frameSize) frameSize
  let ok := d.length == (n + 1) * frameSize && frameOk f0 && (frameHdr f0).ftype == ftCommit
    && (frameHdr f0).number == 0 && (frameHdr f0).step == step && leAt f0 64 4 == n
    && fs.all (fun f => frameOk f && (frameHdr f).step == step)
    && crc64 (fs.flatMap fun f => bytesAt f 60 4) == leAt f0 72 8
  if ok then some fs else none

/-- An object of a store restore has been read: its elements are written, and the next module's object is opened. -/
def landObject (s : State) (r : Nat) (j : Job) (x : StoreTxn) (d : List Byte) : State :=
  let lead := prm j.packet 0 1
  match groupLed s lead, objectFrames d (prm j.packet 4 6) with
  | some g, some fs => match g.plan with
    | some pl =>
      let s1 := fs.foldl (fun s f => if (frameHdr f).ftype = ftData then restoreFrame s g pl f else s) s
      if x.moduleId.toNat < leAt x.desc 38 2 then
        openTxn s1 (.restore r) x.desc (x.moduleId + 1) x.step.toNat 0
      else decideJob s1 r ansOk
    | none => endNow s r (badState s lead)
  | _, _ => endNow s r (badState s lead)

/-- A command notes the arrival of bytes (R374, R397). -/
def noteBytes (s : State) (r n : Nat) : State :=
  modMbx s r fun m => { m with job := m.job.map fun j => { j with lastBeat := s.time.beat, got := j.got + n } }

/-! ### Messages and completions -/

/-- `STORE_GRANT_RECEIVED` (R519, R520): the region is granted, and the transfer begins. -/
def execStoreGrantReceived (xid rkey : BitVec 32) (addr : BitVec 64) (s : State) :
    Host.Outcome State Fault Refusal :=
  match txnOf s xid with
  | some x => .next (if x.phase = .opening then setTxn s { x with phase := .moving, rkey := rkey, addr := addr } else s)
  | none => .next s

/-- `RDMA_WRITES_COMPLETE` (R519): the data frames are written; frame 0 follows, and `CLOSE` is sent. -/
def execRdmaWritesComplete (xid : BitVec 32) (s : State) : Host.Outcome State Fault Refusal :=
  match txnOf s xid with
  | some x => match x.owner with
    | .drain lead => match tblFind s.store.drains lead with
      | some d =>
        if x.phase = .moving then
          let obj := drainObject d
          let y := { x with phase := .closed, objCrc := BitVec.ofNat 64 (crc64 obj) }
          .next (sendStore (meterEth (setTxn s y) lead obj.length) y skClose)
        else .next s
      | none => .next s
    | _ => .next s
  | none => .next s

/-- `RDMA_READS_COMPLETE` (R520): the bytes read are delivered, and `CLOSE` is sent. -/
def execRdmaReadsComplete (xid : BitVec 32) (bytes : List Byte) (s : State) : Host.Outcome State Fault Refusal :=
  match txnOf s xid with
  | some x =>
    if x.phase ≠ .moving then .next s
    else match x.owner, storeJob s x.owner with
      | .drain _, _ => .next s
      | _, none => .next (dropTxns s x.owner)
      | .fetch _, some (r, j) =>
        let d := bytesAt bytes 0 x.length
        let s1 := sendStore (meterEth (noteBytes (dropTxns s x.owner) r d.length) (prm j.packet 0 1) d.length) x skClose
        .next (landFetch s1 r j d)
      | .restore _, some (r, j) =>
        let s1 := sendStore (meterEth (noteBytes (dropTxns s x.owner) r bytes.length) (prm j.packet 0 1) bytes.length)
          x skClose
        .next (landObject s1 r j x bytes)
  | none => .next s

/-- `STORE_DONE_RECEIVED` (R519): the object is durable, or the drain begins again. -/
def execStoreDoneReceived (xid : BitVec 32) (sstatus : BitVec 8) (objCrc : BitVec 64) (s : State) :
    Host.Outcome State Fault Refusal :=
  match txnOf s xid with
  | some x => match x.owner with
    | .drain lead =>
      if x.phase ≠ .closed then .next s
      else if sstatus = 0 && objCrc = x.objCrc then .next (endDrain s lead x.step)
      else .next (startDrain s lead)
    | _ => .next s
  | none => .next s

/-- R518: milliseconds as beats, rounded up. -/
def msBeats (ms : Nat) : Nat := ceilDiv (ms * 1000000) 8192

/-- `STORE_REFUSE_RECEIVED` (R519, R520). -/
def execStoreRefuseReceived (xid : BitVec 32) (sstatus : BitVec 8) (retryMs : BitVec 32) (s : State) :
    Host.Outcome State Fault Refusal :=
  match txnOf s xid with
  | some x =>
    if x.phase ≠ .opening then .next s
    else if sstatus = 3 then
      .next (setTxn s { x with phase := .waiting (s.time.beat + msBeats retryMs.toNat) })
    else match x.owner with
      | .drain lead => .next (startDrain s lead)
      | o => .next (endStoreJob s o storeFailure)
  | none => .next s

/-- `STORE_RETRY_EXPIRY` (R519, R520): the wait is over, and `OPEN` is sent again. -/
def execStoreRetryExpiry (xid : BitVec 32) (s : State) : Host.Outcome State Fault Refusal :=
  match txnOf s xid with
  | some x => match x.phase with
    | .waiting b =>
      if b ≤ s.time.beat then
        let y := { x with phase := .opening }
        .next (sendStore (setTxn s y) y (openKind x.owner))
      else .next s
    | _ => .next s
  | none => .next s

/-- `STORE_CONNECTION_LOST` (R519): a drain begins again; a fetch or restore gets no more bytes. -/
def execStoreConnectionLost (xid : BitVec 32) (s : State) : Host.Outcome State Fault Refusal :=
  match txnOf s xid with
  | some x => match x.owner with
    | .drain lead => .next (startDrain s lead)
    | o => .next (dropTxns s o)
  | none => .next s

/-- Beats without a byte after which a fetch or restore ends (Table 14-11, R397). -/
def byteLimit : Nat := 122071

/-- The running command of a requester, with an opcode, has had no byte for the limit. -/
def starved (s : State) (r op : Nat) : Bool := match (mbx s r).job with
  | some j => j.opcode.toNat == op && j.start.isSome && j.outcome.isNone && j.lastBeat + byteLimit ≤ s.time.beat
      && !(s.far.writes.any fun w => w.sink == .command r)
  | none => false

/-- `SHARD_FETCH_TIMEOUT` (R374). -/
def execShardFetchTimeout (r : Req) (s : State) : Host.Outcome State Fault Refusal :=
  .next (if starved s r.val opShardFetch then endStoreJob s (.fetch r.val) storeFailure else s)

/-- `RESTORE_TIMEOUT` (R397): the bytes it was writing are left undefined. -/
def execRestoreTimeout (r : Req) (s : State) : Host.Outcome State Fault Refusal :=
  .next (if starved s r.val opRestore then endStoreJob s (.restore r.val) storeFailure else s)

end Sys2Proof.Machine
end

