-- ==== Sys2Proof/Machine/Storm.lean ====
section
/-! DEFINITION. Storm copies and drains (R386 to R396): what a step boundary begins, snapshots and their sending, arriving
frames, acknowledgements and abandonment, and staging. -/

namespace Sys2Proof.Machine

/-! ### Step boundaries (R388, R393, R394) -/

/-- The buffer that a boundary's copy uses: regular by turns, triggered or on warning the third (R386, R388). -/
def boundaryBuf (c : StormCfg) (step : Nat) : Option Nat :=
  if 0 < c.interval && step % c.interval = 0 then some (step / c.interval % 2)
  else if c.now || c.warned then some 2 else none

/-- R393: a regular boundary at which a drain is due. -/
def drainDue (c : StormCfg) (step : Nat) : Option (List Byte) :=
  match c.drain with
  | some (n, desc) => if 0 < n && step % n = 0 && 0 < c.interval && step % c.interval = 0 then some desc else none
  | none => none

/-- R394: a drain's lateness is recorded. -/
def drainLate (s : State) (lead : Nat) (tag : BitVec 32) (step cause : Nat) : State :=
  record s 0x0501 (srcPane lead) lead (natLe 4 tag.toNat ++ natLe 6 step ++ natLe 1 cause)

/-- R394: a drain that is not complete at its limit is late, once. -/
def checkDrain (s : State) (g : Group) (step : Nat) : State :=
  let lead := leadOf g.members
  match tblFind s.store.drains lead with
  | some d =>
    if d.limit ≤ step && g.status.drainState ≠ 3 then
      drainLate (modGroup s lead fun g => { g with status := { g.status with drainState := 3 } }) lead d.jobTag d.step 0
    else s
  | none => s

/-- R393, R394: a drain begins with the snapshot of a boundary, unless the last one still runs. -/
def beginDrain (s : State) (g : Group) (step : Nat) (desc : List Byte) : State × Bool :=
  let lead := leadOf g.members
  if (tblFind s.store.drains lead).isSome then (drainLate s lead (groupTag s g) step 1, false)
  else
    let d : DrainRun :=
      { step := step, jobTag := groupTag s g, desc := desc, limit := step + g.storm.interval, wrote := false
        staged := false, image := [] }
    let s1 := modStore s fun t => { t with drains := tblSet t.drains lead d }
    (modGroup s1 lead fun g => { g with status := { g.status with drainState := 1 } }, true)

/-- A copy is counted as abandoned (Table 15-5). -/
def countAbandoned (s : State) (lead : Nat) : State :=
  modGroup s lead fun g =>
    { g with status := { g.status with abandoned := BitVec.ofNat 16 (satAdd 16 g.status.abandoned.toNat 1) } }

/-- R388, R393, R394: what the boundary before job step `step` begins for the group led by a pane. -/
def stormBoundary (s0 : State) (lead step : Nat) : State :=
  match groupLed s0 lead with
  | none => s0
  | some g0 => match g0.plan with
    | none => s0
    | some d =>
      let s := checkDrain s0 g0 step
      let s1 := modGroup s lead fun g => { g with storm := { g.storm with now := false, warned := false } }
      match boundaryBuf g0.storm step, g0.storm.buddy with
      | some buf, some b =>
        if bufFrames b.2.2.2 < copyFrames g0.isSealed d + 1 then countAbandoned s1 lead
        else
          let r := match drainDue g0.storm step with
            | some desc => match groupLed s1 lead with
              | some g => beginDrain s1 g step desc
              | none => (s1, false)
            | none => (s1, false)
          modGroup r.1 lead fun g => { g with copies := g.copies ++
            [{ step := step, buf := buf, taken := false, commitBeat := none, drain := r.2 }] }
      | _, _ => s1

/-- R386, R388: the boundary before a job step takes a copy. -/
def copyDue (g : Group) (d : List Byte) (step : Nat) : Bool :=
  (boundaryBuf g.storm step).isSome && g.storm.buddy.elim false fun b => copyFrames g.isSealed d + 1 ≤ bufFrames b.2.2.2

/-- R390: a copy of the group is not far enough for a plan beat: one in hand, or one that a boundary up to that beat
still has to begin. -/
def stormUnready (g : Group) (d : List Byte) (r : Run) (beat : Nat) : Bool :=
  let n := beat / max 1 (planStepBeats d)
  let step := r.firstStep + n
  let past := updateBeat d ≤ beat % max 1 (planStepBeats d)
  (g.copies.any fun c =>
    (!c.taken && !(stateTensors d).isEmpty && (c.step < step || past)) || (c.buf != 2 && c.step < step))
  || !(stateTensors d).isEmpty && (List.range (n - r.stormStep)).any fun i =>
    (i + 1 + r.stormStep < n || past) && copyDue g d (r.firstStep + r.stormStep + i + 1)

/-- R390: plan beat 0 of the next step is due, and is held for the copy that its boundary takes: `UPDATE_BEAT` is 0. -/
def heldForCopy (g : Group) (d : List Byte) (r : Run) : Bool :=
  r.held.isSome && r.stormStep == r.planStep && r.nextBeat == (r.planStep + 1) * planStepBeats d
  && updateBeat d == 0 && !(stateTensors d).isEmpty && copyDue g d (r.firstStep + r.planStep + 1)

/-! ### Abandonment (R391) -/

/-- R391: a copy of the group led by a pane is abandoned. -/
def abandonCopy (s : State) (lead : Nat) (c : CopyRun) : State :=
  match groupLed s lead with
  | none => s
  | some g =>
    let buddy : BitVec 16 := match g.storm.buddy with
      | some b => b.1
      | none => 0
    let s1 := modGroup (countAbandoned s lead) lead fun g =>
      { g with status := { g.status with buddyLost := true }, copies := g.copies.erase c }
    record s1 0x0500 (srcPane lead) lead (natLe 4 (groupTag s g).toNat ++ natLe 6 c.step ++ natLe 2 buddy.toNat)

/-- The path to a module has failed (R227), as far as this module can see: it is not in the table, or its port is. -/
def pathFailed (s : State) (device : BitVec 16) : Bool :=
  match routePort s device with
  | some p => (portOf s p).state == lsFailed
  | none => true

/-- R391: copies on their way to buddies whose path has failed are abandoned. -/
def abandonFailed (s : State) : State :=
  s.groups.foldl (fun s g => match g.storm.buddy with
    | some b =>
      if pathFailed s b.1 then (g.copies.filter (·.taken)).foldl (fun s c => abandonCopy s (leadOf g.members) c) s else s
    | none => s) s

/-! ### Snapshots (R389) -/

/-- Byte offset of a staging region in an owner's space: beyond every quota (R150). -/
def stagingOfs : Nat := 2 ^ 28 * unitBytes

/-- R393: a staged image goes to the far tier, if it takes writes now. -/
def stageDrain (s : State) (lead : Nat) (d : DrainRun) : State :=
  let bytes := d.image.flatten
  if farClosed s || farExhausted s stagingOfs bytes.length then s
  else farWrite (modStore s fun t => { t with drains := tblSet t.drains lead { d with wrote := true } })
    lead stagingOfs bytes (.staging lead)

/-- A frame as a unit of `BULK` traffic. -/
def framePart (lead : Nat) (device : BitVec 16) (f : List Byte) : Parcel :=
  { klass := 3, device := device, bytes := f, pane := some lead, via := lead, sealedHdr := none, slot := none }

/-- R389: the frames 0 (`OPEN`), 1 to n, and 0 (`COMMIT`) of a copy, in the order in which they are written and sent. -/
def copySequence (s : State) (g : Group) (d : List Byte) (c : CopyRun) : List (List Byte) :=
  let fs := copyData s g d c.step c.buf
  controlFrame s g d c.step c.buf false fs :: fs ++ [controlFrame s g d c.step c.buf true fs]

/-- The frames of a sequence with their destinations in a region. -/
def placeFrames (device : BitVec 16) (p base len buf : Nat) (fs : List (List Byte)) : List (List Byte) :=
  fs.map fun f => redirect f (mkGa device.toNat p 0 (bufOfs base len buf (frameHdr f).number))

/-- R389 steps 1 and 2: the snapshot of a copy is written, and the copy begins to be sent; a drain of it stages the
snapshot's frames as they stand in its buffer, frame 0 first (R393). -/
def takeSnapshot (s : State) (g : Group) (d : List Byte) (c : CopyRun) : State :=
  let lead := leadOf g.members
  match g.storm.buddy with
  | none => s
  | some (device, p, ofs, len) =>
    let seq := copySequence s g d c
    let own := placeFrames (moduleId s) lead (ofs + len) len c.buf seq
    let s1 := own.foldl (fun s f => writeFrame s (some lead) f) s
    let s2 := match tblFind s1.store.drains lead with
      | some dr =>
        if c.drain && dr.step == c.step then
          let dr1 := { dr with image := (own.drop own.length.pred) ++ (own.drop 1).dropLast }
          stageDrain (modStore s1 fun t => { t with drains := tblSet t.drains lead dr1 }) lead dr1
        else s1
      | none => s1
    let c1 := { c with taken := true }
    let s3 := modGroup s2 lead fun g => { g with copies := g.copies.map fun x => if x == c then c1 else x }
    if pathFailed s3 device then abandonCopy s3 lead c1
    else (placeFrames device p.toNat ofs len c.buf seq).foldl (fun s f => sendParcel s (framePart lead device f)) s3

/-- `SNAPSHOT_DONE` (R389): the oldest copy not yet taken has its snapshot. -/
def execSnapshotDone (lead : Pane16) (s : State) : Host.Outcome State Fault Refusal :=
  match groupLed s lead.val with
  | some g => match g.plan, g.copies.find? fun c => !c.taken with
    | some d, some c => .next (takeSnapshot s g d c)
    | _, _ => .next s
  | none => .next s

/-! ### Arriving frames (R387, R389, R396) -/

/-- R389 step 3: the buddy's acknowledgement; the manual gives it no layout. -/
def sendAck (s : State) (device : BitVec 16) : State :=
  sendMgmt (tookFree s) device ((List.range 32).map (Config.freeByte s.free))

/-- The requester whose running `RESTORE` a frame is for. -/
def restoreFor (s : State) (h : FrameHdr) : Option (Nat × Job) :=
  (jobsInHand s).find? fun e =>
    e.2.opcode.toNat == opRestore && e.2.start.isSome && e.2.outcome.isNone && prm e.2.packet 1 1 == 0
      && prm e.2.packet 4 6 == h.step
      && (match groupLed s (prm e.2.packet 0 1) with
          | some g => groupTag s g == h.tag
          | none => false)

/-- R396, R397: a frame of a restore arrives: its elements are written; the restore is complete when every data frame of
the copy has come. -/
def takeRestoreFrame (s : State) (r : Nat) (j : Job) (f : List Byte) : State :=
  let h := frameHdr f
  if !frameOk f then s
  else
    let s1 := match groupLed s (prm j.packet 0 1) with
      | some g => match g.plan with
        | some d => if h.ftype = ftData then restoreFrame s g d f else s
        | none => s
      | none => s
    let got := j.got + (if h.ftype = ftData then 1 else 0)
    let need := if h.ftype = ftCommit then some (leAt f 64 4) else j.need
    let s2 := modMbx s1 r fun m => { m with job := m.job.map fun j =>
      { j with got := got, need := need, lastBeat := s.time.beat } }
    match need with
    | some n => if n ≤ got then decideJob s2 r ansOk else s2
    | none => s2

/-- A storm frame reaches this module: it belongs to a restore, or it is written where R387 lets it, and the `COMMIT`
frame is acknowledged. -/
def receiveFrame (s : State) (f : List Byte) : State :=
  let h := frameHdr f
  match restoreFor s h with
  | some (r, j) => takeRestoreFrame s r j f
  | none =>
    if frameMay s f then
      let s1 := writeFrame s none f
      if h.ftype = ftCommit then sendAck s1 h.device else s1
    else s

/-- `STORM_FRAME_RECEIVED` (R387, R389, R396). -/
def execStormFrameReceived (frame : List Byte) (s : State) : Host.Outcome State Fault Refusal :=
  .next (receiveFrame s frame)

/-- `STORM_ACK_RECEIVED` (R389): the oldest copy whose `COMMIT` has been sent is acknowledged. -/
def execStormAckReceived (lead : Pane16) (s : State) : Host.Outcome State Fault Refusal :=
  match groupLed s lead.val with
  | some g => match g.copies.find? fun c => c.commitBeat.isSome with
    | some c => .next (modGroup s lead.val fun g =>
        { g with copies := g.copies.erase c
                 status := { g.status with commitStep := BitVec.ofNat 48 c.step, lastBuf := BitVec.ofNat 2 c.buf } })
    | none => .next s
  | none => .next s

/-- R391: the copy's `COMMIT` was sent 1,024 beats ago or more. -/
def copyOverdue (s : State) (c : CopyRun) : Bool := match c.commitBeat with
  | some b => b + 1024 ≤ s.time.beat
  | none => false

/-- `COPY_ABANDON_TIMEOUT` (R391). -/
def execCopyAbandonTimeout (lead : Pane16) (s : State) : Host.Outcome State Fault Refusal :=
  match groupLed s lead.val with
  | some g => match g.copies.find? (copyOverdue s) with
    | some c => .next (abandonCopy s lead.val c)
    | none => .next s
  | none => .next s

/-- `DRAIN_STAGED` (R393): the staged image is acknowledged in the far tier, and the drain to the store begins; one that
the far tier could not take is offered again. -/
def execDrainStaged (lead : Pane16) (s : State) : Host.Outcome State Fault Refusal :=
  match tblFind s.store.drains lead.val with
  | some d =>
    if d.staged || d.image.isEmpty then .next s
    else if !d.wrote then .next (stageDrain s lead.val d)
    else if s.far.writes.any fun w => w.sink == .staging lead.val then .next s
    else .next (startDrain (modStore s fun t => { t with drains := tblSet t.drains lead.val { d with staged := true } })
      lead.val)
  | none => .next s

end Sys2Proof.Machine
end

