-- ==== Sys2Proof/Machine/TestOps.lean ====
section
/-! DEFINITION. The self-test unit as other families meet it (17_self_test.md): a pane enters `TESTING`, the test budget
(R427), suspension (R428, R429) and the estimated ready beat (R434). -/

namespace Sys2Proof.Machine

/-- Cap of a power mode in watts (Table 20-3). -/
def capWatts (m : BitVec 2) : Nat := [2600, 2200, 1800].getD m.toNat 0

/-- The test of a pane. -/
def testOf (s : State) (p : Nat) : PaneTest := tblGet PaneTest.reset s.test.panes p

/-- The test of a pane changed. -/
def modTest (s : State) (p : Nat) (f : PaneTest → PaneTest) : State :=
  { s with test := { s.test with panes := tblSet s.test.panes p (f (testOf s p)) } }

/-- `STEPPING_TAG` of a test by this module (Table 17-3): stepping B0, and the version of the ROM reference table. -/
def steppingTag : BitVec 16 := BitVec.ofNat 16 (0x1000 + Config.romVersion.toNat)

/-- An entry as manufacture leaves it: the block has passed its test, with nothing retired; at t0 of the first power-up
the hub is in use (R431). -/
def ledgerZero (e : Nat) : TestEntry :=
  { signature := Config.romSignature e 0 0, steppingTag := steppingTag, count := 1, result := 1, used := e == 16 }

/-- A test ledger entry. -/
def ledgerOf (s : State) (e : Nat) : TestEntry := tblGet (ledgerZero e) s.test.ledger e

/-- A test ledger entry changed (R430). -/
def modLedger (s : State) (e : Nat) (f : TestEntry → TestEntry) : State :=
  { s with test := { s.test with ledger := tblSet s.test.ledger e (f (ledgerOf s e)) } }

/-- `TSTATE` codes. -/
def tsQueued : BitVec 3 := 1
/-- Active. -/
def tsActive : BitVec 3 := 2
/-- Suspended. -/
def tsSuspended : BitVec 3 := 3
/-- Passed. -/
def tsPassed : BitVec 3 := 4
/-- Passed with retirements. -/
def tsRetired : BitVec 3 := 5
/-- Failed. -/
def tsFailed : BitVec 3 := 6

/-- The panes whose test is in a state. -/
def testsIn (s : State) (t : BitVec 3) : List Nat := (List.range 16).filter fun p => (testOf s p).tstate == t

/-- A pane enters `TESTING`: its test is queued (R427). -/
def enterTesting (s : State) (p : Nat) : State :=
  let s1 := modTest (modPane s p fun x => { x with state := .testing }) p fun _ =>
    { PaneTest.reset with tstate := tsQueued }
  { s1 with test := { s1.test with startDue := s1.test.startDue &&& ~~~(paneBit p) } }

/-- R427: the test budget in tenths of a pane's share. -/
def testBudget (s : State) : Nat := 160 * capWatts s.power.capMode / 2600

/-- Panes that are `OPEN`. -/
def openPanes (s : State) : Nat := ((List.range 16).filter fun p => (pane s p).state == .opened).length

/-- R427: the load with a number of active tests. -/
def testLoad (s : State) (active : Nat) : Nat := 10 * openPanes s + 14 * active

/-- R427: with a number of active tests, one more may start. -/
def mayTest (s : State) (active : Nat) : Bool := active < 4 && testLoad s (active + 1) ≤ testBudget s

/-- A test of a list that comes first, or last, in the order of starting. -/
def pickTest (s : State) (last : Bool) : List Nat → Option Nat
  | [] => none
  | p :: r => match pickTest s last r with
    | none => some p
    | some q =>
      let a := (testOf s p).order
      let b := (testOf s q).order
      if (if last then b < a else a < b) then some p else some q

/-- An active test is suspended. -/
def suspendTest (s : State) (p : Nat) : State := modTest s p fun t => { t with tstate := tsSuspended }

/-- R428: the most recently started active tests are suspended until the load is within the budget. -/
def suspendToBudget (s : State) : Nat → State
  | 0 => s
  | n + 1 =>
    let act := testsIn s tsActive
    if testLoad s act.length ≤ testBudget s then s
    else match pickTest s true act with
      | some p => suspendToBudget (suspendTest s p) n
      | none => s

/-- R429: a thermal trip suspends every active test. -/
def suspendAll (s : State) : State := (testsIn s tsActive).foldl suspendTest s

/-- Removes one element at a time in an order that `pick` gives. -/
def orderBy (pick : List Nat → Option Nat) : Nat → List Nat → List Nat
  | 0, _ => []
  | n + 1, l => match pick l with
    | some p => p :: orderBy pick n (l.erase p)
    | none => []

/-- R427, R429: the order in which waiting tests start: suspended ones, oldest first, then queued ones by pane. -/
def waitingTests (s : State) : List Nat :=
  orderBy (pickTest s false) 16 (testsIn s tsSuspended) ++ testsIn s tsQueued

/-- Bounds of the phases of Table 17-1. -/
def phaseBound (n : Nat) : Nat := [0, 16, 61036, 12208, 24415, 984375, 1716].getD n 0

/-- Bounds of a test's phases from one on. -/
def restOfTest (phase : Nat) : Nat := ((List.range 7).filter (phase ≤ ·)).foldl (fun t n => t + phaseBound n) 0

/-- The bound of a whole pane test. -/
def fullTest : Nat := 1083766

/-- The smallest of a list. -/
def least : List Nat → Option Nat
  | [] => none
  | a :: r => match least r with
    | some b => some (min a b)
    | none => some a

/-- R434: the beat at which a waiting test ends, tests starting under R427 as those ahead of them end. -/
def forecast (s : State) (p : Nat) : Nat → Nat → List Nat → List Nat → Nat
  | 0, t, _, _ => t + fullTest
  | n + 1, t, ends, wait =>
    if mayTest s ends.length then match wait with
      | q :: r => if q = p then t + fullTest else forecast s p n t (ends ++ [t + fullTest]) r
      | [] => t + fullTest
    else match least ends with
      | some e => forecast s p n (max t e) (ends.erase e) wait
      | none => t + fullTest

/-- R434: the estimated ready beat of a pane under test; 0 for one that is not. -/
def readyBeat (s : State) (p : Nat) : Nat :=
  let t := testOf s p
  let ends := (testsIn s tsActive).map fun q => (testOf s q).since + restOfTest (testOf s q).phase
  if t.tstate = tsActive then t.since + restOfTest t.phase
  else if t.tstate = tsQueued || t.tstate = tsSuspended then forecast s p 64 (s.time.beat + 1) ends (waitingTests s)
  else 0

end Sys2Proof.Machine
end

