-- ==== Sys2Proof/Machine/Sequencer.lean ====
section
/-! DEFINITION. The running of Plans (02_beat_and_time.md, 03_cells.md, 05_plans.md, 10_collectives.md): module beat
boundaries, plan beats and holds (R54, R57, R58, R120, R273, R276), the start and the steps of a Plan (R21, R55, R130,
R351), and blocks (R56). -/

namespace Sys2Proof.Machine

/-! ### The sequencers of the cells (R55, R56) -/

/-- The plan step a cell may walk in: the run's steps, and, once a stop is due, none after the one in progress. -/
def stepAllowed (r : Run) (step : Nat) : Bool :=
  (r.stepCount = 0 || step < r.stepCount) && (!r.stopping || step ≤ r.planStep)

/-- The next sequencer entry of a cell. -/
def nextEntry (c : Cell) : Nat := (tblGet 0 c.seqTab c.seqIdx).toNat

/-- A cell's next block in plan time, in ticks; none when the cell has no block to start. -/
def nextBlock (d : List Byte) (r : Run) (c : Cell) : Option Nat :=
  if c.seqCount = 0 || c.halted || !stepAllowed r c.seqStep then none
  else some ((c.seqStep * planStepBeats d + seqBeat (nextEntry c)) * 8192 + seqTick (nextEntry c))

/-- The plan instant that a boundary before the next plan beat has reached, in ticks (R54). -/
def planEdge (r : Run) : Nat := r.nextBeat * 8192

/-- The present plan instant. -/
def planNow (s : State) (r : Run) : Nat :=
  if r.held.isSome then planEdge r else (r.nextBeat - 1) * 8192 + s.time.tick

/-- R57: a block has passed its slack at a plan instant without starting. -/
def overdueAt (d : List Byte) (r : Run) (at' : Nat) (c : Cell) : Bool := match nextBlock d r c with
  | some t => t + planSlack d < at'
  | none => false

/-- R57: some cell of a pane has an overdue block. -/
def paneOverdue (s : State) (d : List Byte) (r : Run) (p : Nat) : Bool :=
  (List.range 32).any fun l => overdueAt d r (planEdge r) (cell s p l)

/-- R159: an extent into a pane is late. -/
def extentLate (g : Group) (d : List Byte) (r : Run) (p : Nat) : Bool :=
  r.extents.any fun x => match (planExtents d)[x.1]? with
    | some e => (planMaskPanes g e.paneMask).contains p
        && decide (x.2 * planStepBeats d + e.need ≤ r.nextBeat)
    | none => false

/-- R352: what a late block of a pane is charged to. -/
def lateCause (g : Group) (d : List Byte) (r : Run) (p : Nat) : HoldCause :=
  if extentLate g d r p then .streamLate else .ownLate

/-- R57: the cause for which some pane of a group must hold. -/
def overdueCause (s : State) (g : Group) (d : List Byte) (r : Run) : Option HoldCause :=
  let ps := (maskPanes g.members).filter (paneOverdue s d r)
  if ps.any (extentLate g d r) then some .streamLate else if ps.isEmpty then none else some .ownLate

/-! ### Gates (R120, R258) -/

/-- What must be set before a transmit stream's first slot: its step-relative plan beat, the pane and cell whose token
gates it, the token, and the stream. -/
structure Gate where
  rel : Nat
  pane : Nat
  cell : Nat
  token : Nat
  stream : Nat
  deriving DecidableEq, Repr

/-- The collective that a stream belongs to. -/
def streamColl (d : List Byte) (x : StreamD) : Option Nat :=
  (List.range (collCount d)).find? fun i =>
    let c := planColl d i
    gaPane c.stage == gaPane x.addr && gaOfs c.stage ≤ gaOfs x.addr && gaOfs x.addr < gaOfs c.stage + c.stageBytes

/-- The first plan beat of a step in which a stream has a slot. -/
def streamFirst (d : List Byte) (n : Nat) : Option Nat :=
  (((planRuns d).filter fun r => !r.rx && r.kindCode != 2 && r.stream == n).map (·.beatOfs)).min?

/-- The gates of a Plan's transmit streams. -/
def planGates (g : Group) (d : List Byte) : List Gate :=
  (List.range (streamCount d)).filterMap fun n =>
    let x := planStream d n
    if x.rx then none
    else (streamFirst d n).map fun b => match streamColl d x with
      | some i =>
        let c := planColl d i
        { rel := b, pane := planPane g (gaPane c.src), cell := c.readyCell, token := c.readyToken, stream := n }
      | none => { rel := b, pane := planPane g (gaPane x.addr), cell := x.readyCell, token := x.readyToken, stream := n }

/-- A gate's token is set. -/
def gateOpen (s : State) (x : Gate) : Bool := 31 < x.cell || (cell s x.pane x.cell).tokSet.getLsbD x.token

/-- A gate at a plan beat is not open. -/
def gateShut (s : State) (g : Group) (d : List Byte) (beat : Nat) : Bool :=
  (planGates g d).any fun x => x.rel == beat % max 1 (planStepBeats d) && !gateOpen s x

/-- A plan beat lies beyond the last step of a run. -/
def beyondEnd (d : List Byte) (r : Run) (beat : Nat) : Bool := !stepAllowed r (beat / max 1 (planStepBeats d))

/-- R120, R390: a plan beat cannot begin for want of readiness. -/
def beatUnready (s : State) (g : Group) (d : List Byte) (r : Run) (beat : Nat) : Bool :=
  !beyondEnd d r beat && (gateShut s g d beat || stormUnready g d r beat)

/-- R276: something of the group that falls within the next `n` plan beats is not ready. -/
def soonUnready (s : State) (g : Group) (d : List Byte) (r : Run) (n : Nat) : Bool :=
  let step := max 1 (planStepBeats d)
  let next (rel : Nat) : Nat :=
    if rel < r.nextBeat % step then (r.nextBeat / step + 1) * step + rel else r.nextBeat / step * step + rel
  (planGates g d).any (fun x => next x.rel < r.nextBeat + n && !beyondEnd d r (next x.rel) && !gateOpen s x)
  || (List.range n).any fun i => !beyondEnd d r (r.nextBeat + i) && stormUnready g d r (r.nextBeat + i)

/-! ### Holds -/

/-- A count of 16 bits, one more. -/
def inc16 (n : BitVec 16) : BitVec 16 := BitVec.ofNat 16 (satAdd 16 n.toNat 1)

/-- R352, R57: a held beat is charged to a pane. -/
def chargeHold (c : HoldCause) (x : Pane) : Pane :=
  let r := x.regs
  let r1 := { r with heldBeats := BitVec.ofNat 32 (satAdd 32 r.heldBeats.toNat 1) }
  { x with regs := match c with
    | .ownLate => { r1 with ownLate := inc16 r.ownLate }
    | .streamLate => { r1 with streamLate := inc16 r.streamLate }
    | .notReady => { r1 with notReady := inc16 r.notReady }
    | .peer => { r1 with peerHold := inc16 r.peerHold } }

/-- One more held beat before a plan beat. -/
def logHold (l : List (Nat × Nat)) (beat : Nat) : List (Nat × Nat) :=
  if l.any (·.1 == beat) then l.map fun e => if e.1 = beat then (beat, e.2 + 1) else e else l ++ [(beat, 1)]

/-- The present beat is held for a group. -/
def holdBeat (s : State) (g : Group) (c : HoldCause) : State :=
  let s1 := modPanes s g.members fun _ => chargeHold c
  modRun s1 (leadOf g.members) fun r =>
    { r with held := some c, holdLog := logHold r.holdLog r.nextBeat
             wantHold := if planModules (g.plan.getD []) = 1 then none else r.wantHold }

/-- A collective begins. -/
def freshColl (i step : Nat) : CollRun :=
  { index := i, step := step, expo := [], normOwn := 0, noiseOwn := 0, nanSeen := false, done := [], held := []
    known := [], written := [] }

/-- Collectives in progress, with one more. -/
def joinColl (i step : Nat) (l : List CollRun) : List CollRun :=
  if l.any fun c => c.index == i && c.step == step then l else l ++ [freshColl i step]

/-- The present beat takes the next plan beat: streams and collectives whose first slot falls in it begin. -/
def planBeat (s : State) (g : Group) (d : List Byte) (r : Run) : State :=
  let step := max 1 (planStepBeats d)
  let rel := r.nextBeat % step
  let now' := if beyondEnd d r r.nextBeat then [] else (planGates g d).filter fun x => x.rel == rel
  let live := now'.filter (gateOpen s)
  let colls := live.filterMap fun x => streamColl d (planStream d x.stream)
  let s1 := modRun s (leadOf g.members) fun r =>
    { r with
      held := none, nextBeat := r.nextBeat + 1, taken := ((s.time.beat, r.nextBeat) :: r.taken).take 16
      wantHold := if planModules d = 1 then none else r.wantHold
      begun := live.foldl (fun t x => tblPut false t x.stream true) (if rel = 0 then [] else r.begun)
      colls := colls.foldl (fun l i => joinColl i (r.nextBeat / step) l) r.colls }
  match now'.find? fun x => !gateOpen s x with
  | some x => abortGroup s1 g (match streamColl d (planStream d x.stream) with
      | some i => (planColl d i).ident
      | none => noColl) 6
  | none => s1

/-- The hold period that holds a beat for a run. -/
def periodAt (d : List Byte) (r : Run) (beat : Nat) : Option (Nat × HoldCause) :=
  r.periods.find? fun q => q.1 ≤ beat && beat < q.1 + holdGrid d

/-- R54, R57, R58, R120, R273: the present beat is held, or takes the next plan beat. -/
def beginBeat (s : State) (g : Group) (d : List Byte) (r : Run) : State :=
  if planModules d = 1 then
    if beyondEnd d r r.nextBeat then planBeat s g d r
    else if beatUnready s g d r r.nextBeat then holdBeat s g .notReady
    else match r.wantHold, overdueCause s g d r with
      | some c, _ => holdBeat s g c.1
      | none, some c => holdBeat s g c
      | none, none => planBeat s g d r
  else match periodAt d r s.time.beat with
    | some q => holdBeat s g q.2
    | none => planBeat s g d r

/-- The run of a group led by a pane goes through a module beat boundary. -/
def groupBeat (s : State) (lead : Nat) : State :=
  match groupLed s lead with
  | none => s
  | some g => match g.plan, g.run with
    | some d, some r =>
      if g.ended.isSome then dropRun ((maskPanes g.members).foldl haltPane s) g
      else if !r.started || !plansRun s then s
      else
        let s1 := beginBeat s g d r
        modRun s1 lead fun r => { r with periods := r.periods.filter fun q => s.time.beat < q.1 + holdGrid d }
    | _, _ => s

/-- R273, Table 10-8: jobs whose hold period begins with the present beat are counted. -/
def countPeriods (s : State) : State :=
  let tags := (s.groups.filter fun g => match g.run with
    | some r => r.started && g.ended.isNone && r.periods.any (·.1 == s.time.beat)
    | none => false).map (groupTag s)
  { s with collU := { s.collU with
      holdPeriods := BitVec.ofNat 16 (satAdd 16 s.collU.holdPeriods.toNat tags.eraseDups.length) } }

/-! ### Power caps at a beat boundary (R495 to R497, R499, R500) -/

/-- The cell clock in force. -/
def clockMhz (p : PowerUnit) : Nat := if p.trip || p.capThrottle then 900 else modeMhz p.capMode.toNat

/-- A power mode comes into force; tests that its cap has no room for are suspended (R428). -/
def applyCap (s : State) (m : BitVec 2) : State :=
  let p := { s.power with capMode := m, capReq := m, capThrottle := false }
  let s1 := suspendToBudget { s with power := { p with mhz := clockMhz p } } 16
  if m = s.power.capMode then s1
  else record s1 0x0701 srcDoorkeeper noPane (natLe 2 (capWatts s.power.capMode) ++ natLe 2 (capWatts m))

/-- R496: the group has an accepted start of a Plan compiled for a higher cap than a mode's. -/
def aboveCap (m : BitVec 2) (g : Group) : Bool := match g.plan with
  | some d => hasStart g && planPower d < m.toNat
  | none => false

/-- What a boundary does about a pending cap, the clock and a critical temperature. -/
def powerBoundary (s : State) : State :=
  let p := s.power
  let s1 :=
    if p.capReq.toNat < p.capMode.toNat then if anyStart s then s else applyCap s p.capReq
    else if p.capMode.toNat < p.capReq.toNat then
      if s.groups.any (aboveCap p.capReq) then { s with power := { p with capThrottle := true } }
      else applyCap s p.capReq
    else s
  let s2 := { s1 with power := { s1.power with mhz := clockMhz s1.power, critDue := false } }
  if p.critDue then (List.range 16).foldl haltPane s2 else s2

/-! ### The boundary of a module beat -/

/-- R33: a phase error left by a holdover is worked off by a tick every 16 beats. -/
def correctPhase (t : BeatUnit) : BeatUnit :=
  if t.phaseError = 0 || t.beat < t.phaseStep + 16 then t
  else if 0 < t.phaseError then { t with stretch := true, phaseError := t.phaseError - 1, phaseStep := t.beat }
  else { t with tick := 1, phaseError := t.phaseError + 1, phaseStep := t.beat }

/-- The beat counter takes its next number; before the boundary that a lock has set, that boundary comes (R542). -/
def nextBeatCount (t : BeatUnit) : BeatUnit :=
  if 0 < t.lead then { t with lead := 0 } else correctPhase { t with beat := t.beat + 1, tick := 0, stretch := false }

/-- Beats of occupancy are counted (R443). -/
def meterBeat (s : State) : State :=
  if s.island.stopped then s
  else { s with island := { s.island with
    oper := { s.island.oper with occBeats := s.island.oper.occBeats + 1 }
    meters := s.island.meters.map fun e => (e.1, { e.2 with occBeats := e.2.occBeats + 1 }) } }

/-- What every new beat begins with at the ports, the far tier and the notice queue. At an epoch's first beat `INPUT_W`
takes a new average, which is a free value. -/
def freshBeat (s : State) : State :=
  let s1 := { s with
    links := { s.links with traffic := s.links.traffic.map fun e => (e.1, { e.2 with mgmtSent := 0, bulkSent := 0, txNext := 0 }) }
    faults := { s.faults with
      notices := s.faults.notices.drop 1, sinceHubFault := s.faults.sinceHubFault.map (· + 1) }
    collU := { s.collU with holds := s.collU.holds.filter fun h => s.time.beat < h.beat + 256 } }
  if s.time.beat % 4096 = 0 then
    { s1 with
      far := { s1.far with recalibrated := 0 }, free := s1.free + 1
      power := { s1.power with inputW := (Config.freeWord s1.free).truncate 16 } }
  else s1

/-- `BEAT_BOUNDARY` (R54, R57, R58, R123, R273, R352, R408, R496, R499): a module beat ends and the next begins. -/
def execBeatBoundary (s : State) : Host.Outcome State Fault Refusal :=
  let left := if 0 < s.time.lead then s.time.lead else 8192 - s.time.tick + (if s.time.stretch then 1 else 0)
  if !s.power.hubUp then .next s
  else
    let s1 := modTime (islandPass s left) nextBeatCount
    let s2 := checkpointIfDue (powerBoundary (freshBeat (meterBeat s1)))
    let s3 := (List.range 16).foldl contextResetDue s2
    .next ((List.range 16).foldl groupBeat (countPeriods s3))

/-! ### The start of a Plan (R21, R55) -/

/-- The cells of a group as its Plan begins: issue is free, the sequencers stand before their first entries, and `r31`
holds the pane's address (R137). -/
def startCells (s : State) (g : Group) : State :=
  (maskPanes g.members).foldl (fun s p =>
    modCells s p fun c => { c with
      halted := false, running := false, loops := [], barrier := none, seqIdx := 0, seqStep := 0
      sregs := tblPut 0 c.sregs 31 (mkGa (moduleId s).toNat p 0 0) }) s

/-- `PLAN_EPOCH_START` (R21, R23): an accepted start reaches the first beat of its epoch. -/
def execPlanEpochStart (lead : Pane16) (s : State) : Host.Outcome State Fault Refusal :=
  match groupLed s lead.val with
  | some g => match g.plan, g.run with
    | some d, some r =>
      if plansRun s && !r.started && g.ended.isNone && g.abortDue.isNone && s.time.beat = r.epoch * 4096 then
        let s1 := modRun (startCells s g) lead.val fun r =>
          { r with started := true, nextBeat := 0, planStep := 0, stormStep := 0, stepStart := s.time.beat }
        let s2 := stormBoundary s1 lead.val r.firstStep
        match groupLed s2 lead.val with
        | some g2 => match g2.run with
          | some r2 => .next (beginBeat s2 g2 d r2)
          | none => .next s2
        | none => .next s2
      else .next s
    | _, _ => .next s
  | none => .next s

/-! ### The end of a step (R55, R130, R293, R351, R388) -/

/-- R351: the slowdown as UQ8.16. -/
def slowdownOf (lengths : List Nat) (step : Nat) : BitVec 24 :=
  BitVec.ofNat 24 (min (2 ^ 24 - 1) (lengths.foldl (· + ·) 0 * 65536 / max 1 (lengths.length * step)))

/-- R293: the sum of the step's norms is NaN or infinite. -/
def normBad (r : Run) : Bool := r.normNan || (roundFin .fp32 .rne false false false r.normSum.toNat (-298)).1 = 0x7F800000

/-- R293: a skipped step is recorded for every context of the group. -/
def recordSkip (s : State) (g : Group) (step : Nat) : State :=
  (maskPanes g.members).foldl (fun s p =>
    record s 0x0203 (srcPane p) p (natLe 4 (groupTag s g).toNat ++ natLe 6 step)) s

/-- R130: a Plan ends at the end of a step, and the header's latch has its `ARRIVE`. No further block starts; one that
still runs goes on to its `END`. -/
def endPlan (s : State) (g : Group) (d : List Byte) : State :=
  let lead := leadOf g.members
  let s1 := arriveRef (modGroup s lead fun g => { g with ended := some .stopped }) g (planDoneLatch d)
  dropRun s1 g

/-- `STEP_BOUNDARY` (R55, R130, R293, R351, R388, R393): a plan step ends and the next begins, or the Plan ends. Where plan
beat 0 of the next step is held for the copy of its boundary (R390), the copy begins in the held beat, and the rest of the
boundary comes with the plan beat. -/
def execStepBoundary (lead : Pane16) (s : State) : Host.Outcome State Fault Refusal :=
  match groupLed s lead.val with
  | some g => match g.plan, g.run with
    | some d, some r =>
      if !(r.started && g.ended.isNone && plansRun s) then .next s
      else if heldForCopy g d r then
        .next (stormBoundary (modRun s lead.val fun r => { r with stormStep := r.planStep + 1 }) lead.val
          (r.firstStep + r.planStep + 1))
      else if r.held.isNone && (r.planStep + 1) * planStepBeats d < r.nextBeat then
        let len := s.time.beat - r.stepStart
        let lengths := (len :: g.lengths).take 64
        let slow := slowdownOf lengths (planStepBeats d)
        let s1 := modPanes s g.members fun _ x => { x with regs := { x.regs with
          lastStepBeats := BitVec.ofNat 24 (min (2 ^ 24 - 1) len), slowdown := slow, stepsDone := inc16 x.regs.stepsDone } }
        let s2 := if normBad r then recordSkip s1 g (r.firstStep + r.planStep) else s1
        let s3 := modGroup s2 lead.val fun g =>
          { g with lengths := lengths, run := g.run.map fun r =>
            { r with planStep := r.planStep + 1, stormStep := r.planStep + 1, stepStart := s.time.beat
                     received := r.received.filter fun e => r.planStep ≤ e.1 / 65536
                     chunks := r.chunks.filter fun e => r.planStep ≤ e.1 / 2 ^ 48
                     extentsDone := [], collsDone := [], normSum := 0, normNan := false } }
        if r.stopping || r.stepCount = r.planStep + 1 then .next (endPlan s3 g d)
        else if r.stormStep = r.planStep + 1 then .next s3
        else .next (stormBoundary s3 lead.val (r.firstStep + r.planStep + 1))
      else .next s
    | _, _ => .next s
  | none => .next s

/-! ### Blocks (R56 to R58) -/

/-- R56: the ticks from a plan instant to the present, held beats included. -/
def latenessAt (s : State) (r : Run) (t : Nat) : Nat :=
  let k := t / 8192
  let last := if r.held.isSome then r.nextBeat else r.nextBeat - 1
  let heldBeats := ((r.holdLog.filter fun e => k < e.1 && e.1 ≤ last).map Prod.snd).foldl (· + ·) 0
  (r.nextBeat - 1 - k + heldBeats) * 8192 + s.time.tick - t % 8192

/-- R56, R58: a cell's next block, scheduled at a plan instant, may start now. -/
def blockReady (s : State) (d : List Byte) (r : Run) (c : Cell) (t : Nat) : Bool :=
  !c.running && (!seqFence (nextEntry c) || c.tokBusy == 0)
  && (if r.held.isSome then t + planSlack d < planEdge r else t ≤ planNow s r)

/-- A cell starts its next block. -/
def startBlock (r : Run) (c : Cell) : Cell :=
  let e := nextEntry c
  let c1 := { c with
    running := true, pc := seqPc e, loops := [], jobStep := r.firstStep + c.seqStep, k0 := r.k0, k1 := r.k1 }
  if seqLast e then { c1 with seqIdx := 0, seqStep := c.seqStep + 1 } else { c1 with seqIdx := c.seqIdx + 1 }

/-- `BLOCK_START` (R56, R58). -/
def execBlockStart (p : Pane16) (l : LCell) (s : State) : Host.Outcome State Fault Refusal :=
  match groupOf s p.val with
  | some g => match g.plan, g.run with
    | some d, some r =>
      let c := cell s p.val l.val
      match nextBlock d r c with
      | some t =>
        if r.started && issuesStill s g && slotsRun s && (pane s p.val).resetUntil.isNone && blockReady s d r c t then
          let late := latenessAt s r t
          .next (modPane (setCell s p.val l.val (startBlock r c)) p.val fun x => { x with regs :=
            { x.regs with lateMax := BitVec.ofNat 32 (max x.regs.lateMax.toNat (min (2 ^ 32 - 1) late)) } })
        else .next s
      | none => .next s
    | _, _ => .next s
  | none => .next s

/-- `SLACK_EXPIRED` (R57): a block has not started within its slack: its pane asks for a hold. -/
def execSlackExpired (p : Pane16) (l : LCell) (s : State) : Host.Outcome State Fault Refusal :=
  match groupOf s p.val with
  | some g => match g.plan, g.run with
    | some d, some r =>
      if r.started && g.ended.isNone && plansRun s && overdueAt d r (planNow s r) (cell s p.val l.val) then
        .next (modRun s (leadOf g.members) fun r =>
          { r with wantHold := some (r.wantHold.getD (lateCause g d r p.val, s.time.beat)) })
      else .next s
    | _, _ => .next s
  | none => .next s

/-! ### Hold periods (R273 to R277) -/

/-- The hold grid of a job on this module: that of its group here. A module in transit has no Plan to read it from: it is
one of the four of Table 10-1, and which is a free value (log entry 41). -/
def jobGrid (s : State) (job : BitVec 32) : Nat :=
  match s.groups.find? fun g => groupTag s g == job && g.plan.isSome with
  | some g => holdGrid (g.plan.getD [])
  | none => 16 * 2 ^ ((Config.freeWord job.toNat).toNat % 4)

/-- A hold period joins those to come; a cause of the group's own replaces a peer's. -/
def addPeriod (l : List (Nat × HoldCause)) (q : Nat) (c : HoldCause) : List (Nat × HoldCause) :=
  if l.any (·.1 == q) then l.map fun e => if e.1 = q && e.2 = .peer then (q, c) else e else l ++ [(q, c)]

/-- Every running group of a job is to hold a period: those of a lead for a cause of their own, the others as peers. -/
def holdJob (s : State) (job : BitVec 32) (q lead : Nat) (c : HoldCause) : State :=
  { s with groups := s.groups.map fun g =>
      if groupTag s g == job && g.ended.isNone then
        { g with run := g.run.map fun r =>
          { r with periods := addPeriod r.periods q (if leadOf g.members = lead then c else .peer) } }
      else g }

/-- R277: the job has raised HOLD at one more consecutive grid beat. -/
def countGrid (beat grid : Nat) (r : Run) : Run :=
  if r.gridRuns ≠ 0 && r.lastGrid = beat then r
  else { r with lastGrid := beat, gridRuns := if r.gridRuns ≠ 0 && r.lastGrid + grid = beat then r.gridRuns + 1 else 1 }

/-- R273, R277: HOLD is raised for the job of a group in the present beat. -/
def raiseHold (s : State) (g : Group) (d : List Byte) (c : HoldCause) : State :=
  let job := groupTag s g
  let beat := s.time.beat
  let u := s.collU
  let s1 := holdJob s job (beat + holdGrid d) (leadOf g.members) c
  let s2 := { s1 with
    collU := { u with
      holds := u.holds ++ [{ job := job, beat := beat, raised := true }]
      holdsRaised := if u.holds.any fun h => h.raised && h.beat == beat then u.holdsRaised else inc16 u.holdsRaised }
    groups := s1.groups.map fun x =>
      if groupTag s x == job then { x with run := x.run.map (countGrid beat (holdGrid d)) } else x }
  let s3 := modRun s2 (leadOf g.members) fun r => { r with wantHold := r.wantHold.filter fun q => q.2 == beat }
  match (groupLed s3 (leadOf g.members)).bind (·.run) with
  | some r => if 256 ≤ r.gridRuns then abortGroup s3 g noColl 7 else s3
  | none => s3

/-- A run as it stood at the boundary that the present beat began with. -/
def atStart (r : Run) : Run := if r.held.isSome then r else { r with nextBeat := r.nextBeat - 1 }

/-- `GRID_BEAT` (R57, R273, R276, R277): at a grid beat a pane's group raises HOLD if it must: for something not ready, for
a pane that asked for a hold in an earlier beat, or for a block overdue at the boundary that the beat began with. -/
def execGridBeat (p : Pane16) (s : State) : Host.Outcome State Fault Refusal :=
  match groupOf s p.val with
  | some g => match g.plan, g.run with
    | some d, some r =>
      if r.started && g.ended.isNone && plansRun s && planModules d ≠ 1 && s.time.beat % holdGrid d = 0 then
        if soonUnready s g d r (2 * holdGrid d) then .next (raiseHold s g d .notReady)
        else match r.wantHold.filter fun q => q.2 < s.time.beat, overdueCause s g d (atStart r) with
          | some c, _ => .next (raiseHold s g d c.1)
          | none, some c => .next (raiseHold s g d c)
          | none, none => .next s
      else .next s
    | _, _ => .next s
  | none => .next s

/-- R274: HOLD for a job is received: the first in its hold period is noted, relayed, and holds the job. -/
def receiveHold (s : State) (job : BitVec 32) : State :=
  let grid := jobGrid s job
  let start := s.time.beat - s.time.beat % grid
  if s.collU.holds.any fun h => h.job == job && start ≤ h.beat then s
  else holdJob { s with collU := { s.collU with
      holds := s.collU.holds ++ [{ job := job, beat := s.time.beat, raised := false }] } }
    job (start + grid) 16 .peer

/-- R273, R274: the jobs for which HOLD goes out in the present beat. -/
def holdFlags (s : State) : List (BitVec 32) :=
  ((s.collU.holds.filter fun h =>
    if h.raised then h.beat == s.time.beat
    else h.beat + 1 == s.time.beat && s.time.beat % jobGrid s h.job != 0).map (·.job)).eraseDups

end Sys2Proof.Machine
end

