-- ==== Sys2Proof/Machine/Ports.lean ====
section
/-! DEFINITION. The ports as links (09_clouzlink.md): training and negotiation (R228 to R231), the sill block (R232), lane
sparing (R226, R227), and the end of a port's `ACTIVE` state. -/

namespace Sys2Proof.Machine

/-! ### Leaving and entering states -/

/-- The `COLL_ID` in progress on a ring engine, if it is a single one (R280). -/
def ringColl (g : Group) (e : Nat) : Nat := match g.plan, g.run with
  | some d, some r => match r.colls.filter fun c => bitAt (planColl d c.index).axes e with
    | [c] => (planColl d c.index).ident
    | _ => noColl
  | _, _ => noColl

/-- Jobs with an accepted start whose scheduled runs use a port abort when it leaves `ACTIVE` (Table 10-6, 0x2); the abort
names the collective in progress on the port's engine (R280). -/
def abortUsers (s : State) (p : Nat) : State :=
  s.groups.foldl (fun s g => match g.plan with
    | some d => if (planRuns d).any fun r => r.port == p || (r.kindCode == 2 && r.outPort == p) then
                  abortGroup s g (ringColl g (p / 2)) 2
                else s
    | none => s) s

/-- A port enters a state of Table 09-1. -/
def enterLink (s : State) (p : Nat) (st : BitVec 4) : State :=
  modPort s p fun x => { x with state := st, since := s.time.beat }

/-- What a port holds of its link when it stops carrying slots: requests, held-back slots and stores go. -/
def dropTraffic (t : PortTraffic) : PortTraffic :=
  { t with store := [], replayDue := [], wanted := [], held := [], got := [], resent := [], badSills := 0, switches := [] }

/-- A port leaves `ACTIVE`, or another state, for the state given. -/
def leaveActive (s : State) (p : Nat) (st : BitVec 4) : State :=
  let was := portActive s p
  let s1 := modTraf (enterLink s p st) p dropTraffic
  if was then abortUsers s1 p else s1

/-- Payload of `EV_PORT_STATE`. -/
def portEvent (s : State) (p : Nat) (old new : BitVec 4) (cause : Nat) : State :=
  record s 0x0401 (srcPort p) noPane
    (natLe 1 p ++ natLe 1 old.toNat ++ natLe 1 new.toNat ++ natLe 1 cause ++ natLe 2 (trafOf s p).peerOffer.toNat)

/-- Causes of `EV_PORT_STATE`: too few lanes. -/
def pcLanes : Nat := 1
/-- No common version. -/
def pcVersion : Nat := 2
/-- Wrong cabling. -/
def pcCabling : Nat := 3
/-- A replay that did not come. -/
def pcReplay : Nat := 4

/-- R227, R245: a port goes to `FAILED`. -/
def failPort (s : State) (p cause : Nat) : State :=
  let old := (portOf s p).state
  if old = lsFailed then s
  else
    let s1 := leaveActive s p lsFailed
    abandonFailed (portEvent s1 p old lsFailed cause)

/-- R225: a port out of step returns to `ALIGN`. -/
def outOfStep (s : State) (p : Nat) : State := leaveActive s p lsAlign

/-- The physical lane that a direction does not use: the spare, or the lane that was retired for it. -/
def idleOf (retired : BitVec 5) : Nat := ((List.range 5).find? (retired.getLsbD ·)).getD 4

/-- A direction has four usable lanes (R227). -/
def lanesEnough (retired : BitVec 5) : Bool := bitCount retired ≤ 1

/-! ### Training (R228, Table 09-1) -/

/-- The tables that `NEGOTIATE` needs have been loaded (R488). -/
def tablesLoaded (s : State) : Bool := s.power.identity.isSome && s.power.coordLoaded

/-- R253: a port of an axis of length 1 stays `DOWN`. -/
def portUnused (s : State) (p : Nat) : Bool := s.power.coordLoaded && axisLen s (p / 2) == 1

/-- `PRESENCE_DETECTED`. -/
def execPresenceDetected (port : PortId) (s : State) : Host.Outcome State Fault Refusal :=
  if (portOf s port.val).state = lsDetect then .next (enterLink s port.val lsEqualize) else .next s

/-- `EQUALIZE_DONE`. -/
def execEqualizeDone (port : PortId) (s : State) : Host.Outcome State Fault Refusal :=
  if (portOf s port.val).state = lsEqualize then .next (enterLink s port.val lsAlign) else .next s

/-- `ALIGN_DONE` (R225): the link delay is measured; one of more than 4,095 ticks ends no attempt well. -/
def execAlignDone (port : PortId) (delay : Nat) (s : State) : Host.Outcome State Fault Refusal :=
  if (portOf s port.val).state = lsAlign && decide (delay ≤ 4095) then
    .next (modPort (enterLink s port.val lsNegotiate) port.val fun x => { x with linkDelay := BitVec.ofNat 12 delay })
  else .next s

/-- R229: link-layer versions of stepping B0: major 1, and the minor that this module offers. -/
def ownMajor : Nat := 1

/-- The minor version offered. -/
def ownMinor : Nat := 0

/-- The neighbour that the coordinate table places on a port, and its facing port (R231, R253). -/
def neighbour (s : State) (p : Nat) : Option (BitVec 16) :=
  match coordOf s (moduleId s) with
  | some a =>
    let axis := p / 2
    let n := axisLen s axis
    let c := (coordAxis a axis + (if p % 2 = 0 then 1 else n - 1)) % n
    let want (i : Nat) : Nat := if i = axis then c else coordAxis a i
    (s.links.coord.find? fun e => e.x == want 0 && e.y == want 1 && e.z == want 2).map (·.device)
  | none => none

/-- R231: the peer is where the table has it, and so is its port. -/
def cablingOk (s : State) (p : Nat) (peer : Sill) : Bool :=
  neighbour s p == some peer.srcDevice && peer.srcPort.toNat == (if p % 2 = 0 then p + 1 else p - 1)

/-- R230: what the two ends agree on; `lanes` are those retired in a direction. -/
def agreed (s : State) (peer : Sill) (lanes : BitVec 5) (x : Port) : Port :=
  let frame := bitAt peer.cv.toNat 0
  let poly := fld peer.cv.toNat 2 1
  { x with
    llMajor := BitVec.ofNat 4 ownMajor, llMinor := BitVec.ofNat 4 (min ownMinor peer.llMinor.toNat)
    split := BitVec.ofNat 2 peer.split.toNat
    splitMismatch := peer.split.toNat != s.power.slotSplit.toNat
    cvMode := if frame = s.power.cvFrame then frame else true
    cvPoly := if poly = s.power.cvPoly.toNat then s.power.cvPoly else 2
    idleLane := BitVec.ofNat 3 (idleOf lanes), peerDevice := peer.srcDevice, peerPort := BitVec.ofNat 3 peer.srcPort.toNat, attempts := 0 }

/-- Parcels that came in on a port no longer count as its slots. -/
def forgetSlots (s : State) (p : Nat) : State :=
  { s with links := { s.links with traffic := s.links.traffic.map fun e =>
      (e.1, { e.2 with out := e.2.out.map fun x =>
        { x with slot := match x.slot with
          | some k => if k.1 = p then none else some k
          | none => none } }) } }

/-- A port becomes `ACTIVE`: both ends start with their credits whole. -/
def becomeActive (s : State) (p : Nat) (peer : Sill) : State :=
  modTraf (enterLink (forgetSlots s p) p lsActive) p fun t =>
    { dropTraffic t with txNext := 258, sent := [], returned := [], freed := [], rxBeat := peer.beat.toNat, peerTime := peer.timeState }

/-- `NEGOTIATE_DONE` (R227, R229 to R231): the ends agree and the port carries slots on the lanes that the ledger leaves
it, or it goes to `CABLE_FAULT`, or to `FAILED` where a direction has fewer than four; before `IDENTITY_SET` and
`COORD_LOAD` it waits (R488). -/
def execNegotiateDone (port : PortId) (peer : Sill) (s : State) : Host.Outcome State Fault Refusal :=
  let p := port.val
  if (portOf s p).state ≠ lsNegotiate || !tablesLoaded s then .next s
  else
    let s1 := modTraf s p fun t =>
      { t with peerOffer := BitVec.ofNat 16 (peer.llMajor.toNat + 256 * peer.llMinor.toNat) }
    if peer.llMajor.toNat ≠ ownMajor then .next (portEvent (enterLink s1 p lsCableFault) p lsNegotiate lsCableFault pcVersion)
    else if !cablingOk s p peer then .next (portEvent (enterLink s1 p lsCableFault) p lsNegotiate lsCableFault pcCabling)
    else
      let t := trafOf s p
      if !lanesEnough t.lanesRx || !lanesEnough t.lanesTx then
        .next (failPort (modPort s1 p fun x => { x with idleLane := 7 }) p pcLanes)
      else .next (modPort (becomeActive s1 p peer) p (agreed s peer (if t.lanesRx = 0 then t.lanesTx else t.lanesRx)))

/-- Bounds of Table 09-1, in beats. -/
def linkBound (st : BitVec 4) : Option Nat :=
  if st = lsDetect then some 64 else if st = lsEqualize then some 2048 else if st = lsAlign then some 64
  else if st = lsNegotiate then some 16 else none

/-- `TRAINING_TIMEOUT` (R228): the attempt fails, and the port waits for a random time before it tries again. -/
def execTrainingTimeout (port : PortId) (s : State) : Host.Outcome State Fault Refusal :=
  let p := port.val
  let x := portOf s p
  match linkBound x.state with
  | some b =>
    if x.since + b ≤ s.time.beat && (x.state != lsNegotiate || tablesLoaded s) then
      let k := min 6 (x.attempts + 1)
      let wait := 64 * 2 ^ k + (Config.freeWord s.free).toNat % (64 * 2 ^ k)
      .next (modPort (enterLink (tookFree s) p lsDown) p fun x =>
        { x with attempts := x.attempts + 1, backoff := some (s.time.beat + wait) })
    else .next s
  | none => .next s

/-- The beat in which a port that is `DOWN` tries again: after its back-off, or, at first, (identifier mod 64) beats after
the hub leaves reset. -/
def retrainBeat (s : State) (x : Port) : Nat := x.backoff.getD (s.power.t0 + (moduleId s).toNat % 64)

/-- `TRAINING_BACKOFF_EXPIRED` (R228). -/
def execTrainingBackoffExpired (port : PortId) (s : State) : Host.Outcome State Fault Refusal :=
  let x := portOf s port.val
  if s.power.hubUp && !s.test.parked && s.test.hub != tsActive && x.state == lsDown && !portUnused s port.val
      && decide (retrainBeat s x ≤ s.time.beat) then
    .next (enterLink s port.val lsDetect)
  else .next s

/-- `PORT_RETRAINING_ORDER` (R227, Table 09-1): the fabric manager orders a port in `CABLE_FAULT` or `FAILED` to retrain;
its lanes have been repaired. -/
def execPortRetrainingOrder (port : PortId) (s : State) : Host.Outcome State Fault Refusal :=
  let p := port.val
  let x := portOf s p
  if x.state = lsCableFault || x.state = lsFailed then
    let s1 := if x.state = lsFailed then modTraf s p fun t => { t with lanesRx := 0, lanesTx := 0, switchAsk := none } else s
    .next (modPort (enterLink s1 p lsDetect) p fun x =>
      { x with attempts := 0, idleLane := if x.state = lsFailed then 4 else x.idleLane })
  else .next s

/-! ### Lanes (R226, R227) -/

/-- A lane that a port receives on is to be retired: the sill asks for the switch, or, with no spare left, the port
fails. -/
def retireLane (s : State) (p lane : Nat) : State :=
  let t := trafOf s p
  if t.lanesRx = 0 then
    if lane = 4 then modTraf s p fun t => { t with lanesRx := 1#5 <<< lane }
    else modTraf s p fun t => { t with lanesRx := 1#5 <<< lane, switchAsk := some lane }
  else if t.lanesRx.getLsbD lane then s
  else failPort (modPort (modTraf s p fun t => { t with lanesRx := t.lanesRx ||| (1#5 <<< lane) }) p fun x =>
    { x with idleLane := 7 }) p pcLanes

/-- The active receive lane with the highest count of row E (Table 16-2 row F). -/
def worstLane (s : State) (p : Nat) : Nat :=
  let n (l : Nat) : Nat := winSum (winRoll rowE s.time.beat (tblGet winZero s.faults.windows (winKey rowE (laneIndex p 1 l))))
  ((List.range 5).filter (· != idleOf (trafOf s p).lanesRx)).foldl (fun a l => if n a < n l then l else a)
    (if idleOf (trafOf s p).lanesRx = 0 then 1 else 0)

/-- One lane switch takes effect; a second lane lost in the direction sent leaves fewer than four (R227). -/
def switchLane (p : Nat) (s : State) (w : Nat × Nat × Nat) : State :=
  let s1 := modTraf s p fun t =>
    { t with switches := t.switches.erase w, lanesTx := if w.2.1 = 0 then t.lanesTx ||| (1#5 <<< w.2.2) else t.lanesTx }
  if !lanesEnough (trafOf s1 p).lanesTx then failPort (modPort s1 p fun x => { x with idleLane := 7 }) p pcLanes
  else
    let s2 := modPort s1 p fun x => { x with idleLane := BitVec.ofNat 3 w.2.2 }
    record s2 0x0402 (srcPort p) noPane (natLe 1 p ++ natLe 1 w.2.1 ++ natLe 1 w.2.2)

/-- `LANE_SWITCH` (R226): the switches whose beat has come take effect. -/
def execLaneSwitch (port : PortId) (s : State) : Host.Outcome State Fault Refusal :=
  .next (((trafOf s port.val).switches.filter fun w => w.1 ≤ s.time.beat).foldl (switchLane port.val) s)

/-! ### Sills (R224, R232) -/

/-- A port sends sills in these states. -/
def sillState (st : BitVec 4) : Bool := st == lsAlign || st == lsNegotiate || st == lsActive || st == lsCableFault

/-- The sill that a port sends now. -/
def mkSill (s : State) (p : Nat) : Sill :=
  let t := trafOf s p
  { beat := BitVec.ofNat 48 s.time.beat, srcDevice := moduleId s, srcPort := BitVec.ofNat 8 p
    timeState := BitVec.ofNat 8 (timeCode s.time.mode), laneMap := BitVec.ofNat 8 (idleOf t.lanesTx)
    laneSwitch := match t.switchAsk with
      | some l => BitVec.ofNat 8 (128 + l)
      | none => 0
    llMajor := BitVec.ofNat 8 ownMajor, llMinor := BitVec.ofNat 8 ownMinor
    split := BitVec.ofNat 8 s.power.slotSplit.toNat
    cv := BitVec.ofNat 8 (b2n s.power.cvFrame + 2 * s.power.cvPoly.toNat)
    creditRet := (List.range 4).map fun c => BitVec.ofNat 16 (tblGet 0 t.freed c)
    replayReq := (t.wanted.take 16).map fun w => BitVec.ofNat 32 (w.beat % 2 ^ 24 * 256 + w.slot) }

/-- `SILL_TRANSMIT` (R224, R226, R243, R247): the first block of a beat, once. -/
def execSillTransmit (port : PortId) (s : State) : Host.Outcome State Fault Refusal :=
  let p := port.val
  if s.power.hubUp && sillState (portOf s p).state && (trafOf s p).txNext == 0 then
    .next (modTraf s p fun t => { t with
      txNext := 1, lastSill := some (mkSill s p), switchAsk := none
      switches := match t.switchAsk with
        | some l => t.switches ++ [(s.time.beat + 2, 1, l)]
        | none => t.switches })
  else .next s

/-- A time state in which beats are compared (R232). -/
def comparable (code : Nat) : Bool := code == timeCode .locked || code == timeCode .holdover

/-- Beats for which a slot that has been re-sent is known as such: its request may come in every sill until its replay
arrives (R243, R245). -/
def resentAge : Nat := 256

/-- What a good sill tells an `ACTIVE` port: returned credits, replays to send, a lane to switch. A slot that has been
re-sent is not sent a second time (R10). -/
def readSill (s : State) (p : Nat) (x : Sill) : State :=
  let asked := (x.replayReq.filter (· != 0)).map fun r => (r.toNat / 256, r.toNat % 256, s.time.beat + 1)
  let recent := (trafOf s p).resent.filter fun r => s.time.beat ≤ r.2.2 + resentAge
  let due := asked.filter fun r => !recent.any fun q => q.1 == r.1 && q.2.1 == r.2.1
  modTraf s p fun t => { t with
    resent := recent
    badSills := 0, peerTime := x.timeState, rxBeat := x.beat.toNat
    peerOffer := BitVec.ofNat 16 (x.llMajor.toNat + 256 * x.llMinor.toNat)
    returned := (List.range 4).foldl (fun r c => tblPut 0 r c (x.creditRet.getD c 0).toNat) t.returned
    replayDue := t.replayDue ++ due.filter fun r => !t.replayDue.any fun q => q.1 == r.1 && q.2.1 == r.2.1
    switches := if bitAt x.laneSwitch.toNat 7 then t.switches ++ [(x.beat.toNat + 2, 0, x.laneSwitch.toNat % 8)]
                else t.switches }

/-- R225: an arriving sill against the module's beat boundary plus D: the residual in ticks, and the beat whose boundary is
meant, which is the next where the sill comes early. -/
def sillResidual (s : State) (p : Nat) : Int × Nat :=
  let d : Int := (s.time.tick : Int) - (portOf s p).linkDelay.toNat
  if 4096 ≤ d then (d - 8192, s.time.beat + 1)
  else if d < -4096 then (d + 8192, s.time.beat - 1)
  else (d, s.time.beat)

/-- `SILL_RECEIVED` (R225, R226, R232, R243, R247). -/
def execSillReceived (port : PortId) (sill : Sill) (crc : BitVec 32) (s : State) : Host.Outcome State Fault Refusal :=
  let p := port.val
  let due := sillResidual s p
  if !portActive s p then .next s
  else if crc.toNat ≠ sillCrc sill then
    if 1 ≤ (trafOf s p).badSills then .next (outOfStep s p)
    else .next (modTraf s p fun t => { t with badSills := t.badSills + 1, rxBeat := t.rxBeat + 1 })
  else if due.1 < -128 || 128 < due.1 then .next (outOfStep s p)
  else if comparable (timeCode s.time.mode) && comparable sill.timeState.toNat
      && sill.beat.toNat != due.2 then .next (outOfStep s p)
  else .next (readSill s p sill)

/-- `REPLAY_TIMEOUT` (R245): a requested slot has not come within 8 beats. -/
def execReplayTimeout (port : PortId) (s : State) : Host.Outcome State Fault Refusal :=
  if portActive s port.val && (trafOf s port.val).wanted.any fun w => w.since + 8 < s.time.beat then
    .next (failPort s port.val pcReplay)
  else .next s

end Sys2Proof.Machine
end

