-- ==== Sys2Proof/Machine/Recorder.lean ====
section
/-! DEFINITION. The event recorder (19_event_recorder.md): records and segments of the ring, limits and folding, spill,
freeze, read and thaw. -/

namespace Sys2Proof.Machine

/-- The recorder changed. -/
def modRec (s : State) (f : Recorder → Recorder) : State := { s with evrec := f s.evrec }

/-- Bytes of a segment (R471). -/
def segBytes : Nat := 1048576

/-- Limit classes of Table 19-2: none. -/
def lcNone : Nat := 0
/-- The per-code limit of R474. -/
def lcLimited : Nat := 1
/-- Privileged (R476). -/
def lcPriv : Nat := 2

/-- Length and limit class of an event code (Table 19-2); none for a code that is not recorded. -/
def codeInfo (c : Nat) : Option (Nat × Nat) :=
  if c = 0x0100 || c = 0x0300 || c = 0x0400 || c = 0x0700 then some (40, lcPriv)
  else if c = 0x0103 then some (40, lcNone)
  else if c = 0x0204 then some (88, lcLimited)
  else if c = 0x0200 then some (48, lcLimited)
  else if c = 0x0304 then some (24, lcLimited)
  else if [0x0201, 0x0202, 0x0203, 0x0301, 0x0303, 0x0306, 0x0500, 0x0501, 0x0603].contains c then some (40, lcLimited)
  else if [0x0101, 0x0102, 0x0104, 0x0205, 0x0302, 0x0305, 0x0401, 0x0402, 0x0403, 0x0600, 0x0601, 0x0602, 0x0701,
      0x0800].contains c then some (32, lcLimited)
  else none

/-! ### Records in the ring (R470, R471, R544) -/

/-- A record as its bytes (Table 19-1). -/
def recBytes (len flags code rseq : Nat) (stamp : List Byte) (count pane : Nat) (payload : List Byte) : List Byte :=
  bytesAt (natLe 1 (len / 8 - 1) ++ natLe 1 flags ++ natLe 2 code ++ natLe 6 rseq ++ stamp ++ natLe 2 count ++ natLe 1 pane
    ++ [0] ++ payload) 0 len

/-- A record goes in at the write pointer and takes the next `RSEQ`; it fits. -/
def putRec (s : State) (len flags code : Nat) (stamp : List Byte) (pane : Nat) (payload : List Byte) : State :=
  modRec s fun q =>
    let seg := q.segNo.getD 0
    { q with
      ring := memWrite q.ring q.wr (recBytes len flags code q.nextRseq stamp 0 pane payload)
      wr := (q.wr + len) % (8 * segBytes), nextRseq := q.nextRseq + 1
      segRecs := tblSet q.segRecs seg (tblGet 0 q.segRecs seg + 1) }

/-- Flag `LOCAL_TIME` of a record stamped now. -/
def localFlag (s : State) : Nat := 4 * b2n (localTime s)

/-- The stamp of the recorder's own records written now. -/
def ownStamp (s : State) : List Byte := stampBytes s.time.beat s.time.tick srcBeat

/-- The next `SEG_NO`. -/
def nextSeg (q : Recorder) : Nat := match q.segNo with
  | some n => n + 1
  | none => match q.spilled with
    | some n => n + 1
    | none => 0

/-- A segment is durable in the spill area. -/
def isSpilled (q : Recorder) (seg : Nat) : Bool := match q.spilled with
  | some n => decide (seg ≤ n)
  | none => false

/-- Records in a segment that is about to be overwritten without having been spilled (R478). -/
def overwritten (q : Recorder) (seg : Nat) : Nat :=
  if 8 ≤ seg && !isSpilled q (seg - 8) then tblGet 0 q.segRecs (seg - 8) else 0

/-- Records lost are counted. -/
def countLost (s : State) (n : Nat) : State :=
  modRec s fun q => { q with lost := BitVec.ofNat 24 (satAdd 24 q.lost.toNat n) }

/-- R471, R477, R478: a new segment: the completed one is queued for spill, one that is overwritten is spilled no more,
and `EV_SEGMENT` comes first. -/
def newSegment (s : State) : State :=
  let q := s.evrec
  let seg := nextSeg q
  let lost := overwritten q seg
  let s1 := modRec s fun q =>
    { q with
      wr := seg % 8 * segBytes, segNo := some seg
      segRecs := if 8 ≤ seg then tblDel q.segRecs (seg - 8) else q.segRecs
      spillQueue := (q.spillQueue.filter fun n => seg < n + 8 || (q.spilling && some n == q.spillQueue.head?)) ++ q.segNo.toList }
  let s2 := putRec s1 40 (localFlag s) 0x0001 (ownStamp s) noPane (natLe 6 seg ++ natLe 6 q.nextRseq)
  if 0 < lost then
    putRec (countLost s2 lost) 32 (localFlag s) 0x0004 (ownStamp s) noPane (natLe 4 lost ++ [1])
  else s2

/-- R471: room for a record: the rest of a segment too short for it becomes one `EV_PAD`. -/
def makeRoom (s : State) (len : Nat) : State :=
  let q := s.evrec
  let used := q.wr % segBytes
  if q.segNo.isNone || used = 0 then newSegment s
  else if segBytes < used + len then
    newSegment (modRec s fun q =>
      { q with ring := memWrite q.ring q.wr (bytesAt (natLe 1 ((segBytes - used) / 8 - 1)) 0 (segBytes - used)) })
  else s

/-- A record is written. -/
def addRec (s : State) (len flags code : Nat) (stamp : List Byte) (pane : Nat) (payload : List Byte) : State :=
  putRec (makeRoom s len) len flags code stamp pane payload

/-- Length of a record of the recorder's own. -/
def ownLen (code n : Nat) : Nat :=
  if code = 0x0003 then 48 else if code = 0x0004 then 32 else ceilDiv (24 + n) 8 * 8

/-- A record of the recorder's own, with its own stamp or the present one. -/
def writeOwn (s : State) (d : DueRec) : State :=
  let stamp := match d.stamp with
    | some (b, t) => stampBytes b t srcBeat
    | none => ownStamp s
  addRec s (ownLen d.code.toNat d.payload.length) (localFlag s) d.code.toNat stamp noPane d.payload

/-- R475: one that falls due during a freeze waits for the thaw. -/
def dueOwn (s : State) (d : DueRec) : State :=
  if s.evrec.frozen then modRec s fun q => { q with due := q.due ++ [d] } else writeOwn s d

/-! ### Limits and folding (R474, R476) -/

/-- Key of the per-epoch tables. -/
def epochKey (beat code : Nat) : Nat := beat / 4096 * 65536 + code

/-- An accepted event becomes a record of its own. -/
def newRec (s : State) (e : Event) (len : Nat) : State :=
  let s1 := makeRoom s len
  let q := s1.evrec
  let last : LastRec := { ofs := q.wr, seg := q.segNo.getD 0, key := e.payload.drop 10, source := e.source, count := 0 }
  let s2 := putRec s1 len (4 * b2n e.localTime) e.code.toNat (stampBytes e.beat e.tick e.source.toNat) e.pane.toNat e.payload
  modRec s2 fun q => { q with lastRec := tblSet q.lastRec e.code.toNat last }

/-- An event folds into a record: `COUNT`, `FOLDED`, `MIXED`, `LAST_STAMP`. -/
def foldRec (s : State) (e : Event) (l : LastRec) (mixed : Bool) : State :=
  modRec s fun q =>
    let flags := (memNat q.ring (l.ofs + 1) 1).lor (1 + 2 * b2n mixed)
    let r1 := memWrite q.ring (l.ofs + 1) (natLe 1 flags)
    let r2 := memWrite r1 (l.ofs + 20) (natLe 2 (l.count + 1))
    { q with
      ring := memWrite r2 (l.ofs + 24) (stampBytes e.beat e.tick e.source.toNat)
      lastRec := tblSet q.lastRec e.code.toNat { l with count := l.count + 1 } }

/-- A privileged event (R476). -/
def writePriv (s : State) (e : Event) (len : Nat) : State :=
  let q := s.evrec
  let k := epochKey e.beat e.code.toNat
  let fresh (s : State) : State := newRec (modRec s fun q => { q with fresh := tblSet q.fresh k (tblGet 0 q.fresh k + 1) }) e len
  match tblFind q.lastRec e.code.toNat with
  | some l =>
    if l.count < 0xFFFF && some l.seg == q.segNo then
      if l.source == e.source && l.key == e.payload.drop 10 then foldRec s e l false
      else if 64 ≤ tblGet 0 q.fresh k then foldRec s e l true
      else fresh s
    else fresh s
  | none => fresh s

/-- An event of a limited code (R474). -/
def writeLimited (s : State) (e : Event) (len : Nat) : State :=
  let k := epochKey e.beat e.code.toNat
  if tblGet 0 s.evrec.written k < s.evrec.limit then
    newRec (modRec s fun q => { q with written := tblSet q.written k (tblGet 0 q.written k + 1) }) e len
  else modRec s fun q => { q with suppressed := tblSet q.suppressed k (tblGet 0 q.suppressed k + 1) }

/-- An accepted event is written, folded or suppressed; a code that Table 19-2 does not have is none. -/
def writeEvent (s : State) (e : Event) : State :=
  match codeInfo e.code.toNat with
  | some (len, c) => if c = lcPriv then writePriv s e len else if c = lcLimited then writeLimited s e len else newRec s e len
  | none => s

/-! ### Spill (R477, R478) -/

/-- R478: no spill starts. -/
def spillBlocked (s : State) : Bool := s.far.readOnly || s.far.holdupLow

/-- The first queued segment goes to the far tier, when one may: during a freeze only on the way to a hub test (R425, R479,
R483). -/
def startSpill (s : State) : State :=
  let q := s.evrec
  match q.spillQueue with
  | seg :: _ =>
    if (q.frozen && s.test.shutdown.isNone) || q.spilling || spillBlocked s || farClosed s || farExhausted s (seg % 4096 * segBytes) segBytes then s
    else
      farWrite (modRec s fun q => { q with spilling := true }) 16 (seg % 4096 * segBytes)
        (memRead q.ring (seg % 8 * segBytes) segBytes) (.spill seg)
  | [] => s

/-- The spill in progress has been acknowledged. -/
def spillAcked (s : State) (seg : Nat) : Bool := !s.far.writes.any fun w => w.sink == .spill seg

/-- R477: the spill in progress is acknowledged, and the next begins. -/
def spillOver (s : State) : State :=
  match s.evrec.spillQueue with
  | seg :: rest =>
    if s.evrec.spilling && spillAcked s seg then
      startSpill (modRec s fun q => { q with spilling := false, spillQueue := rest, spilled := some seg })
    else s
  | [] => s

/-! ### Delivery and acceptance (R473) -/

/-- An event that declares a 64 KiB bank of hub SRAM faulty: `EV_DECLARED` of row J of Table 16-2. -/
def declaresBank (e : Event) : Bool := e.code == 0x0601 && leAt e.payload 0 1 == rowJ

/-- `EVENT_DELIVERY` (R37, R473, R479): a source delivers an event. No row of the opcode table counts the corrected errors
of hub SRAM, so that a declared bank comes in by its event: DESIGN CHOICE, log entry 27. -/
def execEventDelivery (e : Event) (s : State) : Host.Outcome State Fault Refusal :=
  if !srcListed e.source.toNat then .next s
  else if declaresBank e then
    let i := leAt e.payload 1 2
    let s1 := tellDeclared (deliver (noteDeclared s rowJ i) e) rowJ i
    .next { s1 with faults := { s1.faults with hubDegraded := true } }
  else .next (deliver s e)

/-- The recorder may accept an event: four ticks after the last. -/
def mayAccept (s : State) : Bool := match s.evrec.lastAccept with
  | some (b, t) => decide (b * 8192 + t + 4 ≤ now s)
  | none => true

/-- Losses that a full queue has caused are recorded once it has room. -/
def tellLost (s : State) : State :=
  let n := s.evrec.lostSince
  if n = 0 then s
  else dueOwn (modRec s fun q => { q with lostSince := 0 }) { code := 0x0004, stamp := none, payload := natLe 4 n ++ [0] }

/-- R479: the reply of `EVENT_FREEZE` follows the last event of the queue. -/
def freezeDone (s : State) : State :=
  if s.evrec.frozen && s.evrec.queue.isEmpty then decideJobs s (fun j => j.opcode.toNat == opFreeze) ansOk else s

/-- `EVENT_ACCEPT` (R39, R473): the recorder accepts the event at the front of its queue. -/
def execEventAccept (s : State) : Host.Outcome State Fault Refusal :=
  match s.evrec.queue with
  | (_, e) :: rest =>
    if mayAccept s then
      let s1 := modRec s fun q => { q with queue := rest, lastAccept := some (s.time.beat, s.time.tick) }
      .next (freezeDone (startSpill (tellLost (writeEvent s1 e))))
    else .next s
  | [] => .next (startSpill s)

/-! ### The summary of an epoch (R475) -/

/-- The codes suppressed in an epoch, with their counts. -/
def suppressedIn (q : Recorder) (epoch : Nat) : List (Nat × Nat) :=
  (q.suppressed.filter fun e => e.1 / 65536 == epoch).map fun e => (e.1 % 65536, e.2)

/-- The record that names them. -/
def summaryRec (q : Recorder) (epoch : Nat) : DueRec :=
  { code := 0x0002, stamp := some ((epoch + 1) * 4096 - 1, 8191)
    payload := (suppressedIn q epoch).flatMap fun e => natLe 2 e.1 ++ natLe 2 (min 65535 e.2) }

/-- `SUPPRESSED_SUMMARY` (R475): eight beats into an epoch, the codes suppressed in those before it are told. -/
def execSuppressedSummary (s : State) : Host.Outcome State Fault Refusal :=
  let q := s.evrec
  let epochs := ((q.suppressed.map fun e => e.1 / 65536).eraseDups).filter fun e => (e + 1) * 4096 + 8 ≤ s.time.beat
  let s1 := epochs.foldl (fun s e => dueOwn s (summaryRec q e)) s
  let live (k : Nat) : Bool := s.time.beat / 4096 ≤ k / 65536 + 1
  .next (modRec s1 fun q => { q with
    suppressed := q.suppressed.filter fun e => !epochs.contains (e.1 / 65536)
    written := q.written.filter fun e => live e.1, fresh := q.fresh.filter fun e => live e.1
    summed := epochs.foldl max q.summed })

/-! ### Freeze, read, thaw (R479 to R481) -/

/-- A freeze begins. -/
def freezeRec (s : State) : State := modRec s fun q => { q with frozen := true, drops := 0, dropStamps := none }

/-- R480: a range of the ring or of the spill area may be read. -/
def eventRangeOk (ofs n : Nat) : Bool :=
  ofs % 8 == 0 && n % 8 == 0 && 8 ≤ n && n ≤ 1048576
  && (if bitAt ofs 63 then ofs % 2 ^ 32 + n ≤ 4 * 2 ^ 30 else ofs + n ≤ 8 * segBytes)

/-- The bytes of such a range. -/
def eventBytes (s : State) (ofs n : Nat) : List Byte :=
  if bitAt ofs 63 then farBytes s 16 (ofs % 2 ^ 32) n else memRead s.evrec.ring ofs n

/-- A thaw (R481): `EV_FREEZE_GAP`, and then what fell due. -/
def thawRec (s : State) : State :=
  let q := s.evrec
  let st (x : BitVec 16 × Nat × Nat) : List Byte := stampBytes x.2.1 x.2.2 x.1.toNat
  let stamps := match q.dropStamps with
    | some (a, b) => st a ++ st b
    | none => zeros 20
  let s1 := modRec s fun q => { q with frozen := false, due := [] }
  let s2 := writeOwn s1 { code := 0x0003, stamp := none, payload := natLe 4 q.drops.toNat ++ stamps }
  startSpill (q.due.foldl writeOwn s2)

/-! ### Resets (R483) -/

/-- A module reset: the ring survives; the freeze ends, what was queued but not accepted is gone, and the counts of epochs
begin with the new beat count. -/
def recorderReset (s : State) : State :=
  modRec s fun q => { q with
    frozen := false, queue := [], due := [], drops := 0, dropStamps := none, lost := 0, lostSince := 0, lastAccept := none
    spilling := false, limit := 64, written := [], fresh := [], suppressed := [] }

/-- R483: the unspilled contents of the ring are lost: a new segment follows the highest in the spill area. -/
def recorderLost (s : State) : State :=
  let q := s.evrec
  let lost := ((q.segRecs.filter fun e => !isSpilled q e.1).map Prod.snd).foldl (· + ·) 0
  let s1 := modRec s fun q => { q with
    ring := [], segNo := none, segRecs := [], nextRseq := q.nextRseq - lost, spillQueue := [], spilling := false, lastRec := [] }
  let s2 := newSegment (countLost s1 lost)
  putRec s2 32 (localFlag s) 0x0004 (ownStamp s) noPane (natLe 4 lost ++ [2])

end Sys2Proof.Machine
end

