-- ==== Sys2Proof/Machine/Park.lean ====
section
/-! DEFINITION. The way down (R425, R433, R483, R491): what follows a `SHUTDOWN` that has returned, the start of the hub
test, and the parked module. -/

namespace Sys2Proof.Machine

/-- Every port goes `DOWN`. -/
def portsDown (s : State) : State :=
  (List.range 6).foldl (fun s p => if (portOf s p).state = lsDown then s else leaveActive s p lsDown) s

/-- The module is parked (R425). -/
def park (s : State) : State := portsDown { s with test := { s.test with parked := true } }

/-- The hub test starts: its ledger entry is written (R430), and the ports carry nothing. -/
def startHubTest (s : State) : State :=
  let s1 := modLedger (portsDown s) 16 fun e => { e with result := 4 }
  { s1 with test := { s1.test with hub := tsActive, hubSince := s.time.beat } }

/-- A pane's test is queued, active or suspended. -/
def testsLeft (s : State) : Bool :=
  (List.range 16).any fun p => let t := (testOf s p).tstate; t == tsQueued || t == tsActive || t == tsSuspended

/-- The ring has been spilled as far as the far tier takes it. -/
def ringSpilled (s : State) : Bool := s.evrec.spillQueue.isEmpty || spillBlocked s || farClosed s

/-- R433, R491: after a `SHUTDOWN` has returned, its pane tests are over and the ring is spilled, the hub is tested or the
module parks. -/
def parkNext (s : State) : State :=
  match s.test.shutdown with
  | some test =>
    if testsLeft s || !ringSpilled s || s.test.parked || s.test.hub = tsActive then s
    else if test then startHubTest s
    else park s
  | none => s

/-- R425, R491: a map checkpoint is written, and the whole ring begins to be spilled, frozen or not. -/
def beginPark (s : State) : State :=
  let s1 := modRec (checkpoint s) fun q => { q with
    spillQueue := q.spillQueue ++ match q.segNo with
      | some n => if q.spillQueue.contains n then [] else [n]
      | none => [] }
  parkNext (startSpill s1)

/-- SHUTDOWN has returned: with `TEST`, the panes are tested first. -/
def afterShutdown (s : State) (test : Bool) : State :=
  let s1 := { s with test := { s.test with shutdown := some test } }
  if test then
    let free := (List.range 16).filter fun p => (pane s p).state == .free
    if free.isEmpty then beginPark s1 else free.foldl enterTesting s1
  else beginPark s1

end Sys2Proof.Machine
end

