-- ==== Sys2Proof/Machine/Transmit.lean ====
section
/-! DEFINITION. What a port sends (09_clouzlink.md): scheduled slots with Plan data (R115 to R123, R241), check values
(R238, R239), replays (R243), and unscheduled traffic under credits (R246 to R248). -/

namespace Sys2Proof.Machine

/-! ### Check-value units (R238, R239) -/

/-- A running check value with more bytes; that of no bytes is 0 for every polynomial. -/
def cvFeed (poly v : Nat) (l : List Byte) : Nat :=
  if poly = 0 then (l.foldl (crcReflByte 0x82F63B78) (v.xor 0xFFFFFFFF)).xor 0xFFFFFFFF
  else if poly = 1 then (l.foldl (crcReflByte 0xEDB88320) (v.xor 0xFFFFFFFF)).xor 0xFFFFFFFF
  else l.foldl (crcNormByte 64 0x42F0E1EBA9EA3693) v

/-- The runs that a stream has on a port and direction. -/
def streamRuns (d : List Byte) (p : Nat) (rx : Bool) (n : Nat) : List SlotRun :=
  (planRuns d).filter fun r => r.port == p && r.rx == rx && r.kindCode != 2 && r.stream == n

/-- Nothing of a stream comes before a slot on its port and direction. -/
def firstOfStream (d : List Byte) (p : Nat) (rx : Bool) (n rel idx : Nat) : Bool :=
  (streamRuns d p rx n).all fun r => rel < r.beatOfs || (rel == r.beatOfs && idx ≤ r.first)

/-- A check-value unit is attached to a stream whose group still runs. -/
def cvAttached (s : State) (u : CvUnit) : Bool :=
  u.lstate == 1 && match groupLed s u.lead with
    | some g => planRunning g
    | none => false

/-- R239: a slot of a stream passes a unit in `LEDGER` mode. `dest` is the stream's destination address, `k` the number
of the slot in its stream. -/
def cvSlot (s : State) (p : Nat) (rx : Bool) (g : Group) (d : List Byte) (run : SlotRun) (rel idx : Nat)
    (dest : BitVec 64) (payload : List Byte) : State :=
  let u := 2 * p + b2n rx
  let poly := (portOf s p).cvPoly.toNat
  let lead := leadOf g.members
  let slots := ((streamRuns d p rx run.stream).map fun r => r.beats * r.count).foldl (· + ·) 0
  let feed (x : CvUnit) : CvUnit :=
    { x with value := BitVec.ofNat 64 (cvFeed poly x.value.toNat payload), left := x.left - 1
             lstate := if x.left ≤ 1 then 2 else 1 }
  let x := cvOf s u
  if cvAttached s x then
    if x.stream.toNat = run.stream && x.lead == lead && !firstOfStream d p rx run.stream rel idx then modCv s u feed
    else if firstOfStream d p rx run.stream rel idx then modCv s u fun x => { x with uncovered := true }
    else s
  else if firstOfStream d p rx run.stream rel idx then
    modCv s u fun x => feed
      { x with value := BitVec.ofNat 64 (cvFeed poly 0 (natLe 8 dest.toNat ++ natLe 6 (runSlot run rel idx)))
               stream := BitVec.ofNat 16 run.stream, func := BitVec.ofNat 5 (lead + 1), lstate := 1, lead := lead
               left := slots, cut := false }
  else s

/-! ### A slot leaves the port -/

/-- R235: the entry of a list that a slot number takes in rotation. -/
def rotate {α : Type} (l : List α) (slot : Nat) : Option α := l[slot % max 1 l.length]?

/-- R235: the HOLD and abort indications of a slot. -/
def withFlags (s : State) (slot : Nat) (h : SlotHdr) : SlotHdr :=
  let h1 := match rotate (holdFlags s) slot with
    | some j => { h with hold := true, holdJob := j }
    | none => { h with hold := false, holdJob := 0 }
  match rotate (abortFlags s) slot with
  | some e => { h1 with abort := true, abortJob := e.job, abortColl := e.coll, abortOrigin := e.origin, abortHops := e.hops }
  | none => { h1 with abort := false, abortJob := 0, abortColl := 0, abortOrigin := 0, abortHops := 0 }

/-- The slot as it goes out: header complete, check value in `FRAME` mode (R238). -/
def mkSlot (s : State) (p slot : Nat) (h : SlotHdr) (payload : List Byte) : SlotImg :=
  let x := portOf s p
  let h1 := withFlags s slot
    { h with slotNo := BitVec.ofNat 8 slot, beat := BitVec.ofNat 48 s.time.beat, srcDevice := moduleId s
             cvPresent := x.cvMode }
  { hdr := h1, payload := payload
    check := if x.cvMode then
        BitVec.ofNat 64 (slotCheck x.cvPoly.toNat x.peerDevice.toNat x.peerPort.toNat s.time.beat h1 payload)
      else 0 }

/-- A slot goes out, and the 3-beat store keeps it (R243). -/
def emit (s : State) (p slot : Nat) (h : SlotHdr) (payload : List Byte) : State :=
  let x := mkSlot s p slot h payload
  modTraf s p fun t =>
    { t with lastSlot := some x
             store := (t.store.filter fun y => s.time.beat ≤ y.beat + 3) ++ [{ beat := s.time.beat, img := x }] }

/-- A slot with nothing in it goes out (R233, R241, R445). -/
def emitIdle (s : State) (p slot : Nat) : State := meterTorus (emit s p slot hdrZero (zeros 3072)) 16 3072

/-! ### Scheduled slots -/

/-- The group that holds a scheduled slot of a port and direction. -/
def slotOwner (s : State) (p slot : Nat) (rx : Bool) : Option Group :=
  s.groups.find? fun g => (allocOf s g p rx).getLsbD slot

/-- Header of a Plan slot. -/
def planHdr (s : State) (g : Group) (pb : Nat) : SlotHdr :=
  { hdrZero with kind := BitVec.ofNat 8 kPlan, jobTag := groupTag s g, planBeat := BitVec.ofNat 32 pb, isSealed := g.isSealed }

/-- A Plan slot with its stream data goes out; none in a sealed group without a key. -/
def sendStream (s : State) (p slot : Nat) (g : Group) (d : List Byte) (run : SlotRun) (pb idx : Nat) : State :=
  let x := planStream d run.stream
  let pn := planPane g (gaPane x.addr)
  let rel := pb % max 1 (planStepBeats d)
  let at' := runSlot run rel idx * slotData g.isSealed
  let n := min (slotData g.isSealed) (x.length - at')
  let lead := leadOf g.members
  if x.length ≤ at' then emitIdle s p slot
  else if run.kindCode = 0 && rangePoison (nearOf s pn) (gaOfs x.addr + at') n then
    emitIdle (abortGroup s g (match streamColl d x with
      | some i => (planColl d i).ident
      | none => noColl) 1) p slot
  else
    let data := bytesAt (nearRead s pn (gaOfs x.addr + at') n) 0 (slotData g.isSealed)
    let h := planHdr s g pb
    let sealed' := if g.isSealed then sealFrame s pn h data else some (s, data)
    match sealed' with
    | none => emitIdle s p slot
    | some (s1, payload) =>
      let s2 := if (portOf s p).cvMode then s1
                else cvSlot (tookFree s1) p false g d run rel idx (Config.freeWord s1.free) payload
      meterTorus (emit s2 p slot h payload) lead 3072

/-- R122: the slot that a `FORWARD` run has for a plan beat and index of a port. -/
def fwdFor (s : State) (p lead pb idx : Nat) : Option FwdSlot :=
  (trafOf s p).fwd.find? fun f => f.lead == lead && f.planBeat == pb && f.index == idx && f.asReplay.isNone

/-- A scheduled slot of a port (R117, R122, R123, R241). Where a forwarded slot and a transmit run fall on one slot, which
no load check excludes, the forwarded slot goes out (log entry 71). -/
def sendScheduled (s : State) (p slot : Nat) : State :=
  match slotOwner s p slot false with
  | none => emitIdle s p slot
  | some g => match g.plan, g.run with
    | some d, some r =>
      if !slotsRun s || !r.started || r.held.isSome || !issuesStill s g || r.nextBeat = 0 then emitIdle s p slot
      else
        let pb := r.nextBeat - 1
        let idx := bitRank (allocOf s g p false) slot
        match fwdFor s p (leadOf g.members) pb idx with
        | some f =>
          let s1 := modTraf s p fun t => { t with fwd := t.fwd.erase f }
          meterTorus (emit s1 p slot { planHdr s g pb with jobTag := f.img.hdr.jobTag, isSealed := f.img.hdr.isSealed }
            f.img.payload) (leadOf g.members) 3072
        | none =>
          if beyondEnd d r pb then emitIdle s p slot
          else match (planRuns d).find? fun x => !x.rx && x.port == p && x.kindCode != 2
              && runCovers x (pb % max 1 (planStepBeats d)) idx with
            | some run => if tblGet false r.begun run.stream then sendStream s p slot g d run pb idx
                          else emitIdle s p slot
            | none => emitIdle s p slot
    | _, _ => emitIdle s p slot

/-! ### Replays (R243 to R245) -/

/-- A stored slot goes out again. -/
def sendReplay (s : State) (p slot : Nat) (x : SlotImg) (beat : Nat) : State :=
  let h := { x.hdr with
    kind := BitVec.ofNat 8 kReplay, origBeat := BitVec.ofNat 32 beat, origSlot := x.hdr.slotNo, origKind := x.hdr.kind }
  meterTorus (emit s p slot h x.payload) 16 3072

/-- The next replay due on a port goes out, if there is one, and is noted as re-sent (R10); a slot that the store no longer
holds fails the port (R245). The answer says whether the slot has been used. -/
def takeReplay (p slot : Nat) : List (Nat × Nat × Nat) → State → State × Bool
  | [], s => match (trafOf s p).fwd.find? fun f => f.asReplay.isSome with
    | some f =>
      let s1 := modTraf s p fun t => { t with fwd := t.fwd.erase f }
      let o := f.asReplay.getD (0, 0)
      let h := { f.img.hdr with
        kind := BitVec.ofNat 8 kReplay, origBeat := BitVec.ofNat 32 o.1, origSlot := BitVec.ofNat 8 o.2
        origKind := BitVec.ofNat 8 kPlan }
      (meterTorus (emit s1 p slot h f.img.payload) 16 3072, true)
    | none => (s, false)
  | q :: rest, s =>
    if s.time.beat < q.2.2 then takeReplay p slot rest s
    else
      let s1 := modTraf s p fun t => { t with replayDue := t.replayDue.erase q }
      match (trafOf s p).store.find? fun y => y.beat % 2 ^ 24 == q.1 && y.img.hdr.slotNo.toNat == q.2.1 with
      | some y =>
        (modTraf (sendReplay s1 p slot y.img y.beat) p fun t =>
          { t with resent := (q.1, q.2.1, s.time.beat) :: t.resent }, true)
      | none => (failPort s1 p pcReplay, true)

/-! ### Unscheduled traffic (R246 to R248) -/

/-- Credit that a port holds for a class (R247). -/
def credit (t : PortTraffic) (c : Nat) : Nat :=
  classBuffer c - (tblGet 0 t.sent c + 65536 - tblGet 0 t.returned c) % 65536

/-- What one contributor puts into a slot. -/
structure Load where
  bytes : List Byte
  /-- The context whose data it is. -/
  pane : Option Nat
  sealedHdr : Option SlotHdr
  /-- Payload bytes metered, and the pane they are metered to. -/
  meter : Nat × Nat
  deriving DecidableEq, Repr

/-- The injection queue of a class at a pane. -/
def injOf (s : State) (p c : Nat) : List OutMsg := if c = 0 then (rmoOf s p).injReq else (rmoOf s p).injResp

/-- The contributors that have something of a class for a port (R248). -/
def contributors (s : State) (p c : Nat) : List Nat :=
  (List.range 23).filter fun v =>
    (v < 16 && c ≤ 1 && (injOf s v c).any fun m => routePort s m.device == some p)
    || (trafOf s p).out.any fun x => x.klass == c && x.via == v

/-- The contributor whose turn it is. -/
def nextVia (last : Nat) (l : List Nat) : Option Nat := (l.find? (last < ·)).orElse fun _ => l.head?

/-- The messages of a queue that fill a slot on a port, and what remains. In a sealed group a slot takes messages for
one module. -/
def fillMsgs (s : State) (p cap : Nat) (one : Bool) (dev : Option (BitVec 16)) :
    List OutMsg → Nat → List Byte × List OutMsg
  | [], _ => ([], [])
  | m :: r, used =>
    let b := msgBytes m.msg
    if routePort s m.device == some p && (!one || dev.isNone || dev == some m.device) && used + b.length ≤ cap then
      let x := fillMsgs s p cap one (some m.device) r (used + b.length)
      (b ++ x.1, x.2)
    else if routePort s m.device == some p && cap < used + b.length then ([], m :: r)
    else
      let x := fillMsgs s p cap one dev r used
      (x.1, m :: x.2)

/-- The parcels of one contributor that fill a slot, and what remains of the port's queue. -/
def fillParcels (c via : Nat) : List Parcel → Nat → List Parcel × List Parcel
  | [], _ => ([], [])
  | x :: r, used =>
    if x.klass = c && x.via == via then
      if used = 0 && (2 ≤ c || x.sealedHdr.isSome) then ([x], r)
      else if x.sealedHdr.isSome || 3072 < used + x.bytes.length then ([], x :: r)
      else
        let y := fillParcels c via r (used + x.bytes.length)
        (x :: y.1, y.2)
    else
      let y := fillParcels c via r used
      (y.1, x :: y.2)

/-- R247: receive slots that no parcel comes from any more are freed. -/
def freeSlots (s : State) (c : Nat) (ps : List Parcel) : State :=
  (ps.filterMap (·.slot)).eraseDups.foldl (fun s k =>
    if (List.range 6).any fun p => (trafOf s p).out.any fun x => x.slot == some k then s
    else modTraf s k.1 fun t => { t with freed := tblPut 0 t.freed c ((tblGet 0 t.freed c + 1) % 65536) }) s

/-- R249: what waits for room in a pane's injection queue of `BULK` enters it. -/
def fillBulk (s : State) (via : Nat) : State :=
  if 16 ≤ via then s
  else
    let late := (rmoOf s via).late
    let room := 64 - parcelsOf s via 3
    (late.take room).foldl queueParcel (modRmo s via fun u => { u with late := late.drop room })

/-- What a contributor puts into a slot of a class; its queues are shortened. -/
def takeLoad (s : State) (p c via : Nat) : State × Load :=
  let parcels := fillParcels c via (trafOf s p).out 0
  if via < 16 && c ≤ 1 && parcels.1.isEmpty then
    let sealed' := groupSealed s via
    let x := fillMsgs s p (slotData sealed') sealed' none (injOf s via c) 0
    (modRmo s via fun u => if c = 0 then { u with injReq := x.2 } else fillResponses { u with injResp := x.2 },
      { bytes := x.1, pane := some via, sealedHdr := none, meter := (via, x.1.length) })
  else
    let first := parcels.1.head?
    (fillBulk (freeSlots (modTraf s p fun t => { t with out := parcels.2 }) c parcels.1) via,
      { bytes := parcels.1.flatMap (·.bytes), pane := first.bind (·.pane), sealedHdr := first.bind (·.sealedHdr)
        meter := ((first.bind (·.pane)).getD 16, 3072) })

/-- R391: the `COMMIT` of a copy leaves in the present beat. -/
def noteCommit (s : State) (lead : Nat) (bytes : List Byte) : State :=
  let h := frameHdr bytes
  if h.ftype = ftCommit then
    modGroup s lead fun g => { g with copies := g.copies.map fun c =>
      if c.taken && c.commitBeat.isNone && c.step == h.step then { c with commitBeat := some s.time.beat } else c }
  else s

/-- A slot of a class goes out with a load: sealed where its context's group seals frames (R204), whole where it is
sealed already. -/
def sendLoad (s : State) (p slot c : Nat) (x : Load) : State :=
  let h : SlotHdr := { hdrZero with kind := BitVec.ofNat 8 (classKind c) }
  let done (s : State) (h : SlotHdr) (payload : List Byte) : State := meterTorus (emit s p slot h payload) x.meter.1 x.meter.2
  match x.sealedHdr with
  | some y => done s { h with jobTag := y.jobTag, isSealed := true } x.bytes
  | none => match x.pane with
    | some v =>
      let s1 := if c = 3 then noteCommit s v x.bytes else s
      if groupSealed s v then
        let hs := { h with jobTag := (pane s v).jobTag, isSealed := true }
        match sealFrame s1 v hs (bytesAt x.bytes 0 3008) with
        | some (s2, payload) => done s2 hs payload
        | none => emitIdle s1 p slot
      else done s1 h (bytesAt x.bytes 0 3072)
    | none => done s h (bytesAt x.bytes 0 3072)

/-- The class that an unscheduled slot carries, in the order of R248, and whether it is of the first share of `BULK`. -/
def nextClass (s : State) (p : Nat) : Option (Nat × Bool) :=
  let t := trafOf s p
  let ready (c : Nat) : Bool := decide (0 < credit t c) && !(contributors s p c).isEmpty
  if t.mgmtSent < 4 && ready 2 then some (2, true)
  else if t.bulkSent < 4 && ready 3 then some (3, true)
  else if ready 1 then some (1, false)
  else if ready 0 then some (0, false)
  else if ready 3 then some (3, false)
  else none

/-- An unscheduled slot of a port (R248). -/
def sendUnscheduled (s : State) (p slot : Nat) : State :=
  match takeReplay p slot (trafOf s p).replayDue s with
  | (s, true) => s
  | (s, false) => match nextClass s p with
    | none => emitIdle s p slot
    | some (c, share) => match nextVia (tblGet 22 (trafOf s p).lastVia c) (contributors s p c) with
      | none => emitIdle s p slot
      | some via =>
        let r := takeLoad s p c via
        let s1 := modTraf r.1 p fun t => { t with
          sent := tblPut 0 t.sent c ((tblGet 0 t.sent c + 1) % 65536), lastVia := tblPut 22 t.lastVia c via
          mgmtSent := if c = 2 then t.mgmtSent + 1 else t.mgmtSent
          bulkSent := if share && c == 3 then t.bulkSent + 1 else t.bulkSent }
        sendLoad s1 p slot c r.2

/-- The equalisation pattern of a `RECAL` slot (R242), which the manual does not give. -/
def recalPattern : List Byte := (List.range 3072).map Config.recalByte

/-- The block of a slot as its kind of slot has it (R233, R240 to R242). -/
def sendSlot (s : State) (p n : Nat) : State :=
  if n = 255 && s.time.beat % 64 = 0 then
    meterTorus (emit s p n { hdrZero with kind := BitVec.ofNat 8 kRecal } recalPattern) 16 3072
  else if n < schedSlots s.power.slotSplit.toNat && !(portOf s p).splitMismatch then sendScheduled s p n
  else if n < firstUnsched s p then emitIdle s p n
  else sendUnscheduled s p n

/-- `SLOT_TRANSMIT` (R224): a port sends the block for a slot, once in a beat, after the sill and the slots below it. -/
def execSlotTransmit (port : PortId) (slot : BitVec 8) (s : State) : Host.Outcome State Fault Refusal :=
  let p := port.val
  let n := slot.toNat
  if !s.power.hubUp || !portActive s p || (trafOf s p).txNext != n + 1 then .next s
  else .next (sendSlot (modTraf s p fun t => { t with txNext := n + 2 }) p n)

end Sys2Proof.Machine
end

