-- ==== Sys2Proof/Machine/Rings.lean ====
section
/-! DEFINITION. The ring engines (10_collectives.md, R255 to R272): chunks are added and passed on, the exponent pre-pass
of BX64, the rounding of results, the norm and noise sums, and the end of a collective. The manual gives chunks no byte
layout: a chunk holds its elements packed, at its slots of its stream. -/

namespace Sys2Proof.Machine

/-! ### Elements -/

/-- `n` packed elements of `w` bits. -/
def unpack (w n : Nat) (l : List Byte) : List Nat :=
  let v := leNat l
  (List.range n).map (packedGet w v)

/-- Elements packed into bytes. -/
def packBytes (w : Nat) (l : List Nat) : List Byte := natLe (ceilDiv (w * l.length) 8) (packElems w l)

/-- Exact sum of two values. -/
def numAdd : Num → Num → Num
  | .nan, _ => .nan
  | _, .nan => .nan
  | .inf a, .inf b => if a = b then .inf a else .nan
  | .inf a, .fin _ _ _ => .inf a
  | .fin _ _ _, .inf b => .inf b
  | .fin a m e, .fin b n g => finAdd a m e b n g

/-- A square in units of 2^-298 (R270); none for NaN and infinities. -/
def squareUnits : Num → Option Nat
  | .fin _ m e => some (m * m * 2 ^ (2 * e + 298).toNat)
  | _ => none

/-- Sum of the squares of some values, and whether one was NaN or infinite. -/
def squares (l : List Num) : Nat × Bool :=
  (((l.filterMap squareUnits).foldl (· + ·) 0), l.any fun v => (squareUnits v).isNone)

/-- R263: exponent byte of one value. -/
def expoOf : Num → Nat
  | .fin _ m e => if m = 0 then 0 else ((max (ilog2 m e) (-126)) + 127).toNat
  | _ => 0xFF

/-- R264: a value as a 64-bit integer against its block's exponent byte. -/
def toQ (expo : Nat) : Num → Int
  | .fin neg m e =>
    if expo = 0 || expo = 0xFF then 0
    else
      let k : Int := (roundUnits .rne (fun lo => lo % 2 == 1) m e ((expo : Int) - 127 - 46) : Nat)
      if neg then -k else k
  | _ => 0

/-- A result rounded into a format code (R265, R267); in an MX format as an element of a block (R93). -/
def roundTo (fmt : Nat) (mode : RMode) (sat : Bool) (v : Num) : Nat :=
  if fmt = 11 then (roundE8m0 mode sat v).1 else (roundNum (fmtElemD fmt) mode sat (fmtMx fmt) v).1

/-! ### What a collective works on -/

/-- The parts of a chunk's step: group, Plan, descriptor, and the run's seeds and step. -/
structure CollEnv where
  g : Group
  d : List Byte
  c : CollD
  k0 : BitVec 64
  k1 : BitVec 64
  step : Nat
  deriving DecidableEq, Repr

/-- The pane of a Plan-relative address. -/
def CollEnv.paneAt (x : CollEnv) (a : BitVec 64) : Nat := planPane x.g (gaPane a)

/-- R257: the elements that this member works on in the stage of an axis; of axis 3, its shard. -/
def CollEnv.region (x : CollEnv) (s : State) (axis : Nat) : Nat × Nat :=
  regionAt x.c (planShape x.d) (memberCoord s x.g x.d) axis

/-- Axes of the collective's stages, X first. -/
def CollEnv.stages (x : CollEnv) : List Nat := collStages x.c (planShape x.d)

/-- R318: an axis of the variant is folded. -/
def CollEnv.folded (x : CollEnv) (axis : Nat) : Bool := match ownVariant x.d with
  | some v => bitAt v.2.2.2 axis
  | none => false

/-- Where the elements of a contribution stand in the near tier. -/
def CollEnv.srcAt (x : CollEnv) (contribution first : Nat) : Nat :=
  let whole := if x.c.kind = 1 then shardElems x.c (planShape x.d) else x.c.elements
  gaOfs x.c.src + (contribution * whole + first) * moveWidth x.c.inFmt / 8

/-- Elements of one contribution from `SRC_ADDR`, as codes. -/
def CollEnv.srcCodes (x : CollEnv) (s : State) (contribution first n : Nat) : List Nat :=
  unpack (moveWidth x.c.inFmt) n (nearRead s (x.paneAt x.c.src) (x.srcAt contribution first) (fmtBytes x.c.inFmt n))

/-- Whether a range of `SRC_ADDR` holds poison. -/
def CollEnv.srcPoison (x : CollEnv) (s : State) (first n : Nat) : Bool :=
  (List.range (if x.c.kind = 1 then 1 else x.c.contrib)).any fun i =>
    rangePoison (nearOf s (x.paneAt x.c.src)) (x.srcAt i first) (fmtBytes x.c.inFmt n)

/-- Where an element of the output stands: a `REDUCE_SCATTER` writes its shard alone. -/
def CollEnv.dstAt (x : CollEnv) (s : State) (elem : Nat) : Nat :=
  gaOfs x.c.dst + (if x.c.kind = 0 then elem - (x.region s 3).1 else elem) * moveWidth x.c.outFmt / 8

/-- Elements of the output, as codes. -/
def CollEnv.dstCodes (x : CollEnv) (s : State) (elem n : Nat) : List Nat :=
  unpack (moveWidth x.c.outFmt) n (nearRead s (x.paneAt x.c.dst) (x.dstAt s elem) (fmtBytes x.c.outFmt n))

/-- Whether a range of `DST_ADDR` holds poison. -/
def CollEnv.dstPoison (x : CollEnv) (s : State) (elem n : Nat) : Bool :=
  rangePoison (nearOf s (x.paneAt x.c.dst)) (x.dstAt s elem) (fmtBytes x.c.outFmt n)

/-- Every contribution's values of a range of elements. -/
def CollEnv.contributions (x : CollEnv) (s : State) (first n : Nat) : List (List Num) :=
  (List.range x.c.contrib).map fun i => (x.srcCodes s i first n).map (fmtDecode x.c.inFmt)

/-- Bits of an item on the wire in a pass: an exponent byte of a block, a partial sum, an element of the result. -/
def CollEnv.itemBits (x : CollEnv) : ChunkPass → Nat
  | .exponents => 8
  | .exponentsBack => 8
  | .reduce => if x.c.wire = 0 then 64 else if x.c.wire = 1 then 32 else fmtWidth x.c.inFmt
  | .gather => moveWidth x.c.outFmt

/-- Elements that an item stands for: a block of 256 in the pre-pass. -/
def itemUnit : ChunkPass → Nat
  | .exponents => 256
  | .exponentsBack => 256
  | .reduce => 1
  | .gather => 1

/-- Items that stand for a range of elements. -/
def itemCount (pass : ChunkPass) (count : Nat) : Nat := count / itemUnit pass

/-- The bytes that a chunk's items take. -/
def CollEnv.chunkBytes (x : CollEnv) (pass : ChunkPass) (count : Nat) : Nat :=
  ceilDiv (itemCount pass count * x.itemBits pass) 8

/-- Near-tier offset of a chunk of a stream. -/
def CollEnv.chunkOfs (x : CollEnv) (k : ChunkAt) : Nat :=
  gaOfs (planStream x.d k.stream).addr + k.chunk * x.c.chunkSlots * slotData x.g.isSealed

/-! ### Arithmetic (R263 to R268) -/

/-- R267, R268: the sum of two items in an ordered format. `hop` numbers the rounding. -/
def CollEnv.addOrdered (x : CollEnv) (hop elem a b : Nat) : Nat :=
  if x.c.wire = 1 then (f32Add a b).1
  else
    let draw := leek x.k0 x.k1 x.step (x.c.tensor + hop) elem
    roundTo x.c.inFmt (rmodeOf (x.c.round % 4) draw) (bitAt x.c.round 2)
      (numAdd (fmtDecode x.c.inFmt a) (fmtDecode x.c.inFmt b))

/-- Two items of a reduction added; of a pre-pass, the larger. -/
def CollEnv.combine (x : CollEnv) (pass : ChunkPass) (hop elem a b : Nat) : Nat :=
  if pass = .reduce then (if x.c.wire = 0 then (a + b) % 2 ^ 64 else x.addOrdered hop elem a b) else max a b

/-- Rows of items added item by item, in the order of the rows. -/
def CollEnv.addRows (x : CollEnv) (pass : ChunkPass) (hop elem : Nat) : List (List Nat) → List Nat
  | [] => []
  | l :: rest => rest.foldl (fun acc m =>
      (acc.zip m).zipIdx.map fun e => x.combine pass hop (elem + e.2) e.1.1 e.1.2) l

/-- What this member's own contributions come to on a range of elements. -/
def CollEnv.srcItems (x : CollEnv) (s : State) (r : CollRun) (pass : ChunkPass) (elem count : Nat) : List Nat :=
  if pass = .reduce then
    if x.c.wire = 0 then
      let cols := x.contributions s elem count
      (List.range count).map fun i =>
        ofSigned 64 ((cols.map fun l => toQ (tblGet 0 r.expo ((elem + i) / 256)).toNat (l.getD i .nan)).foldl (· + ·) 0)
    else if x.c.wire = 1 then (x.srcCodes s 0 elem count).map fun c => roundTo 0 .rne false (fmtDecode x.c.inFmt c)
    else x.srcCodes s 0 elem count
  else (List.range (count / 256)).map fun b =>
    ((x.contributions s (elem + 256 * b) 256).flatten.map expoOf).foldl max 0

/-- R265, R267: the value of a final item of a reduction, rounded into `OUT_FMT`. -/
def CollEnv.finalCode (x : CollEnv) (r : CollRun) (elem v : Nat) : Nat :=
  let mode := rmodeOf (x.c.round % 4) (leek x.k0 x.k1 x.step x.c.tensor elem)
  let sat := bitAt x.c.round 2
  if x.c.wire = 0 then
    let e := (tblGet 0 r.expo (elem / 256)).toNat
    let q := toSigned 64 v
    if e = 0xFF then roundTo x.c.outFmt mode sat .nan
    else if q = 0 then 0
    else roundTo x.c.outFmt mode sat (.fin (decide (q < 0)) q.natAbs ((e : Int) - 127 - 46))
  else if x.c.wire = 1 then roundTo x.c.outFmt mode sat (fmtDecode 0 v)
  else v

/-- R270: this member's squares count: its coordinate is even on every axis of the collective. -/
def CollEnv.normMember (x : CollEnv) (s : State) : Bool :=
  let m := memberCoord s x.g x.d
  (List.range 3).all fun a => !bitAt x.c.axes a || axisOf m a % 2 == 0

/-- The collectives in progress of a run with one changed. -/
def modColl (s : State) (lead i : Nat) (f : CollRun → CollRun) : State :=
  modRun s lead fun r => { r with colls := r.colls.map fun c => if c.index = i then f c else c }

/-- Codes written to `DST_ADDR`. The whole range is written wherever it lies: the manual names no refusal of one that
reaches 48 GiB (R138, log entry 70). -/
def CollEnv.writeOut (x : CollEnv) (s : State) (lead i elem : Nat) (codes : List Nat) : State :=
  modColl (nearWrite s (x.paneAt x.c.dst) (x.dstAt s elem) (packBytes (moveWidth x.c.outFmt) codes)) lead i fun r =>
    { r with written := r.written ++ [(elem, codes.length)] }

/-- R270: the squares of results are counted at the member they count for. -/
def CollEnv.noteNorm (x : CollEnv) (s : State) (lead i : Nat) (codes : List Nat) : State :=
  if bitAt x.c.cflags 0 && x.normMember s then
    let sq := squares (codes.map (fmtDecode x.c.outFmt))
    modColl s lead i fun r => { r with normOwn := r.normOwn + BitVec.ofNat 640 sq.1, nanSeen := r.nanSeen || sq.2 }
  else s

/-- R271: the squares of this member's inputs are counted as it supplies them. Those of `RAW96` lanes, which have no value
without their exponent, are a free value. -/
def CollEnv.noteNoise (x : CollEnv) (s : State) (lead i : Nat) (values : List Num) : State :=
  if bitAt x.c.cflags 1 && x.c.inFmt = 10 then
    modColl (tookFree s) lead i fun r =>
      { r with noiseOwn := r.noiseOwn + (Config.freeWord s.free).setWidth 640 }
  else if bitAt x.c.cflags 1 then
    modColl s lead i fun r =>
      { r with noiseOwn := r.noiseOwn + BitVec.ofNat 640 (squares values).1, nanSeen := r.nanSeen || (squares values).2 }
  else s

/-- Exponent bytes of consecutive blocks are known. -/
def CollEnv.keepExpo (s : State) (lead i elem : Nat) (items : List Nat) : State :=
  modColl s lead i fun r =>
    { r with expo := items.zipIdx.foldl (fun t e => tblPut 0 t (elem / 256 + e.2) (BitVec.ofNat 8 e.1)) r.expo
             known := r.known ++ [(elem, 256 * items.length)] }

/-- The end of the last stage of a reduce-scatter: exponent bytes are kept; sums are rounded, written and counted. -/
def CollEnv.finish (x : CollEnv) (s : State) (lead : Nat) (r : CollRun) (pass : ChunkPass) (i elem : Nat)
    (items : List Nat) : State :=
  if pass = .reduce then
    let codes := items.zipIdx.map fun e => x.finalCode r (elem + e.2) e.1
    x.noteNorm (x.writeOut s lead i elem codes) lead i codes
  else CollEnv.keepExpo s lead i elem items

/-- A chunk is written where its next hop is sent from. -/
def CollEnv.stageOut (x : CollEnv) (s : State) (pass : ChunkPass) (k : ChunkAt) (items : List Nat) : State :=
  nearWrite s (x.paneAt x.c.stage) (x.chunkOfs k) (packBytes (x.itemBits pass) items)

/-- The items of a staged chunk. -/
def CollEnv.staged (x : CollEnv) (s : State) (pass : ChunkPass) (count : Nat) (k : ChunkAt) : List Nat :=
  unpack (x.itemBits pass) (itemCount pass count)
    (nearRead s (x.paneAt x.c.stage) (x.chunkOfs k) (x.chunkBytes pass count))

/-- Whether a staged chunk holds poison. -/
def CollEnv.stagedPoison (x : CollEnv) (s : State) (pass : ChunkPass) (count : Nat) (k : ChunkAt) : Bool :=
  rangePoison (nearOf s (x.paneAt x.c.stage)) (x.chunkOfs k) (x.chunkBytes pass count)

/-! ### Which chunks may advance (R258 to R260, R263) -/

/-- Key of a stream's chunk in a step. -/
def chunkKey (step stream chunk : Nat) : Nat := (step * 65536 + stream) * 2 ^ 32 + chunk

/-- Slots of a chunk of a stream: the last may have fewer. -/
def CollEnv.slotsOf (x : CollEnv) (k : ChunkAt) : Nat :=
  min x.c.chunkSlots (streamSlots x.g.isSealed (planStream x.d k.stream) - k.chunk * x.c.chunkSlots)

/-- Every run of a stream is on one of the ports of a list. -/
def streamOnPorts (d : List Byte) (n : Nat) (ports : List Nat) : Bool :=
  (planRuns d).all fun q => q.kindCode == 2 || q.stream != n || ports.contains q.port

/-- A chunk of a stream of the collective: direction, ports, and room for the items. -/
def CollEnv.chunkOk (x : CollEnv) (coll : Nat) (rx : Bool) (ports : List Nat) (pass : ChunkPass) (count : Nat)
    (k : ChunkAt) : Bool :=
  let st := planStream x.d k.stream
  streamColl x.d st == some coll && st.rx == rx && streamOnPorts x.d k.stream ports
  && x.chunkBytes pass count ≤ x.slotsOf k * slotData x.g.isSealed

/-- R258: a received chunk may be used once it has been whole for two plan beats. -/
def chunkReady (x : CollEnv) (r : Run) (step : Nat) (k : ChunkAt) : Bool :=
  let e := tblGet (0, 0) r.chunks (chunkKey step k.stream k.chunk)
  x.slotsOf k ≤ e.1 && e.2 + 2 < r.nextBeat

/-- Elements that two ranges share. -/
def rangeShared (a n : Nat) (r : Nat × Nat) : Nat := min (a + n) (r.1 + r.2) - max a r.1

/-- A range is covered by ranges that do not overlap one another. -/
def covered (l : List (Nat × Nat)) (a n : Nat) : Bool := (l.map (rangeShared a n)).foldl (· + ·) 0 == n

/-- A range meets none of some ranges. -/
def apart (l : List (Nat × Nat)) (a n : Nat) : Bool := l.all fun r => rangeShared a n r == 0

/-- The chunk of a part of a stage has not advanced yet, and the places it names have not been used. -/
def chunkNew (r : CollRun) (id : ChunkId) (inp out : Option ChunkAt) : Bool :=
  r.done.all fun q =>
    (inp.isNone || q.inp != inp) && (out.isNone || q.out != out)
    && (q.id.pass != id.pass || q.id.axis != id.axis || q.id.tray != id.tray
        || rangeShared id.elem id.count (q.id.elem, q.id.count) == 0 || (id.pass != .exponents && id.pass != .reduce))

/-- The part and the quarter of a stage's elements that a chunk lies in; none where it is empty or crosses a border. -/
def CollEnv.spot (x : CollEnv) (s : State) (id : ChunkId) : Option (Nat × Nat) :=
  let r := x.region s id.axis.val
  let u := itemUnit id.pass
  let p := r.2 / (axisShards x.c (planShape x.d) id.axis.val * u)
  let i := (id.elem - r.1) / u
  let j := i + id.count / u - 1
  if r.1 ≤ id.elem && id.elem + id.count ≤ r.1 + r.2 && 0 < id.count && id.elem % u == 0 && id.count % u == 0
      && i / p == j / p && 4 * (i % p) / p == 4 * (j % p) / p then some (i / p, 4 * (i % p) / p)
  else none

/-- What this member does with a chunk of a reduce-scatter (R259, R260). A collective without stages has its own
contribution alone. -/
def CollEnv.stepOf (x : CollEnv) (s : State) (id : ChunkId) : Option RingStep :=
  let axis := id.axis.val
  if x.stages.isEmpty then
    if id.tray || axis ≠ 0 then none
    else some { inPort := none, outPort := none, own := true, last := true, hops := 0 }
  else if x.stages.contains axis then
    (x.spot s id).bind fun q =>
      ringStep (x.folded axis) axis (axisOf (planShape x.d) axis) (axisOf (memberCoord s x.g x.d) axis) q.1 q.2 id.tray
  else none

/-- The stage before an axis, and the number of roundings of the stages before it (R268). -/
def CollEnv.before (x : CollEnv) (axis : Nat) : Option Nat × Nat :=
  let l := x.stages.filter (· < axis)
  (l.getLast?, (l.map fun a => axisOf (planShape x.d) a - 1).foldl (· + ·) 0)

/-- The results that stand of a stage in a pass. -/
def heldOf (r : CollRun) (pass : ChunkPass) (axis : Nat) : List ChunkHeld :=
  r.held.filter fun h => h.id.pass == pass && h.id.axis.val == axis

/-- What this member brings to a chunk of the stage of an axis: its own contributions, or the result of the stage
before; none while that is not all there. -/
def CollEnv.ownItems (x : CollEnv) (s : State) (r : CollRun) (id : ChunkId) : Option (List Nat) :=
  match (x.before id.axis.val).1 with
  | none => some (x.srcItems s r id.pass id.elem id.count)
  | some a =>
    let l := heldOf r id.pass a
    let u := itemUnit id.pass
    if covered (l.map fun h => (h.id.elem, h.id.count)) id.elem id.count then
      some ((List.range (id.count / u)).map fun i =>
        match l.find? fun h => h.id.elem ≤ id.elem + i * u && id.elem + i * u < h.id.elem + h.id.count with
        | some h => h.items.getD ((id.elem + i * u - h.id.elem) / u) 0
        | none => 0)
    else none

/-- A pass belongs to a kind of collective (R259, R263). -/
def CollEnv.hasPass (x : CollEnv) : ChunkPass → Bool
  | .exponents => x.c.kind != 1 && x.c.wire == 0
  | .exponentsBack => x.c.kind != 1 && x.c.wire == 0
  | .reduce => x.c.kind != 1
  | .gather => x.c.kind != 0

/-! ### `CHUNK_ADVANCE` -/

/-- A collective without transmit streams begins when its token is set (R258). -/
def joinAlone (s : State) (x : CollEnv) (r : Run) (coll : Nat) : Run :=
  if r.collsDone.contains coll then r
  else if (List.range (streamCount x.d)).any fun n =>
      let st := planStream x.d n
      !st.rx && streamColl x.d st == some coll then r
  else if gateOpen s { rel := 0, pane := x.paneAt x.c.src, cell := x.c.readyCell, token := x.c.readyToken, stream := 0 } then
    { r with colls := joinColl coll r.planStep r.colls }
  else r

/-- A chunk is noted as advanced. -/
def noteChunk (s : State) (lead coll : Nat) (id : ChunkId) (inp out : Option ChunkAt) : State :=
  modColl s lead coll fun r => { r with done := r.done ++ [{ id := id, inp := inp, out := out }] }

/-- A chunk leaves on its next hop, where it has one. -/
def CollEnv.sendOn (x : CollEnv) (s : State) (pass : ChunkPass) (items : List Nat) : Option ChunkAt → State
  | some k => x.stageOut s pass k items
  | none => s

/-- A chunk of a reduce-scatter, with its items added up, moves on: it leaves on its next hop; a chunk that is final in
the stage is kept for the next stage, or is finished after the last. -/
def CollEnv.passOn (x : CollEnv) (s : State) (lead coll : Nat) (r : CollRun) (id : ChunkId) (last : Bool)
    (items : List Nat) (out : Option ChunkAt) : State :=
  let s1 := x.sendOn s id.pass items out
  if !last then s1
  else if x.stages.all (· ≤ id.axis.val) then x.finish s1 lead r id.pass coll id.elem items
  else modColl s1 lead coll fun r => { r with held := r.held ++ [{ id := id, items := items }] }

/-- A reduce-scatter's chunk may advance: its places are those of the ring, it has not advanced before, and the exponent
bytes that its elements need are known (R263). -/
def CollEnv.reduceReady (x : CollEnv) (r : Run) (coll : Nat) (c : CollRun) (id : ChunkId) (inp out : Option ChunkAt)
    (p : RingStep) : Bool :=
  chunkNew c id inp out && inp.isSome == p.inPort.isSome && out.isSome == p.outPort.isSome
  && inp.all (fun k => x.chunkOk coll true p.inPort.toList id.pass id.count k && chunkReady x r c.step k)
  && out.all (x.chunkOk coll false p.outPort.toList id.pass id.count)
  && (id.pass != .reduce || x.c.wire != 0 || covered c.known id.elem id.count)

/-- A chunk of a reduce-scatter (R260, R263 to R268): the running value comes first, the member's own contribution is
added to it. In the first stage that is its contribution to the collective, whose squares count once (R271). -/
def CollEnv.reduceChunk (x : CollEnv) (s : State) (lead : Nat) (r : Run) (coll : Nat) (c : CollRun) (id : ChunkId)
    (inp out : Option ChunkAt) : State :=
  match x.stepOf s id, x.ownItems s c id with
  | some p, some own =>
    if !x.reduceReady r coll c id inp out p then s
    else
      let supplies := p.own && (x.before id.axis.val).1.isNone
      if (supplies && x.srcPoison s id.elem id.count) || inp.any (x.stagedPoison s id.pass id.count) then
        abortGroup s x.g x.c.ident 1
      else
        let s1 := if supplies && id.pass == .reduce && !id.tray then
            x.noteNoise s lead coll (x.contributions s id.elem id.count).flatten
          else s
        let rows := (inp.toList.map (x.staged s id.pass id.count)) ++ (if p.own then [own] else [])
        let items := x.addRows id.pass ((x.before id.axis.val).2 + p.hops) id.elem rows
        noteChunk (x.passOn s1 lead coll c id p.last items out) lead coll id inp out
  | _, _ => s

/-- The elements of a gather's result that this member holds. -/
def CollEnv.holds (x : CollEnv) (s : State) (c : CollRun) (id : ChunkId) : Bool :=
  let own := x.region s 3
  if id.pass = .exponentsBack then covered c.known id.elem id.count
  else (x.c.kind == 1 && own.1 ≤ id.elem && id.elem + id.count ≤ own.1 + own.2) || covered c.written id.elem id.count

/-- The items of the result that this member holds. -/
def CollEnv.heldItems (x : CollEnv) (s : State) (c : CollRun) (id : ChunkId) : List Nat :=
  if id.pass = .exponentsBack then
    (List.range (id.count / 256)).map fun b => (tblGet 0 c.expo (id.elem / 256 + b)).toNat
  else if covered c.written id.elem id.count then x.dstCodes s id.elem id.count
  else x.srcCodes s 0 (id.elem - (x.region s 3).1) id.count

/-- What this member holds is poisoned. -/
def CollEnv.heldPoison (x : CollEnv) (s : State) (c : CollRun) (id : ChunkId) : Bool :=
  id.pass == .gather && (if covered c.written id.elem id.count then x.dstPoison s id.elem id.count
    else x.srcPoison s (id.elem - (x.region s 3).1) id.count)

/-- A chunk of an all-gather may advance: it lies in the stage's elements; one that comes in holds none of the tray's own
part, and one that this member sends it holds. Its ports are those of the stage's axis (R255, R260). -/
def CollEnv.gatherReady (x : CollEnv) (s : State) (r : Run) (coll : Nat) (c : CollRun) (id : ChunkId)
    (inp out : Option ChunkAt) : Bool :=
  let a := id.axis.val
  let ports := [2 * a, 2 * a + 1]
  let whole := x.region s a
  let part := x.region s (a + 1)
  let got := if id.pass = .exponentsBack then c.known else c.written
  chunkNew c id inp out && !id.tray && 0 < id.count && id.elem % itemUnit id.pass == 0 && id.count % itemUnit id.pass == 0
  && whole.1 ≤ id.elem && id.elem + id.count ≤ whole.1 + whole.2
  && (x.stages.contains a || (inp.isNone && out.isNone))
  && inp.all (fun k => x.chunkOk coll true ports id.pass id.count k && chunkReady x r c.step k)
  && out.all (x.chunkOk coll false ports id.pass id.count)
  && (if inp.isSome then apart (part :: got) id.elem id.count
      else x.holds s c id && (out.isSome || (x.c.kind == 1 && apart got id.elem id.count)))

/-- A chunk of an all-gather (R259, R260, R263): one that has come in is kept, and may leave again; of what this member
holds, a chunk leaves, or, in an `ALL_GATHER`, is written to `DST_ADDR` as its own shard. -/
def CollEnv.gatherChunk (x : CollEnv) (s : State) (lead : Nat) (r : Run) (coll : Nat) (c : CollRun) (id : ChunkId)
    (inp out : Option ChunkAt) : State :=
  if !x.gatherReady s r coll c id inp out then s
  else if (match inp with
    | some k => x.stagedPoison s id.pass id.count k
    | none => x.heldPoison s c id) then abortGroup s x.g x.c.ident 1
  else
    let items := match inp with
      | some k => x.staged s id.pass id.count k
      | none => x.heldItems s c id
    let s1 := x.sendOn s id.pass items out
    let s2 := if inp.isNone && out.isSome then s1
      else if id.pass = .exponentsBack then CollEnv.keepExpo s1 lead coll id.elem items
      else x.writeOut s1 lead coll id.elem items
    let s3 := if inp.isNone && out.isNone then x.noteNoise s2 lead coll (items.map (fmtDecode x.c.inFmt)) else s2
    noteChunk s3 lead coll id inp out

/-- A chunk advances if it may. -/
def CollEnv.advance (x : CollEnv) (s : State) (lead : Nat) (r : Run) (coll : Nat) (c : CollRun) (id : ChunkId)
    (inp out : Option ChunkAt) : State :=
  if !x.hasPass id.pass then s
  else if id.pass = .exponents || id.pass = .reduce then x.reduceChunk s lead r coll c id inp out
  else x.gatherChunk s lead r coll c id inp out

/-- `CHUNK_ADVANCE` (R258 to R268): two plan beats after its last slot, a chunk is added and may leave. In a held beat no
chunk advances. -/
def execChunkAdvance (lead : Pane16) (coll : Nat) (id : ChunkId) (inp out : Option ChunkAt) (s : State) :
    Host.Outcome State Fault Refusal :=
  match groupLed s lead.val with
  | some g => match g.plan, g.run with
    | some d, some r0 =>
      let x : CollEnv :=
        { g := g, d := d, c := planColl d coll, k0 := r0.k0, k1 := r0.k1, step := r0.firstStep + r0.planStep }
      if r0.started && r0.held.isNone && g.ended.isNone && plansRun s && coll < collCount d then
        let r := joinAlone s x r0 coll
        let s1 := modRun s lead.val fun _ => r
        match r.colls.find? fun c => c.index == coll with
        | some c => .next ({ x with step := r.firstStep + c.step }.advance s1 lead.val r coll c id inp out)
        | none => .next s1
      else .next s
    | _, _ => .next s
  | none => .next s

/-! ### `COLLECTIVE_DONE` -/

/-- The statistics record (Table 10-4). -/
def statsBytes (x : CollEnv) (useN useM : Bool) (norm noise own : BitVec 640) (contrib : BitVec 32) (nan : Bool) :
    List Byte :=
  let f (v : BitVec 640) : Nat := if nan then 0x7FC00000 else (roundFin .fp32 .rne false false false v.toNat (-298)).1
  natLe 80 norm.toNat ++ natLe 80 noise.toNat ++ natLe 4 (f norm) ++ natLe 4 (f noise) ++ natLe 4 (f own)
  ++ natLe 4 contrib.toNat ++ natLe 6 x.step ++ natLe 2 (b2n useN + 2 * b2n useM + 4 * b2n nan) ++ zeros 8

/-- Elements that stand at `DST_ADDR` so far. -/
def collFinals (c : CollRun) : Nat := (c.written.map Prod.snd).foldl (· + ·) 0

/-- Elements that a collective writes at `DST_ADDR`. -/
def outElems (x : CollEnv) : Nat := if x.c.kind = 0 then shardElems x.c (planShape x.d) else x.c.elements

/-- `COLLECTIVE_DONE` (R270 to R272): the output is written; the sums of the other members have come back; the record is
written and the latch has its `ARRIVE`. -/
def execCollectiveDone (lead : Pane16) (coll : Nat) (normOthers noiseOthers : BitVec 640) (contribOthers : BitVec 32)
    (nanOthers : Bool) (s : State) : Host.Outcome State Fault Refusal :=
  match groupLed s lead.val with
  | some g => match g.plan, g.run with
    | some d, some r =>
      let x : CollEnv :=
        { g := g, d := d, c := planColl d coll, k0 := r.k0, k1 := r.k1, step := r.firstStep + r.planStep }
      match r.colls.find? fun c => c.index == coll && outElems x ≤ collFinals c with
      | some c =>
        if r.held.isSome || g.ended.isSome then .next s
        else
          let useN := bitAt x.c.cflags 0 && x.c.kind != 1
          let useM := bitAt x.c.cflags 1
          let norm := if useN then c.normOwn + normOthers else 0
          let noise := if useM then c.noiseOwn + noiseOthers else 0
          let nan := (useN || useM) && (c.nanSeen || nanOthers)
          let own := if useM then c.noiseOwn else 0
          let s1 := if x.c.cflags = 0 then s
            else nearWrite s (x.paneAt x.c.stats) (gaOfs x.c.stats)
                (statsBytes { x with step := r.firstStep + c.step } useN useM norm noise own
                  (BitVec.ofNat 32 x.c.contrib + contribOthers) nan)
          let s2 := modRun s1 lead.val fun r =>
            { r with colls := r.colls.filter (·.index != coll), collsDone := r.collsDone ++ [coll]
                     normSum := r.normSum + norm, normNan := r.normNan || nan }
          .next (arriveRef s2 g x.c.doneLatch)
      | none => .next s
    | _, _ => .next s
  | none => .next s

end Sys2Proof.Machine
end

