-- ==== Sys2Proof/Machine/Tenancy.lean ====
section
/-! DEFINITION. The end of a context (13_panes_and_tenancy.md R336, R341 to R348; 16_faults_and_reset.md R408, R410):
teardown, shutter and certificate, the context reset, and the pane reset. -/

namespace Sys2Proof.Machine

/-! ### What a context holds in the hub -/

/-- The check-value units attached to a context are detached (R341 step 2). -/
def detachCv (s : State) (p : Nat) : State :=
  (List.range 12).foldl (fun s u =>
    if (cvOf s u).lstate = 1 && (cvOf s u).lead == p then modCv s u fun x => { x with lstate := 0, left := 0, cut := true }
    else s) s

/-- The ledgers of the units so detached are zeroed (Table 13-3). -/
def zeroCv (s : State) (p : Nat) : State :=
  (List.range 12).foldl (fun s u =>
    if (cvOf s u).cut && (cvOf s u).lead == p then modCv s u fun x => { x with value := 0, lstate := 0, cut := false }
    else s) s

/-- A near-tier stack at zero; poison is cleared (Table 13-3). -/
def zeroNear (s : State) (p : Nat) : State :=
  modNear s p fun m => { m with mem := [], poison := [], retries := [], undef := [] }

/-- The pane's window table in the Coherent Control Region is zeroed (Tables 08-10 and 13-3): 128 lines. The manual does
not place the pane's control state in the region (log entry 75). -/
def zeroWindows (s : State) (p : Nat) : State := { s with ccr := s.ccr.filter fun e => e.1 / 128 != 128 + p }

/-- Latches allocated to a pane's context become unallocated; how many. -/
def freeLatches (s : State) (p : Nat) (epoch : BitVec 16) : State × Nat :=
  let mine := s.latches.filter fun e => e.2.owner == ownerCode p && e.2.ownerEpoch == epoch
  ({ s with latches := s.latches.filter fun e => !(e.2.owner == ownerCode p && e.2.ownerEpoch == epoch) }, mine.length)

/-! ### Groups -/

/-- R336: a context leaves its group: the Plan goes, the next-lowest pane leads, with a `STORM_STATUS` of its own (R400), and
a group with no context left releases what it was given. -/
def leaveGroup (s : State) (p : Nat) : State :=
  { s with groups := s.groups.filterMap fun g =>
      if g.members.getLsbD p then
        let m := g.members &&& ~~~(paneBit p)
        if m = 0 then none
        else some { g with
          members := m, plan := none, run := none, ended := none, abortDue := none, copies := []
          status := if leadOf g.members = p then stormZero else g.status }
      else some g }

/-- A Plan of the pane's group that still runs is ended by the abort that its teardown has raised (R336, R282). -/
def endGroupPlan (s : State) (p : Nat) : State := match groupOf s p with
  | some g =>
    if planRunning g && g.ended.isNone then
      stopForAbort s g (g.abortDue.getD (ownAbort s (groupTag s g) noColl 3))
    else s
  | none => s

/-! ### Teardown (R341) -/

/-- Step 1 and 2, at beat d. -/
def beginTeardown (s : State) (p : Nat) (sh : Shutter) : State :=
  let had := (pane s p).state == .opened
  let s1 := if had then closeOccupancy (abortForPane s p) p 0 else s
  let s2 := modPane s1 p fun x => { x with state := .teardown, shutter := some { sh with d := s.time.beat } }
  detachCv (dropQueues (haltPane s2 p) p true) p

/-- `TEARDOWN_BEGIN` (R341): beat d has come. -/
def execTeardownBegin (p : Pane16) (s : State) : Host.Outcome State Fault Refusal :=
  let x := pane s p.val
  match x.shutter with
  | some sh =>
    if (x.state = .opened || x.state = .free || x.state = .testing) && sh.d ≤ s.time.beat then
      .next (beginTeardown s p.val sh)
    else .next s
  | none => .next s

/-- R344: replacements that wait are made without a copy. -/
def shutterSpares (s : State) (p : Nat) : State :=
  let s1 := (nearOf s p).duePcs.foldl (fun s c => substPc s p c.1 true) s
  let s2 := (pane s1 p).dueCells.foldl (fun s c => substCell s p c.1) s1
  (nearOf s2 p).copying.foldl (fun s c =>
    modNear s p fun m =>
      { m with pcSub := tblSet m.pcSub c.1 c.2.1, pcRetired := m.pcRetired ||| (1#68 <<< tblGet c.1 m.pcSub c.1)
               copying := m.copying.erase c }) s2

/-- Table 13-3, the far tier: the owner slot keeps its space or is zeroed. -/
def shutterFar (s : State) (p : Nat) (sh : Shutter) : State :=
  let s1 := modPane s p fun x => { x with ownerTag := if sh.oldTag = 0 then x.ownerTag else sh.oldTag }
  if sh.keepFar then
    if sh.oldTag = 0 then s1 else openKept (modPane s1 p fun x => { x with kept := true }) p
  else
    let s2 := modFar (modPane (closeKept s1 p 0) p fun x => { x with kept := false }) fun t =>
      { t with quotas := tblPut 0 t.quotas p 0 }
    zeroOwner s2 p

/-- Step 3 and 4: the writers have stopped and the pane's resources are zeroed. -/
def beginShutter (s : State) (p : Nat) (sh : Shutter) : State :=
  let s1 := leaveGroup (endGroupPlan s p) p
  let s2 := zeroWindows (zeroCv (zeroNear (zeroCells (shutterSpares s1 p) p) p) p) p
  let l := freeLatches s2 p sh.oldEpoch
  let s3 := modPane l.1 p fun x =>
    { x with state := .shuttering, jobTag := 0, epoch := x.epoch + 1, regs := .reset, coll := .reset, latchList := []
             rmo := { RmoUnit.reset with nextTag := x.rmo.nextTag }, resetUntil := none, resetFrom := none
             held := []
             shutter := some { sh with latchesFreed := l.2 } }
  shutterFar (orphanAll s3 (moduleId s3) (BitVec.ofNat 4 p) sh.oldEpoch) p sh

/-- `WRITERS_STOPPED` (R341 steps 3 and 4). -/
def execWritersStopped (p : Pane16) (s : State) : Host.Outcome State Fault Refusal :=
  match (pane s p.val).shutter with
  | some sh => if (pane s p.val).state = .teardown then .next (beginShutter s p.val sh) else .next s
  | none => .next s

/-! ### The certificate (R346) and the end of a shutter -/

/-- Set bits of a mask of retired units. -/
def retiredCount {w : Nat} (m : BitVec w) : Nat := bitCount m

/-- The certificate (Table 13-4). -/
def certBytes (s : State) (p : Nat) (sh : Shutter) : List Byte :=
  let x := pane s p
  let done := 127 + 128 * b2n (!sh.keepFar) + 256 * b2n sh.keepFar
  let body := natLe 8 (s.far.certSeq + 1) ++ natLe 6 sh.d ++ natLe 6 s.time.beat ++ natLe 4 sh.oldTag.toNat
    ++ natLe 2 sh.oldEpoch.toNat ++ natLe 2 x.epoch.toNat ++ natLe 1 p ++ natLe 1 sh.cause.toNat ++ natLe 2 done
    ++ natLe 8 (if sh.keepFar then 0 else sh.farSeq) ++ natLe 4 (ownerOf s p).gen.toNat
    ++ natLe 1 (68 - retiredCount x.near.pcRetired) ++ natLe 1 (34 - retiredCount x.retired) ++ natLe 2 sh.latchesFreed
    ++ zeros 12
  body ++ natLe 4 (crc32c body)

/-- R339: where a pane goes when its shutter completes. -/
def afterShutter (x : Pane) : PaneState := if paneShort x || x.failedTest then .outOfService else .free

/-- R407, R416: a reset has been performed: its event and its notice. -/
def resetDone (s : State) (rung p source : Nat) (tag : BitVec 32) (epoch : BitVec 16) (index : Nat) : State :=
  let s1 := record s 0x0602 source p (natLe 1 rung ++ natLe 1 s.faults.lastReset.toNat)
  queueNotice s1 4 p tag epoch rung index source

/-- A reset that the module has initiated itself is over (R413). -/
def selfResetOver (s : State) (rung index : Nat) : State :=
  { s with faults := { s.faults with
      selfResets := s.faults.selfResets.filter fun r => !(r.rung == rung && r.index == index) } }

/-- Commands in hand that wait for panes to enter `TESTING` (R345). -/
def waitsForTest (j : Job) : Bool := j.opcode.toNat == opSelfTest

/-- SELF_TEST returns when the panes of its mask are in `TESTING`, with their estimated ready beat; one that went out of
service meanwhile is not in the required state. -/
def selfTestReturns (s : State) : State :=
  (openJobs s waitsForTest).foldl (fun s r => match (mbx s r).job with
    | some j =>
      let ps := maskPanes (BitVec.ofNat 16 (prm j.packet 0 2))
      match ps.find? fun p => (pane s p).state == .outOfService with
      | some p => decideJob s r (badState s p)
      | none =>
        if ps.all fun p => (pane s p).state == .testing then
          decideJob s r { status := stOk, atBeat := ps.foldl (fun b p => max b (readyBeat s p)) 0 }
        else s
    | none => s) s

/-- SHUTDOWN (R433, R491) returns when every pane is `FREE`; a pane that is out of service stays so. -/
def shutdownReturns (s : State) : State :=
  if (List.range 16).all fun p => (pane s p).state == .free || (pane s p).state == .outOfService then
    match openJobs s fun j => j.opcode.toNat == opShutdown with
    | r :: _ =>
      let flag := match (mbx s r).job with
        | some j => bitAt (prm j.packet 0 1) 0
        | none => false
      afterShutdown (decideJobs s (fun j => j.opcode.toNat == opShutdown) ansOk) flag
    | [] => s
  else s

/-- Rung 3 is asked for (R410): its teardown begins at the next boundary; one that finds a shutter in progress waits for
it (R345). -/
def askPaneReset (s : State) (p : Nat) : State :=
  modPane s p fun x => match x.state with
    | .outOfService => x
    | .teardown => { x with resetDue := true }
    | .shuttering => { x with resetDue := true }
    | _ =>
      if x.shutter.isSome then { x with resetDue := true }
      else
        let sh : Shutter :=
          { cause := 3, keepFar := true, d := s.time.beat + 1, oldTag := x.jobTag, oldEpoch := x.epoch, farSeq := 0
            farZeroed := false, latchesFreed := 0, paneReset := true }
        { x with shutter := some sh }

/-- The shutter of a pane is over. -/
def endShutter (s : State) (p : Nat) (sh : Shutter) : State :=
  let cert := certBytes s p sh
  let s1 := modFar s fun t => { t with certSeq := t.certSeq + 1 }
  let s2 := modPane s1 p fun x => { x with state := afterShutter x, shutter := none, cert := cert }
  let s3 := record s2 0x0204 (srcPane p) p cert
  let s4 := if sh.paneReset then
      resetDone (selfResetOver s3 3 p) 3 p (srcPane p) sh.oldTag sh.oldEpoch 0xFF
    else s3
  let due := (pane s4 p).resetDue
  let mine (j : Job) : Bool := waitsForPane p j && (!due || j.opcode.toNat == opTeardown)
  let s5 := endEscapeIf (decideJobs s4 mine ansOk) mine ansOk
  let s6 := if due then askPaneReset (modPane s5 p fun x => { x with resetDue := false }) p else s5
  let s7 := if s6.test.startDue.getLsbD p && !due && (pane s6 p).state == .free then enterTesting s6 p else s6
  shutdownReturns (selfTestReturns s7)

/-- `SHUTTER_COMPLETE` (R341 step 5): the last resource is done. -/
def execShutterComplete (p : Pane16) (s : State) : Host.Outcome State Fault Refusal :=
  match (pane s p.val).shutter with
  | some sh =>
    if (pane s p.val).state = .shuttering && (sh.keepFar || sh.farZeroed) then .next (endShutter s p.val sh) else .next s
  | none => .next s

/-- R345: a teardown that finds one in progress joins it; far-tier zeroing is added where the second does not keep. -/
def joinTeardown (s : State) (p : Nat) (keepFar : Bool) : State :=
  let x := pane s p
  match x.shutter with
  | some sh =>
    if keepFar || !sh.keepFar then s
    else
      let s1 := modPane s p fun x => { x with shutter := some { sh with keepFar := false } }
      if x.state = .shuttering then shutterFar s1 p { sh with keepFar := false } else s1
  | none => s

/-! ### The context reset (R408) -/

/-- A `CTX_RESET` of a pane. -/
def isCtxReset (p : Nat) (j : Job) : Bool := j.opcode.toNat == opCtxReset && prm j.packet 0 1 == p

/-- `CTX_RESET_END` (R408): sixteen beats after its boundary. -/
def execCtxResetEnd (p : Pane16) (s : State) : Host.Outcome State Fault Refusal :=
  let x := pane s p.val
  match x.resetUntil with
  | some b =>
    if b ≤ s.time.beat then
      let s1 := modPane s p.val fun x => { x with resetUntil := none }
      let s2 := resetDone s1 1 p.val (srcPane p.val) x.jobTag (x.epoch - 1) 0xFF
      .next (endEscapeIf (decideJobs s2 (isCtxReset p.val) ansOk) (isCtxReset p.val) ansOk)
    else .next s
  | none => .next s

end Sys2Proof.Machine
end

