-- ==== Sys2Proof/Machine/SelfTest.lean ====
section
/-! DEFINITION. Built-in self-test (R421 to R436): pane tests and their phases, the hub test, and the test ledger; and
the spill whose end lets a shutdown go on (R477, R491). -/

namespace Sys2Proof.Machine

/-- `TEST_START` (R427, R430): the waiting test that comes first starts, or goes on, when the budget allows; none does
during a thermal trip (R429). -/
def execTestStart (s : State) : Host.Outcome State Fault Refusal :=
  match waitingTests s with
  | p :: _ =>
    if s.power.hubUp && !s.power.trip && mayTest s (testsIn s tsActive).length then
      if (testOf s p).tstate = tsSuspended then
        .next (modTest s p fun t => { t with tstate := tsActive, since := s.time.beat })
      else
        let n := s.test.nextOrder
        let s1 := modLedger s p fun e => { e with result := 4 }
        let s2 := { s1 with test := { s1.test with nextOrder := n + 1 } }
        .next (modTest s2 p fun t => { t with tstate := tsActive, phase := 1, since := s.time.beat, order := n })
    else .next s
  | [] => .next s

/-- R423: cells that failed twice are retired. -/
def retireCells (s : State) (p : Nat) (m : BitVec 34) : State :=
  (List.range 34).foldl (fun s c => if m.getLsbD c then substCell s p c else s) s

/-- R423: pseudo-channels that failed twice are retired. -/
def retirePcs (s : State) (p : Nat) (m : BitVec 68) : State :=
  (List.range 68).foldl (fun s c => if m.getLsbD c then substPc s p c true else s) s

/-- What a phase's report brings: units already retired were not tested (R422). -/
def takeReport (s : State) (p phase : Nat) (r : TestReport) : State :=
  let cs := if phase = 2 then r.failedCells &&& ~~~(pane s p).retired else 0
  let pcs := if phase = 4 || phase = 5 then r.failedPcs &&& ~~~(nearOf s p).pcRetired else 0
  let logic := if phase = 3 then r.failedLogic else 0
  let s1 := retirePcs (retireCells s p cs) p pcs
  modTest s1 p fun t =>
    { t with failedCells := t.failedCells ||| cs, failedPcs := t.failedPcs ||| pcs, failedLogic := t.failedLogic ||| logic }

/-- Phase 6 (R422): near tier, cells and pane registers are zeroed as in a shutter, without a certificate. -/
def reinitPane (s : State) (p : Nat) : State :=
  modPane (zeroNear (zeroCells s p) p) p fun x => { x with
    regs := .reset, coll := .reset
    rmo := { x.rmo with timeouts := 0, nacksIn := 0, retries := 0, sealFails := 0 } }

/-- R424: a pane that has failed its test. -/
def failPaneTest (s : State) (p : Nat) : State :=
  let t := testOf s p
  let s1 := modPane s p fun x => { x with state := .outOfService, failedTest := true }
  let s2 := { s1 with test := { s1.test with failedMask := s1.test.failedMask ||| paneBit p } }
  record s2 0x0603 (srcPane p) p (natLe 5 t.failedCells.toNat ++ natLe 9 t.failedPcs.toNat ++ natLe 1 t.failedLogic.toNat)

/-- R423, R430: a pane test ends. -/
def endPaneTest (s0 : State) (p : Nat) (signature : BitVec 64) : State :=
  let s := reinitPane s0 p
  let t := testOf s p
  let failed := t.failedLogic ≠ 0 || paneShort (pane s p)
  let retired := t.failedCells ≠ 0 || t.failedPcs ≠ 0
  let st := if failed then tsFailed else if retired then tsRetired else tsPassed
  let s1 := modTest (modLedger s p fun e =>
    { signature := signature, steppingTag := steppingTag, count := BitVec.ofNat 16 (satAdd 16 e.count.toNat 1)
      result := if failed then 3 else if retired then 2 else 1, used := false }) p fun t =>
    { t with tstate := st, phase := 0 }
  let s2 :=
    if failed then failPaneTest s1 p
    else
      let s2 := modPane s1 p fun x => { x with state := .free, failedTest := false }
      { s2 with test := { s2.test with failedMask := s2.test.failedMask &&& ~~~(paneBit p) } }
  if s2.test.shutdown.isSome && !testsLeft s2 then beginPark s2 else s2

/-- `TEST_PHASE_DONE` (R422, R423). -/
def execTestPhaseDone (p : Pane16) (report : TestReport) (s : State) : Host.Outcome State Fault Refusal :=
  let t := testOf s p.val
  if t.tstate = tsActive then
    let s1 := takeReport s p.val t.phase report
    if t.phase < 6 then
      .next (modTest s1 p.val fun t => { t with phase := t.phase + 1, since := s.time.beat })
    else .next (endPaneTest s1 p.val report.signature)
  else .next s

/-- R435: a reset ends a pane's test; its entry stays at `RESULT` 4. -/
def dropTest (s : State) (p : Nat) : State :=
  if (pane s p).state = .testing then
    modLedger (modTest s p fun _ => PaneTest.reset) p fun e => { e with result := 4 }
  else s

/-- `HUB_TEST_DONE` (R425, R426, R430): at a shutdown the module parks; at a start-up the start-up goes on; a module whose
hub fails stays in reset. -/
def execHubTestDone (passed : Bool) (signature : BitVec 64) (s : State) : Host.Outcome State Fault Refusal :=
  if s.test.hub = tsActive then
    let down := s.test.shutdown.isSome
    let s1 := modLedger s 16 fun e =>
      { signature := signature, steppingTag := steppingTag, count := BitVec.ofNat 16 (satAdd 16 e.count.toNat 1)
        result := if passed then 1 else 3, used := passed && !down }
    let s2 := { s1 with test := { s1.test with
      hub := if passed then tsPassed else tsFailed, hubSpent := s.time.beat - s.test.hubSince } }
    if !passed then
      .next { portsDown s2 with
        power := { s2.power with hubUp := false }, dk := { s2.dk with ready := false }
        faults := { s2.faults with hubDead := true } }
    else if down then .next (park s2)
    else .next s2
  else .next s

/-- `SPILL_DONE` (R477). -/
def execSpillDone (s : State) : Host.Outcome State Fault Refusal := .next (parkNext (spillOver s))

end Sys2Proof.Machine
end

