-- ==== Sys2Proof/Machine/Resets.lean ====
section
/-! DEFINITION. The reset domains (16_faults_and_reset.md R407 to R413): engine, pane and module reset, what survives a
hub reset, the ledger check of a start-up (R432), and the faults that make the module reset itself. -/

namespace Sys2Proof.Machine

/-! ### Rung 2: an engine (R409) -/

/-- Engines of `ENGINE_RESET` (Table 14-11). -/
def engineOk (e : Nat) : Bool := e ≤ 4 || (16 ≤ e && e ≤ 27)

/-- The source number of an engine. -/
def engineSource (e : Nat) : Nat := if e ≤ 2 then srcRing e else if e ≤ 4 then srcEth (e - 3) else 0x0050 + (e - 16)

/-- A group's Plan has a collective in progress on a ring engine, or a `RING` run on its two ports. -/
def usesRing (g : Group) (e : Nat) : Bool := match g.plan, g.run with
  | some d, some r =>
    r.started && ((r.colls.any fun c => bitAt (planColl d c.index).axes e)
      || (planRuns d).any fun x => x.kindCode == 0 && x.port / 2 == e)
  | _, _ => false

/-- A ring engine is reset: the jobs that use it are aborted as under trigger 0x5. -/
def resetRing (s : State) (e : Nat) : State :=
  s.groups.foldl (fun s g => if usesRing g e then abortGroup s g (ringColl g e) 5 else s) s

/-- A transaction uses an Ethernet engine (Table 21-6 `ENGINES`). -/
def txnUses (k : Nat) (x : StoreTxn) : Bool := bitAt (leAt x.desc 40 1) k

/-- An Ethernet engine is reset: its connections close. -/
def resetEth (s : State) (k : Nat) : State :=
  (s.store.txns.filter (txnUses k)).foldl (fun s x => match x.owner with
    | .drain lead => startDrain s lead
    | o => endStoreJob s o storeFailure) s

/-- A check-value unit is reset. -/
def resetCv (s : State) (u : Nat) : State :=
  modCv s u fun x => { x with uncovered := x.uncovered || x.lstate == 1, lstate := 0, left := 0 }

/-- Rung 2 on an engine. -/
def resetEngine (s : State) (e : Nat) : State :=
  let s1 := if e ≤ 2 then resetRing s e else if e ≤ 4 then resetEth s (e - 3) else resetCv s (e - 16)
  resetDone s1 2 noPane (engineSource e) 0 0 e

/-! ### Rung 4: the module (R411) -/

/-- Pane state over a hub reset: what the retirement ledger and the key store hold, and the replacements that are due; a
context's far-tier space is kept (R348). -/
def resetPane (x : Pane) : Pane :=
  { Pane.reset with
    ownerTag := if x.jobTag = 0 then x.ownerTag else x.jobTag
    kept := x.kept || x.jobTag != 0
    near := { NearTier.reset with
      pcRetired := x.near.pcRetired, pcSub := x.near.pcSub, short := x.near.short, copying := x.near.copying
      duePcs := x.near.duePcs }
    cellSub := x.cellSub, retired := x.retired, dueCells := x.dueCells, takeovers := x.takeovers }

/-- The metering of the spaces that a hub reset leaves kept. -/
def keepSpaces (s : State) : State :=
  (List.range 16).foldl (fun s p =>
    if (pane s p).kept && (tblFind s.island.kept p).isNone then openKept s p else s) s

/-- What a port keeps over a hub reset: the lanes that the ledger gives as retired. -/
def resetTraffic (t : PortTraffic) : PortTraffic := { PortTraffic.reset with lanesRx := t.lanesRx, lanesTx := t.lanesTx }

/-- The far-tier controller over a hub reset: media, maps and key store stay, `recover` is due (R184). -/
def resetFar (t : FarTier) : FarTier :=
  { t with progs := [], writes := [], gcs := [], zeroing := [], recovering := true, holdupLow := true, recalibrated := 0
           nextChannel := 0, uncorr := 0 }

/-- Modes, thermal state and start-up state at t0; the power mode, the pins and the nonvolatile cells stay. -/
def resetPower (p : PowerUnit) : PowerUnit :=
  { PowerUnit.reset with
    input := p.input, pwrEn := p.pwrEn, pwrGood := p.pwrGood, holdupOk := p.holdupOk, resetN := p.resetN
    thermTrip := p.thermTrip, straps := p.straps, sbAddr := p.sbAddr, hubUp := p.hubUp, capMode := p.capMode
    capReq := p.capReq, mhz := modeMhz p.capMode.toNat, startId := p.startId, firmware := p.firmware
    fwRunning := p.fwRunning }

/-- Everything that a hub reset clears is at its reset value; what survives (Table 16-5) stays. -/
def hubClear (s : State) : State :=
  let t := s.test
  let f := s.faults
  let s1 : State := { s with
    time := { BeatUnit.reset with trim := s.time.trim }
    panes := s.panes.map fun e => (e.1, resetPane e.2)
    cells := [], groups := [], latches := [], ccr := []
    far := resetFar s.far
    links :=
      { ports := [], errors := []
        traffic := s.links.traffic.map fun e => (e.1, resetTraffic e.2), cv := [], coord := [] }
    collU := { aborts := [], holds := [], holdsRaised := 0, holdPeriods := 0, abortsSeen := 0 }
    dk := { ready := false, mbx := [], esc := { estate := .idle, job := none, reply := none, request := [] } }
    faults := { f with
      windows := [], refSuspect := false, declarations := 0, noticesLost := 0, notices := [], paneFaults := []
      ethDeclared := [], ethOut := 0, selfResets := [] }
    test := { t with panes := [], hub := 0, hubSince := 0, hubSpent := 0, parked := false, shutdown := none, nextOrder := 0, startDue := 0 }
    power := resetPower s.power
    host := { s.host with vfEnable := false, numVfs := 0, last := .none, snaps := [], msix := [], ats := [] }
    fm := { s.fm with partials := [], relays := [], current := none }
    store := { s.store with txns := [], drains := s.store.drains.filter fun e => e.2.staged } }
  keepSpaces s1

/-! ### The ledger check (R432) -/

/-- An entry is valid: `USED` counts unless the start follows a reset during which power was held. -/
def entryValid (s : State) (e : Nat) (held : Bool) : Bool :=
  let x := ledgerOf s e
  let x' := pane s e
  (x.result == 1 || x.result == 2) && (!x.used || held) && x.steppingTag == steppingTag
    && x.signature == (if e < 16 then Config.romSignature e x'.retired x'.near.pcRetired else Config.romSignature e 0 0)

/-- The check: a hub entry that is not valid starts the hub test, a pane's makes its test due after its start-up
shutter; then the hub is in use (R431). -/
def ledgerCheck (s : State) (held : Bool) : State :=
  let due := (List.range 16).foldl (fun (m : BitVec 16) p => if entryValid s p held then m else m ||| paneBit p) 0
  let failed := (List.range 16).foldl (fun (m : BitVec 16) p => if (ledgerOf s p).result = 3 then m ||| paneBit p else m) 0
  let hubOk := entryValid s 16 held
  let s1 := { s with test := { s.test with startDue := due, failedMask := failed } }
  if hubOk then modLedger s1 16 fun e => { e with used := true } else startHubTest s1

/-- The hub leaves reset: t0. The ring's unspilled contents are lost when power was lost or a hub test runs (R483). -/
def hubStart (s : State) (held ringLost : Bool) : State :=
  let s1 := ledgerCheck { s with power := { s.power with hubUp := true, t0 := 0 } } held
  if ringLost || s1.test.hub = tsActive then recorderLost s1 else s1

/-- A hub test has marched over the ring since the last start. -/
def ringTested (s : State) : Bool := s.test.hub != 0 && s.test.shutdown.isSome

/-- R411: a module reset with power held, from a cause that `LAST_RESET` gives. -/
def moduleReset (s : State) (cause : BitVec 3) : State :=
  let lost := ringTested s
  let s1 := hubClear (recorderReset (islandReset s))
  let s2 := hubStart { s1 with faults := { s1.faults with lastReset := cause } } true lost
  resetDone s2 4 noPane srcDoorkeeper 0 0 0xFF

/-! ### Resets that the module initiates itself (R401, R410 to R413) -/

/-- Beats from t0 within which a module reset must make the Doorkeeper ready (R412). -/
def resetGrace : Nat := 2 * 146485

/-- R412: a power cycle is asked for. -/
def askPowerCycle (s : State) : State := queueNotice s 5 noPane 0 0 5 0xFF srcDoorkeeper

/-- R412: a module reset has begun, which must make the Doorkeeper ready in time. -/
def watchReset (s : State) : State :=
  { s with faults := { s.faults with selfResets := [{ rung := 4, index := 0, deadline := resetGrace }] } }

/-- A hub fault: the module resets; one that comes back within 2^27 beats asks for a power cycle (R412). -/
def hubFault (s : State) (cause : BitVec 3) : State :=
  let again := match s.faults.sinceHubFault with
    | some n => decide (n < 2 ^ 27)
    | none => false
  let s1 := watchReset (moduleReset s cause)
  let s2 := { s1 with faults := { s1.faults with sinceHubFault := some 0 } }
  if again then askPowerCycle s2 else s2

/-- `HUB_FAULT` (R9, R401, R411). -/
def execHubFault (s : State) : Host.Outcome State Fault Refusal :=
  .next (if s.power.hubUp then hubFault s 2 else s)

/-- `HUB_WATCHDOG_EXPIRY` (R401). -/
def execHubWatchdogExpiry (s : State) : Host.Outcome State Fault Refusal :=
  .next (if s.power.hubUp then hubFault s 3 else s)

/-- `ENGINE_FAULT` (R401, R409): the engine is reset. -/
def execEngineFault (engine : Fin 28) (s : State) : Host.Outcome State Fault Refusal :=
  .next (if s.power.hubUp && engineOk engine.val then resetEngine s engine.val else s)

/-- R410: a fault recurs on a pane within 2^27 beats. -/
def paneFaultRecurs (s : State) (p : Nat) : Bool := match tblFind s.faults.paneFaults p with
  | some b => decide (s.time.beat - b < 2 ^ 27)
  | none => false

/-- `PANE_HARDWARE_FAULT` (R401, R406, R410, R369): the pane is reset, its context's fault names the pane hardware fault;
one that comes back too soon takes the pane out of service after its shutter. -/
def execPaneHardwareFault (p : Pane16) (s : State) : Host.Outcome State Fault Refusal :=
  let x := pane s p.val
  if !s.power.hubUp || x.state = .outOfService then .next s
  else
    let s1 := if x.state = .opened && x.ctxFault.fcode = 0 then
        let s1 := setCtxFault s p.val fcPaneHw (srcPane p.val) noCell
        let s2 := record s1 0x0200 (srcPane p.val) p.val (faultPayload fcPaneHw noCell x 0 0)
        queueNotice s2 1 p.val x.jobTag x.epoch fcPaneHw 0xFF (srcPane p.val)
      else s
    let s2 := askPaneReset (dropTest s1 p.val) p.val
    let s3 := if paneFaultRecurs s p.val then modPane s2 p.val fun x => { x with failedTest := true } else s2
    let f := s3.faults
    let s4 := { s3 with faults := { f with
      paneFaults := tblSet f.paneFaults p.val s.time.beat
      selfResets := f.selfResets ++ [{ rung := 3, index := p.val, deadline := s.time.beat + 1703 + 1024 }] } }
    .next (abortForEvent s4 p.val)

/-- The `LAST_RESET` of a reset for which Table 16-9 lists no code: one of the codes in use. -/
def openCause (s : State) : BitVec 3 := BitVec.ofNat 3 ((Config.freeWord s.free).toNat % 5)

/-- `RESET_ESCALATION` (R412, R413): a reset that the module initiated itself is not complete within its bound: the next
rung. -/
def execResetEscalation (s : State) : Host.Outcome State Fault Refusal :=
  match s.faults.selfResets.find? fun r => r.deadline ≤ s.time.beat with
  | some r =>
    if r.rung = 4 then .next (askPowerCycle (selfResetOver s 4 r.index))
    else .next (watchReset (moduleReset (tookFree s) (openCause s)))
  | none => .next s

/-! ### Window counting beside the families (R402, R403) -/

/-- `SUBWINDOW_ROLLOVER` (R402): counters move to the present sub-window; the oldest count drops out. -/
def execSubwindowRollover (s : State) : Host.Outcome State Fault Refusal :=
  .next { s with faults := { s.faults with
    windows := s.faults.windows.map fun e => (e.1, winRoll (e.1 / 2 ^ 24) s.time.beat e.2) } }

/-- `ETHERNET_UNCORRECTABLE_CODEWORD` (Table 16-2 row L): counted; a declaration resets the engine, a second one within
2^27 beats takes it out of service. -/
def execEthernetUncorrectableCodeword (engine : Fin 2) (s : State) : Host.Outcome State Fault Refusal :=
  let e := engine.val
  let c := countError s rowL e 1
  if !s.power.hubUp then .next s
  else if c.2 then
    let again := match tblFind s.faults.ethDeclared e with
      | some b => decide (s.time.beat - b < 2 ^ 27)
      | none => false
    let s1 := resetEngine c.1 (3 + e)
    let f := s1.faults
    .next { s1 with faults := { f with
      ethDeclared := tblSet f.ethDeclared e s.time.beat
      ethOut := if again then f.ethOut ||| (1#2 <<< e) else f.ethOut } }
  else .next c.1

end Sys2Proof.Machine
end

