-- ==== Sys2Proof/Machine/Contexts.lean ====
section
/-! DEFINITION. The effects of the Doorkeeper's opcodes that make, bind, reset and equip contexts (Table 14-11, 0x0001 to
0x0026). Each gives the state after the command's start and its answer, or none while the command still runs. -/

namespace Sys2Proof.Machine

/-- What a command's effect gives. -/
abbrev Effect := State × Option Ans

/-- The command ends `ST_OK`. -/
def done (s : State) : Effect := (s, some ansOk)

/-- The command ends with an answer and no effect. -/
def answer (s : State) (a : Ans) : Effect := (s, some a)

/-- The command goes on. -/
def goesOn (s : State) : Effect := (s, none)

/-! ### `HELLO` (R370, R371) -/

/-- The result of Table 14-9. -/
def helloResult (s : State) (r : Nat) : List Byte :=
  [1, 0, 0x10] ++ natLe 1 r ++ natLe 2 (s.power.identity.getD 0xFFFF).toNat ++ natLe 2 0x0002
  ++ capBytes (modeMhz s.power.capMode.toNat) ++ [1, 0, 1, 0, 1, 0, 1, 0]
  ++ natLe 1 (if 1 ≤ r && r ≤ 16 then paneStateCode (pane s (r - 1)).state else 0xFF) ++ zeros 15

/-- `HELLO`: the one major is 1, with minor 0. -/
def doHello (s : State) (r : Nat) (k : Packet) : Effect :=
  if prm k 0 1 ≤ 1 && 1 ≤ prm k 1 1 then
    (modMbx s r fun m => { m with hello := true }, some { status := stOk, result := helloResult s r })
  else answer s { status := stBadVersion, result := [1, 1] }

/-! ### Contexts and groups (R333, R334, R341, R345, R349) -/

/-- A pane number is out of range. -/
def badPane (p : Nat) : Bool := 16 ≤ p

/-- A context is created on a pane (R333, R406, R428, R431, R444). -/
def createContext (s : State) (p : Nat) (tag : BitVec 32) : State :=
  let s1 := modPane s p fun x =>
    { x with state := .opened, jobTag := tag, ownerTag := tag, kept := false, ctxFault := .reset }
  let s2 := { s1 with groups := s1.groups ++ [Group.alone p] }
  suspendToBudget (openOccupancy (modLedger s2 p fun e => { e with used := true }) p) 16

/-- R349: the kept space is adopted. -/
def adopts (s : State) (p : Nat) (k : Packet) : Bool :=
  bitAt (prm k 1 1) 0 && (pane s p).ownerTag.toNat == prm k 4 4

/-- `CTX_CREATE`. A kept space that is not adopted is zeroed first; the command then goes on until the zeroing is over. -/
def doCtxCreate (s : State) (_r : Nat) (k : Packet) : Effect :=
  let p := prm k 0 1
  let tag : BitVec 32 := BitVec.ofNat 32 (prm k 4 4)
  if badPane p then answer s (badParam 0)
  else if (pane s p).state ≠ .free || tag = 0 then answer s (badState s p)
  else if (pane s p).kept && !adopts s p k then
    goesOn (zeroOwner (modPane (closeKept s p 0) p fun x => { x with kept := false }) p)
  else done (createContext (closeKept s p 0) p tag)

/-- A `CTX_CREATE` whose zeroing is over (R349, R169). -/
def createAfterZeroing (s : State) (k : Packet) : Effect :=
  let p := prm k 0 1
  if s.far.zeroing.any fun z => z.1 == p then goesOn s
  else done (createContext s p (BitVec.ofNat 32 (prm k 4 4)))

/-- `CTX_TEARDOWN`: `KEEP_FAR` counts from the physical function only (R347). -/
def doCtxTeardown (s : State) (r : Nat) (k : Packet) : Effect :=
  let p := prm k 0 1
  let keep := r == 0 && bitAt (prm k 1 1) 0
  if badPane p then answer s (badParam 0)
  else match (pane s p).state with
    | .opened =>
      if (pane s p).shutter.isSome then goesOn (joinTeardown s p keep)
      else goesOn (askTeardown s p (if r = 0 then 0 else 1) keep)
    | .teardown => goesOn (joinTeardown s p keep)
    | .shuttering => goesOn (joinTeardown s p keep)
    | _ => answer s (badState s p)

/-- The first pane of a mask that keeps R334 from holding. -/
def bindRefusal (s : State) (mask : BitVec 16) : Option Nat :=
  (maskPanes mask).find? fun p =>
    (pane s p).state != .opened || (pane s p).jobTag != (pane s (leadOf mask)).jobTag
    || (match groupOf s p with
        | some g => (g.members &&& ~~~mask) != 0 || g.plan.isSome
        | none => true)

/-- Allocations of the groups that are bound: slots together, shares summed. -/
def mergeSlots (gs : List Group) : Tbl (BitVec 256) :=
  (List.range 12).foldl (fun t u =>
    tblPut 0 t u (gs.foldl (fun m g => m ||| tblGet 0 g.slots u) 0)) []

/-- `GROUP_BIND`: the group has what its parts were given, and the modes of the part of the lead pane. -/
def doGroupBind (s : State) (_r : Nat) (k : Packet) : Effect :=
  let mask : BitVec 16 := BitVec.ofNat 16 (prm k 0 2)
  if mask = 0 then answer s (badParam 0)
  else match bindRefusal s mask with
    | some p => answer s (badState s p)
    | none =>
      let parts := s.groups.filter fun g => (g.members &&& mask) != 0
      match parts.find? fun g => leadOf g.members == leadOf mask with
      | some l =>
        let g := { l with
          members := mask, slots := mergeSlots parts, jobMap := none
          streamShare := parts.foldl (fun n g => n + g.streamShare) 0 }
        done { s with groups := s.groups.filter (fun g => (g.members &&& mask) == 0) ++ [g] }
      | none => answer s (badState s (leadOf mask))

/-! ### Resets by command (R407) -/

/-- `CTX_RESET` (R408). -/
def doCtxReset (s : State) (_r : Nat) (k : Packet) : Effect :=
  let p := prm k 0 1
  if badPane p then answer s (badParam 0)
  else if (pane s p).state ≠ .opened then answer s (badState s p)
  else goesOn (askContextReset s p)

/-- `ENGINE_RESET` (R409). -/
def doEngineReset (s : State) (_r : Nat) (k : Packet) : Effect :=
  if engineOk (prm k 0 1) then done (resetEngine s (prm k 0 1)) else answer s (badParam 0)

/-- `PANE_RESET` (R410, R435). -/
def doPaneReset (s : State) (_r : Nat) (k : Packet) : Effect :=
  let p := prm k 0 1
  if badPane p then answer s (badParam 0)
  else if (pane s p).state = .outOfService then answer s (badState s p)
  else goesOn (askPaneReset (dropTest s p) p)

/-- `MODULE_RESET` (R411): no reply, as the mailboxes are reset too. -/
def doModuleReset (s : State) (_r : Nat) (_k : Packet) : Effect := goesOn (watchReset (moduleReset s 1))

/-! ### Allocations (R337, R338, R150, R151, R208) -/

/-- `ST_PLAN_ACTIVE` naming a group's lead pane. -/
def planActive (lead : Nat) : Ans := { status := stPlanActive, detail := lead }

/-- `ST_CONFLICT`. -/
def conflictAns (detail : Nat) : Ans := { status := stConflict, detail := detail }

/-- A command on a group that must exist and have no accepted start. -/
def onIdleGroup (s : State) (lead : Nat) (f : Group → Effect) : Effect :=
  if badPane lead then answer s (badParam 0)
  else match groupLed s lead with
    | none => answer s (badState s lead)
    | some g => if hasStart g then answer s (planActive lead) else f g

/-- R338: the first mask of a `SLOT_ALLOC` that is refused. -/
def slotConflict (s : State) (lead : Nat) (masks : Nat → BitVec 256) : Option Nat :=
  (List.range 12).find? fun u =>
    decide (2 ^ schedSlots s.power.slotSplit.toNat ≤ (masks u).toNat)
    || s.groups.any fun g => leadOf g.members != lead && (tblGet 0 g.slots u &&& masks u) != 0

/-- `SLOT_ALLOC`. -/
def doSlotAlloc (s : State) (_r : Nat) (k : Packet) : Effect :=
  let lead := prm k 0 1
  onIdleGroup s lead fun _ =>
    let masks (u : Nat) : BitVec 256 := BitVec.ofNat 256 (prm k (4 + 32 * u) 32)
    match slotConflict s lead masks with
    | some u => answer s (conflictAns u)
    | none => done (modGroup s lead fun g =>
        { g with slots := (List.range 12).foldl (fun t u => tblPut 0 t u (masks u)) [] })

/-- Stream shares together may not exceed this many bytes a beat (R151). -/
def shareLimit : Nat := 1835008

/-- `STREAM_SHARE`. -/
def doStreamShare (s : State) (_r : Nat) (k : Packet) : Effect :=
  let lead := prm k 0 1
  onIdleGroup s lead fun _ =>
    let others := (s.groups.filter fun g => leadOf g.members != lead).foldl (fun n g => n + g.streamShare) 0
    if shareLimit < others + prm k 4 4 then answer s (conflictAns 0)
    else done (modGroup s lead fun g => { g with streamShare := prm k 4 4 })

/-- R150: GiB of the quotas of panes other than one and of the module area, less the staging of a group. -/
def farClaims (s : State) (exceptPane exceptLead : Nat) : Nat :=
  4 + (s.far.quotas.filter fun e => e.1 != exceptPane).foldl (fun n e => n + e.2) 0
  + (s.groups.filter fun g => leadOf g.members != exceptLead).foldl (fun n g => n + g.storm.stagingGib) 0

/-- R150: a number of GiB fits in 4 TB. -/
def fitsFar (gib : Nat) : Bool := gib * 2 ^ 30 ≤ 4000000000000

/-- Map units of a GiB. -/
def gibUnits : Nat := 65536

/-- The mapped units of a pane's space at or beyond a quota are trimmed (Table 14-11); storm staging is no part of the
quota (R150). -/
def trimBeyond (s : State) (p gib : Nat) : State :=
  let gone := ((ownerOf s p).map.map Prod.fst).filter fun lun => gib * gibUnits ≤ lun && lun < stagingOfs / unitBytes
  gone.foldl (fun s lun =>
    modOwner (journal s jTrim p (ownerOf s p).gen lun 1 0 0 0) p fun o => { o with map := tblDel o.map lun }) s

/-- `FAR_QUOTA`. -/
def doFarQuota (s : State) (_r : Nat) (k : Packet) : Effect :=
  let p := prm k 0 1
  let gib := prm k 2 2
  if badPane p then answer s (badParam 0)
  else
    let lead := match groupOf s p with
      | some g => if hasStart g then some (leadOf g.members) else none
      | none => none
    match lead with
    | some l => answer s (planActive l)
    | none =>
      if fitsFar (farClaims s p 16 + gib) then
        done (modFar (trimBeyond s p gib) fun t => { t with quotas := tblPut 0 t.quotas p gib })
      else answer s { status := stNoResource }

/-- R208: every latch of a block is unallocated. -/
def blockFree (s : State) (b : Nat) : Bool := s.latches.all fun e => e.1 / 256 != b || latchFree s e.1

/-- A block is allocated to a pane's context. -/
def allocBlock (s : State) (p b : Nat) : State :=
  let ls := (List.range 256).map (256 * b + ·)
  let l := freshLatch s p 0
  let s1 := { s with latches := ls.foldl (fun t i => tblSet t i l) s.latches }
  modPane s1 p fun x => { x with latchList := x.latchList ++ ls }

/-- `LATCH_ALLOC`. -/
def doLatchAlloc (s : State) (_r : Nat) (k : Packet) : Effect :=
  let p := prm k 0 1
  let n := prm k 2 2
  if badPane p then answer s (badParam 0)
  else if (pane s p).state ≠ .opened then answer s (badState s p)
  else match groupOf s p with
    | some g =>
      if hasStart g then answer s (planActive (leadOf g.members))
      else
        let free := (List.range 256).filter (blockFree s)
        if free.length < n then answer s { status := stNoResource }
        else done ((free.take n).foldl (fun s b => allocBlock s p b) s)
    | none => answer s (badState s p)

/-! ### Maps and identity (R136, R231, R313, R314) -/

/-- The bulk-in bytes of a command; none when the DMA faulted (R362). -/
def bulkData (k : Packet) : Option (List Byte) := k.bulk.map fun b => bytesAt b 0 k.bulkLen.toNat

/-- A DMA fault on the bulk address. -/
def dmaFault : Ans := { status := stIoError }

/-- `BULK_LEN` does not fit the data. -/
def badBulkLen : Ans := { status := stBadParam, detail := 24 }

/-- A job map from its bytes (Table 12-2). -/
def parseMap (b : List Byte) : JobMap :=
  { family := BitVec.ofNat 64 (leAt b 0 8), variant := BitVec.ofNat 32 (leAt b 8 4), jobTag := BitVec.ofNat 32 (leAt b 12 4)
    shape := (leAt b 16 2, leAt b 18 2, leAt b 20 2), fold := BitVec.ofNat 3 (leAt b 22 1)
    entries := (List.range (leAt b 24 4)).map fun i => BitVec.ofNat 16 (leAt b (32 + 2 * i) 2) }

/-- The neighbour of an entry on an axis in a direction; none past the end of a folded axis. -/
def mapNeighbour (j : JobMap) (i axis : Nat) (neg : Bool) : Option (BitVec 16) :=
  let c := mapCoord j.shape i
  let n := axisOf j.shape axis
  let at' := [c.1, c.2.1, c.2.2].getD axis 0
  match relCoord (j.fold.getLsbD axis) n at' (if neg then -1 else 1) with
  | some x =>
    let c' := if axis = 0 then (x, c.2.1, c.2.2) else if axis = 1 then (c.1, x, c.2.2) else (c.1, c.2.1, x)
    j.entries[mapIndex j.shape c']?
  | none => none

/-- R314, fifth case: the first port whose neighbour does not match. -/
def mapPortBad (s : State) (j : JobMap) (i : Nat) : Option Nat :=
  (List.range 6).find? fun p =>
    decide (2 ≤ axisOf j.shape (p / 2))
    && (match mapNeighbour j i (p / 2) (p % 2 == 1) with
        | some d => !(portActive s p && (portOf s p).peerDevice == d)
        | none => false)

/-- R314: the condition that refuses a job map, as `DETAIL` gives it, but for the first. -/
def mapRefusal (s : State) (j : JobMap) : Option Nat :=
  if j.entries.length ≠ j.shape.1 * j.shape.2.1 * j.shape.2.2 then some 2
  else if !noPair (fun a b : BitVec 16 => a == b) j.entries then some 3
  else match idxOfDev j.entries (moduleId s) with
    | none => some 4
    | some i => (mapPortBad s j i).map fun p => 5 + 256 * p

/-- `JOB_MAP_LOAD`. -/
def doJobMapLoad (s : State) (_r : Nat) (k : Packet) : Effect :=
  let lead := prm k 0 1
  if badPane lead then answer s (badParam 0)
  else match groupLed s lead, bulkData k with
    | none, _ => answer s (badState s lead)
    | _, none => answer s dmaFault
    | some g, some b =>
      let j := parseMap b
      if hasStart g then answer s { status := stMapRejected, detail := 1 }
      else if b.length ≠ 32 + 2 * leAt b 24 4 then answer s badBulkLen
      else match mapRefusal s j with
        | some d => answer s { status := stMapRejected, detail := d }
        | none => done (modGroup s lead fun g => { g with jobMap := some j })

/-- R488: ports that wait in `NEGOTIATE` for both tables begin to count when they are there. -/
def endWait (s : State) : State :=
  if s.power.identity.isSome && s.power.coordLoaded then
    { s with links := { s.links with ports := s.links.ports.map fun e =>
        (e.1, if e.2.state = lsNegotiate then { e.2 with since := s.time.beat } else e.2) } }
  else s

/-- The coordinate table of a `COORD_LOAD`. -/
def parseCoord (b : List Byte) : List CoordEntry :=
  (List.range (leAt b 0 4)).map fun i =>
    let o := 4 + 8 * i
    { device := BitVec.ofNat 16 (leAt b o 2), x := leAt b (o + 2) 1, y := leAt b (o + 3) 1, z := leAt b (o + 4) 1 }

/-- `COORD_LOAD`. -/
def doCoordLoad (s : State) (_r : Nat) (k : Packet) : Effect :=
  let busy := s.groups.find? fun g => hasStart g && (match g.plan with
    | some d => decide (1 < planModules d)
    | none => false)
  match busy, bulkData k with
  | some g, _ => answer s (planActive (leadOf g.members))
  | none, none => answer s dmaFault
  | none, some b =>
    if b.length ≠ 4 + 8 * leAt b 0 4 then answer s badBulkLen
    else
      let s1 := { s with
        links := { s.links with coord := parseCoord b }, power := { s.power with coordLoaded := true } }
      done (endWait s1)

/-- `IDENTITY_SET` (R136, R239, R487). -/
def doIdentitySet (s : State) (_r : Nat) (k : Packet) : Effect :=
  match (List.range 16).find? (holdsContext s) with
  | some p => answer s (badState s p)
  | none =>
    let id : BitVec 16 := BitVec.ofNat 16 (prm k 0 2)
    let s1 := { s with power := { s.power with
      identity := some id, startId := some id, idConfig := BitVec.ofNat 8 (prm k 2 1) } }
    done (endWait s1)

end Sys2Proof.Machine
end

