-- ==== Sys2Proof/Machine/PlanCmds.lean ====
section
/-! DEFINITION. The effects of `PLAN_LOAD`, `PLAN_START` and `PLAN_STOP` (05_plans.md, 14_command_interface.md
Table 14-12). -/

namespace Sys2Proof.Machine

/-! ### `PLAN_LOAD` (R127, R128, R210) -/

/-- A list of words as a table, from key 0 on. -/
def tblOfList {w : Nat} (l : List Nat) : Tbl (BitVec w) :=
  (l.zipIdx.map fun e => (e.2, BitVec.ofNat w e.1)).filter fun e => e.2 != 0

/-- A cell takes its record: program and sequencer table; its accumulator sets are empty (R539). -/
def loadCell (x : CellRec) (c : Cell) : Cell :=
  { c with istore := tblOfList x.instrs, instrCount := x.instrs.length, seqTab := tblOfList x.seqs
           seqCount := x.seqs.length, seqIdx := 0, seqStep := 0, accA := .reset, accB := .reset, issA := .empty
           issB := .empty }

/-- A pane takes its part of a Plan: the cells' records; the registers that a load clears (Tables 03-5, 04-6, 13-7
and 13-8). -/
def loadPane (d : List Byte) (g : Group) (s : State) (p : Nat) : State :=
  let x := cellProgram d (planPaneNo g p)
  (List.range 32).foldl (fun s l => modCell s p l (loadCell (cellRec x l)))
    (modPane s p fun x => { x with regs := .reset, arith := [] })

/-- R210: a latch that the Plan names takes its count, `FREE` and with an empty queue; waits that the count meets are
answered (R212). -/
def loadLatch (g : Group) (s : State) (e : Nat × Nat × Nat) : State :=
  match (pane s (planPane g e.1)).latchList[e.2.1]? with
  | some i =>
    latchArrive (modLatch s i fun l =>
      { l with count := BitVec.ofNat 48 e.2.2, state := laFree, holderDevice := 0, holderPane := 0, holderEpoch := 0
               queue := [] }) i 0
  | none => s

/-- A Plan that has passed its checks is loaded into a group. Its misplaced-slot count, for which R124 names no restart,
begins at zero (log entry 71). -/
def installPlan (s : State) (g : Group) (d : List Byte) : State :=
  let s1 := (maskPanes g.members).foldl (loadPane d g) s
  let s2 := (planLatches d).foldl (loadLatch g) s1
  modGroup s2 (leadOf g.members) fun g =>
    { g with plan := some d, ended := none, lengths := [], abortDue := none, misplaced := 0 }

/-- `PLAN_LOAD`. A group with a pane that is short accepts no Plan (R71, R148). -/
def doPlanLoad (s : State) (_r : Nat) (k : Packet) : Effect :=
  let lead := prm k 0 1
  onIdleGroup s lead fun g => match bulkData k with
    | none => answer s dmaFault
    | some d => if groupShort s g then answer s (badState s lead) else match loadCheck s g d k.bulkLen.toNat with
      | some n => answer s { status := stPlanRejected, detail := n }
      | none => done (installPlan s g d)

/-! ### `PLAN_START` (R22, R125, R129, R147, R184, R315, R375) -/

/-- The module at the offset of a window requirement, from this one (R188, R316). -/
def peerAt (s : State) (g : Group) (w : WinReq) : Option (BitVec 16) :=
  let go (fold : Nat) (sh here : Nat × Nat × Nat) (find : Nat × Nat × Nat → Option (BitVec 16)) : Option (BitVec 16) :=
    match relCoord (bitAt fold 0) sh.1 here.1 w.dx, relCoord (bitAt fold 1) sh.2.1 here.2.1 w.dy,
          relCoord (bitAt fold 2) sh.2.2 here.2.2 w.dz with
    | some x, some y, some z => find (x, y, z)
    | _, _, _ => none
  match g.jobMap with
  | some j => (idxOfDev j.entries (moduleId s)).bind fun i =>
      go j.fold.toNat j.shape (mapCoord j.shape i) fun c => j.entries[mapIndex j.shape c]?
  | none =>
    if w.dx = 0 ∧ w.dy = 0 ∧ w.dz = 0 then some (moduleId s)
    else (coordOf s (moduleId s)).bind fun e =>
      go 0 (axisLen s 0, axisLen s 1, axisLen s 2) (e.x, e.y, e.z) fun c =>
        (s.links.coord.find? fun x => (x.x, x.y, x.z) == c).map (·.device)

/-- R125: a window's scope takes in the peers of a requirement: every module of the job takes in one of them and the
group's own panes; this module alone, or the group's own panes, take in what of the peers lies here (log entry 64). -/
def scopeCovers (s : State) (g : Group) (w : WinReq) (x : Window) : Bool :=
  if x.scope = 1 then w.scope ≤ 2
  else if x.scope = 2 then
    w.scope == 2 || (w.scope == 0 && peerAt s g w == some (moduleId s) && (w.peerPanes &&& ~~~g.members) == 0)
  else if w.scope = 0 then some x.peerDevice == peerAt s g w
  else w.scope == 2 && x.peerDevice == moduleId s

/-- R125: an open window covers a requirement: range, peers, operations and sealing. -/
def windowCovers (s : State) (g : Group) (w : WinReq) (x : Window) : Bool :=
  x.wstate == 1 && x.peerJob == groupTag s g && gaPane x.base == planPane g (gaPane w.base) && gaTier w.base == 0
  && gaOfs x.base ≤ gaOfs w.base && gaOfs w.base + w.length ≤ gaOfs x.base + x.length.toNat
  && (BitVec.ofNat 16 w.ops &&& ~~~x.ops) == 0 && (w.peerPanes &&& ~~~x.peerPanes) == 0
  && (!w.isSealed || x.isSealed)
  && scopeCovers s g w x

/-- R125: every window requirement of a Plan is met. -/
def windowsMet (s : State) (g : Group) (d : List Byte) : Bool :=
  (planWindows d).all fun w => (maskPanes g.members).any fun p =>
    (rmoOf s p).windows.any fun e => windowCovers s g w e.2

/-- R315: the job map matches the Plan. -/
def mapMatches (g : Group) (d : List Byte) : Bool :=
  match g.jobMap, ownVariant d with
  | some j, some v =>
    j.family.toNat == rd d 24 8 && j.variant.toNat == rd d 32 4 && j.entries.length == planModules d
    && j.shape == (v.1, v.2.1, v.2.2.1) && j.fold.toNat == v.2.2.2
  | _, _ => false

/-- Table 14-12: the number of the first condition that a start fails. -/
def startRefusal (s : State) (g : Group) (epoch first count : Nat) : Option Nat :=
  let t (n : Nat) (ok : Bool) : Option Nat := if ok then none else some n
  let d := g.plan.getD []
  [t 1 (s.time.beat + 64 ≤ epoch * 4096), t 2 (plansRun s),
   t 3 (match s.time.lockBeat with
     | some b => decide (b + 256 ≤ s.time.beat)
     | none => false),
   t 4 (g.plan.isSome && !hasStart g), t 5 (planPower d == s.power.capMode.toNat),
   t 6 (!bitAt (planFlags d) 0 || g.exactBf16), t 7 (!bitAt (planFlags d) 1 || g.isSealed), t 8 (windowsMet s g d),
   t 9 (planModules d ≤ 1 || mapMatches g d), t 10 ((maskPanes g.members).all fun p => (nearOf s p).copying.isEmpty),
   t 11 ((planExtents d).isEmpty || !s.far.recovering), t 12 (first + count < 2 ^ 48)].findSome? id

/-- An accepted start. -/
def freshRun (epoch first count : Nat) (k0 k1 : BitVec 64) : Run :=
  { epoch := epoch, firstStep := first, stepCount := count, k0 := k0, k1 := k1, started := false, nextBeat := 0
    planStep := 0, stormStep := 0, stopping := false, held := none, holdLog := [], wantHold := none, stepStart := 0, periods := []
    gridRuns := 0, lastGrid := 0, taken := [], received := [], chunks := [], begun := [], extents := []
    extentsDone := [], colls := [], collsDone := [], normSum := 0, normNan := false }

/-- `PLAN_START`. -/
def doPlanStart (s : State) (_r : Nat) (k : Packet) : Effect :=
  let lead := prm k 0 1
  let epoch := prm k 2 6
  let first := prm k 8 6
  let count := prm k 14 4
  if badPane lead then answer s (badParam 0)
  else match groupLed s lead with
    | none => answer s { status := stStartRefused, detail := (startRefusal s (Group.alone lead) epoch first count).getD 4 }
    | some g => if groupShort s g then answer s (badState s lead) else match startRefusal s g epoch first count with
      | some n => answer s { status := stStartRefused, detail := n }
      | none => done (modGroup s lead fun g =>
          { g with ended := none, abortDue := none
                   run := some (freshRun epoch first count (BitVec.ofNat 64 (prm k 18 8)) (BitVec.ofNat 64 (prm k 26 8))) })

/-! ### `PLAN_STOP` (R130, R278) -/

/-- `PLAN_STOP`: a start that has not begun ends at once; `FORCE` aborts under trigger 5 of Table 10-6. -/
def doPlanStop (s : State) (_r : Nat) (k : Packet) : Effect :=
  let lead := prm k 0 1
  if badPane lead then answer s (badParam 0)
  else match groupLed s lead with
    | none => answer s (badState s lead)
    | some g => match g.plan, g.run with
      | some d, some r =>
        if bitAt (prm k 1 1) 0 then done (abortGroup s g noColl 5)
        else if r.started then done (modRun s lead fun r => { r with stopping := true })
        else done (endPlan s g d)
      | _, _ => answer s (badState s lead)

end Sys2Proof.Machine
end

