-- ==== Sys2Proof/Machine/FarCmds.lean ====
section
/-! DEFINITION. The effects of the commands on windows, keys and latches (0x0040 to 0x0043), of the far-tier commands
(0x0050 to 0x0052) and of the storm commands (0x0060 to 0x0063). -/

namespace Sys2Proof.Machine

/-! ### Windows, keys, latches (R199, R200, R203, R205, R216) -/

/-- A closed window entry, all zero. -/
def windowZero : Window :=
  { base := 0, length := 0, peerJob := 0, peerDevice := 0, scope := 0, wstate := 0, ops := 0, peerPanes := 0
    isSealed := false }

/-- The window entry of a grant (Table 08-6), open. -/
def grantEntry (k : Packet) : Window :=
  { base := BitVec.ofNat 64 (prm k 4 8), length := BitVec.ofNat 64 (prm k 12 8), peerJob := BitVec.ofNat 32 (prm k 20 4)
    peerDevice := BitVec.ofNat 16 (prm k 24 2), scope := BitVec.ofNat 8 (prm k 26 1), wstate := 1
    ops := BitVec.ofNat 16 (prm k 28 2), peerPanes := BitVec.ofNat 16 (prm k 30 2), isSealed := bitAt (prm k 32 1) 0 }

/-- The parameter offset of the first field that refuses a grant (R200, Table 08-6). -/
def grantRefusal (s : State) (p : Nat) (k : Packet) : Option Nat :=
  let x := grantEntry k
  let mine := (groupOf s p).elim (paneBit p) (·.members)
  if BitVec.ofNat 16 (gaDevice x.base) ≠ moduleId s || gaTier x.base ≠ 0 || !mine.getLsbD (gaPane x.base) then some 4
  else if !nearOk (gaOfs x.base) x.length.toNat then some 12
  else if 2 < x.scope.toNat then some 26
  else if prm k 27 1 ≠ 0 then some 27
  else if 64 ≤ x.ops.toNat then some 28
  else none

/-- The lowest closed entry of a pane's window table. -/
def closedEntry (s : State) (p : Nat) : Option Nat :=
  (List.range 256).find? fun i => (tblGet windowZero (rmoOf s p).windows i).wstate == 0

/-- `WINDOW_GRANT`. -/
def doWindowGrant (s : State) (_r : Nat) (k : Packet) : Effect :=
  let p := prm k 0 1
  if badPane p then answer s (badParam 0)
  else if (pane s p).state ≠ .opened then answer s (badState s p)
  else match grantRefusal s p k, closedEntry s p with
    | some o, _ => answer s (badParam o)
    | none, none => answer s { status := stNoResource }
    | none, some i =>
      (modRmo s p fun u => { u with windows := tblSet u.windows i (grantEntry k) },
        some { status := stOk, result := natLe 1 i })

/-- `WINDOW_REVOKE` (R203): the entry admits nothing more; the command goes on until it is closed. -/
def doWindowRevoke (s : State) (_r : Nat) (k : Packet) : Effect :=
  let p := prm k 0 1
  let i := prm k 1 1
  if badPane p then answer s (badParam 0)
  else
    let x := tblGet windowZero (rmoOf s p).windows i
    if x.wstate ≠ 1 then answer s (badState s p)
    else goesOn (modRmo s p fun u => { u with windows := tblSet u.windows i { x with wstate := 2 } })

/-- `SEAL_KEY` (R205): the key goes to the requester's own pane; its frame counter starts at 0. -/
def doSealKey (s : State) (r : Nat) (k : Packet) : Effect :=
  let p := r - 1
  let slot := prm k 0 1
  if 1 < slot then answer s (badParam 0)
  else if (pane s p).state ≠ .opened then answer s (badState s p)
  else done (modRmo s p fun u =>
    { u with keys := tblSet u.keys slot { key := some (BitVec.ofNat 256 (prm k 8 32)), counter := 0 }, keySel := slot })

/-- `LATCH_ORPHAN` (R216). -/
def doLatchOrphan (s : State) (_r : Nat) (k : Packet) : Effect :=
  if badPane (prm k 2 1) then answer s (badParam 2)
  else done (orphanAll s (BitVec.ofNat 16 (prm k 0 2)) (BitVec.ofNat 4 (prm k 2 1)) (BitVec.ofNat 16 (prm k 4 2)))

/-! ### Swapping and fetching (R150, R155, R175, R181, R183, R520) -/

/-- The panes of the group of the pane that a command names; none when no context holds it. -/
def callerGroup (s : State) (p : Nat) : BitVec 16 := (groupOf s p).elim 0 (·.members)

/-- A global address names a tier of this module and a pane of a group. -/
def adrOk (s : State) (mine : BitVec 16) (tier : Nat) (a : BitVec 64) : Bool :=
  BitVec.ofNat 16 (gaDevice a) == moduleId s && gaTier a == tier && mine.getLsbD (gaPane a)

/-- R150: a far-tier range lies within its pane's quota. -/
def inQuota (s : State) (a : BitVec 64) (n : Nat) : Bool :=
  let quota := tblGet 0 s.far.quotas (gaPane a) * 2 ^ 30
  gaOfs a < quota && gaOfs a + n ≤ quota

/-- A running command notes the near-tier ranges it writes (R378). -/
def setWriting (s : State) (r : Nat) (l : List (Nat × Nat × Nat)) : State :=
  modMbx s r fun m => { m with job := m.job.map fun j => { j with writing := l } }

/-- R155: the lead of the caller's group, when it has an accepted start. -/
def startedLead (s : State) (p : Nat) : Option Nat :=
  match groupOf s p with
  | some g => if hasStart g then some (leadOf g.members) else none
  | none => none

/-- A unit of a far-tier range delivers poison (R179). -/
def farPoison (s : State) (o ofs n : Nat) : Bool :=
  (farUnits ofs n).any fun e => (readUnit s o e.1 e.2.1 e.2.2).isNone

/-- `SWAP_IN` (R155): the copy is made; what it writes counts as being written until the reply. -/
def doSwapIn (s : State) (r : Nat) (k : Packet) : Effect :=
  let p := prm k 0 1
  let mask : BitVec 16 := BitVec.ofNat 16 (prm k 6 2)
  let far : BitVec 64 := BitVec.ofNat 64 (prm k 8 8)
  let near : BitVec 64 := BitVec.ofNat 64 (prm k 16 8)
  let n := prm k 24 8
  let mine := callerGroup s p
  if badPane p then answer s (badParam 0)
  else if mask = 0 || (mask &&& ~~~mine) ≠ 0 then answer s (badParam 6)
  else if !adrOk s mine 1 far || !inQuota s far n then answer s (badParam 8)
  else if BitVec.ofNat 16 (gaDevice near) ≠ moduleId s || gaTier near ≠ 0 || !nearOk (gaOfs near) n then
    answer s (badParam 16)
  else match startedLead s p with
    | some l => answer s (planActive l)
    | none =>
      let dests := spread mask near
      let bad := farPoison s (gaPane far) (gaOfs far) n
      let s1 := setWriting (farToNear s (gaPane far) (gaOfs far) n dests) r (dests.map fun q => (q.1, q.2, n))
      (s1, some (if bad then { status := stMediaError } else ansOk))

/-- R175, R181, R183: why a far-tier write is refused; its retry-at beat is a free estimate. -/
def writeRefusal (s : State) (ofs n : Nat) : Option Ans :=
  if s.far.readOnly then some { status := stReadOnly, detail := 0 }
  else if s.far.holdupLow then some { status := stReadOnly, detail := 1 }
  else
    ((writeChannels s ofs n).find? fun c => poolState (freeBlks s c) == 3).map fun c => { status := stFarFull, atBeat := s.time.beat + (Config.freeWord s.free).toNat % 65536, detail := c }

/-- A far-tier write is refused: `ST_FAR_FULL` is reported to the island (R360). -/
def refuseWrite (s : State) (r : Nat) (a : Ans) : Effect :=
  answer (if a.status = stFarFull then chargeRefusal (tookFree s) r else s) a

/-- A near-tier range as a swap-out reads it: the manual gives the bytes of a poisoned line no value (log entry 73). -/
def nearReadOpen (s : State) (p ofs n : Nat) : List Byte :=
  let m := nearOf s p
  (nearRead s p ofs n).zipIdx.map fun e =>
    if tblGet false m.poison ((ofs + e.2) / 64) then Config.freeByte s.free (ofs + e.2) else e.1

/-- `SWAP_OUT`. -/
def doSwapOut (s : State) (r : Nat) (k : Packet) : Effect :=
  let p := prm k 0 1
  let near : BitVec 64 := BitVec.ofNat 64 (prm k 8 8)
  let far : BitVec 64 := BitVec.ofNat 64 (prm k 16 8)
  let n := prm k 24 8
  let mine := callerGroup s p
  if badPane p then answer s (badParam 0)
  else if !adrOk s mine 0 near || !nearOk (gaOfs near) n then answer s (badParam 8)
  else if !adrOk s mine 1 far || !inQuota s far n then answer s (badParam 16)
  else match writeRefusal s (gaOfs far) n with
    | some a => refuseWrite s r a
    | none =>
      if n = 0 then done s
      else goesOn (farWrite (tookFree s) (gaPane far) (gaOfs far) (nearReadOpen s (gaPane near) (gaOfs near) n) (.command r))

/-- A store object descriptor at an offset of the parameters names an Ethernet engine, and none beside the two
(Table 21-6); the offset of the field that does not. -/
def badDesc (k : Packet) (o : Nat) : Option Nat :=
  if prm k (o + 40) 1 = 0 || 3 < prm k (o + 40) 1 then some (o + 40) else none

/-- Every Ethernet engine that a descriptor names is out of service. -/
def enginesOut (s : State) (k : Packet) (o : Nat) : Bool :=
  (BitVec.ofNat 2 (prm k (o + 40) 1) &&& ~~~s.faults.ethOut) == 0

/-- `SHARD_FETCH`. -/
def doShardFetch (s : State) (r : Nat) (k : Packet) : Effect :=
  let p := prm k 0 1
  let mask : BitVec 16 := BitVec.ofNat 16 (prm k 6 2)
  let dst : BitVec 64 := BitVec.ofNat 64 (prm k 8 8)
  let n := prm k 16 8
  let mine := callerGroup s p
  let go (ranges : List (Nat × Nat × Nat)) : Effect :=
    if enginesOut s k 24 then answer s storeFailure
    else goesOn (openTxn (setWriting s r ranges) (.fetch r) (bytesAt k.params 24 64) (moduleId s) 0 n)
  if badPane p then answer s (badParam 0)
  else match badDesc k 24 with
    | some o => answer s (badParam o)
    | none =>
      if gaTier dst = 0 then
        if mask = 0 || (mask &&& ~~~mine) ≠ 0 then answer s (badParam 6)
        else if BitVec.ofNat 16 (gaDevice dst) ≠ moduleId s || !nearOk (gaOfs dst) n then answer s (badParam 8)
        else match startedLead s p with
          | some l => answer s (planActive l)
          | none => go ((spread mask dst).map fun q => (q.1, q.2, n))
      else if !adrOk s mine 1 dst || !inQuota s dst n then answer s (badParam 8)
      else match writeRefusal s (gaOfs dst) n with
        | some a => refuseWrite s r a
        | none => go []

/-! ### Storm copies (R150, R386, R388, R393, R396) -/

/-- GiB of a staging region for a buddy region of some length. -/
def stagingFor (len : Nat) : Nat := ceilDiv (bufFrames len * frameSize) (2 ^ 30)

/-- `BUDDY_SET`. -/
def doBuddySet (s : State) (_r : Nat) (k : Packet) : Effect :=
  let lead := prm k 0 1
  let gib := stagingFor (prm k 16 8)
  onIdleGroup s lead fun _ =>
    if badPane (prm k 4 1) then answer s (badParam 4)
    else if !fitsFar (farClaims s 16 lead + gib) then answer s { status := stNoResource }
    else done (modGroup s lead fun g => { g with status := { g.status with buddyLost := false }, storm := { g.storm with
      buddy := some (BitVec.ofNat 16 (prm k 2 2), BitVec.ofNat 8 (prm k 4 1), prm k 8 8, prm k 16 8)
      stagingGib := gib } })

/-- `STORM_NOW`. -/
def doStormNow (s : State) (_r : Nat) (k : Packet) : Effect :=
  let lead := prm k 0 1
  if badPane lead then answer s (badParam 0)
  else match groupLed s lead with
    | some g =>
      if planRunning g then done (modGroup s lead fun g => { g with storm := { g.storm with now := true } })
      else answer s (badState s lead)
    | none => answer s (badState s lead)

/-- `DRAIN_SET`: the drain interval is a multiple of the storm interval. -/
def doDrainSet (s : State) (_r : Nat) (k : Packet) : Effect :=
  let lead := prm k 0 1
  let n := prm k 2 2
  onIdleGroup s lead fun g =>
    if n = 0 || n % g.storm.interval ≠ 0 then answer s (badParam 2)
    else match badDesc k 8 with
      | some o => answer s (badParam o)
      | none => done (modGroup s lead fun g =>
          { g with storm := { g.storm with drain := some (n, bytesAt k.params 8 64) } })

/-- R396: a restore from a region of this module's own near tier: the committed buffer's data frames. -/
def ownCopy (s : State) (p base len step : Nat) : Option (Nat × List (List Byte)) :=
  ((List.range 3).map fun b => bufOfs base len b 0).findSome? fun o =>
    if committedAt s p o = some step then
      some (o, (List.range (leAt (nearRead s p o frameSize) 64 4)).map fun i =>
        nearRead s p (o + (i + 1) * frameSize) frameSize)
    else none

/-- `RESTORE` with source 0. -/
def restoreBuddy (s : State) (r : Nat) (g : Group) (d : List Byte) (step : Nat) : Effect :=
  let lead := leadOf g.members
  match g.storm.buddy with
  | none => answer s (badState s lead)
  | some (device, bp, ofs, len) =>
    let s1 := setWriting s r (restoreRanges g d)
    if device ≠ moduleId s then goesOn s1
    else match ownCopy s bp.toNat ofs len step with
      | none => answer s (badState s lead)
      | some (o, fs) =>
        if mayStorm s bp.toNat o (groupTag s g) then
          done (fs.foldl (fun s f => if (frameHdr f).ftype = ftData then restoreFrame s g d f else s) s1)
        else goesOn s1

/-- `RESTORE`. -/
def doRestore (s : State) (r : Nat) (k : Packet) : Effect :=
  let lead := prm k 0 1
  let source := prm k 1 1
  onIdleGroup s lead fun g => match g.plan with
    | none => answer s (badState s lead)
    | some d =>
      if 1 < source then answer s (badParam 1)
      else if source = 0 then restoreBuddy s r g d (prm k 4 6)
      else match badDesc k 16 with
        | some o => answer s (badParam o)
        | none =>
          if prm k 54 2 < prm k 52 2 then answer s (badParam 52)
          else if enginesOut s k 16 then answer s storeFailure
          else goesOn (openTxn (setWriting s r (restoreRanges g d)) (.restore r) (bytesAt k.params 16 64)
            (BitVec.ofNat 16 (prm k 52 2)) (prm k 4 6) 0)

end Sys2Proof.Machine
end

