-- ==== Sys2Proof/Machine/ModeCmds.lean ====
section
/-! DEFINITION. The effects of `MODE_SET` and `MODE_GET` (R501, Table 20-5) and of the services: self-test, shutdown, the
island and the recorder (0x0080 to 0x00A2). -/

namespace Sys2Proof.Machine

/-! ### Modes (R501, Table 20-5) -/

/-- Modes of module scope. -/
def moduleMode (m : Nat) : Bool := 1 ≤ m && m ≤ 6

/-- Modes of group scope. -/
def groupMode (m : Nat) : Bool := 7 ≤ m && m ≤ 10

/-- Modes that may not change while a start is accepted. -/
def modeNoStart (m : Nat) : Bool := m != 3 && m != 6

/-- The drain interval N of a group; 64 by default. -/
def drainInterval (g : Group) : Nat := (g.storm.drain.map Prod.fst).getD 64

/-- The value is one that Table 20-5 allows for a module mode. -/
def moduleValueOk (s : State) (m v : Nat) : Bool :=
  match m with
  | 4 => v == 1 || (v == 0 && s.power.identity.isSome && s.power.idConfig.getLsbD 0)
  | 6 => v ≤ 1
  | _ => v ≤ 2

/-- The value is one that Table 20-5 allows for a group mode. -/
def groupValueOk (g : Group) (m v : Nat) : Bool :=
  match m with
  | 9 => 1 ≤ v && v ≤ 1024 && drainInterval g % v == 0
  | 10 => false
  | _ => v ≤ 1

/-- R240, Table 20-5: the ports negotiate again. -/
def renegotiate (s : State) : State :=
  (List.range 6).foldl (fun s p => if portActive s p then leaveActive s p lsNegotiate else s) s

/-- R338: every allocated bit that a slot split makes unscheduled is cleared. -/
def clearUnscheduled (s : State) (split : Nat) : State :=
  let keep : BitVec 256 := BitVec.ofNat 256 (2 ^ schedSlots split - 1)
  { s with groups := s.groups.map fun g => { g with slots := g.slots.map fun e => (e.1, e.2 &&& keep) } }

/-- A module mode takes a value. -/
def setModuleMode (s : State) (m v : Nat) : State :=
  match m with
  | 1 => applyCap s (BitVec.ofNat 2 v)
  | 2 =>
    if s.power.slotSplit.toNat = v then s
    else renegotiate (clearUnscheduled { s with power := { s.power with slotSplit := BitVec.ofNat 2 v } } v)
  | 3 => { s with time := { s.time with limitSel := BitVec.ofNat 2 v } }
  | 4 => if s.power.cvFrame = (v == 1) then s else renegotiate { s with power := { s.power with cvFrame := v == 1 } }
  | 5 =>
    if s.power.cvPoly.toNat = v then s else renegotiate { s with power := { s.power with cvPoly := BitVec.ofNat 2 v } }
  | 6 => { s with power := { s.power with farEndurance := v == 1 } }
  | _ => s

/-- A group mode takes a value. -/
def setGroupMode (m v : Nat) (g : Group) : Group :=
  match m with
  | 7 => { g with exactBf16 := v == 1 }
  | 8 => { g with isSealed := v == 1 }
  | 9 => { g with storm := { g.storm with interval := v } }
  | _ => g

/-- The lead pane of a group with an accepted start, if there is one. -/
def firstStart (s : State) : Option Nat := (s.groups.find? hasStart).map fun g => leadOf g.members

/-- `MODE_SET`. -/
def doModeSet (s : State) (_r : Nat) (k : Packet) : Effect :=
  let m := prm k 0 2
  let scope := prm k 2 1
  let v := prm k 4 4
  if moduleMode m then
    if scope ≠ 0xFF then answer s (badParam 2)
    else match (if modeNoStart m then firstStart s else none) with
      | some l => answer s (planActive l)
      | none => if moduleValueOk s m v then done (setModuleMode s m v) else answer s (badParam 4)
  else if groupMode m then
    if badPane scope then answer s (badParam 2)
    else match groupLed s scope with
      | none => answer s (badParam 2)
      | some g =>
        if m = 10 then answer s (badParam 0)
        else if hasStart g then answer s (planActive scope)
        else if groupValueOk g m v then done (modGroup s scope (setGroupMode m v))
        else answer s (badParam 4)
  else answer s (badParam 0)

/-- The value of a mode. -/
def modeValue (s : State) (m : Nat) (g : Option Group) : Nat :=
  match m with
  | 1 => s.power.capMode.toNat
  | 2 => s.power.slotSplit.toNat
  | 3 => s.time.limitSel.toNat
  | 4 => b2n s.power.cvFrame
  | 5 => s.power.cvPoly.toNat
  | 6 => b2n s.power.farEndurance
  | 7 => g.elim 0 fun g => b2n g.exactBf16
  | 8 => g.elim 0 fun g => b2n g.isSealed
  | 9 => g.elim 0 fun g => g.storm.interval
  | _ => g.elim 0 drainInterval

/-- `MODE_GET`. -/
def doModeGet (s : State) (_r : Nat) (k : Packet) : Effect :=
  let m := prm k 0 2
  let scope := prm k 2 1
  let g := if badPane scope then none else groupLed s scope
  if !(moduleMode m || groupMode m) then answer s (badParam 0)
  else if (moduleMode m && scope ≠ 0xFF) || (groupMode m && g.isNone) then answer s (badParam 2)
  else answer s { status := stOk, result := natLe 4 (modeValue s m g) }

/-! ### `SELF_TEST` and `SHUTDOWN` (R345, R427, R433, R491) -/

/-- `SELF_TEST`: panes that are free enter `TESTING`; those in a shutter do so when it is over. -/
def doSelfTest (s : State) (_r : Nat) (k : Packet) : Effect :=
  let mask : BitVec 16 := BitVec.ofNat 16 (prm k 0 2)
  let ps := maskPanes mask
  match ps.find? fun p => (pane s p).state == .opened || (pane s p).state == .outOfService with
  | some p => answer s (badState s p)
  | none =>
    let free := ps.filter fun p => (pane s p).state == .free
    let later := ps.filter fun p => (pane s p).state != .free
    let s1 := free.foldl enterTesting s
    if later.isEmpty then
      (s1, some { status := stOk, atBeat := ps.foldl (fun b p => max b (readyBeat s1 p)) 0 })
    else
      goesOn { s1 with test := { s1.test with
        startDue := later.foldl (fun m p => m ||| paneBit p) s1.test.startDue } }

/-- A pane's context ends for a shutdown, its far-tier space kept. -/
def shutdownPane (s : State) (p : Nat) : State :=
  if (pane s p).state = .opened then
    if (pane s p).shutter.isSome then joinTeardown s p true else askTeardown s p 0 true
  else s

/-- `SHUTDOWN`. -/
def doShutdown (s : State) (_r : Nat) (k : Packet) : Effect :=
  let s1 := (List.range 16).foldl shutdownPane s
  if (List.range 16).all fun p => (pane s p).state == .free || (pane s p).state == .outOfService then
    done (afterShutdown s1 (bitAt (prm k 0 1) 0))
  else goesOn s1

/-! ### The island and the recorder (R455, R459, R479 to R481) -/

/-- `METER_READ`. -/
def doMeterRead (s : State) (r : Nat) (k : Packet) : Effect :=
  let first := prm k 0 8
  let count := prm k 8 4
  if count = 0 || 65536 < count then answer s (badParam 8)
  else if k.bulkLen.toNat < 128 * count then answer s badBulkLen
  else if k.bulk.isNone then answer s dmaFault
  else
    let got := meterRead s (if r = 0 then none else some (r - 1)) first count
    let s1 := if r = 0 then noteRead s got.1 else s
    (s1, some { status := stOk
                result := natLe 4 got.1.length ++ natLe 6 got.2 ++ natLe 6 (oldestSeq s.island)
                bulk := got.1.flatMap fun x => x.body ++ x.sig })

/-- `METER_IDENT`. -/
def doMeterIdent (s : State) (_r : Nat) (_k : Packet) : Effect :=
  answer s { status := stOk, result := meterIdent s }

/-- `ST_BAD_STATE` where no pane is concerned. -/
def recorderState : Ans := { status := stBadState }

/-- `EVENT_FREEZE`: the reply follows the last event of the queue (R479). -/
def doEventFreeze (s : State) (_r : Nat) (_k : Packet) : Effect :=
  if s.evrec.frozen then answer s recorderState
  else if s.evrec.queue.isEmpty then done (freezeRec s)
  else goesOn (freezeRec s)

/-- `EVENT_READ` (R480). -/
def doEventRead (s : State) (_r : Nat) (k : Packet) : Effect :=
  let ofs := prm k 0 8
  let n := prm k 8 4
  if !s.evrec.frozen then answer s recorderState
  else if !eventRangeOk ofs n then answer s (badParam 0)
  else if k.bulkLen.toNat < n then answer s badBulkLen
  else if k.bulk.isNone then answer s dmaFault
  else (if bitAt ofs 63 then countReads (tookFree s) 16 (ofs % 2 ^ 32) n else s, some { status := stOk, bulk := eventBytes s ofs n })

/-- `EVENT_THAW` (R481). -/
def doEventThaw (s : State) (_r : Nat) (_k : Packet) : Effect :=
  if s.evrec.frozen then done (thawRec s) else answer s recorderState

end Sys2Proof.Machine
end

