-- ==== Sys2Proof/Machine/Bounds.lean ====
section
/-! DEFINITION. The times of commands (Table 14-11): their bounds (R155, R374), the beat at which one is expected to end and
the answer to a doorbell on a busy mailbox (R359). -/

namespace Sys2Proof.Machine

/-! ### Bounds (R374) -/

/-- A command writes to the far tier and runs: its effect has begun and its outcome is open. -/
def farWriter (j : Job) : Bool :=
  j.start.isSome && j.outcome.isNone
  && (j.opcode.toNat == opSwapOut
    || (j.opcode.toNat == opShardFetch && gaTier (BitVec.ofNat 64 (prm j.packet 8 8)) == 1))

/-- Far-tier write commands that run now. -/
def farWriters (s : State) : Nat := ((jobsInHand s).filter fun e => farWriter e.2).length

/-- R155: bytes a swap-in reads in a beat: 250 GB/s less the shares of running Plans and, where it holds on some channel,
the collector's guaranteed share. -/
def swapRate (s : State) : Nat :=
  let used := (s.groups.filter fun g => planRunning g && g.ended.isNone).foldl (fun n g => n + g.streamShare) 0
  2048000 - used - (if (List.range 64).any (shareHeld s) then 209716 else 0)

/-- Bounds of Table 14-11 in beats, for a command that starts now; where one scales with data, from the packet. A buddy
`RESTORE` counts the bytes of a whole buffer until it knows how many the copy has. -/
def boundOf (s : State) (op : Nat) (k : Packet) : Nat :=
  match op with
  | 0x0001 => 1
  | 0x0010 => if (pane s (prm k 0 1)).kept && !adopts s (prm k 0 1) k then 68 else 4
  | 0x0011 => 1703
  | 0x0013 => 16
  | 0x0014 => 64
  | 0x0015 => 1703
  | 0x0022 => 64
  | 0x0023 => 8
  | 0x0024 => 64
  | 0x0025 => 256
  | 0x0030 => 64 + ceilDiv k.bulkLen.toNat 262144
  | 0x0042 => 2
  | 0x0043 => 8
  | 0x0050 => 64 + ceilDiv (prm k 24 8) (swapRate s)
  | 0x0051 =>
    64 + (farWriters s + 1) * ceilDiv (prm k 24 8) (if s.power.farEndurance then 327680 else 524288)
  | 0x0052 => 64
  | 0x0063 =>
    if prm k 1 1 = 0 then match (groupLed s (prm k 0 1)).bind (·.storm.buddy) with
      | some b => 64 + hopsTo s b.1 + ceilDiv (bufFrames b.2.2.2 * frameSize) 12288
      | none => 64
    else 64
  | 0x0070 => if prm k 0 2 = 2 then 32 else 16
  | 0x0071 => 1
  | 0x0081 => 1703
  | 0x0090 => 2 + ceilDiv (prm k 8 4) 64
  | 0x0091 => 1
  | 0x00A0 => 1
  | 0x00A1 => 2 + ceilDiv (prm k 8 4) 262144
  | 0x00A2 => 1
  | _ => 4

/-- R374: the beat from which a running command's bound counts: its start; the last byte of a fetch, once it is in (a
store `RESTORE` ends with it); the request of a pane reset's own teardown, after the shutter that it found in progress
(R345). None while that is still to come. -/
def boundFrom (s : State) (j : Job) : Option Nat :=
  match j.start with
  | none => none
  | some b =>
    if j.opcode.toNat = opShardFetch then
      if 0 < j.got && prm j.packet 16 8 ≤ j.got then some j.lastBeat else none
    else if j.opcode.toNat = opRestore && prm j.packet 1 1 = 1 then none
    else if j.opcode.toNat = opPaneReset then match (pane s (prm j.packet 0 1)).shutter with
      | some h => if (pane s (prm j.packet 0 1)).resetDue then none else if h.paneReset then some (max b (h.d - 1)) else some b
      | none => some b
    else some b

/-- R379: a running command has outlived its bound by 1,024 beats. -/
def outlived (s : State) (j : Job) : Bool :=
  j.outcome.isNone && (boundFrom s j).elim false fun b => b + j.bound + 1024 ≤ s.time.beat

/-! ### The end that is expected (R359) -/

/-- The nominal duration of a command: that of the shutter for a teardown, else its bound. -/
def nominalOf (s : State) (j : Job) : Nat :=
  let op := j.opcode.toNat
  if op = opTeardown || op = opPaneReset || op = opShutdown then 1567
  else if j.start.isSome then j.bound else boundOf s op j.packet

/-- The beat at which a running command is expected to end: a pane reset that waits for a shutter in progress has that
shutter before its own. -/
def runEnd (s : State) (j : Job) (b : Nat) : Nat :=
  let x := pane s (prm j.packet 0 1)
  if j.opcode.toNat = opPaneReset && x.resetDue then
    (x.shutter.elim b fun h => max b (h.d + 1566)) + 1567
  else b + nominalOf s j

/-- The escape in hand, as one of the commands ahead. -/
def escapeAhead (s : State) (j : Job) : List Job := match s.dk.esc.job with
  | some e => if conflict e j then [e] else []
  | none => []

/-- The beat at which a command in hand is expected to end. -/
def expectedEnd (s : State) (r : Nat) (j : Job) : Nat :=
  match j.start with
  | some b => runEnd s j b
  | none =>
    let ahead := escapeAhead s j ++
      ((jobsInHand s).filter fun e => e.1 != r && before e.1 e.2 r j && conflict e.2 j).map Prod.snd
    let running := ahead.foldl (fun t e => match e.start with
      | some b => max t (runEnd s e b)
      | none => t) s.time.beat
    ahead.foldl (fun t e => if e.start.isNone then t + nominalOf s e else t) running

/-- R359: a doorbell on a busy mailbox: nothing is queued; `REFUSALS` and `AT_BEAT` answer it. -/
def refuseBusy (s : State) (r : Nat) (j : Job) (fmEntry : Option (Option (BitVec 16) × BitVec 32)) (op seq : Nat) :
    State :=
  let t := expectedEnd s r j
  let s1 := chargeRefusal (modMbx s r fun m =>
    { m with refusals := BitVec.ofNat 16 (satAdd 16 m.refusals.toNat 1), atBeat := t }) r
  match fmEntry with
  | some (entry, xid) => fmReplyTo s1 entry xid (replyBytes (mkReply s op seq { status := stBusy, atBeat := t }))
  | none => s1

end Sys2Proof.Machine
end

