-- ==== Sys2Proof/Machine/Doorkeeper.lean ====
section
/-! DEFINITION. The Doorkeeper at work (14_command_interface.md): doorbells and their checks (R358, R359, R364), the start
of a command (R367), its reply and its overrun (R374, R379), and the escape (R376, R377). -/

namespace Sys2Proof.Machine

/-! ### The effect of an opcode -/

/-- The effect of a command at its start (Table 14-11). -/
def effectOf (op : Nat) : State → Nat → Packet → Effect :=
  match op with
  | 0x0001 => doHello
  | 0x0010 => doCtxCreate
  | 0x0011 => doCtxTeardown
  | 0x0012 => doGroupBind
  | 0x0013 => doCtxReset
  | 0x0014 => doEngineReset
  | 0x0015 => doPaneReset
  | 0x0016 => doModuleReset
  | 0x0020 => doSlotAlloc
  | 0x0021 => doStreamShare
  | 0x0022 => doFarQuota
  | 0x0023 => doLatchAlloc
  | 0x0024 => doJobMapLoad
  | 0x0025 => doCoordLoad
  | 0x0026 => doIdentitySet
  | 0x0030 => doPlanLoad
  | 0x0031 => doPlanStart
  | 0x0032 => doPlanStop
  | 0x0040 => doWindowGrant
  | 0x0041 => doWindowRevoke
  | 0x0042 => doSealKey
  | 0x0043 => doLatchOrphan
  | 0x0050 => doSwapIn
  | 0x0051 => doSwapOut
  | 0x0052 => doShardFetch
  | 0x0060 => doBuddySet
  | 0x0061 => doStormNow
  | 0x0062 => doDrainSet
  | 0x0063 => doRestore
  | 0x0070 => doModeSet
  | 0x0071 => doModeGet
  | 0x0080 => doSelfTest
  | 0x0081 => doShutdown
  | 0x0090 => doMeterRead
  | 0x0091 => doMeterIdent
  | 0x00A0 => doEventFreeze
  | 0x00A1 => doEventRead
  | 0x00A2 => doEventThaw
  | _ => fun s _ _ => answer s { status := stBadOpcode }

/-- Commands that deliver something which is in place only with their reply (R378): it is not, if they are aborted. -/
def delivers (op : Nat) : Bool := op == opMapLoad || op == opPlanLoad || op == opGrant

/-- The effect at the start: of a delivery, only what refuses it. -/
def startEffect (op : Nat) (s : State) (r : Nat) (k : Packet) : Effect :=
  let e := effectOf op s r k
  if delivers op then match e.2 with
    | some a => if a.status = stOk then goesOn s else answer s a
    | none => goesOn s
  else e

/-- The effect that is left for the reply of a command that is still open. -/
def replyEffect (op : Nat) (s : State) (r : Nat) (k : Packet) : Effect :=
  if delivers op then effectOf op s r k
  else if op = opCreate then createAfterZeroing s k
  else goesOn s

/-! ### Checks (Table 14-8) -/

/-- Check 1: the Doorkeeper serves commands; it does not while the hub is under test or the module parked. -/
def dkReady (s : State) : Bool := s.dk.ready && s.test.hub != tsActive && !s.test.parked

/-- The bound of step 5 of Table 20-1, after the hub test that a start-up may have had (R486). -/
def stepFive (s : State) : Nat := s.power.t0 + s.test.hubSpent + 36622

/-- The ready-at beat of `ST_NOT_READY` (R373, R437, R489): the bound of step 5, or the end of the hub test. -/
def dkReadyAt (s : State) : Nat :=
  if s.test.parked then 0 else if s.test.hub = tsActive then s.test.hubSince + 244141 else stepFive s

/-- The ready-at beat while the far tier recovers: the bound of step 6 of Table 20-1. -/
def farReadyAt (s : State) : Nat := stepFive s + 36622

/-- Check 4, with `BULK_ADDR` zero on the fabric-manager channel (R362): the offset of the first bad field. -/
def firstBadField (fm : Bool) (op : Nat) (k : Packet) : Option Nat :=
  match badField op k with
  | some o => some (if fm && k.bulkAddr ≠ 0 then min o 16 else o)
  | none => if fm && k.bulkAddr ≠ 0 then some 16 else none

/-- Checks 1 to 4, made at the doorbell; `fm` on the fabric-manager channel. -/
def earlyRefusal (s : State) (r : Nat) (fm : Bool) (op : Nat) (k : Packet) : Option Ans :=
  if !dkReady s then some { status := stNotReady, atBeat := dkReadyAt s }
  else if op ≠ opHello && !((mbx s r).hello && k.protoMajor == 1) then some { status := stBadVersion }
  else if (paramLen op).isNone then some { status := stBadOpcode }
  else (firstBadField fm op k).map fun o => { status := stBadParam, detail := o }

/-- Check 7: the opcode touches the far tier. -/
def touchesFar (s : State) (op : Nat) (k : Packet) : Bool :=
  match op with
  | 0x0010 => (pane s (prm k 0 1)).kept && !adopts s (prm k 0 1) k
  | 0x0022 => true
  | 0x0050 => true
  | 0x0051 => true
  | 0x0052 => gaTier (BitVec.ofNat 64 (prm k 8 8)) == 1
  | 0x0060 => true
  | 0x00A1 => bitAt (prm k 0 8) 63
  | _ => false

/-- Checks 5 to 7, made at the start. -/
def startRefused (s : State) (r op : Nat) (k : Packet) : Option Ans :=
  if !mayRun s r op k then some { status := stNoRights }
  else match (maskPanes (namedPanes s r op k)).find? fun p => (pane s p).state == .testing with
    | some p => some { status := stTesting, detail := p, atBeat := readyBeat s p }
    | none =>
      if touchesFar s op k && s.far.recovering then some { status := stNotReady, detail := 1, atBeat := farReadyAt s }
      else none

/-! ### Start and reply (R358, R364, R367) -/

/-- A command as its doorbell is accepted. -/
def newJob (s : State) (r op : Nat) (k : Packet) : Job :=
  { opcode := BitVec.ofNat 16 op, packet := k, order := now s, start := none, bound := 0, locks := namedPanes s r op k
    wholeModule := locksAll op k, outcome := none, writing := [], got := 0, need := none, lastBeat := s.time.beat }

/-- R509: the 4 KiB pages of a command's bulk transfer. -/
def bulkPages (k : Packet) : Nat × Nat :=
  let a := k.bulkAddr.toNat / 4096
  (a, (k.bulkAddr.toNat + k.bulkLen.toNat + 4095) / 4096 - a)

/-- R509: with ATS enabled, the translations that a bulk transfer of a function uses are in the cache of 8,192. -/
def noteAts (s : State) (r op : Nat) (k : Packet) : State :=
  if Config.atsEnabled && hasBulk op && r != 17 && k.bulk.isSome then
    let w := bulkPages k
    let new := (List.range (min w.2 8192)).map fun i => (r, w.1 + i)
    { s with host := { s.host with ats := (new ++ s.host.ats.filter fun e => !new.contains e).take 8192 } }
  else s

/-- A command starts: checks 5 to 8, and its effect. -/
def startJob (s : State) (r : Nat) : State :=
  match (mbx s r).job with
  | some j =>
    let op := j.opcode.toNat
    let s1 := modMbx s r fun m => { setMState s (if m.mstate = .idle then .idle else .running) m with
      job := some { withLocks s r j with
        start := some s.time.beat, bound := boundOf s op j.packet, lastBeat := s.time.beat } }
    match startRefused s r op j.packet with
    | some a => decideJob s1 r a
    | none =>
      let e := startEffect op (noteAts s1 r op j.packet) r j.packet
      match e.2 with
      | some a => decideJob e.1 r a
      | none => e.1
  | none => s

/-- A command's packet is accepted (R358): checks 1 to 4, then it starts or waits for its locks (R367). -/
def acceptPacket (s : State) (r op : Nat) (k : Packet) : State :=
  match earlyRefusal s r (r == 17) op k with
  | some a => finish s r (mkReply s op k.seq.toNat a)
  | none =>
    let j := newJob s r op k
    let s1 := modMbx s r fun m => { setMState s .waiting m with job := some j }
    if canStart s1 r j then startJob s1 r else s1

/-- The hub answers doorbells and packets: it is up, or its ROM responder is what is left of a hub that failed its test
(R373, R426). -/
def hubAnswers (s : State) : Bool := s.power.hubUp || (s.faults.hubDead && s.power.pwrGood)

/-- A requester's mailbox is there: the hub answers, and the virtual function exists (R503). -/
def reachable (s : State) (r : Nat) : Bool := hubAnswers s && (r == 0 || r == 17 || vfExists s r)

/-- A packet of requester 17 under a transaction number, from another entry module or from this one's own sideband
(R359, R514). -/
def fmPacket (s : State) (entry : Option (BitVec 16)) (xid : BitVec 32) (op : Nat) (k : Packet) : State :=
  match (mbx s 17).job with
  | some j => refuseBusy s 17 j (some (entry, xid)) op k.seq.toNat
  | none => acceptPacket { s with fm := { s.fm with current := some (entry, xid, s.time.beat + 1) } } 17 op k

/-- A doorbell (R358, R359); for requester 17 a packet on this module's own sideband, whose `XID` is a free value. -/
def doorbell (s : State) (r op : Nat) (k : Packet) : State :=
  if !reachable s r then s
  else if r = 17 then fmPacket s none ((Config.freeWord k.seq.toNat).setWidth 32) op k
  else match (mbx s r).job with
    | some j => refuseBusy s r j none op k.seq.toNat
    | none => acceptPacket s r op k

/-- `COMMAND_START` (R367): a waiting command whose locks are free starts. -/
def execCommandStart (r : Req) (s : State) : Host.Outcome State Fault Refusal :=
  match (mbx s r.val).job with
  | some j => if j.start.isNone && canStart s r.val (withLocks s r.val j) then .next (startJob s r.val) else .next s
  | none => .next s

/-- The reply as it leaves, stamped now. -/
def stampReply (s : State) (rep : Reply) : Reply := { rep with stampBeat := s.time.beat, stampTick := s.time.tick }

/-- `COMMAND_REPLY` (R358, R363): a decided command ends; one that delivers something has its effect now. -/
def execCommandReply (r : Req) (s : State) : Host.Outcome State Fault Refusal :=
  match (mbx s r.val).job with
  | some j => match j.outcome with
    | some rep => .next (finish s r.val (stampReply s rep))
    | none =>
      if j.start.isNone then .next s
      else
        let e := replyEffect j.opcode.toNat s r.val j.packet
        match e.2 with
        | some a => .next (finish e.1 r.val (mkReply e.1 j.opcode.toNat j.packet.seq.toNat a))
        | none => .next s
  | none => .next s

/-! ### The escape (R376, R377, R435) -/

/-- Opcodes that an escape may carry. -/
def escapeOp (op : Nat) : Bool := op == opCtxReset || op == opEngineReset || op == opPaneReset || op == opModuleReset

/-- An answer in the escape reply area, the escape being over. -/
def escapeReply (s : State) (op : Nat) (k : Packet) (a : Ans) : State :=
  let s1 := { s with dk := { s.dk with esc := { s.dk.esc with
    estate := .done, job := none, reply := some (mkReply s op k.seq.toNat a) } } }
  if (mbx s 0).escIe then msix s1 0 1 else s1

/-- R376: an escape while one runs is refused. -/
def escapeBusy (s : State) (op : Nat) (k : Packet) (e : Job) : State :=
  let t := expectedEnd s 0 e
  let s1 := chargeRefusal (modMbx s 0 fun m =>
    { m with refusals := BitVec.ofNat 16 (satAdd 16 m.refusals.toNat 1), atBeat := t }) 0
  { s1 with dk := { s1.dk with esc := { s1.dk.esc with
      reply := some (mkReply s op k.seq.toNat { status := stBusy, atBeat := t }) } } }

/-- R379: what tells of a command that has outlived its bound. -/
def tellOverrun (s : State) (r : Nat) (j : Job) : State :=
  record s 0x0205 srcDoorkeeper noPane (natLe 2 j.opcode.toNat ++ natLe 1 r)

/-- `COMMAND_OVERRUN` (R379): a requester's command, or for requester 0 its escape, has outlived its bound. -/
def execCommandOverrun (r : Req) (s : State) : Host.Outcome State Fault Refusal :=
  let esc : Option Job := if r.val = 0 then s.dk.esc.job else none
  match (mbx s r.val).job.filter (outlived s), esc.filter (outlived s) with
  | some j, _ => .next (endNow (tellOverrun s r.val j) r.val { status := stInternal })
  | none, some j => .next (escapeReply (tellOverrun s r.val j) j.opcode.toNat j.packet { status := stInternal })
  | none, none => .next s

/-- Check 6 for an escape: a `PANE_RESET` ends a test (R435). -/
def escapeTesting (s : State) (op : Nat) (k : Packet) : Option Ans :=
  if op = opPaneReset then none
  else ((maskPanes (namedPanes s 0 op k)).find? fun p => (pane s p).state == .testing).map fun p =>
    { status := stTesting, detail := p, atBeat := readyBeat s p }

/-- An accepted escape: it takes its locks from their holders, and runs; a pane reset leaves the command whose shutter
is in progress (R345). -/
def runEscape (s : State) (op : Nat) (k : Packet) : State :=
  let p := prm k 0 1
  let spare (j : Job) : Bool := op == opPaneReset && (pane s p).shutter.isSome && ownsShutter p j
  let j := { newJob s 0 op k with start := some s.time.beat, bound := boundOf s op k }
  let s1 := abortLocked s j.locks 1 spare
  let s2 := { s1 with dk := { s1.dk with esc := { s1.dk.esc with estate := .running, job := some j } } }
  match escapeTesting s2 op k with
  | some a => escapeReply s2 op k a
  | none =>
    let e := effectOf op s2 0 k
    match e.2 with
    | some a => escapeReply e.1 op k a
    | none => e.1

/-- A ring of `MBX_ESCAPE`. -/
def escapeBell (s : State) (op : Nat) (k : Packet) : State :=
  if !hubAnswers s then s
  else match s.dk.esc.job with
    | some e => escapeBusy s op k e
    | none => match earlyRefusal s 0 false op k with
      | some a => escapeReply s op k a
      | none => if escapeOp op then runEscape s op k else escapeReply s op k { status := stNoRights }

/-- `ESCAPE` (R376, R377). -/
def execEscape (opcode : BitVec 16) (k : Packet) (s : State) : Host.Outcome State Fault Refusal :=
  .next (escapeBell s opcode.toNat k)

/-! ### The doorbells of the opcode table -/

/-- `HELLO`. -/
def execHello (r : Req) (k : Packet) (s : State) : Host.Outcome State Fault Refusal := .next (doorbell s r.val 0x0001 k)

/-- `CTX_CREATE`. -/
def execCtxCreate (r : Req) (k : Packet) (s : State) : Host.Outcome State Fault Refusal := .next (doorbell s r.val 0x0010 k)

/-- `CTX_TEARDOWN`. -/
def execCtxTeardown (r : Req) (k : Packet) (s : State) : Host.Outcome State Fault Refusal := .next (doorbell s r.val 0x0011 k)

/-- `GROUP_BIND`. -/
def execGroupBind (r : Req) (k : Packet) (s : State) : Host.Outcome State Fault Refusal := .next (doorbell s r.val 0x0012 k)

/-- `CTX_RESET`. -/
def execCtxReset (r : Req) (k : Packet) (s : State) : Host.Outcome State Fault Refusal := .next (doorbell s r.val 0x0013 k)

/-- `ENGINE_RESET`. -/
def execEngineReset (r : Req) (k : Packet) (s : State) : Host.Outcome State Fault Refusal := .next (doorbell s r.val 0x0014 k)

/-- `PANE_RESET`. -/
def execPaneReset (r : Req) (k : Packet) (s : State) : Host.Outcome State Fault Refusal := .next (doorbell s r.val 0x0015 k)

/-- `MODULE_RESET`. -/
def execModuleReset (r : Req) (k : Packet) (s : State) : Host.Outcome State Fault Refusal := .next (doorbell s r.val 0x0016 k)

/-- `SLOT_ALLOC`. -/
def execSlotAlloc (r : Req) (k : Packet) (s : State) : Host.Outcome State Fault Refusal := .next (doorbell s r.val 0x0020 k)

/-- `STREAM_SHARE`. -/
def execStreamShare (r : Req) (k : Packet) (s : State) : Host.Outcome State Fault Refusal := .next (doorbell s r.val 0x0021 k)

/-- `FAR_QUOTA`. -/
def execFarQuota (r : Req) (k : Packet) (s : State) : Host.Outcome State Fault Refusal := .next (doorbell s r.val 0x0022 k)

/-- `LATCH_ALLOC`. -/
def execLatchAlloc (r : Req) (k : Packet) (s : State) : Host.Outcome State Fault Refusal := .next (doorbell s r.val 0x0023 k)

/-- `JOB_MAP_LOAD`. -/
def execJobMapLoad (r : Req) (k : Packet) (s : State) : Host.Outcome State Fault Refusal := .next (doorbell s r.val 0x0024 k)

/-- `COORD_LOAD`. -/
def execCoordLoad (r : Req) (k : Packet) (s : State) : Host.Outcome State Fault Refusal := .next (doorbell s r.val 0x0025 k)

/-- `IDENTITY_SET`. -/
def execIdentitySet (r : Req) (k : Packet) (s : State) : Host.Outcome State Fault Refusal := .next (doorbell s r.val 0x0026 k)

/-- `PLAN_LOAD`. -/
def execPlanLoad (r : Req) (k : Packet) (s : State) : Host.Outcome State Fault Refusal := .next (doorbell s r.val 0x0030 k)

/-- `PLAN_START`. -/
def execPlanStart (r : Req) (k : Packet) (s : State) : Host.Outcome State Fault Refusal := .next (doorbell s r.val 0x0031 k)

/-- `PLAN_STOP`. -/
def execPlanStop (r : Req) (k : Packet) (s : State) : Host.Outcome State Fault Refusal := .next (doorbell s r.val 0x0032 k)

/-- `WINDOW_GRANT`. -/
def execWindowGrant (r : Req) (k : Packet) (s : State) : Host.Outcome State Fault Refusal := .next (doorbell s r.val 0x0040 k)

/-- `WINDOW_REVOKE`. -/
def execWindowRevoke (r : Req) (k : Packet) (s : State) : Host.Outcome State Fault Refusal := .next (doorbell s r.val 0x0041 k)

/-- `SEAL_KEY`. -/
def execSealKey (r : Req) (k : Packet) (s : State) : Host.Outcome State Fault Refusal := .next (doorbell s r.val 0x0042 k)

/-- `LATCH_ORPHAN`. -/
def execLatchOrphan (r : Req) (k : Packet) (s : State) : Host.Outcome State Fault Refusal := .next (doorbell s r.val 0x0043 k)

/-- `SWAP_IN`. -/
def execSwapIn (r : Req) (k : Packet) (s : State) : Host.Outcome State Fault Refusal := .next (doorbell s r.val 0x0050 k)

/-- `SWAP_OUT`. -/
def execSwapOut (r : Req) (k : Packet) (s : State) : Host.Outcome State Fault Refusal := .next (doorbell s r.val 0x0051 k)

/-- `SHARD_FETCH`. -/
def execShardFetch (r : Req) (k : Packet) (s : State) : Host.Outcome State Fault Refusal := .next (doorbell s r.val 0x0052 k)

/-- `BUDDY_SET`. -/
def execBuddySet (r : Req) (k : Packet) (s : State) : Host.Outcome State Fault Refusal := .next (doorbell s r.val 0x0060 k)

/-- `STORM_NOW`. -/
def execStormNow (r : Req) (k : Packet) (s : State) : Host.Outcome State Fault Refusal := .next (doorbell s r.val 0x0061 k)

/-- `DRAIN_SET`. -/
def execDrainSet (r : Req) (k : Packet) (s : State) : Host.Outcome State Fault Refusal := .next (doorbell s r.val 0x0062 k)

/-- `RESTORE`. -/
def execRestore (r : Req) (k : Packet) (s : State) : Host.Outcome State Fault Refusal := .next (doorbell s r.val 0x0063 k)

/-- A doorbell of `MODE_SET` for one mode of Table 20-5; the packet names its mode. -/
def modeBell (s : State) (r mode : Nat) (k : Packet) : State :=
  if prm k 0 2 = mode then doorbell s r opModeSet k else s

/-- `MODE_SET` of mode 0x0001. -/
def execModeSetPowerCap (r : Req) (k : Packet) (s : State) : Host.Outcome State Fault Refusal := .next (modeBell s r.val 1 k)

/-- `MODE_SET` of mode 0x0002. -/
def execModeSetSlotSplit (r : Req) (k : Packet) (s : State) : Host.Outcome State Fault Refusal := .next (modeBell s r.val 2 k)

/-- `MODE_SET` of mode 0x0003. -/
def execModeSetHoldoverLimit (r : Req) (k : Packet) (s : State) : Host.Outcome State Fault Refusal := .next (modeBell s r.val 3 k)

/-- `MODE_SET` of mode 0x0004. -/
def execModeSetCheckValueMode (r : Req) (k : Packet) (s : State) : Host.Outcome State Fault Refusal := .next (modeBell s r.val 4 k)

/-- `MODE_SET` of mode 0x0005. -/
def execModeSetCheckValuePoly (r : Req) (k : Packet) (s : State) : Host.Outcome State Fault Refusal := .next (modeBell s r.val 5 k)

/-- `MODE_SET` of mode 0x0006. -/
def execModeSetFarTierWrites (r : Req) (k : Packet) (s : State) : Host.Outcome State Fault Refusal := .next (modeBell s r.val 6 k)

/-- `MODE_SET` of mode 0x0007. -/
def execModeSetExactBf16 (r : Req) (k : Packet) (s : State) : Host.Outcome State Fault Refusal := .next (modeBell s r.val 7 k)

/-- `MODE_SET` of mode 0x0008. -/
def execModeSetSealedFrames (r : Req) (k : Packet) (s : State) : Host.Outcome State Fault Refusal := .next (modeBell s r.val 8 k)

/-- `MODE_SET` of mode 0x0009. -/
def execModeSetStormInterval (r : Req) (k : Packet) (s : State) : Host.Outcome State Fault Refusal := .next (modeBell s r.val 9 k)

/-- `MODE_SET` of mode 0x000A, and of codes that Table 20-5 does not list: refused. -/
def execModeSetDrainInterval (r : Req) (k : Packet) (s : State) : Host.Outcome State Fault Refusal :=
  .next (if prm k 0 2 = 0 || 9 < prm k 0 2 then doorbell s r.val opModeSet k else s)

/-- `MODE_GET`. -/
def execModeGet (r : Req) (k : Packet) (s : State) : Host.Outcome State Fault Refusal := .next (doorbell s r.val 0x0071 k)

/-- `SELF_TEST`. -/
def execSelfTest (r : Req) (k : Packet) (s : State) : Host.Outcome State Fault Refusal := .next (doorbell s r.val 0x0080 k)

/-- `SHUTDOWN`. -/
def execShutdown (r : Req) (k : Packet) (s : State) : Host.Outcome State Fault Refusal := .next (doorbell s r.val 0x0081 k)

/-- `METER_READ`. -/
def execMeterRead (r : Req) (k : Packet) (s : State) : Host.Outcome State Fault Refusal := .next (doorbell s r.val 0x0090 k)

/-- `METER_IDENT`. -/
def execMeterIdent (r : Req) (k : Packet) (s : State) : Host.Outcome State Fault Refusal := .next (doorbell s r.val 0x0091 k)

/-- `EVENT_FREEZE`. -/
def execEventFreeze (r : Req) (k : Packet) (s : State) : Host.Outcome State Fault Refusal := .next (doorbell s r.val 0x00A0 k)

/-- `EVENT_READ`. -/
def execEventRead (r : Req) (k : Packet) (s : State) : Host.Outcome State Fault Refusal := .next (doorbell s r.val 0x00A1 k)

/-- `EVENT_THAW`. -/
def execEventThaw (r : Req) (k : Packet) (s : State) : Host.Outcome State Fault Refusal := .next (doorbell s r.val 0x00A2 k)

end Sys2Proof.Machine
end

