-- ==== Sys2Proof/WellFormed.lean ====
section
/-! DEFINITION. The commands whose operands a sender can form: the sizes that the manual's layouts give. -/

namespace Sys2Proof

/-- A slot's payload is 3,072 bytes (R233). -/
def SlotImg.wf (x : SlotImg) : Bool := x.payload.length == 3072

/-- A sill holds four credit counters and at most 16 replay requests (Table 09-2). -/
def Sill.wf (x : Sill) : Bool := x.creditRet.length == 4 && x.replayReq.length ≤ 16

/-- A packet's parameters are as long as it says, up to 992 bytes (Table 14-6). -/
def Packet.wf (k : Packet) : Bool := k.params.length == k.paramBytes.toNat && k.params.length ≤ 992

/-- A fragment carries at most 4,096 bytes (R513). -/
def FmFragment.wf (f : FmFragment) : Bool := f.bytes.length ≤ 4096

/-- A sensor that Table 20-4 lists: 0 to 4, 16 to 31, 32. -/
def sensorWf (n : Nat) : Bool := n ≤ 4 || (16 ≤ n && n ≤ 32)

/-- The operands are ones a sender can form. -/
def Instr.wf : Instr → Bool
  | .slotReceived _ rx => rx.img.wf
  | .sillReceived _ x _ => x.wf
  | .negotiateDone _ x => x.wf
  | .alignDone _ d => d ≤ 4095
  | .hello _ k | .ctxCreate _ k | .ctxTeardown _ k | .groupBind _ k | .ctxReset _ k | .engineReset _ k => k.wf
  | .paneReset _ k | .moduleReset _ k | .slotAlloc _ k | .streamShare _ k | .farQuota _ k | .latchAlloc _ k => k.wf
  | .jobMapLoad _ k | .coordLoad _ k | .identitySet _ k | .planLoad _ k | .planStart _ k | .planStop _ k => k.wf
  | .windowGrant _ k | .windowRevoke _ k | .sealKey _ k | .latchOrphan _ k | .swapIn _ k | .swapOut _ k => k.wf
  | .shardFetch _ k | .buddySet _ k | .stormNow _ k | .drainSet _ k | .restore _ k | .modeGet _ k => k.wf
  | .modeSetPowerCap _ k | .modeSetSlotSplit _ k | .modeSetHoldoverLimit _ k | .modeSetCheckValueMode _ k => k.wf
  | .modeSetCheckValuePoly _ k | .modeSetFarTierWrites _ k | .modeSetExactBf16 _ k => k.wf
  | .modeSetSealedFrames _ k | .modeSetStormInterval _ k | .modeSetDrainInterval _ k => k.wf
  | .selfTest _ k | .shutdown _ k | .meterRead _ k | .meterIdent _ k | .eventFreeze _ k | .eventRead _ k => k.wf
  | .eventThaw _ k | .escape _ k => k.wf
  | .stormFrameReceived f => f.length == 3072
  | .eventDelivery e => e.tick < 8192 && e.payload.length ≤ 232
  | .thermalThreshold n _ => sensorWf n.val
  | .vfEnableChange n => n ≤ 16
  | .meterUpdatePackage u => u.legalSha.length == 32 && (u.intervalMs == 10000 || u.intervalMs == 30000 || u.intervalMs == 60000)
  | .sbRegisterRead _ _ b => b == 8 || b == 16
  | .sbRegisterWrite _ _ b _ => b == 8
  | .fmRequestFragment f => f.wf
  | .fmFragmentReceived _ f => f.wf
  | _ => true

end Sys2Proof
end

