-- ==== Sys2Proof/Machine/Power.lean ====
section
/-! DEFINITION. Start-up and power-down (20_startup_power_and_modes.md, 22_package_and_electrical.md): the pins of
Table 22-4, the steps of Table 20-1, loss of power (R182, R465), thermal thresholds (R498 to R500), and the cap set on
the sideband (R496, R497). -/

namespace Sys2Proof.Machine

/-- The power unit changed. -/
def modPower (s : State) (f : PowerUnit → PowerUnit) : State := { s with power := f s.power }

/-! ### Loss of power (R182, R465, R491, R533) -/

/-- The hub loses its power: what it clears is cleared, and it stays in reset; `LAST_RESET` tells of it at the next
start. -/
def hubOff (s : State) (cause : BitVec 3) : State :=
  let s1 := hubClear (recorderReset s)
  { s1 with
    power := { s1.power with hubUp := false, pwrGood := false, thermTrip := false }
    faults := { s1.faults with lastReset := cause } }

/-- What the module does on bank power: the far tier's steps of Table 07-6, then the island's records. -/
def holdupActions (s : State) : State := islandLoss (farPowerLoss s)

/-- `INPUT_POWER_LOSS` (R182, R465, R533): the hold-up actions run to their end. -/
def execInputPowerLoss (s : State) : Host.Outcome State Fault Refusal :=
  if !s.power.input then .next s
  else .next (modPower (hubOff (holdupActions s) 0) fun p => { p with input := false, holdupOk := false })

/-- `BANK_CHARGED` (R485, R526): the bank is at 95 per cent of its design voltage. -/
def execBankCharged (s : State) : Host.Outcome State Fault Refusal :=
  .next (if s.power.pwrGood then modPower s fun p => { p with holdupOk := true } else s)

/-- `PWR_EN_ASSERT` (R485): the rails come up while the input is present; the tray holds `RESET_N` low until then. -/
def execPwrEnAssert (s : State) : Host.Outcome State Fault Refusal :=
  .next (if s.power.pwrEn then s
    else modPower s fun p => { p with pwrEn := true, pwrGood := p.input, resetN := false })

/-- `PWR_EN_DEASSERT` (R491, R532): before the module is parked it acts as a loss of input power. -/
def execPwrEnDeassert (s : State) : Host.Outcome State Fault Refusal :=
  if !s.power.pwrEn then .next s
  else
    let s1 := if s.test.parked then s else holdupActions s
    .next (modPower (hubOff s1 4) fun p => { p with pwrEn := false })

/-! ### Start-up (Table 20-1) -/

/-- A hub that has failed its test stays in reset (R412, R426). -/
def mayStart (s : State) : Bool := s.power.pwrEn && s.power.pwrGood && !s.faults.hubDead

/-- `RESET_N_RISE` (R485, R534): t0. The straps are sampled; power has been lost. -/
def execResetNRise (straps : BitVec 4) (s : State) : Host.Outcome State Fault Refusal :=
  if s.power.hubUp || !mayStart s then .next s
  else
    let s1 := modPower s fun p =>
      { p with resetN := true, straps := straps, sbAddr := 0x30 + straps.setWidth 8 }
    .next (hubStart (modFar s1 fun t => { t with powerLost := false }) false true)

/-- `RESET_N_PULSE` (R411, R532): a module reset. -/
def execResetNPulse (s : State) : Host.Outcome State Fault Refusal :=
  .next (if s.power.hubUp && mayStart s then moduleReset s 0 else s)

/-- `DOORKEEPER_READY` (R485 step 5, R348, R413): the firmware runs, and staged drains begin again. -/
def execDoorkeeperReady (s : State) : Host.Outcome State Fault Refusal :=
  if s.power.hubUp && !s.dk.ready && s.test.hub != tsActive && !s.faults.hubDead then
    let s1 : State := { s with
      dk := { s.dk with ready := true }, power := { s.power with fwRunning := s.power.firmware } }
    let staged := (s1.store.drains.filter fun e => e.2.staged).map Prod.fst
    .next (staged.foldl startDrain (selfResetOver s1 4 0))
  else .next s

/-- The start-up shutter of a pane begins (R348): cause 4, every far-tier space kept. -/
def startupShutter (s : State) (p : Nat) : State :=
  if (pane s p).shutter.isSome || (pane s p).state ≠ .shuttering then s
  else
    let s1 := zeroNear (zeroCells (shutterSpares s p) p) p
    let sh : Shutter :=
      { cause := 4, keepFar := true, d := s.time.beat, oldTag := 0, oldEpoch := (pane s p).epoch, farSeq := 0
        farZeroed := false, latchesFreed := 0, paneReset := false }
    modPane s1 p fun x => { x with shutter := some sh }

/-- `PANE_BRINGUP_DONE` (R485 steps 7 and 8): the panes are up, and the start-up shutter runs. -/
def execPaneBringupDone (s : State) : Host.Outcome State Fault Refusal :=
  if s.power.hubUp && s.dk.ready && !s.far.recovering && !s.power.broughtUp then
    .next ((List.range 16).foldl startupShutter (modPower s fun p => { p with broughtUp := true }))
  else .next s

/-! ### Thermal thresholds (R498 to R500, Table 20-4) -/

/-- Thresholds of a sensor: warning (also the clear threshold), trip, critical. -/
def thresholds (sensor : Nat) : Nat × Nat × Nat :=
  if sensor ≤ 4 then (95, 105, 125) else if sensor = 32 then (70, 80, 90) else (85, 95, 105)

/-- The sensor closest to its trip threshold, of those that have been read. -/
def hottest (temps : Tbl Nat) : Option (Nat × Nat) :=
  let gap (e : Nat × Nat) : Int := ((thresholds e.1).2.1 : Int) - e.2
  bestOf (fun a b => decide (gap a < gap b)) temps

/-- A sensor's reading and what the registers of Table 20-6 make of it. -/
def readSensor (s : State) (sensor celsius : Nat) : State :=
  modPower s fun p =>
    let temps := tblSet p.temps sensor celsius
    let h := (hottest temps).getD (sensor, celsius)
    { p with
      temps := temps, hotSensor := BitVec.ofNat 8 h.1, hotTemp := BitVec.ofNat 8 (min 255 h.2)
      tripWarn := temps.any fun e => (thresholds e.1).1 ≤ e.2
      coolSince := if temps.all fun e => e.2 < (thresholds e.1).1 then some (p.coolSince.getD s.time.beat) else none }

/-- `EV_THERMAL`. -/
def thermalEvent (s : State) (sensor tstate : Nat) : State :=
  record s 0x0700 srcDoorkeeper (if 16 ≤ sensor && sensor < 32 then sensor - 16 else noPane)
    (stampBytes s.time.beat s.time.tick srcDoorkeeper ++ natLe 1 sensor ++ natLe 1 tstate)

/-- A sensor has just reached a threshold. -/
def reaches (s : State) (sensor celsius level : Nat) : Bool :=
  tblGet 0 s.power.temps sensor < level && level ≤ celsius

/-- A thermal trip: the clock follows at the next boundary, and tests are suspended (R429, R499). -/
def enterTrip (s : State) (sensor : Nat) : State :=
  let s1 := thermalEvent s sensor 1
  if s.power.trip then s1
  else suspendAll (modPower s1 fun p =>
    { p with trip := true, trips := BitVec.ofNat 16 (satAdd 16 p.trips.toNat 1) })

/-- `THERMAL_THRESHOLD` (R499, R500): a sensor's reading. -/
def execThermalThreshold (sensor : Fin 33) (celsius : Nat) (s : State) : Host.Outcome State Fault Refusal :=
  if !s.power.hubUp || !sensorWf sensor.val then .next s
  else
    let t := thresholds sensor.val
    let s1 := readSensor s sensor.val celsius
    let s2 := if reaches s sensor.val celsius t.1 then thermalEvent s1 sensor.val 0 else s1
    let s3 := if reaches s sensor.val celsius t.2.1 then enterTrip s2 sensor.val else s2
    .next (if reaches s sensor.val celsius t.2.2 then
        modPower s3 fun p => { p with thermTrip := true, crit := true, critDue := true }
      else s3)

/-- `THERMAL_CLEAR` (R499): every sensor has been below its clear threshold for 4,096 beats. No rule says which sensor
the record names. -/
def execThermalClear (s : State) : Host.Outcome State Fault Refusal :=
  match s.power.trip, s.power.coolSince with
  | true, some b =>
    if b + 4096 ≤ s.time.beat then
      .next (thermalEvent (tookFree (modPower s fun p => { p with trip := false })) (Config.freeByte s.free 0).toNat 2)
    else .next s
  | _, _ => .next s

/-! ### The cap effecter (R496, R497) -/

/-- R496: a start compiled for a higher cap stops at the end of its step; one that has not begun is cancelled. -/
def stopForCap (s : State) (g : Group) : State :=
  match g.run with
  | some r =>
    if r.started then modRun s (leadOf g.members) fun r => { r with stopping := true } else dropRun s g
  | none => s

/-- The cap that the tray controller asks for. -/
def setCap (s : State) (m : BitVec 2) : State :=
  let above := s.groups.filter (aboveCap m)
  let pending := modPower s fun p => { p with capReq := m, capThrottle := p.capThrottle && decide (p.capMode.toNat < m.toNat) }
  if s.power.capMode.toNat < m.toNat then
    if above.isEmpty then applyCap s m else above.foldl stopForCap pending
  else if m.toNat < s.power.capMode.toNat && !anyStart s then applyCap s m
  else pending

/-- `CAP_EFFECTER_SET` (R496, R497); the setting 3 names no power mode. -/
def execCapEffecterSet (mode : BitVec 2) (s : State) : Host.Outcome State Fault Refusal :=
  .next (if s.power.hubUp && mode != 3 then setCap s mode else s)

/-! ### Firmware (R512) -/

/-- `PLDM_FIRMWARE_UPDATE` (R512): the image that the next step 5 loads; an image that is not accepted changes nothing. -/
def execPldmFirmwareUpdate (target : Fin 3) (accepted : Bool) (s : State) : Host.Outcome State Fault Refusal :=
  .next (if s.power.hubUp && s.dk.ready && accepted then
      modPower s fun p => { p with firmware := tblPut 0 p.firmware target.val (tblGet 0 p.firmware target.val + 1) }
    else s)

end Sys2Proof.Machine
end

