-- ==== Sys2Proof/Machine/Host.lean ====
section
/-! DEFINITION. The host's registers (21_host_and_storage_interfaces.md R503 to R511): what each register reads as and to
whom (R505, R506), word reads with their snapshots (R507), writes with the RW1C clears, the mailbox areas (Table 14-1),
the MSI-X table (R508), ATS invalidation (R509), and the resets and enabling of functions (R510, R511). -/

namespace Sys2Proof.Machine

/-! ### Register contents -/

/-- A register put together from fields, each with its lowest bit. -/
def pack (l : List (Nat × Nat)) : Nat := l.foldl (fun n f => n + f.1 * 2 ^ f.2) 0

/-- `BEAT_STATUS` (Table 02-4). -/
def beatStatus (s : State) : Nat :=
  pack [(timeCode s.time.mode, 62), (s.time.limitSel.toNat, 60), (s.time.phaseHits.toNat, 40)
    , (s.time.holdoverBeats.toNat, 0)]

/-- `BEAT_TRIM` (Table 02-5). -/
def beatTrim (s : State) : Nat := pack [(s.time.trimActive.toNat, 16), (s.time.trim.toNat, 0)]

/-- `FAR_WEAR` (Table 06-5). -/
def farWear (s : State) : Nat :=
  pack [(lifeUsed s.far, 56), (min (2 ^ 48 - 1) (s.far.written / 1000000000), 0)]

/-- Free blocks of the channel that has fewest. -/
def worstFree (s : State) : Nat := (List.range 64).foldl (fun n ch => min n (freeBlks s ch)) chanBlockCount

/-- `FAR_STATUS` (Table 07-8); the fields of the pools keep their reset values until `recover` is over. -/
def farStatus (s : State) : Nat :=
  let t := s.far
  let n := worstFree s
  let retired := (t.blocks.filter fun e => e.2.state == .retired).length
  let spread := (List.range 64).foldl (fun m ch => max m (eraseSpread s ch)) 0
  pack [(b2n t.readOnly, 63), (b2n t.holdupLow, 62), (b2n t.recovering, 61)
    , (if t.recovering then 0 else poolState n, 56), (if t.recovering then 0 else min 255 (n * 1000 / chanBlockCount), 48)
    , (min 65535 retired, 32), (t.uncorr.toNat, 16), (min 65535 spread, 0)]

/-- `RING_STATUS` (Table 10-8). -/
def ringStatus (s : State) : Nat :=
  let active := s.groups.foldl (fun n g => n + (g.run.elim 0 fun r => r.colls.length)) 0
  pack [(s.collU.holdsRaised.toNat, 48), (s.collU.holdPeriods.toNat, 32), (s.collU.abortsSeen.toNat, 16)
    , (min 255 active, 0)]

/-- `FAULT_STATUS` (Table 16-9). -/
def faultStatus (s : State) : Nat :=
  let f := s.faults
  pack [(b2n (warnActive s), 63), (b2n f.hubDegraded, 62), (b2n f.refSuspect, 61), (f.lastReset.toNat, 58)
    , (f.notices.length, 40), (f.noticesLost.toNat, 24), (f.declarations.toNat, 0)]

/-- A mask of panes whose test is in one of two states. -/
def testMask (s : State) (a b : BitVec 3) : Nat :=
  pack ((List.range 16).map fun p => (b2n ((testOf s p).tstate == a || (testOf s p).tstate == b), p))

/-- `TEST_SUMMARY` (Table 17-5). -/
def testSummary (s : State) : Nat :=
  pack [(s.test.hub.toNat, 61), (b2n s.test.parked, 60), (testMask s tsActive tsActive, 32)
    , (testMask s tsQueued tsSuspended, 16), (s.test.failedMask.toNat, 0)]

/-- `EVREC_STATUS` (Table 19-3). Its `SPILL_BLOCKED` follows `HOLDUP_LOW` (R478), which is 1 at reset (Table 07-8): it reads 1
there, where Table 19-3 gives the reset value 0 (DESIGN CHOICE, log entry 76). -/
def evrecStatus (s : State) : Nat :=
  let q := s.evrec
  pack [(q.nextRseq, 80), (q.lost.toNat, 56), (q.drops.toNat, 40), (b2n q.frozen, 39), (b2n (spillBlocked s), 38)
    , (q.wr / 8, 13)]

/-- `EVREC_SPILL` (Table 19-4); zero before a segment is durable. -/
def evrecSpill (s : State) : Nat := pack [(s.evrec.spilled.getD 0, 16)]

/-- `POWER_STATUS` (Table 20-6). -/
def powerStatus (s : State) : Nat :=
  let p := s.power
  pack [(p.capMode.toNat, 62), (p.capReq.toNat, 60), (b2n p.capThrottle, 59), (b2n p.trip, 58), (b2n p.tripWarn, 57)
    , (b2n p.crit, 56), (p.hotSensor.toNat, 48), (p.hotTemp.toNat, 40), (p.inputW.toNat, 16), (p.trips.toNat, 0)]

/-- `PORT_STATUS` (Table 09-8). -/
def portStatus (s : State) (port : Nat) : Nat :=
  let x := portOf s port
  pack [(x.state.toNat, 60), (x.idleLane.toNat, 57), (x.split.toNat, 55), (b2n x.splitMismatch, 54), (x.cvPoly.toNat, 52)
    , (b2n x.cvMode, 51), (x.llMajor.toNat, 47), (x.llMinor.toNat, 43), (x.linkDelay.toNat, 31)
    , (x.peerDevice.toNat, 15), (x.peerPort.toNat, 12)]

/-- `PORT_ERRORS` (Table 09-9). -/
def portErrors (s : State) (port : Nat) : Nat :=
  let e := tblGet PortErrors.reset s.links.errors port
  pack [(e.fecCorrected.toNat, 40), (e.fecUncorr.toNat, 24), (e.replays.toNat, 8), (e.checkFails.toNat, 0)]

/-- `CV_LEDGER` (Table 09-10). -/
def cvLedger (s : State) (u : Nat) : Nat :=
  let x := cvOf s u
  pack [(x.value.toNat, 64), (x.stream.toNat, 48), (x.func.toNat, 43), (x.lstate.toNat, 41), (b2n x.uncovered, 40)]

/-- An entry of `TEST_LEDGER` (Table 17-3). -/
def testLedger (s : State) (e : Nat) : Nat :=
  let x := ledgerOf s e
  pack [(x.signature.toNat, 64), (x.steppingTag.toNat, 48), (x.count.toNat, 32), (x.result.toNat, 28), (b2n x.used, 27)]

/-- `PLAN_STATE` (Table 13-10). -/
def planState (g : Group) : Nat :=
  if g.plan.isNone then 0
  else if g.ended.isSome then 4
  else match g.run with
    | some r => if r.started then 3 else 2
    | none => 1

/-- `PANE_CTX_STATUS` (Table 13-10). -/
def paneCtxStatus (s : State) (p : Nat) : Nat :=
  let x := pane s p
  let g := groupOf s p
  pack [(paneStateCode x.state, 60), (g.elim 0 planState, 57), (g.elim 0 fun g => leadOf g.members, 53)
    , (x.epoch.toNat, 32), (x.jobTag.toNat, 0)]

/-- `PANE_SEQ_STATUS` (Table 03-5). -/
def paneSeqStatus (x : Pane) : Nat := pack [(x.regs.heldBeats.toNat, 32), (x.regs.lateMax.toNat, 0)]

/-- Spares of a stack or of a pane's cells that are neither retired nor in use. -/
def sparesFree (lo n : Nat) (retired : Nat → Bool) (used : List Nat) : Nat :=
  (((List.range n).map (lo + ·)).filter fun i => !retired i && !used.contains i).length

/-- `PANE_CELL_STATUS` (Table 03-7). -/
def paneCellStatus (x : Pane) : Nat :=
  pack [(b2n (usableCells x < 32), 63), (sparesFree 32 2 (x.retired.getLsbD ·) (cellSparesUsed x), 34)
    , (x.retired.toNat, 0)]

/-- `NEAR_STATUS` (Table 06-2). -/
def nearStatus (x : Pane) : Nat :=
  let n := x.near
  pack [(b2n n.short, 63), (sparesFree 64 4 (n.pcRetired.getLsbD ·) (pcSparesUsed n), 56), (n.ceCount.toNat, 32)
    , (n.ueCount.toNat, 16), (n.lastUePc.toNat, 0)]

/-- `RMO_STATUS` (Table 08-11). -/
def rmoStatus (x : Pane) : Nat :=
  pack [(x.rmo.timeouts.toNat, 48), (x.rmo.nacksIn.toNat, 32), (x.rmo.retries.toNat, 16), (x.rmo.sealFails.toNat, 0)]

/-- `CTX_SLOWDOWN` (Table 13-7). -/
def ctxSlowdown (x : Pane) : Nat :=
  pack [(x.regs.lastStepBeats.toNat, 40), (x.regs.slowdown.toNat, 16), (x.regs.stepsDone.toNat, 0)]

/-- `HOLD_CAUSES` (Table 13-8). -/
def holdCauses (x : Pane) : Nat :=
  pack [(x.regs.ownLate.toNat, 48), (x.regs.streamLate.toNat, 32), (x.regs.notReady.toNat, 16), (x.regs.peerHold.toNat, 0)]

/-- `FAR_SPACE` (Table 13-11). -/
def farSpace (s : State) (p : Nat) : Nat :=
  pack [(b2n (pane s p).kept, 63), (min 4095 (tblGet 0 s.far.quotas p), 32), ((pane s p).ownerTag.toNat, 0)]

/-- `COLL_STATUS` (Table 10-7). -/
def collStatus (x : Pane) : Nat :=
  let c := x.coll
  pack [(c.abortBeat.toNat, 80), (c.origin.toNat, 64), (c.coll.toNat, 48), (c.hops.toNat, 40), (c.trigger.toNat, 34)
    , (b2n c.aborted, 33), (b2n c.originSelf, 32), (c.job.toNat, 0)]

/-- `CTX_FAULT` (Table 16-4). -/
def ctxFaultReg (x : Pane) : Nat :=
  let f := x.ctxFault
  pack [(f.beat.toNat, 80), (f.job.toNat, 48), (f.epoch.toNat, 32), (f.source.toNat, 16), (f.fcode.toNat, 8)
    , (f.lcell.toNat, 2)]

/-- `STORM_STATUS` (Table 15-5), of the group that a pane leads. -/
def stormStatus (s : State) (p : Nat) : Nat :=
  match groupLed s p with
  | some g =>
    let x := g.status
    pack [(x.drainedStep.toNat, 80), (x.drainState.toNat, 70), (b2n x.buddyLost, 69)
      , (b2n (g.copies.any fun c => c.commitBeat.isNone), 68), (x.lastBuf.toNat, 66), (x.commitStep.toNat, 16)
      , (x.abandoned.toNat, 0)]
  | none => 0

/-- `TEST_STATUS` (Table 17-4). -/
def testStatus (s : State) (p : Nat) : Nat :=
  let t := testOf s p
  let live := t.tstate == tsActive || t.tstate == tsSuspended
  pack [(t.tstate.toNat, 61), (if live then t.phase else 0, 58), (readyBeat s p, 0)]

/-- `CELL_MAP` (Table 03-8). -/
def cellMap (s : State) (p : Nat) : Nat := pack ((List.range 32).map fun l => (physOf s p l, 8 * l))

/-- `HSTATE` codes. -/
def heldCode : HState → Nat
  | .empty => 0 | .opened => 1 | .committed => 2

/-- An entry of `STORM_HELD` (Table 15-6). -/
def stormHeld (x : Pane) (k : Nat) : Nat :=
  match tblFind x.held k with
  | some h =>
    pack [(h.step.toNat, 80), (h.srcDevice.toNat, 64), (h.srcPane.toNat, 60), (k % 3, 58), (heldCode h.hstate, 56)
      , (h.frames.toNat, 0)]
  | none => 0

/-! ### The registers by offset (Tables 21-2 and 21-3) -/

/-- A register: its first offset in its block, its 64-bit words, its value, and whether the sideband and a virtual
function may read it. -/
structure RegView where
  base : Nat
  words : Nat
  value : Nat
  sb : Bool
  vf : Bool
  deriving DecidableEq, Repr

/-- A module register, by offset (Table 21-2). -/
def moduleReg (s : State) (o : Nat) : Option RegView :=
  let one (value : Nat) (sb : Bool) : Option RegView := some { base := o, words := 1, value := value, sb := sb, vf := false }
  let two (first e value : Nat) (sb : Bool) : Option RegView :=
    some { base := first + 16 * e, words := 2, value := value, sb := sb, vf := false }
  if o < 0x040 then
    match o / 8 with
    | 0 => one (beatStatus s) true
    | 1 => one (beatTrim s) true
    | 2 => one (farWear s) false
    | 3 => one (farStatus s) false
    | 4 => one (ringStatus s) false
    | 5 => one (faultStatus s) true
    | 6 => one (testSummary s) true
    | _ => one (meterStatus s.island) true
  else if o < 0x050 then two 0x040 0 (evrecStatus s) true
  else if o = 0x050 then one (evrecSpill s) false
  else if o = 0x058 then one s.evrec.limit false
  else if o = 0x060 then one (powerStatus s) true
  else if 0x100 ≤ o && o < 0x130 then one (portStatus s ((o - 0x100) / 8)) true
  else if 0x140 ≤ o && o < 0x170 then one (portErrors s ((o - 0x140) / 8)) false
  else if 0x180 ≤ o && o < 0x240 then two 0x180 ((o - 0x180) / 16) (cvLedger s ((o - 0x180) / 16)) false
  else if 0x300 ≤ o && o < 0x410 then two 0x300 ((o - 0x300) / 16) (testLedger s ((o - 0x300) / 16)) true
  else none

/-- R355: a virtual function reads `FAR_SPACE` only while its own job tag is recorded there. -/
def ownSpace (x : Pane) : Bool := x.ownerTag == x.jobTag

/-- A register of the block of pane P`p`, by offset (Table 21-3). -/
def paneReg (s : State) (p o : Nat) : Option RegView :=
  let x := pane s p
  let reg (base words value : Nat) (sb vf : Bool) : Option RegView :=
    some { base := base, words := words, value := value, sb := sb, vf := vf }
  if o = 0x000 then reg 0x000 1 (paneCtxStatus s p) true true
  else if o = 0x008 then reg 0x008 1 (paneSeqStatus x) false true
  else if o = 0x010 then reg 0x010 1 (paneCellStatus x) false true
  else if o = 0x018 then reg 0x018 1 (nearStatus x) false true
  else if o < 0x030 then reg 0x020 2 x.near.pcRetired.toNat false true
  else if o = 0x030 then reg 0x030 1 (rmoStatus x) false true
  else if o = 0x038 then reg 0x038 1 (ctxSlowdown x) false true
  else if o = 0x040 then reg 0x040 1 (holdCauses x) false true
  else if o = 0x048 then reg 0x048 1 (farSpace s p) false (ownSpace x)
  else if o < 0x060 then reg 0x050 2 (collStatus x) false true
  else if o < 0x070 then reg 0x060 2 (ctxFaultReg x) true false
  else if o < 0x080 then reg 0x070 2 (stormStatus s p) true true
  else if o = 0x080 then reg 0x080 1 (testStatus s p) true false
  else if o < 0x0A0 then none
  else if o < 0x0C0 then reg 0x0A0 4 (cellMap s p) false true
  else if o < 0x100 then reg 0x0C0 8 (leNat x.cert) false true
  else if o < 0x200 then reg o 1 (tblGet 0 x.arith ((o - 0x100) / 8)).toNat false true
  else if o < 0x2C0 then
    let k := (o - 0x200) / 16
    reg (0x200 + 16 * k) 2 (stormHeld x k) true false
  else none

/-! ### Places in the BARs (Table 21-1) -/

/-- What an access of a function addresses. -/
inductive Place where
  /-- A mailbox, and the offset in it. -/
  | mailbox (r o : Nat)
  /-- The module registers. -/
  | moduleRegs (o : Nat)
  /-- A pane block. -/
  | paneBlock (p o : Nat)
  /-- A virtual function's view of `CV_LEDGER`. -/
  | cvView (o : Nat)
  /-- The MSI-X table and PBA. -/
  | msixTable (o : Nat)
  /-- Reserved: reads as zero, writes ignored. -/
  | reserved
  /-- Beyond the BAR. -/
  | beyond
  deriving DecidableEq, Repr

/-- The place of an offset; bit 20 selects BAR 2. -/
def placeOf (fn : Nat) (ofs : Nat) : Place :=
  let o := ofs % 2 ^ 20
  if bitAt ofs 20 then (if o < 0x1000 then .msixTable o else .beyond)
  else if o < 0x1000 then .mailbox fn o
  else if fn = 0 then
    if o < 0x20000 then .reserved
    else if o < 0x21000 then .moduleRegs (o - 0x20000)
    else if o < 0x80000 then .reserved
    else if o < 0x90000 then .paneBlock ((o - 0x80000) / 0x1000) (o % 0x1000)
    else .reserved
  else if o < 0x2000 then .paneBlock (fn - 1) (o - 0x1000)
  else if o < 0x20C0 then .cvView (o - 0x2000)
  else if o < 0x4000 then .reserved
  else .beyond

/-- The function that makes an access: 0 the physical function, n virtual function n; none for the others. -/
def accessFn : Accessor → Option Nat
  | .pf => some 0
  | .vf n => some (n.val + 1)
  | .sideband => none
  | .fm => none

/-- Word `k` of a value. -/
def wordOf (v k : Nat) : Nat := fld v (64 * k + 63) (64 * k)

/-- R507: one aligned 8-byte access by a function that exists; anything else is an Unsupported Request. -/
def accessOk (s : State) (fn ofs size : Nat) : Bool :=
  size == 8 && ofs % 8 == 0 && (fn == 0 || vfExists s fn) && placeOf fn ofs != .beyond

/-! ### Reads (R506, R507) -/

/-- `MSTATE` and `ESTATE` codes. -/
def mstateCode : MState → Nat
  | .idle => 0 | .waiting => 1 | .running => 2 | .done => 3

/-- `ESTATE` codes (Table 14-3). -/
def estateCode : MState → Nat
  | .done => 3 | .running => 1 | _ => 0

/-- Eight bytes of a reply area. -/
def replyWord (r : Option Reply) (size o : Nat) : Nat :=
  leAt (bytesAt ((r.map replyBytes).getD []) 0 size) o 8

/-- Eight bytes of a request area. -/
def areaWord (t : Tbl Byte) (o : Nat) : Nat := leNat ((List.range 8).map fun i => tblGet 0 t (o + i))

/-- A read in a mailbox (Table 14-1); `MBX_DOORBELL` and `MBX_ESCAPE` are write-only. -/
def readMailbox (s : State) (r o : Nat) : Nat :=
  let m := mbx s r
  if o = 0x010 then
    pack [(mstateCode m.mstate, 62), (if r = 0 then estateCode s.dk.esc.estate else 0, 60), (m.stateBeat, 0)]
  else if o = 0x018 then pack [(m.refusals.toNat, 48), (m.atBeat, 0)]
  else if o = 0x020 then pack [(b2n (m.escIe && r == 0), 1), (b2n m.doneIe, 0)]
  else if o < 0x400 then 0
  else if o < 0x800 then areaWord m.request (o - 0x400)
  else if o < 0xC00 then replyWord m.reply 1024 (o - 0x800)
  else if r ≠ 0 then 0
  else if o < 0xC40 then areaWord s.dk.esc.request (o - 0xC00)
  else if o < 0xC60 then replyWord s.dk.esc.reply 32 (o - 0xC40)
  else 0

/-- R506, R254: what a function sees of a check-value unit through its own view. -/
def ownCv (s : State) (fn u : Nat) : Nat :=
  let x := cvOf s u
  if holdsContext s (fn - 1) && x.lstate == 1 && x.func.toNat == fn then cvLedger s u else 0

/-- The register that an access of a function addresses, as the function sees it (R506): its first offset in the BAR,
its words and its value. -/
def seenReg (s : State) (fn ofs : Nat) : Option (Nat × Nat × Nat) :=
  let see (o : Nat) (v : RegView) : Nat × Nat × Nat :=
    (ofs - o + v.base, v.words,
      if fn = 0 || (v.vf && holdsContext s (fn - 1)) then v.value else 0)
  match placeOf fn ofs with
  | .moduleRegs o => (moduleReg s o).map (see o)
  | .paneBlock p o => (paneReg s p o).map (see o)
  | .cvView o => some (ofs - o % 16, 2, ownCv s fn (o / 16))
  | _ => none

/-- The word at an offset that holds no register of a chapter. -/
def plainWord (s : State) (fn ofs : Nat) : Nat :=
  match placeOf fn ofs with
  | .mailbox r o => readMailbox s r o
  | .msixTable o =>
    if o < 16 * (if fn = 0 then 4 else 1) || o = 0x800 then leNat ((List.range 8).map fun i => msixByte s fn (o + i)) else 0
  | _ => 0

/-- R507: the word read, and the snapshot that the function then has. -/
def readWord (s : State) (fn ofs : Nat) : Nat × Option (Nat × List (BitVec 64)) :=
  match seenReg s fn ofs with
  | some (base, words, value) =>
    let k := (ofs - base) / 8
    if words = 1 then (value, none)
    else if k = 0 then
      (wordOf value 0, some (base, (List.range words).map fun i => BitVec.ofNat 64 (wordOf value i)))
    else match tblFind s.host.snaps fn with
      | some (b, ws) => if b = base then ((ws.getD k 0).toNat, some (b, ws)) else (wordOf value k, none)
      | none => (wordOf value k, none)
  | none => (plainWord s fn ofs, none)

/-- The state with the completion of an access. -/
def complete (s : State) (c : Completion) : State := { s with host := { s.host with last := c } }

/-- A function's snapshot replaced. -/
def setSnap (s : State) (fn : Nat) (x : Option (Nat × List (BitVec 64))) : State :=
  { s with host := { s.host with snaps := match x with
      | some v => tblSet s.host.snaps fn v
      | none => tblDel s.host.snaps fn } }

/-- `WIDE_REGISTER_READ` (R506, R507). The sideband and the fabric manager have no access of this kind. -/
def execWideRegisterRead (by' : Accessor) (ofs : BitVec 21) (size : Nat) (s : State) :
    Host.Outcome State Fault Refusal :=
  match accessFn by' with
  | some fn =>
    if !hubAnswers s then .next s
    else if !accessOk s fn ofs.toNat size then .next (complete s .unsupported)
    else
      let w := readWord s fn ofs.toNat
      .next (complete (setSnap s fn w.2) (.data (BitVec.ofNat 64 w.1)))
  | none => .next s

/-! ### Writes (R506, R507) -/

/-- RW1C: a field is cleared when any bit of it is written with 1. -/
def clearIf {w : Nat} (value hi lo : Nat) (x : BitVec w) : BitVec w := if fld value hi lo = 0 then x else 0

/-- `BEAT_TRIM` and `PHASE_HITS`. -/
def writeTrim (s : State) (by' : Accessor) (value : BitVec 32) : State :=
  match execBeatTrimWrite by' value s with
  | .next t => t
  | _ => s

/-- A write by the physical function to a module register (Table 21-2). -/
def writeModule (s : State) (o v : Nat) : State :=
  match o with
  | 0x000 => { s with time := { s.time with phaseHits := clearIf v 55 40 s.time.phaseHits } }
  | 0x008 => writeTrim s .pf (BitVec.ofNat 32 v)
  | 0x018 => modFar s fun t => { t with uncorr := clearIf v 31 16 t.uncorr }
  | 0x020 => { s with collU := { s.collU with
      holdsRaised := clearIf v 63 48 s.collU.holdsRaised, holdPeriods := clearIf v 47 32 s.collU.holdPeriods
      abortsSeen := clearIf v 31 16 s.collU.abortsSeen } }
  | 0x028 => { s with faults := { s.faults with
      refSuspect := s.faults.refSuspect && !bitAt v 61, noticesLost := clearIf v 39 24 s.faults.noticesLost
      declarations := clearIf v 23 0 s.faults.declarations } }
  | 0x040 => modRec s fun q => { q with lost := clearIf v 63 56 q.lost }
  | 0x048 => modRec s fun q => { q with lost := clearIf v 15 0 q.lost }
  | 0x058 => if 1 ≤ fld v 8 0 && fld v 8 0 ≤ 256 then modRec s fun q => { q with limit := fld v 8 0 } else s
  | 0x060 => modPower s fun p => { p with trips := clearIf v 15 0 p.trips }
  | _ =>
    if 0x140 ≤ o && o < 0x170 then modErrs s ((o - 0x140) / 8) fun e =>
      { fecCorrected := clearIf v 63 40 e.fecCorrected, fecUncorr := clearIf v 39 24 e.fecUncorr
        replays := clearIf v 23 8 e.replays, checkFails := clearIf v 7 0 e.checkFails }
    else if 0x180 ≤ o && o < 0x240 && (o - 0x180) % 16 = 0 then
      modCv s ((o - 0x180) / 16) fun x => { x with uncovered := x.uncovered && !bitAt v 40 }
    else s

/-- A write by the physical function to a pane block (Table 21-3). -/
def writePane (s : State) (p o v : Nat) : State :=
  match o with
  | 0x008 => modPane s p fun x => { x with regs := { x.regs with lateMax := clearIf v 31 0 x.regs.lateMax } }
  | 0x018 => modPane s p fun x => { x with near := { x.near with
      ceCount := clearIf v 55 32 x.near.ceCount, ueCount := clearIf v 31 16 x.near.ueCount } }
  | 0x030 => modPane s p fun x => { x with rmo := { x.rmo with
      timeouts := clearIf v 63 48 x.rmo.timeouts, nacksIn := clearIf v 47 32 x.rmo.nacksIn
      retries := clearIf v 31 16 x.rmo.retries, sealFails := clearIf v 15 0 x.rmo.sealFails } }
  | 0x050 => modPane s p fun x => { x with coll := { x.coll with aborted := x.coll.aborted && !bitAt v 33 } }
  | 0x070 => modGroup s p fun g => { g with status := { g.status with abandoned := clearIf v 15 0 g.status.abandoned } }
  | _ =>
    if 0x100 ≤ o && o < 0x200 then
      let l := (o - 0x100) / 8
      modPane s p fun x => { x with arith := tblPut 0 x.arith l (tblGet 0 x.arith l &&& ~~~(BitVec.ofNat 8 v)) }
    else s

/-- Bytes of an area of `n` bytes replaced. -/
def writeArea (t : Tbl Byte) (o v : Nat) : Tbl Byte :=
  ((natLe 8 v).zipIdx).foldl (fun t b => tblPut 0 t (o + b.2) b.1) t

/-- The packet that a request area holds (Table 14-6), with `n` parameter bytes at most; a DMA at `BULK_ADDR` reads bytes
that only the host knows. -/
def areaPacket (s : State) (t : Tbl Byte) (n : Nat) : State × Nat × Packet :=
  let g (o len : Nat) : Nat := leNat ((List.range len).map fun i => tblGet 0 t (o + i))
  let op := g 0 2
  let len := min n (g 8 2)
  let k : Packet :=
    { protoMajor := BitVec.ofNat 8 (g 2 1), rsvd3 := BitVec.ofNat 8 (g 3 1), seq := BitVec.ofNat 32 (g 4 4)
      paramBytes := BitVec.ofNat 16 (g 8 2), rsvd10 := BitVec.ofNat 48 (g 10 6), bulkAddr := BitVec.ofNat 64 (g 16 8)
      bulkLen := BitVec.ofNat 64 (g 24 8), params := (List.range len).map fun i => tblGet 0 t (32 + i), bulk := none }
  if bulkIn op && k.bulkLen.toNat ≤ 2 ^ 40 then
    (tookFree s, op, { k with bulk := some ((List.range k.bulkLen.toNat).map fun i => Config.freeByte s.free i) })
  else (s, op, { k with bulk := some [] })

/-- A write in a mailbox by its function (Table 14-1). -/
def writeMailbox (s : State) (r o v : Nat) : State :=
  if o = 0x000 then
    if bitAt v 0 then
      let k := areaPacket s (mbx s r).request 992
      doorbell k.1 r k.2.1 k.2.2
    else s
  else if o = 0x008 then
    if bitAt v 0 && r == 0 then
      let k := areaPacket s s.dk.esc.request 32
      escapeBell k.1 k.2.1 k.2.2
    else s
  else if o = 0x018 then modMbx s r fun m => { m with refusals := clearIf v 63 48 m.refusals }
  else if o = 0x020 then modMbx s r fun m => { m with escIe := bitAt v 1 && r == 0, doneIe := bitAt v 0 }
  else if 0x400 ≤ o && o < 0x800 then modMbx s r fun m => { m with request := writeArea m.request (o - 0x400) v }
  else if 0xC00 ≤ o && o < 0xC40 && r == 0 then
    { s with dk := { s.dk with esc := { s.dk.esc with request := writeArea s.dk.esc.request (o - 0xC00) v } } }
  else s

/-- R508: a pending vector whose mask bit is clear fires. -/
def firePending (s : State) (fn vector : Nat) : State :=
  let b := msixByte s fn 0x800
  if b.getLsbD vector && !vectorMasked s fn vector then
    msix (setMsixByte s fn 0x800 (b &&& ~~~(1#8 <<< vector))) fn vector
  else s

/-- A write to a function's MSI-X table; the PBA is read-only. -/
def writeMsix (s : State) (fn o v : Nat) : State :=
  let n := if fn = 0 then 4 else 1
  if o < 16 * n then
    let s1 := ((natLe 8 v).zipIdx).foldl (fun s b => setMsixByte s fn (o + b.2) b.1) s
    (List.range n).foldl (fun s i => firePending s fn i) s1
  else s

/-- What a write by a function does (R506): fields of other chapters are the physical function's alone to write. -/
def writeWord (s : State) (fn ofs v : Nat) : State :=
  match placeOf fn ofs with
  | .mailbox r o => writeMailbox s r o v
  | .moduleRegs o => if fn = 0 then writeModule s o v else s
  | .paneBlock p o => if fn = 0 then writePane s p o v else s
  | .msixTable o => writeMsix s fn o v
  | _ => s

/-- `REGISTER_WRITE` (R506, R507). The fabric manager's one write is that of `BEAT_TRIM` (R41). -/
def execRegisterWrite (by' : Accessor) (ofs : BitVec 21) (size : Nat) (value : BitVec 64) (s : State) :
    Host.Outcome State Fault Refusal :=
  match accessFn by' with
  | some fn =>
    if !hubAnswers s then .next s
    else if !accessOk s fn ofs.toNat size then .next (complete s .unsupported)
    else .next (complete (writeWord s fn ofs.toNat value.toNat) .written)
  | none => .next s

/-! ### Functions reset and enabled (R509 to R511) -/

/-- A mailbox after its function's reset. -/
def idleMailbox (s : State) (r : Nat) : State :=
  modMbx s r fun m => { setMState s .idle m with doneIe := false, escIe := false, hello := false }

/-- R510: the command of a mailbox ends, and the mailbox is idle. -/
def resetMailbox (s : State) (r : Nat) : State :=
  let s1 := modMbx s r fun m => { m with doneIe := false, escIe := false }
  idleMailbox (endNow s1 r { status := stAborted, detail := 1 }) r

/-- `VF_FLR` of virtual function n + 1, which pane Pn belongs to (R510). -/
def execVfFlr (n : Pane16) (s : State) : Host.Outcome State Fault Refusal :=
  if !s.power.hubUp || !vfExists s (n.val + 1) then .next s
  else
    let s1 := resetMailbox s (n.val + 1)
    .next (if (pane s1 n.val).state = .opened then askContextReset s1 n.val else s1)

/-- `PF_FLR` (R510): mailbox 0, the escape and `VF Enable`; no context is touched. -/
def execPfFlr (s : State) : Host.Outcome State Fault Refusal :=
  if !s.power.hubUp then .next s
  else
    let s1 := endEscape (resetMailbox s 0) { status := stAborted, detail := 1 }
    .next { s1 with
      dk := { s1.dk with esc := { s1.dk.esc with estate := .idle } }, host := { s1.host with vfEnable := false } }

/-- `VF_ENABLE_CHANGE` (R511): `VF Enable` is cleared (0), or set with `NumVFs`; setting it finds every virtual
function's mailbox idle. -/
def execVfEnableChange (numVfs : Nat) (s : State) : Host.Outcome State Fault Refusal :=
  if !s.power.hubUp then .next s
  else if numVfs = 0 then .next { s with host := { s.host with vfEnable := false } }
  else if s.host.vfEnable then .next s
  else
    let s1 := (List.range 16).foldl (fun s i => idleMailbox s (i + 1)) s
    .next { s1 with host := { s1.host with vfEnable := true, numVfs := min 16 numVfs } }

/-- R509: a running transfer of a function uses the translation of a page. -/
def usesPage (s : State) (fn page : Nat) : Bool :=
  match (mbx s fn).job with
  | some j =>
    let w := bulkPages j.packet
    j.start.isSome && hasBulk j.opcode.toNat && w.1 ≤ page && page < w.1 + w.2
  | none => false

/-- `ATS_INVALIDATION` (R509): it completes once no transfer uses the translation, which is then gone. -/
def execAtsInvalidation (addr : BitVec 64) (fn : Fin 17) (s : State) : Host.Outcome State Fault Refusal :=
  let page := addr.toNat / 4096
  .next (if usesPage s fn.val page then s
    else { s with host := { s.host with ats := s.host.ats.filter fun e => e != (fn.val, page) } })

end Sys2Proof.Machine
end

