-- ==== Sys2Proof/Machine/Sideband.lean ====
section
/-! DEFINITION. The sideband (R512, R513, Table 21-4) and the fabric-manager channel (R514, Table 21-5). -/

namespace Sys2Proof.Machine

/-! ### Lazhaux messages on registers (R513) -/

/-- The word of the physical function's BAR0 at an offset: none where no register lies, `some none` where the sideband may
not read it. -/
def sbWord (s : State) (ofs : Nat) : Option (Option Nat) :=
  let look (o : Nat) (v : Option RegView) : Option (Option Nat) :=
    v.map fun v => if v.sb then some (wordOf v.value ((o - v.base) / 8)) else none
  match placeOf 0 ofs with
  | .mailbox _ _ => some none
  | .moduleRegs o => look o (moduleReg s o)
  | .paneBlock p o => look o (paneReg s p o)
  | _ => none

/-- The address and length of a register access can be right: aligned words within the BAR. -/
def sbRange (ofs : BitVec 32) (bytes : BitVec 16) : Bool :=
  (bytes == 8 || bytes == 16) && ofs.toNat % 8 == 0 && ofs.toNat + bytes.toNat ≤ 2 ^ 20

/-- The words of an access, or its `SSTATUS`. -/
def sbRead (s : State) (ofs : BitVec 32) (bytes : BitVec 16) : Nat × List Byte :=
  if !sbRange ofs bytes then (2, [])
  else
    let ws := (List.range (bytes.toNat / 8)).map fun i => sbWord s (ofs.toNat + 8 * i)
    if ws.any (· == none) then (2, [])
    else if ws.any (· == some none) then (1, [])
    else (0, ws.flatMap fun w => natLe 8 ((w.getD none).getD 0))

/-- A reply to a Lazhaux message that is no fragment. -/
def sbAnswer (s : State) (kind sstatus : Nat) (xid ofs : BitVec 32) (d : List Byte) : State :=
  pushSb s { kind := BitVec.ofNat 8 kind, sstatus := BitVec.ofNat 8 sstatus, device := 0, xid := xid, ofs := ofs, total := 0
             data := d }

/-- `SB_REGISTER_READ`. -/
def execSbRegisterRead (xid ofs : BitVec 32) (bytes : BitVec 16) (s : State) : Host.Outcome State Fault Refusal :=
  if !hubAnswers s then .next s
  else
    let r := sbRead s ofs bytes
    .next (sbAnswer s 1 r.1 xid ofs r.2)

/-- `SB_REGISTER_WRITE`: only `BEAT_TRIM` may be written (R41). -/
def execSbRegisterWrite (xid ofs : BitVec 32) (bytes : BitVec 16) (value : BitVec 64) (s : State) :
    Host.Outcome State Fault Refusal :=
  if !hubAnswers s then .next s
  else if !sbRange ofs bytes || sbWord s ofs.toNat = none then .next (sbAnswer s 2 2 xid ofs [])
  else if ofs = 0x20008 && bytes = 8 then .next (sbAnswer (writeTrim s .fm (value.setWidth 32)) 2 0 xid ofs [])
  else .next (sbAnswer s 2 1 xid ofs [])

/-- `SB_METER_IDENT` (R459, Table 18-5). -/
def execSbMeterIdent (xid : BitVec 32) (s : State) : Host.Outcome State Fault Refusal :=
  if !hubAnswers s then .next s
  else .next (sbAnswer s 5 0 xid 0 (meterIdent s))

/-! ### The fabric-manager channel (R514) -/

/-- `DEVICE` that names this module. -/
def ownDevice (s : State) (d : BitVec 16) : Bool := d == 0xFFFF || d == moduleId s

/-- A receipt to an entry module. -/
def sendReceipt (s : State) (entry : BitVec 16) (xid : BitVec 32) : State :=
  sendMgmt s entry (fragBytes
    { mtype := 0x04, device := entry, entry := entry, xid := xid, ofs := 0, total := 0, bytes := [] })

/-- A whole packet (Table 14-6 and its bulk bytes) runs as requester 17; `entry` is none on the entry module itself. -/
def fmRun (s : State) (entry : Option (BitVec 16)) (xid : BitVec 32) (d : List Byte) : State :=
  let op := leAt d 0 2
  let n := leAt d 8 2
  let k : Packet :=
    { protoMajor := BitVec.ofNat 8 (leAt d 2 1), rsvd3 := BitVec.ofNat 8 (leAt d 3 1), seq := BitVec.ofNat 32 (leAt d 4 4)
      paramBytes := BitVec.ofNat 16 n, rsvd10 := BitVec.ofNat 48 (leAt d 10 6), bulkAddr := BitVec.ofNat 64 (leAt d 16 8)
      bulkLen := BitVec.ofNat 64 (leAt d 24 8), params := bytesAt d 32 n, bulk := some (d.drop (32 + n)) }
  fmPacket s entry xid op k

/-- A request fragment at the module that runs it; the packet runs once it is whole, and a receipt goes back to another
entry module. -/
def fmAssemble (s : State) (entry : BitVec 16) (f : FmFragment) : State :=
  let mine (x : FmPacket) : Bool := x.entry == entry && x.xid == f.xid
  let old := (s.fm.partials.find? mine).getD { entry := entry, xid := f.xid, total := 0, bytes := [], got := 0 }
  let new : FmPacket :=
    { old with total := f.total.toNat, bytes := memWrite old.bytes f.ofs.toNat f.bytes, got := old.got + f.bytes.length }
  let rest := s.fm.partials.filter fun x => !mine x
  if new.got < new.total then { s with fm := { s.fm with partials := rest ++ [new] } }
  else
    let s1 := { s with fm := { s.fm with partials := rest } }
    let d := memRead new.bytes 0 new.total
    if entry = moduleId s then fmRun s1 none f.xid d
    else fmRun (sendReceipt s1 entry f.xid) (some entry) f.xid d

/-- What the entry module knows of a request that it relays, after another fragment of it. -/
def noteRelay (s : State) (f : FmFragment) : State :=
  let mine (x : FmRelay) : Bool := x.xid == f.xid
  let got := (((s.fm.relays.find? mine).map FmRelay.got).getD 0) + f.bytes.length
  let new : FmRelay :=
    { xid := f.xid, device := f.device, since := if got < f.total.toNat then none else some s.time.beat
      got := if got < f.total.toNat then got else 0 }
  { s with fm := { s.fm with relays := (s.fm.relays.filter fun x => !mine x) ++ [new] } }

/-- A sideband answer about a request. -/
def sbFragStatus (s : State) (sstatus : Nat) (device : BitVec 16) (xid : BitVec 32) : State :=
  pushSb s { kind := 0x04, sstatus := BitVec.ofNat 8 sstatus, device := device, xid := xid, ofs := 0, total := 0, data := [] }

/-- `FM_REQUEST_FRAGMENT` (R514): a kind 0x03 fragment on the sideband. -/
def execFmRequestFragment (f : FmFragment) (s : State) : Host.Outcome State Fault Refusal :=
  if !hubAnswers s then .next s
  else if 4096 < f.bytes.length || f.total.toNat < f.ofs.toNat + f.bytes.length then
    .next (sbFragStatus s 2 f.device f.xid)
  else if ownDevice s f.device then .next (fmAssemble s (moduleId s) f)
  else if (coordOf s f.device).isNone then .next (sbFragStatus s 3 f.device f.xid)
  else
    let cut := cutFrags 3040 (fun o b =>
      { f with mtype := 0x02, entry := moduleId s, ofs := f.ofs + BitVec.ofNat 32 o, bytes := b }) f.bytes
    .next (cut.foldl (fun s x => sendMgmt s f.device (fragBytes x)) (noteRelay s f))

/-- A reply fragment at the entry module: its sideband gets it. A relay that is no longer known leaves the target's name
open. -/
def fmReturn (s : State) (f : FmFragment) : State :=
  match s.fm.relays.find? (·.xid == f.xid) with
  | some x =>
    let got := x.got + f.bytes.length
    let rest := s.fm.relays.filter fun y => y.xid != f.xid
    let s1 := { s with fm := { s.fm with
      relays := if got < f.total.toNat then rest ++ [{ x with since := none, got := got }] else rest } }
    sbReply s1 x.device f
  | none => sbReply (tookFree s) ((Config.freeWord s.free).setWidth 16) f

/-- A fragment in a `MGMT` slot that has reached its module. -/
def fmArrive (s : State) (f : FmFragment) : State :=
  if f.mtype = 0x02 then fmAssemble s f.entry f
  else if f.mtype = 0x03 then fmReturn s f
  else
    { s with fm := { s.fm with relays := s.fm.relays.map fun x =>
        if x.xid == f.xid && x.since.isSome then { x with since := some s.time.beat } else x } }

/-- A fragment on its way through, for the path of R192. -/
def fmForward (s : State) (port : Nat) (slot : Option (Nat × Nat × Nat)) (f : FmFragment) : State :=
  sendParcel s { klass := 2, device := f.device, bytes := fragBytes f, pane := none, via := 16 + port
                 sealedHdr := none, slot := slot }

/-- A fragment (Table 21-5) read from a payload. -/
def parseFrag (d : List Byte) : FmFragment :=
  { mtype := BitVec.ofNat 8 (leAt d 0 1), device := BitVec.ofNat 16 (leAt d 2 2), entry := BitVec.ofNat 16 (leAt d 4 2)
    xid := BitVec.ofNat 32 (leAt d 8 4), ofs := BitVec.ofNat 32 (leAt d 12 4), total := BitVec.ofNat 32 (leAt d 16 4)
    bytes := bytesAt d 32 (min 3040 (leAt d 6 2)) }

/-- `FM_FRAGMENT_RECEIVED` (R514): a fragment arrives in a `MGMT` slot, to run or to go on. -/
def execFmFragmentReceived (port : PortId) (f : FmFragment) (s : State) : Host.Outcome State Fault Refusal :=
  if !s.power.hubUp || !portActive s port.val then .next s
  else if f.device = moduleId s then .next (fmArrive s f)
  else .next (fmForward s port.val none f)

/-- `FM_RECEIPT_REPEAT` (R514): every 512 beats while the packet's command waits or runs. -/
def execFmReceiptRepeat (s : State) : Host.Outcome State Fault Refusal :=
  match s.fm.current with
  | some (some e, xid, b) =>
    if b + 512 ≤ s.time.beat then
      .next (sendReceipt { s with fm := { s.fm with current := some (some e, xid, s.time.beat) } } e xid)
    else .next s
  | _ => .next s

/-- `FM_UNREACHABLE_TIMEOUT` (R514): 1,024 beats have passed for a relayed request. -/
def execFmUnreachableTimeout (s : State) : Host.Outcome State Fault Refusal :=
  let due (x : FmRelay) : Bool := x.since.elim false fun b => b + 1024 ≤ s.time.beat
  match s.fm.relays.find? due with
  | some x =>
    .next (sbFragStatus { s with fm := { s.fm with relays := s.fm.relays.filter fun y => y.xid != x.xid } } 3 x.device x.xid)
  | none => .next s

end Sys2Proof.Machine
end

