-- ==== Sys2Proof/Machine/Receive.lean ====
section
/-! DEFINITION. Slots as they arrive (09_clouzlink.md R233 to R248): error correction and check values, HOLD and ABORT
flags, Plan slots and `FORWARD` runs (R121 to R124, R234), sealed frames (R206), unscheduled slots in their order, and
replays (R243 to R245). -/

namespace Sys2Proof.Machine

/-! ### Codewords, check values and requests for replay -/

/-- R243: a slot is asked for again. -/
def askReplay (s : State) (p b n : Nat) : State :=
  modTraf s p fun t =>
    if t.wanted.any fun w => w.beat == b && w.slot == n then t
    else { t with wanted := t.wanted ++ [{ beat := b, slot := n, since := s.time.beat }] }

/-- Corrected symbols of a lane in use are counted (row E); a declared lane is retired (R226). -/
def countSymbols (p : Nat) (s : State) (e : Nat × Nat) : State :=
  let lane := e.2
  if e.1 = 0 || 4 < lane || (trafOf s p).lanesRx.getLsbD lane || idleOf (trafOf s p).lanesRx = lane then s
  else
    let r := countError s rowE (laneIndex p 1 lane) e.1
    if r.2 then retireLane r.1 p lane else r.1

/-- What the FEC reports of a slot's codewords (Table 09-9, rows E and F). -/
def countFec (s : State) (p : Nat) (rx : RxSlot) : State :=
  let s1 := modErrs s p fun e =>
    { e with fecCorrected := BitVec.ofNat 24 (satAdd 24 e.fecCorrected.toNat rx.correctedCodewords)
             fecUncorr := BitVec.ofNat 16 (satAdd 16 e.fecUncorr.toNat (b2n rx.uncorrectable)) }
  let s2 := rx.laneSymbols.zipIdx.foldl (countSymbols p) s1
  if rx.uncorrectable then
    let r := countError s2 rowF (2 * p + 1) 1
    if r.2 then retireLane r.1 p (worstLane r.1 p) else r.1
  else s2

/-- R238: the slot's `FRAME` check, with this module's own identifier, port and expected beat. -/
def checkHolds (s : State) (p : Nat) (x : SlotImg) : Bool :=
  !(portOf s p).cvMode
  || (x.hdr.cvPresent
      && x.check.toNat == slotCheck (portOf s p).cvPoly.toNat (moduleId s).toNat p (trafOf s p).rxBeat x.hdr x.payload)

/-- R238: a failed check is counted (row G); the slot is asked for again. -/
def failCheck (s : State) (p n : Nat) : State :=
  let s1 := modErrs s p fun e => { e with checkFails := BitVec.ofNat 8 (satAdd 8 e.checkFails.toNat 1) }
  let r := countError s1 rowG (2 * p + 1) 1
  if r.2 then failPort r.1 p pcLanes else askReplay r.1 p (trafOf s p).rxBeat n

/-- HOLD and ABORT of a header, whatever its kind (R235, R274, R281). -/
def readFlags (s : State) (h : SlotHdr) : State :=
  let s1 := if h.hold then receiveHold s h.holdJob else s
  if h.abort then receiveAbort s1 h.abortJob h.abortColl h.abortOrigin h.abortHops.toNat else s1

/-! ### Sealed frames that fail (R206) -/

/-- A failed frame is counted at the pane it was for, and recorded. -/
def sealFail (s : State) (q src kind : Nat) (srcDevice : BitVec 16) : State :=
  let s1 := modRmo s q fun u => { u with sealFails := BitVec.ofNat 16 (satAdd 16 u.sealFails.toNat 1) }
  record s1 0x0403 (srcPane q) q
    (natLe 4 (pane s q).jobTag.toNat ++ natLe 2 srcDevice.toNat ++ natLe 1 src ++ natLe 1 kind)

/-! ### Plan slots (R121 to R124, R234, R239, R244) -/

/-- R124: Plan data that no receive run covers is dropped and counted, with one event a beat. -/
def misplace (s : State) (p n : Nat) (g : Group) (pb : Nat) : State :=
  let lead := leadOf g.members
  let s1 := modGroup s lead fun g => { g with misplaced := g.misplaced + 1, misplacedBeat := some s.time.beat }
  if g.misplacedBeat = some s.time.beat then s1
  else record s1 0x0201 (srcPort p) lead
    (natLe 4 (groupTag s g).toNat ++ natLe 1 p ++ natLe 1 n ++ natLe 4 (pb % 2 ^ 32))

/-- R122, R244: a slot under a `FORWARD` run is to leave in the next plan beat; a replayed one at once. -/
def forwardSlot (s : State) (g : Group) (run : SlotRun) (pb idx : Nat) (replay : Option (Nat × Nat)) (x : SlotImg) :
    State :=
  let x' : SlotImg := { x with hdr := { x.hdr with planBeat := BitVec.ofNat 32 (pb + 1) } }
  modTraf s run.outPort fun t =>
    { t with fwd := t.fwd ++ [{ lead := leadOf g.members, planBeat := pb + 1, index := idx, img := x', asReplay := replay }] }

/-- The payload of a stream slot for a pane's context: opened when it is sealed; none when it fails (R206). -/
def openStream (s : State) (g : Group) (q : Nat) (x : SlotImg) : Option (List Byte) :=
  if x.hdr.isSealed then (sealKeyOf s q (leAt x.payload 3023 1)).bind fun k => openPayload k x.hdr x.payload
  else if g.isSealed then none else some x.payload

/-- R119, R121: one slot of a receive stream is written into its panes; the last of them completes the stream. -/
def landStream (s : State) (g : Group) (d : List Byte) (run : SlotRun) (pb idx : Nat) (data : List Byte) : State :=
  let st := planStream d run.stream
  let step := pb / max 1 (planStepBeats d)
  let k := runSlot run (pb % max 1 (planStepBeats d)) idx
  let size := slotData g.isSealed
  let bytes := data.take (min size (st.length - k * size))
  let lead := leadOf g.members
  let s1 := (planMaskPanes g st.paneMask).foldl (fun s q => nearWrite s q (gaOfs st.addr + k * size) bytes) s
  let key := step * 65536 + run.stream
  let got := match (groupLed s1 lead).bind (·.run) with
    | some r => tblGet 0 r.received key + 1
    | none => 0
  let s2 := modRun s1 lead fun r =>
    let r1 := { r with received := tblPut 0 r.received key got }
    match streamColl d st with
    | some i =>
      let ck := chunkKey step run.stream (k / max 1 (planColl d i).chunkSlots)
      { r1 with chunks := tblPut (0, 0) r.chunks ck ((tblGet (0, 0) r.chunks ck).1 + 1, max pb (runBeat r)) }
    | none => r1
  if got = streamSlots g.isSealed st then arriveRef s2 g st.doneLatch else s2

/-- A Plan slot under a receive run of a stream. -/
def takeStream (s : State) (p : Nat) (g : Group) (d : List Byte) (run : SlotRun) (pb idx : Nat) (x : SlotImg) : State :=
  let st := planStream d run.stream
  let q := (planMaskPanes g st.paneMask).headD (leadOf g.members)
  match openStream s g q x with
  | none =>
    let src := if x.hdr.isSealed then (leAt x.payload 3022 1, BitVec.ofNat 16 (leAt x.payload 3020 2))
               else (0xFF, x.hdr.srcDevice)
    contextFault (sealFail s q src.1 kPlan src.2) q fcSeal (srcPane q) noCell 0 0
  | some data =>
    let dest := mkGa (moduleId s).toNat (planPane g (gaPane st.addr)) 0 (gaOfs st.addr)
    let s1 := if (portOf s p).cvMode then s
              else cvSlot s p true g d run (pb % max 1 (planStepBeats d)) idx dest x.payload
    landStream s1 g d run pb idx data

/-- A Plan slot in its place: plan beat `pb`, physical slot `n` of port `p`. A `FORWARD` run covers what `PORT` receives,
whatever its `DIR` (log entry 71). -/
def placePlan (s : State) (p n : Nat) (g : Group) (d : List Byte) (r : Run) (pb : Nat) (replay : Option (Nat × Nat))
    (x : SlotImg) : State :=
  let idx := bitRank (allocOf s g p true) n
  let rel := pb % max 1 (planStepBeats d)
  let covers (y : SlotRun) : Bool := y.port == p && (y.rx || y.kindCode == 2) && runCovers y rel idx
  match if beyondEnd d r pb then none else (planRuns d).find? covers with
  | none => misplace s p n g pb
  | some run =>
    let s1 := meterTorus s (leadOf g.members) 3072
    if run.kindCode = 2 then forwardSlot s1 g run pb idx replay x else takeStream s1 p g d run pb idx x

/-- The plan beat that a module beat took for a run; none in a held beat (R123). -/
def takenAt (r : Run) (b : Nat) : Option Nat := (r.taken.find? fun e => e.1 == b).map Prod.snd

/-- A `PLAN` slot of beat `b` and slot `n` (R123, R124, R234, R241). A replay that a neighbour's `FORWARD` run has passed
on (`passed`) goes by the plan beat it carries. -/
def receivePlan (s : State) (p b n : Nat) (passed : Option (Nat × Nat)) (x : SlotImg) : State :=
  match slotOwner s p n true with
  | none => s
  | some g => match g.plan, g.run with
    | some d, some r =>
      if !r.started || !issuesStill s g then s
      else match passed with
        | some o => match (r.taken.map Prod.snd).find? fun pb => pb % 2 ^ 32 == x.hdr.planBeat.toNat with
          | some pb => placePlan s p n g d r pb (some o) x
          | none => s
        | none => match takenAt r b with
          | none => s
          | some pb =>
            if pb % 2 ^ 32 ≠ x.hdr.planBeat.toNat then misplace s p n g pb
            else placePlan s p n g d r pb (if x.hdr.kind.toNat = kReplay then some (b, n) else none) x
    | _, _ => s

/-! ### Unscheduled slots (R246 to R250) -/

/-- A message on its way through to another module (R192, R248). -/
def passOn (s : State) (key : Nat × Nat × Nat) (c : Nat) (device : BitVec 16) (bytes : List Byte)
    (sealed' : Option SlotHdr) : State :=
  sendParcel s { klass := c, device := device, bytes := bytes, pane := none, via := 16 + key.1, sealedHdr := sealed'
                 slot := some key }

/-- The module that a message is for. -/
def msgDevice (m : Msg) : BitVec 16 := if m.isResponse then m.srcDevice else BitVec.ofNat 16 (gaDevice m.target)

/-- The pane here that a message is for. -/
def msgPane (s : State) (m : Msg) : Option Nat := if m.isResponse then some m.srcPane.toNat else targetPane s m

/-- A message for this module: metered to its pane (R445), and delivered; an unsealed one for a sealed group fails
(R206). -/
def takeMsg (s : State) (m : Msg) : State :=
  let kind := if m.isResponse then kResponse else kRequest
  match msgPane s m with
  | some q =>
    if groupSealed s q && !m.isSealed then sealFail s q m.srcPane.toNat kind m.srcDevice
    else
      let s1 := meterTorus s q (msgBytes m).length
      if m.isResponse then deliverResponse s1 m else deliverRequest s1 m
  | none => deliverRequest s m

/-- A message of a slot: for this module, or on its way through. -/
def routeMsg (key : Nat × Nat × Nat) (c : Nat) (s : State) (m : Msg) : State :=
  if msgDevice m == moduleId s then takeMsg s m else passOn s key c (msgDevice m) (msgBytes m) none

/-- A `MGMT` message (Tables 09-7 and 21-5). Others have no layout: the commands that they stand for are rows of their
own. -/
def routeMgmt (s : State) (key : Nat × Nat × Nat) (d : List Byte) : State :=
  let t := leAt d 0 1
  if t = 0x01 then
    let device : BitVec 16 := BitVec.ofNat 16 (leAt d 2 2)
    let r : RefusalMsg :=
      { srcDevice := device, srcPane := BitVec.ofNat 4 (leAt d 1 1), tag := BitVec.ofNat 32 (leAt d 4 4)
        retryAt := leAt d 8 6 }
    if device == moduleId s then modRmo s r.srcPane.toNat fun u => { u with refQ := u.refQ ++ [r] }
    else passOn s key 2 device (bytesAt d 0 32) none
  else if 0x02 ≤ t && t ≤ 0x04 then
    let f := parseFrag d
    if f.device == moduleId s then fmArrive s f else fmForward s key.1 (some key) f
  else s

/-- A storm frame for a pane here (R387), metered to it; an unsealed one for a sealed group fails (R206). -/
def takeBulk (s : State) (d : List Byte) (isSealed : Bool) : State :=
  let q := gaPane (frameDest d)
  if groupSealed s q && !isSealed then sealFail s q 0xFF kBulk (frameHdr d).device
  else receiveFrame (meterTorus s q 3072) d

/-- A `BULK` payload in the clear: a storm frame for this module, or one on its way through. -/
def routeBulk (s : State) (key : Nat × Nat × Nat) (d : List Byte) : State :=
  let device : BitVec 16 := BitVec.ofNat 16 (gaDevice (frameDest d))
  if device == moduleId s then takeBulk s d false else passOn s key 3 device d none

/-- An unsealed slot of a class. -/
def takeClear (s : State) (key : Nat × Nat × Nat) (c : Nat) (d : List Byte) : State :=
  if c = 2 then routeMgmt s key d
  else if c = 3 then routeBulk s key d
  else (parseMsgs false 96 d).foldl (routeMsg key c) s

/-- The context here whose job a sealed slot names. -/
def sealPane (s : State) (tag : BitVec 32) : Option Nat :=
  (List.range 16).find? fun q => tag != 0 && (pane s q).jobTag == tag && holdsContext s q

/-- A sealed slot (R192, R204 to R206): one for another module is passed on unopened; one for this module is opened under
the key of its job and delivered, and fails where no context has the job or the key, or where it does not authenticate. A
module without a context of the job has no pane to count the failure at. -/
def takeSealed (s : State) (key : Nat × Nat × Nat) (c : Nat) (h : HeldSlot) : State :=
  let x := h.img
  if h.dest != moduleId s then passOn s key c h.dest x.payload (some x.hdr)
  else match sealPane s x.hdr.jobTag with
  | none => s
  | some q => match (sealKeyOf s q (leAt x.payload 3023 1)).bind fun k => openPayload k x.hdr x.payload with
    | none => sealFail s q (leAt x.payload 3022 1) (classKind c) (BitVec.ofNat 16 (leAt x.payload 3020 2))
    | some d =>
      if c = 3 then takeBulk s (bytesAt d 0 3072) true
      else (parseMsgs true 94 d).foldl takeMsg s

/-- R247: nothing that came in a slot is left in its buffer. -/
def slotEmpty (s : State) (key : Nat × Nat × Nat) : Bool :=
  (List.range 6).all fun p => (trafOf s p).out.all fun x => x.slot != some key

/-- An unscheduled slot is delivered; its place in the buffer is free once nothing of it waits. -/
def deliverSlot (s : State) (p : Nat) (h : HeldSlot) (kind : Nat) : State :=
  match kindClass kind with
  | none => s
  | some c =>
    let key := (p, h.beat, h.slot)
    let s1 := if h.img.hdr.isSealed then takeSealed s key c h else takeClear s key c h.img.payload
    if slotEmpty s1 key then modTraf s1 p fun t => { t with freed := tblPut 0 t.freed c ((tblGet 0 t.freed c + 1) % 65536) }
    else s1

/-! ### Order and replays (R244, R245) -/

/-- A slot of a beat comes before another. -/
def slotBefore (b n b' n' : Nat) : Bool := b < b' || (b == b' && n < n')

/-- R244: an earlier unscheduled slot of the port is still missing. -/
def mustWait (s : State) (p b n : Nat) : Bool :=
  (trafOf s p).wanted.any fun w => firstUnsched s p ≤ w.slot && slotBefore w.beat w.slot b n

/-- The kind that a slot's contents have: of a replay, its original kind. -/
def contentKind (x : SlotImg) : Nat := if x.hdr.kind.toNat = kReplay then x.hdr.origKind.toNat else x.hdr.kind.toNat

/-- A held-back slot takes its place in order. -/
def holdBack (h : HeldSlot) : List HeldSlot → List HeldSlot
  | [] => [h]
  | x :: r => if slotBefore h.beat h.slot x.beat x.slot then h :: x :: r else x :: holdBack h r

/-- An unscheduled slot is delivered, or held back behind one that is missing. -/
def inOrder (s : State) (p : Nat) (h : HeldSlot) : State :=
  if mustWait s p h.beat h.slot then modTraf s p fun t => { t with held := holdBack h t.held }
  else deliverSlot s p h (contentKind h.img)

/-- Held-back slots that wait for nothing any more are delivered. -/
def releaseHeld (s : State) (p : Nat) : State :=
  (trafOf s p).held.foldl (fun s h =>
    if mustWait s p h.beat h.slot then s
    else deliverSlot (modTraf s p fun t => { t with held := t.held.erase h }) p h (contentKind h.img)) s

/-- R245: a replay has arrived. -/
def countReplay (s : State) (p : Nat) : State :=
  let s1 := modErrs s p fun e => { e with replays := BitVec.ofNat 16 (satAdd 16 e.replays.toNat 1) }
  record s1 0x0400 (srcPort p) noPane
    (stampBytes s.time.beat s.time.tick (srcPort p) ++ natLe 1 p ++ natLe 1 1)

/-- A `REPLAY` slot: one that was asked for is delivered as though it had come in its own slot; one that has come already
is dropped; any other is a Plan slot that a neighbour forwards. -/
def receiveReplay (s : State) (p : Nat) (x : SlotImg) (dest : BitVec 16) : State :=
  let b := x.hdr.origBeat.toNat
  let n := x.hdr.origSlot.toNat
  let kind := x.hdr.origKind.toNat
  match (trafOf s p).wanted.find? fun w => w.beat % 2 ^ 32 == b && w.slot == n with
  | some w =>
    let s1 := countReplay (modTraf s p fun t =>
      { t with wanted := t.wanted.erase w, got := ((b, n) :: t.got).take 64 }) p
    let s2 := if kind = kPlan then receivePlan s1 p w.beat n none x
              else inOrder s1 p { beat := w.beat, slot := n, img := x, dest := dest }
    releaseHeld s2 p
  | none =>
    if (trafOf s p).got.contains (b, n) || kind ≠ kPlan then s
    else receivePlan (modTraf s p fun t => { t with got := ((b, n) :: t.got).take 64 }) p b n (some (b, n)) x

/-! ### `SLOT_RECEIVED` -/

/-- A slot that has come whole, by its kind (Table 09-3); one of a reserved kind is asked for again (R243). -/
def takeSlot (s : State) (p : Nat) (x : SlotImg) (dest : BitVec 16) : State :=
  let b := (trafOf s p).rxBeat
  let n := x.hdr.slotNo.toNat
  let kind := x.hdr.kind.toNat
  let s1 := readFlags s x.hdr
  if kRecal < kind then askReplay s1 p b n
  else if kind = kIdle || kind = kRecal then s1
  else if kind = kPlan then receivePlan s1 p b n none x
  else if kind = kReplay then receiveReplay s1 p x dest
  else inOrder s1 p { beat := b, slot := n, img := x, dest := dest }

/-- `SLOT_RECEIVED` (R233, R238, R243, R244): a slot arrives, is checked, and delivered by its kind. -/
def execSlotReceived (port : PortId) (rx : RxSlot) (s : State) : Host.Outcome State Fault Refusal :=
  let p := port.val
  if !s.power.hubUp || !portActive s p then .next s
  else
    let s1 := countFec s p rx
    let n := rx.img.hdr.slotNo.toNat
    if rx.uncorrectable then .next (askReplay s1 p (trafOf s p).rxBeat n)
    else if !checkHolds s1 p rx.img then .next (failCheck s1 p n)
    else .next (takeSlot s1 p rx.img rx.dest)

end Sys2Proof.Machine
end

