-- ==== Sys2Proof/Machine/Sync.lean ====
section
/-! DEFINITION. The `SYNC` class (Table 03-9, R53, R209, R213): waits on tokens, pane barriers, and latch operations on
the latches of the cell's own context. -/

namespace Sys2Proof.Machine

/-- `WAIT` on tokens: issue goes on once every named token is set. -/
def syncWaitOp (w : Nat) (c : Cell) : Cell :=
  let m := BitVec.ofNat 64 (fld w 63 0)
  if c.tokSet &&& m = m then stepPc c else c

/-- `SYNC_WAIT`. -/
def execSyncWait (p : Pane16) (c : LCell) (s : State) : Host.Outcome State Fault Refusal :=
  .next (issueWith (rowOp 0xA 0) (fun s p l w => modCell s p l (syncWaitOp w)) s p.val c.val)

/-- `PANE_BARRIER`: the cell arrives, and its issue stops there. -/
def execPaneBarrier (p : Pane16) (c : LCell) (s : State) : Host.Outcome State Fault Refusal :=
  .next (issueWith (rowOp 0xA 1) (fun s p l w =>
    let b := fld w 119 116
    modPane (modCell s p l fun c => { stepPc c with barrier := some (BitVec.ofNat 4 b) }) p fun x =>
      { x with barriers := tblPut 0 x.barriers b (tblGet 0 x.barriers b ||| (1#32 <<< l)) }) s p.val c.val)

/-- Every logical cell whose `SEQ_COUNT` is not zero has arrived. -/
def barrierFull (s : State) (p b : Nat) : Bool :=
  let m := tblGet 0 (pane s p).barriers b
  m != 0 && (List.range 32).all fun l => (cell s p l).seqCount == 0 || m.getLsbD l

/-- `BARRIER_COMPLETE`: issue goes on in every cell that has arrived. -/
def execBarrierComplete (p : Pane16) (bar : BitVec 4) (s : State) : Host.Outcome State Fault Refusal :=
  if barrierFull s p.val bar.toNat then
    let s1 := modCells s p.val fun c => if c.barrier = some bar then { c with barrier := none } else c
    .next (modPane s1 p.val fun x => { x with barriers := tblPut 0 x.barriers bar.toNat 0 })
  else .next s

/-! ### Latch operations -/

/-- `LIMIT`: a wait limit in beats, 0 for 1,048,576. -/
def limitBeats (w : Nat) : Nat := if fld w 98 79 = 0 then 1048576 else fld w 98 79

/-- The cell as a local latch operator. -/
def localWaiter (s : State) (p l t target : Nat) : Waiter :=
  { device := moduleId s, pane := BitVec.ofNat 4 p, lcell := l, epoch := (pane s p).epoch
    target := BitVec.ofNat 48 target, stamp := now s, localTok := some t, req := none }

/-- The instruction has issued: its token is taken and it flies. -/
def flyLatch (op : LatchOp) (t : Nat) (c : Cell) : Cell := addFlight (takeToken (stepPc c) t) t (.latch op)

/-- R209, R213: the latch a Plan index names in a cell's own context. -/
def ownLatch (s : State) (p i : Nat) : Option Nat :=
  match (pane s p).latchList[i]? with
  | some k => if latchHeldBy s k p then some k else none
  | none => none

/-- A flight's latch operation changed. -/
def setLatchOp (t : Nat) (f : LatchOp → LatchOp) (c : Cell) : Cell :=
  { c with flights := c.flights.map fun x => match x.kind with
      | .latch op => if x.token = t then { x with kind := .latch (f op) } else x
      | _ => x }

/-- R196, R214: the remote-waiter table has no room: the operation is refused and asks again at the retry-at beat of R251,
where no slot is queued ahead and the operation has no `TAG`: the last term is free. -/
def latchRefused (s : State) (p l t : Nat) : State :=
  let beat := s.time.beat + (Config.freeWord s.free).toNat % 8
  let s1 := modRmo (tookFree s) p fun u => { u with retries := BitVec.ofNat 16 (satAdd 16 u.retries.toNat 1) }
  meterRefusal (modCell s1 p l (setLatchOp t fun op => { op with retryAt := some beat })) p

/-- A local latch operation issues; `good` says that its operand lies in its range (R73). -/
def issueLatch (op : Nat) (a : Nat) (good : Bool) (s : State) (p l w : Nat) : State :=
  let c := cell s p l
  let t := wToken w
  let comp := sreg c (fld w 103 99)
  let fly (k : Nat) (out : Option (Nat × BitVec 64)) : LatchOp :=
    { latch := k, comp := comp, waits := opWaits op
      limit := if opWaits op then some (now s + 8192 * limitBeats w) else none, outcome := out, op := op, arg := a
      retryAt := none }
  if !localOk comp 16 then cellFault s p l fcAddress c.pc comp
  else match (if good then ownLatch s p (sreg c (fld w 113 109)) else none) with
    | none => modCell s p l (flyLatch (fly 0 (some (cRange, 0))) t)
    | some k =>
      match latchRequest s op k a (localWaiter s p l t a) with
      | .done s1 code res => modCell s1 p l (flyLatch (fly k (some (code, res))) t)
      | .waits s1 => modCell s1 p l (flyLatch (fly k none) t)
      | .full => latchRefused (modCell s p l (flyLatch (fly k none) t)) p l t

/-- `SYNC_ARRIVE`: increment 1 to 2^32 - 1. -/
def execSyncArrive (p : Pane16) (c : LCell) (s : State) : Host.Outcome State Fault Refusal :=
  .next (issueWith (rowOp 0xA 2) (fun s p l w =>
    let a := sreg (cell s p l) (fld w 108 104)
    issueLatch 5 a (1 ≤ a && a < 2 ^ 32) s p l w) s p.val c.val)

/-- `SYNC_LATCH_WAIT`: a target count of 48 bits. -/
def execSyncLatchWait (p : Pane16) (c : LCell) (s : State) : Host.Outcome State Fault Refusal :=
  .next (issueWith (rowOp 0xA 3) (fun s p l w =>
    let a := sreg (cell s p l) (fld w 108 104)
    issueLatch 6 a (a < 2 ^ 48) s p l w) s p.val c.val)

/-- `SYNC_ACQUIRE`. -/
def execSyncAcquire (p : Pane16) (c : LCell) (s : State) : Host.Outcome State Fault Refusal :=
  .next (issueWith (rowOp 0xA 4) (issueLatch 7 0 true) s p.val c.val)

/-- `SYNC_RELEASE`. -/
def execSyncRelease (p : Pane16) (c : LCell) (s : State) : Host.Outcome State Fault Refusal :=
  .next (issueWith (rowOp 0xA 5) (issueLatch 8 0 true) s p.val c.val)

/-- A local latch operation ends with an outcome (R190, R191). -/
def endLatchOp (s : State) (p l t i : Nat) (op : LatchOp) (code : Nat) (res : BitVec 64) : State :=
  completeAt (modCell s p l (dropFlight · t)) p l t i op.comp code res op.waits false (16 * op.latch)

/-- R196, R214: a refused latch operation asks again; an answer ends it. -/
def retryLatch (s : State) (p l t i : Nat) (op : LatchOp) : State :=
  let clear := modCell s p l (setLatchOp t fun op => { op with retryAt := none })
  match latchRequest clear op.op op.latch op.arg (localWaiter s p l t op.arg) with
  | .done s1 code res => endLatchOp s1 p l t i op code res
  | .waits s1 => s1
  | .full => latchRefused clear p l t

/-- `LATCH_OP_COMPLETE` (R213): an answered operation ends; one that was refused asks again once its retry-at beat has
come (R214). -/
def execLatchOpComplete (p : Pane16) (c : LCell) (token : BitVec 6) (s : State) : Host.Outcome State Fault Refusal :=
  match flightOf (cell s p.val c.val) token.toNat with
  | some { token := t, kind := .latch op, index := i } =>
    if !cellAlive s p.val then .next s
    else match op.outcome, op.retryAt with
    | some (code, res), _ => .next (endLatchOp s p.val c.val t i op code res)
    | none, some b => if b ≤ s.time.beat then .next (retryLatch s p.val c.val t i op) else .next s
    | none, none => .next s
  | _ => .next s

/-- A local waiter leaves its latch. -/
def unwait (s : State) (i p l t : Nat) : State :=
  let dev := moduleId s
  let keep (w : Waiter) : Bool :=
    !(w.device == dev && w.pane.toNat == p && w.lcell == l && w.localTok == some t)
  modLatch s i fun x => { x with queue := x.queue.filter keep, waits := x.waits.filter keep }

/-- `SYNC_WAIT_LIMIT` (R131, R191): the limit has run out before the latch unit has answered. -/
def execSyncWaitLimit (p : Pane16) (c : LCell) (token : BitVec 6) (s : State) : Host.Outcome State Fault Refusal :=
  match flightOf (cell s p.val c.val) token.toNat with
  | some { token := t, kind := .latch op, index := i } =>
    match op.outcome, op.limit with
    | none, some b =>
      if cellAlive s p.val && b ≤ now s then
        .next (endLatchOp (unwait s op.latch p.val c.val t) p.val c.val t i op cTimeout 0)
      else .next s
    | _, _ => .next s
  | _ => .next s

end Sys2Proof.Machine
end

