-- ==== Sys2Proof/Machine/Rmo.lean ====
section
/-! DEFINITION. The `RMO` class (R186 to R198) at its issue, and the rows of a remote operation's life: requests at the
target (R201, R202), responses, refusals, resends and timeouts at the source. -/

namespace Sys2Proof.Machine

/-! ### Issue -/

/-- R73: an operand lies in its stated range. -/
def rmoGood (op a b : Nat) : Bool :=
  if op ≤ 1 then 1 ≤ a && a ≤ 4194304
  else if op = 5 then 1 ≤ a && a < 2 ^ 32
  else if op = 6 then a < 2 ^ 48 && 1 ≤ b && b ≤ 1048576
  else if op = 7 then 1 ≤ b && b ≤ 1048576
  else true

/-- The operation that a word and the registers give. -/
def mkRmo (s : State) (p l w : Nat) (good : Bool) : RmoOp :=
  let c := cell s p l
  let op := wOp4 w
  let a := sreg c (fld w 98 94)
  let b := sreg c (fld w 93 89)
  let len := if op ≤ 1 && good then a else 0
  let loc := sreg c (fld w 108 104)
  { tag := (rmoOf s p).nextTag, lcell := l, token := wToken w, index := c.pc, op := BitVec.ofNat 4 op
    target := BitVec.ofNat 64 (sreg c (fld w 113 109)), torusRel := bitAt w 86, device := 0
    comp := sreg c (fld w 103 99), loc := loc, length := len, opa := BitVec.ofNat 64 a, opb := BitVec.ofNat 64 b
    tolerate := bitAt w 85
    deadline := (s.time.beat + (if opWaits op && good then b else tmoBeats (fld w 88 87)), s.time.tick)
    got := 0, code := 0, retryAt := none
    data := if op = 0 && good then readLocal c s.free loc len else [] }

/-- An address with its `DEVICE` field replaced by an identifier. -/
def withDevice (a : BitVec 64) (d : BitVec 16) : BitVec 64 := mkGa d.toNat (gaPane a) (gaTier a) (gaOfs a)

/-- An operation issues (R73, R137, R188, R190, R249). -/
def issueRmo (s0 : State) (p l w : Nat) : State :=
  let c := cell s0 p l
  let op := wOp4 w
  let a := sreg c (fld w 98 94)
  let good := rmoGood op a (sreg c (fld w 93 89))
  let addr := BitVec.ofNat 64 (sreg c (fld w 113 109))
  let comp := sreg c (fld w 103 99)
  let loc := sreg c (fld w 108 104)
  if gaTier addr = 1 then cellFault s0 p l fcAddress c.pc addr.toNat
  else if !localOk comp 16 then cellFault s0 p l fcAddress c.pc comp
  else if op ≤ 1 && good && !localOk loc a then cellFault s0 p l fcAddress c.pc loc
  else
    let o := mkRmo s0 p l w good
    let s := if c.flights.isEmpty then s0 else tookFree s0
    let s1 := modCell s p l fun c => takeToken (stepPc c) (wToken w)
    let s2 := modRmo s1 p fun u => { u with nextTag := u.nextTag + 1 }
    let put (o : RmoOp) : State := modRmo s2 p fun u => { u with ops := u.ops ++ [o] }
    if !good then completeOp (put o) p o cRange 0
    else match resolveDevice s p o.torusRel addr with
      | .pastEnd => completeOp (put o) p o cRange 0
      | .nowhere => put o
      | .device d =>
        let o1 := { o with device := d, target := withDevice addr d }
        admitOp (put o1) p o1

/-- `PUT`. -/
def execPut (p : Pane16) (c : LCell) (s : State) : Host.Outcome State Fault Refusal :=
  .next (issueWith (rowOp 9 0) issueRmo s p.val c.val)

/-- `GET`. -/
def execGet (p : Pane16) (c : LCell) (s : State) : Host.Outcome State Fault Refusal :=
  .next (issueWith (rowOp 9 1) issueRmo s p.val c.val)

/-- `ADD`. -/
def execRmoAdd (p : Pane16) (c : LCell) (s : State) : Host.Outcome State Fault Refusal :=
  .next (issueWith (rowOp 9 2) issueRmo s p.val c.val)

/-- `SWAP`. -/
def execSwap (p : Pane16) (c : LCell) (s : State) : Host.Outcome State Fault Refusal :=
  .next (issueWith (rowOp 9 3) issueRmo s p.val c.val)

/-- `COMPARE-SWAP`. -/
def execCompareSwap (p : Pane16) (c : LCell) (s : State) : Host.Outcome State Fault Refusal :=
  .next (issueWith (rowOp 9 4) issueRmo s p.val c.val)

/-- `ARRIVE`. -/
def execRmoArrive (p : Pane16) (c : LCell) (s : State) : Host.Outcome State Fault Refusal :=
  .next (issueWith (rowOp 9 5) issueRmo s p.val c.val)

/-- `WAIT`. -/
def execRmoWait (p : Pane16) (c : LCell) (s : State) : Host.Outcome State Fault Refusal :=
  .next (issueWith (rowOp 9 6) issueRmo s p.val c.val)

/-- `ACQUIRE`. -/
def execRmoAcquire (p : Pane16) (c : LCell) (s : State) : Host.Outcome State Fault Refusal :=
  .next (issueWith (rowOp 9 7) issueRmo s p.val c.val)

/-- `RELEASE`. -/
def execRmoRelease (p : Pane16) (c : LCell) (s : State) : Host.Outcome State Fault Refusal :=
  .next (issueWith (rowOp 9 8) issueRmo s p.val c.val)

/-! ### Requests at their target -/

/-- The pane number that `PEER_PANES` admits a request by: its source pane, or with `TORUS_REL` its source's Plan pane,
which is free where the wire does not give it. -/
def peerPane (s : State) (m : Msg) : Nat :=
  if !m.torusRel then m.srcPane.toNat
  else m.srcPlan.getD ((Config.freeWord s.free).toNat % 16)

/-- Check 4 of Table 08-7 for one window of pane `p`: the range is `n` bytes at an offset. -/
def windowAdmits (s : State) (p : Nat) (m : Msg) (bit ofs n : Nat) (w : Window) : Bool :=
  w.wstate == 1 && gaPane w.base == p && gaOfs w.base ≤ ofs && ofs + n ≤ gaOfs w.base + w.length.toNat
  && w.ops.getLsbD bit && w.peerJob == m.jobTag && w.peerPanes.getLsbD (peerPane s m)
  && (if w.scope = 0 then w.peerDevice == m.srcDevice
      else if w.scope = 2 then m.srcDevice == moduleId s && (match groupOf s p with
        | some g => g.members.getLsbD m.srcPane.toNat
        | none => false)
      else w.scope == 1)
  && (!w.isSealed || m.isSealed)

/-- Some window of the pane's context admits the request. -/
def admitted (s : State) (p : Nat) (m : Msg) (bit ofs n : Nat) : Bool :=
  (rmoOf s p).windows.any fun e => windowAdmits s p m bit ofs n e.2

/-- R209: the latch a request names at pane `p`. -/
def requestLatch (s : State) (p : Nat) (m : Msg) : Option Nat :=
  let o := gaOfs m.target
  if gaTier m.target = 1 || 0x100000 ≤ o || o % 16 ≠ 0 then none
  else match (if m.torusRel then (pane s p).latchList[o / 16]? else some (o / 16)) with
    | some i => if latchHeldBy s i p then some i else none
    | none => none

/-- Bytes a request covers in the near tier. -/
def requestBytes (m : Msg) : Nat :=
  if m.op.toNat = 0 then m.data.length else if m.op.toNat = 1 then m.length.toNat else 8

/-- Checks 3 and 4 of Table 08-7 for a near-tier request. -/
def nearChecks (s : State) (p : Nat) (m : Msg) : Nat :=
  let o := gaOfs m.target
  let n := requestBytes m
  if gaTier m.target = 1 || !nearOk o n || (2 ≤ m.op.toNat && o % 8 ≠ 0) then cRange
  else if !admitted s p m m.op.toNat o n then cNoWindow
  else cOk

/-- R202: a fragment of a `PUT` is accounted for; after the last one the response goes out. -/
def putFragment (s : State) (p : Nat) (m : Msg) (code : Nat) : State :=
  let u := rmoOf s p
  let mine (x : PutIn) : Bool := x.srcDevice == m.srcDevice && x.srcPane == m.srcPane && x.tag == m.tag
  let x0 : PutIn := (u.putsIn.find? mine).getD
    { srcDevice := m.srcDevice, srcPane := m.srcPane, tag := m.tag, got := 0, seen := [], code := 0 }
  let x : PutIn :=
    { x0 with
      got := if x0.seen.contains m.fragOfs.toNat then x0.got else x0.got + m.data.length
      seen := if x0.seen.contains m.fragOfs.toNat then x0.seen else x0.seen ++ [m.fragOfs.toNat]
      code := if x0.code = 0 then BitVec.ofNat 8 code else x0.code }
  let s1 := modRmo (countNack s p code) p fun u => { u with
    putsIn := u.putsIn.filter (fun y => !mine y) ++ (if m.length.toNat ≤ x.got then [] else [x]) }
  if m.length.toNat ≤ x.got then respond s1 p m x.code.toNat [] (some 0) else s1

/-- The data of a `GET` as it leaves: lines that carry poison have no stated contents. -/
def getData (s : State) (p ofs n : Nat) : List Byte :=
  let m := nearOf s p
  let d := nearGet m ofs n
  if !rangePoison m ofs n then d
  else d.zipIdx.map fun b => if isPoison m ((ofs + b.2) / 64) then Config.freeByte s.free b.2 else b.1

/-- R197: the responses of a `GET`. -/
def respondGet (s : State) (p : Nat) (m : Msg) (code : Nat) : State :=
  let n := m.length.toNat
  let d := getData s p (gaOfs m.target) n
  if m.srcDevice == moduleId s then respond s p m code d (some 0)
  else
    let f := fragMax (groupSealed s p)
    (List.range (ceilDiv n f)).foldl (fun s i =>
      respond s p { m with fragOfs := BitVec.ofNat 32 (i * f), target := m.target + BitVec.ofNat 64 (i * f) } code
        ((d.drop (i * f)).take f) (some 0)) s

/-- R189: the word after an atomic. -/
def atomicNew (op : Nat) (old a b : Nat) : Nat :=
  if op = 2 then (old + a) % 2 ^ 64 else if op = 3 then a else if old = a then b else old

/-- A request that has passed checks 1 and 2 (R189, R201, R202, R212). -/
def serveRequest (s : State) (p : Nat) (m : Msg) : State :=
  let op := m.op.toNat
  if op = 0 then
    (fragsOf s p m).foldl (fun s m =>
      let code := nearChecks s p m
      putFragment (if code = cOk then nearWrite s p (gaOfs m.target) m.data else s) p m code) s
  else if op = 1 then
    let code := nearChecks s p m
    if code ≠ cOk then respondCode s p m code
    else if rangePoison (nearOf s p) (gaOfs m.target) m.length.toNat then respondGet (tookFree s) p m cPoison
    else respondGet s p m cOk
  else if op ≤ 4 then
    let code := nearChecks s p m
    let o := gaOfs m.target
    if code ≠ cOk then respondCode s p m code
    else if rangePoison (nearOf s p) o 8 then respond s p m cPoison (zeros 8) (some 0)
    else
      let old := leNat (nearRead s p o 8)
      respond (nearWrite s p o (natLe 8 (atomicNew op old (leAt m.data 0 8) (leAt m.data 8 8)))) p m cOk (natLe 8 old)
        (some (BitVec.ofNat 64 old))
  else if op ≤ 8 then
    match requestLatch s p m with
    | none => respondCode s p m cRange
    | some i =>
      if !admitted s p m 5 (16 * i) 16 then respondCode s p m cNoWindow
      else
        let a := leAt m.data 0 8
        let w : Waiter :=
          { device := m.srcDevice, pane := m.srcPane, lcell := m.srcCell, epoch := m.srcEpoch
            target := BitVec.ofNat 48 a, stamp := now s, localTok := none, req := some m }
        match latchRequest s op i a w with
        | .done s1 code res => if codeOk code then respond s1 p m code [] (some res) else respondCode s1 p m code
        | .waits s1 => s1
        | .full => turnAway s p m 0
  else respondCode s p m cRange

/-- Check 2 of Table 08-7: the pane is under self-test; a `PUT` has one response, after its last fragment (R202). -/
def refuseTested (s : State) (p : Nat) (m : Msg) : State :=
  if m.op.toNat = 0 then (fragsOf s p m).foldl (fun s m => putFragment s p m cUnavailable) s
  else respondCode s p m cUnavailable

/-- `REQUEST_MESSAGE_RECEIVED` (R201): the pane takes the request that has waited longest, once its responses have room
(R249). -/
def execRequestMessageReceived (p : Pane16) (s : State) : Host.Outcome State Fault Refusal :=
  match (rmoOf s p.val).reqQ with
  | [] => .next s
  | m :: r =>
    let s1 := modRmo s p.val fun u => { u with reqQ := r }
    if !(rmoOf s p.val).respRest.isEmpty then .next s
    else if !paneLive s1 p.val then .next s1
    else if (pane s1 p.val).state = .testing then .next (refuseTested s1 p.val m)
    else .next (serveRequest (if m.torusRel && m.srcPlan.isNone then tookFree s1 else s1) p.val m)

/-! ### At the source -/

/-- The result that a response gives its operation (Table 08-1). A count has no place on the wire and is free there, of 48
bits; one that a `WAIT` has observed meets its condition (R212). -/
def responseResult (s : State) (o : RmoOp) (m : Msg) : BitVec 64 :=
  let op := m.op.toNat
  let free := (Config.freeWord s.free).toNat
  if 2 ≤ op && op ≤ 4 then BitVec.ofNat 64 (leAt m.data 0 8)
  else if op = 5 then m.result.getD (BitVec.ofNat 64 (free % 2 ^ 48))
  else if op = 6 then m.result.getD (BitVec.ofNat 64 ((o.opa.toNat + free % 2 ^ 47) % 2 ^ 48))
  else 0

/-- A fragment of a `GET` arrives. -/
def getFragment (s : State) (p : Nat) (o : RmoOp) (m : Msg) : State :=
  let d := m.data.take (o.length - m.fragOfs.toNat)
  let s1 := modCell s p o.lcell fun c => writeLocal c (o.loc + m.fragOfs.toNat) d
  let o1 := { o with got := o.got + d.length, code := if o.code = 0 then m.code else o.code }
  if o.length ≤ o1.got then completeOp s1 p o1 o1.code.toNat 0 else modOp s1 p o.tag fun _ => o1

/-- `RESPONSE_MESSAGE_RECEIVED` (R190, R195, R198): a response of an operation that has ended, or of an earlier context,
is discarded. -/
def execResponseMessageReceived (p : Pane16) (s : State) : Host.Outcome State Fault Refusal :=
  match (rmoOf s p.val).respQ with
  | [] => .next s
  | m :: r =>
    let s1 := modRmo s p.val fun u => { u with respQ := r }
    match (rmoOf s p.val).ops.find? (·.tag == m.tag) with
    | none => .next s1
    | some o =>
      if m.srcEpoch != (pane s p.val).epoch || !cellAlive s p.val then .next s1
      else if o.op.toNat = 1 && !m.data.isEmpty && (m.code.toNat = cOk || m.code.toNat = cPoison) then
        .next (getFragment s1 p.val o m)
      else
        let s2 := if m.result.isNone && (m.op.toNat == 5 || m.op.toNat == 6) then tookFree s1 else s1
        .next (completeOp s2 p.val o m.code.toNat (responseResult s1 o m))

/-- `REFUSAL_RECEIVED` (R196, R250). -/
def execRefusalReceived (p : Pane16) (s : State) : Host.Outcome State Fault Refusal :=
  match (rmoOf s p.val).refQ with
  | [] => .next s
  | x :: r =>
    let s1 := modRmo s p.val fun u => { u with refQ := r }
    if (rmoOf s p.val).ops.any (·.tag == x.tag) then .next (noteRefusal s1 p.val x.tag x.retryAt) else .next s1

/-- `RMO_RESEND` (R196). -/
def execRmoResend (p : Pane16) (tag : BitVec 32) (s : State) : Host.Outcome State Fault Refusal :=
  match (rmoOf s p.val).ops.find? (·.tag == tag) with
  | some o => match o.retryAt with
    | some b =>
      if b ≤ s.time.beat && (pane s p.val).state == .opened then
        let o1 := { o with retryAt := none }
        .next (admitOp (modOp s p.val tag fun _ => o1) p.val o1)
      else .next s
    | none => .next s
  | none => .next s

/-- An instant has come. -/
def reached (s : State) (t : Nat × Nat) : Bool := t.1 < s.time.beat || (t.1 == s.time.beat && t.2 ≤ s.time.tick)

/-- `RMO_TIMEOUT` (R195). -/
def execRmoTimeout (p : Pane16) (tag : BitVec 32) (s : State) : Host.Outcome State Fault Refusal :=
  match (rmoOf s p.val).ops.find? (·.tag == tag) with
  | some o => if reached s o.deadline && cellAlive s p.val then .next (completeOp s p.val o cTimeout 0) else .next s
  | none => .next s

/-- `WINDOW_REVOKE_DONE` (R203): no write that passed its checks remains, as a fragment's writes are one step; the entry
becomes closed, and the revoke completes. -/
def execWindowRevokeDone (p : Pane16) (entry : BitVec 8) (s : State) : Host.Outcome State Fault Refusal :=
  match tblFind (rmoOf s p.val).windows entry.toNat with
  | some w =>
    if w.wstate = 2 then
      let s1 := modRmo s p.val fun u => { u with windows := tblDel u.windows entry.toNat }
      .next (decideJobs s1 (fun j => j.opcode.toNat == opRevoke && prm j.packet 0 1 == p.val
        && prm j.packet 1 1 == entry.toNat) ansOk)
    else .next s
  | none => .next s

end Sys2Proof.Machine
end

