-- ==== Sys2Proof/Machine/Dispatch.lean ====
section
/-! DEFINITION. One arm per command: its meaning. -/

namespace Sys2Proof.Machine

/-- The effect of a command on everything but the queue. -/
def exec (i : Instr) (s : State) : Host.Outcome State Fault Refusal :=
  match i with
  | .beatMarker word crc cyclesOk => Sys2Proof.Machine.execBeatMarker word crc cyclesOk s
  | .missingMarker => Sys2Proof.Machine.execMissingMarker s
  | .holdoverBeat => Sys2Proof.Machine.execHoldoverBeat s
  | .holdoverLimitReached => Sys2Proof.Machine.execHoldoverLimitReached s
  | .beatTrimWrite by' value => Sys2Proof.Machine.execBeatTrimWrite by' value s
  | .beatBoundary => Sys2Proof.Machine.execBeatBoundary s
  | .planEpochStart lead => Sys2Proof.Machine.execPlanEpochStart lead s
  | .stepBoundary lead => Sys2Proof.Machine.execStepBoundary lead s
  | .blockStart p c => Sys2Proof.Machine.execBlockStart p c s
  | .slackExpired p c => Sys2Proof.Machine.execSlackExpired p c s
  | .nop p c => Sys2Proof.Machine.execNop p c s
  | .loop p c => Sys2Proof.Machine.execLoop p c s
  | .endloop p c => Sys2Proof.Machine.execEndloop p c s
  | .skip p c => Sys2Proof.Machine.execSkip p c s
  | .pset p c => Sys2Proof.Machine.execPset p c s
  | .endBlock p c => Sys2Proof.Machine.execEndBlock p c s
  | .scalarAdd p c => Sys2Proof.Machine.execScalarAdd p c s
  | .scalarSubtract p c => Sys2Proof.Machine.execScalarSubtract p c s
  | .scalarAnd p c => Sys2Proof.Machine.execScalarAnd p c s
  | .scalarOr p c => Sys2Proof.Machine.execScalarOr p c s
  | .scalarXor p c => Sys2Proof.Machine.execScalarXor p c s
  | .scalarShiftLeft p c => Sys2Proof.Machine.execScalarShiftLeft p c s
  | .scalarShiftRightLogical p c => Sys2Proof.Machine.execScalarShiftRightLogical p c s
  | .scalarShiftRightArith p c => Sys2Proof.Machine.execScalarShiftRightArith p c s
  | .scalarMultiply p c => Sys2Proof.Machine.execScalarMultiply p c s
  | .scalarSetIfLessSigned p c => Sys2Proof.Machine.execScalarSetIfLessSigned p c s
  | .scalarSetIfLessUnsigned p c => Sys2Proof.Machine.execScalarSetIfLessUnsigned p c s
  | .scalarSetIfEqual p c => Sys2Proof.Machine.execScalarSetIfEqual p c s
  | .scalarMove p c => Sys2Proof.Machine.execScalarMove p c s
  | .scalarLoad p c => Sys2Proof.Machine.execScalarLoad p c s
  | .scalarStore p c => Sys2Proof.Machine.execScalarStore p c s
  | .tmm p c => Sys2Proof.Machine.execTmm p c s
  | .tmmComplete p c token => Sys2Proof.Machine.execTmmComplete p c token s
  | .tdrain p c => Sys2Proof.Machine.execTdrain p c s
  | .tdrainComplete p c token => Sys2Proof.Machine.execTdrainComplete p c token s
  | .vmemLoad p c ecc => Sys2Proof.Machine.execVmemLoad p c ecc s
  | .vmemStore p c => Sys2Proof.Machine.execVmemStore p c s
  | .stridedLoad p c => Sys2Proof.Machine.execStridedLoad p c s
  | .stridedStore p c => Sys2Proof.Machine.execStridedStore p c s
  | .localGather p c => Sys2Proof.Machine.execLocalGather p c s
  | .ldsplit p c => Sys2Proof.Machine.execLdsplit p c s
  | .stsplit p c => Sys2Proof.Machine.execStsplit p c s
  | .vopAdd p c => Sys2Proof.Machine.execVopAdd p c s
  | .vopSubtract p c => Sys2Proof.Machine.execVopSubtract p c s
  | .vopMultiply p c => Sys2Proof.Machine.execVopMultiply p c s
  | .fusedMultiplyAdd p c => Sys2Proof.Machine.execFusedMultiplyAdd p c s
  | .vopMinimum p c => Sys2Proof.Machine.execVopMinimum p c s
  | .vopMaximum p c => Sys2Proof.Machine.execVopMaximum p c s
  | .compareEqual p c => Sys2Proof.Machine.execCompareEqual p c s
  | .compareLess p c => Sys2Proof.Machine.execCompareLess p c s
  | .compareLessOrEqual p c => Sys2Proof.Machine.execCompareLessOrEqual p c s
  | .convert p c => Sys2Proof.Machine.execConvert p c s
  | .vopMove p c => Sys2Proof.Machine.execVopMove p c s
  | .exp2 p c => Sys2Proof.Machine.execExp2 p c s
  | .log2 p c => Sys2Proof.Machine.execLog2 p c s
  | .rcp p c => Sys2Proof.Machine.execRcp p c s
  | .rsqrt p c => Sys2Proof.Machine.execRsqrt p c s
  | .laneSum p c => Sys2Proof.Machine.execLaneSum p c s
  | .laneMaximum p c => Sys2Proof.Machine.execLaneMaximum p c s
  | .nearTierLoad p c => Sys2Proof.Machine.execNearTierLoad p c s
  | .nearTierStore p c => Sys2Proof.Machine.execNearTierStore p c s
  | .localMove p c => Sys2Proof.Machine.execLocalMove p c s
  | .exchange p c => Sys2Proof.Machine.execExchange p c s
  | .nearTierGather p c => Sys2Proof.Machine.execNearTierGather p c s
  | .dmaComplete p c token err => Sys2Proof.Machine.execDmaComplete p c token err s
  | .syncWait p c => Sys2Proof.Machine.execSyncWait p c s
  | .paneBarrier p c => Sys2Proof.Machine.execPaneBarrier p c s
  | .barrierComplete p bar => Sys2Proof.Machine.execBarrierComplete p bar s
  | .syncArrive p c => Sys2Proof.Machine.execSyncArrive p c s
  | .syncLatchWait p c => Sys2Proof.Machine.execSyncLatchWait p c s
  | .syncAcquire p c => Sys2Proof.Machine.execSyncAcquire p c s
  | .syncRelease p c => Sys2Proof.Machine.execSyncRelease p c s
  | .latchOpComplete p c token => Sys2Proof.Machine.execLatchOpComplete p c token s
  | .put p c => Sys2Proof.Machine.execPut p c s
  | .get p c => Sys2Proof.Machine.execGet p c s
  | .rmoAdd p c => Sys2Proof.Machine.execRmoAdd p c s
  | .swap p c => Sys2Proof.Machine.execSwap p c s
  | .compareSwap p c => Sys2Proof.Machine.execCompareSwap p c s
  | .rmoArrive p c => Sys2Proof.Machine.execRmoArrive p c s
  | .rmoWait p c => Sys2Proof.Machine.execRmoWait p c s
  | .rmoAcquire p c => Sys2Proof.Machine.execRmoAcquire p c s
  | .rmoRelease p c => Sys2Proof.Machine.execRmoRelease p c s
  | .rng p c => Sys2Proof.Machine.execRng p c s
  | .reservedClass p c => Sys2Proof.Machine.execReservedClass p c s
  | .issuePastProgram p c => Sys2Proof.Machine.execIssuePastProgram p c s
  | .requestMessageReceived p => Sys2Proof.Machine.execRequestMessageReceived p s
  | .responseMessageReceived p => Sys2Proof.Machine.execResponseMessageReceived p s
  | .refusalReceived p => Sys2Proof.Machine.execRefusalReceived p s
  | .rmoResend p tag => Sys2Proof.Machine.execRmoResend p tag s
  | .rmoTimeout p tag => Sys2Proof.Machine.execRmoTimeout p tag s
  | .syncWaitLimit p c token => Sys2Proof.Machine.execSyncWaitLimit p c token s
  | .windowRevokeDone p entry => Sys2Proof.Machine.execWindowRevokeDone p entry s
  | .ccrRequest r line own store => Sys2Proof.Machine.execCcrRequest r line own store s
  | .ccrWriteback r line => Sys2Proof.Machine.execCcrWriteback r line s
  | .ccrSnoop r line => Sys2Proof.Machine.execCcrSnoop r line s
  | .slotTransmit port slot => Sys2Proof.Machine.execSlotTransmit port slot s
  | .sillTransmit port => Sys2Proof.Machine.execSillTransmit port s
  | .slotReceived port rx => Sys2Proof.Machine.execSlotReceived port rx s
  | .sillReceived port sill crc => Sys2Proof.Machine.execSillReceived port sill crc s
  | .laneSwitch port => Sys2Proof.Machine.execLaneSwitch port s
  | .replayTimeout port => Sys2Proof.Machine.execReplayTimeout port s
  | .presenceDetected port => Sys2Proof.Machine.execPresenceDetected port s
  | .equalizeDone port => Sys2Proof.Machine.execEqualizeDone port s
  | .alignDone port delay => Sys2Proof.Machine.execAlignDone port delay s
  | .negotiateDone port peer => Sys2Proof.Machine.execNegotiateDone port peer s
  | .trainingTimeout port => Sys2Proof.Machine.execTrainingTimeout port s
  | .trainingBackoffExpired port => Sys2Proof.Machine.execTrainingBackoffExpired port s
  | .chunkAdvance lead coll id inp out => Sys2Proof.Machine.execChunkAdvance lead coll id inp out s
  | .collectiveDone lead coll normOthers noiseOthers contribOthers nanOthers => Sys2Proof.Machine.execCollectiveDone lead coll normOthers noiseOthers contribOthers nanOthers s
  | .gridBeat p => Sys2Proof.Machine.execGridBeat p s
  | .abortStop lead => Sys2Proof.Machine.execAbortStop lead s
  | .abortEntryExpiry => Sys2Proof.Machine.execAbortEntryExpiry s
  | .nearReadRetry p line second => Sys2Proof.Machine.execNearReadRetry p line second s
  | .spareTakeoverDone p => Sys2Proof.Machine.execSpareTakeoverDone p s
  | .refreshShadow p quarter => Sys2Proof.Machine.execRefreshShadow p quarter s
  | .scrubBurst p line ecc => Sys2Proof.Machine.execScrubBurst p line ecc s
  | .pcCopyDone p => Sys2Proof.Machine.execPcCopyDone p s
  | .extentStart lead extent => Sys2Proof.Machine.execExtentStart lead extent s
  | .extentDone lead extent => Sys2Proof.Machine.execExtentDone lead extent s
  | .journalDurable upto => Sys2Proof.Machine.execJournalDurable upto s
  | .mapCheckpoint => Sys2Proof.Machine.execMapCheckpoint s
  | .gcVictim channel => Sys2Proof.Machine.execGcVictim channel s
  | .gcErase channel => Sys2Proof.Machine.execGcErase channel s
  | .wearLevel channel => Sys2Proof.Machine.execWearLevel channel s
  | .readRecalibration channel => Sys2Proof.Machine.execReadRecalibration channel s
  | .farReadRetry owner lun recovered => Sys2Proof.Machine.execFarReadRetry owner lun recovered s
  | .programFailed channel => Sys2Proof.Machine.execProgramFailed channel s
  | .holdupMeasure micros => Sys2Proof.Machine.execHoldupMeasure micros s
  | .recover => Sys2Proof.Machine.execRecover s
  | .inputPowerLoss => Sys2Proof.Machine.execInputPowerLoss s
  | .bankCharged => Sys2Proof.Machine.execBankCharged s
  | .hello r k => Sys2Proof.Machine.execHello r k s
  | .ctxCreate r k => Sys2Proof.Machine.execCtxCreate r k s
  | .ctxTeardown r k => Sys2Proof.Machine.execCtxTeardown r k s
  | .groupBind r k => Sys2Proof.Machine.execGroupBind r k s
  | .ctxReset r k => Sys2Proof.Machine.execCtxReset r k s
  | .engineReset r k => Sys2Proof.Machine.execEngineReset r k s
  | .paneReset r k => Sys2Proof.Machine.execPaneReset r k s
  | .moduleReset r k => Sys2Proof.Machine.execModuleReset r k s
  | .slotAlloc r k => Sys2Proof.Machine.execSlotAlloc r k s
  | .streamShare r k => Sys2Proof.Machine.execStreamShare r k s
  | .farQuota r k => Sys2Proof.Machine.execFarQuota r k s
  | .latchAlloc r k => Sys2Proof.Machine.execLatchAlloc r k s
  | .jobMapLoad r k => Sys2Proof.Machine.execJobMapLoad r k s
  | .coordLoad r k => Sys2Proof.Machine.execCoordLoad r k s
  | .identitySet r k => Sys2Proof.Machine.execIdentitySet r k s
  | .planLoad r k => Sys2Proof.Machine.execPlanLoad r k s
  | .planStart r k => Sys2Proof.Machine.execPlanStart r k s
  | .planStop r k => Sys2Proof.Machine.execPlanStop r k s
  | .windowGrant r k => Sys2Proof.Machine.execWindowGrant r k s
  | .windowRevoke r k => Sys2Proof.Machine.execWindowRevoke r k s
  | .sealKey r k => Sys2Proof.Machine.execSealKey r k s
  | .latchOrphan r k => Sys2Proof.Machine.execLatchOrphan r k s
  | .swapIn r k => Sys2Proof.Machine.execSwapIn r k s
  | .swapOut r k => Sys2Proof.Machine.execSwapOut r k s
  | .shardFetch r k => Sys2Proof.Machine.execShardFetch r k s
  | .shardFetchTimeout r => Sys2Proof.Machine.execShardFetchTimeout r s
  | .buddySet r k => Sys2Proof.Machine.execBuddySet r k s
  | .stormNow r k => Sys2Proof.Machine.execStormNow r k s
  | .drainSet r k => Sys2Proof.Machine.execDrainSet r k s
  | .restore r k => Sys2Proof.Machine.execRestore r k s
  | .restoreTimeout r => Sys2Proof.Machine.execRestoreTimeout r s
  | .modeSetPowerCap r k => Sys2Proof.Machine.execModeSetPowerCap r k s
  | .modeSetSlotSplit r k => Sys2Proof.Machine.execModeSetSlotSplit r k s
  | .modeSetHoldoverLimit r k => Sys2Proof.Machine.execModeSetHoldoverLimit r k s
  | .modeSetCheckValueMode r k => Sys2Proof.Machine.execModeSetCheckValueMode r k s
  | .modeSetCheckValuePoly r k => Sys2Proof.Machine.execModeSetCheckValuePoly r k s
  | .modeSetFarTierWrites r k => Sys2Proof.Machine.execModeSetFarTierWrites r k s
  | .modeSetExactBf16 r k => Sys2Proof.Machine.execModeSetExactBf16 r k s
  | .modeSetSealedFrames r k => Sys2Proof.Machine.execModeSetSealedFrames r k s
  | .modeSetStormInterval r k => Sys2Proof.Machine.execModeSetStormInterval r k s
  | .modeSetDrainInterval r k => Sys2Proof.Machine.execModeSetDrainInterval r k s
  | .modeGet r k => Sys2Proof.Machine.execModeGet r k s
  | .selfTest r k => Sys2Proof.Machine.execSelfTest r k s
  | .shutdown r k => Sys2Proof.Machine.execShutdown r k s
  | .meterRead r k => Sys2Proof.Machine.execMeterRead r k s
  | .meterIdent r k => Sys2Proof.Machine.execMeterIdent r k s
  | .eventFreeze r k => Sys2Proof.Machine.execEventFreeze r k s
  | .eventRead r k => Sys2Proof.Machine.execEventRead r k s
  | .eventThaw r k => Sys2Proof.Machine.execEventThaw r k s
  | .escape opcode k => Sys2Proof.Machine.execEscape opcode k s
  | .commandStart r => Sys2Proof.Machine.execCommandStart r s
  | .commandReply r => Sys2Proof.Machine.execCommandReply r s
  | .commandOverrun r => Sys2Proof.Machine.execCommandOverrun r s
  | .teardownBegin p => Sys2Proof.Machine.execTeardownBegin p s
  | .writersStopped p => Sys2Proof.Machine.execWritersStopped p s
  | .shutterComplete p => Sys2Proof.Machine.execShutterComplete p s
  | .ctxResetEnd p => Sys2Proof.Machine.execCtxResetEnd p s
  | .snapshotDone lead => Sys2Proof.Machine.execSnapshotDone lead s
  | .stormFrameReceived frame => Sys2Proof.Machine.execStormFrameReceived frame s
  | .stormAckReceived lead => Sys2Proof.Machine.execStormAckReceived lead s
  | .copyAbandonTimeout lead => Sys2Proof.Machine.execCopyAbandonTimeout lead s
  | .drainStaged lead => Sys2Proof.Machine.execDrainStaged lead s
  | .storeGrantReceived xid rkey addr => Sys2Proof.Machine.execStoreGrantReceived xid rkey addr s
  | .rdmaWritesComplete xid => Sys2Proof.Machine.execRdmaWritesComplete xid s
  | .rdmaReadsComplete xid bytes => Sys2Proof.Machine.execRdmaReadsComplete xid bytes s
  | .storeDoneReceived xid sstatus objCrc => Sys2Proof.Machine.execStoreDoneReceived xid sstatus objCrc s
  | .storeRefuseReceived xid sstatus retryMs => Sys2Proof.Machine.execStoreRefuseReceived xid sstatus retryMs s
  | .storeRetryExpiry xid => Sys2Proof.Machine.execStoreRetryExpiry xid s
  | .storeConnectionLost xid => Sys2Proof.Machine.execStoreConnectionLost xid s
  | .subwindowRollover => Sys2Proof.Machine.execSubwindowRollover s
  | .hubWatchdogExpiry => Sys2Proof.Machine.execHubWatchdogExpiry s
  | .engineFault engine => Sys2Proof.Machine.execEngineFault engine s
  | .paneHardwareFault p => Sys2Proof.Machine.execPaneHardwareFault p s
  | .hubFault => Sys2Proof.Machine.execHubFault s
  | .resetEscalation => Sys2Proof.Machine.execResetEscalation s
  | .testStart => Sys2Proof.Machine.execTestStart s
  | .testPhaseDone p report => Sys2Proof.Machine.execTestPhaseDone p report s
  | .hubTestDone passed signature => Sys2Proof.Machine.execHubTestDone passed signature s
  | .meterIntervalBoundary => Sys2Proof.Machine.execMeterIntervalBoundary s
  | .meterRecordRetry durable => Sys2Proof.Machine.execMeterRecordRetry durable s
  | .debugPadsEnabled => Sys2Proof.Machine.execDebugPadsEnabled s
  | .meterUpdatePackage u => Sys2Proof.Machine.execMeterUpdatePackage u s
  | .islandStart => Sys2Proof.Machine.execIslandStart s
  | .eventDelivery e => Sys2Proof.Machine.execEventDelivery e s
  | .eventAccept => Sys2Proof.Machine.execEventAccept s
  | .suppressedSummary => Sys2Proof.Machine.execSuppressedSummary s
  | .spillDone => Sys2Proof.Machine.execSpillDone s
  | .pwrEnAssert => Sys2Proof.Machine.execPwrEnAssert s
  | .pwrEnDeassert => Sys2Proof.Machine.execPwrEnDeassert s
  | .resetNRise straps => Sys2Proof.Machine.execResetNRise straps s
  | .resetNPulse => Sys2Proof.Machine.execResetNPulse s
  | .doorkeeperReady => Sys2Proof.Machine.execDoorkeeperReady s
  | .paneBringupDone => Sys2Proof.Machine.execPaneBringupDone s
  | .thermalThreshold sensor celsius => Sys2Proof.Machine.execThermalThreshold sensor celsius s
  | .thermalClear => Sys2Proof.Machine.execThermalClear s
  | .capEffecterSet mode => Sys2Proof.Machine.execCapEffecterSet mode s
  | .vfFlr n => Sys2Proof.Machine.execVfFlr n s
  | .pfFlr => Sys2Proof.Machine.execPfFlr s
  | .vfEnableChange numVfs => Sys2Proof.Machine.execVfEnableChange numVfs s
  | .atsInvalidation addr fn => Sys2Proof.Machine.execAtsInvalidation addr fn s
  | .wideRegisterRead by' ofs size => Sys2Proof.Machine.execWideRegisterRead by' ofs size s
  | .registerWrite by' ofs size value => Sys2Proof.Machine.execRegisterWrite by' ofs size value s
  | .sbRegisterRead xid ofs bytes => Sys2Proof.Machine.execSbRegisterRead xid ofs bytes s
  | .sbRegisterWrite xid ofs bytes value => Sys2Proof.Machine.execSbRegisterWrite xid ofs bytes value s
  | .sbMeterIdent xid => Sys2Proof.Machine.execSbMeterIdent xid s
  | .fmRequestFragment f => Sys2Proof.Machine.execFmRequestFragment f s
  | .fmFragmentReceived port f => Sys2Proof.Machine.execFmFragmentReceived port f s
  | .fmReceiptRepeat => Sys2Proof.Machine.execFmReceiptRepeat s
  | .fmUnreachableTimeout => Sys2Proof.Machine.execFmUnreachableTimeout s
  | .blockEraseComplete channel block failed => Sys2Proof.Machine.execBlockEraseComplete channel block failed s
  | .pageProgramComplete channel => Sys2Proof.Machine.execPageProgramComplete channel s
  | .ccrSnoopAck r line => Sys2Proof.Machine.execCcrSnoopAck r line s
  | .ethernetUncorrectableCodeword engine => Sys2Proof.Machine.execEthernetUncorrectableCodeword engine s
  | .portRetrainingOrder port => Sys2Proof.Machine.execPortRetrainingOrder port s
  | .pldmFirmwareUpdate target accepted => Sys2Proof.Machine.execPldmFirmwareUpdate target accepted s

end Sys2Proof.Machine
end

