-- ==== Sys2Proof/Safety.lean ====
section
/-! DEFINITION. What counts as a safe run: steps that answer next states, memories in canonical form, and a coherent
Coherent Control Region; and the conditions in which a cell's instruction issues and a Doorkeeper command starts, in the
terms that the statements use. -/

namespace Sys2Proof.Machine

/-! ### Going on, and memories -/

/-- A step goes on: it answers a next state. -/
def GoesOn (s : State) : Prop := ∃ t, step s = .next t

/-- The near-tier memory and poison table of a pane, and every local store, are in canonical form. -/
def MemoriesWf (s : State) : Prop :=
  (∀ p : Nat, Memory.wf (tblGet Pane.reset s.panes p).near.mem = true) ∧
  (∀ k : Nat, Memory.wf (tblGet Cell.reset s.cells k).store = true)

/-! ### The Coherent Control Region (R218 to R221) -/

/-- The copies of a line agree: the uncached requester holds none; two caches that hold one both hold it shared; a
shared or exclusive copy has the data of the home. -/
def LineCoherent (l : CcrLine) : Prop :=
  tblWf copyZero l.copies = true ∧ (copyOf l ccrUncached).state = .i ∧
  (∀ a b, a ≠ b → (copyOf l a).state ≠ .i → (copyOf l b).state ≠ .i →
    (copyOf l a).state = .s ∧ (copyOf l b).state = .s) ∧
  (∀ a, (copyOf l a).state = .s ∨ (copyOf l a).state = .e → (copyOf l a).data = l.data)

/-- A request waits only behind a transaction; and a transaction still has to snoop every cache whose copy stands in the
way of its request: any copy for ownership, a modified or exclusive one for a read. -/
def LineServed (l : CcrLine) : Prop :=
  match l.txn with
  | none => l.waiting = []
  | some t => ∀ a, a ≠ t.req.requester →
      (if t.req.own then (copyOf l a).state ≠ .i else (copyOf l a).state = .m ∨ (copyOf l a).state = .e) → a ∈ t.snoops

/-- Every line of the region is coherent. -/
def CcrCoherent (s : State) : Prop :=
  tblWf lineZero s.ccr = true ∧ ∀ n, LineCoherent (ccrLine s n) ∧ LineServed (ccrLine s n)

/-! ### Instructions of a cell -/

/-- The instruction `w` of a cell issues: the cell runs a block and stands at it, it is legal, and its token is free (R52,
R53, R73). -/
def Issues (s : State) (p : Pane16) (c : LCell) (w : Nat) : Prop :=
  canIssue s p.val c.val = true ∧ issueWord (cell s p.val c.val) = w ∧ wordLegal w = true ∧
  (namesToken w = true → tokenBusy (cell s p.val c.val) (wToken w) = false)

/-- Scalar register `i` of a cell, as 64 bits. -/
def sregBits (c : Cell) (i : Nat) : BitVec 64 := tblGet 0 c.sregs i

/-- What an instruction leaves of its cell: the cell becomes `x`, and bits `fl` are set in its `CELL_ARITH_FLAGS`. -/
def cellNext (s : State) (p : Pane16) (c : LCell) (x : Cell) (fl : Nat) : Host.Outcome State Fault Refusal :=
  .next (addFlags (setCell s p.val c.val x) p.val c.val fl)

/-- The state in which an instruction that reads the local store runs: with nothing in flight no race is possible, and no
free value is drawn (R540). -/
def readFrom (s : State) (p : Pane16) (c : LCell) : State :=
  if (cell s p.val c.val).flights.isEmpty then s else tookFree s

/-- A lane-wise instruction's outcome `o`: lane l of the destination takes `f l` where the mask of its word is set, and
keeps its value elsewhere (R62); the arithmetic flags of the active lanes are set, and no others. -/
def LaneWise (s : State) (p : Pane16) (c : LCell) (w : Nat) (f : Nat → Nat × Nat)
    (o : Host.Outcome State Fault Refusal) : Prop :=
  let x := cell s p.val c.val
  let active (l : Nat) : Prop := bitAt (activeMask x (bitAt w 96) (fld w 95 93)) l = true
  let dst := fld w 117 113
  ∃ (lanes : List Nat) (fl : Nat),
    o = cellNext s p c (setVlanes { x with pc := x.pc + 1 } dst lanes) fl ∧ lanes.length = 64 ∧
    (∀ l, l < 64 → (active l → lanes[l]? = some (f l).1) ∧ (¬active l → lanes[l]? = some ((vlanes x dst).getD l 0))) ∧
    ∀ i, bitAt fl i = true ↔ ∃ l, l < 64 ∧ active l ∧ bitAt (f l).2 i = true

/-- A vector load `i` from lane addresses `addr`, `n` bytes a lane: when every active lane lies in the local store, each of
them takes the number its bytes spell, and the others keep theirs; otherwise the context faults with code 0x03 (R73). -/
def VectorLoad (s : State) (p : Pane16) (c : LCell) (w : Nat) (addr : Nat → Int) (i : Instr) : Prop :=
  let x := cell s p.val c.val
  let n := vmemSize w
  let active (l : Nat) : Prop := bitAt (activeMask x (bitAt w 102) (fld w 101 99)) l = true
  let dst := fld w 119 115
  ((∀ l, l < 64 → active l → 0 ≤ addr l ∧ addr l + n ≤ 6291456) →
    ∃ lanes : List Nat,
      exec i s = .next (setCell (readFrom s p c) p.val c.val (setVlanes { x with pc := x.pc + 1 } dst lanes)) ∧
      lanes.length = 64 ∧
      ∀ l, l < 64 → (active l → lanes[l]? = some (leNat (readLocal x s.free (addr l).toNat n))) ∧
        (¬active l → lanes[l]? = some ((vlanes x dst).getD l 0))) ∧
  (∀ l, l < 64 → active l → ¬(0 ≤ addr l ∧ addr l + n ≤ 6291456) →
    ∃ a, exec i s = .next (cellFault (readFrom s p c) p.val c.val 0x03 x.pc a))

/-- A vector store `i` to lane addresses `addr`: the active lanes are stored, lane 0 first, the low `n` bytes of each, when
every one of them lies in the local store; otherwise nothing is stored and the context faults with code 0x03. -/
def VectorStore (s : State) (p : Pane16) (c : LCell) (w : Nat) (addr : Nat → Int) (i : Instr) : Prop :=
  let x := cell s p.val c.val
  let n := vmemSize w
  let mask := activeMask x (bitAt w 102) (fld w 101 99)
  let val (l : Nat) : Nat := (vlanes x (fld w 119 115)).getD l 0
  ((∀ l, l < 64 → bitAt mask l = true → 0 ≤ addr l ∧ addr l + n ≤ 6291456) →
    exec i s = .next (setCell s p.val c.val
      ((maskLanes mask).foldl (fun z l => writeLocal z (addr l).toNat (natLe n (val l))) { x with pc := x.pc + 1 }))) ∧
  (∀ l, l < 64 → bitAt mask l = true → ¬(0 ≤ addr l ∧ addr l + n ≤ 6291456) →
    ∃ a, exec i s = .next (cellFault s p.val c.val 0x03 x.pc a))

/-! ### Doorkeeper commands -/

/-- The state in which a packet of requester `r` is looked at: of one on the sideband, requester 17, the entry module and
the free `XID` are noted (R514). -/
def heard (s : State) (r : Nat) (k : Packet) : State :=
  if r = 17 then
    { s with fm := { s.fm with current := some (none, (Config.freeWord k.seq.toNat).setWidth 32, s.time.beat + 1) } }
  else s

/-- The state in which a doorbell of requester `r` has been accepted: its command waits. -/
def rung (s : State) (r op : Nat) (k : Packet) : State :=
  let s1 := heard s r k
  modMbx s1 r fun m => { setMState s1 .waiting m with job := some (newJob s1 r op k) }

/-- A doorbell is accepted and its command starts at once: the mailbox is there and has no command in hand, checks 1 to
7 of Table 14-8 pass, and no lock it needs is held or waited for (R358, R364, R366, R367). -/
def StartsAtOnce (s : State) (r op : Nat) (k : Packet) : Prop :=
  reachable s r = true ∧ (mbx s r).job = none ∧ earlyRefusal (heard s r k) r (r == 17) op k = none ∧
  canStart (rung s r op k) r (newJob (heard s r k) r op k) = true ∧ startRefused (rung s r op k) r op k = none

/-- The state in which the command of such a doorbell has its effect: `RUNNING` since this beat (R374). -/
def begun (s : State) (r op : Nat) (k : Packet) : State :=
  let s1 := rung s r op k
  let j := withLocks s1 r (newJob (heard s r k) r op k)
  noteAts (modMbx s1 r fun m => { setMState s1 .running m with
    job := some { j with start := some s1.time.beat, bound := boundOf s1 op k, lastBeat := s1.time.beat } }) r op k

/-- The command in hand of requester `r` has started and its outcome is decided, with a status of Table 14-13. -/
def Decides (t : State) (r st : Nat) : Prop :=
  ∃ j a, (mbx t r).job = some j ∧ j.start.isSome = true ∧ j.outcome = some a ∧ a.status = BitVec.ofNat 16 st

/-- The command in hand of requester `r` has started and runs on. -/
def RunsOn (t : State) (r : Nat) : Prop := ∃ j, (mbx t r).job = some j ∧ j.start.isSome = true ∧ j.outcome = none

/-- The result of the outcome of requester `r`'s command. -/
def Returns (t : State) (r : Nat) (d : List Byte) : Prop :=
  ∃ j a, (mbx t r).job = some j ∧ j.outcome = some a ∧ a.result = d

end Sys2Proof.Machine
end

