-- ==== Sys2Proof/Certificates/Slice0/Obligations.lean ====
section
/-! DEFINITION. The statements for the provers. `exec c s = .next t` is a command's effect; "after" and "starts" name the
state that it leaves. Where a statement says that a command changes nothing, it is one whose guard does not hold. -/

open Sys2Proof Sys2Proof.Machine

/-- A step with a command waiting takes the one at the front of the queue, and runs it with the rest of the queue. -/
def Obligations.StepRunsTheFrontCommand : Prop :=
  ∀ (s : State) (c : Instr), step { s with pending := c :: s.pending } = exec c s

/-- With no command waiting one fabric cycle passes: while the hub is up the tick count goes on by one, up to the last
tick of a beat, where it waits for the boundary's own command; a phase step of R33 that makes the beat longer is
counted off first. Beside the island's own clock nothing else changes. That an idle step is one fabric cycle is the
model's choice (log entry 2). -/
def Obligations.IdleStepIsOneFabricCycle : Prop :=
  ∀ s : State, s.pending = [] → ∃ (u : BeatUnit) (i : Island),
    step s = .next { s with time := u, island := i } ∧
    u = (if s.power.hubUp = false then s.time
         else if 0 < s.time.lead then { s.time with lead := s.time.lead - 1 }
         else if s.time.stretch = true then { s.time with stretch := false }
         else if s.time.tick < 8191 then { s.time with tick := s.time.tick + 1 }
         else s.time)

/-- No command leaves the queue of waiting commands changed (the queue's own handling is the step's). -/
def Obligations.CommandsLeaveTheQueueAlone : Prop :=
  ∀ (c : Instr) (s t : State), exec c s = .next t → t.pending = s.pending

/-- No command and no state stops the block with a fault or a refusal: what the manual calls a fault is a next state.
-/
def Obligations.NoStepStops : Prop :=
  (∀ (c : Instr) (s : State), ∃ t, exec c s = .next t) ∧ ∀ s : State, GoesOn s

/-- The module at t0 of its first power-up has the values that the manual's reset columns give: local beat 0, tick 0,
in `UNSYNC`; the holdover limit 1,024 beats; every pane `SHUTTERING` with its registers at zero and `LASTUE_PC` 0x7F;
every port `DOWN` with lane 4 idle and check-value mode 1; every mailbox `IDLE`, the Doorkeeper not ready; the far
tier `RECOVERING` and `HOLDUP_LOW`; power mode 0 and slot split 0; no test; nothing in the queue. -/
def Obligations.ResetValues : Prop :=
  let s := State.reset
  s.time.beat = 0 ∧ s.time.tick = 0 ∧ s.time.mode = .unsync ∧ s.time.limitSel = 2 ∧ s.time.episodeLimit = 1024
  ∧ s.time.phaseHits = 0 ∧ s.time.holdoverBeats = 0 ∧ s.time.trim = 0 ∧ s.time.trimActive = 0
  ∧ (∀ p, (pane s p).state = .shuttering ∧ (pane s p).epoch = 0 ∧ (pane s p).ctxFault.fcode = 0
      ∧ (pane s p).regs = .reset ∧ (nearOf s p).ceCount = 0 ∧ (nearOf s p).ueCount = 0 ∧ (nearOf s p).lastUePc = 0x7F
      ∧ (nearOf s p).mem = [] ∧ (rmoOf s p).windows = [])
  ∧ (∀ p l, (cell s p l).running = false ∧ (cell s p l).tokBusy = 0 ∧ (cell s p l).issA = .empty
      ∧ (cell s p l).issB = .empty ∧ (cell s p l).sregs = [] ∧ (cell s p l).store = [])
  ∧ s.groups = [] ∧ s.latches = [] ∧ (∀ n, ccrLine s n = lineZero)
  ∧ (∀ p, (portOf s p).state = lsDown ∧ (portOf s p).idleLane = 4 ∧ (portOf s p).cvMode = true)
  ∧ (∀ r, (mbx s r).mstate = .idle ∧ (mbx s r).hello = false ∧ (mbx s r).job = none ∧ (mbx s r).refusals = 0)
  ∧ s.dk.ready = false ∧ s.far.recovering = true ∧ s.far.holdupLow = true ∧ s.far.readOnly = false
  ∧ s.power.capMode = 0 ∧ s.power.slotSplit = 0 ∧ s.power.farEndurance = false ∧ s.power.identity = none
  ∧ s.faults.notices = [] ∧ s.faults.declarations = 0 ∧ s.test.parked = false ∧ s.evrec.limit = 64
  ∧ s.evrec.frozen = false ∧ s.evrec.queue = [] ∧ s.host.vfEnable = false ∧ s.collU.aborts = [] ∧ s.pending = []

/-- The two-operand scalar instructions that issue: the destination register takes the 64-bit result, shifts by 64 or
more giving what R6 says; the cell goes on to the next instruction, and every other register of the cell, its local
store, and everything outside the cell stay. A scalar load or store at an 8-byte aligned address of the local store
completes: the load's register takes the 8 bytes, least significant first, the store writes them; at any other address
the context faults with code 0x03 and the address. -/
def Obligations.ScalarInstructions : Prop :=
  (∀ (s : State) (p : Pane16) (c : LCell) (w : Nat), Issues s p c w → wClass w = 1 →
     let x := cell s p.val c.val
     let a := sregBits x (fld w 114 110)
     let b := if bitAt w 104 then BitVec.ofNat 64 (fld w 63 0) else sregBits x (fld w 109 105)
     let res (v : BitVec 64) : Host.Outcome State Fault Refusal :=
       .next (setCell s p.val c.val { x with pc := x.pc + 1, sregs := tblPut 0 x.sregs (fld w 119 115) v })
     (wOp4 w = 0x0 → exec (.scalarAdd p c) s = res (a + b)) ∧
     (wOp4 w = 0x1 → exec (.scalarSubtract p c) s = res (a - b)) ∧
     (wOp4 w = 0x2 → exec (.scalarAnd p c) s = res (a &&& b)) ∧
     (wOp4 w = 0x3 → exec (.scalarOr p c) s = res (a ||| b)) ∧
     (wOp4 w = 0x4 → exec (.scalarXor p c) s = res (a ^^^ b)) ∧
     (wOp4 w = 0x5 → exec (.scalarShiftLeft p c) s = res (a <<< b.toNat)) ∧
     (wOp4 w = 0x6 → exec (.scalarShiftRightLogical p c) s = res (a >>> b.toNat)) ∧
     (wOp4 w = 0x7 → exec (.scalarShiftRightArith p c) s = res (a.sshiftRight b.toNat)) ∧
     (wOp4 w = 0x8 → exec (.scalarMultiply p c) s = res (a * b)) ∧
     (wOp4 w = 0x9 → exec (.scalarSetIfLessSigned p c) s = res (if a.toInt < b.toInt then 1 else 0)) ∧
     (wOp4 w = 0xA → exec (.scalarSetIfLessUnsigned p c) s = res (if a.toNat < b.toNat then 1 else 0)) ∧
     (wOp4 w = 0xB → exec (.scalarSetIfEqual p c) s = res (if a = b then 1 else 0)) ∧
     (wOp4 w = 0xC → exec (.scalarMove p c) s = res b)) ∧
  (∀ (s : State) (p : Pane16) (c : LCell) (w : Nat), Issues s p c w →
     let x := cell s p.val c.val
     let y := { x with pc := x.pc + 1 }
     let a := (sregBits x (fld w 114 110) + BitVec.ofNat 64 (fld w 63 0)).toNat
     (rowOp 1 0xD w = true →
       (a + 8 ≤ 6291456 ∧ a % 8 = 0 →
         exec (.scalarLoad p c) s = .next (setCell (readFrom s p c) p.val c.val
           { y with sregs := tblPut 0 x.sregs (fld w 119 115) (BitVec.ofNat 64 (leNat (readLocal x s.free a 8))) })) ∧
       (¬(a + 8 ≤ 6291456 ∧ a % 8 = 0) →
         exec (.scalarLoad p c) s = .next (cellFault (readFrom s p c) p.val c.val 0x03 x.pc a))) ∧
     (rowOp 1 0xE w = true →
       (a + 8 ≤ 6291456 ∧ a % 8 = 0 →
         exec (.scalarStore p c) s =
           .next (setCell s p.val c.val (writeLocal y a (natLe 8 (sregBits x (fld w 109 105)).toNat)))) ∧
       (¬(a + 8 ≤ 6291456 ∧ a % 8 = 0) →
         exec (.scalarStore p c) s = .next (cellFault s p.val c.val 0x03 x.pc a))))

/-- Control instructions that issue: `NOP` only goes on; `SKIP` goes on past as many instructions as it names when its
predicate holds; `PSET` writes its predicate register; `END` ends the block and closes its loops; `LOOP` opens a loop,
and `ENDLOOP` repeats the body until it has run its count or the exit predicate has a bit set. R74: a `LOOP` issued at
depth 4, and an `ENDLOOP` with no open `LOOP`, each raise an illegal-instruction fault. R545: issue that reaches an
instruction index at or beyond `INSTR_COUNT` stops, and raises an illegal-instruction fault against the context. -/
def Obligations.ControlInstructions : Prop :=
  (∀ (s : State) (p : Pane16) (c : LCell) (w : Nat), Issues s p c w →
     let x := cell s p.val c.val
     let y := { x with pc := x.pc + 1 }
     let res (z : Cell) : Host.Outcome State Fault Refusal := .next (setCell s p.val c.val z)
     let pr (i : Nat) : BitVec 64 := tblGet 0 x.preds i
     (rowOp 0 0 w = true → exec (.nop p c) s = res y) ∧
     (rowOp 0 1 w = true → x.loops.length < 4 →
       exec (.loop p c) s = res { y with loops := ⟨y.pc, fld w 119 104, 1⟩ :: x.loops }) ∧
     (rowOp 0 2 w = true → ∀ f r, x.loops = f :: r →
       exec (.endloop p c) s = res (if f.trip ≤ f.runs ∨ (bitAt w 103 = true ∧ pr (fld w 102 100) ≠ 0)
         then { y with loops := r } else { y with pc := f.body, loops := { f with runs := f.runs + 1 } :: r })) ∧
     (rowOp 0 3 w = true →
       exec (.skip p c) s = res (if (if bitAt w 108 = true then pr (fld w 111 109) = BitVec.allOnes 64
           else pr (fld w 111 109) ≠ 0)
         then { y with pc := y.pc + fld w 119 112 } else y)) ∧
     (rowOp 0 4 w = true →
       exec (.pset p c) s = res { y with preds := tblPut 0 x.preds (fld w 111 109) (BitVec.ofNat 64 (fld w 63 0)) }) ∧
     (rowOp 0 5 w = true → exec (.endBlock p c) s = res { y with running := false, loops := [] })) ∧
  (∀ (s : State) (p : Pane16) (c : LCell) (w : Nat), Issues s p c w →
     let x := cell s p.val c.val
     (rowOp 0 1 w = true → 4 ≤ x.loops.length →
       exec (.loop p c) s = .next (cellFault s p.val c.val 0x01 x.pc 0)) ∧
     (rowOp 0 2 w = true → x.loops = [] → exec (.endloop p c) s = .next (cellFault s p.val c.val 0x01 x.pc 0))) ∧
  (∀ (s : State) (p : Pane16) (c : LCell),
     let x := cell s p.val c.val
     cellRuns s p.val c.val = true → x.instrCount ≤ x.pc →
     exec (.issuePastProgram p c) s = .next (cellFault s p.val c.val 0x01 x.pc 0))

/-- The contiguous, strided and gathering vector loads, and the contiguous and strided stores, at the lane addresses
that Table 03-9 gives them; a load that meets an error of the local store is the same load in the state that the error
leaves. `LDSPLIT` gives each active lane the FP32 pattern (hi << 16) | lo of the two planes' 16-bit elements;
`STSPLIT` writes each active lane, a NaN first replaced by the canonical one, in two halves (R104), and sets `NAN_OUT`
when it writes a NaN (R94). Both need every element they touch to lie in the local store. -/
def Obligations.VectorMemoryAndSplitTensors : Prop :=
  (∀ (s : State) (p : Pane16) (c : LCell) (w : Nat), Issues s p c w →
     let x := cell s p.val c.val
     let base : Int := (sregBits x (fld w 114 110)).toNat
     let near (l : Nat) : Int := base + (l * vmemSize w : Nat)
     let strided (l : Nat) : Int := base + (l : Int) * (sregBits x (fld w 109 105)).toInt
     let gather (l : Nat) : Int := base + ((vlanes x (fld w 109 105)).getD l 0 : Nat)
     (rowOp 4 0 w = true → VectorLoad s p c w near (.vmemLoad p c .clean)) ∧
     (rowOp 4 0 w = true → ∀ e, exec (.vmemLoad p c e) s = exec (.vmemLoad p c .clean) (cellEcc s p.val c.val e)) ∧
     (rowOp 4 1 w = true → VectorStore s p c w near (.vmemStore p c)) ∧
     (rowOp 4 2 w = true → VectorLoad s p c w strided (.stridedLoad p c)) ∧
     (rowOp 4 3 w = true → VectorStore s p c w strided (.stridedStore p c)) ∧
     (rowOp 4 4 w = true → VectorLoad s p c w gather (.localGather p c))) ∧
  (∀ (s : State) (p : Pane16) (c : LCell) (w : Nat), Issues s p c w →
     let x := cell s p.val c.val
     let y := { x with pc := x.pc + 1 }
     let hi := (sregBits x (fld w 114 110)).toNat
     let lo := (sregBits x (fld w 109 105)).toNat
     let mask := activeMask x (bitAt w 102) (fld w 101 99)
     let dst := fld w 119 115
     let inside : Prop := ∀ l, l < 64 → bitAt mask l = true → hi + 2 * l + 2 ≤ 6291456 ∧ lo + 2 * l + 2 ≤ 6291456
     (rowOp 4 5 w = true → inside → ∃ lanes : List Nat,
       exec (.ldsplit p c) s = .next (setCell (readFrom s p c) p.val c.val (setVlanes y dst lanes)) ∧ lanes.length = 64 ∧
       ∀ l, l < 64 →
         (bitAt mask l = true → lanes[l]? = some (leNat (readLocal x s.free (hi + 2 * l) 2) * 65536
           + leNat (readLocal x s.free (lo + 2 * l) 2))) ∧
         (bitAt mask l = false → lanes[l]? = some ((vlanes x dst).getD l 0))) ∧
     (rowOp 4 5 w = true → ¬inside →
       ∃ a, exec (.ldsplit p c) s = .next (cellFault (readFrom s p c) p.val c.val 0x03 x.pc a)) ∧
     (rowOp 4 6 w = true → inside → ∃ fl : Nat,
       exec (.stsplit p c) s = cellNext s p c ((maskLanes mask).foldl (fun z l =>
         let v := canonNaN ((vlanes x dst).getD l 0)
         writeLocal (writeLocal z (hi + 2 * l) (natLe 2 (v / 65536))) (lo + 2 * l) (natLe 2 (v % 65536))) y) fl ∧
       (fl = flNanOut ∨ fl = 0) ∧
       (fl = flNanOut ↔ ∃ l, l < 64 ∧ bitAt mask l = true ∧ 0x7F800000 < (vlanes x dst).getD l 0 % 0x80000000)) ∧
     (rowOp 4 6 w = true → ¬inside →
       ∃ a, exec (.stsplit p c) s = .next (cellFault s p.val c.val 0x03 x.pc a)))

/-- The instructions that store to the local store leave every byte of it alone that lies outside the bytes they
store. -/
def Obligations.StoresLeaveOtherBytesAlone : Prop :=
  ∀ (s t : State) (p : Pane16) (c : LCell) (w b : Nat), Issues s p c w →
    let x := cell s p.val c.val
    let mask := activeMask x (bitAt w 102) (fld w 101 99)
    let apart (a n : Nat) : Prop := b < a ∨ a + n ≤ b
    let lanesApart (addr : Nat → Int) : Prop :=
      ∀ l, l < 64 → bitAt mask l = true → 0 ≤ addr l ∧ addr l + vmemSize w ≤ 6291456 ∧ apart (addr l).toNat (vmemSize w)
    let hi := sreg x (fld w 114 110)
    let lo := sreg x (fld w 109 105)
    (rowOp 1 0xE w = true ∧ exec (.scalarStore p c) s = .next t
        ∧ scalarAddr w x + 8 ≤ 6291456 ∧ scalarAddr w x % 8 = 0 ∧ apart (scalarAddr w x) 8
      ∨ rowOp 4 1 w = true ∧ exec (.vmemStore p c) s = .next t ∧ lanesApart (laneAddr w x)
      ∨ rowOp 4 3 w = true ∧ exec (.stridedStore p c) s = .next t ∧ lanesApart (strideAddr w x)
      ∨ rowOp 4 6 w = true ∧ exec (.stsplit p c) s = .next t
        ∧ ∀ l, l < 64 → bitAt mask l = true → hi + 2 * l + 2 ≤ 6291456 ∧ lo + 2 * l + 2 ≤ 6291456
          ∧ apart (hi + 2 * l) 2 ∧ apart (lo + 2 * l) 2) →
    memGet (cell t p.val c.val).store b = memGet x.store b

/-- The lane-wise arithmetic, move and special-function instructions: each active lane takes the FP32 result of its
own lanes (`SRC_B` being a scalar register's low word under `BCAST`), and masked lanes keep their value. -/
def Obligations.VectorLaneResults : Prop :=
  ∀ (s : State) (p : Pane16) (c : LCell) (w : Nat), Issues s p c w →
    let x := cell s p.val c.val
    let a (l : Nat) : Nat := (vlanes x (fld w 112 108)).getD l 0
    let b (l : Nat) : Nat :=
      if bitAt w 97 then (sregBits x (fld w 107 103)).toNat % 2 ^ 32 else (vlanes x (fld w 107 103)).getD l 0
    let d (l : Nat) : Nat := (vlanes x (fld w 102 98)).getD l 0
    (rowVop 0x00 w = true → LaneWise s p c w (fun l => f32Add (a l) (b l)) (exec (.vopAdd p c) s)) ∧
    (rowVop 0x01 w = true → LaneWise s p c w (fun l => f32Sub (a l) (b l)) (exec (.vopSubtract p c) s)) ∧
    (rowVop 0x02 w = true → LaneWise s p c w (fun l => f32Mul (a l) (b l)) (exec (.vopMultiply p c) s)) ∧
    (rowVop 0x03 w = true → LaneWise s p c w (fun l => f32Fma (a l) (b l) (d l)) (exec (.fusedMultiplyAdd p c) s)) ∧
    (rowVop 0x04 w = true → LaneWise s p c w (fun l => f32MinMax false (a l) (b l)) (exec (.vopMinimum p c) s)) ∧
    (rowVop 0x05 w = true → LaneWise s p c w (fun l => f32MinMax true (a l) (b l)) (exec (.vopMaximum p c) s)) ∧
    (rowVop 0x0A w = true → LaneWise s p c w (fun l => (a l, 0)) (exec (.vopMove p c) s)) ∧
    (rowVsf 0 w = true → LaneWise s p c w (fun l => f32Sf 0 (a l)) (exec (.exp2 p c) s)) ∧
    (rowVsf 1 w = true → LaneWise s p c w (fun l => f32Sf 1 (a l)) (exec (.log2 p c) s)) ∧
    (rowVsf 2 w = true → LaneWise s p c w (fun l => f32Sf 2 (a l)) (exec (.rcp p c) s)) ∧
    (rowVsf 3 w = true → LaneWise s p c w (fun l => f32Sf 3 (a l)) (exec (.rsqrt p c) s))

/-- The compares set bit l of the predicate register for each active lane by the compare's outcome, and leave its
other bits; the lane trees put the pairwise reduction of the lanes into a scalar register, masked lanes entering as +0
for a sum and as -Inf for a maximum; a convert and a draw write their vector register. -/
def Obligations.VectorCompareReduceConvertDraw : Prop :=
  ∀ (s : State) (p : Pane16) (c : LCell) (w : Nat), Issues s p c w →
    let x := cell s p.val c.val
    let y := { x with pc := x.pc + 1 }
    let a (l : Nat) : Nat := (vlanes x (fld w 112 108)).getD l 0
    let b (l : Nat) : Nat :=
      if bitAt w 97 then (sregBits x (fld w 107 103)).toNat % 2 ^ 32 else (vlanes x (fld w 107 103)).getD l 0
    let mask := activeMask x (bitAt w 96) (fld w 95 93)
    let pdst := fld w 92 90
    let compares (k : Cmp) (o : Host.Outcome State Fault Refusal) : Prop :=
      ∃ (v : BitVec 64) (fl : Nat), o = cellNext s p c { y with preds := tblPut 0 x.preds pdst v } fl ∧
        ∀ l, l < 64 → v.getLsbD l =
          (if bitAt mask l = true then (f32Cmp k (a l) (b l)).1 else (tblGet (0 : BitVec 64) x.preds pdst).getLsbD l)
    let tree (f : Nat → Nat → Nat × Nat) (id : Nat) : Nat × Nat :=
      laneTree f ((List.range 64).map fun l => if bitAt mask l then a l else id)
    let base := sreg x (fld w 118 114)
    let stride := sreg x (fld w 113 109)
    (rowVop 0x06 w = true → compares .eq (exec (.compareEqual p c) s)) ∧
    (rowVop 0x07 w = true → compares .lt (exec (.compareLess p c) s)) ∧
    (rowVop 0x08 w = true → compares .le (exec (.compareLessOrEqual p c) s)) ∧
    (rowVred 0 w = true → exec (.laneSum p c) s =
      cellNext s p c { y with sregs := tblPut 0 x.sregs (fld w 117 113) (BitVec.ofNat 64 (tree f32Add 0).1) }
        (tree f32Add 0).2) ∧
    (rowVred 1 w = true → exec (.laneMaximum p c) s =
      cellNext s p c
        { y with sregs := tblPut 0 x.sregs (fld w 117 113) (BitVec.ofNat 64 (tree (f32MinMax true) 0xFF800000).1) }
        (tree (f32MinMax true) 0xFF800000).2) ∧
    (rowVop 0x09 w = true → ∃ (v : BitVec 2048) (fl : Nat), vopConvert w y = .ok { y with
        vregs := tblPut 0 x.vregs (fld w 117 113) v } fl ∧
      exec (.convert p c) s = cellNext s p c { y with vregs := tblPut 0 x.vregs (fld w 117 113) v } fl) ∧
    (wClass w = 0xB → base + 63 * stride < 2 ^ 48 →
      exec (.rng p c) s = .next (setCell s p.val c.val (setVlanes y (fld w 123 119)
        ((List.range 64).map fun l => leek x.k0 x.k1 x.jobStep (fld w 63 32) (base + l * stride))))) ∧
    (wClass w = 0xB → 2 ^ 48 ≤ base + 63 * stride →
      exec (.rng p c) s = .next (cellFault s p.val c.val 0x02 x.pc 0))

/-- A `TMM` that issues finds its accumulator set in the mode R539 asks for, or the context faults with code 0x01; it
then needs every range that it reads to lie in the local store, or the context faults with code 0x03; otherwise it
takes its token, leaves its set's issue-order mode as R539 says, and is in flight. A `TDRAIN` likewise: an empty set,
or a `RAW96` image of an FP32 one, faults, and so does a draw index at or above 2^48 (R100), with code 0x02. A `TMM`
that is the cell's one flight completes: its set takes the result of R79 to R90 on the local store's bytes, its token
is set, and its flags are set; the fault of R84 or R87 is charged to the context instead. A `TDRAIN` that is the
cell's one flight completes: its output stands in the local store, and its set is as it was (R539). With other flights
before them the oldest of each kind completes, on a view of the local store with the races of R540. -/
def Obligations.TensorInstructions : Prop :=
  (∀ (s : State) (p : Pane16) (c : LCell) (w : Nat), Issues s p c w →
     let x := cell s p.val c.val
     let y := { x with pc := x.pc + 1 }
     let held := issMode x (bitAt w 123)
     let fmt := fld w 113 110
     let exact := groupExact s p.val
     let inStore (rs : List (Nat × Nat)) : Prop := ∀ r ∈ rs, r.1 + r.2 ≤ 6291456
     let want : AccMode := if fmt = 10 then .long else if fmtHalf fmt = true ∧ exact = false then .fp32 else .long
     let fits : Prop := fmt = 10 ∨ bitAt w 122 = true → held = want
     let tmm := mkTmm exact w y
     let drain := mkDrain w y
     let drains : Prop := held ≠ .empty ∧ ¬(fmt = 10 ∧ held = .fp32)
     let index : Prop := fmt = 10 ∨ fld w 122 121 ≠ 2 ∨ drain.idxBase + 127 * drain.idxRow + 63 < 2 ^ 48
     let fault (code : Nat) : Prop := ∃ a, exec (if wClass w = 2 then .tmm p c else .tdrain p c) s =
       .next (cellFault s p.val c.val code x.pc a)
     (wClass w = 2 → fits → inStore (tmmRanges tmm) → exec (.tmm p c) s = .next (setCell s p.val c.val
       (addFlight (takeToken (setIssMode y (bitAt w 123) want) (wToken w)) (wToken w) (.tmm tmm)))) ∧
     (wClass w = 2 → ¬fits → fault 0x01) ∧
     (wClass w = 2 → fits → ¬inStore (tmmRanges tmm) → fault 0x03) ∧
     (wClass w = 3 → drains → inStore (drainRanges drain ++ drainScales drain) → index →
       exec (.tdrain p c) s = .next (setCell s p.val c.val
         (addFlight (takeToken y (wToken w)) (wToken w) (.tdrain drain)))) ∧
     (wClass w = 3 → ¬drains → fault 0x01) ∧
     (wClass w = 3 → drains → ¬inStore (drainRanges drain ++ drainScales drain) → fault 0x03) ∧
     (wClass w = 3 → drains → inStore (drainRanges drain ++ drainScales drain) → ¬index → fault 0x02)) ∧
  (∀ (s : State) (p : Pane16) (c : LCell) (t : BitVec 6) (i : Nat), cellAlive s p.val = true →
     let x := cell s p.val c.val
     let alone (k : FlightKind) : Prop := x.flights = [⟨t.toNat, k, i⟩]
     (∀ op a fl, alone (.tmm op) → op.olds = [] → tmmResult x.store op (accOf x (bitAt op.word.toNat 123)) = .ok (a, fl) →
       exec (.tmmComplete p c t) s = cellNext (tookFree s) p c
         (giveToken { setAcc x (bitAt op.word.toNat 123) a with flights := [] } t.toNat) fl) ∧
     (∀ op code, alone (.tmm op) → op.olds = [] →
       tmmResult x.store op (accOf x (bitAt op.word.toNat 123)) = .error code →
       exec (.tmmComplete p c t) s = .next (cellFault (tookFree s) p.val c.val code i 0)) ∧
     (∀ op, alone (.tdrain op) → op.hits = [] → op.snap = none →
       exec (.tdrainComplete p c t) s =
         (let o := drainWrites x.store op (accOf x (bitAt op.word.toNat 123))
         cellNext (tookFree s) p c (giveToken (o.1.foldl (fun z d => writeLocal z d.1 d.2) { x with flights := [] }) t.toNat)
           o.2)) ∧
     (∀ fs gs op, x.flights = fs ++ ⟨t.toNat, .tmm op, i⟩ :: gs → (∀ f ∈ fs, f.token ≠ t.toNat ∧ ∀ o, f.kind ≠ .tmm o) →
       exec (.tmmComplete p c t) s = .next (landOut (tookFree s) p.val c.val i (finishTmm x s.free t.toNat op))) ∧
     (∀ fs gs op set, x.flights = fs ++ ⟨t.toNat, .tdrain op, i⟩ :: gs →
       (∀ f ∈ fs, f.token ≠ t.toNat ∧ ∀ o, f.kind ≠ .tdrain o) → drainSource x fs op = some set →
       exec (.tdrainComplete p c t) s = .next (landOut (tookFree s) p.val c.val i (finishDrain x s.free t.toNat op set))))

/-- A `DMA` transfer of at least 1 and at most 6,291,456 bytes, whose near end and far end both exist, takes its token
and is in flight; otherwise the context faults with code 0x03. The far end of a near-tier transfer is this module's
near tier of the cell's own pane, and that of a move or exchange a local store. A gather's offset list must lie in the
local store, and each address it gives in a near-tier range of the pane's Plan (R63). A transfer completes when no
retry of R142 is due on a line it touches. A load whose range carries no poison leaves the near tier's bytes in the
local store; poison faults the context with code 0x06. A store leaves the local store's bytes in the near tier. A move
or an exchange leaves them in the target cell's local store; what a move over its own source delivers there is open.
The token is set. A corrected error on the way is counted first; an uncorrectable one calls for the retry of R142. -/
def Obligations.DmaInstructions : Prop :=
  (∀ (s : State) (p : Pane16) (c : LCell) (w : Nat), Issues s p c w →
     let x := cell s p.val c.val
     let y := { x with pc := x.pc + 1 }
     let go (op : DmaOp) (z : State) : Host.Outcome State Fault Refusal :=
       .next (setCell z p.val c.val (addFlight (takeToken y (wToken w)) (wToken w) (.dma op)))
     let op := mkDma w y
     let ends (far : Prop) : Prop := 1 ≤ op.len ∧ op.len ≤ 6291456 ∧ op.loc + op.len ≤ 6291456 ∧ far
     let near : Prop := ownNear s p.val op.remote op.len = true
     let other : Prop := op.remote + op.len ≤ 6291456
     let bad (i : Instr) (z : State) : Prop := ∃ a, exec i s = .next (cellFault z p.val c.val 0x03 x.pc a)
     let gather := mkGather s.free w y
     let tab := sreg x (fld w 79 75)
     let found : Prop := tab + 8 * (fld w 93 82 + 1) ≤ 6291456 ∧ gather.loc + gather.len ≤ 6291456
       ∧ ∀ o ∈ gather.offsets, ownNear s p.val ((gather.remote + o) % 2 ^ 64) (gatherSize w) = true
         ∧ inMemoryMap s p.val (gaOfs (BitVec.ofNat 64 ((gather.remote + o) % 2 ^ 64))) (gatherSize w) = true
     (rowOp 8 0 w = true → (ends near → exec (.nearTierLoad p c) s = go op s) ∧
       (¬ends near → bad (.nearTierLoad p c) s)) ∧
     (rowOp 8 1 w = true → (ends near → exec (.nearTierStore p c) s = go op s) ∧
       (¬ends near → bad (.nearTierStore p c) s)) ∧
     (rowOp 8 2 w = true → (ends other → exec (.localMove p c) s = go op s) ∧
       (¬ends other → bad (.localMove p c) s)) ∧
     (rowOp 8 3 w = true → (ends other → exec (.exchange p c) s = go op s) ∧
       (¬ends other → bad (.exchange p c) s)) ∧
     (rowOp 8 4 w = true → (found → exec (.nearTierGather p c) s = go gather (readFrom s p c)) ∧
       (¬found → bad (.nearTierGather p c) (readFrom s p c)))) ∧
  (∀ (s : State) (p : Pane16) (c : LCell) (t : BitVec 6) (op : DmaOp) (i : Nat), cellAlive s p.val = true →
     flightOf (cell s p.val c.val) t.toNat = some ⟨t.toNat, .dma op, i⟩ → (nearOf s p.val).retries = [] →
     let s1 := tookFree s
     let near := gaOfs (BitVec.ofNat 64 op.remote)
     let done (z : Cell) : Cell := giveToken (dropFlight z t.toNat) t.toNat
     let e := exec (.dmaComplete p c t none) s
     (wOp4 op.word.toNat = 0 → rangePoison (nearOf s p.val) near op.len = false →
       e = .next (modCell s1 p.val c.val fun x => done (writeLocal x op.loc (nearGet (nearOf s p.val) near op.len)))) ∧
     (wOp4 op.word.toNat = 0 → rangePoison (nearOf s p.val) near op.len = true →
       e = .next (cellFault s1 p.val c.val 0x06 i (mkGa (moduleId s).toNat p.val 0 near).toNat)) ∧
     (wOp4 op.word.toNat = 1 →
       e = .next (modCell (nearWrite s1 p.val near (readLocal (cell s p.val c.val) s1.free op.loc op.len)) p.val c.val done)) ∧
     (wOp4 op.word.toNat = 4 → (∀ q ∈ dmaPieces op, rangePoison (nearOf s p.val) q.1 q.2 = false) →
       e = .next (modCell s1 p.val c.val fun x =>
         done (writeLocal x op.loc ((dmaPieces op).flatMap fun q => nearGet (nearOf s p.val) q.1 q.2)))) ∧
     (wOp4 op.word.toNat = 2 ∨ wOp4 op.word.toNat = 3 →
       let target := if wOp4 op.word.toNat = 2 then c.val else fld op.word.toNat 98 94
       let src := readLocal (cell s p.val c.val) s1.free op.loc op.len
       ∃ d : List Byte, d.length = op.len ∧
         (∀ k, k < op.len → target ≠ c.val ∨ op.loc = op.remote ∨ op.loc + k < op.remote
           ∨ op.remote + op.len ≤ op.loc + k → d[k]? = src[k]?) ∧
         e = .next (modCell (modCell s1 p.val target fun x => writeLocal x op.remote d) p.val c.val done)) ∧
     (∀ line : BitVec 30, (dmaPieces op).any (lineIn (64 * line.toNat)) = true →
       exec (.dmaComplete p c t (some (line, .corrected))) s =
         .next (landDma (tookFree (nearCorrected s p.val (64 * line.toNat))) p.val c.val t.toNat i op) ∧
       (isPoison (nearOf s p.val) line.toNat = false → exec (.dmaComplete p c t (some (line, .uncorrectable))) s =
         .next (modNear s p.val fun m => { m with retries := [(line.toNat, false)] }))))

/-- R53: an instruction of the asynchronous classes, or a latch operation of `SYNC`, that names a token which is not
yet set from its previous use does not issue: nothing changes. -/
def Obligations.BusyTokenStopsIssue : Prop :=
  ∀ (s : State) (p : Pane16) (c : LCell),
    let x := cell s p.val c.val
    let w := issueWord x
    wordLegal w = true → tokenBusy x (wToken w) = true →
    (wClass w = 2 → exec (.tmm p c) s = .next s) ∧ (wClass w = 3 → exec (.tdrain p c) s = .next s) ∧
    (rowOp 8 0 w = true → exec (.nearTierLoad p c) s = .next s) ∧
    (rowOp 8 1 w = true → exec (.nearTierStore p c) s = .next s) ∧
    (rowOp 8 2 w = true → exec (.localMove p c) s = .next s) ∧
    (rowOp 8 3 w = true → exec (.exchange p c) s = .next s) ∧
    (rowOp 8 4 w = true → exec (.nearTierGather p c) s = .next s) ∧
    (rowOp 9 0 w = true → exec (.put p c) s = .next s) ∧ (rowOp 9 1 w = true → exec (.get p c) s = .next s) ∧
    (rowOp 9 2 w = true → exec (.rmoAdd p c) s = .next s) ∧ (rowOp 9 3 w = true → exec (.swap p c) s = .next s) ∧
    (rowOp 9 4 w = true → exec (.compareSwap p c) s = .next s) ∧
    (rowOp 9 5 w = true → exec (.rmoArrive p c) s = .next s) ∧
    (rowOp 9 6 w = true → exec (.rmoWait p c) s = .next s) ∧
    (rowOp 9 7 w = true → exec (.rmoAcquire p c) s = .next s) ∧
    (rowOp 9 8 w = true → exec (.rmoRelease p c) s = .next s) ∧
    (rowOp 0xA 2 w = true → exec (.syncArrive p c) s = .next s) ∧
    (rowOp 0xA 3 w = true → exec (.syncLatchWait p c) s = .next s) ∧
    (rowOp 0xA 4 w = true → exec (.syncAcquire p c) s = .next s) ∧
    (rowOp 0xA 5 w = true → exec (.syncRelease p c) s = .next s)

/-- R52: a cell that reaches an instruction whose class code is reserved stops issue and raises an illegal-instruction
fault (code 0x01) against its context. -/
def Obligations.ReservedClassFaults : Prop :=
  ∀ (s : State) (p : Pane16) (c : LCell),
    let x := cell s p.val c.val
    canIssue s p.val c.val = true → 0xC ≤ wClass (issueWord x) →
    exec (.reservedClass p c) s = .next (cellFault s p.val c.val 0x01 x.pc 0) ∧
    (cell (cellFault s p.val c.val 0x01 x.pc 0) p.val c.val).halted = true ∧
    ((pane s p.val).ctxFault.fcode = 0 →
      (pane (cellFault s p.val c.val 0x01 x.pc 0) p.val).ctxFault.fcode = 0x01)

/-- `SYNC_WAIT` goes on once every token it names is set, and until then stays where it is; `PANE_BARRIER` stops the
cell's issue at its barrier and marks its arrival; a barrier that every cell with a sequencer table has reached
completes: the cells that stand at it go on, and no arrival is left. A pane barrier at which some cell waits, and at
which every cell with a sequencer table has arrived, completes: every cell of the pane that stands at it may issue
again, and the barrier has no arrivals; another barrier is left alone. -/
def Obligations.TokensAndBarriers : Prop :=
  (∀ (s : State) (p : Pane16) (c : LCell) (w : Nat), Issues s p c w →
     let x := cell s p.val c.val
     let m := BitVec.ofNat 64 (fld w 63 0)
     let b := fld w 119 116
     (rowOp 0xA 0 w = true → x.tokSet &&& m = m →
       exec (.syncWait p c) s = .next (setCell s p.val c.val { x with pc := x.pc + 1 })) ∧
     (rowOp 0xA 0 w = true → x.tokSet &&& m ≠ m → exec (.syncWait p c) s = .next (setCell s p.val c.val x)) ∧
     (rowOp 0xA 1 w = true → exec (.paneBarrier p c) s =
       .next (modPane (setCell s p.val c.val { x with pc := x.pc + 1, barrier := some (BitVec.ofNat 4 b) }) p.val
         fun y => { y with barriers := tblPut 0 y.barriers b (tblGet 0 y.barriers b ||| (1#32 <<< c.val)) }))) ∧
  (∀ (s : State) (p : Pane16) (bar : BitVec 4),
     let arrived := tblGet (0 : BitVec 32) (pane s p.val).barriers bar.toNat
     tblWf 0 (pane s p.val).barriers = true →
     arrived ≠ 0 → (∀ l, l < 32 → (cell s p.val l).seqCount ≠ 0 → arrived.getLsbD l = true) →
     ∃ t, exec (.barrierComplete p bar) s = .next t ∧
       tblGet (0 : BitVec 32) (pane t p.val).barriers bar.toNat = 0 ∧
       (∀ k, k ≠ bar.toNat → tblGet (0 : BitVec 32) (pane t p.val).barriers k = tblGet 0 (pane s p.val).barriers k) ∧
       (∀ l, l < 32 → cell t p.val l = (if (cell s p.val l).barrier = some bar
         then { cell s p.val l with barrier := none } else cell s p.val l)) ∧
       t.groups = s.groups ∧ t.latches = s.latches ∧ t.time = s.time ∧ t.evrec = s.evrec)

/-- The latch operations of `SYNC` on a latch of the cell's own context, once a holder known to be lost has been dealt
with (R216): `ARRIVE` adds to the count; a `WAIT` that is met, an `ACQUIRE` of a latch not held and every `RELEASE`
have their outcome at once; other `WAIT`s and `ACQUIRE`s join the latch's lists, an `ACQUIRE` by its arrival and,
within a tick, its requester number (R215); an `ACQUIRE` that finds 4,096 waiting is refused and asks again at a
retry-at beat of the next 8 (R196, R214). An operand out of its range, or an index that names no latch of the context,
has the outcome `NACK_RANGE` (R209, R212, R213). -/
def Obligations.LatchInstructionsIssue : Prop :=
  ∀ (s : State) (p : Pane16) (c : LCell) (w : Nat), Issues s p c w →
    let x := cell s p.val c.val
    let tok := wToken w
    let comp := sreg x (fld w 103 99)
    let idx := sreg x (fld w 113 109)
    let a := sreg x (fld w 108 104)
    let flight (op k v : Nat) (out : Option (Nat × BitVec 64)) (retry : Option Nat) (y : Cell) : Cell :=
      addFlight (takeToken { y with pc := y.pc + 1 } tok) tok
        (.latch { latch := k, comp := comp, waits := opWaits op
                  limit := if opWaits op then some (now s + 8192 * limitBeats w) else none, outcome := out
                  op := op, arg := v, retryAt := retry })
    let fly (op k v : Nat) (out : Option (Nat × BitVec 64)) (z : State) : Host.Outcome State Fault Refusal :=
      .next (modCell z p.val c.val (flight op k v out none))
    let own (i : Instr) (op v : Nat) (good : Bool) (done : Nat → Prop) : Prop :=
      (6291456 < comp + 16 → exec i s = .next (cellFault s p.val c.val 0x03 x.pc comp)) ∧
      (comp + 16 ≤ 6291456 → good = false ∨ ownLatch s p.val idx = none → exec i s = fly op 0 v (some (0x11, 0)) s) ∧
      (comp + 16 ≤ 6291456 → good = true → ∀ k, ownLatch s p.val idx = some k → done k)
    let me (v : Nat) : Waiter := localWaiter s p.val c.val tok v
    (rowOp 0xA 2 w = true → own (.syncArrive p c) 5 a (decide (1 ≤ a ∧ a < 2 ^ 32)) fun k =>
      let z := noteEpoch s k (me a)
      exec (.syncArrive p c) s =
        fly 5 k a (some (0, ((latchOf z k).count + BitVec.ofNat 48 a).setWidth 64)) (latchArrive z k a)) ∧
    (rowOp 0xA 3 w = true → own (.syncLatchWait p c) 6 a (decide (a < 2 ^ 48)) fun k =>
      let z := noteEpoch s k (me a)
      let l := latchOf z k
      ((l.count - BitVec.ofNat 48 a).toNat < 2 ^ 47 →
        exec (.syncLatchWait p c) s = fly 6 k a (some (0, l.count.setWidth 64)) z) ∧
      (2 ^ 47 ≤ (l.count - BitVec.ofNat 48 a).toNat → exec (.syncLatchWait p c) s =
        fly 6 k a none (modLatch z k fun l => { l with waits := l.waits ++ [me a] }))) ∧
    (rowOp 0xA 4 w = true → own (.syncAcquire p c) 7 0 true fun k =>
      let z := noteEpoch s k (me 0)
      let l := latchOf z k
      (l.state ≠ 1 → exec (.syncAcquire p c) s =
        fly 7 k 0 (some (if l.state = 2 then 1 else 0, 0)) (modLatch z k fun l => grantTo l (me 0))) ∧
      (l.state = 1 → waitersUsed z < 4096 → exec (.syncAcquire p c) s =
        fly 7 k 0 none (modLatch z k fun l => { l with queue := joinQueue (me 0) l.queue })) ∧
      (l.state = 1 → 4096 ≤ waitersUsed z → tokenBusy x tok = false → x.flights = [] →
        ∃ t b, exec (.syncAcquire p c) s = .next t ∧ s.time.beat ≤ b ∧ b < s.time.beat + 8 ∧
          cell t p.val c.val = flight 7 k 0 none (some b) x ∧
          (rmoOf t p.val).retries = BitVec.ofNat 16 (satAdd 16 (rmoOf s p.val).retries.toNat 1))) ∧
    (rowOp 0xA 5 w = true → own (.syncRelease p c) 8 0 true fun k =>
      let z := noteEpoch s k (me 0)
      let held := latchHolder (latchOf z k) (moduleId s) (BitVec.ofNat 4 p.val) (pane s p.val).epoch
      (held = true → exec (.syncRelease p c) s = fly 8 k 0 (some (0, 0)) (grantNext z k 0)) ∧
      (held = false → exec (.syncRelease p c) s = fly 8 k 0 (some (0x13, 0)) z))

/-- What the latch unit does to a latch (R212, R217): `ARRIVE` adds its operand to the count, and the waits it meets
leave the list; a latch given up passes to the head of its queue, held, or is free when nobody waits; other latches
stay. An operation's completion (R190, R191): its record is written and its token set; `OK` and `OK_ORPHANED` do no
more; one that the full table refused asks again at its retry-at beat (R196, R214); a failed latch operation faults
the context, with code 0x05 for a wait whose limit ran out and 0x04 otherwise. A wait whose limit runs out unanswered
leaves its latch first. -/
def Obligations.LatchOperations : Prop :=
  (∀ (s : State) (i n : Nat), tblWf latchZero s.latches = true →
     let l := latchOf s i
     let t := latchArrive s i n
     (latchOf t i).count = l.count + BitVec.ofNat 48 n ∧ (latchOf t i).state = l.state ∧ (latchOf t i).queue = l.queue ∧
     (∀ v ∈ l.waits, v ∈ (latchOf t i).waits ↔ 2 ^ 47 ≤ (l.count + BitVec.ofNat 48 n - v.target).toNat) ∧
     (∀ j, j ≠ i → latchOf t j = latchOf s j ∧ latchOf (grantNext s i 0) j = latchOf s j) ∧
     (l.queue = [] → (latchOf (grantNext s i 0) i).state = 0) ∧
     (∀ v r, l.queue = v :: r → (latchOf (grantNext s i 0) i) =
       { l with queue := r, state := 1, holderDevice := v.device, holderPane := v.pane, holderEpoch := v.epoch })) ∧
  (∀ (s : State) (p : Pane16) (c : LCell) (t : BitVec 6) (i : Nat) (op : LatchOp), cellAlive s p.val = true →
     flightOf (cell s p.val c.val) t.toNat = some ⟨t.toNat, .latch op, i⟩ →
     let written (z : State) (code : Nat) (r : BitVec 64) : State :=
       modCell (modCell z p.val c.val fun y => dropFlight y t.toNat) p.val c.val fun y =>
         giveToken (writeLocal y op.comp (recordBytes s code r)) t.toNat
     (∀ code r, op.outcome = some (code, r) → code ≤ 1 →
       exec (.latchOpComplete p c t) s = .next (written s code r)) ∧
     (∀ code r, op.outcome = some (code, r) → 1 < code → code ≠ 0x21 → exec (.latchOpComplete p c t) s =
       .next (cellFault (written s code r) p.val c.val 0x04 i (16 * op.latch))) ∧
     (op.outcome = none → ∀ b, op.retryAt = some b →
       (s.time.beat < b → exec (.latchOpComplete p c t) s = .next s) ∧
       (b ≤ s.time.beat →
         let z := modCell s p.val c.val (setLatchOp t.toNat fun o => { o with retryAt := none })
         let asks := latchRequest z op.op op.latch op.arg (localWaiter s p.val c.val t.toNat op.arg)
         (∀ y code r, asks = .done y code r → code ≤ 1 →
           exec (.latchOpComplete p c t) s = .next (written y code r)) ∧
         (∀ y, asks = .waits y → exec (.latchOpComplete p c t) s = .next y) ∧
         (asks = .full → ∃ u b', exec (.latchOpComplete p c t) s = .next u ∧ s.time.beat ≤ b' ∧
           b' < s.time.beat + 8 ∧ flightOf (cell u p.val c.val) t.toNat =
             some ⟨t.toNat, .latch { op with retryAt := some b' }, i⟩))) ∧
     (op.outcome = none → op.retryAt = none → exec (.latchOpComplete p c t) s = .next s) ∧
     (op.outcome = none → op.waits = true → ∀ b, op.limit = some b → b ≤ now s → exec (.syncWaitLimit p c t) s =
       .next (cellFault (modRmo (written (unwait s op.latch p.val c.val t.toNat) 0x21 0) p.val fun u =>
         { u with timeouts := BitVec.ofNat 16 (satAdd 16 u.timeouts.toNat 1) }) p.val c.val 0x05 i (16 * op.latch))))

/-- The instructions of the class `RMO`. A tier-1 address, a completion record outside the local store, or the local
end of a `PUT` or `GET` outside it, faults the context with code 0x03 (R137, R73). Otherwise the operation has a tag
of its own, takes its token, and is in progress until its deadline, the beat of its `TMO` code, or of its own limit
for a `WAIT` or `ACQUIRE` with good operands (R195); an operand out of its range ends it at once with `NACK_RANGE`;
and a good one asks for admission under the module that its address names (R188, R249). -/
def Obligations.RemoteOperationsIssue : Prop :=
  ∀ (s : State) (p : Pane16) (c : LCell) (w : Nat) (i : Instr), Issues s p c w →
    (rowOp 9 0 w = true ∧ i = .put p c ∨ rowOp 9 1 w = true ∧ i = .get p c ∨ rowOp 9 2 w = true ∧ i = .rmoAdd p c
      ∨ rowOp 9 3 w = true ∧ i = .swap p c ∨ rowOp 9 4 w = true ∧ i = .compareSwap p c
      ∨ rowOp 9 5 w = true ∧ i = .rmoArrive p c ∨ rowOp 9 6 w = true ∧ i = .rmoWait p c
      ∨ rowOp 9 7 w = true ∧ i = .rmoAcquire p c ∨ rowOp 9 8 w = true ∧ i = .rmoRelease p c) →
    let x := cell s p.val c.val
    let op := wOp4 w
    let a := sreg x (fld w 98 94)
    let b := sreg x (fld w 93 89)
    let addr := BitVec.ofNat 64 (sreg x (fld w 113 109))
    let comp := sreg x (fld w 103 99)
    let loc := sreg x (fld w 108 104)
    let good : Prop := (op ≤ 1 → 1 ≤ a ∧ a ≤ 4194304) ∧ (op = 5 → 1 ≤ a ∧ a < 2 ^ 32) ∧ (op = 6 → a < 2 ^ 48)
      ∧ (op = 6 ∨ op = 7 → 1 ≤ b ∧ b ≤ 1048576)
    let ends : Prop := gaTier addr ≠ 1 ∧ comp + 16 ≤ 6291456 ∧ (op ≤ 1 → good → loc + a ≤ 6291456)
    (¬ends → ∃ v, exec i s = .next (cellFault s p.val c.val 0x03 x.pc v)) ∧
    (ends → ∃ o : RmoOp,
      let z := modRmo (modRmo (modCell (readFrom s p c) p.val c.val fun y => takeToken { y with pc := y.pc + 1 } (wToken w))
        p.val fun u => { u with nextTag := u.nextTag + 1 }) p.val fun u => { u with ops := u.ops ++ [o] }
      o.tag = (rmoOf s p.val).nextTag ∧ o.lcell = c.val ∧ o.token = wToken w ∧ o.index = x.pc ∧ o.op = BitVec.ofNat 4 op ∧
      o.comp = comp ∧ o.loc = loc ∧ o.opa = BitVec.ofNat 64 a ∧ o.opb = BitVec.ofNat 64 b ∧ o.tolerate = bitAt w 85 ∧
      o.torusRel = bitAt w 86 ∧ o.code = 0 ∧ o.retryAt = none ∧
      (op ≤ 1 → good → o.length = a) ∧ (op = 0 → good → o.data = readLocal x s.free loc a) ∧
      (good → op = 6 ∨ op = 7 → o.deadline = (s.time.beat + b, s.time.tick)) ∧
      (¬good ∨ op ≠ 6 ∧ op ≠ 7 → o.deadline = (s.time.beat + tmoBeats (fld w 88 87), s.time.tick)) ∧
      (¬good → exec i s = .next (completeOp z p.val o 0x11 0)) ∧
      (good → bitAt w 86 = false → o.device = BitVec.ofNat 16 (gaDevice addr) ∧ o.target = withDevice addr o.device ∧
        exec i s = .next (admitOp z p.val o)) ∧
      (good → bitAt w 86 = true → ∀ d, resolveDevice s p.val true addr = .device d →
        o.device = d ∧ o.target = withDevice addr d ∧ exec i s = .next (admitOp z p.val o)) ∧
      (good → bitAt w 86 = true → resolveDevice s p.val true addr = .nowhere → exec i s = .next z) ∧
      (good → bitAt w 86 = true → resolveDevice s p.val true addr = .pastEnd →
        exec i s = .next (completeOp z p.val o 0x11 0)))

/-- The request that has waited longest at a pane whose context is there is served: an atomic leaves the new word in
the near tier and answers with the old one (R189); a `GET` answers with its bytes; a `PUT` fragment leaves its bytes;
a request that a check of Table 08-7 turns away is answered with that check's code and changes nothing else; a `PUT` of
this module itself is checked and performed fragment by fragment (R202). A latch request acts on the latch (R212). While
responses of the pane wait for room in its queue, the next request waits too (R249). -/
def Obligations.RemoteRequestsServed : Prop :=
  ∀ (s : State) (p : Pane16) (m : Msg) (r : List Msg), (rmoOf s p.val).reqQ = m :: r → m.torusRel = false →
    ((rmoOf s p.val).respRest ≠ [] → exec (.requestMessageReceived p) s = .next s) ∧
    ((rmoOf s p.val).respRest = [] →
    let z := modRmo s p.val fun u => { u with reqQ := r }
    let e := exec (.requestMessageReceived p) s
    let op := m.op.toNat
    let ofs := gaOfs m.target
    let old := leNat (nearRead s p.val ofs 8)
    let a := leAt m.data 0 8
    let b := leAt m.data 8 8
    let new := if op = 2 then (old + a) % 2 ^ 64 else if op = 3 then a else if old = a then b else old
    let code := nearChecks z p.val m
    let one : Prop := m.data ≠ [] ∧ m.data.length ≤ fragMax (groupSealed s p.val)
    (paneLive s p.val = false → e = .next z) ∧
    (paneLive s p.val = true → (pane s p.val).state = .testing →
      (op ≠ 0 → e = .next (respondCode z p.val m 0x12)) ∧
      (op = 0 → e = .next ((fragsOf z p.val m).foldl (fun y f => putFragment y p.val f 0x12) z))) ∧
    (paneLive s p.val = true → (pane s p.val).state ≠ .testing →
      (op ≤ 4 → op ≠ 0 → code ≠ 0 → e = .next (respondCode z p.val m code)) ∧
      (2 ≤ op ∧ op ≤ 4 → code = 0 → rangePoison (nearOf s p.val) ofs 8 = false →
        e = .next (respond (nearWrite z p.val ofs (natLe 8 new)) p.val m 0 (natLe 8 old) (some (BitVec.ofNat 64 old)))) ∧
      (2 ≤ op ∧ op ≤ 4 → code = 0 → rangePoison (nearOf s p.val) ofs 8 = true →
        e = .next (respond z p.val m 0x20 (zeros 8) (some 0))) ∧
      (op = 1 → code = 0 → rangePoison (nearOf s p.val) ofs m.length.toNat = false → m.srcDevice = moduleId s →
        e = .next (respond z p.val m 0 (nearRead s p.val ofs m.length.toNat) (some 0))) ∧
      (op = 1 → code = 0 → m.srcDevice ≠ moduleId s ∨ rangePoison (nearOf s p.val) ofs m.length.toNat = true →
        let bad := rangePoison (nearOf s p.val) ofs m.length.toNat
        e = .next (respondGet (if bad then tookFree z else z) p.val m (if bad then 0x20 else 0))) ∧
      (op = 0 → one → code = 0 → e = .next (putFragment (nearWrite z p.val ofs m.data) p.val m 0)) ∧
      (op = 0 → one → code ≠ 0 → e = .next (putFragment z p.val m code)) ∧
      (op = 0 → e = .next ((fragsOf z p.val m).foldl (fun y f =>
        putFragment (if nearChecks y p.val f = 0 then nearWrite y p.val (gaOfs f.target) f.data else y) p.val f
          (nearChecks y p.val f)) z)) ∧
      (5 ≤ op ∧ op ≤ 8 → requestLatch z p.val m = none → e = .next (respondCode z p.val m 0x11)) ∧
      (5 ≤ op ∧ op ≤ 8 → ∀ i, requestLatch z p.val m = some i → admitted z p.val m 5 (16 * i) 16 = false →
        e = .next (respondCode z p.val m 0x10)) ∧
      (op = 5 → ∀ i, requestLatch z p.val m = some i → admitted z p.val m 5 (16 * i) 16 = true →
        ∃ y, (y = z ∨ y = orphanLatch z i) ∧ e = .next (respond (latchArrive y i a) p.val m 0 []
          (some (((latchOf y i).count + BitVec.ofNat 48 a).setWidth 64)))) ∧
      (6 ≤ op ∧ op ≤ 8 → ∀ i, requestLatch z p.val m = some i → admitted z p.val m 5 (16 * i) 16 = true →
        match latchRequest z op i a { device := m.srcDevice, pane := m.srcPane, lcell := m.srcCell, epoch := m.srcEpoch
                                      target := BitVec.ofNat 48 a, stamp := now s, localTok := none, req := some m } with
        | .done y k v => e = .next (if k ≤ 1 then respond y p.val m k [] (some v) else respondCode y p.val m k)
        | .waits y => e = .next y
        | .full => e = .next (turnAway z p.val m 0)) ∧
      (9 ≤ op → e = .next (respondCode z p.val m 0x11))))

/-- What ends an operation at its source, or delays it: the response to it completes it with its code and result (a
latch result that the wire does not carry is open, but a count observed by a `WAIT` meets it); the timeout completes
it with `ERR_TIMEOUT`; a refusal makes it wait for its retry-at beat, at which it asks for admission again; a response
of an operation that has ended, or of an earlier context, is discarded (R190, R195, R196). A window entry that is
being revoked becomes closed when its revocation is done, and the command that revoked it ends; an entry in any other
state, and every other entry, stays (R203). -/
def Obligations.RemoteOperationsAndRevocationsEnd : Prop :=
  (∀ (s : State) (p : Pane16) (o : RmoOp), (rmoOf s p.val).ops.find? (·.tag == o.tag) = some o →
     (∀ m r, (rmoOf s p.val).respQ = m :: r → m.tag = o.tag →
       let z := modRmo s p.val fun u => { u with respQ := r }
       let whole (m : Msg) : Prop := o.op ≠ 1 ∨ m.data = [] ∨ (m.code ≠ 0 ∧ m.code ≠ 0x20)
       (m.srcEpoch ≠ (pane s p.val).epoch ∨ cellAlive s p.val = false →
         exec (.responseMessageReceived p) s = .next z) ∧
       (m.srcEpoch = (pane s p.val).epoch → cellAlive s p.val = true → whole m → 2 ≤ m.op.toNat ∧ m.op.toNat ≤ 4 →
         exec (.responseMessageReceived p) s =
           .next (completeOp z p.val o m.code.toNat (BitVec.ofNat 64 (leAt m.data 0 8)))) ∧
       (m.srcEpoch = (pane s p.val).epoch → cellAlive s p.val = true → whole m →
         m.op.toNat ≤ 1 ∨ 7 ≤ m.op.toNat →
         exec (.responseMessageReceived p) s = .next (completeOp z p.val o m.code.toNat 0)) ∧
       (m.srcEpoch = (pane s p.val).epoch → cellAlive s p.val = true → whole m → m.op = 5 ∨ m.op = 6 →
         (∀ v, m.result = some v →
           exec (.responseMessageReceived p) s = .next (completeOp z p.val o m.code.toNat v)) ∧
         (m.result = none → ∃ v : BitVec 64, v.toNat < 2 ^ 48 ∧
           (m.op = 6 → waitMet (v.setWidth 48) (o.opa.setWidth 48) = true) ∧
           exec (.responseMessageReceived p) s = .next (completeOp (tookFree z) p.val o m.code.toNat v))) ∧
       (m.srcEpoch = (pane s p.val).epoch → cellAlive s p.val = true → ¬whole m →
         exec (.responseMessageReceived p) s = .next (getFragment z p.val o m))) ∧
     (∀ m r, (rmoOf s p.val).respQ = m :: r → (rmoOf s p.val).ops.all (·.tag != m.tag) = true →
       exec (.responseMessageReceived p) s = .next (modRmo s p.val fun u => { u with respQ := r })) ∧
     (∀ x r, (rmoOf s p.val).refQ = x :: r → x.tag = o.tag → exec (.refusalReceived p) s =
       .next (noteRefusal (modRmo s p.val fun u => { u with refQ := r }) p.val x.tag x.retryAt)) ∧
     (∀ b, o.retryAt = some b → b ≤ s.time.beat → (pane s p.val).state = .opened → exec (.rmoResend p o.tag) s =
       .next (admitOp (modOp s p.val o.tag fun _ => { o with retryAt := none }) p.val { o with retryAt := none })) ∧
     (reached s o.deadline = true → cellAlive s p.val = true → exec (.rmoTimeout p o.tag) s =
       .next (completeOp s p.val o 0x21 0)) ∧
     (reached s o.deadline = false → exec (.rmoTimeout p o.tag) s = .next s)) ∧
  (∀ (s : State) (p : Pane16) (n : BitVec 8),
     let ws := (rmoOf s p.val).windows
     (∀ v, tblFind ws n.toNat = some v → v.wstate = 2 → ∃ t, exec (.windowRevokeDone p n) s = .next t ∧
       tblFind (rmoOf t p.val).windows n.toNat = none ∧
       (∀ k, k ≠ n.toNat → tblFind (rmoOf t p.val).windows k = tblFind ws k) ∧
       ∀ q j, q < 18 → (mbx s q).job = some j → j.opcode = 0x0041 → j.start.isSome = true → j.outcome = none →
         prm j.packet 0 1 = p.val → prm j.packet 1 1 = n.toNat → Decides t q stOk) ∧
     (∀ v, tblFind ws n.toNat = some v → v.wstate ≠ 2 → exec (.windowRevokeDone p n) s = .next s) ∧
     (tblFind ws n.toNat = none → exec (.windowRevokeDone p n) s = .next s))

/-- After reset no cache holds a line of the Coherent Control Region, and no transaction is open. -/
def Obligations.CoherenceAtReset : Prop := CcrCoherent State.reset

/-- Every step keeps the Coherent Control Region coherent: two caches hold a line only shared, and a shared or
exclusive copy has the home's data; and the open transaction of a line still has to reach every cache that stands in
its way. -/
def Obligations.CoherenceKeptByEveryStep : Prop :=
  ∀ s t : State, CcrCoherent s → step s = .next t → CcrCoherent t

/-- R219: while a transaction is open on a line, a further request for it waits, and changes nothing else; an
acknowledgement with others outstanding leaves the transaction open; the last one ends it. -/
def Obligations.OneTransactionOnALine : Prop :=
  ∀ (s : State) (r : Fin 21) (n : BitVec 20) (x : CcrTxn), tblWf lineZero s.ccr = true →
    (ccrLine s n.toNat).txn = some x →
    let l := ccrLine s n.toNat
    (16384 ≤ n.toNat → ∀ own store, ∃ t, exec (.ccrRequest r n own store) s = .next t ∧
      (ccrLine t n.toNat).txn = some x ∧ (ccrLine t n.toNat).copies = l.copies ∧ (ccrLine t n.toNat).data = l.data ∧
      (ccrLine t n.toNat).waiting = queueReq { requester := r.val, own := own, store := store, at' := now s } l.waiting) ∧
    (x.acks.contains r.val = true → ∃ t, exec (.ccrSnoopAck r n) s = .next t ∧
      (x.snoops ≠ [] ∨ (∃ a ∈ x.acks, a ≠ r.val) →
        (ccrLine t n.toNat) = { l with txn := some { x with acks := x.acks.filter (· != r.val) } }) ∧
      (x.snoops = [] → (∀ a ∈ x.acks, a = r.val) → l.waiting = [] →
        (ccrLine t n.toNat) = grantLine { l with txn := none } x.req ∧ (ccrLine t n.toNat).txn = none))

/-- A request for a line that no other cache holds and on which nothing is open is granted at once: a reader takes it
exclusive, an owner takes it and performs its store before any later snoop (R221), and the uncached requester reads or
writes at the home. Where other caches hold it, an owner first has each of them snooped, and a reader joins those that
share it. Latch lines are never cached (R218). A writeback brings a modified line home, and its cache gives it up; a
snoop brings a modified line home, and leaves the cache without a copy for an owner, or with a shared one for a
reader; a cache that a transaction does not snoop answers nothing (R220). -/
def Obligations.CoherentRequestsWritebacksAndSnoops : Prop :=
  (∀ (s : State) (r : Fin 21) (n : BitVec 20) (own : Bool) (store : Option (BitVec 64 × BitVec 512)),
     tblWf lineZero s.ccr = true → (∀ k, tblWf copyZero (ccrLine s k).copies = true) →
     (ccrLine s n.toNat).txn = none → (ccrLine s n.toNat).waiting = [] →
     let l := ccrLine s n.toNat
     let q : CcrReq := { requester := r.val, own := own, store := store, at' := now s }
     let e := exec (.ccrRequest r n own store) s
     let others : Prop := ∃ a, a ≠ r.val ∧ (copyOf l a).state ≠ .i
     let dirty : Prop := ∃ a, a ≠ r.val ∧ ((copyOf l a).state = .m ∨ (copyOf l a).state = .e)
     (n.toNat < 16384 → e = .next s) ∧
     (16384 ≤ n.toNat → ∃ t, e = .next t ∧
       let l' := ccrLine t n.toNat
       (∀ k, k ≠ n.toNat → ccrLine t k = ccrLine s k) ∧
       (r.val = 20 → own = true → ¬others → l' = { l with data := storeLine l.data store }) ∧
       (r.val = 20 → own = false → ¬dirty → l' = l) ∧
       (r.val ≠ 20 → own = true → ¬others →
         (copyOf l' r.val).data = storeLine (if (copyOf l r.val).state = .m then (copyOf l r.val).data else l.data) store ∧
         (store.isSome = true → (copyOf l' r.val).state = .m) ∧ l'.data = l.data ∧ l'.txn = none) ∧
       (r.val ≠ 20 → own = false → (copyOf l r.val).state ≠ .i → ¬dirty → l' = l) ∧
       (r.val ≠ 20 → own = false → (copyOf l r.val).state = .i → ¬others →
         copyOf l' r.val = { state := .e, data := l.data } ∧ l'.data = l.data ∧ l'.txn = none) ∧
       (r.val ≠ 20 → own = false → (copyOf l r.val).state = .i → others → ¬dirty →
         copyOf l' r.val = { state := .s, data := l.data } ∧ l'.data = l.data ∧ l'.txn = none) ∧
       ((own = true ∧ others) ∨ (own = false ∧ dirty) →
         l'.copies = l.copies ∧ l'.data = l.data ∧
         ∃ x, l'.txn = some x ∧ x.req = q ∧ x.acks = [] ∧ ∀ a, a ∈ x.snoops ↔ a ≠ r.val ∧
           (if own = true then (copyOf l a).state ≠ .i else (copyOf l a).state = .m ∨ (copyOf l a).state = .e)))) ∧
  (∀ (s : State) (r : Fin 21) (n : BitVec 20), tblWf lineZero s.ccr = true →
     (∀ k, tblWf copyZero (ccrLine s k).copies = true) →
     let l := ccrLine s n.toNat
     let c := copyOf l r.val
     (c.state = .m → ∃ t, exec (.ccrWriteback r n) s = .next t ∧
       (ccrLine t n.toNat).data = c.data ∧ copyOf (ccrLine t n.toNat) r.val = copyZero ∧
       (∀ a, a ≠ r.val → copyOf (ccrLine t n.toNat) a = copyOf l a) ∧ (ccrLine t n.toNat).txn = l.txn) ∧
     (c.state ≠ .m → exec (.ccrWriteback r n) s = .next s) ∧
     (∀ x, l.txn = some x → x.snoops.contains r.val = true → ∃ t, exec (.ccrSnoop r n) s = .next t ∧
       (ccrLine t n.toNat).data = (if c.state = .m then c.data else l.data) ∧
       (x.req.own = true ∨ c.state = .i → copyOf (ccrLine t n.toNat) r.val = copyZero) ∧
       (x.req.own = false → c.state ≠ .i → copyOf (ccrLine t n.toNat) r.val = { c with state := .s }) ∧
       (∀ a, a ≠ r.val → copyOf (ccrLine t n.toNat) a = copyOf l a) ∧
       (ccrLine t n.toNat).txn = some { x with snoops := x.snoops.filter (· != r.val), acks := x.acks ++ [r.val] }) ∧
     ((∀ x, l.txn = some x → x.snoops.contains r.val = false) → exec (.ccrSnoop r n) s = .next s))

/-- A marker is good when its beat word came whole and passes the CRC (R16, R17). In `UNSYNC` and `FREE_RUN` the
fourth consecutive good marker, on time and numbered one above the last, locks the module at its number, at tick 0,
and `TRIM_ACTIVE` takes the stored trim (R19, R25); a first good marker counts 1; a bad one counts a phase hit and
begins the count again. In `HOLDOVER` the fourth consecutive valid marker locks the module without stepping its
counters (R33). In `LOCKED` and `HOLDOVER` a bad marker costs a phase hit of the beat of the count that it falls in,
unless that beat has its valid marker or its hit already, and the run of valid markers begins again (R17). -/
def Obligations.MarkersLockTheModule : Prop :=
  ∀ (s : State) (word : BitVec 48) (crc : BitVec 8) (whole : Bool),
    let good : Prop := whole = true ∧ beatCrc word.toNat = crc.toNat
    let e := exec (.beatMarker word crc whole) s
    let u := s.time
    let loose : Prop := u.mode = .unsync ∨ u.mode = .freeRun
    (loose → good → ∀ n w, u.lastMarker = some (n, w) → word.toNat = n + 1 → (nowTicks s - w - 8192).natAbs ≤ 16 →
      u.goodMarkers = 3 → ∃ t, e = .next t ∧ t.time.mode = .locked ∧ t.time.beat = word.toNat ∧ t.time.tick = 0 ∧
        t.time.trimActive = u.trim ∧ t.time.phaseHits = u.phaseHits) ∧
    (loose → good → u.lastMarker = none → e = .next (modTime s fun v =>
      { v with lastMarker := some (word.toNat, nowTicks s), goodMarkers := 1 })) ∧
    (loose → ¬good → ∃ t, e = .next t ∧ t.time = { u with
      goodMarkers := 0, phaseHits := BitVec.ofNat 16 (satAdd 16 u.phaseHits.toNat 1) }) ∧
    (u.mode = .holdover → good → onTime s word.toNat = true → 0 < word.toNat → u.markerFor = some (word.toNat - 1) →
      u.goodMarkers = 3 → ∃ t, e = .next t ∧ t.time.mode = .locked ∧ t.time.beat = u.beat ∧ t.time.tick = u.tick ∧
        t.time.lead = u.lead) ∧
    (u.mode = .locked → good → onTime s word.toNat = true → u.markerFor ≠ some word.toNat →
      ∃ t, e = .next t ∧ t.time.mode = .locked ∧ t.time.markerFor = some word.toNat ∧ t.time.beat = u.beat) ∧
    (u.mode = .locked ∨ u.mode = .holdover → ¬good →
      ∃ t, e = .next t ∧ t.time.mode = u.mode ∧ t.time.goodMarkers = 0 ∧ t.time.markerFor = u.markerFor ∧
        (u.markerFor = some (markerBeat s) ∨ u.hitFor = some (markerBeat s) → t.time.phaseHits = u.phaseHits) ∧
        (u.markerFor ≠ some (markerBeat s) → u.hitFor ≠ some (markerBeat s) → t.time.hitFor = some (markerBeat s) ∧
          t.time.phaseHits = BitVec.ofNat 16 (satAdd 16 u.phaseHits.toNat 1)))

/-- R27: when the module is `LOCKED` and a beat passes without a valid marker, it enters `HOLDOVER` at that beat and
counts it as beat 1 of the episode. -/
def Obligations.MissingMarkerEntersHoldover : Prop :=
  ∀ s : State, s.time.mode = .locked → markerMissed s = true →
    ∃ t, exec .missingMarker s = .next t ∧ t.time.mode = .holdover ∧ t.time.holdoverBeats = 1 ∧
      t.time.beat = s.time.beat ∧ t.time.holdFor = some s.time.beat

/-- Every beat of a holdover episode counts once (R28, R29), until the limit is reached; the beat after the limit
leaves `HOLDOVER` for `FREE_RUN`, and every Plan that runs is marked as ended by loss of time (R31). -/
def Obligations.HoldoverBeatsAndLimit : Prop :=
  ∀ s : State, s.time.mode = .holdover →
    (s.time.holdFor ≠ some s.time.beat → s.time.holdoverBeats.toNat < s.time.episodeLimit →
      ∃ t, exec .holdoverBeat s = .next t ∧ t.time.holdFor = some s.time.beat ∧ t.time.mode = .holdover ∧
        t.time.holdoverBeats = BitVec.ofNat 32 (satAdd 32 s.time.holdoverBeats.toNat 1)) ∧
    (s.time.holdFor = some s.time.beat → exec .holdoverBeat s = .next s ∧ exec .holdoverLimitReached s = .next s) ∧
    (s.time.holdFor ≠ some s.time.beat → s.time.episodeLimit ≤ s.time.holdoverBeats.toNat →
      ∃ t, exec .holdoverLimitReached s = .next t ∧ t.time.mode = .freeRun ∧ t.time.beat = s.time.beat ∧
        ∀ g ∈ t.groups, planRunning g = true → g.ended = some .lostTime)

/-- A beat boundary of a module that is up: the beat counter takes its next number, and the tick count begins again,
but for the one-tick corrections of R33 and a boundary that a lock has put off (R542). R19, R41: a write of
`BEAT_TRIM` by the physical function or the fabric manager stores `TRIM`, and leaves the trim in force and the beat
boundary where they are; other accessors do not reach it. While the module is locked the write is recorded. -/
def Obligations.BeatBoundaryAndTrim : Prop :=
  (∀ s : State,
     (s.power.hubUp = false → exec .beatBoundary s = .next s) ∧
     (s.power.hubUp = true → ∃ t, exec .beatBoundary s = .next t ∧
       (s.time.lead = 0 → t.time.beat = s.time.beat + 1) ∧ (s.time.lead = 0 → s.time.phaseError = 0 → t.time.tick = 0) ∧
       (0 < s.time.lead → t.time = { s.time with lead := 0 }) ∧ t.time.mode = s.time.mode ∧ t.time.trim = s.time.trim)) ∧
  (∀ (s : State) (v : BitVec 32),
     (∀ a, a = Accessor.pf ∨ a = Accessor.fm → ∃ t, exec (.beatTrimWrite a v) s = .next t ∧
       t.time = { s.time with trim := v.setWidth 12 } ∧ (plansRun s = false → t.evrec = s.evrec) ∧
       (plansRun s = true → t.evrec = (record s 0x0102 srcBeat noPane
         (natLe 2 (v.setWidth 12).toNat ++ natLe 2 s.time.trimActive.toNat)).evrec)) ∧
     exec (.beatTrimWrite .sideband v) s = .next s ∧ ∀ n, exec (.beatTrimWrite (.vf n) v) s = .next s)

/-- An accepted start whose epoch begins, and whose job no abort has reached, takes effect: the run of the group has
begun, at its first step, and the cells' sequencers stand before their first entries with issue free (R21, R55). -/
def Obligations.PlanStartsAtItsEpoch : Prop :=
  ∀ (s : State) (lead : Pane16) (g : Group) (d : List Byte) (r : Run),
    groupLed s lead.val = some g → g.plan = some d → g.run = some r → r.started = false → g.ended = none →
    g.abortDue = none → plansRun s = true → s.time.beat = r.epoch * 4096 →
    ∃ t r', exec (.planEpochStart lead) s = .next t ∧ (groupLed t lead.val).bind (·.run) = some r' ∧
      r'.started = true ∧ r'.planStep = 0 ∧ r'.stepStart = s.time.beat ∧ r'.firstStep = r.firstStep ∧ r'.nextBeat ≤ 1 ∧
      ∀ p ∈ maskPanes g.members, ∀ l, l < 32 →
        (cell t p l).halted = false ∧ (cell t p l).running = false ∧ (cell t p l).seqIdx = 0 ∧ (cell t p l).seqStep = 0

/-- At the end of a plan step every pane of the group counts it, with the beats it took; the next step begins, or,
when a stop is due or the steps have run out, the Plan ends as stopped (R55, R130, R351). -/
def Obligations.StepBoundaryEndsTheStep : Prop :=
  ∀ (s : State) (lead : Pane16) (g : Group) (d : List Byte) (r : Run),
    groupLed s lead.val = some g → g.plan = some d → g.run = some r → r.started = true → g.ended = none →
    plansRun s = true → r.held = none → (r.planStep + 1) * planStepBeats d < r.nextBeat →
    ∃ t g', exec (.stepBoundary lead) s = .next t ∧ groupLed t lead.val = some g' ∧
      (∀ p ∈ maskPanes g.members, (pane t p).regs.stepsDone = inc16 (pane s p).regs.stepsDone ∧
        (pane t p).regs.lastStepBeats = BitVec.ofNat 24 (min (2 ^ 24 - 1) (s.time.beat - r.stepStart))) ∧
      (r.stopping = true ∨ r.stepCount = r.planStep + 1 → g'.run = none ∧ g'.ended = some .stopped) ∧
      (r.stopping = false → r.stepCount ≠ r.planStep + 1 → ∃ r', g'.run = some r' ∧ r'.planStep = r.planStep + 1 ∧
        r'.stepStart = s.time.beat ∧ r'.nextBeat = r.nextBeat ∧ g'.ended = none)

/-- A cell whose next block is due, and free to start, starts it: its `pc` is the block's first instruction, no loop
is open, it draws with the seeds and the step of the job, the sequencer stands at the next entry or, after the last,
at the first of the next step, and `LATE_MAX` of the pane holds the greatest lateness (R55, R56, R58, R99). A block
that has passed its slack makes its pane ask for a hold (R57); at a grid beat of a job of several modules, a pane that
asked in an earlier beat, a block overdue at the boundary that the beat began with, or something not ready for the hold
period raises HOLD, and the group is to hold the next period (R273, R276). Sequencers run on to the end of the beat in
which time is lost (R31). -/
def Obligations.BlocksStartAndLatenessHolds : Prop :=
  (∀ (s : State) (p : Pane16) (l : LCell) (g : Group) (d : List Byte) (r : Run) (at' : Nat),
     groupOf s p.val = some g → g.plan = some d → g.run = some r → r.started = true → issuesStill s g = true →
     slotsRun s = true → (pane s p.val).resetUntil = none → nextBlock d r (cell s p.val l.val) = some at' →
     let c := cell s p.val l.val
     let e := nextEntry c
     (blockReady s d r c at' = true → exec (.blockStart p l) s =
       .next (modPane (setCell s p.val l.val { c with
           running := true, pc := seqPc e, loops := [], jobStep := r.firstStep + c.seqStep, k0 := r.k0, k1 := r.k1
           seqIdx := if seqLast e = true then 0 else c.seqIdx + 1
           seqStep := if seqLast e = true then c.seqStep + 1 else c.seqStep }) p.val fun x =>
         { x with regs := { x.regs with
           lateMax := BitVec.ofNat 32 (max x.regs.lateMax.toNat (min (2 ^ 32 - 1) (latenessAt s r at'))) } })) ∧
     (blockReady s d r c at' = false → exec (.blockStart p l) s = .next s)) ∧
  (∀ (s : State) (p : Pane16) (l : LCell) (g : Group) (d : List Byte) (r : Run),
     groupOf s p.val = some g → g.plan = some d → g.run = some r → r.started = true → g.ended = none → plansRun s = true →
     let must : Prop := soonUnready s g d r (2 * holdGrid d) = true ∨ (∃ w, r.wantHold = some w ∧ w.2 < s.time.beat) ∨
       overdueCause s g d (atStart r) ≠ none
     (overdueAt d r (planNow s r) (cell s p.val l.val) = true → exec (.slackExpired p l) s =
       .next (modRun s (leadOf g.members) fun r =>
         { r with wantHold := some (r.wantHold.getD (lateCause g d r p.val, s.time.beat)) })) ∧
     (overdueAt d r (planNow s r) (cell s p.val l.val) = false → exec (.slackExpired p l) s = .next s) ∧
     (planModules d ≠ 1 → s.time.beat % holdGrid d = 0 →
         (must → ∃ t, exec (.gridBeat p) s = .next t ∧
           { job := groupTag s g, beat := s.time.beat, raised := true } ∈ t.collU.holds ∧
           ∀ x ∈ t.groups, leadOf x.members = leadOf g.members → groupTag s x = groupTag s g → x.ended = none →
             ∀ q, x.run = some q → q.periods.any (·.1 == s.time.beat + holdGrid d) = true ∧
               ∀ w, q.wantHold = some w → w.2 = s.time.beat) ∧
         (¬must → exec (.gridBeat p) s = .next s)))

/-- Training (Table 09-1, R228): presence, equalisation, alignment with a link delay of at most 4,095 ticks (R225),
and the port is in the next state; an attempt that runs into its bound leaves the port `DOWN` to wait 64 x 2^k to 64 x
2^(k+1) - 1 beats, k being the failed attempts in a row, at most 6; a port whose wait is over looks for its peer
again. Negotiation (R229 to R231): with the tables loaded, a peer of another major version, or in another place than
the coordinate table gives, leaves the port in `CABLE_FAULT`; any other peer makes it `ACTIVE`, with what the two ends
agree on and its credits whole, or leaves it in `FAILED` where a direction has fewer than four usable lanes (R227).
The fabric manager's order brings a port in `CABLE_FAULT` or `FAILED` back to `DETECT`, with its lanes repaired. -/
def Obligations.TrainingAndNegotiation : Prop :=
  (∀ (s : State) (q : PortId),
     let p := q.val
     let x := portOf s p
     let goes (st : BitVec 4) : Host.Outcome State Fault Refusal :=
       .next (modPort s p fun y => { y with state := st, since := s.time.beat })
     (x.state = 1 → exec (.presenceDetected q) s = goes 2) ∧ (x.state ≠ 1 → exec (.presenceDetected q) s = .next s) ∧
     (x.state = 2 → exec (.equalizeDone q) s = goes 3) ∧ (x.state ≠ 2 → exec (.equalizeDone q) s = .next s) ∧
     (∀ n, x.state = 3 → n ≤ 4095 → ∃ t, exec (.alignDone q n) s = .next t ∧
       portOf t p = { x with state := 4, since := s.time.beat, linkDelay := BitVec.ofNat 12 n }) ∧
     (∀ n, x.state ≠ 3 ∨ 4095 < n → exec (.alignDone q n) s = .next s) ∧
     (∀ b, linkBound x.state = some b → x.since + b ≤ s.time.beat → (x.state = 4 → tablesLoaded s = true) →
       ∃ t w, exec (.trainingTimeout q) s = .next t ∧
         portOf t p = { x with state := 0, since := s.time.beat, attempts := x.attempts + 1, backoff := some (s.time.beat + w) } ∧
         64 * 2 ^ min 6 (x.attempts + 1) ≤ w ∧ w < 64 * 2 ^ (min 6 (x.attempts + 1) + 1)) ∧
     (∀ b, linkBound x.state = some b → s.time.beat < x.since + b → exec (.trainingTimeout q) s = .next s) ∧
     (s.power.hubUp = true → s.test.parked = false → s.test.hub ≠ tsActive → x.state = 0 → portUnused s p = false →
       retrainBeat s x ≤ s.time.beat → exec (.trainingBackoffExpired q) s = goes 1) ∧
     (s.time.beat < retrainBeat s x → exec (.trainingBackoffExpired q) s = .next s)) ∧
  (∀ (s : State) (q : PortId) (peer : Sill),
     let p := q.val
     let x := portOf s p
     (x.state = 4 → tablesLoaded s = true → peer.llMajor = 1 → cablingOk s p peer = true →
       (lanesEnough (trafOf s p).lanesRx = true → lanesEnough (trafOf s p).lanesTx = true →
         ∃ t, exec (.negotiateDone q peer) s = .next t ∧ (portOf t p).state = 5 ∧
           (portOf t p).peerDevice = peer.srcDevice ∧ (portOf t p).attempts = 0 ∧
           (portOf t p).splitMismatch = (peer.split.toNat != s.power.slotSplit.toNat) ∧
           (trafOf t p).sent = [] ∧ (trafOf t p).returned = [] ∧ (trafOf t p).freed = []) ∧
       (lanesEnough (trafOf s p).lanesRx = false ∨ lanesEnough (trafOf s p).lanesTx = false →
         ∃ t, exec (.negotiateDone q peer) s = .next t ∧ (portOf t p).state = 7)) ∧
     (x.state = 4 → tablesLoaded s = true → peer.llMajor ≠ 1 ∨ cablingOk s p peer = false →
       ∃ t, exec (.negotiateDone q peer) s = .next t ∧ (portOf t p).state = 6) ∧
     (x.state ≠ 4 ∨ tablesLoaded s = false → exec (.negotiateDone q peer) s = .next s) ∧
     (x.state = 6 ∨ x.state = 7 → ∃ t, exec (.portRetrainingOrder q) s = .next t ∧ (portOf t p).state = 1 ∧
       (portOf t p).attempts = 0 ∧ (portOf t p).since = s.time.beat) ∧
     (x.state = 7 → ∃ t, exec (.portRetrainingOrder q) s = .next t ∧ (trafOf t p).lanesRx = 0 ∧ (trafOf t p).lanesTx = 0) ∧
     (x.state ≠ 6 → x.state ≠ 7 → exec (.portRetrainingOrder q) s = .next s))

/-- A port that may send sends one sill a beat, before its slots, that carries its beat, module, port number and time
state (R224, R232, Table 09-2). A good sill on time brings an `ACTIVE` port its peer's credits; two bad sills in a row,
an arrival more than 128 ticks from the module's own beat boundary plus the link delay, or another beat number while
both ends are locked, put the port out of step, back to `ALIGN` (R225). The lane switches whose beat has come take
effect, and only they (R226), and one that leaves a direction fewer than four lanes fails the port (R227); a requested
slot that has not come within 8 beats fails the port (R245). -/
def Obligations.SillsLanesAndReplays : Prop :=
  (∀ (s : State) (q : PortId) (m : Sill) (crc : BitVec 32),
     let p := q.val
     let recv := exec (.sillReceived q m crc) s
     let due := sillResidual s p
     let intact : Prop := crc.toNat = sillCrc m
     let timely : Prop := -128 ≤ due.1 ∧ due.1 ≤ 128
     let locked (c : Nat) : Prop := c = 1 ∨ c = 2
     let agrees : Prop := locked (timeCode s.time.mode) → locked m.timeState.toNat → m.beat.toNat = due.2
     (s.power.hubUp = true → sillState (portOf s p).state = true → (trafOf s p).txNext = 0 → ∃ t x, exec (.sillTransmit q) s = .next t ∧
       (trafOf t p).lastSill = some x ∧ x.beat = BitVec.ofNat 48 s.time.beat ∧ x.srcDevice = moduleId s ∧
       x.srcPort = BitVec.ofNat 8 p ∧ x.timeState = BitVec.ofNat 8 (timeCode s.time.mode) ∧ x.replayReq.length ≤ 16 ∧
       (trafOf t p).txNext = 1) ∧
     (s.power.hubUp = false ∨ sillState (portOf s p).state = false ∨ (trafOf s p).txNext ≠ 0 → exec (.sillTransmit q) s = .next s) ∧
     (portActive s p = false → recv = .next s) ∧
     (portActive s p = true →
       (intact → timely → agrees → ∃ t, recv = .next t ∧ portActive t p = true ∧ (trafOf t p).badSills = 0 ∧
         (trafOf t p).rxBeat = m.beat.toNat ∧
         ∀ c, c < 4 → tblWf 0 (trafOf s p).returned = true →
           tblGet 0 (trafOf t p).returned c = (m.creditRet.getD c 0).toNat) ∧
       (intact → ¬(timely ∧ agrees) → ∃ t, recv = .next t ∧ (portOf t p).state = 3) ∧
       (¬intact → (trafOf s p).badSills = 0 → recv = .next (modTraf s p fun t =>
         { t with badSills := 1, rxBeat := t.rxBeat + 1 })) ∧
       (¬intact → 1 ≤ (trafOf s p).badSills → ∃ t, recv = .next t ∧ (portOf t p).state = 3))) ∧
  (∀ (s : State) (q : PortId),
     let p := q.val
     let sw := (trafOf s p).switches
     ((∀ w ∈ sw, s.time.beat < w.1) → exec (.laneSwitch q) s = .next s) ∧
     (∀ w, sw = [w] → w.1 ≤ s.time.beat →
       let tx := if w.2.1 = 0 then (trafOf s p).lanesTx ||| (1#5 <<< w.2.2) else (trafOf s p).lanesTx
       ∃ t, exec (.laneSwitch q) s = .next t ∧ (trafOf t p).switches = [] ∧ (trafOf t p).lanesTx = tx ∧
         (lanesEnough tx = true → (portOf t p).idleLane = BitVec.ofNat 3 w.2.2 ∧ (portOf t p).state = (portOf s p).state) ∧
         (lanesEnough tx = false → (portOf t p).state = 7)) ∧
     (portActive s p = true → (∃ w ∈ (trafOf s p).wanted, w.since + 8 < s.time.beat) →
       ∃ t, exec (.replayTimeout q) s = .next t ∧ (portOf t p).state = 7 ∧ (trafOf t p).wanted = []) ∧
     (portActive s p = false ∨ (∀ w ∈ (trafOf s p).wanted, s.time.beat ≤ w.since + 8) →
       exec (.replayTimeout q) s = .next s))

/-- An `ACTIVE` port sends its slots one after the other, each once in a beat and after the sill (R224). Every slot
that it sends carries its slot number, the beat and this module's identifier; slot 255 of a beat whose number mod 64
is 0 carries `RECAL` and nothing else (R242). A port that is not `ACTIVE` sends none. A slot with an uncorrectable
codeword, one whose check fails and one of a reserved kind are asked for again (R243); a failed check is counted, and
may fail the port. A slot that comes whole acts by its kind; an `IDLE` or `RECAL` slot without flags changes nothing
but the error counts. -/
def Obligations.SlotsAreSentAndReceived : Prop :=
  (∀ (s : State) (q : PortId) (n : BitVec 8),
     let p := q.val
     (s.power.hubUp = false ∨ portActive s p = false ∨ (trafOf s p).txNext ≠ n.toNat + 1 →
       exec (.slotTransmit q n) s = .next s) ∧
     (s.power.hubUp = true → portActive s p = true → (trafOf s p).txNext = n.toNat + 1 → (trafOf s p).replayDue = [] →
       ∃ t x, exec (.slotTransmit q n) s = .next t ∧ (trafOf t p).lastSlot = some x ∧ x.hdr.slotNo = n ∧
         x.hdr.beat = BitVec.ofNat 48 s.time.beat ∧ x.hdr.srcDevice = moduleId s ∧ x.hdr.cvPresent = (portOf s p).cvMode ∧
         (trafOf t p).txNext = n.toNat + 2) ∧
     (s.power.hubUp = true → portActive s p = true → (trafOf s p).txNext = n.toNat + 1 → n = 255 → s.time.beat % 64 = 0 →
       ∃ t x, exec (.slotTransmit q n) s = .next t ∧ (trafOf t p).lastSlot = some x ∧ x.hdr.kind = 7 ∧
         x.payload = recalPattern ∧ t.groups = s.groups ∧ t.panes = s.panes ∧ (trafOf t p).out = (trafOf s p).out)) ∧
  (∀ (s : State) (q : PortId) (rx : RxSlot),
     let p := q.val
     let n := rx.img.hdr.slotNo.toNat
     let asked (t : State) : Prop := (trafOf t p).wanted.any (fun w => w.beat == (trafOf s p).rxBeat && w.slot == n) = true
     let e := exec (.slotReceived q rx) s
     let counted := modErrs s p fun c => { c with
       fecCorrected := BitVec.ofNat 24 (satAdd 24 c.fecCorrected.toNat rx.correctedCodewords)
       fecUncorr := BitVec.ofNat 16 (satAdd 16 c.fecUncorr.toNat 0) }
     (s.power.hubUp = false ∨ portActive s p = false → e = .next s) ∧
     (s.power.hubUp = true → portActive s p = true →
       (rx.uncorrectable = true → ∃ t, e = .next t ∧ asked t) ∧
       (rx.uncorrectable = false → rx.laneSymbols = [] →
         (checkHolds s p rx.img = false → ∃ t, e = .next t ∧ (asked t ∨ (portOf t p).state = 7)) ∧
         (checkHolds s p rx.img = true → e = .next (takeSlot counted p rx.img rx.dest)) ∧
         (checkHolds s p rx.img = true → 8 ≤ rx.img.hdr.kind.toNat → ∃ t, e = .next t ∧ asked t) ∧
         (checkHolds s p rx.img = true → rx.img.hdr.kind = 0 ∨ rx.img.hdr.kind = 7 → rx.img.hdr.hold = false →
           rx.img.hdr.abort = false → e = .next counted))))

/-- R263 to R266: the sum that a BX64 reduction leaves of several rows of items, and the maximum of its exponent
pre-pass, depend neither on the order in which the rows are added nor on the hop or the elements they are added at. -/
def Obligations.BlockFloatSumsAreOrderFree : Prop :=
  ∀ (x : CollEnv) (pass : ChunkPass) (hop hop' elem elem' : Nat) (rows rows' : List (List Nat)),
    (pass = .reduce → x.c.wire = 0) → rows.Perm rows' →
    x.addRows pass hop elem rows = x.addRows pass hop' elem' rows'

/-- A chunk of a collective in progress that may advance does (R258 to R260). In a reduce-scatter its items are added,
the running value first and this member's own after it (R267), at the hops counted over the stages before (R268); the
sum leaves on its next hop, and what is final in the stage goes on to the next stage or is finished. In an all-gather
what comes in is written, and may leave again, and this member's own part leaves and is written. Poison in what a
chunk is made of raises an abort instead (Table 10-6). Otherwise no chunk advances: not in a held beat, not out of the
ring's place, and not before two plan beats have passed. A collective whose output is all written ends: it leaves the
collectives in progress, its norm joins the step's sum, and its latch has its `ARRIVE`; with neither `NORM` nor
`NOISE` set no record is written (R270 to R272). -/
def Obligations.CollectivesAdvanceAndEnd : Prop :=
  (∀ (s : State) (lead : Pane16) (g : Group) (d : List Byte) (r : Run) (c : CollRun) (coll : Nat) (id : ChunkId)
     (inp out : Option ChunkAt),
     groupLed s lead.val = some g → g.plan = some d → g.run = some r →
     let e := exec (.chunkAdvance lead coll id inp out) s
     let x0 : CollEnv :=
       { g := g, d := d, c := planColl d coll, k0 := r.k0, k1 := r.k1, step := r.firstStep + r.planStep }
     let x : CollEnv := { x0 with step := r.firstStep + c.step }
     let z := modRun s lead.val fun _ => r
     let poisoned (k : ChunkAt) : Prop := x.stagedPoison z id.pass id.count k = true
     (r.colls.find? (fun y => y.index == coll) = some c → joinAlone s x0 r coll = r → r.started = true → r.held = none →
       g.ended = none → plansRun s = true → coll < collCount d →
       (x.hasPass id.pass = false → e = .next z) ∧
       (x.hasPass id.pass = true → id.pass = .exponents ∨ id.pass = .reduce →
         (x.stepOf z id = none → e = .next z) ∧
         (∀ p own, x.stepOf z id = some p → x.ownItems z c id = some own →
           let first : Prop := p.own = true ∧ (x.before id.axis.val).1 = none
           let sums := x.addRows id.pass ((x.before id.axis.val).2 + p.hops) id.elem
             (inp.toList.map (x.staged z id.pass id.count) ++ (if p.own = true then [own] else []))
           (x.reduceReady r coll c id inp out p = false → e = .next z) ∧
           (x.reduceReady r coll c id inp out p = true →
             ((first ∧ x.srcPoison z id.elem id.count = true) ∨ (∃ k, inp = some k ∧ poisoned k) →
               e = .next (abortGroup z g x.c.ident 1)) ∧
             (¬(first ∧ x.srcPoison z id.elem id.count = true) → (∀ k, inp = some k → ¬poisoned k) →
               ∃ z1, (¬first ∨ id.pass = .exponents ∨ id.tray = true → z1 = z) ∧
                 (first → id.pass = .reduce → id.tray = false →
                   z1 = x.noteNoise z lead.val coll (x.contributions z id.elem id.count).flatten) ∧
                 (p.last = false → e = .next (noteChunk (x.sendOn z1 id.pass sums out) lead.val coll id inp out)) ∧
                 (p.last = true → (∀ a ∈ x.stages, a ≤ id.axis.val) → e = .next (noteChunk
                   (x.finish (x.sendOn z1 id.pass sums out) lead.val c id.pass coll id.elem sums) lead.val coll id inp out)) ∧
                 (p.last = true → (∃ a ∈ x.stages, id.axis.val < a) → e = .next (noteChunk
                   (modColl (x.sendOn z1 id.pass sums out) lead.val coll fun y =>
                     { y with held := y.held ++ [{ id := id, items := sums }] }) lead.val coll id inp out)))))) ∧
       (x.hasPass id.pass = true → id.pass = .exponentsBack ∨ id.pass = .gather →
         (x.gatherReady z r coll c id inp out = false → e = .next z) ∧
         (x.gatherReady z r coll c id inp out = true →
           (∀ k, inp = some k → poisoned k → e = .next (abortGroup z g x.c.ident 1)) ∧
           (inp = none → x.heldPoison z c id = true → e = .next (abortGroup z g x.c.ident 1)) ∧
           (∀ k, inp = some k → ¬poisoned k →
             let items := x.staged z id.pass id.count k
             (id.pass = .exponentsBack → e = .next (noteChunk
               (CollEnv.keepExpo (x.sendOn z id.pass items out) lead.val coll id.elem items) lead.val coll id inp out)) ∧
             (id.pass = .gather → e = .next (noteChunk
               (x.writeOut (x.sendOn z id.pass items out) lead.val coll id.elem items) lead.val coll id inp out))) ∧
           (∀ k, inp = none → out = some k → x.heldPoison z c id = false →
             e = .next (noteChunk (x.stageOut z id.pass k (x.heldItems z c id)) lead.val coll id inp out)) ∧
           (id.pass = .gather → inp = none → out = none → x.heldPoison z c id = false →
             e = .next (noteChunk (x.noteNoise (x.writeOut z lead.val coll id.elem (x.heldItems z c id)) lead.val coll
               ((x.heldItems z c id).map (fmtDecode x.c.inFmt))) lead.val coll id inp out))))) ∧
     (r.held ≠ none ∨ r.started = false ∨ g.ended ≠ none ∨ plansRun s = false → e = .next s)) ∧
  (∀ (s : State) (lead : Pane16) (g : Group) (d : List Byte) (r : Run) (c : CollRun) (coll : Nat)
     (norm noise : BitVec 640) (contrib : BitVec 32) (nan : Bool),
     groupLed s lead.val = some g → g.plan = some d → g.run = some r →
     let e := exec (.collectiveDone lead coll norm noise contrib nan) s
     let x : CollEnv :=
       { g := g, d := d, c := planColl d coll, k0 := r.k0, k1 := r.k1, step := r.firstStep + c.step }
     let useN := bitAt x.c.cflags 0 && x.c.kind != 1
     let useM := bitAt x.c.cflags 1
     let sum : BitVec 640 := if useN then c.normOwn + norm else 0
     let bad : Bool := (useN || useM) && (c.nanSeen || nan)
     let ends (z : State) : State := arriveRef (modRun z lead.val fun r => { r with
       colls := r.colls.filter (·.index != coll), collsDone := r.collsDone ++ [coll]
       normSum := r.normSum + sum, normNan := r.normNan || bad }) g x.c.doneLatch
     (r.colls.find? (fun y => y.index == coll && outElems x ≤ collFinals y) = some c → r.held = none → g.ended = none →
       (x.c.cflags = 0 → e = .next (ends s)) ∧
       (x.c.cflags ≠ 0 → e = .next (ends (nearWrite s (x.paneAt x.c.stats) (gaOfs x.c.stats)
         (statsBytes x useN useM sum (if useM then c.noiseOwn + noise else 0) (if useM then c.noiseOwn else 0)
           (BitVec.ofNat 32 x.c.contrib + contrib) bad))))) ∧
     (r.held ≠ none ∨ g.ended ≠ none → e = .next s))

/-- At the first beat boundary after an abort of its job a group stops: its Plan has ended as aborted, its run is
over, and every pane of the group shows the abort in `COLL_STATUS` (R282, Table 10-7); entries of the abort table are
held for 128 beats (R281). -/
def Obligations.AbortsStopTheJob : Prop :=
  ∀ (s : State),
    (∀ (lead : Pane16) (g : Group) (e : AbortEntry), groupLed s lead.val = some g → g.abortDue = some e → g.ended = none →
      (e.beat < s.time.beat → ∃ t g', exec (.abortStop lead) s = .next t ∧ groupLed t lead.val = some g' ∧
        g'.ended = some .aborted ∧ g'.run = none ∧ ∀ p ∈ maskPanes g.members, (pane t p).coll.aborted = true ∧
          (pane t p).coll.origin = e.origin ∧ (pane t p).coll.coll = e.coll ∧ (pane t p).coll.job = e.job ∧
          (pane t p).coll.abortBeat = BitVec.ofNat 48 s.time.beat) ∧
      (s.time.beat ≤ e.beat → exec (.abortStop lead) s = .next s)) ∧
    ∃ t, exec .abortEntryExpiry s = .next t ∧ t = { s with collU := t.collU } ∧
      ∀ e, e ∈ t.collU.aborts ↔ e ∈ s.collU.aborts ∧ s.time.beat < e.beat + 128

/-- The near tier's own work. The second read of a line poisons it when it stays uncorrectable, and otherwise counts a
corrected error (R142); either ends the line's retry, and a line that already carries poison is not read again; the
patrol scrubber does the same at first sight, but that an uncorrectable line gets its retry first (R143). Where the
count does not declare the pseudo-channel faulty, no more changes in the stack. A spare cell or pseudo-channel takes
its number when its takeover or copy ends, a zeroing one without the old contents (R68, R147); a refresh shadow changes
nothing (R144). -/
def Obligations.NearTierMaintenance : Prop :=
  ∀ (s : State) (p : Pane16),
    let m := nearOf s p.val
    let after (i : Instr) (f : State → Prop) : Prop := ∃ t, exec i s = .next t ∧ f t
    let corrected (t : State) : Prop := (nearOf t p.val).ceCount = BitVec.ofNat 24 (satAdd 24 m.ceCount.toNat 1) ∧
      (nearOf t p.val).poison = m.poison ∧ (nearOf t p.val).mem = m.mem
    let spared (row : Nat) (line : BitVec 30) : Prop :=
      (countError s row (unitIndex p.val (physPc m (64 * line.toNat))) 1).2 = false
    (∀ q, exec (.refreshShadow p q) s = .next s) ∧
    (∀ line : BitVec 30, nearBytes / 64 ≤ line.toNat ∨ isPoison m line.toNat = true →
      ∀ e, exec (.nearReadRetry p line e) s = .next s) ∧
    (∀ line : BitVec 30, line.toNat < nearBytes / 64 → isPoison m line.toNat = false →
      let rest := m.retries.filter (·.1 != line.toNat)
      (∀ e, e ≠ .uncorrectable → spared rowA line → after (.nearReadRetry p line e) fun t =>
        corrected t ∧ (nearOf t p.val).retries = rest) ∧
      (tblWf false m.poison = true → spared rowB line → after (.nearReadRetry p line .uncorrectable) fun t =>
        isPoison (nearOf t p.val) line.toNat = true ∧
        (∀ k, k ≠ line.toNat → isPoison (nearOf t p.val) k = isPoison m k) ∧ (nearOf t p.val).retries = rest ∧
        (nearOf t p.val).ueCount = BitVec.ofNat 16 (satAdd 16 m.ueCount.toNat 1) ∧
        (nearOf t p.val).lastUePc = BitVec.ofNat 7 (physPc m (64 * line.toNat)) ∧ (nearOf t p.val).mem = m.mem)) ∧
    (∀ (line : BitVec 30) (e : Ecc), nearBytes / 64 ≤ line.toNat → exec (.scrubBurst p line e) s = .next s) ∧
    (∀ line : BitVec 30, line.toNat < nearBytes / 64 →
      exec (.scrubBurst p line .clean) s = .next s ∧
      (spared rowA line → after (.scrubBurst p line .corrected) fun t =>
        corrected t ∧ (nearOf t p.val).retries = m.retries) ∧
      (isPoison m line.toNat = true → exec (.scrubBurst p line .uncorrectable) s = .next s) ∧
      (isPoison m line.toNat = false → m.retries.any (·.1 == line.toNat) = false →
        exec (.scrubBurst p line .uncorrectable) s =
          .next (modNear s p.val fun m => { m with retries := m.retries ++ [(line.toNat, true)] }))) ∧
    (∀ l sp r, (pane s p.val).takeovers = (l, sp) :: r → after (.spareTakeoverDone p) fun t =>
      physOf t p.val l = sp ∧ (pane t p.val).takeovers = r ∧ ∀ k, k ≠ l → physOf t p.val k = physOf s p.val k) ∧
    ((pane s p.val).takeovers = [] → exec (.spareTakeoverDone p) s = .next s) ∧
    (∀ l sp drop r, m.copying = (l, sp, drop) :: r → after (.pcCopyDone p) fun t =>
      (nearOf t p.val).copying = r ∧ tblGet l (nearOf t p.val).pcSub l = sp ∧
      (nearOf t p.val).pcRetired = m.pcRetired ||| (1#68 <<< (tblGet l m.pcSub l)) ∧
      ∀ a, memGet (nearOf t p.val).mem a = (if drop = true ∧ lpcOf a = l then 0 else memGet m.mem a)) ∧
    (m.copying = [] → exec (.pcCopyDone p) s = .next s)

/-- A page program that completes puts its units on the media, appends its journal record, and maps the unit, or moves
its map entry if that still names the place it came from (R165, R172); one that fails begins again at another place of
its channel, and waits for one where there is none (R180); when a journal page is durable the writes it covers are
acknowledged, the zeroings it covers are done, and a checkpoint that it makes durable takes the place of the one before
(R164, R165, R166, R169); a checkpoint holds every map without entries of older generations (R166). -/
def Obligations.FarTierProgramsAndJournal : Prop :=
  ∀ (s : State) (ch : Fin 64),
    let after (i : Instr) (f : State → Prop) : Prop := ∃ t, exec i s = .next t ∧ f t
    let quiet : Prop := (sinceCkpt s.far).2 < 262144 ∧ s.time.beat < (sinceCkpt s.far).1 + 1048576
    (oldestProg s ch.val = none → exec (.pageProgramComplete ch) s = .next s ∧ exec (.programFailed ch) s = .next s) ∧
    (∀ g, oldestProg s ch.val = some g →
      (after (.pageProgramComplete ch) fun t =>
        t.far.progs = s.far.progs.erase g ∧ s.far.nextSeq < t.far.nextSeq ∧
        (quiet → t.far.nextSeq = s.far.nextSeq + 1) ∧
        (∀ i u, g.units[i]? = some u → tblFind t.far.media (g.phys.toNat + i) =
          some { owner := g.owner, lun := g.lun + i, gen := g.gen, key := g.key, data := u.1, bad := u.2 }) ∧
        (g.moved = none → tblFind (ownerOf t g.owner).map g.lun = some { phys := g.phys, gen := g.gen }) ∧
        (∀ old e, quiet → g.more = [] → g.moved = some old → tblFind (ownerOf s g.owner).map g.lun = some e →
          tblFind (ownerOf t g.owner).map g.lun =
            some (if e.phys = old ∧ e.gen = g.gen then { phys := g.phys, gen := g.gen } else e))) ∧
      (let s1 := blockError (countWritten (modFar s fun t => { t with progs := t.progs.erase g })
        (g.units.length * unitBytes) g.weight) (physBlk g.phys)
      let st : BlockState := if g.moved.isSome then .openG else .openW
      (after (.programFailed ch) fun t => t.far.progs.length = (s.far.progs.erase g).length + g.units.length) ∧
      (∀ r, g.more = [] → placeUnit s1 ch.val st = some r → after (.programFailed ch) fun t =>
        t.far.progs = s.far.progs.erase g ++ [{ g with phys := r.2 }]) ∧
      (g.more = [] → placeUnit s1 ch.val st = none → after (.programFailed ch) fun t =>
        t.far.progs = s.far.progs.erase g ++ [{ g with phys := noPhys }]))) ∧
    (∀ upto,
      let n := max s.far.durSeq (min upto s.far.nextSeq)
      after (.journalDurable upto) fun t => t.far.durSeq = n ∧
        (∀ w, w ∈ t.far.writes ↔ w ∈ s.far.writes ∧ ¬(w.left = 0 ∧ w.lastSeq < n)) ∧
        (∀ z, z ∈ t.far.zeroing ↔ z ∈ s.far.zeroing ∧ n ≤ z.2) ∧
        ∀ c, s.far.ckptNext = some c → c.seq < n →
          t.far.ckpt = c ∧ t.far.ckptNext = none ∧ ∀ r ∈ t.far.journal, c.seq < r.seq) ∧
    (s.far.recovering = false → s.far.powerLost = false → after .mapCheckpoint fun t =>
      (∃ c, t.far.ckptNext = some c ∧ c.owners = t.far.owners ∧ c.seq = s.far.nextSeq) ∧
      t.far.nextSeq = s.far.nextSeq + 1 ∧
      ∀ o, (ownerOf t o).gen = (ownerOf s o).gen ∧
        (ownerOf t o).map = (ownerOf s o).map.filter fun e => e.2.gen == (ownerOf s o).gen) ∧
    (s.far.recovering = true ∨ s.far.powerLost = true → exec .mapCheckpoint s = .next s)

/-- The blocks of the far tier (R171, R176 to R181, R183, R184): a channel collects its victim, erases it once nothing
moves, no valid unit is left and the journal is durable, and a block erased is free, with one erase more and nothing
on it, and programs that wait for a place are offered one; one that fails is retired; the block worn least moves when
the spread asks for it and the channel is idle; none of these begins while the hold-up is low; each channel
recalibrates in its beat; a unit that no retry reads is poison; a low hold-up measurement closes the tier to writes;
and recovery ends. An extent of a running step begins once, at its start beat, in no held beat; when it is done its
bytes stand in the near tier of every pane of its mask, and its latch has its `ARRIVE` (R156, R158). -/
def Obligations.FarTierMediaAndExtents : Prop :=
  (∀ (s : State) (ch : Fin 64),
     let after (i : Instr) (f : State → Prop) : Prop := ∃ t, exec i s = .next t ∧ f t
     let free : Prop := mediaIdle s = false ∧ s.far.gcs.any (·.channel == ch.val) = false
     let gc (b : Nat) : GcJob := { channel := ch.val, block := b, lastSeq := 0 }
     (∀ b, free → victimOf s ch.val = some b → after (.gcVictim ch) fun t => t.far.gcs = s.far.gcs ++ [gc b]) ∧
     (¬free ∨ victimOf s ch.val = none → exec (.gcVictim ch) s = .next s) ∧
     (∀ j, s.far.gcs.find? (·.channel == ch.val) = some j → mediaIdle s = false →
       (∀ g ∈ s.far.progs, g.channel = ch.val → g.moved = none) → j.lastSeq < s.far.durSeq ∨ j.lastSeq = 0 →
       (validUnits s j.channel j.block = [] →
         after (.gcErase ch) fun t => t.far.gcs = s.far.gcs.filter (·.channel != ch.val) ∧
           (blkOf t (blkKey j.channel j.block)).state =
             if (blkOf s (blkKey j.channel j.block)).dueRetire = true then .retired else .erasing) ∧
       (validUnits s j.channel j.block ≠ [] → after (.gcErase ch) fun t => t.far.gcs = s.far.gcs)) ∧
     (mediaIdle s = true → exec (.gcErase ch) s = .next s) ∧
     (∀ n : BitVec 15,
       let k := blkKey ch.val n.toNat
       let gone (t : State) : Prop := ∀ u, k * 2048 ≤ u → u < k * 2048 + 2048 → tblFind t.far.media u = none
       ((blkOf s k).state ≠ .erasing → ∀ f, exec (.blockEraseComplete ch n f) s = .next s) ∧
       ((blkOf s k).state = .erasing →
         (∃ t0, exec (.blockEraseComplete ch n false) s = .next (placeWaiting t0 ch.val) ∧
           blkOf t0 k = { blockZero with erases := (blkOf s k).erases + 1 } ∧ gone t0 ∧
           ((∀ g ∈ s.far.progs, g.channel = ch.val → g.phys ≠ noPhys) → placeWaiting t0 ch.val = t0)) ∧
         after (.blockEraseComplete ch n true) fun t => (blkOf t k).state = .retired ∧ gone t)) ∧
     (∀ v d, bestOf (fun a b : Nat × Nat => a.1 < b.1)
         (((listedBlks s ch.val).filter fun e => inUse e.2).map fun e => (e.2.erases, e.1)) = some v →
       bestOf (fun a b : Nat × Nat => b.1 < a.1) (freeCands s ch.val) = some d → free → 256 < eraseSpread s ch.val →
       poolState (freeBlks s ch.val) < 2 → s.far.progs.any (·.channel == ch.val) = false →
       after (.wearLevel ch) fun t => t.far.gcs = s.far.gcs ++ [gc v.2]) ∧
     (eraseSpread s ch.val ≤ 256 → exec (.wearLevel ch) s = .next s) ∧
     (s.time.beat % 4096 = 64 * ch.val → exec (.readRecalibration ch) s =
       .next (modFar s fun t => { t with recalibrated := t.recalibrated ||| (1#64 <<< ch.val) })) ∧
     (∀ (o : Fin 17) (n : BitVec 32) (u : BitVec 32), mappedAt s o.val n.toNat = some u →
       exec (.farReadRetry o n true) s = .next s ∧
       after (.farReadRetry o n false) fun t =>
         (∀ x, tblFind s.far.media u.toNat = some x → tblFind t.far.media u.toNat = some { x with bad := true }) ∧
         t.far.uncorr = BitVec.ofNat 16 (satAdd 16 s.far.uncorr.toNat 1) ∧ (blkOf t (physBlk u)).dueRefresh ≠ none) ∧
     (∀ us : BitVec 32, after (.holdupMeasure us) fun t => t.far.holdupLow = decide (us.toNat < 10000)) ∧
     (s.dk.ready = true → s.far.recovering = true → s.far.powerLost = false →
       after .recover fun t => t.far.recovering = false ∧ t.far.progs = [] ∧ t.far.writes = [] ∧ t.far.gcs = [] ∧
         t.far.ckptNext = none ∧ t.far.nextSeq ≤ t.far.durSeq)) ∧
  (∀ (s : State) (lead : Pane16) (g : Group) (d : List Byte) (r : Run) (n : Nat) (e : Extent),
     groupLed s lead.val = some g → g.plan = some d → g.run = some r → (planExtents d)[n]? = some e →
     let rel := runBeat r - r.planStep * planStepBeats d
     let due : Prop := r.started = true ∧ r.held = none ∧ e.start ≤ rel ∧ rel < planStepBeats d ∧ n ∉ r.extentsDone
       ∧ r.extents.any (fun x => x.1 == n) = false
     (due → exec (.extentStart lead n) s = .next (modRun s lead.val fun r =>
       { r with extents := r.extents ++ [(n, r.planStep)], extentsDone := r.extentsDone ++ [n] })) ∧
     (¬due → exec (.extentStart lead n) s = .next s) ∧
     (r.extents.any (fun x => x.1 == n) = true → exec (.extentDone lead n) s = .next (arriveRef (farToNear
       (modRun s lead.val fun r => { r with extents := r.extents.filter fun x => x.1 != n })
       (planPane g (gaPane e.far)) (gaOfs e.far) e.length ((planMaskPanes g e.paneMask).map fun p => (p, gaOfs e.near)))
       g e.doneLatch)) ∧
     (r.extents.any (fun x => x.1 == n) = false → exec (.extentDone lead n) s = .next s))

/-- The pins and the start-up (R182, R411, R465, R485, R491, R526, R532 to R534): losing the input or `PWR_EN` holds
the hub in reset, with the far tier's journal durable and what the hub holds cleared; `RESET_N` rising with the rails
up starts it, with the straps read; a pulse resets the module; the Doorkeeper becomes ready with the firmware loaded;
and the start-up shutter of every pane begins. A sensor's reading is kept; at its trip threshold the module trips, at
its critical threshold the trip pin and the halt follow; the trip ends once every sensor has been below its clear
threshold for 4,096 beats (R499, R500). The cap effecter's mode comes into force at once where no start stands against
it, and otherwise waits (R496, R497). A firmware image that the update accepts is the one that the next start-up loads
(R512). -/
def Obligations.PowerStartUpAndCaps : Prop :=
  (∀ s : State,
     let after (i : Instr) (f : State → Prop) : Prop := ∃ t, exec i s = .next t ∧ f t
     let cleared (t : State) : Prop := t.groups = [] ∧ t.latches = [] ∧ t.ccr = [] ∧ t.cells = [] ∧ t.links.coord = [] ∧
       t.dk.ready = false ∧ t.time.mode = .unsync ∧ t.time.trim = s.time.trim
     (s.power.input = true → after .inputPowerLoss fun t => t.power.input = false ∧ t.power.hubUp = false ∧
       t.power.pwrGood = false ∧ t.power.holdupOk = false ∧ t.far.powerLost = true ∧ t.far.nextSeq ≤ t.far.durSeq ∧
       t.island.running = false ∧ cleared t) ∧
     (s.power.input = false → exec .inputPowerLoss s = .next s) ∧
     (s.power.pwrGood = true → exec .bankCharged s = .next (modPower s fun p => { p with holdupOk := true })) ∧
     (s.power.pwrGood = false → exec .bankCharged s = .next s) ∧
     (s.power.pwrEn = false → exec .pwrEnAssert s = .next (modPower s fun p =>
       { p with pwrEn := true, pwrGood := p.input, resetN := false })) ∧
     (s.power.pwrEn = true → exec .pwrEnAssert s = .next s) ∧
     (s.power.pwrEn = true → after .pwrEnDeassert fun t => t.power.pwrEn = false ∧ t.power.hubUp = false ∧
       t.power.pwrGood = false ∧ t.faults.lastReset = 4 ∧ cleared t ∧
       (s.test.parked = false → t.far.nextSeq ≤ t.far.durSeq ∧ t.island.running = false)) ∧
     (s.power.pwrEn = false → exec .pwrEnDeassert s = .next s) ∧
     (∀ x : BitVec 4, s.power.hubUp = false → mayStart s = true → after (.resetNRise x) fun t =>
       t.power.hubUp = true ∧ t.power.resetN = true ∧ t.power.straps = x ∧ t.power.sbAddr = 0x30 + x.setWidth 8 ∧
       t.far.powerLost = false ∧ t.power.t0 = 0) ∧
     (∀ x : BitVec 4, s.power.hubUp = true ∨ mayStart s = false → exec (.resetNRise x) s = .next s) ∧
     (s.power.hubUp = true → mayStart s = true → after .resetNPulse fun t => cleared t ∧ t.power.hubUp = true ∧
       t.faults.lastReset = 0 ∧ t.far.recovering = true ∧ t.far.owners = s.far.owners ∧ t.far.media = s.far.media) ∧
     (s.power.hubUp = false → exec .resetNPulse s = .next s) ∧
     (s.power.hubUp = true → s.dk.ready = false → s.test.hub ≠ tsActive → s.faults.hubDead = false →
       after .doorkeeperReady fun t => t.dk.ready = true ∧ t.power.fwRunning = s.power.firmware) ∧
     (s.power.hubUp = false ∨ s.dk.ready = true → exec .doorkeeperReady s = .next s) ∧
     (s.power.hubUp = true → s.dk.ready = true → s.far.recovering = false → s.power.broughtUp = false →
       after .paneBringupDone fun t => t.power.broughtUp = true ∧
         ∀ p, p < 16 → (pane s p).state = .shuttering → (pane s p).shutter = none →
           ∃ h, (pane t p).shutter = some h ∧ h.cause = 4 ∧ h.keepFar = true) ∧
     (s.power.broughtUp = true → exec .paneBringupDone s = .next s)) ∧
  (∀ s : State,
     let after (i : Instr) (f : State → Prop) : Prop := ∃ t, exec i s = .next t ∧ f t
     (∀ (n : Fin 33) (c : Nat), s.power.hubUp = true → sensorWf n.val = true → after (.thermalThreshold n c) fun t =>
       tblGet 0 t.power.temps n.val = c ∧
       (reaches s n.val c (thresholds n.val).2.1 = true → t.power.trip = true) ∧
       (reaches s n.val c (thresholds n.val).2.1 = false → t.power.trip = s.power.trip) ∧
       (reaches s n.val c (thresholds n.val).2.2 = true →
         t.power.thermTrip = true ∧ t.power.crit = true ∧ t.power.critDue = true) ∧
       (reaches s n.val c (thresholds n.val).2.2 = false → t.power.thermTrip = s.power.thermTrip)) ∧
     (∀ (n : Fin 33) (c : Nat), s.power.hubUp = false ∨ sensorWf n.val = false →
       exec (.thermalThreshold n c) s = .next s) ∧
     (∀ b, s.power.trip = true → s.power.coolSince = some b → b + 4096 ≤ s.time.beat →
       after .thermalClear fun t => t.power.trip = false) ∧
     (∀ b, s.power.coolSince = some b → s.time.beat < b + 4096 → exec .thermalClear s = .next s) ∧
     (s.power.trip = false ∨ s.power.coolSince = none → exec .thermalClear s = .next s) ∧
     (∀ m : BitVec 2, s.power.hubUp = true → m ≠ 3 →
       (anyStart s = false → after (.capEffecterSet m) fun t => t.power.capMode = m ∧ t.power.capReq = m) ∧
       (anyStart s = true → m.toNat < s.power.capMode.toNat → after (.capEffecterSet m) fun t =>
         t.power.capMode = s.power.capMode ∧ t.power.capReq = m) ∧
       ((∃ g ∈ s.groups, aboveCap m g = true) → s.power.capMode.toNat < m.toNat → after (.capEffecterSet m) fun t =>
         t.power.capMode = s.power.capMode ∧ t.power.capReq = m)) ∧
     (∀ m : BitVec 2, s.power.hubUp = false ∨ m = 3 → exec (.capEffecterSet m) s = .next s) ∧
     (∀ (i : Fin 3) (ok : Bool),
       (s.power.hubUp = true → s.dk.ready = true → ok = true → exec (.pldmFirmwareUpdate i ok) s = .next (modPower s fun p =>
         { p with firmware := tblPut 0 p.firmware i.val (tblGet 0 p.firmware i.val + 1) })) ∧
       (s.power.hubUp = false ∨ s.dk.ready = false ∨ ok = false → exec (.pldmFirmwareUpdate i ok) s = .next s)))

/-- Faults and resets (R401, R402, R406, R409 to R413): a hub fault and a watchdog expiry reset the module, and the
cause stands in `LAST_RESET`; an engine fault resets its engine; a pane's hardware fault is charged to its context,
whose reset is asked for; an overdue reset climbs to the next rung, past the module's to a power cycle; the window
counters move on; an Ethernet engine's uncorrectable codewords are counted. With the hub in reset none of this
happens. -/
def Obligations.FaultsAndResets : Prop :=
  ∀ s : State,
    let after (i : Instr) (f : State → Prop) : Prop := ∃ t, exec i s = .next t ∧ f t
    let reset (c : BitVec 3) (t : State) : Prop := t.faults.lastReset = c ∧ t.faults.sinceHubFault = some 0 ∧
      t.groups = [] ∧ t.latches = [] ∧ t.ccr = [] ∧ t.dk.ready = false ∧ t.power.hubUp = true ∧
      t.faults.selfResets = [{ rung := 4, index := 0, deadline := resetGrace }]
    (s.power.hubUp = true →
      after .hubFault (reset 2) ∧ after .hubWatchdogExpiry (reset 3) ∧
      (∀ e : Fin 28, e.val ≤ 2 → after (.engineFault e) fun t => ∀ g ∈ t.groups, usesRing g e.val = true →
        g.abortDue ≠ none) ∧
      (∀ e : Fin 28, e.val = 3 ∨ e.val = 4 → exec (.engineFault e) s =
        .next (resetDone (resetEth s (e.val - 3)) 2 noPane (engineSource e.val) 0 0 e.val)) ∧
      (∀ e : Fin 28, 16 ≤ e.val → after (.engineFault e) fun t => cvOf t (e.val - 16) =
        { cvOf s (e.val - 16) with
          uncovered := (cvOf s (e.val - 16)).uncovered || (cvOf s (e.val - 16)).lstate == 1, lstate := 0, left := 0 }) ∧
      (∀ p : Pane16, (pane s p.val).state = .opened → (pane s p.val).ctxFault.fcode = 0 → (pane s p.val).shutter = none →
        after (.paneHardwareFault p) fun t => (pane t p.val).ctxFault.fcode = 0x0A ∧
          (∃ h, (pane t p.val).shutter = some h ∧ h.paneReset = true ∧ h.d = s.time.beat + 1) ∧
          t.faults.selfResets =
            s.faults.selfResets ++ [{ rung := 3, index := p.val, deadline := s.time.beat + 1703 + 1024 }]) ∧
      (∀ p : Pane16, (pane s p.val).state = .outOfService → exec (.paneHardwareFault p) s = .next s) ∧
      (∀ e : Fin 2, (countError s rowL e.val 1).2 = false →
        exec (.ethernetUncorrectableCodeword e) s = .next (countError s rowL e.val 1).1) ∧
      (∀ e : Fin 2, (countError s rowL e.val 1).2 = true → after (.ethernetUncorrectableCodeword e) fun t =>
        tblFind t.faults.ethDeclared e.val = some s.time.beat ∧
        ∀ b, tblFind s.faults.ethDeclared e.val = some b → s.time.beat - b < 2 ^ 27 →
          t.faults.ethOut.getLsbD e.val = true)) ∧
    (s.power.hubUp = false → exec .hubFault s = .next s ∧ exec .hubWatchdogExpiry s = .next s ∧
      (∀ e, exec (.engineFault e) s = .next s) ∧ (∀ p, exec (.paneHardwareFault p) s = .next s) ∧
      ∀ e, exec (.ethernetUncorrectableCodeword e) s = .next s) ∧
    (∀ r, s.faults.selfResets.find? (fun r => decide (r.deadline ≤ s.time.beat)) = some r →
      (r.rung ≠ 4 → after .resetEscalation fun t => t.groups = [] ∧ t.dk.ready = false ∧
        t.faults.selfResets = [{ rung := 4, index := 0, deadline := resetGrace }]) ∧
      (r.rung = 4 → after .resetEscalation fun t => t.groups = s.groups ∧ t.faults.selfResets =
        s.faults.selfResets.filter fun x => !(x.rung == 4 && x.index == r.index))) ∧
    ((∀ r ∈ s.faults.selfResets, s.time.beat < r.deadline) → exec .resetEscalation s = .next s) ∧
    (after .subwindowRollover fun t => t = { s with faults := t.faults } ∧
      ∀ k c, tblFind s.faults.windows k = some c →
        tblFind t.faults.windows k = some (winRoll (k / 2 ^ 24) s.time.beat c))

/-- Self-test (R422, R423, R425 to R430): the first waiting test starts when the budget allows and no thermal trip
stands; a phase that ends gives way to the next, and the last ends the test, with the pane `FREE` or `OUT_OF_SERVICE`
and its ledger entry written; a passed hub test parks a module that is going down, and a failed one keeps it in reset.
-/
def Obligations.SelfTestsRun : Prop :=
  ∀ s : State,
    let after (i : Instr) (f : State → Prop) : Prop := ∃ t, exec i s = .next t ∧ f t
    let room : Prop := s.power.hubUp = true ∧ s.power.trip = false ∧ mayTest s (testsIn s tsActive).length = true
    (∀ p r, waitingTests s = p :: r → room →
      ((testOf s p).tstate = tsSuspended → after .testStart fun t => testOf t p =
        { testOf s p with tstate := tsActive, since := s.time.beat }) ∧
      ((testOf s p).tstate ≠ tsSuspended → after .testStart fun t => (testOf t p).tstate = tsActive ∧
        (testOf t p).phase = 1 ∧ (testOf t p).order = s.test.nextOrder ∧ t.test.nextOrder = s.test.nextOrder + 1 ∧
        (ledgerOf t p).result = 4)) ∧
    (waitingTests s = [] ∨ ¬room → exec .testStart s = .next s) ∧
    (∀ (p : Pane16) (x : TestReport), (testOf s p.val).tstate = tsActive → (testOf s p.val).phase < 6 →
      after (.testPhaseDone p x) fun t => (testOf t p.val).phase = (testOf s p.val).phase + 1 ∧
        (testOf t p.val).tstate = tsActive ∧ (testOf t p.val).since = s.time.beat) ∧
    (∀ (p : Pane16) (x : TestReport), (testOf s p.val).tstate = tsActive → 6 ≤ (testOf s p.val).phase →
      after (.testPhaseDone p x) fun t => (ledgerOf t p.val).signature = x.signature ∧
        (ledgerOf t p.val).used = false ∧
        ((pane t p.val).state = .free ∧ ((ledgerOf t p.val).result = 1 ∨ (ledgerOf t p.val).result = 2) ∨
          (pane t p.val).state = .outOfService ∧ (ledgerOf t p.val).result = 3)) ∧
    (∀ (p : Pane16) (x : TestReport), (testOf s p.val).tstate ≠ tsActive → exec (.testPhaseDone p x) s = .next s) ∧
    (∀ g : BitVec 64, s.test.hub = tsActive →
      (after (.hubTestDone true g) fun t => t.test.hub = tsPassed ∧ (ledgerOf t 16).result = 1 ∧
        (ledgerOf t 16).signature = g ∧ t.test.parked = (s.test.parked || s.test.shutdown.isSome)) ∧
      after (.hubTestDone false g) fun t => t.test.hub = tsFailed ∧ (ledgerOf t 16).result = 3 ∧
        t.power.hubUp = false ∧ t.dk.ready = false ∧ t.faults.hubDead = true) ∧
    (∀ ok g, s.test.hub ≠ tsActive → exec (.hubTestDone ok g) s = .next s)

/-- The end of a context (R336, R341 to R347, Tables 13-2 and 13-4) and the reset of one, which begins at the beat
boundary after its command and lasts 16 beats (R408). At its beat a
teardown stops the context's cells and takes its windows and keys; when the writers have stopped, what the pane held
reads zero, its latches are unallocated, it leads and belongs to no group and its epoch has risen; the shutter's end
writes the certificate and gives the pane back, unless a reset or a test has been asked for meanwhile. -/
def Obligations.ContextsEnd : Prop :=
  ∀ (s : State) (p : Pane16),
    let after (i : Instr) (f : State → Prop) : Prop := ∃ t, exec i s = .next t ∧ f t
    let x := pane s p.val
    (∀ sh, x.shutter = some sh → sh.d ≤ s.time.beat →
      x.state = .opened ∨ x.state = .free ∨ x.state = .testing → after (.teardownBegin p) fun t =>
        (pane t p.val).state = .teardown ∧ (pane t p.val).shutter = some { sh with d := s.time.beat } ∧
        (rmoOf t p.val).windows = [] ∧ (rmoOf t p.val).keys = [] ∧ (rmoOf t p.val).ops = [] ∧
        ∀ l, l < 32 → (cell t p.val l).halted = true) ∧
    ((x.shutter = none ∨ ∃ sh, x.shutter = some sh ∧ s.time.beat < sh.d) → exec (.teardownBegin p) s = .next s) ∧
    (∀ sh, x.shutter = some sh → x.state = .teardown → after (.writersStopped p) fun t =>
      (pane t p.val).state = .shuttering ∧ (pane t p.val).jobTag = 0 ∧ (pane t p.val).epoch = x.epoch + 1 ∧
      (pane t p.val).latchList = [] ∧ (nearOf t p.val).mem = [] ∧ (∀ c, c < 34 → (physCell t p.val c).store = []) ∧
      (∀ i l, tblFind t.latches i = some l → ¬(l.owner = ownerCode p.val ∧ l.ownerEpoch = sh.oldEpoch)) ∧
      ∀ g ∈ t.groups, g.members.getLsbD p.val = false) ∧
    (x.shutter = none ∨ x.state ≠ .teardown → exec (.writersStopped p) s = .next s) ∧
    (∀ sh, x.shutter = some sh → x.state = .shuttering → (sh.keepFar = true ∨ sh.farZeroed = true) →
      after (.shutterComplete p) fun t => (pane t p.val).cert = certBytes s p.val sh ∧
        t.far.certSeq = s.far.certSeq + 1 ∧
        (x.resetDue = false → s.test.startDue.getLsbD p.val = false →
          (∀ r j, r < 18 → (mbx s r).job = some j → j.opcode.toNat ≠ opShutdown) →
          (pane t p.val).shutter = none ∧ (pane t p.val).state = afterShutter x)) ∧
    ((x.shutter = none ∨ x.state ≠ .shuttering ∨ ∃ sh, x.shutter = some sh ∧ sh.keepFar = false ∧ sh.farZeroed = false) →
      exec (.shutterComplete p) s = .next s) ∧
    (∀ b, x.resetFrom = some b → b ≤ s.time.beat + 1 → x.state = .opened → s.power.hubUp = true → s.time.lead = 0 →
      after .beatBoundary fun t => (pane t p.val).epoch = x.epoch + 1 ∧ (pane t p.val).resetFrom = none ∧
        (pane t p.val).resetUntil = some (s.time.beat + 17) ∧ (pane t p.val).latchList = [] ∧
        (rmoOf t p.val).windows = []) ∧
    (∀ b, x.resetUntil = some b → b ≤ s.time.beat → after (.ctxResetEnd p) fun t =>
      pane t p.val = { x with resetUntil := none } ∧ (∀ q, q ≠ p.val → pane t q = pane s q) ∧ t.cells = s.cells) ∧
    ((x.resetUntil = none ∨ ∃ b, x.resetUntil = some b ∧ s.time.beat < b) → exec (.ctxResetEnd p) s = .next s)

/-- Transactions with the shared store (R518 to R520, R374, R397), each named by its number. A grant begins the
transfer; the end of a drain's writes closes it with the check value of its object; a durable object ends the drain;
any failure of a drain begins it again from step 1, and of a fetch or restore ends its command `ST_IO_ERROR`; `BUSY`
waits and then opens again. A number that no transaction has changes nothing. -/
def Obligations.StoreTransactions : Prop :=
  ∀ (s : State) (xid : BitVec 32),
    let after (i : Instr) (f : State → Prop) : Prop := ∃ t, exec i s = .next t ∧ f t
    let again (lead : Nat) (t : State) : Prop := ∀ d, tblFind s.store.drains lead = some d →
      t.store.nextXid = s.store.nextXid + 1 ∧
      ∃ y ∈ t.store.txns, y.owner = .drain lead ∧ y.phase = .opening ∧ y.xid = s.store.nextXid ∧
        y.step = BitVec.ofNat 48 d.step ∧ t.store.sent.head? = some (storeMsg y 1)
    let failed (r : Nat) (t : State) : Prop := (mbx t r).job = none ∧
      (replyLost s r = false → ∃ a, (mbx t r).reply = some a ∧ a.status = 0x0402)
    (∀ x, txnOf s xid = some x →
      (∀ k a, x.phase = .opening → after (.storeGrantReceived xid k a) fun t =>
        txnOf t xid = some { x with phase := .moving, rkey := k, addr := a }) ∧
      (∀ lead d, x.owner = .drain lead → tblFind s.store.drains lead = some d → x.phase = .moving →
        after (.rdmaWritesComplete xid) fun t =>
          ∃ y, txnOf t xid = some y ∧ y = { x with
            phase := .closed, objCrc := BitVec.ofNat 64 (crc64 (drainObject d)) } ∧
            t.store.sent.head? = some (storeMsg y 4)) ∧
      (∀ lead v c, x.owner = .drain lead → x.phase = .closed →
        (v = 0 → c = x.objCrc → after (.storeDoneReceived xid v c) fun t => tblFind t.store.drains lead = none ∧
          (∀ y ∈ t.store.txns, y.owner ≠ .drain lead) ∧
          ∀ g, groupLed s lead = some g → groupLed t lead = some { g with
            status := { g.status with drainedStep := x.step, drainState := 0 } }) ∧
        (v ≠ 0 ∨ c ≠ x.objCrc → after (.storeDoneReceived xid v c) (again lead))) ∧
      (∀ v m, x.phase = .opening →
        (v = 3 → after (.storeRefuseReceived xid v m) fun t => txnOf t xid = some { x with
          phase := .waiting (s.time.beat + ceilDiv (m.toNat * 1000000) 8192) }) ∧
        (v ≠ 3 → (∀ lead, x.owner = .drain lead → after (.storeRefuseReceived xid v m) (again lead)) ∧
          ∀ r j, storeJob s x.owner = some (r, j) → after (.storeRefuseReceived xid v m) (failed r))) ∧
      (∀ b, x.phase = .waiting b →
        (b ≤ s.time.beat → after (.storeRetryExpiry xid) fun t => txnOf t xid = some { x with phase := .opening } ∧
          t.store.sent.head? = some (storeMsg x (openKind x.owner))) ∧
        (s.time.beat < b → exec (.storeRetryExpiry xid) s = .next s)) ∧
      (∀ lead, x.owner = .drain lead → after (.storeConnectionLost xid) (again lead)) ∧
      ((∀ lead, x.owner ≠ .drain lead) → after (.storeConnectionLost xid) fun t =>
        ∀ y ∈ t.store.txns, y.owner ≠ x.owner) ∧
      (∀ d r r' j, x.owner = .fetch r' → storeJob s x.owner = some (r, j) → x.phase = .moving →
        gaTier (BitVec.ofNat 64 (prm j.packet 8 8)) = 0 → after (.rdmaReadsComplete xid d) fun t =>
          (∃ k a, (mbx t r).job = some k ∧ k.outcome = some a ∧ a.status = 0) ∧ (∀ y ∈ t.store.txns, y.owner ≠ x.owner) ∧
          ∀ q, q < 16 → nearOf t q = if bitAt (prm j.packet 6 2) q then
            nearPut (nearOf s q) (gaOfs (BitVec.ofNat 64 (prm j.packet 8 8))) (bytesAt d 0 x.length) else nearOf s q) ∧
      (∀ d r r' j, x.owner = .fetch r' → storeJob s x.owner = some (r, j) → x.phase = .moving →
        gaTier (BitVec.ofNat 64 (prm j.packet 8 8)) ≠ 0 → after (.rdmaReadsComplete xid d) fun t =>
          t.far.nextWrite = s.far.nextWrite + 1) ∧
      (∀ d r r' j, x.owner = .restore r' → storeJob s x.owner = some (r, j) → x.phase = .moving →
        after (.rdmaReadsComplete xid d) fun t => ∀ y ∈ t.store.txns, y.owner = x.owner → y.phase = .opening) ∧
      (∀ d, x.phase ≠ .moving → exec (.rdmaReadsComplete xid d) s = .next s)) ∧
    (∀ r : Req, starved s r.val opShardFetch = true → after (.shardFetchTimeout r) (failed r.val)) ∧
    (∀ r : Req, starved s r.val opShardFetch = false → exec (.shardFetchTimeout r) s = .next s) ∧
    (∀ r : Req, starved s r.val opRestore = true → after (.restoreTimeout r) (failed r.val)) ∧
    (∀ r : Req, starved s r.val opRestore = false → exec (.restoreTimeout r) s = .next s) ∧
    (txnOf s xid = none → ∀ i ∈ [Instr.rdmaWritesComplete xid, .storeRetryExpiry xid, .storeConnectionLost xid],
      exec i s = .next s)

/-- Storm copies (R387, R389, R391, R393). A snapshot is sent frame by frame to the buddy, as far as the pane's injection
queue of 64 has room, and the rest as room comes (R249); its acknowledgement makes
it the committed copy; a copy whose `COMMIT` is 1,024 beats old is abandoned; an arriving frame of a copy is written
where R387 lets it and nowhere else, and its `COMMIT` is acknowledged; a staged drain goes on to the store. -/
def Obligations.StormCopiesAndDrains : Prop :=
  ∀ (s : State) (lead : Pane16),
    let after (i : Instr) (f : State → Prop) : Prop := ∃ t, exec i s = .next t ∧ f t
    (∀ g d c device p ofs len port, groupLed s lead.val = some g → g.plan = some d →
      g.copies.find? (fun c => !c.taken) = some c → g.storm.buddy = some (device, p, ofs, len) →
      routePort s device = some port → pathFailed s device = false → after (.snapshotDone lead) fun t =>
        let parts := (placeFrames device p.toNat ofs len c.buf (copySequence s g d c)).map (framePart lead.val device)
        (∃ n, (trafOf t port).out = (trafOf s port).out ++ parts.take n ∧
          (rmoOf t lead.val).late = (rmoOf s lead.val).late ++ parts.drop n ∧
          (parcelsOf s lead.val 3 + parts.length ≤ 64 → n = parts.length)) ∧
        ∃ g', groupLed t lead.val = some g' ∧ g'.copies = g.copies.map fun x => if x = c then { c with taken := true } else x) ∧
    (groupLed s lead.val = none → exec (.snapshotDone lead) s = .next s) ∧
    (∀ g c, groupLed s lead.val = some g → g.copies.find? (fun c => c.commitBeat.isSome) = some c →
      exec (.stormAckReceived lead) s = .next (modGroup s lead.val fun g =>
        { g with copies := g.copies.erase c
                 status := { g.status with commitStep := BitVec.ofNat 48 c.step, lastBuf := BitVec.ofNat 2 c.buf } })) ∧
    (∀ g c, groupLed s lead.val = some g → g.copies.find? (copyOverdue s) = some c → after (.copyAbandonTimeout lead) fun t =>
      groupLed t lead.val = some { g with
        copies := g.copies.erase c
        status := { g.status with buddyLost := true, abandoned := BitVec.ofNat 16 (satAdd 16 g.status.abandoned.toNat 1) } }) ∧
    (∀ g, groupLed s lead.val = some g → (∀ c ∈ g.copies, copyOverdue s c = false) →
      exec (.copyAbandonTimeout lead) s = .next s) ∧
    (∀ f, restoreFor s (frameHdr f) = none →
      let q := gaPane (frameDest f)
      let ok := frameMay s f
      (ok = true → after (.stormFrameReceived f) fun t =>
        nearOf t q = nearPut (nearOf s q) (gaOfs (frameDest f)) f ∧ ∀ p, p ≠ q → nearOf t p = nearOf s p) ∧
      (ok = false → exec (.stormFrameReceived f) s = .next s)) ∧
    (∀ f r j, restoreFor s (frameHdr f) = some (r, j) → frameOk f = false → exec (.stormFrameReceived f) s = .next s) ∧
    (∀ f r j, restoreFor s (frameHdr f) = some (r, j) → frameOk f = true → after (.stormFrameReceived f) fun t =>
      ∃ k, (mbx t r).job = some k ∧ k.lastBeat = s.time.beat ∧
        k.got = j.got + if (frameHdr f).ftype = ftData then 1 else 0) ∧
    (∀ d, tblFind s.store.drains lead.val = some d → d.staged = false → d.image ≠ [] → d.wrote = true →
      (s.far.writes.all fun w => w.sink != .staging lead.val) = true → after (.drainStaged lead) fun t =>
        tblFind t.store.drains lead.val = some { d with staged := true } ∧
        ∃ y ∈ t.store.txns, y.owner = .drain lead.val ∧ y.phase = .opening) ∧
    (tblFind s.store.drains lead.val = none → exec (.drainStaged lead) s = .next s)

/-- How every doorbell is answered (R358, R359, R364, R367): not at all where the mailbox is not there; a busy mailbox
counts a refusal and keeps its command; a packet that fails checks 1 to 4 is answered at once; one whose locks are not
free waits; one that starts and fails checks 5 to 7 is decided with that status; and one that starts has its effect. A
`MODE_SET` row stands for the packets that name its mode. -/
def Obligations.DoorbellsAreAnswered : Prop :=
  ∀ (s : State) (r : Req) (k : Packet),
    let q := r.val
    let rings (op : Nat) (i : Instr) : Prop :=
      (reachable s q = false → exec i s = .next s) ∧
      (∀ j, reachable s q = true → (mbx s q).job = some j → ∃ t, exec i s = .next t ∧ (mbx t q).job = some j ∧
        (mbx t q).refusals.toNat = satAdd 16 (mbx s q).refusals.toNat 1 ∧ (mbx t q).atBeat = expectedEnd s q j ∧
        t.groups = s.groups ∧ t.panes = s.panes) ∧
      (∀ a, reachable s q = true → (mbx s q).job = none → earlyRefusal s q (q == 17) op k = some a →
        ∃ t, exec i s = .next t ∧ (mbx t q).job = none ∧ t.groups = s.groups ∧ t.panes = s.panes ∧
          (replyLost s q = false → (mbx t q).mstate = .done ∧
            ∃ b, (mbx t q).reply = some b ∧ b.status = BitVec.ofNat 16 a.status ∧ b.seq = k.seq)) ∧
      (reachable s q = true → (mbx s q).job = none → earlyRefusal s q (q == 17) op k = none →
        (canStart (rung s q op k) q (newJob s q op k) = false → exec i s = .next (rung s q op k)) ∧
        (canStart (rung s q op k) q (newJob s q op k) = true → ∀ a, startRefused (rung s q op k) q op k = some a →
          ∃ t, exec i s = .next t ∧ Decides t q a.status ∧ t.groups = s.groups ∧ t.panes = s.panes)) ∧
      (StartsAtOnce s q op k →
        (∀ a, (startEffect op (begun s q op k) q k).2 = some a →
          exec i s = .next (decideJob (startEffect op (begun s q op k) q k).1 q a)) ∧
        ((startEffect op (begun s q op k) q k).2 = none → exec i s = .next (startEffect op (begun s q op k) q k).1))
    (∀ e ∈ [(0x0001, Instr.hello r k), (0x0010, .ctxCreate r k), (0x0011, .ctxTeardown r k), (0x0012, .groupBind r k),
        (0x0013, .ctxReset r k), (0x0014, .engineReset r k), (0x0015, .paneReset r k), (0x0016, .moduleReset r k),
        (0x0020, .slotAlloc r k), (0x0021, .streamShare r k), (0x0022, .farQuota r k), (0x0023, .latchAlloc r k),
        (0x0024, .jobMapLoad r k), (0x0025, .coordLoad r k), (0x0026, .identitySet r k), (0x0030, .planLoad r k),
        (0x0031, .planStart r k), (0x0032, .planStop r k), (0x0040, .windowGrant r k), (0x0041, .windowRevoke r k),
        (0x0042, .sealKey r k), (0x0043, .latchOrphan r k), (0x0050, .swapIn r k), (0x0051, .swapOut r k),
        (0x0052, .shardFetch r k), (0x0060, .buddySet r k), (0x0061, .stormNow r k), (0x0062, .drainSet r k),
        (0x0063, .restore r k), (0x0071, .modeGet r k), (0x0080, .selfTest r k), (0x0081, .shutdown r k),
        (0x0090, .meterRead r k), (0x0091, .meterIdent r k), (0x00A0, .eventFreeze r k), (0x00A1, .eventRead r k),
        (0x00A2, .eventThaw r k)], rings e.1 e.2) ∧
    (∀ e ∈ [(1, Instr.modeSetPowerCap r k), (2, .modeSetSlotSplit r k), (3, .modeSetHoldoverLimit r k),
        (4, .modeSetCheckValueMode r k), (5, .modeSetCheckValuePoly r k), (6, .modeSetFarTierWrites r k),
        (7, .modeSetExactBf16 r k), (8, .modeSetSealedFrames r k), (9, .modeSetStormInterval r k)],
      if prm k 0 2 = e.1 then rings 0x0070 e.2 else exec e.2 s = .next s) ∧
    (if prm k 0 2 = 0 ∨ 9 < prm k 0 2 then rings 0x0070 (.modeSetDrainInterval r k)
      else exec (.modeSetDrainInterval r k) s = .next s)

/-- The rest of a command's life (R358, R363, R367, R374, R378, R379) and the escape (R376, R377): a waiting command
starts when its locks are free; a decided one replies, stamped now; what a job map, a Plan or a window grant delivers
is in place with its reply; a command or an escape that overruns its bound by 1,024 beats ends `ST_INTERNAL`; an escape
is refused while another runs, and when it carries another opcode than the resets. -/
def Obligations.CommandsEndWithTheirReply : Prop :=
  ∀ (s : State) (r : Req),
    let q := r.val
    let after (i : Instr) (f : State → Prop) : Prop := ∃ t, exec i s = .next t ∧ f t
    (∀ j, (mbx s q).job = some j → j.start = none → canStart s q (withLocks s q j) = true → (mbx s q).mstate = .waiting →
      ∀ a, startRefused s q j.opcode.toNat j.packet = some a → after (.commandStart r) fun t =>
        Decides t q a.status ∧ (mbx t q).mstate = .running ∧ t.groups = s.groups ∧ t.panes = s.panes) ∧
    (∀ j, (mbx s q).job = some j → j.start = none → canStart s q (withLocks s q j) = true → (mbx s q).mstate = .waiting →
      j.opcode = 0x0091 → startRefused s q 0x0091 j.packet = none → after (.commandStart r) fun t =>
        Decides t q stOk ∧ Returns t q (meterIdent s)) ∧
    (∀ j, (mbx s q).job = some j → j.start ≠ none ∨ canStart s q (withLocks s q j) = false → exec (.commandStart r) s = .next s) ∧
    ((mbx s q).job = none → ∀ i ∈ [Instr.commandStart r, .commandReply r], exec i s = .next s) ∧
    (∀ j a, (mbx s q).job = some j → j.outcome = some a → after (.commandReply r) fun t => (mbx t q).job = none ∧
      t.groups = s.groups ∧ t.panes = s.panes ∧ (replyLost s q = false → (mbx t q).mstate = .done ∧
        (mbx t q).reply = some { a with stampBeat := s.time.beat, stampTick := s.time.tick })) ∧
    (∀ j g b, (mbx s q).job = some j → j.outcome = none → j.start ≠ none → j.opcode = 0x0024 →
      prm j.packet 0 1 < 16 → groupLed s (prm j.packet 0 1) = some g → bulkData j.packet = some b → hasStart g = false →
      b.length = 32 + 2 * leAt b 24 4 → mapRefusal s (parseMap b) = none → after (.commandReply r) fun t =>
        groupLed t (prm j.packet 0 1) = some { g with jobMap := some (parseMap b) } ∧ (mbx t q).job = none) ∧
    (∀ j g d, (mbx s q).job = some j → j.outcome = none → j.start ≠ none → j.opcode = 0x0030 →
      prm j.packet 0 1 < 16 → groupLed s (prm j.packet 0 1) = some g → bulkData j.packet = some d → hasStart g = false →
      groupShort s g = false → loadCheck s g d j.packet.bulkLen.toNat = none → after (.commandReply r) fun t =>
        groupLed t (prm j.packet 0 1) = some { g with
          plan := some d, ended := none, lengths := [], abortDue := none, misplaced := 0 } ∧ (mbx t q).job = none) ∧
    (∀ j i, (mbx s q).job = some j → j.outcome = none → j.start ≠ none → j.opcode = 0x0040 →
      prm j.packet 0 1 < 16 → (pane s (prm j.packet 0 1)).state = .opened → grantRefusal s (prm j.packet 0 1) j.packet = none →
      closedEntry s (prm j.packet 0 1) = some i → after (.commandReply r) fun t =>
        tblGet windowZero (rmoOf t (prm j.packet 0 1)).windows i = grantEntry j.packet ∧
        (∀ n, n ≠ i → tblGet windowZero (rmoOf t (prm j.packet 0 1)).windows n =
          tblGet windowZero (rmoOf s (prm j.packet 0 1)).windows n) ∧ (mbx t q).job = none) ∧
    (let late (j : Job) : Prop := j.outcome = none ∧ ∃ b, boundFrom s j = some b ∧ b + j.bound + 1024 ≤ s.time.beat
     (∀ j, (mbx s q).job = some j → late j → after (.commandOverrun r) fun t => (mbx t q).job = none ∧
        (replyLost s q = false → ∃ a, (mbx t q).reply = some a ∧ a.status = 0x0404)) ∧
      (∀ e, (∀ j, (mbx s q).job = some j → ¬late j) → q = 0 → s.dk.esc.job = some e → late e →
        after (.commandOverrun r) fun t => t.dk.esc.job = none ∧ ∃ a, t.dk.esc.reply = some a ∧ a.status = 0x0404) ∧
      ((∀ j, (mbx s q).job = some j → ¬late j) → (∀ e, q = 0 → s.dk.esc.job = some e → ¬late e) →
        exec (.commandOverrun r) s = .next s)) ∧
    ∀ (op : BitVec 16) (k : Packet),
      (hubAnswers s = false → exec (.escape op k) s = .next s) ∧
      (hubAnswers s = true →
        (∀ e, s.dk.esc.job = some e → after (.escape op k) fun t => t.dk.esc.job = some e ∧
          (∃ a, t.dk.esc.reply = some a ∧ a.status = 0x0101) ∧ t.panes = s.panes ∧ t.groups = s.groups) ∧
        (s.dk.esc.job = none → earlyRefusal s 0 false op.toNat k = none → escapeOp op.toNat = false →
          after (.escape op k) fun t => t.dk.esc.estate = .done ∧
            (∃ a, t.dk.esc.reply = some a ∧ a.status = 0x0204) ∧ t.panes = s.panes ∧ t.groups = s.groups) ∧
        (s.dk.esc.job = none → earlyRefusal s 0 false op.toNat k = none → op = 0x0016 → after (.escape op k) fun t =>
          t.faults.lastReset = 1 ∧ t.groups = [] ∧ t.latches = [] ∧ t.dk.ready = false ∧ t.dk.mbx = []))

/-- What the commands on contexts and resets do when they start at once (Table 14-11, R333, R334, R341, R345, R347,
R349, R370, R371, R408 to R411). -/
def Obligations.ContextCommands : Prop :=
  ∀ (s : State) (r : Req) (k : Packet),
    let q := r.val
    let p := prm k 0 1
    let x := pane s p
    let starts (op : Nat) (i : Instr) (f : State → Prop) : Prop := StartsAtOnce s q op k → ∃ t, exec i s = .next t ∧ f t
    (starts 0x0001 (.hello r k) fun t =>
      (p ≤ 1 ∧ 1 ≤ prm k 1 1 → Decides t q stOk ∧ (mbx t q).hello = true ∧ Returns t q (helloResult s q)) ∧
      (¬(p ≤ 1 ∧ 1 ≤ prm k 1 1) → Decides t q stBadVersion ∧ (mbx t q).hello = (mbx s q).hello)) ∧
    (starts 0x0010 (.ctxCreate r k) fun t =>
      (p < 16 → x.state = .free → prm k 4 4 ≠ 0 → x.kept = false → Decides t q stOk ∧ (pane t p).state = .opened ∧
        (pane t p).jobTag = BitVec.ofNat 32 (prm k 4 4) ∧ (pane t p).ownerTag = (pane t p).jobTag ∧
        t.groups = s.groups ++ [Group.alone p]) ∧
      (p < 16 → x.state ≠ .free ∨ prm k 4 4 = 0 → Decides t q stBadState ∧ t.panes = s.panes)) ∧
    (starts 0x0011 (.ctxTeardown r k) fun t =>
      (p < 16 → x.state = .opened → x.shutter = none → RunsOn t q ∧ ∃ h, (pane t p).shutter = some h ∧
        h.d = s.time.beat + 1 ∧ h.oldTag = x.jobTag ∧ h.oldEpoch = x.epoch ∧
        h.keepFar = (q == 0 && bitAt (prm k 1 1) 0) ∧ h.cause = if q = 0 then 0 else 1) ∧
      (p < 16 → x.state = .free ∨ x.state = .testing ∨ x.state = .outOfService → Decides t q stBadState ∧
        t.panes = s.panes)) ∧
    (starts 0x0012 (.groupBind r k) fun t =>
      let mask := BitVec.ofNat 16 (prm k 0 2)
      (mask ≠ 0 → bindRefusal s mask = none → Decides t q stOk ∧ t.panes = s.panes ∧
        (∃ g ∈ t.groups, g.members = mask ∧ g.jobMap = none) ∧
        ∀ g ∈ t.groups, g.members = mask ∨ (g ∈ s.groups ∧ g.members &&& mask = 0)) ∧
      (mask ≠ 0 → ∀ b, bindRefusal s mask = some b → Decides t q stBadState ∧ t.groups = s.groups) ∧
      (mask = 0 → Decides t q stBadParam ∧ t.groups = s.groups)) ∧
    (starts 0x0013 (.ctxReset r k) fun t =>
      (p < 16 → x.state = .opened → RunsOn t q ∧ pane t p = { x with resetFrom := some (s.time.beat + 1) }) ∧
      (p < 16 → x.state ≠ .opened → Decides t q stBadState ∧ t.panes = s.panes)) ∧
    (starts 0x0014 (.engineReset r k) fun t =>
      (p ≤ 2 → Decides t q stOk ∧ ∀ g ∈ t.groups, usesRing g p = true → g.abortDue ≠ none) ∧
      (16 ≤ p → p ≤ 27 → Decides t q stOk ∧ cvOf t (p - 16) = { cvOf s (p - 16) with
        uncovered := (cvOf s (p - 16)).uncovered || (cvOf s (p - 16)).lstate == 1, lstate := 0, left := 0 }) ∧
      (engineOk p = false → Decides t q stBadParam)) ∧
    (starts 0x0015 (.paneReset r k) fun t =>
      (p < 16 → x.state = .opened ∨ x.state = .free → x.shutter = none → RunsOn t q ∧
        ∃ h, (pane t p).shutter = some h ∧ h.d = s.time.beat + 1 ∧ h.paneReset = true ∧ h.keepFar = true) ∧
      (p < 16 → x.state = .outOfService → Decides t q stBadState ∧ t.panes = s.panes)) ∧
    (starts 0x0016 (.moduleReset r k) fun t => t.faults.lastReset = 1 ∧ t.groups = [] ∧ t.latches = [] ∧ t.ccr = [] ∧
      t.dk.ready = false ∧ t.dk.mbx = [] ∧ t.power.hubUp = true)

/-- What the commands that equip a context do when they start at once (Table 14-11, R136, R150, R151, R208, R231,
R337, R338, R22, R129, R130): allocations that fit are made and others are refused; an accepted start stands in its
group; a group with a pane that is short of cells or of near tier accepts no Plan (R71, R148). -/
def Obligations.AllocationAndPlanCommands : Prop :=
  ∀ (s : State) (r : Req) (k : Packet),
    let q := r.val
    let p := prm k 0 1
    let starts (op : Nat) (i : Instr) (f : State → Prop) : Prop := StartsAtOnce s q op k → ∃ t, exec i s = .next t ∧ f t
    let refused (t : State) (st : Nat) : Prop := Decides t q st ∧ t.groups = s.groups ∧ t.panes = s.panes
    (∀ g, p < 16 → groupLed s p = some g → hasStart g = true →
      starts 0x0020 (.slotAlloc r k) (fun t => refused t stPlanActive) ∧
      starts 0x0021 (.streamShare r k) (fun t => refused t stPlanActive) ∧
      starts 0x0030 (.planLoad r k) (fun t => refused t stPlanActive)) ∧
    (∀ g, p < 16 → groupLed s p = some g → hasStart g = false →
      (starts 0x0020 (.slotAlloc r k) fun t =>
        let mask (u : Nat) : BitVec 256 := BitVec.ofNat 256 (prm k (4 + 32 * u) 32)
        (slotConflict s p mask = none → Decides t q stOk ∧ ∃ g', groupLed t p = some g' ∧
          g' = { g with slots := g'.slots } ∧ ∀ u, u < 12 → tblGet 0 g'.slots u = mask u) ∧
        (slotConflict s p mask ≠ none → refused t stConflict)) ∧
      (starts 0x0021 (.streamShare r k) fun t =>
        let others := (s.groups.filter fun g => leadOf g.members != p).foldl (fun n g => n + g.streamShare) 0
        (others + prm k 4 4 ≤ 1835008 → Decides t q stOk ∧
          groupLed t p = some { g with streamShare := prm k 4 4 }) ∧
        (1835008 < others + prm k 4 4 → refused t stConflict)) ∧
      (starts 0x0024 (.jobMapLoad r k) fun t => ∀ b, bulkData k = some b → b.length = 32 + 2 * leAt b 24 4 →
        (mapRefusal s (parseMap b) = none → RunsOn t q ∧ t.groups = s.groups) ∧
        (mapRefusal s (parseMap b) ≠ none → refused t stMapRejected)) ∧
      (starts 0x0030 (.planLoad r k) fun t => ∀ d, bulkData k = some d →
        (groupShort s g = true → refused t stBadState) ∧
        (groupShort s g = false → loadCheck s g d k.bulkLen.toNat = none → RunsOn t q ∧ t.groups = s.groups) ∧
        (groupShort s g = false → loadCheck s g d k.bulkLen.toNat ≠ none → refused t stPlanRejected)) ∧
      (starts 0x0031 (.planStart r k) fun t =>
        let bad := startRefusal s g (prm k 2 6) (prm k 8 6) (prm k 14 4)
        (groupShort s g = true → refused t stBadState) ∧
        (groupShort s g = false → bad = none → Decides t q stOk ∧ t.panes = s.panes ∧ groupLed t p = some { g with
          ended := none, abortDue := none
          run := some (freshRun (prm k 2 6) (prm k 8 6) (prm k 14 4) (BitVec.ofNat 64 (prm k 18 8))
            (BitVec.ofNat 64 (prm k 26 8))) }) ∧
        (groupShort s g = false → bad ≠ none → refused t stStartRefused))) ∧
    (∀ g d u, p < 16 → groupLed s p = some g → g.plan = some d → g.run = some u → bitAt (prm k 1 1) 0 = false →
      starts 0x0032 (.planStop r k) fun t =>
        (u.started = true → Decides t q stOk ∧ groupLed t p = some { g with run := some { u with stopping := true } }) ∧
        (u.started = false → ∃ g', groupLed t p = some g' ∧ g'.run = none ∧ g'.ended = some .stopped)) ∧
    (p < 16 → ((groupOf s p).all fun g => !hasStart g) = true → starts 0x0022 (.farQuota r k) fun t =>
      (fitsFar (farClaims s p 16 + prm k 2 2) = true → Decides t q stOk ∧
        t.far.quotas = tblPut 0 s.far.quotas p (prm k 2 2) ∧ t.panes = s.panes ∧
        ∀ e ∈ (ownerOf t p).map, e.1 < prm k 2 2 * 65536 ∨ stagingOfs / unitBytes ≤ e.1) ∧
      (fitsFar (farClaims s p 16 + prm k 2 2) = false → refused t stNoResource)) ∧
    (∀ g, p < 16 → (pane s p).state = .opened → groupOf s p = some g → hasStart g = false →
      starts 0x0023 (.latchAlloc r k) fun t =>
        let free := (List.range 256).filter (blockFree s)
        (prm k 2 2 ≤ free.length → Decides t q stOk ∧
          (pane t p).latchList = (pane s p).latchList ++
            (free.take (prm k 2 2)).flatMap fun b => (List.range 256).map (256 * b + ·)) ∧
        (free.length < prm k 2 2 → refused t stNoResource)) ∧
    ((∀ g ∈ s.groups, hasStart g = false) → ∀ b, bulkData k = some b → starts 0x0025 (.coordLoad r k) fun t =>
      (b.length = 4 + 8 * leAt b 0 4 → Decides t q stOk ∧ t.links.coord = parseCoord b ∧ t.power.coordLoaded = true ∧
        t.panes = s.panes) ∧
      (b.length ≠ 4 + 8 * leAt b 0 4 → Decides t q stBadParam ∧ t.links.coord = s.links.coord)) ∧
    (starts 0x0026 (.identitySet r k) fun t =>
      ((∀ n, n < 16 → holdsContext s n = false) → Decides t q stOk ∧
        t.power.identity = some (BitVec.ofNat 16 (prm k 0 2)) ∧ t.power.idConfig = BitVec.ofNat 8 (prm k 2 1) ∧
        t.panes = s.panes) ∧
      (∀ n, n < 16 → holdsContext s n = true → Decides t q stBadState ∧ t.power.identity = s.power.identity))

/-- What the commands on windows, keys and latches do when they start at once (Table 14-11, R199, R200, R203, R205,
R216): a revoked entry admits nothing more, and the command runs on until the entry is closed. -/
def Obligations.WindowKeyAndLatchCommands : Prop :=
  ∀ (s : State) (r : Req) (k : Packet),
    let q := r.val
    let p := prm k 0 1
    let starts (op : Nat) (i : Instr) (f : State → Prop) : Prop := StartsAtOnce s q op k → ∃ t, exec i s = .next t ∧ f t
    (starts 0x0040 (.windowGrant r k) fun t =>
      (p < 16 → (pane s p).state = .opened → grantRefusal s p k = none → closedEntry s p ≠ none →
        RunsOn t q ∧ t.panes = s.panes) ∧
      (p < 16 → (pane s p).state = .opened → grantRefusal s p k ≠ none → Decides t q stBadParam ∧ t.panes = s.panes) ∧
      (p < 16 → (pane s p).state = .opened → grantRefusal s p k = none → closedEntry s p = none →
        Decides t q stNoResource ∧ t.panes = s.panes) ∧
      (p < 16 → (pane s p).state ≠ .opened → Decides t q stBadState ∧ t.panes = s.panes)) ∧
    (starts 0x0041 (.windowRevoke r k) fun t => p < 16 →
      let x := tblGet windowZero (rmoOf s p).windows (prm k 1 1)
      (x.wstate = 1 → RunsOn t q ∧ tblGet windowZero (rmoOf t p).windows (prm k 1 1) = { x with wstate := 2 } ∧
        (∀ n, n ≠ prm k 1 1 → tblGet windowZero (rmoOf t p).windows n = tblGet windowZero (rmoOf s p).windows n) ∧
        ∀ m, m ≠ p → pane t m = pane s m) ∧
      (x.wstate ≠ 1 → Decides t q stBadState ∧ t.panes = s.panes)) ∧
    (starts 0x0042 (.sealKey r k) fun t =>
      (p ≤ 1 → (pane s (q - 1)).state = .opened → Decides t q stOk ∧ (rmoOf t (q - 1)).keySel = p ∧
        tblFind (rmoOf t (q - 1)).keys p = some { key := some (BitVec.ofNat 256 (prm k 8 32)), counter := 0 } ∧
        ∀ m, m ≠ q - 1 → pane t m = pane s m) ∧
      (1 < p → Decides t q stBadParam ∧ t.panes = s.panes)) ∧
    (tblWf latchZero s.latches = true → prm k 2 1 < 16 → starts 0x0043 (.latchOrphan r k) fun t =>
      let held (i : Nat) : Bool := latchHolder (latchOf s i) (BitVec.ofNat 16 (prm k 0 2)) (BitVec.ofNat 4 (prm k 2 1))
        (BitVec.ofNat 16 (prm k 4 2))
      Decides t q stOk ∧ ∀ i, (held i = false → latchOf t i = latchOf s i) ∧
        (held i = true → (latchOf s i).queue = [] → latchOf t i = { latchOf s i with state := 2 }) ∧
        ∀ w u, held i = true → (latchOf s i).queue = w :: u →
          latchOf t i = { latchOf s i with
            queue := u, state := 1, holderDevice := w.device, holderPane := w.pane, holderEpoch := w.epoch })

/-- What the far-tier and storm commands do when they start at once (Table 14-11, R150, R155, R175, R181, R183, R386,
R388, R393, R396, R520). -/
def Obligations.FarTierAndStormCommands : Prop :=
  ∀ (s : State) (r : Req) (k : Packet),
    let q := r.val
    let p := prm k 0 1
    let mine := callerGroup s p
    let a1 : BitVec 64 := BitVec.ofNat 64 (prm k 8 8)
    let a2 : BitVec 64 := BitVec.ofNat 64 (prm k 16 8)
    let mask : BitVec 16 := BitVec.ofNat 16 (prm k 6 2)
    let local' (a : BitVec 64) (n : Nat) : Prop := BitVec.ofNat 16 (gaDevice a) = moduleId s ∧ gaTier a = 0 ∧
      nearOk (gaOfs a) n = true
    let far (a : BitVec 64) (n : Nat) : Prop := adrOk s mine 1 a = true ∧ inQuota s a n = true
    let starts (op : Nat) (i : Instr) (f : State → Prop) : Prop := StartsAtOnce s q op k → ∃ t, exec i s = .next t ∧ f t
    (p < 16 → mask ≠ 0 → mask &&& ~~~mine = 0 → far a1 (prm k 24 8) → local' a2 (prm k 24 8) → startedLead s p = none →
      starts 0x0050 (.swapIn r k) fun t =>
        Decides t q (if farPoison s (gaPane a1) (gaOfs a1) (prm k 24 8) then stMediaError else stOk) ∧
        t.panes = (farToNear s (gaPane a1) (gaOfs a1) (prm k 24 8) ((maskPanes mask).map fun m => (m, gaOfs a2))).panes ∧
        t.groups = s.groups) ∧
    (p < 16 → adrOk s mine 0 a1 = true → nearOk (gaOfs a1) (prm k 24 8) = true → far a2 (prm k 24 8) →
      starts 0x0051 (.swapOut r k) fun t =>
        (writeRefusal s (gaOfs a2) (prm k 24 8) = none → prm k 24 8 ≠ 0 → RunsOn t q ∧ t.panes = s.panes ∧
          t.far.nextWrite = s.far.nextWrite + 1 ∧ ∃ w ∈ t.far.writes, w.ident = s.far.nextWrite ∧ w.owner = gaPane a2 ∧
            w.sink = .command q) ∧
        ∀ a, writeRefusal s (gaOfs a2) (prm k 24 8) = some a → Decides t q a.status ∧ t.panes = s.panes ∧
          t.far = s.far) ∧
    (p < 16 → badDesc k 24 = none → mask ≠ 0 → mask &&& ~~~mine = 0 → local' a1 (prm k 16 8) → startedLead s p = none →
      enginesOut s k 24 = false → starts 0x0052 (.shardFetch r k) fun t => RunsOn t q ∧ t.panes = s.panes ∧
        ∃ y ∈ t.store.txns, y.owner = .fetch q ∧ y.phase = .opening ∧ y.length = prm k 16 8 ∧ y.xid = s.store.nextXid) ∧
    (∀ g, p < 16 → groupLed s p = some g → hasStart g = false →
      (prm k 4 1 < 16 → fitsFar (farClaims s 16 p + stagingFor (prm k 16 8)) = true →
        starts 0x0060 (.buddySet r k) fun t => Decides t q stOk ∧ groupLed t p = some { g with
          status := { g.status with buddyLost := false }, storm := { g.storm with
          buddy := some (BitVec.ofNat 16 (prm k 2 2), BitVec.ofNat 8 (prm k 4 1), prm k 8 8, prm k 16 8)
          stagingGib := stagingFor (prm k 16 8) } }) ∧
      (starts 0x0061 (.stormNow r k) fun t => Decides t q stBadState ∧ t.groups = s.groups) ∧
      (prm k 2 2 ≠ 0 → prm k 2 2 % g.storm.interval = 0 → badDesc k 8 = none →
        starts 0x0062 (.drainSet r k) fun t => Decides t q stOk ∧ groupLed t p = some { g with
          storm := { g.storm with drain := some (prm k 2 2, bytesAt k.params 8 64) } }) ∧
      (∀ d, g.plan = some d →
        (prm k 1 1 = 1 → badDesc k 16 = none → prm k 52 2 ≤ prm k 54 2 → enginesOut s k 16 = false →
          starts 0x0063 (.restore r k) fun t => RunsOn t q ∧ t.panes = s.panes ∧
            ∃ y ∈ t.store.txns, y.owner = .restore q ∧ y.phase = .opening ∧
              y.moduleId = BitVec.ofNat 16 (prm k 52 2)) ∧
        ((∃ b, g.storm.buddy = some b ∧ b.1 ≠ moduleId s) → prm k 1 1 = 0 →
          starts 0x0063 (.restore r k) fun t => RunsOn t q ∧ t.panes = s.panes) ∧
        (g.storm.buddy = none → prm k 1 1 = 0 →
          starts 0x0063 (.restore r k) fun t => Decides t q stBadState ∧ t.panes = s.panes))) ∧
    (∀ g, p < 16 → groupLed s p = some g → planRunning g = true → starts 0x0061 (.stormNow r k) fun t =>
      Decides t q stOk ∧ groupLed t p = some { g with storm := { g.storm with now := true } })

/-- `MODE_SET` and `MODE_GET` (R501, Table 20-5): a value that the table allows is in force when the command is
decided, and the other modes keep theirs; a bad scope, a bad value and a mode that may not change under an accepted
start are refused, and so is a drain interval; `MODE_GET` returns the value in force. -/
def Obligations.ModeCommands : Prop :=
  ∀ (s : State) (r : Req) (k : Packet),
    let q := r.val
    let scope := prm k 2 1
    let v := prm k 4 4
    let starts (i : Instr) (f : State → Prop) : Prop := StartsAtOnce s q 0x0070 k → ∃ t, exec i s = .next t ∧ f t
    (∀ e ∈ [(1, Instr.modeSetPowerCap r k), (2, .modeSetSlotSplit r k), (3, .modeSetHoldoverLimit r k),
        (4, .modeSetCheckValueMode r k), (5, .modeSetCheckValuePoly r k), (6, .modeSetFarTierWrites r k)],
      prm k 0 2 = e.1 → starts e.2 fun t =>
        (scope = 0xFF → (∀ g ∈ s.groups, hasStart g = false) ∨ e.1 = 3 ∨ e.1 = 6 → moduleValueOk s e.1 v = true →
          Decides t q stOk ∧ modeValue t e.1 none = v ∧
          ∀ n, moduleMode n = true → n ≠ e.1 → modeValue t n none = modeValue s n none) ∧
        (scope = 0xFF → (∀ g ∈ s.groups, hasStart g = false) → moduleValueOk s e.1 v = false →
          Decides t q stBadParam ∧ t.power = s.power ∧ t.time = s.time) ∧
        (scope = 0xFF → (∃ g ∈ s.groups, hasStart g = true) → e.1 ≠ 3 → e.1 ≠ 6 →
          Decides t q stPlanActive ∧ t.power = s.power) ∧
        (scope ≠ 0xFF → Decides t q stBadParam ∧ t.power = s.power ∧ t.time = s.time)) ∧
    (∀ g, scope < 16 → groupLed s scope = some g → ∀ e ∈ [(7, Instr.modeSetExactBf16 r k),
        (8, .modeSetSealedFrames r k), (9, .modeSetStormInterval r k)], prm k 0 2 = e.1 → starts e.2 fun t =>
        (hasStart g = false → groupValueOk g e.1 v = true → Decides t q stOk ∧
          groupLed t scope = some (setGroupMode e.1 v g) ∧ modeValue t e.1 (groupLed t scope) = v) ∧
        (hasStart g = false → groupValueOk g e.1 v = false → Decides t q stBadParam ∧ t.groups = s.groups) ∧
        (hasStart g = true → Decides t q stPlanActive ∧ t.groups = s.groups)) ∧
    (prm k 0 2 = 0 ∨ 9 < prm k 0 2 → starts (.modeSetDrainInterval r k) fun t =>
      Decides t q stBadParam ∧ t.groups = s.groups ∧ t.power = s.power) ∧
    (StartsAtOnce s q 0x0071 k → ∃ t, exec (.modeGet r k) s = .next t ∧ t.groups = s.groups ∧ t.power = s.power ∧
      (moduleMode (prm k 0 2) = true → scope = 0xFF →
        Decides t q stOk ∧ Returns t q (natLe 4 (modeValue s (prm k 0 2) none))) ∧
      (∀ g, groupMode (prm k 0 2) = true → scope < 16 → groupLed s scope = some g →
        Decides t q stOk ∧ Returns t q (natLe 4 (modeValue s (prm k 0 2) (some g)))))

/-- The services (Table 14-11, R345, R427, R433, R455, R459, R479 to R481, R491): a self-test of free panes puts them
in `TESTING`; a shutdown of an idle module begins its way down, and asks for the teardown of every context of one that
is not; the meter's records and identity, and the recorder's freeze, ranges and thaw. -/
def Obligations.ServiceCommands : Prop :=
  ∀ (s : State) (r : Req) (k : Packet),
    let q := r.val
    let starts (op : Nat) (i : Instr) (f : State → Prop) : Prop := StartsAtOnce s q op k → ∃ t, exec i s = .next t ∧ f t
    let bulk (t : State) (d : List Byte) : Prop :=
      ∃ j a, (mbx t q).job = some j ∧ j.outcome = some a ∧ a.bulk = d
    (starts 0x0080 (.selfTest r k) fun t =>
      let mask := BitVec.ofNat 16 (prm k 0 2)
      ((∀ p ∈ maskPanes mask, (pane s p).state = .free) → Decides t q stOk ∧
        (∀ p ∈ maskPanes mask, (pane t p).state = .testing ∧ (testOf t p).tstate = tsQueued) ∧
        ∀ p, mask.getLsbD p = false → pane t p = pane s p) ∧
      ((∃ p ∈ maskPanes mask, (pane s p).state = .opened ∨ (pane s p).state = .outOfService) →
        Decides t q stBadState ∧ t.panes = s.panes)) ∧
    (starts 0x0081 (.shutdown r k) fun t =>
      ((∀ p, p < 16 → (pane s p).state = .free ∨ (pane s p).state = .outOfService) → Decides t q stOk ∧
        t.test.shutdown = some (bitAt (prm k 0 1) 0)) ∧
      ((∃ p, p < 16 ∧ (pane s p).state = .opened) → RunsOn t q ∧
        ∀ p, p < 16 → (pane s p).state = .opened → (pane s p).shutter = none →
          ∃ h, (pane t p).shutter = some h ∧ h.keepFar = true ∧ h.d = s.time.beat + 1)) ∧
    (starts 0x0090 (.meterRead r k) fun t =>
      let n := prm k 8 4
      let got := (meterRead s (if q = 0 then none else some (q - 1)) (prm k 0 8) n).1
      (1 ≤ n → n ≤ 65536 → 128 * n ≤ k.bulkLen.toNat → k.bulk ≠ none → Decides t q stOk ∧
        bulk t (got.flatMap fun x => x.body ++ x.sig) ∧ t.island.store = s.island.store ∧
        t.island.readSeq = if q = 0 then got.foldl (fun m x => max m x.seq) s.island.readSeq else s.island.readSeq) ∧
      (n = 0 ∨ 65536 < n → Decides t q stBadParam ∧ t.island = s.island)) ∧
    (starts 0x0091 (.meterIdent r k) fun t => Decides t q stOk ∧ Returns t q (meterIdent s) ∧ t.island = s.island) ∧
    (starts 0x00A0 (.eventFreeze r k) fun t =>
      (s.evrec.frozen = false → t.evrec = { s.evrec with frozen := true, drops := 0, dropStamps := none } ∧
        (s.evrec.queue = [] → Decides t q stOk) ∧ (s.evrec.queue ≠ [] → RunsOn t q)) ∧
      (s.evrec.frozen = true → Decides t q stBadState ∧ t.evrec = s.evrec)) ∧
    (starts 0x00A1 (.eventRead r k) fun t => t.evrec = s.evrec ∧
      (s.evrec.frozen = true → eventRangeOk (prm k 0 8) (prm k 8 4) = true → prm k 8 4 ≤ k.bulkLen.toNat → k.bulk ≠ none →
        Decides t q stOk ∧ bulk t (eventBytes s (prm k 0 8) (prm k 8 4))) ∧
      (s.evrec.frozen = false → Decides t q stBadState)) ∧
    (starts 0x00A2 (.eventThaw r k) fun t =>
      (s.evrec.frozen = true → Decides t q stOk ∧ t.evrec.frozen = false ∧ t.evrec.due = []) ∧
      (s.evrec.frozen = false → Decides t q stBadState ∧ t.evrec = s.evrec))

/-- The Metrology Island (R449 to R451, R461, R462, R465 to R467): at an interval boundary one record of every kept
space, one of every occupancy older than a millisecond and one of the module are written; records wait while they
cannot be made durable; opened debug pads, an admitted update and a start each leave a record, and what raises the
seal count raises it once. -/
def Obligations.IslandRecords : Prop :=
  ∀ s : State,
    let i := s.island
    let after (c : Instr) (f : Island → Prop) : Prop := ∃ t, exec c s = .next t ∧ f t.island
    (i.running = true → i.stopped = false → i.fault = false → i.lastBoundary + i.intervalMs ≤ islandMs s →
      after .meterIntervalBoundary fun j => j.lastBoundary = islandMs s - islandMs s % i.intervalMs ∧
        j.newestSeq = i.newestSeq + 1 + ((List.range 16).filter fun p => (tblFind i.kept p).isSome).length +
          ((List.range 16).filter fun p => (tblFind i.meters p).any fun m => m.sinceMs < islandMs s).length) ∧
    (i.running = false ∨ i.stopped = true ∨ islandMs s < i.lastBoundary + i.intervalMs →
      exec .meterIntervalBoundary s = .next s) ∧
    (i.running = true → i.stopped = false → after (.meterRecordRetry true) fun j =>
      j.fault = false ∧ j.held = [] ∧ j.newestSeq = i.newestSeq) ∧
    (i.running = true → i.fault = false → after (.meterRecordRetry false) fun j =>
      j.fault = true ∧ j.newestSeq = i.newestSeq) ∧
    (i.running = false → ∀ d, exec (.meterRecordRetry d) s = .next s) ∧
    (after .debugPadsEnabled fun j => j.debugOpen = true ∧
      (i.sealCount = 0xFFFF → j.sealCount = 0xFFFF ∧ j.newestSeq = i.newestSeq) ∧
      (i.sealCount ≠ 0xFFFF → j.sealCount = i.sealCount + 1 ∧
        (i.running = true → i.stopped = false → j.newestSeq = i.newestSeq + 1))) ∧
    (∀ u, updateOk s u = true → i.sealCount ≠ 0xFFFF → after (.meterUpdatePackage u) fun j =>
      j.legalVersion = u.legalVersion ∧ j.intervalMs = u.intervalMs ∧ j.sealCount = i.sealCount + 1) ∧
    (∀ u, updateOk s u = false → exec (.meterUpdatePackage u) s = .next s) ∧
    (i.running = false → ∃ t, exec .islandStart s = .next t ∧ t.power.input = true ∧ t.island.running = true ∧
      t.island.fault = false ∧ t.island.ns = i.ns ∧
      t.island.newestSeq = if i.sealCount = 0xFFFF then i.newestSeq else i.newestSeq + 1) ∧
    (i.running = true → exec .islandStart s = .next s)

/-- The event recorder (R37, R39, R473 to R475, R477, R479): a delivered event is queued, dropped in a freeze, or lost
when the queue is full; four ticks after the last the front of the queue is accepted, and written or suppressed by its
code's limit; suppressed codes are told in the next epoch; a spilled segment is durable. A
source that Table 02-3 does not list delivers nothing (R36). -/
def Obligations.RecorderKeepsEvents : Prop :=
  ∀ s : State,
    let q := s.evrec
    let after (c : Instr) (f : State → Prop) : Prop := ∃ t, exec c s = .next t ∧ f t
    (∀ e, srcListed e.source.toNat = false → exec (.eventDelivery e) s = .next s) ∧
    (∀ e, srcListed e.source.toNat = true → declaresBank e = false → after (.eventDelivery e) fun t => t = { s with evrec := t.evrec } ∧
      (q.frozen = true → t.evrec.queue = q.queue ∧ t.evrec.drops.toNat = satAdd 16 q.drops.toNat 1) ∧
      (q.frozen = false → 256 ≤ q.queue.length →
        t.evrec.queue = q.queue ∧ t.evrec.lost.toNat = satAdd 24 q.lost.toNat 1) ∧
      (q.frozen = false → q.queue.length < 256 →
        t.evrec.queue.length = q.queue.length + 1 ∧ (now s, e) ∈ t.evrec.queue ∧ ∀ x ∈ q.queue, x ∈ t.evrec.queue)) ∧
    (∀ e, srcListed e.source.toNat = true → declaresBank e = true → after (.eventDelivery e) fun t => t.faults.hubDegraded = true ∧
      t.faults.declarations.toNat = satAdd 24 s.faults.declarations.toNat 1) ∧
    (∀ d e rest, q.queue = (d, e) :: rest → q.lostSince = 0 →
      (mayAccept s = false → exec .eventAccept s = .next s) ∧
      (mayAccept s = true → after .eventAccept fun t => t.evrec.queue = rest ∧
        t.evrec.lastAccept = some (s.time.beat, s.time.tick) ∧
        ∀ len, codeInfo e.code.toNat = some (len, 1) →
          (tblGet 0 q.written (epochKey e.beat e.code.toNat) < q.limit → q.nextRseq < t.evrec.nextRseq) ∧
          (q.limit ≤ tblGet 0 q.written (epochKey e.beat e.code.toNat) →
            t.evrec.nextRseq = q.nextRseq ∧ t.evrec.ring = q.ring ∧
            tblGet 0 t.evrec.suppressed (epochKey e.beat e.code.toNat) =
              tblGet 0 q.suppressed (epochKey e.beat e.code.toNat) + 1))) ∧
    (after .suppressedSummary fun t =>
      (∀ x ∈ t.evrec.suppressed, s.time.beat < (x.1 / 65536 + 1) * 4096 + 8) ∧
      (∀ x ∈ q.suppressed, s.time.beat < (x.1 / 65536 + 1) * 4096 + 8 → x ∈ t.evrec.suppressed) ∧
      ((∃ x ∈ q.suppressed, (x.1 / 65536 + 1) * 4096 + 8 ≤ s.time.beat) → q.frozen = false →
        q.nextRseq < t.evrec.nextRseq)) ∧
    (∀ n rest, q.spillQueue = n :: rest → q.spilling = true → spillAcked s n = true → after .spillDone fun t =>
      t.evrec.spilled = some n ∧ t.evrec.spillQueue = rest) ∧
    (q.spilling = false → s.test.shutdown = none → exec .spillDone s = .next s)

/-- The host's accesses and function resets (R503, R506, R507, R509 to R511). A read of a register gives its value and
changes only the host's side; the second half of a wide register comes from the snapshot that its first half took; an
access that is not allowed is unsupported. A function-level reset ends the command of its mailbox, and for an open
pane the reset of its context begins at the next beat boundary (R408). -/
def Obligations.HostAccesses : Prop :=
  ∀ s : State,
    let after (i : Instr) (f : State → Prop) : Prop := ∃ t, exec i s = .next t ∧ f t
    (∀ a fn ofs n, accessFn a = some fn → hubAnswers s = true → accessOk s fn ofs.toNat n = true →
      (after (.wideRegisterRead a ofs n) fun t => t = { s with host := t.host } ∧
        (∀ b v, seenReg s fn ofs.toNat = some (b, 1, v) → t.host.last = .data (BitVec.ofNat 64 v)) ∧
        (∀ b v, seenReg s fn ofs.toNat = some (b, 2, v) → ofs.toNat = b → t.host.last = .data (BitVec.ofNat 64 v) ∧
          tblFind t.host.snaps fn = some (b, [BitVec.ofNat 64 v, BitVec.ofNat 64 (v / 2 ^ 64)])) ∧
        ∀ b v w0 w1, seenReg s fn ofs.toNat = some (b, 2, v) → ofs.toNat = b + 8 →
          tblFind s.host.snaps fn = some (b, [w0, w1]) → t.host.last = .data w1) ∧
      ∀ v, (after (.registerWrite a ofs n v) fun t => t.host.last = .written) ∧
        (∀ m o, placeOf fn ofs.toNat = .paneBlock m o → fn ≠ 0 →
          exec (.registerWrite a ofs n v) s = .next (complete s .written)) ∧
        (fn = 0 → ofs.toNat = 0x20058 → 1 ≤ fld v.toNat 8 0 → fld v.toNat 8 0 ≤ 256 →
          after (.registerWrite a ofs n v) fun t => t.evrec = { s.evrec with limit := fld v.toNat 8 0 }) ∧
        (fn = 0 → ofs.toNat = 0x20008 → after (.registerWrite a ofs n v) fun t =>
          t.time = { s.time with trim := v.setWidth 12 }) ∧
        ∀ m, placeOf fn ofs.toNat = .mailbox m 0x020 → after (.registerWrite a ofs n v) fun t =>
          mbx t m = { mbx s m with escIe := bitAt v.toNat 1 && m == 0, doneIe := bitAt v.toNat 0 }) ∧
    (∀ a fn ofs n, accessFn a = some fn → hubAnswers s = true → accessOk s fn ofs.toNat n = false →
      exec (.wideRegisterRead a ofs n) s = .next (complete s .unsupported) ∧
      ∀ v, exec (.registerWrite a ofs n v) s = .next (complete s .unsupported)) ∧
    (s.power.hubUp = false → ∀ n, exec (.vfFlr n) s = .next s ∧ exec .pfFlr s = .next s ∧
      ∀ m, exec (.vfEnableChange m) s = .next s) ∧
    (∀ n : Pane16, s.power.hubUp = true → vfExists s (n.val + 1) = true → after (.vfFlr n) fun t =>
      (mbx t (n.val + 1)).mstate = .idle ∧ (mbx t (n.val + 1)).job = none ∧ (mbx t (n.val + 1)).hello = false ∧
      (mbx t (n.val + 1)).doneIe = false ∧
      (pane t n.val).epoch = (pane s n.val).epoch ∧
      ((pane s n.val).state = .opened → (pane t n.val).resetFrom = some (s.time.beat + 1))) ∧
    (s.power.hubUp = true → after .pfFlr fun t => t.host.vfEnable = false ∧ (mbx t 0).mstate = .idle ∧
      (mbx t 0).job = none ∧ t.dk.esc.job = none ∧ t.dk.esc.estate = .idle ∧
      ∀ p, (pane t p).state = (pane s p).state ∧ (pane t p).jobTag = (pane s p).jobTag ∧
        (pane t p).epoch = (pane s p).epoch) ∧
    (s.power.hubUp = true → exec (.vfEnableChange 0) s = .next { s with host := { s.host with vfEnable := false } }) ∧
    (∀ n, s.power.hubUp = true → 0 < n → s.host.vfEnable = false → after (.vfEnableChange n) fun t =>
      t.host.vfEnable = true ∧ t.host.numVfs = min 16 n ∧ ∀ r, 1 ≤ r → r ≤ 16 → (mbx t r).mstate = .idle) ∧
    (∀ (a : BitVec 64) (fn : Fin 17),
      (usesPage s fn.val (a.toNat / 4096) = true → exec (.atsInvalidation a fn) s = .next s) ∧
      (usesPage s fn.val (a.toNat / 4096) = false → after (.atsInvalidation a fn) fun t =>
        t = { s with host := { s.host with ats := t.host.ats } } ∧
        ∀ e, e ∈ t.host.ats ↔ e ∈ s.host.ats ∧ e ≠ (fn.val, a.toNat / 4096)))

/-- The sideband and the fabric-manager channel (R41, R459, R512 to R514). A register read answers the register, a
refusal or that there is none; `BEAT_TRIM` alone can be written; a request fragment for this module is put together
and, when it is whole, runs or finds the mailbox busy; one for another module is relayed, and one that nobody answers
is told after 1,024 beats; a fragment for another module goes on. -/
def Obligations.SidebandAndFabricManager : Prop :=
  ∀ s : State,
    let after (i : Instr) (f : State → Prop) : Prop := ∃ t, exec i s = .next t ∧ f t
    let told (t : State) (kind st : BitVec 8) (dev : BitVec 16) (xid : BitVec 32) : Prop :=
      ∃ x, t.fm.replies.head? = some x ∧ x.kind = kind ∧ x.sstatus = st ∧ x.device = dev ∧ x.xid = xid
    let up := hubAnswers s = true
    (up → ∀ xid ofs n,
      (sbRange ofs n = false → after (.sbRegisterRead xid ofs n) fun t => told t 1 2 0 xid ∧ t.time = s.time) ∧
      (sbRange ofs n = true → ofs.toNat + n.toNat ≤ 0x1000 →
        after (.sbRegisterRead xid ofs n) fun t => told t 1 1 0 xid ∧ t.dk = s.dk) ∧
      (after (.sbRegisterRead xid 0x20000 8) fun t => told t 1 0 0 xid ∧ t = { s with fm := t.fm } ∧
        t.fm.replies.head?.map (·.data) = some (natLe 8 (beatStatus s)))) ∧
    (up → ∀ xid ofs n v,
      (after (.sbRegisterWrite xid 0x20008 8 v) fun t => told t 2 0 0 xid ∧
        t.time = { s.time with trim := v.setWidth 12 }) ∧
      (sbRange ofs n = false → after (.sbRegisterWrite xid ofs n v) fun t => told t 2 2 0 xid ∧ t = { s with fm := t.fm }) ∧
      (sbRange ofs n = true → sbWord s ofs.toNat ≠ none → ofs ≠ 0x20008 ∨ n ≠ 8 →
        after (.sbRegisterWrite xid ofs n v) fun t => told t 2 1 0 xid ∧ t = { s with fm := t.fm })) ∧
    (up → ∀ xid, after (.sbMeterIdent xid) fun t => told t 5 0 0 xid ∧ t = { s with fm := t.fm } ∧
      t.fm.replies.head?.map (·.data) = some (meterIdent s)) ∧
    (∀ f, hubAnswers s = false → exec (.fmRequestFragment f) s = .next s) ∧
    (hubAnswers s = true → ∀ f : FmFragment,
      let long : Prop := 4096 < f.bytes.length ∨ f.total.toNat < f.ofs.toNat + f.bytes.length
      let fresh : Prop := s.fm.partials.find? (fun x => x.entry == moduleId s && x.xid == f.xid) = none
      (long → after (.fmRequestFragment f) fun t => told t 4 2 f.device f.xid ∧ t = { s with fm := t.fm }) ∧
      (¬long → ownDevice s f.device = true → fresh → f.bytes.length < f.total.toNat →
        after (.fmRequestFragment f) fun t => t = { s with fm := t.fm } ∧ ∃ x ∈ t.fm.partials,
          x.entry = moduleId s ∧ x.xid = f.xid ∧ x.got = f.bytes.length ∧ x.total = f.total.toNat) ∧
      (¬long → ownDevice s f.device = true → fresh → f.total.toNat = f.bytes.length →
        (∀ j, (mbx s 17).job = some j → after (.fmRequestFragment f) fun t => (mbx t 17).job = some j ∧
          (mbx t 17).refusals.toNat = satAdd 16 (mbx s 17).refusals.toNat 1) ∧
        ((mbx s 17).job = none → dkReady s = false → after (.fmRequestFragment f) fun t =>
          (mbx t 17).job = none ∧ ∃ a, (mbx t 17).reply = some a ∧ a.status = 0x0102)) ∧
      (¬long → ownDevice s f.device = false → coordOf s f.device = none →
        after (.fmRequestFragment f) fun t => told t 4 3 f.device f.xid ∧ t = { s with fm := t.fm }) ∧
      (¬long → ownDevice s f.device = false → coordOf s f.device ≠ none →
        after (.fmRequestFragment f) fun t => ∃ x ∈ t.fm.relays, x.xid = f.xid ∧ x.device = f.device)) ∧
    (∀ (port : PortId) (f : FmFragment), s.power.hubUp = true → portActive s port.val = true →
      (∀ o, f.device ≠ moduleId s → routePort s f.device = some o → after (.fmFragmentReceived port f) fun t =>
        (trafOf t o).out.map (fun x => (x.klass, x.device, x.bytes)) =
          (trafOf s o).out.map (fun x => (x.klass, x.device, x.bytes)) ++ [(2, f.device, fragBytes f)]) ∧
      (∀ x, f.device = moduleId s → f.mtype = 0x03 → s.fm.relays.find? (fun x => x.xid == f.xid) = some x →
        after (.fmFragmentReceived port f) fun t => told t 4 0 x.device f.xid ∧
          t.fm.replies.head?.map (·.data) = some f.bytes) ∧
      (f.device = moduleId s → f.mtype = 0x04 → after (.fmFragmentReceived port f) fun t =>
        t.fm.relays.map (·.xid) = s.fm.relays.map (·.xid) ∧
        ∀ x ∈ t.fm.relays, x.xid = f.xid → x.since = none ∨ x.since = some s.time.beat)) ∧
    (∀ (port : PortId) (f : FmFragment), s.power.hubUp = false ∨ portActive s port.val = false →
      exec (.fmFragmentReceived port f) s = .next s) ∧
    (∀ e xid b, s.fm.current = some (some e, xid, b) →
      (b + 512 ≤ s.time.beat → after .fmReceiptRepeat fun t => t.fm.current = some (some e, xid, s.time.beat)) ∧
      (s.time.beat < b + 512 → exec .fmReceiptRepeat s = .next s)) ∧
    (∀ x b, s.fm.relays.find? (fun x => x.since.elim false fun b => decide (b + 1024 ≤ s.time.beat)) = some x →
      x.since = some b → after .fmUnreachableTimeout fun t => told t 4 3 x.device x.xid ∧
        ∀ y ∈ t.fm.relays, y.xid ≠ x.xid) ∧
    ((∀ x ∈ s.fm.relays, ∀ b, x.since = some b → s.time.beat < b + 1024) → exec .fmUnreachableTimeout s = .next s)

/-- What each event, and each step of the block's own engines, does when it finds the module as its rule wants it: the
next state it gives, for every state and operands that meet the conditions named. The other statements say what these
states hold; this one says, command by command, that the command completes. Ports and slots (R224 to R231, R242 to
R245), collectives, holds and aborts (R258 to R282), the near tier (R68, R141 to R147), the far tier (R156 to R184),
the pins, start-up and caps (R485 to R500, R526), contexts (R341 to R347, R408), storm copies and the store (R387 to
R397, R518 to R520), faults and tests (R401 to R434), the Metrology Island (R449 to R467), the event recorder (R473 to
R479), the host, the sideband and the fabric manager (R503 to R514), and the Doorkeeper's commands (R358 to R379). -/
def Obligations.EveryEventCompletes : Prop :=
  ∀ s : State,
    let goes (i : Instr) (t : State) : Prop := exec i s = .next t
    (∀ q : PortId,
      let p := q.val
      let x := portOf s p
      let live : Prop := s.power.hubUp = true ∧ portActive s p = true
      let enters (i : Instr) (st : BitVec 4) : Prop := ∃ t, exec i s = .next t ∧ portOf t p =
        { x with state := st, since := s.time.beat }
      (∀ n : BitVec 8, live → (trafOf s p).txNext = n.toNat + 1 →
        goes (.slotTransmit q n) (sendSlot (modTraf s p fun t => { t with txNext := n.toNat + 2 }) p n.toNat)) ∧
      (s.power.hubUp = true → sillState x.state = true → (trafOf s p).txNext = 0 →
        ∃ t, exec (.sillTransmit q) s = .next t ∧ (trafOf t p).lastSill = some (mkSill s p)) ∧
      (∀ rx, live → rx.uncorrectable = false → checkHolds (countFec s p rx) p rx.img = true →
        goes (.slotReceived q rx) (takeSlot (countFec s p rx) p rx.img rx.dest)) ∧
      (∀ m crc, portActive s p = true → BitVec.toNat crc = sillCrc m → -128 ≤ (sillResidual s p).1 →
        (sillResidual s p).1 ≤ 128 → m.beat.toNat = (sillResidual s p).2 →
        goes (.sillReceived q m crc) (readSill s p m)) ∧
      (∀ w, (trafOf s p).switches = [w] → w.1 ≤ s.time.beat → goes (.laneSwitch q) (switchLane p s w)) ∧
      (∀ w ∈ (trafOf s p).wanted, portActive s p = true → w.since + 8 < s.time.beat →
        goes (.replayTimeout q) (failPort s p pcReplay)) ∧
      (x.state = lsDetect → enters (.presenceDetected q) lsEqualize) ∧
      (x.state = lsEqualize → enters (.equalizeDone q) lsAlign) ∧
      (∀ n, x.state = lsAlign → n ≤ 4095 → ∃ t, exec (.alignDone q n) s = .next t ∧
        portOf t p = { x with state := lsNegotiate, since := s.time.beat, linkDelay := BitVec.ofNat 12 n }) ∧
      (∀ m, x.state = lsNegotiate → tablesLoaded s = true → m.llMajor = 1 → cablingOk s p m = true →
        lanesEnough (trafOf s p).lanesRx = true → lanesEnough (trafOf s p).lanesTx = true →
        ∃ t, exec (.negotiateDone q m) s = .next t ∧ (portOf t p).state = lsActive ∧
          (portOf t p).peerDevice = m.srcDevice) ∧
      (x.state = lsEqualize ∨ x.state = lsAlign → (∀ b, linkBound x.state = some b → x.since + b ≤ s.time.beat) →
        ∃ t, exec (.trainingTimeout q) s = .next t ∧ (portOf t p).state = lsDown ∧
          (portOf t p).attempts = x.attempts + 1) ∧
      (s.power.hubUp = true → s.test.parked = false → s.test.hub ≠ tsActive → x.state = lsDown →
        portUnused s p = false → retrainBeat s x ≤ s.time.beat → enters (.trainingBackoffExpired q) lsDetect) ∧
      (x.state = lsCableFault ∨ x.state = lsFailed → ∃ t, exec (.portRetrainingOrder q) s = .next t ∧
        (portOf t p).state = lsDetect ∧ (portOf t p).attempts = 0) ∧
      (∀ f : FmFragment, live → f.device ≠ moduleId s →
        goes (.fmFragmentReceived q f) (fmForward s p none f)) ∧
      (∀ f : FmFragment, live → f.device = moduleId s → goes (.fmFragmentReceived q f) (fmArrive s f))) ∧
    (∀ (lead : Pane16) (g : Group) (d : List Byte) (r : Run), groupLed s lead.val = some g → g.plan = some d →
      g.run = some r →
      let env (step : Nat) : CollEnv := { g := g, d := d, c := planColl d step, k0 := r.k0, k1 := r.k1, step := r.firstStep + r.planStep }
      (∀ coll c id inp out, r.started = true → r.held = none → g.ended = none → plansRun s = true → coll < collCount d →
        (joinAlone s (env coll) r coll).colls.find? (fun y => y.index == coll) = some c →
        goes (.chunkAdvance lead coll id inp out)
          ({ env coll with step := (joinAlone s (env coll) r coll).firstStep + c.step }.advance
            (modRun s lead.val fun _ => joinAlone s (env coll) r coll) lead.val (joinAlone s (env coll) r coll) coll c id inp out)) ∧
      (∀ coll c a b n nan, r.colls.find? (fun y => y.index == coll && outElems (env coll) ≤ collFinals y) = some c →
        r.held = none → g.ended = none → (env coll).c.cflags = 0 →
        goes (.collectiveDone lead coll a b n nan) (arriveRef (modRun s lead.val fun r => { r with
          colls := r.colls.filter (·.index != coll), collsDone := r.collsDone ++ [coll]
          normSum := r.normSum + 0, normNan := r.normNan || false }) g (env coll).c.doneLatch)) ∧
      (∀ n e, (planExtents d)[n]? = some e → r.started = true → r.held = none → e.start ≤ runBeat r - r.planStep * planStepBeats d →
        runBeat r - r.planStep * planStepBeats d < planStepBeats d → n ∉ r.extentsDone → (∀ y ∈ r.extents, y.1 ≠ n) →
        goes (.extentStart lead n) (modRun s lead.val fun r =>
          { r with extents := r.extents ++ [(n, r.planStep)], extentsDone := r.extentsDone ++ [n] })) ∧
      (∀ n e, (planExtents d)[n]? = some e → (∃ y ∈ r.extents, y.1 = n) →
        goes (.extentDone lead n) (arriveRef (farToNear
          (modRun s lead.val fun r => { r with extents := r.extents.filter fun x => x.1 != n })
          (planPane g (gaPane e.far)) (gaOfs e.far) e.length ((planMaskPanes g e.paneMask).map fun p => (p, gaOfs e.near)))
          g e.doneLatch)) ∧
      (∀ c, g.copies.find? (fun c => !c.taken) = some c → goes (.snapshotDone lead) (takeSnapshot s g d c))) ∧
    (∀ (lead : Pane16) (g : Group), groupLed s lead.val = some g →
      (∀ e, g.abortDue = some e → g.ended = none → e.beat < s.time.beat → goes (.abortStop lead) (stopForAbort s g e)) ∧
      (∀ c, g.copies.find? (fun c => c.commitBeat.isSome) = some c → goes (.stormAckReceived lead)
        (modGroup s lead.val fun g => { g with
          copies := g.copies.erase c
          status := { g.status with commitStep := BitVec.ofNat 48 c.step, lastBuf := BitVec.ofNat 2 c.buf } })) ∧
      (∀ c, g.copies.find? (copyOverdue s) = some c → goes (.copyAbandonTimeout lead) (abandonCopy s lead.val c))) ∧
    (∀ (lead : Pane16) (z : DrainRun), tblFind s.store.drains lead.val = some z → z.staged = false → z.image ≠ [] →
      z.wrote = false → goes (.drainStaged lead) (stageDrain s lead.val z)) ∧
    (goes .abortEntryExpiry { s with collU := { s.collU with aborts := s.collU.aborts.filter (abortHeld s) } }) ∧
    (∀ (p : Pane16) (g : Group) (d : List Byte) (r : Run), groupOf s p.val = some g → g.plan = some d → g.run = some r →
      r.started = true → g.ended = none → plansRun s = true → planModules d ≠ 1 → s.time.beat % holdGrid d = 0 →
      soonUnready s g d r (2 * holdGrid d) = true → goes (.gridBeat p) (raiseHold s g d .notReady)) ∧
    (∀ p : Pane16,
      let m := nearOf s p.val
      (∀ line : BitVec 30, line.toNat < nearBytes / 64 → isPoison m line.toNat = false →
        let s1 := modNear s p.val fun m => { m with retries := m.retries.filter (·.1 != line.toNat) }
        goes (.nearReadRetry p line .uncorrectable) (nearUncorrectable s1 p.val line.toNat) ∧
        goes (.nearReadRetry p line .clean) (nearCorrected s1 p.val (64 * line.toNat))) ∧
      (∀ l sp r, (pane s p.val).takeovers = (l, sp) :: r → goes (.spareTakeoverDone p)
        (modPane s p.val fun x => { x with takeovers := r, cellSub := tblSet x.cellSub l sp })) ∧
      (∀ n, goes (.refreshShadow p n) s) ∧
      (∀ (line : BitVec 30) e, line.toNat < nearBytes / 64 →
        goes (.scrubBurst p line e) (nearFirst s p.val line.toNat true e).1) ∧
      (∀ l sp drop r, m.copying = (l, sp, drop) :: r → ∃ t, exec (.pcCopyDone p) s = .next t ∧
        (nearOf t p.val).copying = r ∧ (nearOf t p.val).pcSub = tblSet m.pcSub l sp)) ∧
    (∀ ch : Fin 64,
      (∀ b, mediaIdle s = false → s.far.gcs.any (·.channel == ch.val) = false → victimOf s ch.val = some b →
        goes (.gcVictim ch) (collect s ch.val b)) ∧
      (∀ j, s.far.gcs.find? (·.channel == ch.val) = some j → mediaIdle s = false →
        s.far.progs.any (fun g => g.channel == ch.val && g.moved.isSome) = false → j.lastSeq < s.far.durSeq →
        validUnits s j.channel j.block = [] → (blkOf s (blkKey j.channel j.block)).dueRetire = false →
        goes (.gcErase ch) (modBlk (modFar s fun t => { t with gcs := t.gcs.filter (·.channel != ch.val) })
          (blkKey j.channel j.block) fun b => { b with state := .erasing })) ∧
      (∀ v d, bestOf (fun a b : Nat × Nat => a.1 < b.1)
          (((listedBlks s ch.val).filter fun e => inUse e.2).map fun e => (e.2.erases, e.1)) = some v →
        bestOf (fun a b : Nat × Nat => b.1 < a.1) (freeCands s ch.val) = some d → mediaIdle s = false →
        256 < eraseSpread s ch.val → poolState (freeBlks s ch.val) < 2 → s.far.progs.any (·.channel == ch.val) = false →
        s.far.gcs.any (·.channel == ch.val) = false → openOf s ch.val .openG = none →
        goes (.wearLevel ch) (collect (openBlk s ch.val d.2 .openG) ch.val v.2)) ∧
      (s.time.beat % 4096 = 64 * ch.val → goes (.readRecalibration ch)
        (modFar s fun t => { t with recalibrated := t.recalibrated ||| (1#64 <<< ch.val) })) ∧
      (∀ g, oldestProg s ch.val = some g →
        goes (.pageProgramComplete ch) (landProg (modFar s fun t => { t with progs := t.progs.erase g }) g) ∧
        goes (.programFailed ch) (g.units.zipIdx.foldl (fun s e => addProg s { g with
            lun := g.lun + e.2, data := e.1.1, bad := e.1.2, more := [], moved := g.moved.map (· + BitVec.ofNat 32 e.2) })
          (blockError (countWritten (modFar s fun t => { t with progs := t.progs.erase g })
            (g.units.length * unitBytes) g.weight) (physBlk g.phys)))) ∧
      (∀ n : BitVec 15, (blkOf s (blkKey ch.val n.toNat)).state = .erasing →
        goes (.blockEraseComplete ch n true)
          (retireBlk (countError s rowH (blkKey ch.val n.toNat) 1).1 ch.val n.toNat) ∧
        ∃ z, exec (.blockEraseComplete ch n false) s = .next (placeWaiting z ch.val) ∧
          blkOf z (blkKey ch.val n.toNat) =
            { blockZero with erases := (blkOf s (blkKey ch.val n.toNat)).erases + 1 })) ∧
    (∀ (o : Fin 17) (n u : BitVec 32), mappedAt s o.val n.toNat = some u → goes (.farReadRetry o n true) s ∧
      ∃ t, exec (.farReadRetry o n false) s = .next t ∧
        t.far.uncorr = BitVec.ofNat 16 (satAdd 16 s.far.uncorr.toNat 1)) ∧
    (∀ n, goes (.journalDurable n) (zeroingDone (ackWrites (makeDurable s n)))) ∧
    (s.far.recovering = false → s.far.powerLost = false → goes .mapCheckpoint (checkpoint s)) ∧
    (∀ us : BitVec 32, ∃ t, exec (.holdupMeasure us) s = .next t ∧ t.far.holdupLow = decide (us.toNat < 10000) ∧
      t.far.holdupBeat = s.time.beat) ∧
    (s.dk.ready = true → s.far.recovering = true → s.far.powerLost = false → goes .recover (recoverFar s)) ∧
    (s.power.input = true → goes .inputPowerLoss
      (modPower (hubOff (holdupActions s) 0) fun p => { p with input := false, holdupOk := false })) ∧
    (s.power.pwrGood = true → goes .bankCharged (modPower s fun p => { p with holdupOk := true })) ∧
    (s.power.pwrEn = false → goes .pwrEnAssert
      (modPower s fun p => { p with pwrEn := true, pwrGood := p.input, resetN := false })) ∧
    (s.power.pwrEn = true → s.test.parked = false → goes .pwrEnDeassert
      (modPower (hubOff (holdupActions s) 4) fun p => { p with pwrEn := false })) ∧
    (∀ x : BitVec 4, s.power.hubUp = false → mayStart s = true → goes (.resetNRise x) (hubStart (modFar
      (modPower s fun p => { p with resetN := true, straps := x, sbAddr := 0x30 + x.setWidth 8 })
      fun t => { t with powerLost := false }) false true)) ∧
    (s.power.hubUp = true → mayStart s = true → goes .resetNPulse (moduleReset s 0)) ∧
    (s.power.hubUp = true → s.dk.ready = false → s.test.hub ≠ tsActive → s.faults.hubDead = false →
      s.store.drains = [] → ∃ t, exec .doorkeeperReady s = .next t ∧ t.dk.ready = true ∧
        t.power.fwRunning = s.power.firmware) ∧
    (s.power.hubUp = true → s.dk.ready = true → s.far.recovering = false → s.power.broughtUp = false →
      goes .paneBringupDone ((List.range 16).foldl startupShutter (modPower s fun p => { p with broughtUp := true }))) ∧
    (∀ (n : Fin 33) c, s.power.hubUp = true → sensorWf n.val = true → reaches s n.val c (thresholds n.val).1 = false →
      reaches s n.val c (thresholds n.val).2.1 = false → reaches s n.val c (thresholds n.val).2.2 = false →
      goes (.thermalThreshold n c) (readSensor s n.val c)) ∧
    (∀ b, s.power.trip = true → s.power.coolSince = some b → b + 4096 ≤ s.time.beat →
      ∃ t, exec .thermalClear s = .next t ∧ t.power.trip = false) ∧
    (∀ m : BitVec 2, s.power.hubUp = true → m ≠ 3 → goes (.capEffecterSet m) (setCap s m)) ∧
    (∀ n : Fin 3, s.power.hubUp = true → s.dk.ready = true → goes (.pldmFirmwareUpdate n true) (modPower s fun p =>
      { p with firmware := tblPut 0 p.firmware n.val (tblGet 0 p.firmware n.val + 1) })) ∧
    (∀ p : Pane16,
      let x := pane s p.val
      (∀ h, x.shutter = some h → x.state = .opened → h.d ≤ s.time.beat →
        goes (.teardownBegin p) (beginTeardown s p.val h)) ∧
      (∀ h, x.shutter = some h → x.state = .teardown → goes (.writersStopped p) (beginShutter s p.val h)) ∧
      (∀ h, x.shutter = some h → x.state = .shuttering → h.keepFar = true ∨ h.farZeroed = true →
        goes (.shutterComplete p) (endShutter s p.val h)) ∧
      (∀ b, x.resetUntil = some b → b ≤ s.time.beat → ∃ t, exec (.ctxResetEnd p) s = .next t ∧
        pane t p.val = { x with resetUntil := none }) ∧
      (s.power.hubUp = true → x.state ≠ .outOfService → ∃ t, exec (.paneHardwareFault p) s = .next t ∧
        tblFind t.faults.paneFaults p.val = some s.time.beat) ∧
      (∀ y, (testOf s p.val).tstate = tsActive → (testOf s p.val).phase < 6 → goes (.testPhaseDone p y)
        (modTest (takeReport s p.val (testOf s p.val).phase y) p.val fun t =>
          { t with phase := t.phase + 1, since := s.time.beat })) ∧
      (∀ y, (testOf s p.val).tstate = tsActive → 6 ≤ (testOf s p.val).phase → goes (.testPhaseDone p y)
        (endPaneTest (takeReport s p.val (testOf s p.val).phase y) p.val y.signature)) ∧
      (s.power.hubUp = true → vfExists s (p.val + 1) = true → ∃ t, exec (.vfFlr p) s = .next t ∧
        (mbx t (p.val + 1)).mstate = .idle ∧ (mbx t (p.val + 1)).hello = false)) ∧
    (∀ f, goes (.stormFrameReceived f) (receiveFrame s f)) ∧
    (∀ (xid : BitVec 32) (x : StoreTxn), txnOf s xid = some x →
      (∀ k a, x.phase = .opening →
        goes (.storeGrantReceived xid k a) (setTxn s { x with phase := .moving, rkey := k, addr := a })) ∧
      (∀ lead d, x.owner = .drain lead → tblFind s.store.drains lead = some d → x.phase = .moving →
        let y : StoreTxn := { x with phase := .closed, objCrc := BitVec.ofNat 64 (crc64 (drainObject d)) }
        goes (.rdmaWritesComplete xid) (sendStore (meterEth (setTxn s y) lead (drainObject d).length) y skClose)) ∧
      (∀ d r r' j, x.owner = .fetch r' → storeJob s x.owner = some (r, j) → x.phase = .moving →
        goes (.rdmaReadsComplete xid d) (landFetch (sendStore (meterEth (noteBytes (dropTxns s x.owner) r
          (bytesAt d 0 x.length).length) (prm j.packet 0 1) (bytesAt d 0 x.length).length) x skClose) r j
          (bytesAt d 0 x.length))) ∧
      (∀ lead, x.owner = .drain lead → x.phase = .closed →
        goes (.storeDoneReceived xid 0 x.objCrc) (endDrain s lead x.step)) ∧
      (∀ ms : BitVec 32, x.phase = .opening → goes (.storeRefuseReceived xid 3 ms)
        (setTxn s { x with phase := .waiting (s.time.beat + msBeats ms.toNat) })) ∧
      (∀ lead v ms, x.owner = .drain lead → x.phase = .opening → v ≠ 3 →
        goes (.storeRefuseReceived xid v ms) (startDrain s lead)) ∧
      (∀ b, x.phase = .waiting b → b ≤ s.time.beat → goes (.storeRetryExpiry xid)
        (sendStore (setTxn s { x with phase := .opening }) { x with phase := .opening } (openKind x.owner))) ∧
      (∀ lead, x.owner = .drain lead → goes (.storeConnectionLost xid) (startDrain s lead)) ∧
      (∀ r, x.owner = .fetch r ∨ x.owner = .restore r → goes (.storeConnectionLost xid) (dropTxns s x.owner))) ∧
    (∀ r : Req,
      (starved s r.val opShardFetch = true → goes (.shardFetchTimeout r) (endStoreJob s (.fetch r.val) storeFailure)) ∧
      (starved s r.val opRestore = true → goes (.restoreTimeout r) (endStoreJob s (.restore r.val) storeFailure)) ∧
      (∀ j, (mbx s r.val).job = some j → j.start = none → canStart s r.val (withLocks s r.val j) = true →
        goes (.commandStart r) (startJob s r.val)) ∧
      (∀ j a, (mbx s r.val).job = some j → j.outcome = some a →
        goes (.commandReply r) (finish s r.val (stampReply s a))) ∧
      (∀ j, (mbx s r.val).job = some j → outlived s j = true →
        goes (.commandOverrun r) (endNow (tellOverrun s r.val j) r.val { status := stInternal }))) ∧
    (∀ (op : BitVec 16) (k : Packet), hubAnswers s = true → s.dk.esc.job = none → earlyRefusal s 0 false op.toNat k = none →
      escapeOp op.toNat = true → goes (.escape op k) (runEscape s op.toNat k)) ∧
    (goes .subwindowRollover { s with faults := { s.faults with
      windows := s.faults.windows.map fun e => (e.1, winRoll (e.1 / 2 ^ 24) s.time.beat e.2) } }) ∧
    (s.power.hubUp = true → goes .hubWatchdogExpiry (hubFault s 3) ∧ goes .hubFault (hubFault s 2)) ∧
    (∀ e : Fin 28, s.power.hubUp = true → engineOk e.val = true → goes (.engineFault e) (resetEngine s e.val)) ∧
    (∀ r, s.faults.selfResets.find? (fun r => r.deadline ≤ s.time.beat) = some r → r.rung ≠ 4 →
      goes .resetEscalation (watchReset (moduleReset (tookFree s) (openCause s)))) ∧
    (∀ e : Fin 2, s.power.hubUp = true → (countError s rowL e.val 1).2 = false →
      goes (.ethernetUncorrectableCodeword e) (countError s rowL e.val 1).1) ∧
    (∀ p l, waitingTests s = p :: l → s.power.hubUp = true → s.power.trip = false →
      mayTest s (testsIn s tsActive).length = true → ∃ t, exec .testStart s = .next t ∧ (testOf t p).tstate = tsActive) ∧
    (∀ g : BitVec 64, s.test.hub = tsActive →
      (∃ t, exec (.hubTestDone true g) s = .next t ∧ t.test.hub = tsPassed) ∧
      ∃ t, exec (.hubTestDone false g) s = .next t ∧ t.power.hubUp = false ∧ t.faults.hubDead = true) ∧
    (let i := s.island
     (i.running = true → i.stopped = false → i.lastBoundary + i.intervalMs ≤ islandMs s →
        ∃ t, exec .meterIntervalBoundary s = .next t ∧ t.island.lastBoundary = islandMs s - islandMs s % i.intervalMs) ∧
      (i.running = true → i.stopped = false → goes (.meterRecordRetry true)
        (i.held.foldl storeRec (modIsland s fun i => { i with held := [], fault := false }))) ∧
      goes .debugPadsEnabled (sealEvent (modIsland s fun i => { i with debugOpen := true }) 3) ∧
      (∀ u, updateOk s u = true → goes (.meterUpdatePackage u) (sealEvent (modIsland (operRec (endKept s 0 true)) fun i =>
        { i with legalVersion := u.legalVersion, legalSha := bytesAt u.legalSha 0 32, intervalMs := u.intervalMs })
        (if u.firmware then 1 else 2))) ∧
      (i.running = false → ∃ t, exec .islandStart s = .next t ∧ t.island.running = true ∧ t.power.input = true)) ∧
    (∀ (r : Fin 21) (n : BitVec 20) (x : CcrTxn), (ccrLine s n.toNat).txn = some x → r.val ∈ x.acks → x.snoops ≠ [] →
      goes (.ccrSnoopAck r n) (setLine s n.toNat
        { ccrLine s n.toNat with txn := some { x with acks := x.acks.filter (· != r.val) } })) ∧
    (∀ e, srcListed e.source.toNat = true → declaresBank e = false → goes (.eventDelivery e) (deliver s e)) ∧
    (∀ d e l, s.evrec.queue = (d, e) :: l → mayAccept s = true → goes .eventAccept (freezeDone (startSpill (tellLost
      (writeEvent (modRec s fun q => { q with queue := l, lastAccept := some (s.time.beat, s.time.tick) }) e))))) ∧
    (s.evrec.suppressed = [] → ∃ t, exec .suppressedSummary s = .next t ∧ t.evrec.nextRseq = s.evrec.nextRseq ∧
      t.evrec.suppressed = []) ∧
    (goes .spillDone (parkNext (spillOver s))) ∧
    (s.power.hubUp = true →
      (∃ t, exec .pfFlr s = .next t ∧ t.host.vfEnable = false ∧ t.dk.esc.estate = .idle) ∧
      goes (.vfEnableChange 0) { s with host := { s.host with vfEnable := false } } ∧
      (∀ n, n ≠ 0 → s.host.vfEnable = false → ∃ t, exec (.vfEnableChange n) s = .next t ∧
        t.host.vfEnable = true ∧ t.host.numVfs = min 16 n) ∧
      (∀ a fn ofs n, accessFn a = some fn → accessOk s fn ofs.toNat n = true →
        goes (.wideRegisterRead a ofs n) (complete (setSnap s fn (readWord s fn ofs.toNat).2)
          (.data (BitVec.ofNat 64 (readWord s fn ofs.toNat).1))) ∧
        ∀ v, goes (.registerWrite a ofs n v) (complete (writeWord s fn ofs.toNat v.toNat) .written)) ∧
      (∀ xid ofs n, goes (.sbRegisterRead xid ofs n) (sbAnswer s 1 (sbRead s ofs n).1 xid ofs (sbRead s ofs n).2)) ∧
      (∀ xid v, goes (.sbRegisterWrite xid 0x20008 8 v)
        (sbAnswer (writeTrim s .fm (v.setWidth 32)) 2 0 xid 0x20008 [])) ∧
      (∀ xid, goes (.sbMeterIdent xid) (sbAnswer s 5 0 xid 0 (meterIdent s)))) ∧
    (∀ (a : BitVec 64) (fn : Fin 17), usesPage s fn.val (a.toNat / 4096) = false → goes (.atsInvalidation a fn)
      { s with host := { s.host with ats := s.host.ats.filter fun e => e != (fn.val, a.toNat / 4096) } }) ∧
    (∀ f : FmFragment, hubAnswers s = true → f.bytes.length ≤ 4096 → f.ofs.toNat + f.bytes.length ≤ f.total.toNat →
      ownDevice s f.device = true → goes (.fmRequestFragment f) (fmAssemble s (moduleId s) f)) ∧
    (∀ e xid b, s.fm.current = some (some e, xid, b) → b + 512 ≤ s.time.beat → goes .fmReceiptRepeat
      (sendReceipt { s with fm := { s.fm with current := some (some e, xid, s.time.beat) } } e xid)) ∧
    (∀ x, s.fm.relays.find? (fun x => x.since.elim false fun b => decide (b + 1024 ≤ s.time.beat)) = some x →
      goes .fmUnreachableTimeout (sbFragStatus { s with fm := { s.fm with
        relays := s.fm.relays.filter fun y => y.xid != x.xid } } 3 x.device x.xid)) ∧
    (∀ (r : Req) (k : Packet),
      ∀ e ∈ [(0x0001, Instr.hello r k), (0x0010, .ctxCreate r k), (0x0011, .ctxTeardown r k), (0x0012, .groupBind r k),
          (0x0013, .ctxReset r k), (0x0014, .engineReset r k), (0x0015, .paneReset r k), (0x0016, .moduleReset r k),
          (0x0020, .slotAlloc r k), (0x0021, .streamShare r k), (0x0022, .farQuota r k), (0x0023, .latchAlloc r k),
          (0x0024, .jobMapLoad r k), (0x0025, .coordLoad r k), (0x0026, .identitySet r k), (0x0030, .planLoad r k),
          (0x0031, .planStart r k), (0x0032, .planStop r k), (0x0040, .windowGrant r k), (0x0041, .windowRevoke r k),
          (0x0042, .sealKey r k), (0x0043, .latchOrphan r k), (0x0050, .swapIn r k), (0x0051, .swapOut r k),
          (0x0052, .shardFetch r k), (0x0060, .buddySet r k), (0x0061, .stormNow r k), (0x0062, .drainSet r k),
          (0x0063, .restore r k), (0x0071, .modeGet r k), (0x0080, .selfTest r k), (0x0081, .shutdown r k),
          (0x0090, .meterRead r k), (0x0091, .meterIdent r k), (0x00A0, .eventFreeze r k), (0x00A1, .eventRead r k),
          (0x00A2, .eventThaw r k)],
        StartsAtOnce s r.val e.1 k →
          (∀ a, (startEffect e.1 (begun s r.val e.1 k) r.val k).2 = some a →
            goes e.2 (decideJob (startEffect e.1 (begun s r.val e.1 k) r.val k).1 r.val a)) ∧
          ((startEffect e.1 (begun s r.val e.1 k) r.val k).2 = none →
            goes e.2 (startEffect e.1 (begun s r.val e.1 k) r.val k).1)) ∧
    (∀ (r : Req) (k : Packet),
      ∀ e ∈ [(1, Instr.modeSetPowerCap r k), (2, .modeSetSlotSplit r k), (3, .modeSetHoldoverLimit r k),
          (4, .modeSetCheckValueMode r k), (5, .modeSetCheckValuePoly r k), (6, .modeSetFarTierWrites r k),
          (7, .modeSetExactBf16 r k), (8, .modeSetSealedFrames r k), (9, .modeSetStormInterval r k)],
        prm k 0 2 = e.1 → StartsAtOnce s r.val 0x0070 k →
          ∀ a, (startEffect 0x0070 (begun s r.val 0x0070 k) r.val k).2 = some a →
            goes e.2 (decideJob (startEffect 0x0070 (begun s r.val 0x0070 k) r.val k).1 r.val a)) ∧
    (∀ (r : Req) (k : Packet), prm k 0 2 = 0 ∨ 9 < prm k 0 2 → StartsAtOnce s r.val 0x0070 k →
      ∀ a, (startEffect 0x0070 (begun s r.val 0x0070 k) r.val k).2 = some a →
        goes (.modeSetDrainInterval r k) (decideJob (startEffect 0x0070 (begun s r.val 0x0070 k) r.val k).1 r.val a))
end

