-- ==== Sys2Proof/Laws/State.lean ====
section
/-! SUPPORT. Frames of the updates of one field of `State`: every other field stays. Each holds by `rfl`, so that no proof
unfolds a record update. -/

namespace Sys2Proof.Machine

/-! `setPane` -/

@[simp] theorem setPane_time (s : State) (p : Nat) (v : Pane) :
    (setPane s p v).time = s.time := by rfl
@[simp] theorem setPane_cells (s : State) (p : Nat) (v : Pane) :
    (setPane s p v).cells = s.cells := by rfl
@[simp] theorem setPane_groups (s : State) (p : Nat) (v : Pane) :
    (setPane s p v).groups = s.groups := by rfl
@[simp] theorem setPane_far (s : State) (p : Nat) (v : Pane) :
    (setPane s p v).far = s.far := by rfl
@[simp] theorem setPane_latches (s : State) (p : Nat) (v : Pane) :
    (setPane s p v).latches = s.latches := by rfl
@[simp] theorem setPane_ccr (s : State) (p : Nat) (v : Pane) :
    (setPane s p v).ccr = s.ccr := by rfl
@[simp] theorem setPane_links (s : State) (p : Nat) (v : Pane) :
    (setPane s p v).links = s.links := by rfl
@[simp] theorem setPane_collU (s : State) (p : Nat) (v : Pane) :
    (setPane s p v).collU = s.collU := by rfl
@[simp] theorem setPane_dk (s : State) (p : Nat) (v : Pane) :
    (setPane s p v).dk = s.dk := by rfl
@[simp] theorem setPane_faults (s : State) (p : Nat) (v : Pane) :
    (setPane s p v).faults = s.faults := by rfl
@[simp] theorem setPane_test (s : State) (p : Nat) (v : Pane) :
    (setPane s p v).test = s.test := by rfl
@[simp] theorem setPane_island (s : State) (p : Nat) (v : Pane) :
    (setPane s p v).island = s.island := by rfl
@[simp] theorem setPane_evrec (s : State) (p : Nat) (v : Pane) :
    (setPane s p v).evrec = s.evrec := by rfl
@[simp] theorem setPane_power (s : State) (p : Nat) (v : Pane) :
    (setPane s p v).power = s.power := by rfl
@[simp] theorem setPane_host (s : State) (p : Nat) (v : Pane) :
    (setPane s p v).host = s.host := by rfl
@[simp] theorem setPane_fm (s : State) (p : Nat) (v : Pane) :
    (setPane s p v).fm = s.fm := by rfl
@[simp] theorem setPane_store (s : State) (p : Nat) (v : Pane) :
    (setPane s p v).store = s.store := by rfl
@[simp] theorem setPane_free (s : State) (p : Nat) (v : Pane) :
    (setPane s p v).free = s.free := by rfl
@[simp] theorem setPane_pending (s : State) (p : Nat) (v : Pane) :
    (setPane s p v).pending = s.pending := by rfl

/-! `modPane` -/

@[simp] theorem modPane_time (s : State) (p : Nat) (f : Pane → Pane) :
    (modPane s p f).time = s.time := by rfl
@[simp] theorem modPane_cells (s : State) (p : Nat) (f : Pane → Pane) :
    (modPane s p f).cells = s.cells := by rfl
@[simp] theorem modPane_groups (s : State) (p : Nat) (f : Pane → Pane) :
    (modPane s p f).groups = s.groups := by rfl
@[simp] theorem modPane_far (s : State) (p : Nat) (f : Pane → Pane) :
    (modPane s p f).far = s.far := by rfl
@[simp] theorem modPane_latches (s : State) (p : Nat) (f : Pane → Pane) :
    (modPane s p f).latches = s.latches := by rfl
@[simp] theorem modPane_ccr (s : State) (p : Nat) (f : Pane → Pane) :
    (modPane s p f).ccr = s.ccr := by rfl
@[simp] theorem modPane_links (s : State) (p : Nat) (f : Pane → Pane) :
    (modPane s p f).links = s.links := by rfl
@[simp] theorem modPane_collU (s : State) (p : Nat) (f : Pane → Pane) :
    (modPane s p f).collU = s.collU := by rfl
@[simp] theorem modPane_dk (s : State) (p : Nat) (f : Pane → Pane) :
    (modPane s p f).dk = s.dk := by rfl
@[simp] theorem modPane_faults (s : State) (p : Nat) (f : Pane → Pane) :
    (modPane s p f).faults = s.faults := by rfl
@[simp] theorem modPane_test (s : State) (p : Nat) (f : Pane → Pane) :
    (modPane s p f).test = s.test := by rfl
@[simp] theorem modPane_island (s : State) (p : Nat) (f : Pane → Pane) :
    (modPane s p f).island = s.island := by rfl
@[simp] theorem modPane_evrec (s : State) (p : Nat) (f : Pane → Pane) :
    (modPane s p f).evrec = s.evrec := by rfl
@[simp] theorem modPane_power (s : State) (p : Nat) (f : Pane → Pane) :
    (modPane s p f).power = s.power := by rfl
@[simp] theorem modPane_host (s : State) (p : Nat) (f : Pane → Pane) :
    (modPane s p f).host = s.host := by rfl
@[simp] theorem modPane_fm (s : State) (p : Nat) (f : Pane → Pane) :
    (modPane s p f).fm = s.fm := by rfl
@[simp] theorem modPane_store (s : State) (p : Nat) (f : Pane → Pane) :
    (modPane s p f).store = s.store := by rfl
@[simp] theorem modPane_free (s : State) (p : Nat) (f : Pane → Pane) :
    (modPane s p f).free = s.free := by rfl
@[simp] theorem modPane_pending (s : State) (p : Nat) (f : Pane → Pane) :
    (modPane s p f).pending = s.pending := by rfl

/-! `setPhysCell` -/

@[simp] theorem setPhysCell_time (s : State) (p : Nat) (c : Nat) (v : Cell) :
    (setPhysCell s p c v).time = s.time := by rfl
@[simp] theorem setPhysCell_panes (s : State) (p : Nat) (c : Nat) (v : Cell) :
    (setPhysCell s p c v).panes = s.panes := by rfl
@[simp] theorem setPhysCell_groups (s : State) (p : Nat) (c : Nat) (v : Cell) :
    (setPhysCell s p c v).groups = s.groups := by rfl
@[simp] theorem setPhysCell_far (s : State) (p : Nat) (c : Nat) (v : Cell) :
    (setPhysCell s p c v).far = s.far := by rfl
@[simp] theorem setPhysCell_latches (s : State) (p : Nat) (c : Nat) (v : Cell) :
    (setPhysCell s p c v).latches = s.latches := by rfl
@[simp] theorem setPhysCell_ccr (s : State) (p : Nat) (c : Nat) (v : Cell) :
    (setPhysCell s p c v).ccr = s.ccr := by rfl
@[simp] theorem setPhysCell_links (s : State) (p : Nat) (c : Nat) (v : Cell) :
    (setPhysCell s p c v).links = s.links := by rfl
@[simp] theorem setPhysCell_collU (s : State) (p : Nat) (c : Nat) (v : Cell) :
    (setPhysCell s p c v).collU = s.collU := by rfl
@[simp] theorem setPhysCell_dk (s : State) (p : Nat) (c : Nat) (v : Cell) :
    (setPhysCell s p c v).dk = s.dk := by rfl
@[simp] theorem setPhysCell_faults (s : State) (p : Nat) (c : Nat) (v : Cell) :
    (setPhysCell s p c v).faults = s.faults := by rfl
@[simp] theorem setPhysCell_test (s : State) (p : Nat) (c : Nat) (v : Cell) :
    (setPhysCell s p c v).test = s.test := by rfl
@[simp] theorem setPhysCell_island (s : State) (p : Nat) (c : Nat) (v : Cell) :
    (setPhysCell s p c v).island = s.island := by rfl
@[simp] theorem setPhysCell_evrec (s : State) (p : Nat) (c : Nat) (v : Cell) :
    (setPhysCell s p c v).evrec = s.evrec := by rfl
@[simp] theorem setPhysCell_power (s : State) (p : Nat) (c : Nat) (v : Cell) :
    (setPhysCell s p c v).power = s.power := by rfl
@[simp] theorem setPhysCell_host (s : State) (p : Nat) (c : Nat) (v : Cell) :
    (setPhysCell s p c v).host = s.host := by rfl
@[simp] theorem setPhysCell_fm (s : State) (p : Nat) (c : Nat) (v : Cell) :
    (setPhysCell s p c v).fm = s.fm := by rfl
@[simp] theorem setPhysCell_store (s : State) (p : Nat) (c : Nat) (v : Cell) :
    (setPhysCell s p c v).store = s.store := by rfl
@[simp] theorem setPhysCell_free (s : State) (p : Nat) (c : Nat) (v : Cell) :
    (setPhysCell s p c v).free = s.free := by rfl
@[simp] theorem setPhysCell_pending (s : State) (p : Nat) (c : Nat) (v : Cell) :
    (setPhysCell s p c v).pending = s.pending := by rfl

/-! `setCell` -/

@[simp] theorem setCell_time (s : State) (p : Nat) (l : Nat) (v : Cell) :
    (setCell s p l v).time = s.time := by rfl
@[simp] theorem setCell_panes (s : State) (p : Nat) (l : Nat) (v : Cell) :
    (setCell s p l v).panes = s.panes := by rfl
@[simp] theorem setCell_groups (s : State) (p : Nat) (l : Nat) (v : Cell) :
    (setCell s p l v).groups = s.groups := by rfl
@[simp] theorem setCell_far (s : State) (p : Nat) (l : Nat) (v : Cell) :
    (setCell s p l v).far = s.far := by rfl
@[simp] theorem setCell_latches (s : State) (p : Nat) (l : Nat) (v : Cell) :
    (setCell s p l v).latches = s.latches := by rfl
@[simp] theorem setCell_ccr (s : State) (p : Nat) (l : Nat) (v : Cell) :
    (setCell s p l v).ccr = s.ccr := by rfl
@[simp] theorem setCell_links (s : State) (p : Nat) (l : Nat) (v : Cell) :
    (setCell s p l v).links = s.links := by rfl
@[simp] theorem setCell_collU (s : State) (p : Nat) (l : Nat) (v : Cell) :
    (setCell s p l v).collU = s.collU := by rfl
@[simp] theorem setCell_dk (s : State) (p : Nat) (l : Nat) (v : Cell) :
    (setCell s p l v).dk = s.dk := by rfl
@[simp] theorem setCell_faults (s : State) (p : Nat) (l : Nat) (v : Cell) :
    (setCell s p l v).faults = s.faults := by rfl
@[simp] theorem setCell_test (s : State) (p : Nat) (l : Nat) (v : Cell) :
    (setCell s p l v).test = s.test := by rfl
@[simp] theorem setCell_island (s : State) (p : Nat) (l : Nat) (v : Cell) :
    (setCell s p l v).island = s.island := by rfl
@[simp] theorem setCell_evrec (s : State) (p : Nat) (l : Nat) (v : Cell) :
    (setCell s p l v).evrec = s.evrec := by rfl
@[simp] theorem setCell_power (s : State) (p : Nat) (l : Nat) (v : Cell) :
    (setCell s p l v).power = s.power := by rfl
@[simp] theorem setCell_host (s : State) (p : Nat) (l : Nat) (v : Cell) :
    (setCell s p l v).host = s.host := by rfl
@[simp] theorem setCell_fm (s : State) (p : Nat) (l : Nat) (v : Cell) :
    (setCell s p l v).fm = s.fm := by rfl
@[simp] theorem setCell_store (s : State) (p : Nat) (l : Nat) (v : Cell) :
    (setCell s p l v).store = s.store := by rfl
@[simp] theorem setCell_free (s : State) (p : Nat) (l : Nat) (v : Cell) :
    (setCell s p l v).free = s.free := by rfl
@[simp] theorem setCell_pending (s : State) (p : Nat) (l : Nat) (v : Cell) :
    (setCell s p l v).pending = s.pending := by rfl

/-! `modCell` -/

@[simp] theorem modCell_time (s : State) (p : Nat) (l : Nat) (f : Cell → Cell) :
    (modCell s p l f).time = s.time := by rfl
@[simp] theorem modCell_panes (s : State) (p : Nat) (l : Nat) (f : Cell → Cell) :
    (modCell s p l f).panes = s.panes := by rfl
@[simp] theorem modCell_groups (s : State) (p : Nat) (l : Nat) (f : Cell → Cell) :
    (modCell s p l f).groups = s.groups := by rfl
@[simp] theorem modCell_far (s : State) (p : Nat) (l : Nat) (f : Cell → Cell) :
    (modCell s p l f).far = s.far := by rfl
@[simp] theorem modCell_latches (s : State) (p : Nat) (l : Nat) (f : Cell → Cell) :
    (modCell s p l f).latches = s.latches := by rfl
@[simp] theorem modCell_ccr (s : State) (p : Nat) (l : Nat) (f : Cell → Cell) :
    (modCell s p l f).ccr = s.ccr := by rfl
@[simp] theorem modCell_links (s : State) (p : Nat) (l : Nat) (f : Cell → Cell) :
    (modCell s p l f).links = s.links := by rfl
@[simp] theorem modCell_collU (s : State) (p : Nat) (l : Nat) (f : Cell → Cell) :
    (modCell s p l f).collU = s.collU := by rfl
@[simp] theorem modCell_dk (s : State) (p : Nat) (l : Nat) (f : Cell → Cell) :
    (modCell s p l f).dk = s.dk := by rfl
@[simp] theorem modCell_faults (s : State) (p : Nat) (l : Nat) (f : Cell → Cell) :
    (modCell s p l f).faults = s.faults := by rfl
@[simp] theorem modCell_test (s : State) (p : Nat) (l : Nat) (f : Cell → Cell) :
    (modCell s p l f).test = s.test := by rfl
@[simp] theorem modCell_island (s : State) (p : Nat) (l : Nat) (f : Cell → Cell) :
    (modCell s p l f).island = s.island := by rfl
@[simp] theorem modCell_evrec (s : State) (p : Nat) (l : Nat) (f : Cell → Cell) :
    (modCell s p l f).evrec = s.evrec := by rfl
@[simp] theorem modCell_power (s : State) (p : Nat) (l : Nat) (f : Cell → Cell) :
    (modCell s p l f).power = s.power := by rfl
@[simp] theorem modCell_host (s : State) (p : Nat) (l : Nat) (f : Cell → Cell) :
    (modCell s p l f).host = s.host := by rfl
@[simp] theorem modCell_fm (s : State) (p : Nat) (l : Nat) (f : Cell → Cell) :
    (modCell s p l f).fm = s.fm := by rfl
@[simp] theorem modCell_store (s : State) (p : Nat) (l : Nat) (f : Cell → Cell) :
    (modCell s p l f).store = s.store := by rfl
@[simp] theorem modCell_free (s : State) (p : Nat) (l : Nat) (f : Cell → Cell) :
    (modCell s p l f).free = s.free := by rfl
@[simp] theorem modCell_pending (s : State) (p : Nat) (l : Nat) (f : Cell → Cell) :
    (modCell s p l f).pending = s.pending := by rfl

/-! `modGroup` -/

@[simp] theorem modGroup_time (s : State) (lead : Nat) (f : Group → Group) :
    (modGroup s lead f).time = s.time := by rfl
@[simp] theorem modGroup_panes (s : State) (lead : Nat) (f : Group → Group) :
    (modGroup s lead f).panes = s.panes := by rfl
@[simp] theorem modGroup_cells (s : State) (lead : Nat) (f : Group → Group) :
    (modGroup s lead f).cells = s.cells := by rfl
@[simp] theorem modGroup_far (s : State) (lead : Nat) (f : Group → Group) :
    (modGroup s lead f).far = s.far := by rfl
@[simp] theorem modGroup_latches (s : State) (lead : Nat) (f : Group → Group) :
    (modGroup s lead f).latches = s.latches := by rfl
@[simp] theorem modGroup_ccr (s : State) (lead : Nat) (f : Group → Group) :
    (modGroup s lead f).ccr = s.ccr := by rfl
@[simp] theorem modGroup_links (s : State) (lead : Nat) (f : Group → Group) :
    (modGroup s lead f).links = s.links := by rfl
@[simp] theorem modGroup_collU (s : State) (lead : Nat) (f : Group → Group) :
    (modGroup s lead f).collU = s.collU := by rfl
@[simp] theorem modGroup_dk (s : State) (lead : Nat) (f : Group → Group) :
    (modGroup s lead f).dk = s.dk := by rfl
@[simp] theorem modGroup_faults (s : State) (lead : Nat) (f : Group → Group) :
    (modGroup s lead f).faults = s.faults := by rfl
@[simp] theorem modGroup_test (s : State) (lead : Nat) (f : Group → Group) :
    (modGroup s lead f).test = s.test := by rfl
@[simp] theorem modGroup_island (s : State) (lead : Nat) (f : Group → Group) :
    (modGroup s lead f).island = s.island := by rfl
@[simp] theorem modGroup_evrec (s : State) (lead : Nat) (f : Group → Group) :
    (modGroup s lead f).evrec = s.evrec := by rfl
@[simp] theorem modGroup_power (s : State) (lead : Nat) (f : Group → Group) :
    (modGroup s lead f).power = s.power := by rfl
@[simp] theorem modGroup_host (s : State) (lead : Nat) (f : Group → Group) :
    (modGroup s lead f).host = s.host := by rfl
@[simp] theorem modGroup_fm (s : State) (lead : Nat) (f : Group → Group) :
    (modGroup s lead f).fm = s.fm := by rfl
@[simp] theorem modGroup_store (s : State) (lead : Nat) (f : Group → Group) :
    (modGroup s lead f).store = s.store := by rfl
@[simp] theorem modGroup_free (s : State) (lead : Nat) (f : Group → Group) :
    (modGroup s lead f).free = s.free := by rfl
@[simp] theorem modGroup_pending (s : State) (lead : Nat) (f : Group → Group) :
    (modGroup s lead f).pending = s.pending := by rfl

/-! `modRun` -/

@[simp] theorem modRun_time (s : State) (lead : Nat) (f : Run → Run) :
    (modRun s lead f).time = s.time := by rfl
@[simp] theorem modRun_panes (s : State) (lead : Nat) (f : Run → Run) :
    (modRun s lead f).panes = s.panes := by rfl
@[simp] theorem modRun_cells (s : State) (lead : Nat) (f : Run → Run) :
    (modRun s lead f).cells = s.cells := by rfl
@[simp] theorem modRun_far (s : State) (lead : Nat) (f : Run → Run) :
    (modRun s lead f).far = s.far := by rfl
@[simp] theorem modRun_latches (s : State) (lead : Nat) (f : Run → Run) :
    (modRun s lead f).latches = s.latches := by rfl
@[simp] theorem modRun_ccr (s : State) (lead : Nat) (f : Run → Run) :
    (modRun s lead f).ccr = s.ccr := by rfl
@[simp] theorem modRun_links (s : State) (lead : Nat) (f : Run → Run) :
    (modRun s lead f).links = s.links := by rfl
@[simp] theorem modRun_collU (s : State) (lead : Nat) (f : Run → Run) :
    (modRun s lead f).collU = s.collU := by rfl
@[simp] theorem modRun_dk (s : State) (lead : Nat) (f : Run → Run) :
    (modRun s lead f).dk = s.dk := by rfl
@[simp] theorem modRun_faults (s : State) (lead : Nat) (f : Run → Run) :
    (modRun s lead f).faults = s.faults := by rfl
@[simp] theorem modRun_test (s : State) (lead : Nat) (f : Run → Run) :
    (modRun s lead f).test = s.test := by rfl
@[simp] theorem modRun_island (s : State) (lead : Nat) (f : Run → Run) :
    (modRun s lead f).island = s.island := by rfl
@[simp] theorem modRun_evrec (s : State) (lead : Nat) (f : Run → Run) :
    (modRun s lead f).evrec = s.evrec := by rfl
@[simp] theorem modRun_power (s : State) (lead : Nat) (f : Run → Run) :
    (modRun s lead f).power = s.power := by rfl
@[simp] theorem modRun_host (s : State) (lead : Nat) (f : Run → Run) :
    (modRun s lead f).host = s.host := by rfl
@[simp] theorem modRun_fm (s : State) (lead : Nat) (f : Run → Run) :
    (modRun s lead f).fm = s.fm := by rfl
@[simp] theorem modRun_store (s : State) (lead : Nat) (f : Run → Run) :
    (modRun s lead f).store = s.store := by rfl
@[simp] theorem modRun_free (s : State) (lead : Nat) (f : Run → Run) :
    (modRun s lead f).free = s.free := by rfl
@[simp] theorem modRun_pending (s : State) (lead : Nat) (f : Run → Run) :
    (modRun s lead f).pending = s.pending := by rfl

/-! `tookFree` -/

@[simp] theorem tookFree_time (s : State) :
    (tookFree s).time = s.time := by rfl
@[simp] theorem tookFree_panes (s : State) :
    (tookFree s).panes = s.panes := by rfl
@[simp] theorem tookFree_cells (s : State) :
    (tookFree s).cells = s.cells := by rfl
@[simp] theorem tookFree_groups (s : State) :
    (tookFree s).groups = s.groups := by rfl
@[simp] theorem tookFree_far (s : State) :
    (tookFree s).far = s.far := by rfl
@[simp] theorem tookFree_latches (s : State) :
    (tookFree s).latches = s.latches := by rfl
@[simp] theorem tookFree_ccr (s : State) :
    (tookFree s).ccr = s.ccr := by rfl
@[simp] theorem tookFree_links (s : State) :
    (tookFree s).links = s.links := by rfl
@[simp] theorem tookFree_collU (s : State) :
    (tookFree s).collU = s.collU := by rfl
@[simp] theorem tookFree_dk (s : State) :
    (tookFree s).dk = s.dk := by rfl
@[simp] theorem tookFree_faults (s : State) :
    (tookFree s).faults = s.faults := by rfl
@[simp] theorem tookFree_test (s : State) :
    (tookFree s).test = s.test := by rfl
@[simp] theorem tookFree_island (s : State) :
    (tookFree s).island = s.island := by rfl
@[simp] theorem tookFree_evrec (s : State) :
    (tookFree s).evrec = s.evrec := by rfl
@[simp] theorem tookFree_power (s : State) :
    (tookFree s).power = s.power := by rfl
@[simp] theorem tookFree_host (s : State) :
    (tookFree s).host = s.host := by rfl
@[simp] theorem tookFree_fm (s : State) :
    (tookFree s).fm = s.fm := by rfl
@[simp] theorem tookFree_store (s : State) :
    (tookFree s).store = s.store := by rfl
@[simp] theorem tookFree_pending (s : State) :
    (tookFree s).pending = s.pending := by rfl

/-! `modPort` -/

@[simp] theorem modPort_time (s : State) (p : Nat) (f : Port → Port) :
    (modPort s p f).time = s.time := by rfl
@[simp] theorem modPort_panes (s : State) (p : Nat) (f : Port → Port) :
    (modPort s p f).panes = s.panes := by rfl
@[simp] theorem modPort_cells (s : State) (p : Nat) (f : Port → Port) :
    (modPort s p f).cells = s.cells := by rfl
@[simp] theorem modPort_groups (s : State) (p : Nat) (f : Port → Port) :
    (modPort s p f).groups = s.groups := by rfl
@[simp] theorem modPort_far (s : State) (p : Nat) (f : Port → Port) :
    (modPort s p f).far = s.far := by rfl
@[simp] theorem modPort_latches (s : State) (p : Nat) (f : Port → Port) :
    (modPort s p f).latches = s.latches := by rfl
@[simp] theorem modPort_ccr (s : State) (p : Nat) (f : Port → Port) :
    (modPort s p f).ccr = s.ccr := by rfl
@[simp] theorem modPort_collU (s : State) (p : Nat) (f : Port → Port) :
    (modPort s p f).collU = s.collU := by rfl
@[simp] theorem modPort_dk (s : State) (p : Nat) (f : Port → Port) :
    (modPort s p f).dk = s.dk := by rfl
@[simp] theorem modPort_faults (s : State) (p : Nat) (f : Port → Port) :
    (modPort s p f).faults = s.faults := by rfl
@[simp] theorem modPort_test (s : State) (p : Nat) (f : Port → Port) :
    (modPort s p f).test = s.test := by rfl
@[simp] theorem modPort_island (s : State) (p : Nat) (f : Port → Port) :
    (modPort s p f).island = s.island := by rfl
@[simp] theorem modPort_evrec (s : State) (p : Nat) (f : Port → Port) :
    (modPort s p f).evrec = s.evrec := by rfl
@[simp] theorem modPort_power (s : State) (p : Nat) (f : Port → Port) :
    (modPort s p f).power = s.power := by rfl
@[simp] theorem modPort_host (s : State) (p : Nat) (f : Port → Port) :
    (modPort s p f).host = s.host := by rfl
@[simp] theorem modPort_fm (s : State) (p : Nat) (f : Port → Port) :
    (modPort s p f).fm = s.fm := by rfl
@[simp] theorem modPort_store (s : State) (p : Nat) (f : Port → Port) :
    (modPort s p f).store = s.store := by rfl
@[simp] theorem modPort_free (s : State) (p : Nat) (f : Port → Port) :
    (modPort s p f).free = s.free := by rfl
@[simp] theorem modPort_pending (s : State) (p : Nat) (f : Port → Port) :
    (modPort s p f).pending = s.pending := by rfl

/-! `modTraf` -/

@[simp] theorem modTraf_time (s : State) (p : Nat) (f : PortTraffic → PortTraffic) :
    (modTraf s p f).time = s.time := by rfl
@[simp] theorem modTraf_panes (s : State) (p : Nat) (f : PortTraffic → PortTraffic) :
    (modTraf s p f).panes = s.panes := by rfl
@[simp] theorem modTraf_cells (s : State) (p : Nat) (f : PortTraffic → PortTraffic) :
    (modTraf s p f).cells = s.cells := by rfl
@[simp] theorem modTraf_groups (s : State) (p : Nat) (f : PortTraffic → PortTraffic) :
    (modTraf s p f).groups = s.groups := by rfl
@[simp] theorem modTraf_far (s : State) (p : Nat) (f : PortTraffic → PortTraffic) :
    (modTraf s p f).far = s.far := by rfl
@[simp] theorem modTraf_latches (s : State) (p : Nat) (f : PortTraffic → PortTraffic) :
    (modTraf s p f).latches = s.latches := by rfl
@[simp] theorem modTraf_ccr (s : State) (p : Nat) (f : PortTraffic → PortTraffic) :
    (modTraf s p f).ccr = s.ccr := by rfl
@[simp] theorem modTraf_collU (s : State) (p : Nat) (f : PortTraffic → PortTraffic) :
    (modTraf s p f).collU = s.collU := by rfl
@[simp] theorem modTraf_dk (s : State) (p : Nat) (f : PortTraffic → PortTraffic) :
    (modTraf s p f).dk = s.dk := by rfl
@[simp] theorem modTraf_faults (s : State) (p : Nat) (f : PortTraffic → PortTraffic) :
    (modTraf s p f).faults = s.faults := by rfl
@[simp] theorem modTraf_test (s : State) (p : Nat) (f : PortTraffic → PortTraffic) :
    (modTraf s p f).test = s.test := by rfl
@[simp] theorem modTraf_island (s : State) (p : Nat) (f : PortTraffic → PortTraffic) :
    (modTraf s p f).island = s.island := by rfl
@[simp] theorem modTraf_evrec (s : State) (p : Nat) (f : PortTraffic → PortTraffic) :
    (modTraf s p f).evrec = s.evrec := by rfl
@[simp] theorem modTraf_power (s : State) (p : Nat) (f : PortTraffic → PortTraffic) :
    (modTraf s p f).power = s.power := by rfl
@[simp] theorem modTraf_host (s : State) (p : Nat) (f : PortTraffic → PortTraffic) :
    (modTraf s p f).host = s.host := by rfl
@[simp] theorem modTraf_fm (s : State) (p : Nat) (f : PortTraffic → PortTraffic) :
    (modTraf s p f).fm = s.fm := by rfl
@[simp] theorem modTraf_store (s : State) (p : Nat) (f : PortTraffic → PortTraffic) :
    (modTraf s p f).store = s.store := by rfl
@[simp] theorem modTraf_free (s : State) (p : Nat) (f : PortTraffic → PortTraffic) :
    (modTraf s p f).free = s.free := by rfl
@[simp] theorem modTraf_pending (s : State) (p : Nat) (f : PortTraffic → PortTraffic) :
    (modTraf s p f).pending = s.pending := by rfl

/-! `modErrs` -/

@[simp] theorem modErrs_time (s : State) (p : Nat) (f : PortErrors → PortErrors) :
    (modErrs s p f).time = s.time := by rfl
@[simp] theorem modErrs_panes (s : State) (p : Nat) (f : PortErrors → PortErrors) :
    (modErrs s p f).panes = s.panes := by rfl
@[simp] theorem modErrs_cells (s : State) (p : Nat) (f : PortErrors → PortErrors) :
    (modErrs s p f).cells = s.cells := by rfl
@[simp] theorem modErrs_groups (s : State) (p : Nat) (f : PortErrors → PortErrors) :
    (modErrs s p f).groups = s.groups := by rfl
@[simp] theorem modErrs_far (s : State) (p : Nat) (f : PortErrors → PortErrors) :
    (modErrs s p f).far = s.far := by rfl
@[simp] theorem modErrs_latches (s : State) (p : Nat) (f : PortErrors → PortErrors) :
    (modErrs s p f).latches = s.latches := by rfl
@[simp] theorem modErrs_ccr (s : State) (p : Nat) (f : PortErrors → PortErrors) :
    (modErrs s p f).ccr = s.ccr := by rfl
@[simp] theorem modErrs_collU (s : State) (p : Nat) (f : PortErrors → PortErrors) :
    (modErrs s p f).collU = s.collU := by rfl
@[simp] theorem modErrs_dk (s : State) (p : Nat) (f : PortErrors → PortErrors) :
    (modErrs s p f).dk = s.dk := by rfl
@[simp] theorem modErrs_faults (s : State) (p : Nat) (f : PortErrors → PortErrors) :
    (modErrs s p f).faults = s.faults := by rfl
@[simp] theorem modErrs_test (s : State) (p : Nat) (f : PortErrors → PortErrors) :
    (modErrs s p f).test = s.test := by rfl
@[simp] theorem modErrs_island (s : State) (p : Nat) (f : PortErrors → PortErrors) :
    (modErrs s p f).island = s.island := by rfl
@[simp] theorem modErrs_evrec (s : State) (p : Nat) (f : PortErrors → PortErrors) :
    (modErrs s p f).evrec = s.evrec := by rfl
@[simp] theorem modErrs_power (s : State) (p : Nat) (f : PortErrors → PortErrors) :
    (modErrs s p f).power = s.power := by rfl
@[simp] theorem modErrs_host (s : State) (p : Nat) (f : PortErrors → PortErrors) :
    (modErrs s p f).host = s.host := by rfl
@[simp] theorem modErrs_fm (s : State) (p : Nat) (f : PortErrors → PortErrors) :
    (modErrs s p f).fm = s.fm := by rfl
@[simp] theorem modErrs_store (s : State) (p : Nat) (f : PortErrors → PortErrors) :
    (modErrs s p f).store = s.store := by rfl
@[simp] theorem modErrs_free (s : State) (p : Nat) (f : PortErrors → PortErrors) :
    (modErrs s p f).free = s.free := by rfl
@[simp] theorem modErrs_pending (s : State) (p : Nat) (f : PortErrors → PortErrors) :
    (modErrs s p f).pending = s.pending := by rfl

/-! `modCv` -/

@[simp] theorem modCv_time (s : State) (u : Nat) (f : CvUnit → CvUnit) :
    (modCv s u f).time = s.time := by rfl
@[simp] theorem modCv_panes (s : State) (u : Nat) (f : CvUnit → CvUnit) :
    (modCv s u f).panes = s.panes := by rfl
@[simp] theorem modCv_cells (s : State) (u : Nat) (f : CvUnit → CvUnit) :
    (modCv s u f).cells = s.cells := by rfl
@[simp] theorem modCv_groups (s : State) (u : Nat) (f : CvUnit → CvUnit) :
    (modCv s u f).groups = s.groups := by rfl
@[simp] theorem modCv_far (s : State) (u : Nat) (f : CvUnit → CvUnit) :
    (modCv s u f).far = s.far := by rfl
@[simp] theorem modCv_latches (s : State) (u : Nat) (f : CvUnit → CvUnit) :
    (modCv s u f).latches = s.latches := by rfl
@[simp] theorem modCv_ccr (s : State) (u : Nat) (f : CvUnit → CvUnit) :
    (modCv s u f).ccr = s.ccr := by rfl
@[simp] theorem modCv_collU (s : State) (u : Nat) (f : CvUnit → CvUnit) :
    (modCv s u f).collU = s.collU := by rfl
@[simp] theorem modCv_dk (s : State) (u : Nat) (f : CvUnit → CvUnit) :
    (modCv s u f).dk = s.dk := by rfl
@[simp] theorem modCv_faults (s : State) (u : Nat) (f : CvUnit → CvUnit) :
    (modCv s u f).faults = s.faults := by rfl
@[simp] theorem modCv_test (s : State) (u : Nat) (f : CvUnit → CvUnit) :
    (modCv s u f).test = s.test := by rfl
@[simp] theorem modCv_island (s : State) (u : Nat) (f : CvUnit → CvUnit) :
    (modCv s u f).island = s.island := by rfl
@[simp] theorem modCv_evrec (s : State) (u : Nat) (f : CvUnit → CvUnit) :
    (modCv s u f).evrec = s.evrec := by rfl
@[simp] theorem modCv_power (s : State) (u : Nat) (f : CvUnit → CvUnit) :
    (modCv s u f).power = s.power := by rfl
@[simp] theorem modCv_host (s : State) (u : Nat) (f : CvUnit → CvUnit) :
    (modCv s u f).host = s.host := by rfl
@[simp] theorem modCv_fm (s : State) (u : Nat) (f : CvUnit → CvUnit) :
    (modCv s u f).fm = s.fm := by rfl
@[simp] theorem modCv_store (s : State) (u : Nat) (f : CvUnit → CvUnit) :
    (modCv s u f).store = s.store := by rfl
@[simp] theorem modCv_free (s : State) (u : Nat) (f : CvUnit → CvUnit) :
    (modCv s u f).free = s.free := by rfl
@[simp] theorem modCv_pending (s : State) (u : Nat) (f : CvUnit → CvUnit) :
    (modCv s u f).pending = s.pending := by rfl

/-! `modMbx` -/

@[simp] theorem modMbx_time (s : State) (r : Nat) (f : Mailbox → Mailbox) :
    (modMbx s r f).time = s.time := by rfl
@[simp] theorem modMbx_panes (s : State) (r : Nat) (f : Mailbox → Mailbox) :
    (modMbx s r f).panes = s.panes := by rfl
@[simp] theorem modMbx_cells (s : State) (r : Nat) (f : Mailbox → Mailbox) :
    (modMbx s r f).cells = s.cells := by rfl
@[simp] theorem modMbx_groups (s : State) (r : Nat) (f : Mailbox → Mailbox) :
    (modMbx s r f).groups = s.groups := by rfl
@[simp] theorem modMbx_far (s : State) (r : Nat) (f : Mailbox → Mailbox) :
    (modMbx s r f).far = s.far := by rfl
@[simp] theorem modMbx_latches (s : State) (r : Nat) (f : Mailbox → Mailbox) :
    (modMbx s r f).latches = s.latches := by rfl
@[simp] theorem modMbx_ccr (s : State) (r : Nat) (f : Mailbox → Mailbox) :
    (modMbx s r f).ccr = s.ccr := by rfl
@[simp] theorem modMbx_links (s : State) (r : Nat) (f : Mailbox → Mailbox) :
    (modMbx s r f).links = s.links := by rfl
@[simp] theorem modMbx_collU (s : State) (r : Nat) (f : Mailbox → Mailbox) :
    (modMbx s r f).collU = s.collU := by rfl
@[simp] theorem modMbx_faults (s : State) (r : Nat) (f : Mailbox → Mailbox) :
    (modMbx s r f).faults = s.faults := by rfl
@[simp] theorem modMbx_test (s : State) (r : Nat) (f : Mailbox → Mailbox) :
    (modMbx s r f).test = s.test := by rfl
@[simp] theorem modMbx_island (s : State) (r : Nat) (f : Mailbox → Mailbox) :
    (modMbx s r f).island = s.island := by rfl
@[simp] theorem modMbx_evrec (s : State) (r : Nat) (f : Mailbox → Mailbox) :
    (modMbx s r f).evrec = s.evrec := by rfl
@[simp] theorem modMbx_power (s : State) (r : Nat) (f : Mailbox → Mailbox) :
    (modMbx s r f).power = s.power := by rfl
@[simp] theorem modMbx_host (s : State) (r : Nat) (f : Mailbox → Mailbox) :
    (modMbx s r f).host = s.host := by rfl
@[simp] theorem modMbx_fm (s : State) (r : Nat) (f : Mailbox → Mailbox) :
    (modMbx s r f).fm = s.fm := by rfl
@[simp] theorem modMbx_store (s : State) (r : Nat) (f : Mailbox → Mailbox) :
    (modMbx s r f).store = s.store := by rfl
@[simp] theorem modMbx_free (s : State) (r : Nat) (f : Mailbox → Mailbox) :
    (modMbx s r f).free = s.free := by rfl
@[simp] theorem modMbx_pending (s : State) (r : Nat) (f : Mailbox → Mailbox) :
    (modMbx s r f).pending = s.pending := by rfl

/-! `modNear` -/

@[simp] theorem modNear_time (s : State) (p : Nat) (f : NearTier → NearTier) :
    (modNear s p f).time = s.time := by rfl
@[simp] theorem modNear_cells (s : State) (p : Nat) (f : NearTier → NearTier) :
    (modNear s p f).cells = s.cells := by rfl
@[simp] theorem modNear_groups (s : State) (p : Nat) (f : NearTier → NearTier) :
    (modNear s p f).groups = s.groups := by rfl
@[simp] theorem modNear_far (s : State) (p : Nat) (f : NearTier → NearTier) :
    (modNear s p f).far = s.far := by rfl
@[simp] theorem modNear_latches (s : State) (p : Nat) (f : NearTier → NearTier) :
    (modNear s p f).latches = s.latches := by rfl
@[simp] theorem modNear_ccr (s : State) (p : Nat) (f : NearTier → NearTier) :
    (modNear s p f).ccr = s.ccr := by rfl
@[simp] theorem modNear_links (s : State) (p : Nat) (f : NearTier → NearTier) :
    (modNear s p f).links = s.links := by rfl
@[simp] theorem modNear_collU (s : State) (p : Nat) (f : NearTier → NearTier) :
    (modNear s p f).collU = s.collU := by rfl
@[simp] theorem modNear_dk (s : State) (p : Nat) (f : NearTier → NearTier) :
    (modNear s p f).dk = s.dk := by rfl
@[simp] theorem modNear_faults (s : State) (p : Nat) (f : NearTier → NearTier) :
    (modNear s p f).faults = s.faults := by rfl
@[simp] theorem modNear_test (s : State) (p : Nat) (f : NearTier → NearTier) :
    (modNear s p f).test = s.test := by rfl
@[simp] theorem modNear_island (s : State) (p : Nat) (f : NearTier → NearTier) :
    (modNear s p f).island = s.island := by rfl
@[simp] theorem modNear_evrec (s : State) (p : Nat) (f : NearTier → NearTier) :
    (modNear s p f).evrec = s.evrec := by rfl
@[simp] theorem modNear_power (s : State) (p : Nat) (f : NearTier → NearTier) :
    (modNear s p f).power = s.power := by rfl
@[simp] theorem modNear_host (s : State) (p : Nat) (f : NearTier → NearTier) :
    (modNear s p f).host = s.host := by rfl
@[simp] theorem modNear_fm (s : State) (p : Nat) (f : NearTier → NearTier) :
    (modNear s p f).fm = s.fm := by rfl
@[simp] theorem modNear_store (s : State) (p : Nat) (f : NearTier → NearTier) :
    (modNear s p f).store = s.store := by rfl
@[simp] theorem modNear_free (s : State) (p : Nat) (f : NearTier → NearTier) :
    (modNear s p f).free = s.free := by rfl
@[simp] theorem modNear_pending (s : State) (p : Nat) (f : NearTier → NearTier) :
    (modNear s p f).pending = s.pending := by rfl

/-! `modRmo` -/

@[simp] theorem modRmo_time (s : State) (p : Nat) (f : RmoUnit → RmoUnit) :
    (modRmo s p f).time = s.time := by rfl
@[simp] theorem modRmo_cells (s : State) (p : Nat) (f : RmoUnit → RmoUnit) :
    (modRmo s p f).cells = s.cells := by rfl
@[simp] theorem modRmo_groups (s : State) (p : Nat) (f : RmoUnit → RmoUnit) :
    (modRmo s p f).groups = s.groups := by rfl
@[simp] theorem modRmo_far (s : State) (p : Nat) (f : RmoUnit → RmoUnit) :
    (modRmo s p f).far = s.far := by rfl
@[simp] theorem modRmo_latches (s : State) (p : Nat) (f : RmoUnit → RmoUnit) :
    (modRmo s p f).latches = s.latches := by rfl
@[simp] theorem modRmo_ccr (s : State) (p : Nat) (f : RmoUnit → RmoUnit) :
    (modRmo s p f).ccr = s.ccr := by rfl
@[simp] theorem modRmo_links (s : State) (p : Nat) (f : RmoUnit → RmoUnit) :
    (modRmo s p f).links = s.links := by rfl
@[simp] theorem modRmo_collU (s : State) (p : Nat) (f : RmoUnit → RmoUnit) :
    (modRmo s p f).collU = s.collU := by rfl
@[simp] theorem modRmo_dk (s : State) (p : Nat) (f : RmoUnit → RmoUnit) :
    (modRmo s p f).dk = s.dk := by rfl
@[simp] theorem modRmo_faults (s : State) (p : Nat) (f : RmoUnit → RmoUnit) :
    (modRmo s p f).faults = s.faults := by rfl
@[simp] theorem modRmo_test (s : State) (p : Nat) (f : RmoUnit → RmoUnit) :
    (modRmo s p f).test = s.test := by rfl
@[simp] theorem modRmo_island (s : State) (p : Nat) (f : RmoUnit → RmoUnit) :
    (modRmo s p f).island = s.island := by rfl
@[simp] theorem modRmo_evrec (s : State) (p : Nat) (f : RmoUnit → RmoUnit) :
    (modRmo s p f).evrec = s.evrec := by rfl
@[simp] theorem modRmo_power (s : State) (p : Nat) (f : RmoUnit → RmoUnit) :
    (modRmo s p f).power = s.power := by rfl
@[simp] theorem modRmo_host (s : State) (p : Nat) (f : RmoUnit → RmoUnit) :
    (modRmo s p f).host = s.host := by rfl
@[simp] theorem modRmo_fm (s : State) (p : Nat) (f : RmoUnit → RmoUnit) :
    (modRmo s p f).fm = s.fm := by rfl
@[simp] theorem modRmo_store (s : State) (p : Nat) (f : RmoUnit → RmoUnit) :
    (modRmo s p f).store = s.store := by rfl
@[simp] theorem modRmo_free (s : State) (p : Nat) (f : RmoUnit → RmoUnit) :
    (modRmo s p f).free = s.free := by rfl
@[simp] theorem modRmo_pending (s : State) (p : Nat) (f : RmoUnit → RmoUnit) :
    (modRmo s p f).pending = s.pending := by rfl

/-! `modLatch` -/

@[simp] theorem modLatch_time (s : State) (i : Nat) (f : Latch → Latch) :
    (modLatch s i f).time = s.time := by rfl
@[simp] theorem modLatch_panes (s : State) (i : Nat) (f : Latch → Latch) :
    (modLatch s i f).panes = s.panes := by rfl
@[simp] theorem modLatch_cells (s : State) (i : Nat) (f : Latch → Latch) :
    (modLatch s i f).cells = s.cells := by rfl
@[simp] theorem modLatch_groups (s : State) (i : Nat) (f : Latch → Latch) :
    (modLatch s i f).groups = s.groups := by rfl
@[simp] theorem modLatch_far (s : State) (i : Nat) (f : Latch → Latch) :
    (modLatch s i f).far = s.far := by rfl
@[simp] theorem modLatch_ccr (s : State) (i : Nat) (f : Latch → Latch) :
    (modLatch s i f).ccr = s.ccr := by rfl
@[simp] theorem modLatch_links (s : State) (i : Nat) (f : Latch → Latch) :
    (modLatch s i f).links = s.links := by rfl
@[simp] theorem modLatch_collU (s : State) (i : Nat) (f : Latch → Latch) :
    (modLatch s i f).collU = s.collU := by rfl
@[simp] theorem modLatch_dk (s : State) (i : Nat) (f : Latch → Latch) :
    (modLatch s i f).dk = s.dk := by rfl
@[simp] theorem modLatch_faults (s : State) (i : Nat) (f : Latch → Latch) :
    (modLatch s i f).faults = s.faults := by rfl
@[simp] theorem modLatch_test (s : State) (i : Nat) (f : Latch → Latch) :
    (modLatch s i f).test = s.test := by rfl
@[simp] theorem modLatch_island (s : State) (i : Nat) (f : Latch → Latch) :
    (modLatch s i f).island = s.island := by rfl
@[simp] theorem modLatch_evrec (s : State) (i : Nat) (f : Latch → Latch) :
    (modLatch s i f).evrec = s.evrec := by rfl
@[simp] theorem modLatch_power (s : State) (i : Nat) (f : Latch → Latch) :
    (modLatch s i f).power = s.power := by rfl
@[simp] theorem modLatch_host (s : State) (i : Nat) (f : Latch → Latch) :
    (modLatch s i f).host = s.host := by rfl
@[simp] theorem modLatch_fm (s : State) (i : Nat) (f : Latch → Latch) :
    (modLatch s i f).fm = s.fm := by rfl
@[simp] theorem modLatch_store (s : State) (i : Nat) (f : Latch → Latch) :
    (modLatch s i f).store = s.store := by rfl
@[simp] theorem modLatch_free (s : State) (i : Nat) (f : Latch → Latch) :
    (modLatch s i f).free = s.free := by rfl
@[simp] theorem modLatch_pending (s : State) (i : Nat) (f : Latch → Latch) :
    (modLatch s i f).pending = s.pending := by rfl

/-! `modTime` -/

@[simp] theorem modTime_panes (s : State) (f : BeatUnit → BeatUnit) :
    (modTime s f).panes = s.panes := by rfl
@[simp] theorem modTime_cells (s : State) (f : BeatUnit → BeatUnit) :
    (modTime s f).cells = s.cells := by rfl
@[simp] theorem modTime_groups (s : State) (f : BeatUnit → BeatUnit) :
    (modTime s f).groups = s.groups := by rfl
@[simp] theorem modTime_far (s : State) (f : BeatUnit → BeatUnit) :
    (modTime s f).far = s.far := by rfl
@[simp] theorem modTime_latches (s : State) (f : BeatUnit → BeatUnit) :
    (modTime s f).latches = s.latches := by rfl
@[simp] theorem modTime_ccr (s : State) (f : BeatUnit → BeatUnit) :
    (modTime s f).ccr = s.ccr := by rfl
@[simp] theorem modTime_links (s : State) (f : BeatUnit → BeatUnit) :
    (modTime s f).links = s.links := by rfl
@[simp] theorem modTime_collU (s : State) (f : BeatUnit → BeatUnit) :
    (modTime s f).collU = s.collU := by rfl
@[simp] theorem modTime_dk (s : State) (f : BeatUnit → BeatUnit) :
    (modTime s f).dk = s.dk := by rfl
@[simp] theorem modTime_faults (s : State) (f : BeatUnit → BeatUnit) :
    (modTime s f).faults = s.faults := by rfl
@[simp] theorem modTime_test (s : State) (f : BeatUnit → BeatUnit) :
    (modTime s f).test = s.test := by rfl
@[simp] theorem modTime_island (s : State) (f : BeatUnit → BeatUnit) :
    (modTime s f).island = s.island := by rfl
@[simp] theorem modTime_evrec (s : State) (f : BeatUnit → BeatUnit) :
    (modTime s f).evrec = s.evrec := by rfl
@[simp] theorem modTime_power (s : State) (f : BeatUnit → BeatUnit) :
    (modTime s f).power = s.power := by rfl
@[simp] theorem modTime_host (s : State) (f : BeatUnit → BeatUnit) :
    (modTime s f).host = s.host := by rfl
@[simp] theorem modTime_fm (s : State) (f : BeatUnit → BeatUnit) :
    (modTime s f).fm = s.fm := by rfl
@[simp] theorem modTime_store (s : State) (f : BeatUnit → BeatUnit) :
    (modTime s f).store = s.store := by rfl
@[simp] theorem modTime_free (s : State) (f : BeatUnit → BeatUnit) :
    (modTime s f).free = s.free := by rfl
@[simp] theorem modTime_pending (s : State) (f : BeatUnit → BeatUnit) :
    (modTime s f).pending = s.pending := by rfl

/-! `modFar` -/

@[simp] theorem modFar_time (s : State) (f : FarTier → FarTier) :
    (modFar s f).time = s.time := by rfl
@[simp] theorem modFar_panes (s : State) (f : FarTier → FarTier) :
    (modFar s f).panes = s.panes := by rfl
@[simp] theorem modFar_cells (s : State) (f : FarTier → FarTier) :
    (modFar s f).cells = s.cells := by rfl
@[simp] theorem modFar_groups (s : State) (f : FarTier → FarTier) :
    (modFar s f).groups = s.groups := by rfl
@[simp] theorem modFar_latches (s : State) (f : FarTier → FarTier) :
    (modFar s f).latches = s.latches := by rfl
@[simp] theorem modFar_ccr (s : State) (f : FarTier → FarTier) :
    (modFar s f).ccr = s.ccr := by rfl
@[simp] theorem modFar_links (s : State) (f : FarTier → FarTier) :
    (modFar s f).links = s.links := by rfl
@[simp] theorem modFar_collU (s : State) (f : FarTier → FarTier) :
    (modFar s f).collU = s.collU := by rfl
@[simp] theorem modFar_dk (s : State) (f : FarTier → FarTier) :
    (modFar s f).dk = s.dk := by rfl
@[simp] theorem modFar_faults (s : State) (f : FarTier → FarTier) :
    (modFar s f).faults = s.faults := by rfl
@[simp] theorem modFar_test (s : State) (f : FarTier → FarTier) :
    (modFar s f).test = s.test := by rfl
@[simp] theorem modFar_island (s : State) (f : FarTier → FarTier) :
    (modFar s f).island = s.island := by rfl
@[simp] theorem modFar_evrec (s : State) (f : FarTier → FarTier) :
    (modFar s f).evrec = s.evrec := by rfl
@[simp] theorem modFar_power (s : State) (f : FarTier → FarTier) :
    (modFar s f).power = s.power := by rfl
@[simp] theorem modFar_host (s : State) (f : FarTier → FarTier) :
    (modFar s f).host = s.host := by rfl
@[simp] theorem modFar_fm (s : State) (f : FarTier → FarTier) :
    (modFar s f).fm = s.fm := by rfl
@[simp] theorem modFar_store (s : State) (f : FarTier → FarTier) :
    (modFar s f).store = s.store := by rfl
@[simp] theorem modFar_free (s : State) (f : FarTier → FarTier) :
    (modFar s f).free = s.free := by rfl
@[simp] theorem modFar_pending (s : State) (f : FarTier → FarTier) :
    (modFar s f).pending = s.pending := by rfl

/-! `modBlk` -/

@[simp] theorem modBlk_time (s : State) (k : Nat) (f : Block → Block) :
    (modBlk s k f).time = s.time := by rfl
@[simp] theorem modBlk_panes (s : State) (k : Nat) (f : Block → Block) :
    (modBlk s k f).panes = s.panes := by rfl
@[simp] theorem modBlk_cells (s : State) (k : Nat) (f : Block → Block) :
    (modBlk s k f).cells = s.cells := by rfl
@[simp] theorem modBlk_groups (s : State) (k : Nat) (f : Block → Block) :
    (modBlk s k f).groups = s.groups := by rfl
@[simp] theorem modBlk_latches (s : State) (k : Nat) (f : Block → Block) :
    (modBlk s k f).latches = s.latches := by rfl
@[simp] theorem modBlk_ccr (s : State) (k : Nat) (f : Block → Block) :
    (modBlk s k f).ccr = s.ccr := by rfl
@[simp] theorem modBlk_links (s : State) (k : Nat) (f : Block → Block) :
    (modBlk s k f).links = s.links := by rfl
@[simp] theorem modBlk_collU (s : State) (k : Nat) (f : Block → Block) :
    (modBlk s k f).collU = s.collU := by rfl
@[simp] theorem modBlk_dk (s : State) (k : Nat) (f : Block → Block) :
    (modBlk s k f).dk = s.dk := by rfl
@[simp] theorem modBlk_faults (s : State) (k : Nat) (f : Block → Block) :
    (modBlk s k f).faults = s.faults := by rfl
@[simp] theorem modBlk_test (s : State) (k : Nat) (f : Block → Block) :
    (modBlk s k f).test = s.test := by rfl
@[simp] theorem modBlk_island (s : State) (k : Nat) (f : Block → Block) :
    (modBlk s k f).island = s.island := by rfl
@[simp] theorem modBlk_evrec (s : State) (k : Nat) (f : Block → Block) :
    (modBlk s k f).evrec = s.evrec := by rfl
@[simp] theorem modBlk_power (s : State) (k : Nat) (f : Block → Block) :
    (modBlk s k f).power = s.power := by rfl
@[simp] theorem modBlk_host (s : State) (k : Nat) (f : Block → Block) :
    (modBlk s k f).host = s.host := by rfl
@[simp] theorem modBlk_fm (s : State) (k : Nat) (f : Block → Block) :
    (modBlk s k f).fm = s.fm := by rfl
@[simp] theorem modBlk_store (s : State) (k : Nat) (f : Block → Block) :
    (modBlk s k f).store = s.store := by rfl
@[simp] theorem modBlk_free (s : State) (k : Nat) (f : Block → Block) :
    (modBlk s k f).free = s.free := by rfl
@[simp] theorem modBlk_pending (s : State) (k : Nat) (f : Block → Block) :
    (modBlk s k f).pending = s.pending := by rfl

/-! `modOwner` -/

@[simp] theorem modOwner_time (s : State) (o : Nat) (f : FarOwner → FarOwner) :
    (modOwner s o f).time = s.time := by rfl
@[simp] theorem modOwner_panes (s : State) (o : Nat) (f : FarOwner → FarOwner) :
    (modOwner s o f).panes = s.panes := by rfl
@[simp] theorem modOwner_cells (s : State) (o : Nat) (f : FarOwner → FarOwner) :
    (modOwner s o f).cells = s.cells := by rfl
@[simp] theorem modOwner_groups (s : State) (o : Nat) (f : FarOwner → FarOwner) :
    (modOwner s o f).groups = s.groups := by rfl
@[simp] theorem modOwner_latches (s : State) (o : Nat) (f : FarOwner → FarOwner) :
    (modOwner s o f).latches = s.latches := by rfl
@[simp] theorem modOwner_ccr (s : State) (o : Nat) (f : FarOwner → FarOwner) :
    (modOwner s o f).ccr = s.ccr := by rfl
@[simp] theorem modOwner_links (s : State) (o : Nat) (f : FarOwner → FarOwner) :
    (modOwner s o f).links = s.links := by rfl
@[simp] theorem modOwner_collU (s : State) (o : Nat) (f : FarOwner → FarOwner) :
    (modOwner s o f).collU = s.collU := by rfl
@[simp] theorem modOwner_dk (s : State) (o : Nat) (f : FarOwner → FarOwner) :
    (modOwner s o f).dk = s.dk := by rfl
@[simp] theorem modOwner_faults (s : State) (o : Nat) (f : FarOwner → FarOwner) :
    (modOwner s o f).faults = s.faults := by rfl
@[simp] theorem modOwner_test (s : State) (o : Nat) (f : FarOwner → FarOwner) :
    (modOwner s o f).test = s.test := by rfl
@[simp] theorem modOwner_island (s : State) (o : Nat) (f : FarOwner → FarOwner) :
    (modOwner s o f).island = s.island := by rfl
@[simp] theorem modOwner_evrec (s : State) (o : Nat) (f : FarOwner → FarOwner) :
    (modOwner s o f).evrec = s.evrec := by rfl
@[simp] theorem modOwner_power (s : State) (o : Nat) (f : FarOwner → FarOwner) :
    (modOwner s o f).power = s.power := by rfl
@[simp] theorem modOwner_host (s : State) (o : Nat) (f : FarOwner → FarOwner) :
    (modOwner s o f).host = s.host := by rfl
@[simp] theorem modOwner_fm (s : State) (o : Nat) (f : FarOwner → FarOwner) :
    (modOwner s o f).fm = s.fm := by rfl
@[simp] theorem modOwner_store (s : State) (o : Nat) (f : FarOwner → FarOwner) :
    (modOwner s o f).store = s.store := by rfl
@[simp] theorem modOwner_free (s : State) (o : Nat) (f : FarOwner → FarOwner) :
    (modOwner s o f).free = s.free := by rfl
@[simp] theorem modOwner_pending (s : State) (o : Nat) (f : FarOwner → FarOwner) :
    (modOwner s o f).pending = s.pending := by rfl

/-! `modIsland` -/

@[simp] theorem modIsland_time (s : State) (f : Island → Island) :
    (modIsland s f).time = s.time := by rfl
@[simp] theorem modIsland_panes (s : State) (f : Island → Island) :
    (modIsland s f).panes = s.panes := by rfl
@[simp] theorem modIsland_cells (s : State) (f : Island → Island) :
    (modIsland s f).cells = s.cells := by rfl
@[simp] theorem modIsland_groups (s : State) (f : Island → Island) :
    (modIsland s f).groups = s.groups := by rfl
@[simp] theorem modIsland_far (s : State) (f : Island → Island) :
    (modIsland s f).far = s.far := by rfl
@[simp] theorem modIsland_latches (s : State) (f : Island → Island) :
    (modIsland s f).latches = s.latches := by rfl
@[simp] theorem modIsland_ccr (s : State) (f : Island → Island) :
    (modIsland s f).ccr = s.ccr := by rfl
@[simp] theorem modIsland_links (s : State) (f : Island → Island) :
    (modIsland s f).links = s.links := by rfl
@[simp] theorem modIsland_collU (s : State) (f : Island → Island) :
    (modIsland s f).collU = s.collU := by rfl
@[simp] theorem modIsland_dk (s : State) (f : Island → Island) :
    (modIsland s f).dk = s.dk := by rfl
@[simp] theorem modIsland_faults (s : State) (f : Island → Island) :
    (modIsland s f).faults = s.faults := by rfl
@[simp] theorem modIsland_test (s : State) (f : Island → Island) :
    (modIsland s f).test = s.test := by rfl
@[simp] theorem modIsland_evrec (s : State) (f : Island → Island) :
    (modIsland s f).evrec = s.evrec := by rfl
@[simp] theorem modIsland_power (s : State) (f : Island → Island) :
    (modIsland s f).power = s.power := by rfl
@[simp] theorem modIsland_host (s : State) (f : Island → Island) :
    (modIsland s f).host = s.host := by rfl
@[simp] theorem modIsland_fm (s : State) (f : Island → Island) :
    (modIsland s f).fm = s.fm := by rfl
@[simp] theorem modIsland_store (s : State) (f : Island → Island) :
    (modIsland s f).store = s.store := by rfl
@[simp] theorem modIsland_free (s : State) (f : Island → Island) :
    (modIsland s f).free = s.free := by rfl
@[simp] theorem modIsland_pending (s : State) (f : Island → Island) :
    (modIsland s f).pending = s.pending := by rfl

/-! `modRec` -/

@[simp] theorem modRec_time (s : State) (f : Recorder → Recorder) :
    (modRec s f).time = s.time := by rfl
@[simp] theorem modRec_panes (s : State) (f : Recorder → Recorder) :
    (modRec s f).panes = s.panes := by rfl
@[simp] theorem modRec_cells (s : State) (f : Recorder → Recorder) :
    (modRec s f).cells = s.cells := by rfl
@[simp] theorem modRec_groups (s : State) (f : Recorder → Recorder) :
    (modRec s f).groups = s.groups := by rfl
@[simp] theorem modRec_far (s : State) (f : Recorder → Recorder) :
    (modRec s f).far = s.far := by rfl
@[simp] theorem modRec_latches (s : State) (f : Recorder → Recorder) :
    (modRec s f).latches = s.latches := by rfl
@[simp] theorem modRec_ccr (s : State) (f : Recorder → Recorder) :
    (modRec s f).ccr = s.ccr := by rfl
@[simp] theorem modRec_links (s : State) (f : Recorder → Recorder) :
    (modRec s f).links = s.links := by rfl
@[simp] theorem modRec_collU (s : State) (f : Recorder → Recorder) :
    (modRec s f).collU = s.collU := by rfl
@[simp] theorem modRec_dk (s : State) (f : Recorder → Recorder) :
    (modRec s f).dk = s.dk := by rfl
@[simp] theorem modRec_faults (s : State) (f : Recorder → Recorder) :
    (modRec s f).faults = s.faults := by rfl
@[simp] theorem modRec_test (s : State) (f : Recorder → Recorder) :
    (modRec s f).test = s.test := by rfl
@[simp] theorem modRec_island (s : State) (f : Recorder → Recorder) :
    (modRec s f).island = s.island := by rfl
@[simp] theorem modRec_power (s : State) (f : Recorder → Recorder) :
    (modRec s f).power = s.power := by rfl
@[simp] theorem modRec_host (s : State) (f : Recorder → Recorder) :
    (modRec s f).host = s.host := by rfl
@[simp] theorem modRec_fm (s : State) (f : Recorder → Recorder) :
    (modRec s f).fm = s.fm := by rfl
@[simp] theorem modRec_store (s : State) (f : Recorder → Recorder) :
    (modRec s f).store = s.store := by rfl
@[simp] theorem modRec_free (s : State) (f : Recorder → Recorder) :
    (modRec s f).free = s.free := by rfl
@[simp] theorem modRec_pending (s : State) (f : Recorder → Recorder) :
    (modRec s f).pending = s.pending := by rfl

/-! `modStore` -/

@[simp] theorem modStore_time (s : State) (f : StoreUnit → StoreUnit) :
    (modStore s f).time = s.time := by rfl
@[simp] theorem modStore_panes (s : State) (f : StoreUnit → StoreUnit) :
    (modStore s f).panes = s.panes := by rfl
@[simp] theorem modStore_cells (s : State) (f : StoreUnit → StoreUnit) :
    (modStore s f).cells = s.cells := by rfl
@[simp] theorem modStore_groups (s : State) (f : StoreUnit → StoreUnit) :
    (modStore s f).groups = s.groups := by rfl
@[simp] theorem modStore_far (s : State) (f : StoreUnit → StoreUnit) :
    (modStore s f).far = s.far := by rfl
@[simp] theorem modStore_latches (s : State) (f : StoreUnit → StoreUnit) :
    (modStore s f).latches = s.latches := by rfl
@[simp] theorem modStore_ccr (s : State) (f : StoreUnit → StoreUnit) :
    (modStore s f).ccr = s.ccr := by rfl
@[simp] theorem modStore_links (s : State) (f : StoreUnit → StoreUnit) :
    (modStore s f).links = s.links := by rfl
@[simp] theorem modStore_collU (s : State) (f : StoreUnit → StoreUnit) :
    (modStore s f).collU = s.collU := by rfl
@[simp] theorem modStore_dk (s : State) (f : StoreUnit → StoreUnit) :
    (modStore s f).dk = s.dk := by rfl
@[simp] theorem modStore_faults (s : State) (f : StoreUnit → StoreUnit) :
    (modStore s f).faults = s.faults := by rfl
@[simp] theorem modStore_test (s : State) (f : StoreUnit → StoreUnit) :
    (modStore s f).test = s.test := by rfl
@[simp] theorem modStore_island (s : State) (f : StoreUnit → StoreUnit) :
    (modStore s f).island = s.island := by rfl
@[simp] theorem modStore_evrec (s : State) (f : StoreUnit → StoreUnit) :
    (modStore s f).evrec = s.evrec := by rfl
@[simp] theorem modStore_power (s : State) (f : StoreUnit → StoreUnit) :
    (modStore s f).power = s.power := by rfl
@[simp] theorem modStore_host (s : State) (f : StoreUnit → StoreUnit) :
    (modStore s f).host = s.host := by rfl
@[simp] theorem modStore_fm (s : State) (f : StoreUnit → StoreUnit) :
    (modStore s f).fm = s.fm := by rfl
@[simp] theorem modStore_free (s : State) (f : StoreUnit → StoreUnit) :
    (modStore s f).free = s.free := by rfl
@[simp] theorem modStore_pending (s : State) (f : StoreUnit → StoreUnit) :
    (modStore s f).pending = s.pending := by rfl

/-! `setTxn` -/

@[simp] theorem setTxn_time (s : State) (x : StoreTxn) :
    (setTxn s x).time = s.time := by rfl
@[simp] theorem setTxn_panes (s : State) (x : StoreTxn) :
    (setTxn s x).panes = s.panes := by rfl
@[simp] theorem setTxn_cells (s : State) (x : StoreTxn) :
    (setTxn s x).cells = s.cells := by rfl
@[simp] theorem setTxn_groups (s : State) (x : StoreTxn) :
    (setTxn s x).groups = s.groups := by rfl
@[simp] theorem setTxn_far (s : State) (x : StoreTxn) :
    (setTxn s x).far = s.far := by rfl
@[simp] theorem setTxn_latches (s : State) (x : StoreTxn) :
    (setTxn s x).latches = s.latches := by rfl
@[simp] theorem setTxn_ccr (s : State) (x : StoreTxn) :
    (setTxn s x).ccr = s.ccr := by rfl
@[simp] theorem setTxn_links (s : State) (x : StoreTxn) :
    (setTxn s x).links = s.links := by rfl
@[simp] theorem setTxn_collU (s : State) (x : StoreTxn) :
    (setTxn s x).collU = s.collU := by rfl
@[simp] theorem setTxn_dk (s : State) (x : StoreTxn) :
    (setTxn s x).dk = s.dk := by rfl
@[simp] theorem setTxn_faults (s : State) (x : StoreTxn) :
    (setTxn s x).faults = s.faults := by rfl
@[simp] theorem setTxn_test (s : State) (x : StoreTxn) :
    (setTxn s x).test = s.test := by rfl
@[simp] theorem setTxn_island (s : State) (x : StoreTxn) :
    (setTxn s x).island = s.island := by rfl
@[simp] theorem setTxn_evrec (s : State) (x : StoreTxn) :
    (setTxn s x).evrec = s.evrec := by rfl
@[simp] theorem setTxn_power (s : State) (x : StoreTxn) :
    (setTxn s x).power = s.power := by rfl
@[simp] theorem setTxn_host (s : State) (x : StoreTxn) :
    (setTxn s x).host = s.host := by rfl
@[simp] theorem setTxn_fm (s : State) (x : StoreTxn) :
    (setTxn s x).fm = s.fm := by rfl
@[simp] theorem setTxn_free (s : State) (x : StoreTxn) :
    (setTxn s x).free = s.free := by rfl
@[simp] theorem setTxn_pending (s : State) (x : StoreTxn) :
    (setTxn s x).pending = s.pending := by rfl

/-! `modTest` -/

@[simp] theorem modTest_time (s : State) (p : Nat) (f : PaneTest → PaneTest) :
    (modTest s p f).time = s.time := by rfl
@[simp] theorem modTest_panes (s : State) (p : Nat) (f : PaneTest → PaneTest) :
    (modTest s p f).panes = s.panes := by rfl
@[simp] theorem modTest_cells (s : State) (p : Nat) (f : PaneTest → PaneTest) :
    (modTest s p f).cells = s.cells := by rfl
@[simp] theorem modTest_groups (s : State) (p : Nat) (f : PaneTest → PaneTest) :
    (modTest s p f).groups = s.groups := by rfl
@[simp] theorem modTest_far (s : State) (p : Nat) (f : PaneTest → PaneTest) :
    (modTest s p f).far = s.far := by rfl
@[simp] theorem modTest_latches (s : State) (p : Nat) (f : PaneTest → PaneTest) :
    (modTest s p f).latches = s.latches := by rfl
@[simp] theorem modTest_ccr (s : State) (p : Nat) (f : PaneTest → PaneTest) :
    (modTest s p f).ccr = s.ccr := by rfl
@[simp] theorem modTest_links (s : State) (p : Nat) (f : PaneTest → PaneTest) :
    (modTest s p f).links = s.links := by rfl
@[simp] theorem modTest_collU (s : State) (p : Nat) (f : PaneTest → PaneTest) :
    (modTest s p f).collU = s.collU := by rfl
@[simp] theorem modTest_dk (s : State) (p : Nat) (f : PaneTest → PaneTest) :
    (modTest s p f).dk = s.dk := by rfl
@[simp] theorem modTest_faults (s : State) (p : Nat) (f : PaneTest → PaneTest) :
    (modTest s p f).faults = s.faults := by rfl
@[simp] theorem modTest_island (s : State) (p : Nat) (f : PaneTest → PaneTest) :
    (modTest s p f).island = s.island := by rfl
@[simp] theorem modTest_evrec (s : State) (p : Nat) (f : PaneTest → PaneTest) :
    (modTest s p f).evrec = s.evrec := by rfl
@[simp] theorem modTest_power (s : State) (p : Nat) (f : PaneTest → PaneTest) :
    (modTest s p f).power = s.power := by rfl
@[simp] theorem modTest_host (s : State) (p : Nat) (f : PaneTest → PaneTest) :
    (modTest s p f).host = s.host := by rfl
@[simp] theorem modTest_fm (s : State) (p : Nat) (f : PaneTest → PaneTest) :
    (modTest s p f).fm = s.fm := by rfl
@[simp] theorem modTest_store (s : State) (p : Nat) (f : PaneTest → PaneTest) :
    (modTest s p f).store = s.store := by rfl
@[simp] theorem modTest_free (s : State) (p : Nat) (f : PaneTest → PaneTest) :
    (modTest s p f).free = s.free := by rfl
@[simp] theorem modTest_pending (s : State) (p : Nat) (f : PaneTest → PaneTest) :
    (modTest s p f).pending = s.pending := by rfl

/-! `modLedger` -/

@[simp] theorem modLedger_time (s : State) (e : Nat) (f : TestEntry → TestEntry) :
    (modLedger s e f).time = s.time := by rfl
@[simp] theorem modLedger_panes (s : State) (e : Nat) (f : TestEntry → TestEntry) :
    (modLedger s e f).panes = s.panes := by rfl
@[simp] theorem modLedger_cells (s : State) (e : Nat) (f : TestEntry → TestEntry) :
    (modLedger s e f).cells = s.cells := by rfl
@[simp] theorem modLedger_groups (s : State) (e : Nat) (f : TestEntry → TestEntry) :
    (modLedger s e f).groups = s.groups := by rfl
@[simp] theorem modLedger_far (s : State) (e : Nat) (f : TestEntry → TestEntry) :
    (modLedger s e f).far = s.far := by rfl
@[simp] theorem modLedger_latches (s : State) (e : Nat) (f : TestEntry → TestEntry) :
    (modLedger s e f).latches = s.latches := by rfl
@[simp] theorem modLedger_ccr (s : State) (e : Nat) (f : TestEntry → TestEntry) :
    (modLedger s e f).ccr = s.ccr := by rfl
@[simp] theorem modLedger_links (s : State) (e : Nat) (f : TestEntry → TestEntry) :
    (modLedger s e f).links = s.links := by rfl
@[simp] theorem modLedger_collU (s : State) (e : Nat) (f : TestEntry → TestEntry) :
    (modLedger s e f).collU = s.collU := by rfl
@[simp] theorem modLedger_dk (s : State) (e : Nat) (f : TestEntry → TestEntry) :
    (modLedger s e f).dk = s.dk := by rfl
@[simp] theorem modLedger_faults (s : State) (e : Nat) (f : TestEntry → TestEntry) :
    (modLedger s e f).faults = s.faults := by rfl
@[simp] theorem modLedger_island (s : State) (e : Nat) (f : TestEntry → TestEntry) :
    (modLedger s e f).island = s.island := by rfl
@[simp] theorem modLedger_evrec (s : State) (e : Nat) (f : TestEntry → TestEntry) :
    (modLedger s e f).evrec = s.evrec := by rfl
@[simp] theorem modLedger_power (s : State) (e : Nat) (f : TestEntry → TestEntry) :
    (modLedger s e f).power = s.power := by rfl
@[simp] theorem modLedger_host (s : State) (e : Nat) (f : TestEntry → TestEntry) :
    (modLedger s e f).host = s.host := by rfl
@[simp] theorem modLedger_fm (s : State) (e : Nat) (f : TestEntry → TestEntry) :
    (modLedger s e f).fm = s.fm := by rfl
@[simp] theorem modLedger_store (s : State) (e : Nat) (f : TestEntry → TestEntry) :
    (modLedger s e f).store = s.store := by rfl
@[simp] theorem modLedger_free (s : State) (e : Nat) (f : TestEntry → TestEntry) :
    (modLedger s e f).free = s.free := by rfl
@[simp] theorem modLedger_pending (s : State) (e : Nat) (f : TestEntry → TestEntry) :
    (modLedger s e f).pending = s.pending := by rfl

/-! `modPower` -/

@[simp] theorem modPower_time (s : State) (f : PowerUnit → PowerUnit) :
    (modPower s f).time = s.time := by rfl
@[simp] theorem modPower_panes (s : State) (f : PowerUnit → PowerUnit) :
    (modPower s f).panes = s.panes := by rfl
@[simp] theorem modPower_cells (s : State) (f : PowerUnit → PowerUnit) :
    (modPower s f).cells = s.cells := by rfl
@[simp] theorem modPower_groups (s : State) (f : PowerUnit → PowerUnit) :
    (modPower s f).groups = s.groups := by rfl
@[simp] theorem modPower_far (s : State) (f : PowerUnit → PowerUnit) :
    (modPower s f).far = s.far := by rfl
@[simp] theorem modPower_latches (s : State) (f : PowerUnit → PowerUnit) :
    (modPower s f).latches = s.latches := by rfl
@[simp] theorem modPower_ccr (s : State) (f : PowerUnit → PowerUnit) :
    (modPower s f).ccr = s.ccr := by rfl
@[simp] theorem modPower_links (s : State) (f : PowerUnit → PowerUnit) :
    (modPower s f).links = s.links := by rfl
@[simp] theorem modPower_collU (s : State) (f : PowerUnit → PowerUnit) :
    (modPower s f).collU = s.collU := by rfl
@[simp] theorem modPower_dk (s : State) (f : PowerUnit → PowerUnit) :
    (modPower s f).dk = s.dk := by rfl
@[simp] theorem modPower_faults (s : State) (f : PowerUnit → PowerUnit) :
    (modPower s f).faults = s.faults := by rfl
@[simp] theorem modPower_test (s : State) (f : PowerUnit → PowerUnit) :
    (modPower s f).test = s.test := by rfl
@[simp] theorem modPower_island (s : State) (f : PowerUnit → PowerUnit) :
    (modPower s f).island = s.island := by rfl
@[simp] theorem modPower_evrec (s : State) (f : PowerUnit → PowerUnit) :
    (modPower s f).evrec = s.evrec := by rfl
@[simp] theorem modPower_host (s : State) (f : PowerUnit → PowerUnit) :
    (modPower s f).host = s.host := by rfl
@[simp] theorem modPower_fm (s : State) (f : PowerUnit → PowerUnit) :
    (modPower s f).fm = s.fm := by rfl
@[simp] theorem modPower_store (s : State) (f : PowerUnit → PowerUnit) :
    (modPower s f).store = s.store := by rfl
@[simp] theorem modPower_free (s : State) (f : PowerUnit → PowerUnit) :
    (modPower s f).free = s.free := by rfl
@[simp] theorem modPower_pending (s : State) (f : PowerUnit → PowerUnit) :
    (modPower s f).pending = s.pending := by rfl

/-! `setLine` -/

@[simp] theorem setLine_time (s : State) (n : Nat) (l : CcrLine) :
    (setLine s n l).time = s.time := by rfl
@[simp] theorem setLine_panes (s : State) (n : Nat) (l : CcrLine) :
    (setLine s n l).panes = s.panes := by rfl
@[simp] theorem setLine_cells (s : State) (n : Nat) (l : CcrLine) :
    (setLine s n l).cells = s.cells := by rfl
@[simp] theorem setLine_groups (s : State) (n : Nat) (l : CcrLine) :
    (setLine s n l).groups = s.groups := by rfl
@[simp] theorem setLine_far (s : State) (n : Nat) (l : CcrLine) :
    (setLine s n l).far = s.far := by rfl
@[simp] theorem setLine_latches (s : State) (n : Nat) (l : CcrLine) :
    (setLine s n l).latches = s.latches := by rfl
@[simp] theorem setLine_links (s : State) (n : Nat) (l : CcrLine) :
    (setLine s n l).links = s.links := by rfl
@[simp] theorem setLine_collU (s : State) (n : Nat) (l : CcrLine) :
    (setLine s n l).collU = s.collU := by rfl
@[simp] theorem setLine_dk (s : State) (n : Nat) (l : CcrLine) :
    (setLine s n l).dk = s.dk := by rfl
@[simp] theorem setLine_faults (s : State) (n : Nat) (l : CcrLine) :
    (setLine s n l).faults = s.faults := by rfl
@[simp] theorem setLine_test (s : State) (n : Nat) (l : CcrLine) :
    (setLine s n l).test = s.test := by rfl
@[simp] theorem setLine_island (s : State) (n : Nat) (l : CcrLine) :
    (setLine s n l).island = s.island := by rfl
@[simp] theorem setLine_evrec (s : State) (n : Nat) (l : CcrLine) :
    (setLine s n l).evrec = s.evrec := by rfl
@[simp] theorem setLine_power (s : State) (n : Nat) (l : CcrLine) :
    (setLine s n l).power = s.power := by rfl
@[simp] theorem setLine_host (s : State) (n : Nat) (l : CcrLine) :
    (setLine s n l).host = s.host := by rfl
@[simp] theorem setLine_fm (s : State) (n : Nat) (l : CcrLine) :
    (setLine s n l).fm = s.fm := by rfl
@[simp] theorem setLine_store (s : State) (n : Nat) (l : CcrLine) :
    (setLine s n l).store = s.store := by rfl
@[simp] theorem setLine_free (s : State) (n : Nat) (l : CcrLine) :
    (setLine s n l).free = s.free := by rfl
@[simp] theorem setLine_pending (s : State) (n : Nat) (l : CcrLine) :
    (setLine s n l).pending = s.pending := by rfl

/-! `setMsixByte` -/

@[simp] theorem setMsixByte_time (s : State) (fn : Nat) (o : Nat) (b : Byte) :
    (setMsixByte s fn o b).time = s.time := by rfl
@[simp] theorem setMsixByte_panes (s : State) (fn : Nat) (o : Nat) (b : Byte) :
    (setMsixByte s fn o b).panes = s.panes := by rfl
@[simp] theorem setMsixByte_cells (s : State) (fn : Nat) (o : Nat) (b : Byte) :
    (setMsixByte s fn o b).cells = s.cells := by rfl
@[simp] theorem setMsixByte_groups (s : State) (fn : Nat) (o : Nat) (b : Byte) :
    (setMsixByte s fn o b).groups = s.groups := by rfl
@[simp] theorem setMsixByte_far (s : State) (fn : Nat) (o : Nat) (b : Byte) :
    (setMsixByte s fn o b).far = s.far := by rfl
@[simp] theorem setMsixByte_latches (s : State) (fn : Nat) (o : Nat) (b : Byte) :
    (setMsixByte s fn o b).latches = s.latches := by rfl
@[simp] theorem setMsixByte_ccr (s : State) (fn : Nat) (o : Nat) (b : Byte) :
    (setMsixByte s fn o b).ccr = s.ccr := by rfl
@[simp] theorem setMsixByte_links (s : State) (fn : Nat) (o : Nat) (b : Byte) :
    (setMsixByte s fn o b).links = s.links := by rfl
@[simp] theorem setMsixByte_collU (s : State) (fn : Nat) (o : Nat) (b : Byte) :
    (setMsixByte s fn o b).collU = s.collU := by rfl
@[simp] theorem setMsixByte_dk (s : State) (fn : Nat) (o : Nat) (b : Byte) :
    (setMsixByte s fn o b).dk = s.dk := by rfl
@[simp] theorem setMsixByte_faults (s : State) (fn : Nat) (o : Nat) (b : Byte) :
    (setMsixByte s fn o b).faults = s.faults := by rfl
@[simp] theorem setMsixByte_test (s : State) (fn : Nat) (o : Nat) (b : Byte) :
    (setMsixByte s fn o b).test = s.test := by rfl
@[simp] theorem setMsixByte_island (s : State) (fn : Nat) (o : Nat) (b : Byte) :
    (setMsixByte s fn o b).island = s.island := by rfl
@[simp] theorem setMsixByte_evrec (s : State) (fn : Nat) (o : Nat) (b : Byte) :
    (setMsixByte s fn o b).evrec = s.evrec := by rfl
@[simp] theorem setMsixByte_power (s : State) (fn : Nat) (o : Nat) (b : Byte) :
    (setMsixByte s fn o b).power = s.power := by rfl
@[simp] theorem setMsixByte_fm (s : State) (fn : Nat) (o : Nat) (b : Byte) :
    (setMsixByte s fn o b).fm = s.fm := by rfl
@[simp] theorem setMsixByte_store (s : State) (fn : Nat) (o : Nat) (b : Byte) :
    (setMsixByte s fn o b).store = s.store := by rfl
@[simp] theorem setMsixByte_free (s : State) (fn : Nat) (o : Nat) (b : Byte) :
    (setMsixByte s fn o b).free = s.free := by rfl
@[simp] theorem setMsixByte_pending (s : State) (fn : Nat) (o : Nat) (b : Byte) :
    (setMsixByte s fn o b).pending = s.pending := by rfl

/-! `setWin` -/

@[simp] theorem setWin_time (s : State) (key : Nat) (c : WinCount) :
    (setWin s key c).time = s.time := by rfl
@[simp] theorem setWin_panes (s : State) (key : Nat) (c : WinCount) :
    (setWin s key c).panes = s.panes := by rfl
@[simp] theorem setWin_cells (s : State) (key : Nat) (c : WinCount) :
    (setWin s key c).cells = s.cells := by rfl
@[simp] theorem setWin_groups (s : State) (key : Nat) (c : WinCount) :
    (setWin s key c).groups = s.groups := by rfl
@[simp] theorem setWin_far (s : State) (key : Nat) (c : WinCount) :
    (setWin s key c).far = s.far := by rfl
@[simp] theorem setWin_latches (s : State) (key : Nat) (c : WinCount) :
    (setWin s key c).latches = s.latches := by rfl
@[simp] theorem setWin_ccr (s : State) (key : Nat) (c : WinCount) :
    (setWin s key c).ccr = s.ccr := by rfl
@[simp] theorem setWin_links (s : State) (key : Nat) (c : WinCount) :
    (setWin s key c).links = s.links := by rfl
@[simp] theorem setWin_collU (s : State) (key : Nat) (c : WinCount) :
    (setWin s key c).collU = s.collU := by rfl
@[simp] theorem setWin_dk (s : State) (key : Nat) (c : WinCount) :
    (setWin s key c).dk = s.dk := by rfl
@[simp] theorem setWin_test (s : State) (key : Nat) (c : WinCount) :
    (setWin s key c).test = s.test := by rfl
@[simp] theorem setWin_island (s : State) (key : Nat) (c : WinCount) :
    (setWin s key c).island = s.island := by rfl
@[simp] theorem setWin_evrec (s : State) (key : Nat) (c : WinCount) :
    (setWin s key c).evrec = s.evrec := by rfl
@[simp] theorem setWin_power (s : State) (key : Nat) (c : WinCount) :
    (setWin s key c).power = s.power := by rfl
@[simp] theorem setWin_host (s : State) (key : Nat) (c : WinCount) :
    (setWin s key c).host = s.host := by rfl
@[simp] theorem setWin_fm (s : State) (key : Nat) (c : WinCount) :
    (setWin s key c).fm = s.fm := by rfl
@[simp] theorem setWin_store (s : State) (key : Nat) (c : WinCount) :
    (setWin s key c).store = s.store := by rfl
@[simp] theorem setWin_free (s : State) (key : Nat) (c : WinCount) :
    (setWin s key c).free = s.free := by rfl
@[simp] theorem setWin_pending (s : State) (key : Nat) (c : WinCount) :
    (setWin s key c).pending = s.pending := by rfl

end Sys2Proof.Machine
end

