-- ==== Sys2Proof/Laws/Ccr.lean ====
section
/-! SUPPORT. Outside its own commands, the Coherent Control Region changes only when the hub's memories are cleared or a
shutter zeroes a pane's window table: one lemma per function, an equality where the function cannot reach such a
clearing. -/

section

set_option linter.unusedVariables false
set_option linter.unusedSimpArgs false
set_option linter.unnecessarySimpa false
set_option linter.unusedTactic false
set_option linter.unreachableTactic false

namespace Sys2Proof.Machine

@[simp] theorem foldl_ccr {α : Type} (f : State → α → State) (hf : ∀ s a, (f s a).ccr = s.ccr) (l : List α)
    (s : State) : (l.foldl f s).ccr = s.ccr := by
  induction l generalizing s with
  | nil => rfl
  | cons a l ih => rw [List.foldl_cons, ih, hf]

@[simp] theorem ite_ccr (c : Prop) [Decidable c] (a b : State) : (if c then a else b).ccr = if c then a.ccr else b.ccr := by
  split <;> rfl

theorem ccrOr_trans {s t u : State} (h : t.ccr = s.ccr ∨ t.ccr = []) (k : u.ccr = t.ccr ∨ u.ccr = []) :
    u.ccr = s.ccr ∨ u.ccr = [] := by
  rcases k with k | k
  · rcases h with h | h
    · exact .inl (k.trans h)
    · exact .inr (k.trans h)
  · exact .inr k

theorem foldl_ccrOr {α : Type} (f : State → α → State) (hf : ∀ s a, (f s a).ccr = s.ccr ∨ (f s a).ccr = []) (l : List α)
    (s : State) : (l.foldl f s).ccr = s.ccr ∨ (l.foldl f s).ccr = [] := by
  induction l generalizing s with
  | nil => exact .inl rfl
  | cons a l ih => exact ccrOr_trans (hf s a) (ih (f s a))

@[simp] theorem modPanes_ccr (s : State) (a1 : BitVec 16) (a2 : Nat → Pane → Pane) :
    (modPanes s a1 a2).ccr = s.ccr := by
  simp [modPanes]

@[simp] theorem modCells_ccr (s : State) (a1 : Nat) (a2 : Cell → Cell) :
    (modCells s a1 a2).ccr = s.ccr := by
  simp [modCells]

@[simp] theorem scramble_ccr (s : State) (a1 : Nat) (a2 : Nat) (a3 : Nat) :
    (scramble s a1 a2 a3).ccr = s.ccr := by
  simp [scramble]

@[simp] theorem deliver_ccr (s : State) (a1 : Event) :
    (deliver s a1).ccr = s.ccr := by
  simp [deliver]

@[simp] theorem record_ccr (s : State) (a1 : Nat) (a2 : Nat) (a3 : Nat) (a4 : List Byte) :
    (record s a1 a2 a3 a4).ccr = s.ccr := by
  simp [record]

@[simp] theorem msix_ccr (s : State) (a1 : Nat) (a2 : Nat) :
    (msix s a1 a2).ccr = s.ccr := by
  simp [msix]

@[simp] theorem queueNotice_ccr (s : State) (a1 : Nat) (a2 : Nat) (a3 : BitVec 32) (a4 : BitVec 16) (a5 : Nat) (a6 : Nat) (a7 : Nat) :
    (queueNotice s a1 a2 a3 a4 a5 a6 a7).ccr = s.ccr := by
  simp [queueNotice]

@[simp] theorem modMeter_ccr (s : State) (a1 : Nat) (a2 : Meter → Meter) :
    (modMeter s a1 a2).ccr = s.ccr := by
  unfold modMeter
  dsimp only
  repeat' split
  all_goals simp

@[simp] theorem meterRefusal_ccr (s : State) (a1 : Nat) :
    (meterRefusal s a1).ccr = s.ccr := by
  simp [meterRefusal]

@[simp] theorem meterTorus_ccr (s : State) (a1 : Nat) (a2 : Nat) :
    (meterTorus s a1 a2).ccr = s.ccr := by
  simp [meterTorus]

@[simp] theorem meterEth_ccr (s : State) (a1 : Nat) (a2 : Nat) :
    (meterEth s a1 a2).ccr = s.ccr := by
  simp [meterEth]

@[simp] theorem islandPass_ccr (s : State) (a1 : Nat) :
    (islandPass s a1).ccr = s.ccr := by
  simp [islandPass]

@[simp] theorem idleTick_ccr (s : State) :
    (idleTick s).ccr = s.ccr := by
  simp [idleTick]

theorem sealFrame_ccr (s : State) (p : Nat) (h : SlotHdr) (d : List Byte) (r : State × List Byte)
    (e : sealFrame s p h d = some r) : r.1.ccr = s.ccr := by
  simp only [sealFrame, Option.map_eq_some_iff] at e
  obtain ⟨k, -, rfl⟩ := e
  simp

@[simp] theorem queueParcel_ccr (s : State) (p : Parcel) :
    (queueParcel s p).ccr = s.ccr := by
  unfold queueParcel
  split <;> simp

@[simp] theorem sendParcel_ccr (s : State) (a1 : Parcel) :
    (sendParcel s a1).ccr = s.ccr := by
  unfold sendParcel
  split <;> simp

@[simp] theorem sendMgmt_ccr (s : State) (a1 : BitVec 16) (a2 : List Byte) :
    (sendMgmt s a1 a2).ccr = s.ccr := by
  simp [sendMgmt]

@[simp] theorem pushSb_ccr (s : State) (a1 : SbReply) :
    (pushSb s a1).ccr = s.ccr := by
  simp [pushSb]

@[simp] theorem sbReply_ccr (s : State) (a1 : BitVec 16) (a2 : FmFragment) :
    (sbReply s a1 a2).ccr = s.ccr := by
  simp [sbReply]

@[simp] theorem fmReplyTo_ccr (s : State) (a1 : Option (BitVec 16)) (a2 : BitVec 32) (a3 : List Byte) :
    (fmReplyTo s a1 a2 a3).ccr = s.ccr := by
  unfold fmReplyTo
  split <;> simp

@[simp] theorem finish_ccr (s : State) (a1 : Nat) (a2 : Reply) :
    (finish s a1 a2).ccr = s.ccr := by
  unfold finish
  dsimp only
  repeat' split
  all_goals simp

@[simp] theorem orphanWork_ccr (s : State) (a1 : Nat) :
    (orphanWork s a1).ccr = s.ccr := by
  simp [orphanWork]

@[simp] theorem spoilFar_ccr (s : State) (o ofs n : Nat) :
    (spoilFar s o ofs n).ccr = s.ccr := by
  simp [spoilFar]

@[simp] theorem leaveUndefined_ccr (s : State) (j : Job) :
    (leaveUndefined s j).ccr = s.ccr := by
  unfold leaveUndefined
  dsimp only
  repeat' split
  all_goals simp

@[simp] theorem endNow_ccr (s : State) (a1 : Nat) (a2 : Ans) :
    (endNow s a1 a2).ccr = s.ccr := by
  unfold endNow
  split <;> simp

@[simp] theorem decideJob_ccr (s : State) (a1 : Nat) (a2 : Ans) :
    (decideJob s a1 a2).ccr = s.ccr := by
  simp [decideJob]

@[simp] theorem decideJobs_ccr (s : State) (a1 : Job → Bool) (a2 : Ans) :
    (decideJobs s a1 a2).ccr = s.ccr := by
  simp [decideJobs]

@[simp] theorem chargeRefusal_ccr (s : State) (a1 : Nat) :
    (chargeRefusal s a1).ccr = s.ccr := by
  simp [chargeRefusal]

@[simp] theorem abortLocked_ccr (s : State) (a1 : BitVec 16) (a2 : Nat) (a3 : Job → Bool) :
    (abortLocked s a1 a2 a3).ccr = s.ccr := by
  simp [abortLocked]

@[simp] theorem endEscape_ccr (s : State) (a1 : Ans) :
    (endEscape s a1).ccr = s.ccr := by
  unfold endEscape
  split <;> simp

@[simp] theorem endEscapeIf_ccr (s : State) (a1 : Job → Bool) (a2 : Ans) :
    (endEscapeIf s a1 a2).ccr = s.ccr := by
  unfold endEscapeIf
  split <;> simp

@[simp] theorem abortForEvent_ccr (s : State) (a1 : Nat) :
    (abortForEvent s a1).ccr = s.ccr := by
  simp [abortForEvent]

@[simp] theorem warnGroups_ccr (s : State) (a1 : Nat) (a2 : Nat) :
    (warnGroups s a1 a2).ccr = s.ccr := by
  simp [warnGroups]

@[simp] theorem raiseWarning_ccr (s : State) (a1 : Nat) (a2 : Nat) :
    (raiseWarning s a1 a2).ccr = s.ccr := by
  simp [raiseWarning]

@[simp] theorem noteDeclared_ccr (s : State) (a1 : Nat) (a2 : Nat) :
    (noteDeclared s a1 a2).ccr = s.ccr := by
  simp [noteDeclared]

@[simp] theorem tellDeclared_ccr (s : State) (a1 : Nat) (a2 : Nat) :
    (tellDeclared s a1 a2).ccr = s.ccr := by
  simp [tellDeclared]

@[simp] theorem declareFaulty_ccr (s : State) (a1 : Nat) (a2 : Nat) :
    (declareFaulty s a1 a2).ccr = s.ccr := by
  simp [declareFaulty]

@[simp] theorem countError_ccr (s : State) (a1 : Nat) (a2 : Nat) (a3 : Nat) :
    (countError s a1 a2 a3).1.ccr = s.ccr := by
  unfold countError
  dsimp only
  repeat' split
  all_goals simp

@[simp] theorem askTeardown_ccr (s : State) (a1 : Nat) (a2 : Nat) (a3 : Bool) :
    (askTeardown s a1 a2 a3).ccr = s.ccr := by
  simp [askTeardown]

@[simp] theorem setCtxFault_ccr (s : State) (a1 : Nat) (a2 : Nat) (a3 : Nat) (a4 : Nat) :
    (setCtxFault s a1 a2 a3 a4).ccr = s.ccr := by
  simp [setCtxFault]

@[simp] theorem contextFault_ccr (s : State) (a1 : Nat) (a2 : Nat) (a3 : Nat) (a4 : Nat) (a5 : Nat) (a6 : Nat) :
    (contextFault s a1 a2 a3 a4 a5 a6).ccr = s.ccr := by
  simp [contextFault]

@[simp] theorem cellFault_ccr (s : State) (a1 : Nat) (a2 : Nat) (a3 : Nat) (a4 : Nat) (a5 : Nat) :
    (cellFault s a1 a2 a3 a4 a5).ccr = s.ccr := by
  simp [cellFault]

@[simp] theorem nearWrite_ccr (s : State) (a1 : Nat) (a2 : Nat) (a3 : List Byte) :
    (nearWrite s a1 a2 a3).ccr = s.ccr := by
  simp [nearWrite]

@[simp] theorem goOutOfService_ccr (s : State) (a1 : Nat) :
    (goOutOfService s a1).ccr = s.ccr := by
  simp [goOutOfService]

@[simp] theorem dropCount_ccr (s : State) (a1 : Nat) (a2 : Nat) :
    (dropCount s a1 a2).ccr = s.ccr := by
  simp [dropCount]

@[simp] theorem substCell_ccr (s : State) (a1 : Nat) (a2 : Nat) :
    (substCell s a1 a2).ccr = s.ccr := by
  unfold substCell
  dsimp only
  repeat' split
  all_goals simp

@[simp] theorem retireCell_ccr (s : State) (a1 : Nat) (a2 : Nat) (a3 : Bool) :
    (retireCell s a1 a2 a3).ccr = s.ccr := by
  simp [retireCell]

@[simp] theorem losePc_ccr (s : State) (p l pc : Nat) :
    (losePc s p l pc).ccr = s.ccr := by
  simp [losePc]

@[simp] theorem substPc_ccr (s : State) (a1 : Nat) (a2 : Nat) (a3 : Bool) :
    (substPc s a1 a2 a3).ccr = s.ccr := by
  unfold substPc
  dsimp only
  repeat' split
  all_goals simp

@[simp] theorem retirePc_ccr (s : State) (a1 : Nat) (a2 : Nat) (a3 : Bool) :
    (retirePc s a1 a2 a3).ccr = s.ccr := by
  simp [retirePc]

@[simp] theorem releaseDue_ccr (s : State) (a1 : Nat) :
    (releaseDue s a1).ccr = s.ccr := by
  simp [releaseDue]

@[simp] theorem nearCorrected_ccr (s : State) (a1 : Nat) (a2 : Nat) :
    (nearCorrected s a1 a2).ccr = s.ccr := by
  simp [nearCorrected]

@[simp] theorem nearUncorrectable_ccr (s : State) (a1 : Nat) (a2 : Nat) :
    (nearUncorrectable s a1 a2).ccr = s.ccr := by
  simp [nearUncorrectable]

@[simp] theorem nearFirst_ccr (s : State) (a1 : Nat) (a2 : Nat) (a3 : Bool) (a4 : Ecc) :
    (nearFirst s a1 a2 a3 a4).1.ccr = s.ccr := by
  unfold nearFirst
  repeat' split
  all_goals simp

@[simp] theorem cellEcc_ccr (s : State) (a1 : Nat) (a2 : Nat) (a3 : Ecc) :
    (cellEcc s a1 a2 a3).ccr = s.ccr := by
  unfold cellEcc
  split <;> simp

theorem execNearReadRetry_ccr (p : Pane16) (line : BitVec 30) (second : Ecc) (s : State) (t : State) (h : execNearReadRetry p line second s = .next t) :
    t.ccr = s.ccr := by
  unfold execNearReadRetry at h
  repeat' split at h
  all_goals cases h
  all_goals simp

theorem execSpareTakeoverDone_ccr (a0 : Pane16) (s : State) (t : State) (h : execSpareTakeoverDone a0 s = .next t) :
    t.ccr = s.ccr := by
  unfold execSpareTakeoverDone at h
  split at h <;> cases h <;> simp

theorem execRefreshShadow_ccr (a0 : Pane16) (a1 : Fin 4) (s : State) (t : State) (h : execRefreshShadow a0 a1 s = .next t) :
    t.ccr = s.ccr := by
  simp only [execRefreshShadow, Host.Outcome.next.injEq] at h
  simp [← h]

theorem execScrubBurst_ccr (a0 : Pane16) (a1 : BitVec 30) (a2 : Ecc) (s : State) (t : State) (h : execScrubBurst a0 a1 a2 s = .next t) :
    t.ccr = s.ccr := by
  unfold execScrubBurst at h
  split at h <;> cases h <;> simp

theorem execPcCopyDone_ccr (a0 : Pane16) (s : State) (t : State) (h : execPcCopyDone a0 s = .next t) :
    t.ccr = s.ccr := by
  unfold execPcCopyDone at h
  split at h <;> cases h <;> simp

@[simp] theorem addFlags_ccr (s : State) (a1 : Nat) (a2 : Nat) (a3 : Nat) :
    (addFlags s a1 a2 a3).ccr = s.ccr := by
  simp [addFlags]

@[simp] theorem landOut_ccr (s : State) (a1 : Nat) (a2 : Nat) (a3 : Nat) (a4 : CellOut) :
    (landOut s a1 a2 a3 a4).ccr = s.ccr := by
  unfold landOut
  split <;> simp

@[simp] theorem issueWith_ccr (row : Nat → Bool) (act : State → Nat → Nat → Nat → State)
    (ha : ∀ s p l w, (act s p l w).ccr = s.ccr) (s : State) (p l : Nat) : (issueWith row act s p l).ccr = s.ccr := by
  unfold issueWith
  (try dsimp only)
  (repeat' split) <;> simp [ha]

@[simp] theorem actCell_ccr (a0 : Nat → Cell → CellOut) (s : State) (a2 : Nat) (a3 : Nat) (a4 : Nat) :
    (actCell a0 s a2 a3 a4).ccr = s.ccr := by
  simp [actCell]

@[simp] theorem actRead_ccr (a0 : Nat → Nat → Cell → CellOut) (s : State) (a2 : Nat) (a3 : Nat) (a4 : Nat) :
    (actRead a0 s a2 a3 a4).ccr = s.ccr := by
  simp [actRead]

theorem execNop_ccr (a0 : Pane16) (a1 : LCell) (s : State) (t : State) (h : execNop a0 a1 s = .next t) :
    t.ccr = s.ccr := by
  simp only [execNop, Host.Outcome.next.injEq] at h
  simp [← h]

theorem execLoop_ccr (a0 : Pane16) (a1 : LCell) (s : State) (t : State) (h : execLoop a0 a1 s = .next t) :
    t.ccr = s.ccr := by
  simp only [execLoop, Host.Outcome.next.injEq] at h
  simp [← h]

theorem execEndloop_ccr (a0 : Pane16) (a1 : LCell) (s : State) (t : State) (h : execEndloop a0 a1 s = .next t) :
    t.ccr = s.ccr := by
  simp only [execEndloop, Host.Outcome.next.injEq] at h
  simp [← h]

theorem execSkip_ccr (a0 : Pane16) (a1 : LCell) (s : State) (t : State) (h : execSkip a0 a1 s = .next t) :
    t.ccr = s.ccr := by
  simp only [execSkip, Host.Outcome.next.injEq] at h
  simp [← h]

theorem execPset_ccr (a0 : Pane16) (a1 : LCell) (s : State) (t : State) (h : execPset a0 a1 s = .next t) :
    t.ccr = s.ccr := by
  simp only [execPset, Host.Outcome.next.injEq] at h
  simp [← h]

theorem execEndBlock_ccr (a0 : Pane16) (a1 : LCell) (s : State) (t : State) (h : execEndBlock a0 a1 s = .next t) :
    t.ccr = s.ccr := by
  simp only [execEndBlock, Host.Outcome.next.injEq] at h
  simp [← h]

theorem execScalarAdd_ccr (a0 : Pane16) (a1 : LCell) (s : State) (t : State) (h : execScalarAdd a0 a1 s = .next t) :
    t.ccr = s.ccr := by
  simp only [execScalarAdd, Host.Outcome.next.injEq] at h
  simp [← h]

theorem execScalarSubtract_ccr (a0 : Pane16) (a1 : LCell) (s : State) (t : State) (h : execScalarSubtract a0 a1 s = .next t) :
    t.ccr = s.ccr := by
  simp only [execScalarSubtract, Host.Outcome.next.injEq] at h
  simp [← h]

theorem execScalarAnd_ccr (a0 : Pane16) (a1 : LCell) (s : State) (t : State) (h : execScalarAnd a0 a1 s = .next t) :
    t.ccr = s.ccr := by
  simp only [execScalarAnd, Host.Outcome.next.injEq] at h
  simp [← h]

theorem execScalarOr_ccr (a0 : Pane16) (a1 : LCell) (s : State) (t : State) (h : execScalarOr a0 a1 s = .next t) :
    t.ccr = s.ccr := by
  simp only [execScalarOr, Host.Outcome.next.injEq] at h
  simp [← h]

theorem execScalarXor_ccr (a0 : Pane16) (a1 : LCell) (s : State) (t : State) (h : execScalarXor a0 a1 s = .next t) :
    t.ccr = s.ccr := by
  simp only [execScalarXor, Host.Outcome.next.injEq] at h
  simp [← h]

theorem execScalarShiftLeft_ccr (a0 : Pane16) (a1 : LCell) (s : State) (t : State) (h : execScalarShiftLeft a0 a1 s = .next t) :
    t.ccr = s.ccr := by
  simp only [execScalarShiftLeft, Host.Outcome.next.injEq] at h
  simp [← h]

theorem execScalarShiftRightLogical_ccr (a0 : Pane16) (a1 : LCell) (s : State) (t : State) (h : execScalarShiftRightLogical a0 a1 s = .next t) :
    t.ccr = s.ccr := by
  simp only [execScalarShiftRightLogical, Host.Outcome.next.injEq] at h
  simp [← h]

theorem execScalarShiftRightArith_ccr (a0 : Pane16) (a1 : LCell) (s : State) (t : State) (h : execScalarShiftRightArith a0 a1 s = .next t) :
    t.ccr = s.ccr := by
  simp only [execScalarShiftRightArith, Host.Outcome.next.injEq] at h
  simp [← h]

theorem execScalarMultiply_ccr (a0 : Pane16) (a1 : LCell) (s : State) (t : State) (h : execScalarMultiply a0 a1 s = .next t) :
    t.ccr = s.ccr := by
  simp only [execScalarMultiply, Host.Outcome.next.injEq] at h
  simp [← h]

theorem execScalarSetIfLessSigned_ccr (a0 : Pane16) (a1 : LCell) (s : State) (t : State) (h : execScalarSetIfLessSigned a0 a1 s = .next t) :
    t.ccr = s.ccr := by
  simp only [execScalarSetIfLessSigned, Host.Outcome.next.injEq] at h
  simp [← h]

theorem execScalarSetIfLessUnsigned_ccr (a0 : Pane16) (a1 : LCell) (s : State) (t : State) (h : execScalarSetIfLessUnsigned a0 a1 s = .next t) :
    t.ccr = s.ccr := by
  simp only [execScalarSetIfLessUnsigned, Host.Outcome.next.injEq] at h
  simp [← h]

theorem execScalarSetIfEqual_ccr (a0 : Pane16) (a1 : LCell) (s : State) (t : State) (h : execScalarSetIfEqual a0 a1 s = .next t) :
    t.ccr = s.ccr := by
  simp only [execScalarSetIfEqual, Host.Outcome.next.injEq] at h
  simp [← h]

theorem execScalarMove_ccr (a0 : Pane16) (a1 : LCell) (s : State) (t : State) (h : execScalarMove a0 a1 s = .next t) :
    t.ccr = s.ccr := by
  simp only [execScalarMove, Host.Outcome.next.injEq] at h
  simp [← h]

theorem execScalarLoad_ccr (a0 : Pane16) (a1 : LCell) (s : State) (t : State) (h : execScalarLoad a0 a1 s = .next t) :
    t.ccr = s.ccr := by
  simp only [execScalarLoad, Host.Outcome.next.injEq] at h
  simp [← h]

theorem execScalarStore_ccr (a0 : Pane16) (a1 : LCell) (s : State) (t : State) (h : execScalarStore a0 a1 s = .next t) :
    t.ccr = s.ccr := by
  simp only [execScalarStore, Host.Outcome.next.injEq] at h
  simp [← h]

theorem execVmemLoad_ccr (a0 : Pane16) (a1 : LCell) (a2 : Ecc) (s : State) (t : State) (h : execVmemLoad a0 a1 a2 s = .next t) :
    t.ccr = s.ccr := by
  unfold execVmemLoad at h
  split at h <;> cases h <;> simp

theorem execVmemStore_ccr (a0 : Pane16) (a1 : LCell) (s : State) (t : State) (h : execVmemStore a0 a1 s = .next t) :
    t.ccr = s.ccr := by
  simp only [execVmemStore, Host.Outcome.next.injEq] at h
  simp [← h]

theorem execStridedLoad_ccr (a0 : Pane16) (a1 : LCell) (s : State) (t : State) (h : execStridedLoad a0 a1 s = .next t) :
    t.ccr = s.ccr := by
  simp only [execStridedLoad, Host.Outcome.next.injEq] at h
  simp [← h]

theorem execStridedStore_ccr (a0 : Pane16) (a1 : LCell) (s : State) (t : State) (h : execStridedStore a0 a1 s = .next t) :
    t.ccr = s.ccr := by
  simp only [execStridedStore, Host.Outcome.next.injEq] at h
  simp [← h]

theorem execLocalGather_ccr (a0 : Pane16) (a1 : LCell) (s : State) (t : State) (h : execLocalGather a0 a1 s = .next t) :
    t.ccr = s.ccr := by
  simp only [execLocalGather, Host.Outcome.next.injEq] at h
  simp [← h]

theorem execLdsplit_ccr (a0 : Pane16) (a1 : LCell) (s : State) (t : State) (h : execLdsplit a0 a1 s = .next t) :
    t.ccr = s.ccr := by
  simp only [execLdsplit, Host.Outcome.next.injEq] at h
  simp [← h]

theorem execStsplit_ccr (a0 : Pane16) (a1 : LCell) (s : State) (t : State) (h : execStsplit a0 a1 s = .next t) :
    t.ccr = s.ccr := by
  simp only [execStsplit, Host.Outcome.next.injEq] at h
  simp [← h]

theorem execVopAdd_ccr (a0 : Pane16) (a1 : LCell) (s : State) (t : State) (h : execVopAdd a0 a1 s = .next t) :
    t.ccr = s.ccr := by
  simp only [execVopAdd, Host.Outcome.next.injEq] at h
  simp [← h]

theorem execVopSubtract_ccr (a0 : Pane16) (a1 : LCell) (s : State) (t : State) (h : execVopSubtract a0 a1 s = .next t) :
    t.ccr = s.ccr := by
  simp only [execVopSubtract, Host.Outcome.next.injEq] at h
  simp [← h]

theorem execVopMultiply_ccr (a0 : Pane16) (a1 : LCell) (s : State) (t : State) (h : execVopMultiply a0 a1 s = .next t) :
    t.ccr = s.ccr := by
  simp only [execVopMultiply, Host.Outcome.next.injEq] at h
  simp [← h]

theorem execFusedMultiplyAdd_ccr (a0 : Pane16) (a1 : LCell) (s : State) (t : State) (h : execFusedMultiplyAdd a0 a1 s = .next t) :
    t.ccr = s.ccr := by
  simp only [execFusedMultiplyAdd, Host.Outcome.next.injEq] at h
  simp [← h]

theorem execVopMinimum_ccr (a0 : Pane16) (a1 : LCell) (s : State) (t : State) (h : execVopMinimum a0 a1 s = .next t) :
    t.ccr = s.ccr := by
  simp only [execVopMinimum, Host.Outcome.next.injEq] at h
  simp [← h]

theorem execVopMaximum_ccr (a0 : Pane16) (a1 : LCell) (s : State) (t : State) (h : execVopMaximum a0 a1 s = .next t) :
    t.ccr = s.ccr := by
  simp only [execVopMaximum, Host.Outcome.next.injEq] at h
  simp [← h]

theorem execCompareEqual_ccr (a0 : Pane16) (a1 : LCell) (s : State) (t : State) (h : execCompareEqual a0 a1 s = .next t) :
    t.ccr = s.ccr := by
  simp only [execCompareEqual, Host.Outcome.next.injEq] at h
  simp [← h]

theorem execCompareLess_ccr (a0 : Pane16) (a1 : LCell) (s : State) (t : State) (h : execCompareLess a0 a1 s = .next t) :
    t.ccr = s.ccr := by
  simp only [execCompareLess, Host.Outcome.next.injEq] at h
  simp [← h]

theorem execCompareLessOrEqual_ccr (a0 : Pane16) (a1 : LCell) (s : State) (t : State) (h : execCompareLessOrEqual a0 a1 s = .next t) :
    t.ccr = s.ccr := by
  simp only [execCompareLessOrEqual, Host.Outcome.next.injEq] at h
  simp [← h]

theorem execConvert_ccr (a0 : Pane16) (a1 : LCell) (s : State) (t : State) (h : execConvert a0 a1 s = .next t) :
    t.ccr = s.ccr := by
  simp only [execConvert, Host.Outcome.next.injEq] at h
  simp [← h]

theorem execVopMove_ccr (a0 : Pane16) (a1 : LCell) (s : State) (t : State) (h : execVopMove a0 a1 s = .next t) :
    t.ccr = s.ccr := by
  simp only [execVopMove, Host.Outcome.next.injEq] at h
  simp [← h]

theorem execExp2_ccr (a0 : Pane16) (a1 : LCell) (s : State) (t : State) (h : execExp2 a0 a1 s = .next t) :
    t.ccr = s.ccr := by
  simp only [execExp2, Host.Outcome.next.injEq] at h
  simp [← h]

theorem execLog2_ccr (a0 : Pane16) (a1 : LCell) (s : State) (t : State) (h : execLog2 a0 a1 s = .next t) :
    t.ccr = s.ccr := by
  simp only [execLog2, Host.Outcome.next.injEq] at h
  simp [← h]

theorem execRcp_ccr (a0 : Pane16) (a1 : LCell) (s : State) (t : State) (h : execRcp a0 a1 s = .next t) :
    t.ccr = s.ccr := by
  simp only [execRcp, Host.Outcome.next.injEq] at h
  simp [← h]

theorem execRsqrt_ccr (a0 : Pane16) (a1 : LCell) (s : State) (t : State) (h : execRsqrt a0 a1 s = .next t) :
    t.ccr = s.ccr := by
  simp only [execRsqrt, Host.Outcome.next.injEq] at h
  simp [← h]

theorem execLaneSum_ccr (a0 : Pane16) (a1 : LCell) (s : State) (t : State) (h : execLaneSum a0 a1 s = .next t) :
    t.ccr = s.ccr := by
  simp only [execLaneSum, Host.Outcome.next.injEq] at h
  simp [← h]

theorem execLaneMaximum_ccr (a0 : Pane16) (a1 : LCell) (s : State) (t : State) (h : execLaneMaximum a0 a1 s = .next t) :
    t.ccr = s.ccr := by
  simp only [execLaneMaximum, Host.Outcome.next.injEq] at h
  simp [← h]

theorem execRng_ccr (a0 : Pane16) (a1 : LCell) (s : State) (t : State) (h : execRng a0 a1 s = .next t) :
    t.ccr = s.ccr := by
  simp only [execRng, Host.Outcome.next.injEq] at h
  simp [← h]

theorem execReservedClass_ccr (a0 : Pane16) (a1 : LCell) (s : State) (t : State) (h : execReservedClass a0 a1 s = .next t) :
    t.ccr = s.ccr := by
  simp only [execReservedClass, Host.Outcome.next.injEq] at h
  simp [← h]

theorem execIssuePastProgram_ccr (a0 : Pane16) (a1 : LCell) (s : State) (t : State) (h : execIssuePastProgram a0 a1 s = .next t) :
    t.ccr = s.ccr := by
  unfold execIssuePastProgram at h
  dsimp only at h
  repeat' split at h
  all_goals simp only [Host.Outcome.next.injEq] at h
  all_goals subst h
  all_goals simp

theorem execTmm_ccr (a0 : Pane16) (a1 : LCell) (s : State) (t : State) (h : execTmm a0 a1 s = .next t) :
    t.ccr = s.ccr := by
  simp only [execTmm, Host.Outcome.next.injEq] at h
  simp [← h]

theorem execTmmComplete_ccr (a0 : Pane16) (a1 : LCell) (a2 : BitVec 6) (s : State) (t : State) (h : execTmmComplete a0 a1 a2 s = .next t) :
    t.ccr = s.ccr := by
  unfold execTmmComplete at h
  dsimp only at h
  repeat' split at h
  all_goals simp only [Host.Outcome.next.injEq] at h
  all_goals subst h
  all_goals simp

theorem execTdrain_ccr (a0 : Pane16) (a1 : LCell) (s : State) (t : State) (h : execTdrain a0 a1 s = .next t) :
    t.ccr = s.ccr := by
  simp only [execTdrain, Host.Outcome.next.injEq] at h
  simp [← h]

theorem execTdrainComplete_ccr (a0 : Pane16) (a1 : LCell) (a2 : BitVec 6) (s : State) (t : State) (h : execTdrainComplete a0 a1 a2 s = .next t) :
    t.ccr = s.ccr := by
  unfold execTdrainComplete at h
  dsimp only at h
  repeat' split at h
  all_goals simp only [Host.Outcome.next.injEq] at h
  all_goals subst h
  all_goals simp

theorem execNearTierLoad_ccr (a0 : Pane16) (a1 : LCell) (s : State) (t : State) (h : execNearTierLoad a0 a1 s = .next t) :
    t.ccr = s.ccr := by
  simp only [execNearTierLoad, Host.Outcome.next.injEq] at h
  simp [← h]

theorem execNearTierStore_ccr (a0 : Pane16) (a1 : LCell) (s : State) (t : State) (h : execNearTierStore a0 a1 s = .next t) :
    t.ccr = s.ccr := by
  simp only [execNearTierStore, Host.Outcome.next.injEq] at h
  simp [← h]

theorem execLocalMove_ccr (a0 : Pane16) (a1 : LCell) (s : State) (t : State) (h : execLocalMove a0 a1 s = .next t) :
    t.ccr = s.ccr := by
  simp only [execLocalMove, Host.Outcome.next.injEq] at h
  simp [← h]

theorem execExchange_ccr (a0 : Pane16) (a1 : LCell) (s : State) (t : State) (h : execExchange a0 a1 s = .next t) :
    t.ccr = s.ccr := by
  simp only [execExchange, Host.Outcome.next.injEq] at h
  simp [← h]

theorem execNearTierGather_ccr (a0 : Pane16) (a1 : LCell) (s : State) (t : State) (h : execNearTierGather a0 a1 s = .next t) :
    t.ccr = s.ccr := by
  simp only [execNearTierGather, Host.Outcome.next.injEq] at h
  simp [← h]

@[simp] theorem landLoad_ccr (s : State) (a1 : Nat) (a2 : Nat) (a3 : Nat) (a4 : Nat) (a5 : DmaOp) :
    (landLoad s a1 a2 a3 a4 a5).ccr = s.ccr := by
  unfold landLoad
  dsimp only
  repeat' split
  all_goals simp

@[simp] theorem landStore_ccr (s : State) (a1 : Nat) (a2 : Nat) (a3 : Nat) (a4 : DmaOp) :
    (landStore s a1 a2 a3 a4).ccr = s.ccr := by
  simp [landStore]

@[simp] theorem landMove_ccr (s : State) (a1 : Nat) (a2 : Nat) (a3 : Nat) (a4 : Nat) (a5 : DmaOp) :
    (landMove s a1 a2 a3 a4 a5).ccr = s.ccr := by
  simp [landMove]

@[simp] theorem landDma_ccr (s : State) (a1 : Nat) (a2 : Nat) (a3 : Nat) (a4 : Nat) (a5 : DmaOp) :
    (landDma s a1 a2 a3 a4 a5).ccr = s.ccr := by
  unfold landDma
  dsimp only
  repeat' split
  all_goals simp

theorem execDmaComplete_ccr (a0 : Pane16) (a1 : LCell) (a2 : BitVec 6) (a3 : Option (BitVec 30 × Ecc)) (s : State) (t : State) (h : execDmaComplete a0 a1 a2 a3 s = .next t) :
    t.ccr = s.ccr := by
  unfold execDmaComplete at h
  dsimp only at h
  repeat' split at h
  all_goals simp only [Host.Outcome.next.injEq] at h
  all_goals subst h
  all_goals simp

@[simp] theorem chargeSource_ccr (s : State) (a1 : BitVec 16) (a2 : Nat) :
    (chargeSource s a1 a2).ccr = s.ccr := by
  simp [chargeSource]

@[simp] theorem refuseMsg_ccr (s : State) (a1 : Msg) (a2 : Nat) :
    (refuseMsg s a1 a2).ccr = s.ccr := by
  simp [refuseMsg]

@[simp] theorem sendResponse_ccr (s : State) (a1 : Nat) (a2 : Msg) :
    (sendResponse s a1 a2).ccr = s.ccr := by
  simp [sendResponse]

@[simp] theorem respond_ccr (s : State) (a1 : Nat) (a2 : Msg) (a3 : Nat) (a4 : List Byte) (a5 : Option (BitVec 64)) :
    (respond s a1 a2 a3 a4 a5).ccr = s.ccr := by
  simp [respond]

@[simp] theorem countNack_ccr (s : State) (p code : Nat) :
    (countNack s p code).ccr = s.ccr := by
  simp [countNack]

@[simp] theorem respondCode_ccr (s : State) (a1 : Nat) (a2 : Msg) (a3 : Nat) :
    (respondCode s a1 a2 a3).ccr = s.ccr := by
  simp [respondCode]

@[simp] theorem turnAway_ccr (s : State) (p : Nat) (m : Msg) (q : Nat) :
    (turnAway s p m q).ccr = s.ccr := by
  simp [turnAway]

@[simp] theorem deliverRequest_ccr (s : State) (a1 : Msg) :
    (deliverRequest s a1).ccr = s.ccr := by
  unfold deliverRequest
  split <;> simp

@[simp] theorem deliverResponse_ccr (s : State) (a1 : Msg) :
    (deliverResponse s a1).ccr = s.ccr := by
  simp [deliverResponse]

@[simp] theorem modOp_ccr (s : State) (a1 : Nat) (a2 : BitVec 32) (a3 : RmoOp → RmoOp) :
    (modOp s a1 a2 a3).ccr = s.ccr := by
  simp [modOp]

@[simp] theorem noteRefusal_ccr (s : State) (a1 : Nat) (a2 : BitVec 32) (a3 : Nat) :
    (noteRefusal s a1 a2 a3).ccr = s.ccr := by
  simp [noteRefusal]

@[simp] theorem admitOp_ccr (s : State) (a1 : Nat) (a2 : RmoOp) :
    (admitOp s a1 a2).ccr = s.ccr := by
  simp [admitOp]

@[simp] theorem completeAt_ccr (s : State) (a1 : Nat) (a2 : Nat) (a3 : Nat) (a4 : Nat) (a5 : Nat) (a6 : Nat) (a7 : BitVec 64) (a8 : Bool) (a9 : Bool) (a10 : Nat) :
    (completeAt s a1 a2 a3 a4 a5 a6 a7 a8 a9 a10).ccr = s.ccr := by
  simp [completeAt]

@[simp] theorem completeOp_ccr (s : State) (a1 : Nat) (a2 : RmoOp) (a3 : Nat) (a4 : BitVec 64) :
    (completeOp s a1 a2 a3 a4).ccr = s.ccr := by
  simp [completeOp]

@[simp] theorem answerWaiter_ccr (s : State) (a1 : Nat) (a2 : Waiter) (a3 : Nat) (a4 : BitVec 64) :
    (answerWaiter s a1 a2 a3 a4).ccr = s.ccr := by
  unfold answerWaiter
  split <;> simp

@[simp] theorem grantNext_ccr (s : State) (a1 : Nat) (a2 : Nat) :
    (grantNext s a1 a2).ccr = s.ccr := by
  unfold grantNext
  dsimp only
  repeat' split
  all_goals simp

@[simp] theorem orphanLatch_ccr (s : State) (a1 : Nat) :
    (orphanLatch s a1).ccr = s.ccr := by
  unfold orphanLatch
  dsimp only
  repeat' split
  all_goals simp

@[simp] theorem orphanAll_ccr (s : State) (a1 : BitVec 16) (a2 : BitVec 4) (a3 : BitVec 16) :
    (orphanAll s a1 a2 a3).ccr = s.ccr := by
  simp [orphanAll]

@[simp] theorem dropWaiters_ccr (s : State) (a1 : Nat) :
    (dropWaiters s a1).ccr = s.ccr := by
  simp [dropWaiters]

@[simp] theorem noteEpoch_ccr (s : State) (a1 : Nat) (a2 : Waiter) :
    (noteEpoch s a1 a2).ccr = s.ccr := by
  simp [noteEpoch]

@[simp] theorem latchArrive_ccr (s : State) (a1 : Nat) (a2 : Nat) :
    (latchArrive s a1 a2).ccr = s.ccr := by
  simp [latchArrive]

theorem latchRequest_done_ccr (s : State) (op i a : Nat) (w : Waiter) (t : State) (c : Nat) (r : BitVec 64)
    (h : latchRequest s op i a w = .done t c r) : t.ccr = s.ccr := by
  unfold latchRequest at h
  dsimp only at h
  (repeat' split at h) <;> first
  | (simp only [LatchOut.done.injEq] at h
     obtain ⟨rfl, -, -⟩ := h
     simp)
  | cases h

theorem latchRequest_waits_ccr (s : State) (op i a : Nat) (w : Waiter) (t : State)
    (h : latchRequest s op i a w = .waits t) : t.ccr = s.ccr := by
  unfold latchRequest at h
  dsimp only at h
  (repeat' split at h) <;> first
  | (simp only [LatchOut.waits.injEq] at h
     obtain rfl := h
     simp)
  | cases h

@[simp] theorem arriveRef_ccr (s : State) (a1 : Group) (a2 : Nat) :
    (arriveRef s a1 a2).ccr = s.ccr := by
  unfold arriveRef
  split <;> simp

@[simp] theorem scrambleColl_ccr (s : State) (a1 : Group) (a2 : List Byte) (a3 : Nat) :
    (scrambleColl s a1 a2 a3).ccr = s.ccr := by
  simp [scrambleColl]

@[simp] theorem enterAbort_ccr (s : State) (a1 : AbortEntry) :
    (enterAbort s a1).ccr = s.ccr := by
  simp [enterAbort]

@[simp] theorem dueAbort_ccr (s : State) (a1 : AbortEntry) :
    (dueAbort s a1).ccr = s.ccr := by
  simp [dueAbort]

@[simp] theorem detectAbort_ccr (s : State) (a1 : BitVec 32) (a2 : Nat) (a3 : Nat) :
    (detectAbort s a1 a2 a3).ccr = s.ccr := by
  simp [detectAbort]

@[simp] theorem abortGroup_ccr (s : State) (a1 : Group) (a2 : Nat) (a3 : Nat) :
    (abortGroup s a1 a2 a3).ccr = s.ccr := by
  simp [abortGroup]

@[simp] theorem receiveAbort_ccr (s : State) (a1 : BitVec 32) (a2 : BitVec 16) (a3 : BitVec 16) (a4 : Nat) :
    (receiveAbort s a1 a2 a3 a4).ccr = s.ccr := by
  unfold receiveAbort
  dsimp only
  repeat' split
  all_goals simp

@[simp] theorem haltPane_ccr (s : State) (a1 : Nat) :
    (haltPane s a1).ccr = s.ccr := by
  simp [haltPane]

@[simp] theorem dropFwd_ccr (s : State) (lead : Nat) :
    (dropFwd s lead).ccr = s.ccr := by
  simp [dropFwd]

@[simp] theorem dropRun_ccr (s : State) (a1 : Group) :
    (dropRun s a1).ccr = s.ccr := by
  simp [dropRun]

@[simp] theorem stopColls_ccr (s : State) (a1 : Group) :
    (stopColls s a1).ccr = s.ccr := by
  unfold stopColls
  split <;> simp

@[simp] theorem setCollStatus_ccr (s : State) (a1 : Nat) (a2 : AbortEntry) :
    (setCollStatus s a1 a2).ccr = s.ccr := by
  simp [setCollStatus]

@[simp] theorem recordAbort_ccr (s : State) (a1 : Nat) (a2 : AbortEntry) :
    (recordAbort s a1 a2).ccr = s.ccr := by
  simp [recordAbort]

@[simp] theorem stopForAbort_ccr (s : State) (a1 : Group) (a2 : AbortEntry) :
    (stopForAbort s a1 a2).ccr = s.ccr := by
  simp [stopForAbort]

theorem execAbortStop_ccr (a0 : Pane16) (s : State) (t : State) (h : execAbortStop a0 s = .next t) :
    t.ccr = s.ccr := by
  unfold execAbortStop at h
  repeat' split at h
  all_goals cases h
  all_goals simp

theorem execAbortEntryExpiry_ccr (s : State) (t : State) (h : execAbortEntryExpiry s = .next t) :
    t.ccr = s.ccr := by
  simp only [execAbortEntryExpiry, Host.Outcome.next.injEq] at h
  simp [← h]

@[simp] theorem enterTime_ccr (s : State) (a1 : TimeMode) :
    (enterTime s a1).ccr = s.ccr := by
  simp [enterTime]

@[simp] theorem phaseHit_ccr (s : State) :
    (phaseHit s).ccr = s.ccr := by
  simp [phaseHit]

@[simp] theorem beatHit_ccr (s : State) (a1 : Nat) :
    (beatHit s a1).ccr = s.ccr := by
  simp [beatHit]

@[simp] theorem stepSpans_ccr (s : State) (a1 : Nat → Nat) :
    (stepSpans s a1).ccr = s.ccr := by
  simp [stepSpans]

@[simp] theorem enterLocked_ccr (s : State) (a1 : Nat) :
    (enterLocked s a1).ccr = s.ccr := by
  simp [enterLocked]

@[simp] theorem looseMarker_ccr (s : State) (a1 : Nat) (a2 : Bool) :
    (looseMarker s a1 a2).ccr = s.ccr := by
  unfold looseMarker
  dsimp only
  repeat' split
  all_goals simp

@[simp] theorem boundMarker_ccr (s : State) (a1 : Nat) (a2 : Bool) :
    (boundMarker s a1 a2).ccr = s.ccr := by
  simp [boundMarker]

theorem execBeatMarker_ccr (a0 : BitVec 48) (a1 : BitVec 8) (a2 : Bool) (s : State) (t : State) (h : execBeatMarker a0 a1 a2 s = .next t) :
    t.ccr = s.ccr := by
  simp only [execBeatMarker, Host.Outcome.next.injEq] at h
  simp [← h]

@[simp] theorem countHoldover_ccr (s : State) :
    (countHoldover s).ccr = s.ccr := by
  simp [countHoldover]

theorem execMissingMarker_ccr (s : State) (t : State) (h : execMissingMarker s = .next t) :
    t.ccr = s.ccr := by
  unfold execMissingMarker at h
  repeat' split at h
  all_goals cases h
  all_goals simp

theorem execHoldoverBeat_ccr (s : State) (t : State) (h : execHoldoverBeat s = .next t) :
    t.ccr = s.ccr := by
  unfold execHoldoverBeat at h
  split at h <;> cases h <;> simp

@[simp] theorem loseTime_ccr (s : State) (a1 : Group) :
    (loseTime s a1).ccr = s.ccr := by
  simp [loseTime]

theorem execHoldoverLimitReached_ccr (s : State) (t : State) (h : execHoldoverLimitReached s = .next t) :
    t.ccr = s.ccr := by
  unfold execHoldoverLimitReached at h
  split at h <;> cases h <;> simp

theorem execBeatTrimWrite_ccr (a0 : Accessor) (a1 : BitVec 32) (s : State) (t : State) (h : execBeatTrimWrite a0 a1 s = .next t) :
    t.ccr = s.ccr := by
  unfold execBeatTrimWrite at h
  split at h <;> cases h <;> simp

@[simp] theorem appendRec_ccr (s : State) (r : JRec) :
    (appendRec s r).ccr = s.ccr := by
  simp [appendRec]

@[simp] theorem checkpoint_ccr (s : State) :
    (checkpoint s).ccr = s.ccr := by
  simp [checkpoint]

@[simp] theorem checkpointIfDue_ccr (s : State) :
    (checkpointIfDue s).ccr = s.ccr := by
  simp [checkpointIfDue]

@[simp] theorem journal_ccr (s : State) (a1 : Nat) (a2 : Nat) (a3 : BitVec 32) (a4 : Nat) (a5 : Nat) (a6 : BitVec 32) (a7 : BitVec 32) (a8 : BitVec 32) :
    (journal s a1 a2 a3 a4 a5 a6 a7 a8).ccr = s.ccr := by
  simp [journal]

@[simp] theorem journalBlk_ccr (s : State) (a1 : Nat) (a2 : Nat) (a3 : Nat) :
    (journalBlk s a1 a2 a3).ccr = s.ccr := by
  simp [journalBlk]

@[simp] theorem openBlk_ccr (s : State) (a1 : Nat) (a2 : Nat) (a3 : BlockState) :
    (openBlk s a1 a2 a3).ccr = s.ccr := by
  simp [openBlk]

@[simp] theorem takeUnit_ccr (s : State) (a1 : Nat) (a2 : Nat) :
    (takeUnit s a1 a2).1.ccr = s.ccr := by
  simp [takeUnit]

theorem placeUnit_ccr (s : State) (ch : Nat) (st : BlockState) (r : State × BitVec 32)
    (e : placeUnit s ch st = some r) : r.1.ccr = s.ccr := by
  unfold placeUnit at e
  split at e
  · obtain rfl := Option.some.inj e
    simp
  · simp only [Option.map_eq_some_iff] at e
    obtain ⟨k, -, rfl⟩ := e
    simp

@[simp] theorem countBlkRead_ccr (s : State) (k : Nat) :
    (countBlkRead s k).ccr = s.ccr := by
  simp [countBlkRead]

@[simp] theorem countRead_ccr (s : State) (a1 : Nat) (a2 : Nat) :
    (countRead s a1 a2).ccr = s.ccr := by
  unfold countRead
  split <;> simp

@[simp] theorem countReads_ccr (s : State) (o ofs n : Nat) :
    (countReads s o ofs n).ccr = s.ccr := by
  simp [countReads]

@[simp] theorem poisonNear_ccr (s : State) (a1 : Nat) (a2 : Nat) (a3 : Nat) :
    (poisonNear s a1 a2 a3).ccr = s.ccr := by
  simp [poisonNear]

@[simp] theorem farToNear_ccr (s : State) (a1 : Nat) (a2 : Nat) (a3 : Nat) (a4 : List (Nat × Nat)) :
    (farToNear s a1 a2 a3 a4).ccr = s.ccr := by
  unfold farToNear
  refine foldl_ccr _ (fun s a => ?_) _ _
  dsimp only
  rw [foldl_ccr]
  · simp
  · intro s b
    split <;> simp

@[simp] theorem addProg_ccr (s : State) (g : FarProg) : (addProg s g).ccr = s.ccr := by
  unfold addProg
  split
  · rename_i h
    simpa using placeUnit_ccr _ _ _ _ h
  · simp

@[simp] theorem progUnit_ccr (s : State) (a1 : Nat) (a2 : Nat) (a3 : Nat) (a4 : List Byte) (a5 : Nat) :
    (progUnit s a1 a2 a3 a4 a5).ccr = s.ccr := by
  unfold progUnit
  dsimp only
  split
  · rename_i h
    simpa using placeUnit_ccr _ _ _ _ h
  · simp

@[simp] theorem farWrite_ccr (s : State) (a1 : Nat) (a2 : Nat) (a3 : List Byte) (a4 : FarSink) :
    (farWrite s a1 a2 a3 a4).ccr = s.ccr := by
  simp [farWrite]

@[simp] theorem ackCommand_ccr (s : State) (a1 : Nat) :
    (ackCommand s a1).ccr = s.ccr := by
  unfold ackCommand
  split <;> simp

@[simp] theorem ackWrites_ccr (s : State) :
    (ackWrites s).ccr = s.ccr := by
  unfold ackWrites
  dsimp only
  rw [foldl_ccr]
  · simp
  · intro s a
    split <;> simp

@[simp] theorem countWritten_ccr (s : State) (a1 : Nat) (a2 : Nat) :
    (countWritten s a1 a2).ccr = s.ccr := by
  simp [countWritten]

@[simp] theorem putUnits_ccr (s : State) (g : FarProg) :
    (putUnits s g).ccr = s.ccr := by
  simp [putUnits]

@[simp] theorem landProg_ccr (s : State) (a1 : FarProg) :
    (landProg s a1).ccr = s.ccr := by
  unfold landProg
  split <;> simp

theorem execPageProgramComplete_ccr (a0 : Fin 64) (s : State) (t : State) (h : execPageProgramComplete a0 s = .next t) :
    t.ccr = s.ccr := by
  unfold execPageProgramComplete at h
  split at h <;> cases h <;> simp

@[simp] theorem placeWaiting_ccr (s : State) (ch : Nat) :
    (placeWaiting s ch).ccr = s.ccr := by
  simp [placeWaiting]

@[simp] theorem blockError_ccr (s : State) (a1 : Nat) :
    (blockError s a1).ccr = s.ccr := by
  simp [blockError]

theorem execProgramFailed_ccr (channel : Fin 64) (s : State) (t : State) (h : execProgramFailed channel s = .next t) :
    t.ccr = s.ccr := by
  unfold execProgramFailed at h
  split at h <;> cases h <;> simp

@[simp] theorem zeroingDone_ccr (s : State) :
    (zeroingDone s).ccr = s.ccr := by
  simp [zeroingDone]

@[simp] theorem makeDurable_ccr (s : State) (upto : Nat) :
    (makeDurable s upto).ccr = s.ccr := by
  simp [makeDurable]

theorem execJournalDurable_ccr (upto : Nat) (s : State) (t : State) (h : execJournalDurable upto s = .next t) :
    t.ccr = s.ccr := by
  simp only [execJournalDurable, Host.Outcome.next.injEq] at h
  simp [← h]

theorem execMapCheckpoint_ccr (s : State) (t : State) (h : execMapCheckpoint s = .next t) :
    t.ccr = s.ccr := by
  simp only [execMapCheckpoint, Host.Outcome.next.injEq] at h
  simp [← h]

@[simp] theorem checkReadOnly_ccr (s : State) (a1 : Nat) :
    (checkReadOnly s a1).ccr = s.ccr := by
  simp [checkReadOnly]

@[simp] theorem retireBlk_ccr (s : State) (a1 : Nat) (a2 : Nat) :
    (retireBlk s a1 a2).ccr = s.ccr := by
  simp [retireBlk]

@[simp] theorem moveUnit_ccr (a0 : Nat) (s : State) (a2 : Nat × Nat × BitVec 32) :
    (moveUnit a0 s a2).ccr = s.ccr := by
  unfold moveUnit
  split
  · rename_i hp
    simpa using placeUnit_ccr _ _ _ _ hp
  · simp

@[simp] theorem moveValid_ccr (s : State) (ch b : Nat) :
    (moveValid s ch b).ccr = s.ccr := by
  simp [moveValid]

@[simp] theorem collect_ccr (s : State) (a1 : Nat) (a2 : Nat) :
    (collect s a1 a2).ccr = s.ccr := by
  simp [collect]

theorem execGcVictim_ccr (a0 : Fin 64) (s : State) (t : State) (h : execGcVictim a0 s = .next t) :
    t.ccr = s.ccr := by
  unfold execGcVictim at h
  split at h
  · cases h; rfl
  · split at h
    · simp only [Host.Outcome.next.injEq] at h
      simp [← h]
    · cases h; rfl

theorem execGcErase_ccr (a0 : Fin 64) (s : State) (t : State) (h : execGcErase a0 s = .next t) :
    t.ccr = s.ccr := by
  unfold execGcErase at h
  dsimp only at h
  repeat' split at h
  all_goals simp only [Host.Outcome.next.injEq] at h
  all_goals subst h
  all_goals simp

theorem execBlockEraseComplete_ccr (a0 : Fin 64) (a1 : BitVec 15) (a2 : Bool) (s : State) (t : State) (h : execBlockEraseComplete a0 a1 a2 s = .next t) :
    t.ccr = s.ccr := by
  unfold execBlockEraseComplete at h
  dsimp only at h
  repeat' split at h
  all_goals simp only [Host.Outcome.next.injEq] at h
  all_goals subst h
  all_goals simp

theorem execWearLevel_ccr (a0 : Fin 64) (s : State) (t : State) (h : execWearLevel a0 s = .next t) :
    t.ccr = s.ccr := by
  unfold execWearLevel at h
  dsimp only at h
  repeat' split at h
  all_goals simp only [Host.Outcome.next.injEq] at h
  all_goals subst h
  all_goals simp

theorem execReadRecalibration_ccr (a0 : Fin 64) (s : State) (t : State) (h : execReadRecalibration a0 s = .next t) :
    t.ccr = s.ccr := by
  unfold execReadRecalibration at h
  split at h <;> cases h <;> simp

theorem execFarReadRetry_ccr (a0 : Fin 17) (a1 : BitVec 32) (a2 : Bool) (s : State) (t : State) (h : execFarReadRetry a0 a1 a2 s = .next t) :
    t.ccr = s.ccr := by
  unfold execFarReadRetry at h
  repeat' split at h
  all_goals cases h
  all_goals simp

theorem execHoldupMeasure_ccr (a0 : BitVec 32) (s : State) (t : State) (h : execHoldupMeasure a0 s = .next t) :
    t.ccr = s.ccr := by
  simp only [execHoldupMeasure, Host.Outcome.next.injEq] at h
  simp [← h]

@[simp] theorem recoverBlk_ccr (s : State) (a1 : Nat) :
    (recoverBlk s a1).ccr = s.ccr := by
  simp [recoverBlk]

@[simp] theorem recoverFar_ccr (s : State) :
    (recoverFar s).ccr = s.ccr := by
  simp [recoverFar]

theorem execRecover_ccr (s : State) (t : State) (h : execRecover s = .next t) :
    t.ccr = s.ccr := by
  simp only [execRecover, Host.Outcome.next.injEq] at h
  simp [← h]

@[simp] theorem farPowerLoss_ccr (s : State) :
    (farPowerLoss s).ccr = s.ccr := by
  simp [farPowerLoss]

@[simp] theorem dropStaging_ccr (s : State) (a1 : Nat) :
    (dropStaging s a1).ccr = s.ccr := by
  unfold dropStaging
  split <;> simp

@[simp] theorem dropExtents_ccr (s : State) (a1 : Nat) :
    (dropExtents s a1).ccr = s.ccr := by
  simp [dropExtents]

@[simp] theorem zeroOwner_ccr (s : State) (a1 : Nat) :
    (zeroOwner s a1).ccr = s.ccr := by
  simp [zeroOwner]

theorem execExtentStart_ccr (a0 : Pane16) (a1 : Nat) (s : State) (t : State) (h : execExtentStart a0 a1 s = .next t) :
    t.ccr = s.ccr := by
  unfold execExtentStart at h
  dsimp only at h
  repeat' split at h
  all_goals simp only [Host.Outcome.next.injEq] at h
  all_goals subst h
  all_goals simp

theorem execExtentDone_ccr (a0 : Pane16) (a1 : Nat) (s : State) (t : State) (h : execExtentDone a0 a1 s = .next t) :
    t.ccr = s.ccr := by
  unfold execExtentDone at h
  repeat' split at h
  all_goals cases h
  all_goals simp

@[simp] theorem meterEvent_ccr (s : State) (a1 : Nat) (a2 : Nat) :
    (meterEvent s a1 a2).ccr = s.ccr := by
  simp [meterEvent]

@[simp] theorem storeRec_ccr (s : State) (a1 : MeterRec) :
    (storeRec s a1).ccr = s.ccr := by
  simp [storeRec]

@[simp] theorem holdRec_ccr (s : State) (a1 : MeterRec) :
    (holdRec s a1).ccr = s.ccr := by
  simp [holdRec]

@[simp] theorem writeRec_ccr (s : State) (a1 : Nat) (a2 : Nat) (a3 : Nat) (a4 : Nat) (a5 : Nat) (a6 : List Byte) :
    (writeRec s a1 a2 a3 a4 a5 a6).ccr = s.ccr := by
  simp [writeRec]

@[simp] theorem paneRec_ccr (s : State) (a1 : Nat) (a2 : Nat) (a3 : Meter) (a4 : Nat) :
    (paneRec s a1 a2 a3 a4).ccr = s.ccr := by
  simp [paneRec]

@[simp] theorem keptRec_ccr (s : State) (a1 : Nat) (a2 : Meter) (a3 : Nat) :
    (keptRec s a1 a2 a3).ccr = s.ccr := by
  simp [keptRec]

@[simp] theorem operRec_ccr (s : State) :
    (operRec s).ccr = s.ccr := by
  simp [operRec]

@[simp] theorem legalRec_ccr (s : State) (a1 : Nat) (a2 : Nat) :
    (legalRec s a1 a2).ccr = s.ccr := by
  simp [legalRec]

@[simp] theorem openOccupancy_ccr (s : State) (a1 : Nat) :
    (openOccupancy s a1).ccr = s.ccr := by
  simp [openOccupancy]

@[simp] theorem closeOccupancy_ccr (s : State) (a1 : Nat) (a2 : Nat) :
    (closeOccupancy s a1 a2).ccr = s.ccr := by
  unfold closeOccupancy
  split <;> simp

@[simp] theorem openKept_ccr (s : State) (a1 : Nat) :
    (openKept s a1).ccr = s.ccr := by
  simp [openKept]

@[simp] theorem closeKept_ccr (s : State) (a1 : Nat) (a2 : Nat) :
    (closeKept s a1 a2).ccr = s.ccr := by
  unfold closeKept
  split <;> simp

@[simp] theorem endKept_ccr (s : State) (a1 : Nat) (a2 : Bool) :
    (endKept s a1 a2).ccr = s.ccr := by
  unfold endKept
  refine foldl_ccr _ (fun s a => ?_) _ _
  split
  · dsimp only
    split <;> simp
  · simp

@[simp] theorem closeAll_ccr (s : State) (a1 : Nat) :
    (closeAll s a1).ccr = s.ccr := by
  simp [closeAll]

@[simp] theorem boundaryRec_ccr (s : State) (a1 : Nat) :
    (boundaryRec s a1).ccr = s.ccr := by
  unfold boundaryRec
  split <;> simp

theorem execMeterIntervalBoundary_ccr (s : State) (t : State) (h : execMeterIntervalBoundary s = .next t) :
    t.ccr = s.ccr := by
  unfold execMeterIntervalBoundary at h
  dsimp only at h
  repeat' split at h
  all_goals simp only [Host.Outcome.next.injEq] at h
  all_goals subst h
  all_goals simp

theorem execMeterRecordRetry_ccr (a0 : Bool) (s : State) (t : State) (h : execMeterRecordRetry a0 s = .next t) :
    t.ccr = s.ccr := by
  unfold execMeterRecordRetry at h
  dsimp only at h
  repeat' split at h
  all_goals simp only [Host.Outcome.next.injEq] at h
  all_goals subst h
  all_goals simp

@[simp] theorem sealEvent_ccr (s : State) (a1 : Nat) :
    (sealEvent s a1).ccr = s.ccr := by
  simp [sealEvent]

theorem execDebugPadsEnabled_ccr (s : State) (t : State) (h : execDebugPadsEnabled s = .next t) :
    t.ccr = s.ccr := by
  simp only [execDebugPadsEnabled, Host.Outcome.next.injEq] at h
  simp [← h]

theorem execMeterUpdatePackage_ccr (a0 : MeterUpdate) (s : State) (t : State) (h : execMeterUpdatePackage a0 s = .next t) :
    t.ccr = s.ccr := by
  unfold execMeterUpdatePackage at h
  dsimp only at h
  repeat' split at h
  all_goals simp only [Host.Outcome.next.injEq] at h
  all_goals subst h
  all_goals simp

@[simp] theorem islandLoss_ccr (s : State) :
    (islandLoss s).ccr = s.ccr := by
  simp [islandLoss]

theorem execIslandStart_ccr (s : State) (t : State) (h : execIslandStart s = .next t) :
    t.ccr = s.ccr := by
  unfold execIslandStart at h
  split at h <;> cases h <;> simp

@[simp] theorem islandReset_ccr (s : State) :
    (islandReset s).ccr = s.ccr := by
  simp [islandReset]

@[simp] theorem noteRead_ccr (s : State) (a1 : List MeterRec) :
    (noteRead s a1).ccr = s.ccr := by
  simp [noteRead]

@[simp] theorem putRec_ccr (s : State) (a1 : Nat) (a2 : Nat) (a3 : Nat) (a4 : List Byte) (a5 : Nat) (a6 : List Byte) :
    (putRec s a1 a2 a3 a4 a5 a6).ccr = s.ccr := by
  simp [putRec]

@[simp] theorem countLost_ccr (s : State) (a1 : Nat) :
    (countLost s a1).ccr = s.ccr := by
  simp [countLost]

@[simp] theorem newSegment_ccr (s : State) :
    (newSegment s).ccr = s.ccr := by
  simp [newSegment]

@[simp] theorem makeRoom_ccr (s : State) (a1 : Nat) :
    (makeRoom s a1).ccr = s.ccr := by
  simp [makeRoom]

@[simp] theorem addRec_ccr (s : State) (a1 : Nat) (a2 : Nat) (a3 : Nat) (a4 : List Byte) (a5 : Nat) (a6 : List Byte) :
    (addRec s a1 a2 a3 a4 a5 a6).ccr = s.ccr := by
  simp [addRec]

@[simp] theorem writeOwn_ccr (s : State) (a1 : DueRec) :
    (writeOwn s a1).ccr = s.ccr := by
  simp [writeOwn]

@[simp] theorem dueOwn_ccr (s : State) (a1 : DueRec) :
    (dueOwn s a1).ccr = s.ccr := by
  simp [dueOwn]

@[simp] theorem newRec_ccr (s : State) (a1 : Event) (a2 : Nat) :
    (newRec s a1 a2).ccr = s.ccr := by
  simp [newRec]

@[simp] theorem foldRec_ccr (s : State) (a1 : Event) (a2 : LastRec) (a3 : Bool) :
    (foldRec s a1 a2 a3).ccr = s.ccr := by
  simp [foldRec]

@[simp] theorem writePriv_ccr (s : State) (a1 : Event) (a2 : Nat) :
    (writePriv s a1 a2).ccr = s.ccr := by
  unfold writePriv
  dsimp only
  repeat' split
  all_goals simp

@[simp] theorem writeLimited_ccr (s : State) (a1 : Event) (a2 : Nat) :
    (writeLimited s a1 a2).ccr = s.ccr := by
  simp [writeLimited]

@[simp] theorem writeEvent_ccr (s : State) (a1 : Event) :
    (writeEvent s a1).ccr = s.ccr := by
  unfold writeEvent
  split <;> simp

@[simp] theorem startSpill_ccr (s : State) :
    (startSpill s).ccr = s.ccr := by
  unfold startSpill
  dsimp only
  repeat' split
  all_goals simp

@[simp] theorem spillOver_ccr (s : State) :
    (spillOver s).ccr = s.ccr := by
  unfold spillOver
  split <;> simp

theorem execEventDelivery_ccr (e : Event) (s : State) (t : State) (h : execEventDelivery e s = .next t) :
    t.ccr = s.ccr := by
  unfold execEventDelivery at h
  repeat' split at h
  all_goals cases h
  all_goals simp

@[simp] theorem tellLost_ccr (s : State) :
    (tellLost s).ccr = s.ccr := by
  simp [tellLost]

@[simp] theorem freezeDone_ccr (s : State) :
    (freezeDone s).ccr = s.ccr := by
  simp [freezeDone]

theorem execEventAccept_ccr (s : State) (t : State) (h : execEventAccept s = .next t) :
    t.ccr = s.ccr := by
  unfold execEventAccept at h
  repeat' split at h
  all_goals cases h
  all_goals simp

theorem execSuppressedSummary_ccr (s : State) (t : State) (h : execSuppressedSummary s = .next t) :
    t.ccr = s.ccr := by
  simp only [execSuppressedSummary, Host.Outcome.next.injEq] at h
  simp [← h]

@[simp] theorem freezeRec_ccr (s : State) :
    (freezeRec s).ccr = s.ccr := by
  simp [freezeRec]

@[simp] theorem thawRec_ccr (s : State) :
    (thawRec s).ccr = s.ccr := by
  simp [thawRec]

@[simp] theorem recorderReset_ccr (s : State) :
    (recorderReset s).ccr = s.ccr := by
  simp [recorderReset]

@[simp] theorem recorderLost_ccr (s : State) :
    (recorderLost s).ccr = s.ccr := by
  simp [recorderLost]

@[simp] theorem dropParcels_ccr (s : State) (a1 : Nat) :
    (dropParcels s a1).ccr = s.ccr := by
  simp [dropParcels]

@[simp] theorem dropQueues_ccr (s : State) (a1 : Nat) (a2 : Bool) :
    (dropQueues s a1 a2).ccr = s.ccr := by
  simp [dropQueues]

@[simp] theorem zeroCells_ccr (s : State) (a1 : Nat) :
    (zeroCells s a1).ccr = s.ccr := by
  simp [zeroCells]

@[simp] theorem abortForPane_ccr (s : State) (a1 : Nat) :
    (abortForPane s a1).ccr = s.ccr := by
  unfold abortForPane
  split <;> simp

@[simp] theorem resetContext_ccr (s : State) (a1 : Nat) :
    (resetContext s a1).ccr = s.ccr := by
  simp [resetContext]

@[simp] theorem askContextReset_ccr (s : State) (p : Nat) :
    (askContextReset s p).ccr = s.ccr := by
  simp [askContextReset]

@[simp] theorem contextResetDue_ccr (s : State) (p : Nat) :
    (contextResetDue s p).ccr = s.ccr := by
  unfold contextResetDue
  split <;> simp

@[simp] theorem noteHeld_ccr (s : State) (a1 : Nat) (a2 : Option Nat) (a3 : List Byte) :
    (noteHeld s a1 a2 a3).ccr = s.ccr := by
  unfold noteHeld
  dsimp only
  repeat' split
  all_goals simp

@[simp] theorem writeFrame_ccr (s : State) (a1 : Option Nat) (a2 : List Byte) :
    (writeFrame s a1 a2).ccr = s.ccr := by
  simp [writeFrame]

@[simp] theorem restoreFrame_ccr (s : State) (a1 : Group) (a2 : List Byte) (a3 : List Byte) :
    (restoreFrame s a1 a2 a3).ccr = s.ccr := by
  unfold restoreFrame
  dsimp only
  repeat' split
  all_goals simp

@[simp] theorem sendStore_ccr (s : State) (a1 : StoreTxn) (a2 : Nat) :
    (sendStore s a1 a2).ccr = s.ccr := by
  simp [sendStore]

@[simp] theorem dropTxns_ccr (s : State) (a1 : StoreOwner) :
    (dropTxns s a1).ccr = s.ccr := by
  simp [dropTxns]

@[simp] theorem openTxn_ccr (s : State) (a1 : StoreOwner) (a2 : List Byte) (a3 : BitVec 16) (a4 : Nat) (a5 : Nat) :
    (openTxn s a1 a2 a3 a4 a5).ccr = s.ccr := by
  simp [openTxn]

@[simp] theorem startDrain_ccr (s : State) (a1 : Nat) :
    (startDrain s a1).ccr = s.ccr := by
  unfold startDrain
  split <;> simp

@[simp] theorem endDrain_ccr (s : State) (a1 : Nat) (a2 : BitVec 48) :
    (endDrain s a1 a2).ccr = s.ccr := by
  simp [endDrain]

@[simp] theorem endStoreJob_ccr (s : State) (a1 : StoreOwner) (a2 : Ans) :
    (endStoreJob s a1 a2).ccr = s.ccr := by
  unfold endStoreJob
  split <;> simp

@[simp] theorem landFetch_ccr (s : State) (a1 : Nat) (a2 : Job) (a3 : List Byte) :
    (landFetch s a1 a2 a3).ccr = s.ccr := by
  simp [landFetch]

@[simp] theorem landObject_ccr (s : State) (a1 : Nat) (a2 : Job) (a3 : StoreTxn) (a4 : List Byte) :
    (landObject s a1 a2 a3 a4).ccr = s.ccr := by
  unfold landObject
  dsimp only
  repeat' split
  all_goals simp

@[simp] theorem noteBytes_ccr (s : State) (a1 : Nat) (a2 : Nat) :
    (noteBytes s a1 a2).ccr = s.ccr := by
  simp [noteBytes]

theorem execStoreGrantReceived_ccr (a0 : BitVec 32) (a1 : BitVec 32) (a2 : BitVec 64) (s : State) (t : State) (h : execStoreGrantReceived a0 a1 a2 s = .next t) :
    t.ccr = s.ccr := by
  unfold execStoreGrantReceived at h
  split at h <;> cases h <;> simp

theorem execRdmaWritesComplete_ccr (a0 : BitVec 32) (s : State) (t : State) (h : execRdmaWritesComplete a0 s = .next t) :
    t.ccr = s.ccr := by
  unfold execRdmaWritesComplete at h
  repeat' split at h
  all_goals cases h
  all_goals simp

theorem execRdmaReadsComplete_ccr (a0 : BitVec 32) (a1 : List Byte) (s : State) (t : State) (h : execRdmaReadsComplete a0 a1 s = .next t) :
    t.ccr = s.ccr := by
  unfold execRdmaReadsComplete at h
  repeat' split at h
  all_goals cases h
  all_goals simp

theorem execStoreDoneReceived_ccr (a0 : BitVec 32) (a1 : BitVec 8) (a2 : BitVec 64) (s : State) (t : State) (h : execStoreDoneReceived a0 a1 a2 s = .next t) :
    t.ccr = s.ccr := by
  unfold execStoreDoneReceived at h
  repeat' split at h
  all_goals cases h
  all_goals simp

theorem execStoreRefuseReceived_ccr (a0 : BitVec 32) (a1 : BitVec 8) (a2 : BitVec 32) (s : State) (t : State) (h : execStoreRefuseReceived a0 a1 a2 s = .next t) :
    t.ccr = s.ccr := by
  unfold execStoreRefuseReceived at h
  repeat' split at h
  all_goals cases h
  all_goals simp

theorem execStoreRetryExpiry_ccr (a0 : BitVec 32) (s : State) (t : State) (h : execStoreRetryExpiry a0 s = .next t) :
    t.ccr = s.ccr := by
  unfold execStoreRetryExpiry at h
  repeat' split at h
  all_goals cases h
  all_goals simp

theorem execStoreConnectionLost_ccr (a0 : BitVec 32) (s : State) (t : State) (h : execStoreConnectionLost a0 s = .next t) :
    t.ccr = s.ccr := by
  unfold execStoreConnectionLost at h
  repeat' split at h
  all_goals cases h
  all_goals simp

theorem execShardFetchTimeout_ccr (a0 : Req) (s : State) (t : State) (h : execShardFetchTimeout a0 s = .next t) :
    t.ccr = s.ccr := by
  simp only [execShardFetchTimeout, Host.Outcome.next.injEq] at h
  simp [← h]

theorem execRestoreTimeout_ccr (a0 : Req) (s : State) (t : State) (h : execRestoreTimeout a0 s = .next t) :
    t.ccr = s.ccr := by
  simp only [execRestoreTimeout, Host.Outcome.next.injEq] at h
  simp [← h]

@[simp] theorem drainLate_ccr (s : State) (a1 : Nat) (a2 : BitVec 32) (a3 : Nat) (a4 : Nat) :
    (drainLate s a1 a2 a3 a4).ccr = s.ccr := by
  simp [drainLate]

@[simp] theorem checkDrain_ccr (s : State) (a1 : Group) (a2 : Nat) :
    (checkDrain s a1 a2).ccr = s.ccr := by
  unfold checkDrain
  dsimp only
  repeat' split
  all_goals simp

@[simp] theorem beginDrain_ccr (s : State) (a1 : Group) (a2 : Nat) (a3 : List Byte) :
    (beginDrain s a1 a2 a3).1.ccr = s.ccr := by
  unfold beginDrain
  dsimp only
  repeat' split
  all_goals simp

@[simp] theorem countAbandoned_ccr (s : State) (a1 : Nat) :
    (countAbandoned s a1).ccr = s.ccr := by
  simp [countAbandoned]

@[simp] theorem stormBoundary_ccr (s : State) (a1 : Nat) (a2 : Nat) :
    (stormBoundary s a1 a2).ccr = s.ccr := by
  unfold stormBoundary
  dsimp only
  repeat' split
  all_goals simp

@[simp] theorem abandonCopy_ccr (s : State) (a1 : Nat) (a2 : CopyRun) :
    (abandonCopy s a1 a2).ccr = s.ccr := by
  unfold abandonCopy
  split <;> simp

@[simp] theorem abandonFailed_ccr (s : State) :
    (abandonFailed s).ccr = s.ccr := by
  unfold abandonFailed
  refine foldl_ccr _ (fun s a => ?_) _ _
  (repeat' split) <;> simp

@[simp] theorem stageDrain_ccr (s : State) (a1 : Nat) (a2 : DrainRun) :
    (stageDrain s a1 a2).ccr = s.ccr := by
  simp [stageDrain]

@[simp] theorem takeSnapshot_ccr (s : State) (a1 : Group) (a2 : List Byte) (a3 : CopyRun) :
    (takeSnapshot s a1 a2 a3).ccr = s.ccr := by
  unfold takeSnapshot
  dsimp only
  repeat' split
  all_goals simp

theorem execSnapshotDone_ccr (a0 : Pane16) (s : State) (t : State) (h : execSnapshotDone a0 s = .next t) :
    t.ccr = s.ccr := by
  unfold execSnapshotDone at h
  repeat' split at h
  all_goals cases h
  all_goals simp

@[simp] theorem sendAck_ccr (s : State) (a1 : BitVec 16) :
    (sendAck s a1).ccr = s.ccr := by
  simp [sendAck]

@[simp] theorem takeRestoreFrame_ccr (s : State) (a1 : Nat) (a2 : Job) (a3 : List Byte) :
    (takeRestoreFrame s a1 a2 a3).ccr = s.ccr := by
  unfold takeRestoreFrame
  dsimp only
  repeat' split
  all_goals simp

@[simp] theorem receiveFrame_ccr (s : State) (a1 : List Byte) :
    (receiveFrame s a1).ccr = s.ccr := by
  unfold receiveFrame
  dsimp only
  repeat' split
  all_goals simp

theorem execStormFrameReceived_ccr (a0 : List Byte) (s : State) (t : State) (h : execStormFrameReceived a0 s = .next t) :
    t.ccr = s.ccr := by
  simp only [execStormFrameReceived, Host.Outcome.next.injEq] at h
  simp [← h]

theorem execStormAckReceived_ccr (a0 : Pane16) (s : State) (t : State) (h : execStormAckReceived a0 s = .next t) :
    t.ccr = s.ccr := by
  unfold execStormAckReceived at h
  repeat' split at h
  all_goals cases h
  all_goals simp

theorem execCopyAbandonTimeout_ccr (a0 : Pane16) (s : State) (t : State) (h : execCopyAbandonTimeout a0 s = .next t) :
    t.ccr = s.ccr := by
  unfold execCopyAbandonTimeout at h
  repeat' split at h
  all_goals cases h
  all_goals simp

theorem execDrainStaged_ccr (a0 : Pane16) (s : State) (t : State) (h : execDrainStaged a0 s = .next t) :
    t.ccr = s.ccr := by
  unfold execDrainStaged at h
  repeat' split at h
  all_goals cases h
  all_goals simp

@[simp] theorem enterTesting_ccr (s : State) (a1 : Nat) :
    (enterTesting s a1).ccr = s.ccr := by
  simp [enterTesting]

@[simp] theorem suspendTest_ccr (s : State) (a1 : Nat) :
    (suspendTest s a1).ccr = s.ccr := by
  simp [suspendTest]

@[simp] theorem suspendToBudget_ccr (s : State) (n : Nat) : (suspendToBudget s n).ccr = s.ccr := by
  induction n generalizing s with
  | zero => rfl
  | succ n ih =>
    unfold suspendToBudget
    dsimp only
    (repeat' split) <;> simp [ih]

@[simp] theorem suspendAll_ccr (s : State) :
    (suspendAll s).ccr = s.ccr := by
  simp [suspendAll]

@[simp] theorem holdBeat_ccr (s : State) (a1 : Group) (a2 : HoldCause) :
    (holdBeat s a1 a2).ccr = s.ccr := by
  simp [holdBeat]

@[simp] theorem planBeat_ccr (s : State) (a1 : Group) (a2 : List Byte) (a3 : Run) :
    (planBeat s a1 a2 a3).ccr = s.ccr := by
  unfold planBeat
  dsimp only
  repeat' split
  all_goals simp

@[simp] theorem beginBeat_ccr (s : State) (a1 : Group) (a2 : List Byte) (a3 : Run) :
    (beginBeat s a1 a2 a3).ccr = s.ccr := by
  unfold beginBeat
  repeat' split
  all_goals simp

@[simp] theorem groupBeat_ccr (s : State) (a1 : Nat) :
    (groupBeat s a1).ccr = s.ccr := by
  unfold groupBeat
  dsimp only
  repeat' split
  all_goals simp

@[simp] theorem countPeriods_ccr (s : State) :
    (countPeriods s).ccr = s.ccr := by
  simp [countPeriods]

@[simp] theorem applyCap_ccr (s : State) (a1 : BitVec 2) :
    (applyCap s a1).ccr = s.ccr := by
  simp [applyCap]

@[simp] theorem powerBoundary_ccr (s : State) :
    (powerBoundary s).ccr = s.ccr := by
  simp [powerBoundary]

@[simp] theorem meterBeat_ccr (s : State) :
    (meterBeat s).ccr = s.ccr := by
  simp [meterBeat]

@[simp] theorem freshBeat_ccr (s : State) :
    (freshBeat s).ccr = s.ccr := by
  simp [freshBeat]

theorem execBeatBoundary_ccr (s : State) (t : State) (h : execBeatBoundary s = .next t) :
    t.ccr = s.ccr := by
  unfold execBeatBoundary at h
  dsimp only at h
  repeat' split at h
  all_goals simp only [Host.Outcome.next.injEq] at h
  all_goals subst h
  all_goals simp

@[simp] theorem startCells_ccr (s : State) (a1 : Group) :
    (startCells s a1).ccr = s.ccr := by
  simp [startCells]

theorem execPlanEpochStart_ccr (a0 : Pane16) (s : State) (t : State) (h : execPlanEpochStart a0 s = .next t) :
    t.ccr = s.ccr := by
  unfold execPlanEpochStart at h
  dsimp only at h
  repeat' split at h
  all_goals simp only [Host.Outcome.next.injEq] at h
  all_goals subst h
  all_goals simp

@[simp] theorem recordSkip_ccr (s : State) (a1 : Group) (a2 : Nat) :
    (recordSkip s a1 a2).ccr = s.ccr := by
  simp [recordSkip]

@[simp] theorem endPlan_ccr (s : State) (a1 : Group) (a2 : List Byte) :
    (endPlan s a1 a2).ccr = s.ccr := by
  simp [endPlan]

theorem execStepBoundary_ccr (a0 : Pane16) (s : State) (t : State) (h : execStepBoundary a0 s = .next t) :
    t.ccr = s.ccr := by
  unfold execStepBoundary at h
  repeat' split at h
  all_goals cases h
  all_goals simp

theorem execBlockStart_ccr (a0 : Pane16) (a1 : LCell) (s : State) (t : State) (h : execBlockStart a0 a1 s = .next t) :
    t.ccr = s.ccr := by
  unfold execBlockStart at h
  dsimp only at h
  repeat' split at h
  all_goals simp only [Host.Outcome.next.injEq] at h
  all_goals subst h
  all_goals simp

theorem execSlackExpired_ccr (a0 : Pane16) (a1 : LCell) (s : State) (t : State) (h : execSlackExpired a0 a1 s = .next t) :
    t.ccr = s.ccr := by
  unfold execSlackExpired at h
  repeat' split at h
  all_goals cases h
  all_goals simp

@[simp] theorem holdJob_ccr (s : State) (a1 : BitVec 32) (a2 : Nat) (a3 : Nat) (a4 : HoldCause) :
    (holdJob s a1 a2 a3 a4).ccr = s.ccr := by
  simp [holdJob]

@[simp] theorem raiseHold_ccr (s : State) (a1 : Group) (a2 : List Byte) (a3 : HoldCause) :
    (raiseHold s a1 a2 a3).ccr = s.ccr := by
  unfold raiseHold
  dsimp only
  repeat' split
  all_goals simp

theorem execGridBeat_ccr (a0 : Pane16) (s : State) (t : State) (h : execGridBeat a0 s = .next t) :
    t.ccr = s.ccr := by
  unfold execGridBeat at h
  repeat' split at h
  all_goals cases h
  all_goals simp

@[simp] theorem receiveHold_ccr (s : State) (a1 : BitVec 32) :
    (receiveHold s a1).ccr = s.ccr := by
  simp [receiveHold]

@[simp] theorem abortUsers_ccr (s : State) (a1 : Nat) :
    (abortUsers s a1).ccr = s.ccr := by
  unfold abortUsers
  refine foldl_ccr _ (fun s a => ?_) _ _
  (repeat' split) <;> simp

@[simp] theorem enterLink_ccr (s : State) (a1 : Nat) (a2 : BitVec 4) :
    (enterLink s a1 a2).ccr = s.ccr := by
  simp [enterLink]

@[simp] theorem leaveActive_ccr (s : State) (a1 : Nat) (a2 : BitVec 4) :
    (leaveActive s a1 a2).ccr = s.ccr := by
  simp [leaveActive]

@[simp] theorem portEvent_ccr (s : State) (a1 : Nat) (a2 : BitVec 4) (a3 : BitVec 4) (a4 : Nat) :
    (portEvent s a1 a2 a3 a4).ccr = s.ccr := by
  simp [portEvent]

@[simp] theorem failPort_ccr (s : State) (a1 : Nat) (a2 : Nat) :
    (failPort s a1 a2).ccr = s.ccr := by
  simp [failPort]

@[simp] theorem outOfStep_ccr (s : State) (a1 : Nat) :
    (outOfStep s a1).ccr = s.ccr := by
  simp [outOfStep]

theorem execPresenceDetected_ccr (a0 : PortId) (s : State) (t : State) (h : execPresenceDetected a0 s = .next t) :
    t.ccr = s.ccr := by
  unfold execPresenceDetected at h
  split at h <;> cases h <;> simp

theorem execEqualizeDone_ccr (a0 : PortId) (s : State) (t : State) (h : execEqualizeDone a0 s = .next t) :
    t.ccr = s.ccr := by
  unfold execEqualizeDone at h
  split at h <;> cases h <;> simp

theorem execAlignDone_ccr (a0 : PortId) (a1 : Nat) (s : State) (t : State) (h : execAlignDone a0 a1 s = .next t) :
    t.ccr = s.ccr := by
  unfold execAlignDone at h
  split at h <;> cases h <;> simp

@[simp] theorem forgetSlots_ccr (s : State) (a1 : Nat) :
    (forgetSlots s a1).ccr = s.ccr := by
  simp [forgetSlots]

@[simp] theorem becomeActive_ccr (s : State) (a1 : Nat) (a2 : Sill) :
    (becomeActive s a1 a2).ccr = s.ccr := by
  simp [becomeActive]

theorem execNegotiateDone_ccr (a0 : PortId) (a1 : Sill) (s : State) (t : State) (h : execNegotiateDone a0 a1 s = .next t) :
    t.ccr = s.ccr := by
  unfold execNegotiateDone at h
  dsimp only at h
  repeat' split at h
  all_goals simp only [Host.Outcome.next.injEq] at h
  all_goals subst h
  all_goals simp

theorem execTrainingTimeout_ccr (a0 : PortId) (s : State) (t : State) (h : execTrainingTimeout a0 s = .next t) :
    t.ccr = s.ccr := by
  unfold execTrainingTimeout at h
  dsimp only at h
  repeat' split at h
  all_goals simp only [Host.Outcome.next.injEq] at h
  all_goals subst h
  all_goals simp

theorem execTrainingBackoffExpired_ccr (a0 : PortId) (s : State) (t : State) (h : execTrainingBackoffExpired a0 s = .next t) :
    t.ccr = s.ccr := by
  unfold execTrainingBackoffExpired at h
  dsimp only at h
  repeat' split at h
  all_goals simp only [Host.Outcome.next.injEq] at h
  all_goals subst h
  all_goals simp

theorem execPortRetrainingOrder_ccr (a0 : PortId) (s : State) (t : State) (h : execPortRetrainingOrder a0 s = .next t) :
    t.ccr = s.ccr := by
  unfold execPortRetrainingOrder at h
  dsimp only at h
  repeat' split at h
  all_goals simp only [Host.Outcome.next.injEq] at h
  all_goals subst h
  all_goals simp

@[simp] theorem retireLane_ccr (s : State) (a1 : Nat) (a2 : Nat) :
    (retireLane s a1 a2).ccr = s.ccr := by
  simp [retireLane]

@[simp] theorem switchLane_ccr (a0 : Nat) (s : State) (a2 : Nat × Nat × Nat) :
    (switchLane a0 s a2).ccr = s.ccr := by
  simp [switchLane]

theorem execLaneSwitch_ccr (a0 : PortId) (s : State) (t : State) (h : execLaneSwitch a0 s = .next t) :
    t.ccr = s.ccr := by
  simp only [execLaneSwitch, Host.Outcome.next.injEq] at h
  simp [← h]

theorem execSillTransmit_ccr (a0 : PortId) (s : State) (t : State) (h : execSillTransmit a0 s = .next t) :
    t.ccr = s.ccr := by
  unfold execSillTransmit at h
  dsimp only at h
  repeat' split at h
  all_goals simp only [Host.Outcome.next.injEq] at h
  all_goals subst h
  all_goals simp

@[simp] theorem readSill_ccr (s : State) (a1 : Nat) (a2 : Sill) :
    (readSill s a1 a2).ccr = s.ccr := by
  simp [readSill]

theorem execSillReceived_ccr (port : PortId) (sill : Sill) (crc : BitVec 32) (s : State) (t : State) (h : execSillReceived port sill crc s = .next t) :
    t.ccr = s.ccr := by
  unfold execSillReceived at h
  dsimp only at h
  repeat' split at h
  all_goals simp only [Host.Outcome.next.injEq] at h
  all_goals subst h
  all_goals simp

theorem execReplayTimeout_ccr (a0 : PortId) (s : State) (t : State) (h : execReplayTimeout a0 s = .next t) :
    t.ccr = s.ccr := by
  unfold execReplayTimeout at h
  split at h <;> cases h <;> simp

@[simp] theorem portsDown_ccr (s : State) :
    (portsDown s).ccr = s.ccr := by
  simp [portsDown]

@[simp] theorem park_ccr (s : State) :
    (park s).ccr = s.ccr := by
  simp [park]

@[simp] theorem startHubTest_ccr (s : State) :
    (startHubTest s).ccr = s.ccr := by
  simp [startHubTest]

@[simp] theorem parkNext_ccr (s : State) :
    (parkNext s).ccr = s.ccr := by
  unfold parkNext
  split <;> simp

@[simp] theorem beginPark_ccr (s : State) :
    (beginPark s).ccr = s.ccr := by
  simp [beginPark]

@[simp] theorem afterShutdown_ccr (s : State) (a1 : Bool) :
    (afterShutdown s a1).ccr = s.ccr := by
  simp [afterShutdown]

@[simp] theorem cvSlot_ccr (s : State) (a1 : Nat) (a2 : Bool) (a3 : Group) (a4 : List Byte) (a5 : SlotRun) (a6 : Nat) (a7 : Nat) (a8 : BitVec 64) (a9 : List Byte) :
    (cvSlot s a1 a2 a3 a4 a5 a6 a7 a8 a9).ccr = s.ccr := by
  unfold cvSlot
  dsimp only
  split_ifs <;> simp

@[simp] theorem emit_ccr (s : State) (a1 : Nat) (a2 : Nat) (a3 : SlotHdr) (a4 : List Byte) :
    (emit s a1 a2 a3 a4).ccr = s.ccr := by
  simp [emit]

@[simp] theorem emitIdle_ccr (s : State) (a1 : Nat) (a2 : Nat) :
    (emitIdle s a1 a2).ccr = s.ccr := by
  simp [emitIdle]

@[simp] theorem sendStream_ccr (s : State) (a1 : Nat) (a2 : Nat) (a3 : Group) (a4 : List Byte) (a5 : SlotRun) (a6 : Nat) (a7 : Nat) :
    (sendStream s a1 a2 a3 a4 a5 a6 a7).ccr = s.ccr := by
  unfold sendStream
  extract_lets x pn rel at' n lead data h sl
  have hs : ∀ r : State × List Byte, sl = some r → r.1.ccr = s.ccr := by
    intro r e
    change (if a3.isSealed = true then sealFrame s pn h data else some (s, data)) = some r at e
    split at e
    · exact sealFrame_ccr s pn h data r e
    · obtain rfl := Option.some.inj e
      rfl
  clear_value sl
  split
  · simp
  · split
    · simp
    · split
      · simp
      · have hx := hs _ rfl
        split <;> simpa using hx

@[simp] theorem sendScheduled_ccr (s : State) (a1 : Nat) (a2 : Nat) :
    (sendScheduled s a1 a2).ccr = s.ccr := by
  unfold sendScheduled
  dsimp only
  repeat' split
  all_goals simp

@[simp] theorem sendReplay_ccr (s : State) (a1 : Nat) (a2 : Nat) (a3 : SlotImg) (a4 : Nat) :
    (sendReplay s a1 a2 a3 a4).ccr = s.ccr := by
  simp [sendReplay]

@[simp] theorem takeReplay_ccr (p slot : Nat) (l : List (Nat × Nat × Nat)) (s : State) :
    (takeReplay p slot l s).1.ccr = s.ccr := by
  induction l generalizing s with
  | nil =>
    unfold takeReplay
    split <;> simp
  | cons q l ih =>
    unfold takeReplay
    dsimp only
    (repeat' split) <;> simp [ih]

@[simp] theorem freeSlots_ccr (s : State) (a1 : Nat) (a2 : List Parcel) :
    (freeSlots s a1 a2).ccr = s.ccr := by
  simp [freeSlots]

@[simp] theorem fillBulk_ccr (s : State) (via : Nat) :
    (fillBulk s via).ccr = s.ccr := by
  simp [fillBulk]

@[simp] theorem takeLoad_ccr (s : State) (a1 : Nat) (a2 : Nat) (a3 : Nat) :
    (takeLoad s a1 a2 a3).1.ccr = s.ccr := by
  unfold takeLoad
  dsimp only
  repeat' split
  all_goals simp

@[simp] theorem noteCommit_ccr (s : State) (a1 : Nat) (a2 : List Byte) :
    (noteCommit s a1 a2).ccr = s.ccr := by
  simp [noteCommit]

@[simp] theorem sendLoad_ccr (s : State) (a1 : Nat) (a2 : Nat) (a3 : Nat) (a4 : Load) :
    (sendLoad s a1 a2 a3 a4).ccr = s.ccr := by
  unfold sendLoad
  dsimp only
  split
  · simp
  · split
    · split
      · split
        · rename_i hs
          have := sealFrame_ccr _ _ _ _ _ hs
          split at this <;> simpa using this
        · split <;> simp
      · split <;> simp
    · simp

@[simp] theorem sendUnscheduled_ccr (s : State) (a1 : Nat) (a2 : Nat) :
    (sendUnscheduled s a1 a2).ccr = s.ccr := by
  unfold sendUnscheduled
  have hr := takeReplay_ccr a1 a2 (trafOf s a1).replayDue s
  split
  · rename_i hs
    rw [hs] at hr
    exact hr
  · rename_i hs
    rw [hs] at hr
    dsimp only at hr ⊢
    (repeat' split) <;> simp [hr]

@[simp] theorem sendSlot_ccr (s : State) (p n : Nat) :
    (sendSlot s p n).ccr = s.ccr := by
  simp [sendSlot]

theorem execSlotTransmit_ccr (a0 : PortId) (a1 : BitVec 8) (s : State) (t : State) (h : execSlotTransmit a0 a1 s = .next t) :
    t.ccr = s.ccr := by
  unfold execSlotTransmit at h
  dsimp only at h
  repeat' split at h
  all_goals simp only [Host.Outcome.next.injEq] at h
  all_goals subst h
  all_goals simp

@[simp] theorem modColl_ccr (s : State) (a1 : Nat) (a2 : Nat) (a3 : CollRun → CollRun) :
    (modColl s a1 a2 a3).ccr = s.ccr := by
  simp [modColl]

@[simp] theorem CollEnv.writeOut_ccr (x : CollEnv) (s : State) (lead i elem : Nat) (codes : List Nat) :
    (CollEnv.writeOut x s lead i elem codes).ccr = s.ccr := by
  simp [CollEnv.writeOut]

@[simp] theorem CollEnv.noteNorm_ccr (x : CollEnv) (s : State) (lead i : Nat) (codes : List Nat) :
    (CollEnv.noteNorm x s lead i codes).ccr = s.ccr := by
  simp [CollEnv.noteNorm]

@[simp] theorem CollEnv.noteNoise_ccr (x : CollEnv) (s : State) (lead i : Nat) (values : List Num) :
    (CollEnv.noteNoise x s lead i values).ccr = s.ccr := by
  simp [CollEnv.noteNoise]

@[simp] theorem CollEnv.keepExpo_ccr (s : State) (lead i elem : Nat) (items : List Nat) :
    (CollEnv.keepExpo s lead i elem items).ccr = s.ccr := by
  simp [CollEnv.keepExpo]

@[simp] theorem CollEnv.finish_ccr (x : CollEnv) (s : State) (lead : Nat) (r : CollRun) (pass : ChunkPass) (i elem : Nat) (items : List Nat) :
    (CollEnv.finish x s lead r pass i elem items).ccr = s.ccr := by
  simp [CollEnv.finish]

@[simp] theorem CollEnv.stageOut_ccr (x : CollEnv) (s : State) (pass : ChunkPass) (k : ChunkAt) (items : List Nat) :
    (CollEnv.stageOut x s pass k items).ccr = s.ccr := by
  simp [CollEnv.stageOut]

@[simp] theorem noteChunk_ccr (s : State) (lead coll : Nat) (id : ChunkId) (inp out : Option ChunkAt) :
    (noteChunk s lead coll id inp out).ccr = s.ccr := by
  simp [noteChunk]

@[simp] theorem CollEnv.sendOn_ccr (x : CollEnv) (s : State) (pass : ChunkPass) (items : List Nat)
    (k : Option ChunkAt) : (x.sendOn s pass items k).ccr = s.ccr := by
  cases k <;> simp [CollEnv.sendOn]

@[simp] theorem CollEnv.passOn_ccr (x : CollEnv) (s : State) (lead coll : Nat) (r : CollRun) (id : ChunkId) (last : Bool) (items : List Nat) (out : Option ChunkAt) :
    (CollEnv.passOn x s lead coll r id last items out).ccr = s.ccr := by
  simp [CollEnv.passOn]

@[simp] theorem CollEnv.reduceChunk_ccr (x : CollEnv) (s : State) (lead : Nat) (r : Run) (coll : Nat) (c : CollRun) (id : ChunkId) (inp out : Option ChunkAt) :
    (CollEnv.reduceChunk x s lead r coll c id inp out).ccr = s.ccr := by
  unfold CollEnv.reduceChunk
  split <;> simp

@[simp] theorem CollEnv.gatherChunk_ccr (x : CollEnv) (s : State) (lead : Nat) (r : Run) (coll : Nat) (c : CollRun) (id : ChunkId) (inp out : Option ChunkAt) :
    (CollEnv.gatherChunk x s lead r coll c id inp out).ccr = s.ccr := by
  simp [CollEnv.gatherChunk]

@[simp] theorem CollEnv.advance_ccr (x : CollEnv) (s : State) (lead : Nat) (r : Run) (coll : Nat) (c : CollRun) (id : ChunkId) (inp out : Option ChunkAt) :
    (CollEnv.advance x s lead r coll c id inp out).ccr = s.ccr := by
  simp [CollEnv.advance]

theorem execChunkAdvance_ccr (lead : Pane16) (coll : Nat) (id : ChunkId) (inp out : Option ChunkAt) (s : State) (t : State) (h : execChunkAdvance lead coll id inp out s = .next t) :
    t.ccr = s.ccr := by
  unfold execChunkAdvance at h
  dsimp only at h
  repeat' split at h
  all_goals simp only [Host.Outcome.next.injEq] at h
  all_goals subst h
  all_goals simp

theorem execCollectiveDone_ccr (a0 : Pane16) (a1 : Nat) (a2 : BitVec 640) (a3 : BitVec 640) (a4 : BitVec 32) (a5 : Bool) (s : State) (t : State) (h : execCollectiveDone a0 a1 a2 a3 a4 a5 s = .next t) :
    t.ccr = s.ccr := by
  unfold execCollectiveDone at h
  dsimp only at h
  repeat' split at h
  all_goals simp only [Host.Outcome.next.injEq] at h
  all_goals subst h
  all_goals simp

@[simp] theorem detachCv_ccr (s : State) (a1 : Nat) :
    (detachCv s a1).ccr = s.ccr := by
  simp [detachCv]

@[simp] theorem zeroCv_ccr (s : State) (a1 : Nat) :
    (zeroCv s a1).ccr = s.ccr := by
  simp [zeroCv]

@[simp] theorem zeroNear_ccr (s : State) (a1 : Nat) :
    (zeroNear s a1).ccr = s.ccr := by
  simp [zeroNear]

theorem zeroWindows_ccr (s : State) (p : Nat) :
    (zeroWindows s p).ccr = s.ccr.filter fun e => e.1 / 128 != 128 + p := rfl

@[simp] theorem freeLatches_ccr (s : State) (a1 : Nat) (a2 : BitVec 16) :
    (freeLatches s a1 a2).1.ccr = s.ccr := by
  simp [freeLatches]

@[simp] theorem leaveGroup_ccr (s : State) (a1 : Nat) :
    (leaveGroup s a1).ccr = s.ccr := by
  simp [leaveGroup]

@[simp] theorem endGroupPlan_ccr (s : State) (a1 : Nat) :
    (endGroupPlan s a1).ccr = s.ccr := by
  unfold endGroupPlan
  split <;> simp

@[simp] theorem beginTeardown_ccr (s : State) (a1 : Nat) (a2 : Shutter) :
    (beginTeardown s a1 a2).ccr = s.ccr := by
  simp [beginTeardown]

theorem execTeardownBegin_ccr (a0 : Pane16) (s : State) (t : State) (h : execTeardownBegin a0 s = .next t) :
    t.ccr = s.ccr := by
  unfold execTeardownBegin at h
  dsimp only at h
  repeat' split at h
  all_goals simp only [Host.Outcome.next.injEq] at h
  all_goals subst h
  all_goals simp

@[simp] theorem shutterSpares_ccr (s : State) (a1 : Nat) :
    (shutterSpares s a1).ccr = s.ccr := by
  simp [shutterSpares]

@[simp] theorem shutterFar_ccr (s : State) (a1 : Nat) (a2 : Shutter) :
    (shutterFar s a1 a2).ccr = s.ccr := by
  simp [shutterFar]

theorem beginShutter_ccr (s : State) (a1 : Nat) (a2 : Shutter) :
    (beginShutter s a1 a2).ccr = s.ccr.filter fun e => e.1 / 128 != 128 + a1 := by
  simp [beginShutter, zeroWindows_ccr]

theorem execWritersStopped_ccr (a0 : Pane16) (s : State) (t : State) (h : execWritersStopped a0 s = .next t) :
    t.ccr = s.ccr ∨ t.ccr = s.ccr.filter fun e => e.1 / 128 != 128 + a0.val := by
  unfold execWritersStopped at h
  repeat' split at h
  all_goals cases h
  · exact .inr (beginShutter_ccr _ _ _)
  all_goals exact .inl rfl

@[simp] theorem resetDone_ccr (s : State) (a1 : Nat) (a2 : Nat) (a3 : Nat) (a4 : BitVec 32) (a5 : BitVec 16) (a6 : Nat) :
    (resetDone s a1 a2 a3 a4 a5 a6).ccr = s.ccr := by
  simp [resetDone]

@[simp] theorem selfResetOver_ccr (s : State) (a1 : Nat) (a2 : Nat) :
    (selfResetOver s a1 a2).ccr = s.ccr := by
  simp [selfResetOver]

@[simp] theorem selfTestReturns_ccr (s : State) :
    (selfTestReturns s).ccr = s.ccr := by
  unfold selfTestReturns
  refine foldl_ccr _ (fun s a => ?_) _ _
  dsimp only
  (repeat' split) <;> simp

@[simp] theorem shutdownReturns_ccr (s : State) :
    (shutdownReturns s).ccr = s.ccr := by
  unfold shutdownReturns
  dsimp only
  repeat' split
  all_goals simp

@[simp] theorem askPaneReset_ccr (s : State) (a1 : Nat) :
    (askPaneReset s a1).ccr = s.ccr := by
  simp [askPaneReset]

@[simp] theorem endShutter_ccr (s : State) (a1 : Nat) (a2 : Shutter) :
    (endShutter s a1 a2).ccr = s.ccr := by
  simp [endShutter]

theorem execShutterComplete_ccr (a0 : Pane16) (s : State) (t : State) (h : execShutterComplete a0 s = .next t) :
    t.ccr = s.ccr := by
  unfold execShutterComplete at h
  repeat' split at h
  all_goals cases h
  all_goals simp

@[simp] theorem joinTeardown_ccr (s : State) (a1 : Nat) (a2 : Bool) :
    (joinTeardown s a1 a2).ccr = s.ccr := by
  unfold joinTeardown
  dsimp only
  repeat' split
  all_goals simp

theorem execCtxResetEnd_ccr (a0 : Pane16) (s : State) (t : State) (h : execCtxResetEnd a0 s = .next t) :
    t.ccr = s.ccr := by
  unfold execCtxResetEnd at h
  dsimp only at h
  repeat' split at h
  all_goals simp only [Host.Outcome.next.injEq] at h
  all_goals subst h
  all_goals simp

theorem execTestStart_ccr (s : State) (t : State) (h : execTestStart s = .next t) :
    t.ccr = s.ccr := by
  unfold execTestStart at h
  repeat' split at h
  all_goals cases h
  all_goals simp

@[simp] theorem retireCells_ccr (s : State) (a1 : Nat) (a2 : BitVec 34) :
    (retireCells s a1 a2).ccr = s.ccr := by
  simp [retireCells]

@[simp] theorem retirePcs_ccr (s : State) (a1 : Nat) (a2 : BitVec 68) :
    (retirePcs s a1 a2).ccr = s.ccr := by
  simp [retirePcs]

@[simp] theorem takeReport_ccr (s : State) (a1 : Nat) (a2 : Nat) (a3 : TestReport) :
    (takeReport s a1 a2 a3).ccr = s.ccr := by
  simp [takeReport]

@[simp] theorem reinitPane_ccr (s : State) (a1 : Nat) :
    (reinitPane s a1).ccr = s.ccr := by
  simp [reinitPane]

@[simp] theorem failPaneTest_ccr (s : State) (a1 : Nat) :
    (failPaneTest s a1).ccr = s.ccr := by
  simp [failPaneTest]

@[simp] theorem endPaneTest_ccr (s : State) (a1 : Nat) (a2 : BitVec 64) :
    (endPaneTest s a1 a2).ccr = s.ccr := by
  simp [endPaneTest]

theorem execTestPhaseDone_ccr (a0 : Pane16) (a1 : TestReport) (s : State) (t : State) (h : execTestPhaseDone a0 a1 s = .next t) :
    t.ccr = s.ccr := by
  unfold execTestPhaseDone at h
  dsimp only at h
  repeat' split at h
  all_goals simp only [Host.Outcome.next.injEq] at h
  all_goals subst h
  all_goals simp

@[simp] theorem dropTest_ccr (s : State) (a1 : Nat) :
    (dropTest s a1).ccr = s.ccr := by
  simp [dropTest]

theorem execHubTestDone_ccr (a0 : Bool) (a1 : BitVec 64) (s : State) (t : State) (h : execHubTestDone a0 a1 s = .next t) :
    t.ccr = s.ccr := by
  unfold execHubTestDone at h
  dsimp only at h
  repeat' split at h
  all_goals simp only [Host.Outcome.next.injEq] at h
  all_goals subst h
  all_goals simp

theorem execSpillDone_ccr (s : State) (t : State) (h : execSpillDone s = .next t) :
    t.ccr = s.ccr := by
  simp only [execSpillDone, Host.Outcome.next.injEq] at h
  simp [← h]

@[simp] theorem resetRing_ccr (s : State) (a1 : Nat) :
    (resetRing s a1).ccr = s.ccr := by
  simp [resetRing]

@[simp] theorem resetEth_ccr (s : State) (a1 : Nat) :
    (resetEth s a1).ccr = s.ccr := by
  unfold resetEth
  refine foldl_ccr _ (fun s a => ?_) _ _
  (repeat' split) <;> simp

@[simp] theorem resetCv_ccr (s : State) (a1 : Nat) :
    (resetCv s a1).ccr = s.ccr := by
  simp [resetCv]

@[simp] theorem resetEngine_ccr (s : State) (a1 : Nat) :
    (resetEngine s a1).ccr = s.ccr := by
  simp [resetEngine]

@[simp] theorem keepSpaces_ccr (s : State) :
    (keepSpaces s).ccr = s.ccr := by
  simp [keepSpaces]

@[simp] theorem hubClear_ccr (s : State) : (hubClear s).ccr = [] := by
  unfold hubClear
  simp

@[simp] theorem ledgerCheck_ccr (s : State) (a1 : Bool) :
    (ledgerCheck s a1).ccr = s.ccr := by
  simp [ledgerCheck]

@[simp] theorem hubStart_ccr (s : State) (a1 : Bool) (a2 : Bool) :
    (hubStart s a1 a2).ccr = s.ccr := by
  simp [hubStart]

@[simp] theorem moduleReset_ccr (s : State) (c : BitVec 3) : (moduleReset s c).ccr = [] := by
  unfold moduleReset
  simp

@[simp] theorem askPowerCycle_ccr (s : State) :
    (askPowerCycle s).ccr = s.ccr := by
  simp [askPowerCycle]

@[simp] theorem watchReset_ccr (s : State) :
    (watchReset s).ccr = s.ccr := by
  simp [watchReset]

@[simp] theorem hubFault_ccr (s : State) (c : BitVec 3) : (hubFault s c).ccr = [] := by
  unfold hubFault
  dsimp only
  (repeat' split) <;> simp

theorem execHubFault_ccr (s t : State) (h : execHubFault s = .next t) :
    t.ccr = s.ccr ∨ t.ccr = [] := by
  simp only [execHubFault, Host.Outcome.next.injEq] at h
  rw [← h]
  split <;> simp

theorem execHubWatchdogExpiry_ccr (s t : State) (h : execHubWatchdogExpiry s = .next t) :
    t.ccr = s.ccr ∨ t.ccr = [] := by
  simp only [execHubWatchdogExpiry, Host.Outcome.next.injEq] at h
  rw [← h]
  split <;> simp

theorem execEngineFault_ccr (a0 : Fin 28) (s : State) (t : State) (h : execEngineFault a0 s = .next t) :
    t.ccr = s.ccr := by
  simp only [execEngineFault, Host.Outcome.next.injEq] at h
  simp [← h]

theorem execPaneHardwareFault_ccr (a0 : Pane16) (s : State) (t : State) (h : execPaneHardwareFault a0 s = .next t) :
    t.ccr = s.ccr := by
  unfold execPaneHardwareFault at h
  dsimp only at h
  repeat' split at h
  all_goals simp only [Host.Outcome.next.injEq] at h
  all_goals subst h
  all_goals simp

theorem execResetEscalation_ccr (s t : State) (h : execResetEscalation s = .next t) :
    t.ccr = s.ccr ∨ t.ccr = [] := by
  unfold execResetEscalation at h
  repeat' split at h
  all_goals simp only [Host.Outcome.next.injEq] at h
  all_goals rw [← h]
  all_goals simp

theorem execSubwindowRollover_ccr (s : State) (t : State) (h : execSubwindowRollover s = .next t) :
    t.ccr = s.ccr := by
  simp only [execSubwindowRollover, Host.Outcome.next.injEq] at h
  simp [← h]

theorem execEthernetUncorrectableCodeword_ccr (a0 : Fin 2) (s : State) (t : State) (h : execEthernetUncorrectableCodeword a0 s = .next t) :
    t.ccr = s.ccr := by
  unfold execEthernetUncorrectableCodeword at h
  dsimp only at h
  repeat' split at h
  all_goals simp only [Host.Outcome.next.injEq] at h
  all_goals subst h
  all_goals simp

@[simp] theorem done_ccr (s : State) :
    (done s).1.ccr = s.ccr := by
  simp [done]

@[simp] theorem answer_ccr (s : State) (a1 : Ans) :
    (answer s a1).1.ccr = s.ccr := by
  simp [answer]

@[simp] theorem goesOn_ccr (s : State) :
    (goesOn s).1.ccr = s.ccr := by
  simp [goesOn]

@[simp] theorem doHello_ccr (s : State) (a1 : Nat) (a2 : Packet) :
    (doHello s a1 a2).1.ccr = s.ccr := by
  unfold doHello
  split <;> simp

@[simp] theorem createContext_ccr (s : State) (a1 : Nat) (a2 : BitVec 32) :
    (createContext s a1 a2).ccr = s.ccr := by
  simp [createContext]

@[simp] theorem doCtxCreate_ccr (s : State) (a1 : Nat) (a2 : Packet) :
    (doCtxCreate s a1 a2).1.ccr = s.ccr := by
  unfold doCtxCreate
  dsimp only
  repeat' split
  all_goals simp

@[simp] theorem createAfterZeroing_ccr (s : State) (a1 : Packet) :
    (createAfterZeroing s a1).1.ccr = s.ccr := by
  unfold createAfterZeroing
  dsimp only
  repeat' split
  all_goals simp

@[simp] theorem doCtxTeardown_ccr (s : State) (a1 : Nat) (a2 : Packet) :
    (doCtxTeardown s a1 a2).1.ccr = s.ccr := by
  unfold doCtxTeardown
  dsimp only
  repeat' split
  all_goals simp

@[simp] theorem doGroupBind_ccr (s : State) (a1 : Nat) (a2 : Packet) :
    (doGroupBind s a1 a2).1.ccr = s.ccr := by
  unfold doGroupBind
  dsimp only
  repeat' split
  all_goals simp

@[simp] theorem doCtxReset_ccr (s : State) (a1 : Nat) (a2 : Packet) :
    (doCtxReset s a1 a2).1.ccr = s.ccr := by
  unfold doCtxReset
  dsimp only
  repeat' split
  all_goals simp

@[simp] theorem doEngineReset_ccr (s : State) (a1 : Nat) (a2 : Packet) :
    (doEngineReset s a1 a2).1.ccr = s.ccr := by
  unfold doEngineReset
  split <;> simp

@[simp] theorem doPaneReset_ccr (s : State) (a1 : Nat) (a2 : Packet) :
    (doPaneReset s a1 a2).1.ccr = s.ccr := by
  unfold doPaneReset
  dsimp only
  repeat' split
  all_goals simp

@[simp] theorem doModuleReset_ccr (s : State) (r : Nat) (k : Packet) : (doModuleReset s r k).1.ccr = [] := by
  simp [doModuleReset]

theorem onIdleGroup_ccr (s : State) (lead : Nat) (f : Group → Effect) (hf : ∀ g, (f g).1.ccr = s.ccr) :
    (onIdleGroup s lead f).1.ccr = s.ccr := by
  unfold onIdleGroup
  (repeat' split) <;> simp [hf]

@[simp] theorem doSlotAlloc_ccr (s : State) (a1 : Nat) (a2 : Packet) :
    (doSlotAlloc s a1 a2).1.ccr = s.ccr := by
  unfold doSlotAlloc
  dsimp only
  refine onIdleGroup_ccr _ _ _ (fun g => ?_)
  (repeat' split) <;> simp

@[simp] theorem doStreamShare_ccr (s : State) (a1 : Nat) (a2 : Packet) :
    (doStreamShare s a1 a2).1.ccr = s.ccr := by
  unfold doStreamShare
  dsimp only
  refine onIdleGroup_ccr _ _ _ (fun g => ?_)
  (repeat' split) <;> simp

@[simp] theorem trimBeyond_ccr (s : State) (a1 : Nat) (a2 : Nat) :
    (trimBeyond s a1 a2).ccr = s.ccr := by
  simp [trimBeyond]

@[simp] theorem doFarQuota_ccr (s : State) (a1 : Nat) (a2 : Packet) :
    (doFarQuota s a1 a2).1.ccr = s.ccr := by
  unfold doFarQuota
  dsimp only
  repeat' split
  all_goals simp

@[simp] theorem allocBlock_ccr (s : State) (a1 : Nat) (a2 : Nat) :
    (allocBlock s a1 a2).ccr = s.ccr := by
  simp [allocBlock]

@[simp] theorem doLatchAlloc_ccr (s : State) (a1 : Nat) (a2 : Packet) :
    (doLatchAlloc s a1 a2).1.ccr = s.ccr := by
  unfold doLatchAlloc
  dsimp only
  repeat' split
  all_goals simp

@[simp] theorem doJobMapLoad_ccr (s : State) (a1 : Nat) (a2 : Packet) :
    (doJobMapLoad s a1 a2).1.ccr = s.ccr := by
  unfold doJobMapLoad
  dsimp only
  repeat' split
  all_goals simp

@[simp] theorem endWait_ccr (s : State) :
    (endWait s).ccr = s.ccr := by
  simp [endWait]

@[simp] theorem doCoordLoad_ccr (s : State) (a1 : Nat) (a2 : Packet) :
    (doCoordLoad s a1 a2).1.ccr = s.ccr := by
  unfold doCoordLoad
  dsimp only
  repeat' split
  all_goals simp

@[simp] theorem doIdentitySet_ccr (s : State) (a1 : Nat) (a2 : Packet) :
    (doIdentitySet s a1 a2).1.ccr = s.ccr := by
  unfold doIdentitySet
  split <;> simp

@[simp] theorem loadPane_ccr (a0 : List Byte) (a1 : Group) (s : State) (a3 : Nat) :
    (loadPane a0 a1 s a3).ccr = s.ccr := by
  simp [loadPane]

@[simp] theorem loadLatch_ccr (a0 : Group) (s : State) (a2 : Nat × Nat × Nat) :
    (loadLatch a0 s a2).ccr = s.ccr := by
  unfold loadLatch
  split <;> simp

@[simp] theorem installPlan_ccr (s : State) (a1 : Group) (a2 : List Byte) :
    (installPlan s a1 a2).ccr = s.ccr := by
  simp [installPlan]

@[simp] theorem doPlanLoad_ccr (s : State) (a1 : Nat) (a2 : Packet) :
    (doPlanLoad s a1 a2).1.ccr = s.ccr := by
  unfold doPlanLoad
  dsimp only
  refine onIdleGroup_ccr _ _ _ (fun g => ?_)
  repeat' split
  all_goals simp

@[simp] theorem doPlanStart_ccr (s : State) (a1 : Nat) (a2 : Packet) :
    (doPlanStart s a1 a2).1.ccr = s.ccr := by
  unfold doPlanStart
  dsimp only
  repeat' split
  all_goals simp

@[simp] theorem doPlanStop_ccr (s : State) (a1 : Nat) (a2 : Packet) :
    (doPlanStop s a1 a2).1.ccr = s.ccr := by
  unfold doPlanStop
  dsimp only
  repeat' split
  all_goals simp

@[simp] theorem doWindowGrant_ccr (s : State) (a1 : Nat) (a2 : Packet) :
    (doWindowGrant s a1 a2).1.ccr = s.ccr := by
  unfold doWindowGrant
  dsimp only
  repeat' split
  all_goals simp

@[simp] theorem doWindowRevoke_ccr (s : State) (a1 : Nat) (a2 : Packet) :
    (doWindowRevoke s a1 a2).1.ccr = s.ccr := by
  unfold doWindowRevoke
  dsimp only
  repeat' split
  all_goals simp

@[simp] theorem doSealKey_ccr (s : State) (a1 : Nat) (a2 : Packet) :
    (doSealKey s a1 a2).1.ccr = s.ccr := by
  unfold doSealKey
  dsimp only
  repeat' split
  all_goals simp

@[simp] theorem doLatchOrphan_ccr (s : State) (a1 : Nat) (a2 : Packet) :
    (doLatchOrphan s a1 a2).1.ccr = s.ccr := by
  unfold doLatchOrphan
  split <;> simp

@[simp] theorem setWriting_ccr (s : State) (a1 : Nat) (a2 : List (Nat × Nat × Nat)) :
    (setWriting s a1 a2).ccr = s.ccr := by
  simp [setWriting]

@[simp] theorem doSwapIn_ccr (s : State) (a1 : Nat) (a2 : Packet) :
    (doSwapIn s a1 a2).1.ccr = s.ccr := by
  unfold doSwapIn
  dsimp only
  repeat' split
  all_goals simp

@[simp] theorem refuseWrite_ccr (s : State) (a1 : Nat) (a2 : Ans) :
    (refuseWrite s a1 a2).1.ccr = s.ccr := by
  simp [refuseWrite]

@[simp] theorem doSwapOut_ccr (s : State) (a1 : Nat) (a2 : Packet) :
    (doSwapOut s a1 a2).1.ccr = s.ccr := by
  unfold doSwapOut
  dsimp only
  repeat' split
  all_goals simp

@[simp] theorem doShardFetch_ccr (s : State) (a1 : Nat) (a2 : Packet) :
    (doShardFetch s a1 a2).1.ccr = s.ccr := by
  unfold doShardFetch
  dsimp only
  repeat' split
  all_goals simp

@[simp] theorem doBuddySet_ccr (s : State) (a1 : Nat) (a2 : Packet) :
    (doBuddySet s a1 a2).1.ccr = s.ccr := by
  unfold doBuddySet
  dsimp only
  refine onIdleGroup_ccr _ _ _ (fun g => ?_)
  (repeat' split) <;> simp

@[simp] theorem doStormNow_ccr (s : State) (a1 : Nat) (a2 : Packet) :
    (doStormNow s a1 a2).1.ccr = s.ccr := by
  unfold doStormNow
  dsimp only
  repeat' split
  all_goals simp

@[simp] theorem doDrainSet_ccr (s : State) (a1 : Nat) (a2 : Packet) :
    (doDrainSet s a1 a2).1.ccr = s.ccr := by
  unfold doDrainSet
  dsimp only
  refine onIdleGroup_ccr _ _ _ (fun g => ?_)
  (repeat' split) <;> simp

@[simp] theorem restoreBuddy_ccr (s : State) (a1 : Nat) (a2 : Group) (a3 : List Byte) (a4 : Nat) :
    (restoreBuddy s a1 a2 a3 a4).1.ccr = s.ccr := by
  unfold restoreBuddy
  dsimp only
  repeat' split
  all_goals simp

@[simp] theorem doRestore_ccr (s : State) (a1 : Nat) (a2 : Packet) :
    (doRestore s a1 a2).1.ccr = s.ccr := by
  unfold doRestore
  dsimp only
  refine onIdleGroup_ccr _ _ _ (fun g => ?_)
  (repeat' split) <;> simp

@[simp] theorem renegotiate_ccr (s : State) :
    (renegotiate s).ccr = s.ccr := by
  simp [renegotiate]

@[simp] theorem clearUnscheduled_ccr (s : State) (a1 : Nat) :
    (clearUnscheduled s a1).ccr = s.ccr := by
  simp [clearUnscheduled]

@[simp] theorem setModuleMode_ccr (s : State) (a1 : Nat) (a2 : Nat) :
    (setModuleMode s a1 a2).ccr = s.ccr := by
  unfold setModuleMode
  split <;> simp

@[simp] theorem doModeSet_ccr (s : State) (a1 : Nat) (a2 : Packet) :
    (doModeSet s a1 a2).1.ccr = s.ccr := by
  unfold doModeSet
  dsimp only
  repeat' split
  all_goals simp

@[simp] theorem doModeGet_ccr (s : State) (a1 : Nat) (a2 : Packet) :
    (doModeGet s a1 a2).1.ccr = s.ccr := by
  unfold doModeGet
  dsimp only
  repeat' split
  all_goals simp

@[simp] theorem doSelfTest_ccr (s : State) (a1 : Nat) (a2 : Packet) :
    (doSelfTest s a1 a2).1.ccr = s.ccr := by
  unfold doSelfTest
  dsimp only
  repeat' split
  all_goals simp

@[simp] theorem shutdownPane_ccr (s : State) (a1 : Nat) :
    (shutdownPane s a1).ccr = s.ccr := by
  simp [shutdownPane]

@[simp] theorem doShutdown_ccr (s : State) (a1 : Nat) (a2 : Packet) :
    (doShutdown s a1 a2).1.ccr = s.ccr := by
  unfold doShutdown
  split <;> simp

@[simp] theorem doMeterRead_ccr (s : State) (a1 : Nat) (a2 : Packet) :
    (doMeterRead s a1 a2).1.ccr = s.ccr := by
  unfold doMeterRead
  dsimp only
  repeat' split
  all_goals simp

@[simp] theorem doMeterIdent_ccr (s : State) (a1 : Nat) (a2 : Packet) :
    (doMeterIdent s a1 a2).1.ccr = s.ccr := by
  simp [doMeterIdent]

@[simp] theorem doEventFreeze_ccr (s : State) (a1 : Nat) (a2 : Packet) :
    (doEventFreeze s a1 a2).1.ccr = s.ccr := by
  unfold doEventFreeze
  repeat' split
  all_goals simp

@[simp] theorem doEventRead_ccr (s : State) (a1 : Nat) (a2 : Packet) :
    (doEventRead s a1 a2).1.ccr = s.ccr := by
  unfold doEventRead
  dsimp only
  repeat' split
  all_goals simp

@[simp] theorem doEventThaw_ccr (s : State) (a1 : Nat) (a2 : Packet) :
    (doEventThaw s a1 a2).1.ccr = s.ccr := by
  unfold doEventThaw
  split <;> simp

@[simp] theorem refuseBusy_ccr (s : State) (a1 : Nat) (a2 : Job) (a3 : Option (Option (BitVec 16) × BitVec 32)) (a4 : Nat) (a5 : Nat) :
    (refuseBusy s a1 a2 a3 a4 a5).ccr = s.ccr := by
  unfold refuseBusy
  split <;> simp

theorem effectOf_ccr (op : Nat) (s : State) (r : Nat) (k : Packet) :
    (effectOf op s r k).1.ccr = s.ccr ∨ (effectOf op s r k).1.ccr = [] := by
  unfold effectOf
  split <;> simp

theorem startEffect_ccr (op : Nat) (s : State) (r : Nat) (k : Packet) :
    (startEffect op s r k).1.ccr = s.ccr ∨ (startEffect op s r k).1.ccr = [] := by
  unfold startEffect
  dsimp only
  split
  · split
    · split <;> simp
    · simp
  · exact effectOf_ccr op s r k

@[simp] theorem replyEffect_ccr (op : Nat) (s : State) (r : Nat) (k : Packet) :
    (replyEffect op s r k).1.ccr = s.ccr := by
  unfold replyEffect
  split
  · rename_i h
    simp only [delivers, Bool.or_eq_true, beq_iff_eq] at h
    rcases h with (rfl | rfl) | rfl <;> simp [effectOf, opMapLoad, opPlanLoad, opGrant]
  · split <;> simp

@[simp] theorem noteAts_ccr (s : State) (a1 : Nat) (a2 : Nat) (a3 : Packet) :
    (noteAts s a1 a2 a3).ccr = s.ccr := by
  simp [noteAts]

theorem startJob_ccr (s : State) (r : Nat) :
    (startJob s r).ccr = s.ccr ∨ (startJob s r).ccr = [] := by
  unfold startJob
  split
  · rename_i j _
    extract_lets op j1 s1
    have h1 : s1.ccr = s.ccr := by simp [s1]
    split
    · simp [h1]
    · have key := startEffect_ccr op (noteAts s1 r op j.packet) r j.packet
      rw [noteAts_ccr, h1] at key
      split
      · rw [decideJob_ccr]; exact key
      · exact key
  · simp

theorem acceptPacket_ccr (s : State) (r op : Nat) (k : Packet) :
    (acceptPacket s r op k).ccr = s.ccr ∨ (acceptPacket s r op k).ccr = [] := by
  unfold acceptPacket
  dsimp only
  split
  · simp
  · split
    · exact (startJob_ccr _ r).imp (fun h => by simp [h]) id
    · simp

theorem fmPacket_ccr (s : State) (e : Option (BitVec 16)) (x : BitVec 32) (op : Nat) (k : Packet) :
    (fmPacket s e x op k).ccr = s.ccr ∨ (fmPacket s e x op k).ccr = [] := by
  unfold fmPacket
  split
  · simp
  · exact acceptPacket_ccr _ 17 op k

theorem doorbell_ccr (s : State) (r op : Nat) (k : Packet) :
    (doorbell s r op k).ccr = s.ccr ∨ (doorbell s r op k).ccr = [] := by
  unfold doorbell
  split
  · simp
  · split
    · exact fmPacket_ccr s none _ op k
    · split
      · simp
      · exact acceptPacket_ccr s r op k

theorem execCommandStart_ccr (r : Req) (s t : State) (h : execCommandStart r s = .next t) :
    t.ccr = s.ccr ∨ t.ccr = [] := by
  unfold execCommandStart at h
  repeat' split at h
  all_goals simp only [Host.Outcome.next.injEq] at h
  · exact h ▸ startJob_ccr s r.val
  all_goals simp [h]

theorem execCommandReply_ccr (a0 : Req) (s : State) (t : State) (h : execCommandReply a0 s = .next t) :
    t.ccr = s.ccr := by
  unfold execCommandReply at h
  dsimp only at h
  repeat' split at h
  all_goals simp only [Host.Outcome.next.injEq] at h
  all_goals subst h
  all_goals simp

@[simp] theorem escapeReply_ccr (s : State) (a1 : Nat) (a2 : Packet) (a3 : Ans) :
    (escapeReply s a1 a2 a3).ccr = s.ccr := by
  simp [escapeReply]

@[simp] theorem escapeBusy_ccr (s : State) (a1 : Nat) (a2 : Packet) (a3 : Job) :
    (escapeBusy s a1 a2 a3).ccr = s.ccr := by
  simp [escapeBusy]

@[simp] theorem tellOverrun_ccr (s : State) (r : Nat) (j : Job) :
    (tellOverrun s r j).ccr = s.ccr := by
  simp [tellOverrun]

theorem execCommandOverrun_ccr (r : Req) (s : State) (t : State) (h : execCommandOverrun r s = .next t) :
    t.ccr = s.ccr := by
  unfold execCommandOverrun at h
  dsimp only at h
  repeat' split at h
  all_goals simp only [Host.Outcome.next.injEq] at h
  all_goals subst h
  all_goals simp

theorem runEscape_ccr (s : State) (op : Nat) (k : Packet) :
    (runEscape s op k).ccr = s.ccr ∨ (runEscape s op k).ccr = [] := by
  unfold runEscape
  dsimp only
  split
  · simp
  · rename_i e
    generalize hs : (State.mk _ _ _ _ _ _ _ _ _ _ _ _ _ _ _ _ _ _ _ _) = s2
    have h2 : s2.ccr = s.ccr := by simp [← hs]
    rcases effectOf_ccr op s2 0 k with h | h <;> split <;> simp [h, h2]

theorem escapeBell_ccr (s : State) (op : Nat) (k : Packet) :
    (escapeBell s op k).ccr = s.ccr ∨ (escapeBell s op k).ccr = [] := by
  unfold escapeBell
  repeat' split
  all_goals first
  | exact runEscape_ccr s op k
  | simp

theorem execEscape_ccr (op : BitVec 16) (k : Packet) (s t : State) (h : execEscape op k s = .next t) :
    t.ccr = s.ccr ∨ t.ccr = [] := by
  simp only [execEscape, Host.Outcome.next.injEq] at h
  exact h ▸ escapeBell_ccr s _ k

theorem execHello_ccr (r : Req) (k : Packet) (s t : State) (h : execHello r k s = .next t) :
    t.ccr = s.ccr ∨ t.ccr = [] := by
  simp only [execHello, Host.Outcome.next.injEq] at h
  exact h ▸ doorbell_ccr s _ _ k

theorem execCtxCreate_ccr (r : Req) (k : Packet) (s t : State) (h : execCtxCreate r k s = .next t) :
    t.ccr = s.ccr ∨ t.ccr = [] := by
  simp only [execCtxCreate, Host.Outcome.next.injEq] at h
  exact h ▸ doorbell_ccr s _ _ k

theorem execCtxTeardown_ccr (r : Req) (k : Packet) (s t : State) (h : execCtxTeardown r k s = .next t) :
    t.ccr = s.ccr ∨ t.ccr = [] := by
  simp only [execCtxTeardown, Host.Outcome.next.injEq] at h
  exact h ▸ doorbell_ccr s _ _ k

theorem execGroupBind_ccr (r : Req) (k : Packet) (s t : State) (h : execGroupBind r k s = .next t) :
    t.ccr = s.ccr ∨ t.ccr = [] := by
  simp only [execGroupBind, Host.Outcome.next.injEq] at h
  exact h ▸ doorbell_ccr s _ _ k

theorem execCtxReset_ccr (r : Req) (k : Packet) (s t : State) (h : execCtxReset r k s = .next t) :
    t.ccr = s.ccr ∨ t.ccr = [] := by
  simp only [execCtxReset, Host.Outcome.next.injEq] at h
  exact h ▸ doorbell_ccr s _ _ k

theorem execEngineReset_ccr (r : Req) (k : Packet) (s t : State) (h : execEngineReset r k s = .next t) :
    t.ccr = s.ccr ∨ t.ccr = [] := by
  simp only [execEngineReset, Host.Outcome.next.injEq] at h
  exact h ▸ doorbell_ccr s _ _ k

theorem execPaneReset_ccr (r : Req) (k : Packet) (s t : State) (h : execPaneReset r k s = .next t) :
    t.ccr = s.ccr ∨ t.ccr = [] := by
  simp only [execPaneReset, Host.Outcome.next.injEq] at h
  exact h ▸ doorbell_ccr s _ _ k

theorem execModuleReset_ccr (r : Req) (k : Packet) (s t : State) (h : execModuleReset r k s = .next t) :
    t.ccr = s.ccr ∨ t.ccr = [] := by
  simp only [execModuleReset, Host.Outcome.next.injEq] at h
  exact h ▸ doorbell_ccr s _ _ k

theorem execSlotAlloc_ccr (r : Req) (k : Packet) (s t : State) (h : execSlotAlloc r k s = .next t) :
    t.ccr = s.ccr ∨ t.ccr = [] := by
  simp only [execSlotAlloc, Host.Outcome.next.injEq] at h
  exact h ▸ doorbell_ccr s _ _ k

theorem execStreamShare_ccr (r : Req) (k : Packet) (s t : State) (h : execStreamShare r k s = .next t) :
    t.ccr = s.ccr ∨ t.ccr = [] := by
  simp only [execStreamShare, Host.Outcome.next.injEq] at h
  exact h ▸ doorbell_ccr s _ _ k

theorem execFarQuota_ccr (r : Req) (k : Packet) (s t : State) (h : execFarQuota r k s = .next t) :
    t.ccr = s.ccr ∨ t.ccr = [] := by
  simp only [execFarQuota, Host.Outcome.next.injEq] at h
  exact h ▸ doorbell_ccr s _ _ k

theorem execLatchAlloc_ccr (r : Req) (k : Packet) (s t : State) (h : execLatchAlloc r k s = .next t) :
    t.ccr = s.ccr ∨ t.ccr = [] := by
  simp only [execLatchAlloc, Host.Outcome.next.injEq] at h
  exact h ▸ doorbell_ccr s _ _ k

theorem execJobMapLoad_ccr (r : Req) (k : Packet) (s t : State) (h : execJobMapLoad r k s = .next t) :
    t.ccr = s.ccr ∨ t.ccr = [] := by
  simp only [execJobMapLoad, Host.Outcome.next.injEq] at h
  exact h ▸ doorbell_ccr s _ _ k

theorem execCoordLoad_ccr (r : Req) (k : Packet) (s t : State) (h : execCoordLoad r k s = .next t) :
    t.ccr = s.ccr ∨ t.ccr = [] := by
  simp only [execCoordLoad, Host.Outcome.next.injEq] at h
  exact h ▸ doorbell_ccr s _ _ k

theorem execIdentitySet_ccr (r : Req) (k : Packet) (s t : State) (h : execIdentitySet r k s = .next t) :
    t.ccr = s.ccr ∨ t.ccr = [] := by
  simp only [execIdentitySet, Host.Outcome.next.injEq] at h
  exact h ▸ doorbell_ccr s _ _ k

theorem execPlanLoad_ccr (r : Req) (k : Packet) (s t : State) (h : execPlanLoad r k s = .next t) :
    t.ccr = s.ccr ∨ t.ccr = [] := by
  simp only [execPlanLoad, Host.Outcome.next.injEq] at h
  exact h ▸ doorbell_ccr s _ _ k

theorem execPlanStart_ccr (r : Req) (k : Packet) (s t : State) (h : execPlanStart r k s = .next t) :
    t.ccr = s.ccr ∨ t.ccr = [] := by
  simp only [execPlanStart, Host.Outcome.next.injEq] at h
  exact h ▸ doorbell_ccr s _ _ k

theorem execPlanStop_ccr (r : Req) (k : Packet) (s t : State) (h : execPlanStop r k s = .next t) :
    t.ccr = s.ccr ∨ t.ccr = [] := by
  simp only [execPlanStop, Host.Outcome.next.injEq] at h
  exact h ▸ doorbell_ccr s _ _ k

theorem execWindowGrant_ccr (r : Req) (k : Packet) (s t : State) (h : execWindowGrant r k s = .next t) :
    t.ccr = s.ccr ∨ t.ccr = [] := by
  simp only [execWindowGrant, Host.Outcome.next.injEq] at h
  exact h ▸ doorbell_ccr s _ _ k

theorem execWindowRevoke_ccr (r : Req) (k : Packet) (s t : State) (h : execWindowRevoke r k s = .next t) :
    t.ccr = s.ccr ∨ t.ccr = [] := by
  simp only [execWindowRevoke, Host.Outcome.next.injEq] at h
  exact h ▸ doorbell_ccr s _ _ k

theorem execSealKey_ccr (r : Req) (k : Packet) (s t : State) (h : execSealKey r k s = .next t) :
    t.ccr = s.ccr ∨ t.ccr = [] := by
  simp only [execSealKey, Host.Outcome.next.injEq] at h
  exact h ▸ doorbell_ccr s _ _ k

theorem execLatchOrphan_ccr (r : Req) (k : Packet) (s t : State) (h : execLatchOrphan r k s = .next t) :
    t.ccr = s.ccr ∨ t.ccr = [] := by
  simp only [execLatchOrphan, Host.Outcome.next.injEq] at h
  exact h ▸ doorbell_ccr s _ _ k

theorem execSwapIn_ccr (r : Req) (k : Packet) (s t : State) (h : execSwapIn r k s = .next t) :
    t.ccr = s.ccr ∨ t.ccr = [] := by
  simp only [execSwapIn, Host.Outcome.next.injEq] at h
  exact h ▸ doorbell_ccr s _ _ k

theorem execSwapOut_ccr (r : Req) (k : Packet) (s t : State) (h : execSwapOut r k s = .next t) :
    t.ccr = s.ccr ∨ t.ccr = [] := by
  simp only [execSwapOut, Host.Outcome.next.injEq] at h
  exact h ▸ doorbell_ccr s _ _ k

theorem execShardFetch_ccr (r : Req) (k : Packet) (s t : State) (h : execShardFetch r k s = .next t) :
    t.ccr = s.ccr ∨ t.ccr = [] := by
  simp only [execShardFetch, Host.Outcome.next.injEq] at h
  exact h ▸ doorbell_ccr s _ _ k

theorem execBuddySet_ccr (r : Req) (k : Packet) (s t : State) (h : execBuddySet r k s = .next t) :
    t.ccr = s.ccr ∨ t.ccr = [] := by
  simp only [execBuddySet, Host.Outcome.next.injEq] at h
  exact h ▸ doorbell_ccr s _ _ k

theorem execStormNow_ccr (r : Req) (k : Packet) (s t : State) (h : execStormNow r k s = .next t) :
    t.ccr = s.ccr ∨ t.ccr = [] := by
  simp only [execStormNow, Host.Outcome.next.injEq] at h
  exact h ▸ doorbell_ccr s _ _ k

theorem execDrainSet_ccr (r : Req) (k : Packet) (s t : State) (h : execDrainSet r k s = .next t) :
    t.ccr = s.ccr ∨ t.ccr = [] := by
  simp only [execDrainSet, Host.Outcome.next.injEq] at h
  exact h ▸ doorbell_ccr s _ _ k

theorem execRestore_ccr (r : Req) (k : Packet) (s t : State) (h : execRestore r k s = .next t) :
    t.ccr = s.ccr ∨ t.ccr = [] := by
  simp only [execRestore, Host.Outcome.next.injEq] at h
  exact h ▸ doorbell_ccr s _ _ k

theorem modeBell_ccr (s : State) (r m : Nat) (k : Packet) :
    (modeBell s r m k).ccr = s.ccr ∨ (modeBell s r m k).ccr = [] := by
  unfold modeBell
  split
  · exact doorbell_ccr s r opModeSet k
  · simp

theorem execModeSetPowerCap_ccr (r : Req) (k : Packet) (s t : State) (h : execModeSetPowerCap r k s = .next t) :
    t.ccr = s.ccr ∨ t.ccr = [] := by
  simp only [execModeSetPowerCap, Host.Outcome.next.injEq] at h
  exact h ▸ modeBell_ccr s _ _ k

theorem execModeSetSlotSplit_ccr (r : Req) (k : Packet) (s t : State) (h : execModeSetSlotSplit r k s = .next t) :
    t.ccr = s.ccr ∨ t.ccr = [] := by
  simp only [execModeSetSlotSplit, Host.Outcome.next.injEq] at h
  exact h ▸ modeBell_ccr s _ _ k

theorem execModeSetHoldoverLimit_ccr (r : Req) (k : Packet) (s t : State) (h : execModeSetHoldoverLimit r k s = .next t) :
    t.ccr = s.ccr ∨ t.ccr = [] := by
  simp only [execModeSetHoldoverLimit, Host.Outcome.next.injEq] at h
  exact h ▸ modeBell_ccr s _ _ k

theorem execModeSetCheckValueMode_ccr (r : Req) (k : Packet) (s t : State) (h : execModeSetCheckValueMode r k s = .next t) :
    t.ccr = s.ccr ∨ t.ccr = [] := by
  simp only [execModeSetCheckValueMode, Host.Outcome.next.injEq] at h
  exact h ▸ modeBell_ccr s _ _ k

theorem execModeSetCheckValuePoly_ccr (r : Req) (k : Packet) (s t : State) (h : execModeSetCheckValuePoly r k s = .next t) :
    t.ccr = s.ccr ∨ t.ccr = [] := by
  simp only [execModeSetCheckValuePoly, Host.Outcome.next.injEq] at h
  exact h ▸ modeBell_ccr s _ _ k

theorem execModeSetFarTierWrites_ccr (r : Req) (k : Packet) (s t : State) (h : execModeSetFarTierWrites r k s = .next t) :
    t.ccr = s.ccr ∨ t.ccr = [] := by
  simp only [execModeSetFarTierWrites, Host.Outcome.next.injEq] at h
  exact h ▸ modeBell_ccr s _ _ k

theorem execModeSetExactBf16_ccr (r : Req) (k : Packet) (s t : State) (h : execModeSetExactBf16 r k s = .next t) :
    t.ccr = s.ccr ∨ t.ccr = [] := by
  simp only [execModeSetExactBf16, Host.Outcome.next.injEq] at h
  exact h ▸ modeBell_ccr s _ _ k

theorem execModeSetSealedFrames_ccr (r : Req) (k : Packet) (s t : State) (h : execModeSetSealedFrames r k s = .next t) :
    t.ccr = s.ccr ∨ t.ccr = [] := by
  simp only [execModeSetSealedFrames, Host.Outcome.next.injEq] at h
  exact h ▸ modeBell_ccr s _ _ k

theorem execModeSetStormInterval_ccr (r : Req) (k : Packet) (s t : State) (h : execModeSetStormInterval r k s = .next t) :
    t.ccr = s.ccr ∨ t.ccr = [] := by
  simp only [execModeSetStormInterval, Host.Outcome.next.injEq] at h
  exact h ▸ modeBell_ccr s _ _ k

theorem execModeSetDrainInterval_ccr (r : Req) (k : Packet) (s t : State) (h : execModeSetDrainInterval r k s = .next t) :
    t.ccr = s.ccr ∨ t.ccr = [] := by
  simp only [execModeSetDrainInterval, Host.Outcome.next.injEq] at h
  rw [← h]
  split
  · exact doorbell_ccr s _ _ k
  · simp

theorem execModeGet_ccr (r : Req) (k : Packet) (s t : State) (h : execModeGet r k s = .next t) :
    t.ccr = s.ccr ∨ t.ccr = [] := by
  simp only [execModeGet, Host.Outcome.next.injEq] at h
  exact h ▸ doorbell_ccr s _ _ k

theorem execSelfTest_ccr (r : Req) (k : Packet) (s t : State) (h : execSelfTest r k s = .next t) :
    t.ccr = s.ccr ∨ t.ccr = [] := by
  simp only [execSelfTest, Host.Outcome.next.injEq] at h
  exact h ▸ doorbell_ccr s _ _ k

theorem execShutdown_ccr (r : Req) (k : Packet) (s t : State) (h : execShutdown r k s = .next t) :
    t.ccr = s.ccr ∨ t.ccr = [] := by
  simp only [execShutdown, Host.Outcome.next.injEq] at h
  exact h ▸ doorbell_ccr s _ _ k

theorem execMeterRead_ccr (r : Req) (k : Packet) (s t : State) (h : execMeterRead r k s = .next t) :
    t.ccr = s.ccr ∨ t.ccr = [] := by
  simp only [execMeterRead, Host.Outcome.next.injEq] at h
  exact h ▸ doorbell_ccr s _ _ k

theorem execMeterIdent_ccr (r : Req) (k : Packet) (s t : State) (h : execMeterIdent r k s = .next t) :
    t.ccr = s.ccr ∨ t.ccr = [] := by
  simp only [execMeterIdent, Host.Outcome.next.injEq] at h
  exact h ▸ doorbell_ccr s _ _ k

theorem execEventFreeze_ccr (r : Req) (k : Packet) (s t : State) (h : execEventFreeze r k s = .next t) :
    t.ccr = s.ccr ∨ t.ccr = [] := by
  simp only [execEventFreeze, Host.Outcome.next.injEq] at h
  exact h ▸ doorbell_ccr s _ _ k

theorem execEventRead_ccr (r : Req) (k : Packet) (s t : State) (h : execEventRead r k s = .next t) :
    t.ccr = s.ccr ∨ t.ccr = [] := by
  simp only [execEventRead, Host.Outcome.next.injEq] at h
  exact h ▸ doorbell_ccr s _ _ k

theorem execEventThaw_ccr (r : Req) (k : Packet) (s t : State) (h : execEventThaw r k s = .next t) :
    t.ccr = s.ccr ∨ t.ccr = [] := by
  simp only [execEventThaw, Host.Outcome.next.injEq] at h
  exact h ▸ doorbell_ccr s _ _ k

@[simp] theorem hubOff_ccr (s : State) (c : BitVec 3) : (hubOff s c).ccr = [] := by
  unfold hubOff
  simp

@[simp] theorem holdupActions_ccr (s : State) :
    (holdupActions s).ccr = s.ccr := by
  simp [holdupActions]

theorem execInputPowerLoss_ccr (s t : State) (h : execInputPowerLoss s = .next t) :
    t.ccr = s.ccr ∨ t.ccr = [] := by
  unfold execInputPowerLoss at h
  split at h
  all_goals simp only [Host.Outcome.next.injEq] at h
  all_goals rw [← h]
  all_goals simp

theorem execBankCharged_ccr (s : State) (t : State) (h : execBankCharged s = .next t) :
    t.ccr = s.ccr := by
  simp only [execBankCharged, Host.Outcome.next.injEq] at h
  simp [← h]

theorem execPwrEnAssert_ccr (s : State) (t : State) (h : execPwrEnAssert s = .next t) :
    t.ccr = s.ccr := by
  simp only [execPwrEnAssert, Host.Outcome.next.injEq] at h
  simp [← h]

theorem execPwrEnDeassert_ccr (s t : State) (h : execPwrEnDeassert s = .next t) :
    t.ccr = s.ccr ∨ t.ccr = [] := by
  unfold execPwrEnDeassert at h
  dsimp only at h
  split at h
  all_goals simp only [Host.Outcome.next.injEq] at h
  all_goals rw [← h]
  all_goals simp

theorem execResetNRise_ccr (a0 : BitVec 4) (s : State) (t : State) (h : execResetNRise a0 s = .next t) :
    t.ccr = s.ccr := by
  unfold execResetNRise at h
  split at h <;> cases h <;> simp

theorem execResetNPulse_ccr (s t : State) (h : execResetNPulse s = .next t) :
    t.ccr = s.ccr ∨ t.ccr = [] := by
  simp only [execResetNPulse, Host.Outcome.next.injEq] at h
  rw [← h]
  split <;> simp

theorem execDoorkeeperReady_ccr (s : State) (t : State) (h : execDoorkeeperReady s = .next t) :
    t.ccr = s.ccr := by
  unfold execDoorkeeperReady at h
  split at h <;> cases h <;> simp

@[simp] theorem startupShutter_ccr (s : State) (a1 : Nat) :
    (startupShutter s a1).ccr = s.ccr := by
  simp [startupShutter]

theorem execPaneBringupDone_ccr (s : State) (t : State) (h : execPaneBringupDone s = .next t) :
    t.ccr = s.ccr := by
  unfold execPaneBringupDone at h
  split at h
  · simp only [Host.Outcome.next.injEq] at h
    rw [← h, foldl_ccr _ startupShutter_ccr]
    simp
  · cases h; rfl

@[simp] theorem readSensor_ccr (s : State) (a1 : Nat) (a2 : Nat) :
    (readSensor s a1 a2).ccr = s.ccr := by
  simp [readSensor]

@[simp] theorem thermalEvent_ccr (s : State) (a1 : Nat) (a2 : Nat) :
    (thermalEvent s a1 a2).ccr = s.ccr := by
  simp [thermalEvent]

@[simp] theorem enterTrip_ccr (s : State) (a1 : Nat) :
    (enterTrip s a1).ccr = s.ccr := by
  simp [enterTrip]

theorem execThermalThreshold_ccr (a0 : Fin 33) (a1 : Nat) (s : State) (t : State) (h : execThermalThreshold a0 a1 s = .next t) :
    t.ccr = s.ccr := by
  unfold execThermalThreshold at h
  split at h <;> cases h <;> simp

theorem execThermalClear_ccr (s : State) (t : State) (h : execThermalClear s = .next t) :
    t.ccr = s.ccr := by
  unfold execThermalClear at h
  repeat' split at h
  all_goals cases h
  all_goals simp

@[simp] theorem stopForCap_ccr (s : State) (a1 : Group) :
    (stopForCap s a1).ccr = s.ccr := by
  unfold stopForCap
  split <;> simp

@[simp] theorem setCap_ccr (s : State) (a1 : BitVec 2) :
    (setCap s a1).ccr = s.ccr := by
  simp [setCap]

theorem execCapEffecterSet_ccr (a0 : BitVec 2) (s : State) (t : State) (h : execCapEffecterSet a0 s = .next t) :
    t.ccr = s.ccr := by
  simp only [execCapEffecterSet, Host.Outcome.next.injEq] at h
  simp [← h]

theorem execPldmFirmwareUpdate_ccr (a0 : Fin 3) (a1 : Bool) (s : State) (t : State) (h : execPldmFirmwareUpdate a0 a1 s = .next t) :
    t.ccr = s.ccr := by
  simp only [execPldmFirmwareUpdate, Host.Outcome.next.injEq] at h
  simp [← h]

@[simp] theorem complete_ccr (s : State) (a1 : Completion) :
    (complete s a1).ccr = s.ccr := by
  simp [complete]

@[simp] theorem setSnap_ccr (s : State) (a1 : Nat) (a2 : Option (Nat × List (BitVec 64))) :
    (setSnap s a1 a2).ccr = s.ccr := by
  simp [setSnap]

theorem execWideRegisterRead_ccr (a0 : Accessor) (a1 : BitVec 21) (a2 : Nat) (s : State) (t : State) (h : execWideRegisterRead a0 a1 a2 s = .next t) :
    t.ccr = s.ccr := by
  unfold execWideRegisterRead at h
  repeat' split at h
  all_goals cases h
  all_goals simp

@[simp] theorem writeTrim_ccr (s : State) (a1 : Accessor) (a2 : BitVec 32) :
    (writeTrim s a1 a2).ccr = s.ccr := by
  unfold writeTrim
  split
  · rename_i h
    exact execBeatTrimWrite_ccr _ _ _ _ h
  · rfl

@[simp] theorem writeModule_ccr (s : State) (a1 : Nat) (a2 : Nat) :
    (writeModule s a1 a2).ccr = s.ccr := by
  unfold writeModule
  split <;> simp

@[simp] theorem writePane_ccr (s : State) (a1 : Nat) (a2 : Nat) (a3 : Nat) :
    (writePane s a1 a2 a3).ccr = s.ccr := by
  unfold writePane
  split <;> simp

@[simp] theorem areaPacket_ccr (s : State) (a1 : Tbl Byte) (a2 : Nat) :
    (areaPacket s a1 a2).1.ccr = s.ccr := by
  unfold areaPacket
  dsimp only
  repeat' split
  all_goals simp

theorem writeMailbox_ccr (s : State) (r o v : Nat) :
    (writeMailbox s r o v).ccr = s.ccr ∨ (writeMailbox s r o v).ccr = [] := by
  unfold writeMailbox
  dsimp only
  repeat' split
  · exact (doorbell_ccr _ r _ _).imp (fun h => by simp [h]) id
  · simp
  · exact (escapeBell_ccr _ _ _).imp (fun h => by simp [h]) id
  all_goals simp

@[simp] theorem firePending_ccr (s : State) (a1 : Nat) (a2 : Nat) :
    (firePending s a1 a2).ccr = s.ccr := by
  simp [firePending]

@[simp] theorem writeMsix_ccr (s : State) (a1 : Nat) (a2 : Nat) (a3 : Nat) :
    (writeMsix s a1 a2 a3).ccr = s.ccr := by
  simp [writeMsix]

theorem writeWord_ccr (s : State) (fn ofs v : Nat) :
    (writeWord s fn ofs v).ccr = s.ccr ∨ (writeWord s fn ofs v).ccr = [] := by
  unfold writeWord
  split
  · exact writeMailbox_ccr s _ _ v
  all_goals first
  | simp
  | (split <;> simp)

theorem execRegisterWrite_ccr (a : Accessor) (ofs : BitVec 21) (n : Nat) (v : BitVec 64) (s t : State)
    (h : execRegisterWrite a ofs n v s = .next t) : t.ccr = s.ccr ∨ t.ccr = [] := by
  unfold execRegisterWrite at h
  repeat' split at h
  all_goals simp only [Host.Outcome.next.injEq] at h
  all_goals rw [← h]
  · simp
  · simp
  · simpa using writeWord_ccr s _ ofs.toNat v.toNat
  · simp

@[simp] theorem idleMailbox_ccr (s : State) (a1 : Nat) :
    (idleMailbox s a1).ccr = s.ccr := by
  simp [idleMailbox]

@[simp] theorem resetMailbox_ccr (s : State) (a1 : Nat) :
    (resetMailbox s a1).ccr = s.ccr := by
  simp [resetMailbox]

theorem execVfFlr_ccr (a0 : Pane16) (s : State) (t : State) (h : execVfFlr a0 s = .next t) :
    t.ccr = s.ccr := by
  unfold execVfFlr at h
  split at h <;> cases h <;> simp

theorem execPfFlr_ccr (s : State) (t : State) (h : execPfFlr s = .next t) :
    t.ccr = s.ccr := by
  unfold execPfFlr at h
  split at h <;> cases h <;> simp

theorem execVfEnableChange_ccr (a0 : Nat) (s : State) (t : State) (h : execVfEnableChange a0 s = .next t) :
    t.ccr = s.ccr := by
  unfold execVfEnableChange at h
  repeat' split at h
  all_goals cases h
  all_goals simp

theorem execAtsInvalidation_ccr (a0 : BitVec 64) (a1 : Fin 17) (s : State) (t : State) (h : execAtsInvalidation a0 a1 s = .next t) :
    t.ccr = s.ccr := by
  simp only [execAtsInvalidation, Host.Outcome.next.injEq] at h
  simp [← h]

@[simp] theorem sbAnswer_ccr (s : State) (a1 : Nat) (a2 : Nat) (a3 : BitVec 32) (a4 : BitVec 32) (a5 : List Byte) :
    (sbAnswer s a1 a2 a3 a4 a5).ccr = s.ccr := by
  simp [sbAnswer]

theorem execSbRegisterRead_ccr (a0 : BitVec 32) (a1 : BitVec 32) (a2 : BitVec 16) (s : State) (t : State) (h : execSbRegisterRead a0 a1 a2 s = .next t) :
    t.ccr = s.ccr := by
  unfold execSbRegisterRead at h
  split at h <;> cases h <;> simp

theorem execSbRegisterWrite_ccr (a0 : BitVec 32) (a1 : BitVec 32) (a2 : BitVec 16) (a3 : BitVec 64) (s : State) (t : State) (h : execSbRegisterWrite a0 a1 a2 a3 s = .next t) :
    t.ccr = s.ccr := by
  unfold execSbRegisterWrite at h
  repeat' split at h
  all_goals cases h
  all_goals simp

theorem execSbMeterIdent_ccr (a0 : BitVec 32) (s : State) (t : State) (h : execSbMeterIdent a0 s = .next t) :
    t.ccr = s.ccr := by
  unfold execSbMeterIdent at h
  split at h <;> cases h <;> simp

@[simp] theorem sendReceipt_ccr (s : State) (a1 : BitVec 16) (a2 : BitVec 32) :
    (sendReceipt s a1 a2).ccr = s.ccr := by
  simp [sendReceipt]

theorem fmRun_ccr (s : State) (e : Option (BitVec 16)) (x : BitVec 32) (d : List Byte) :
    (fmRun s e x d).ccr = s.ccr ∨ (fmRun s e x d).ccr = [] := fmPacket_ccr s e x _ _

theorem fmAssemble_ccr (s : State) (e : BitVec 16) (f : FmFragment) :
    (fmAssemble s e f).ccr = s.ccr ∨ (fmAssemble s e f).ccr = [] := by
  unfold fmAssemble
  extract_lets
  split
  · simp
  · split
    · exact (fmRun_ccr _ _ _ _).imp (fun h => h.trans rfl) id
    · exact (fmRun_ccr _ _ _ _).imp (fun h => h.trans ((sendReceipt_ccr _ _ _).trans rfl)) id

@[simp] theorem noteRelay_ccr (s : State) (a1 : FmFragment) :
    (noteRelay s a1).ccr = s.ccr := by
  simp [noteRelay]

@[simp] theorem sbFragStatus_ccr (s : State) (a1 : Nat) (a2 : BitVec 16) (a3 : BitVec 32) :
    (sbFragStatus s a1 a2 a3).ccr = s.ccr := by
  simp [sbFragStatus]

theorem execFmRequestFragment_ccr (f : FmFragment) (s t : State) (h : execFmRequestFragment f s = .next t) :
    t.ccr = s.ccr ∨ t.ccr = [] := by
  unfold execFmRequestFragment at h
  dsimp only at h
  repeat' split at h
  all_goals simp only [Host.Outcome.next.injEq] at h
  all_goals rw [← h]
  · simp
  · simp
  · exact fmAssemble_ccr s _ f
  all_goals simp

@[simp] theorem fmReturn_ccr (s : State) (a1 : FmFragment) :
    (fmReturn s a1).ccr = s.ccr := by
  unfold fmReturn
  split <;> simp

theorem fmArrive_ccr (s : State) (f : FmFragment) :
    (fmArrive s f).ccr = s.ccr ∨ (fmArrive s f).ccr = [] := by
  unfold fmArrive
  split
  · exact fmAssemble_ccr s _ f
  · split <;> simp

@[simp] theorem fmForward_ccr (s : State) (a1 : Nat) (a2 : Option (Nat × Nat × Nat)) (a3 : FmFragment) :
    (fmForward s a1 a2 a3).ccr = s.ccr := by
  simp [fmForward]

theorem execFmFragmentReceived_ccr (p : PortId) (f : FmFragment) (s t : State)
    (h : execFmFragmentReceived p f s = .next t) : t.ccr = s.ccr ∨ t.ccr = [] := by
  unfold execFmFragmentReceived at h
  repeat' split at h
  all_goals simp only [Host.Outcome.next.injEq] at h
  all_goals rw [← h]
  · simp
  · exact fmArrive_ccr s f
  · simp

theorem execFmReceiptRepeat_ccr (s : State) (t : State) (h : execFmReceiptRepeat s = .next t) :
    t.ccr = s.ccr := by
  unfold execFmReceiptRepeat at h
  repeat' split at h
  all_goals cases h
  all_goals simp

theorem execFmUnreachableTimeout_ccr (s : State) (t : State) (h : execFmUnreachableTimeout s = .next t) :
    t.ccr = s.ccr := by
  unfold execFmUnreachableTimeout at h
  dsimp only at h
  repeat' split at h
  all_goals simp only [Host.Outcome.next.injEq] at h
  all_goals subst h
  all_goals simp

@[simp] theorem askReplay_ccr (s : State) (a1 : Nat) (a2 : Nat) (a3 : Nat) :
    (askReplay s a1 a2 a3).ccr = s.ccr := by
  simp [askReplay]

@[simp] theorem countSymbols_ccr (a0 : Nat) (s : State) (a2 : Nat × Nat) :
    (countSymbols a0 s a2).ccr = s.ccr := by
  simp [countSymbols]

@[simp] theorem countFec_ccr (s : State) (a1 : Nat) (a2 : RxSlot) :
    (countFec s a1 a2).ccr = s.ccr := by
  simp [countFec]

@[simp] theorem failCheck_ccr (s : State) (a1 : Nat) (a2 : Nat) :
    (failCheck s a1 a2).ccr = s.ccr := by
  simp [failCheck]

@[simp] theorem readFlags_ccr (s : State) (a1 : SlotHdr) :
    (readFlags s a1).ccr = s.ccr := by
  simp [readFlags]

@[simp] theorem sealFail_ccr (s : State) (a1 : Nat) (a2 : Nat) (a3 : Nat) (a4 : BitVec 16) :
    (sealFail s a1 a2 a3 a4).ccr = s.ccr := by
  simp [sealFail]

@[simp] theorem misplace_ccr (s : State) (a1 : Nat) (a2 : Nat) (a3 : Group) (a4 : Nat) :
    (misplace s a1 a2 a3 a4).ccr = s.ccr := by
  simp [misplace]

@[simp] theorem forwardSlot_ccr (s : State) (a1 : Group) (a2 : SlotRun) (a3 : Nat) (a4 : Nat) (a5 : Option (Nat × Nat)) (a6 : SlotImg) :
    (forwardSlot s a1 a2 a3 a4 a5 a6).ccr = s.ccr := by
  simp [forwardSlot]

@[simp] theorem landStream_ccr (s : State) (a1 : Group) (a2 : List Byte) (a3 : SlotRun) (a4 : Nat) (a5 : Nat) (a6 : List Byte) :
    (landStream s a1 a2 a3 a4 a5 a6).ccr = s.ccr := by
  simp [landStream]

@[simp] theorem takeStream_ccr (s : State) (a1 : Nat) (a2 : Group) (a3 : List Byte) (a4 : SlotRun) (a5 : Nat) (a6 : Nat) (a7 : SlotImg) :
    (takeStream s a1 a2 a3 a4 a5 a6 a7).ccr = s.ccr := by
  unfold takeStream
  dsimp only
  repeat' split
  all_goals simp

@[simp] theorem placePlan_ccr (s : State) (a1 : Nat) (a2 : Nat) (a3 : Group) (a4 : List Byte) (a5 : Run) (a6 : Nat) (a7 : Option (Nat × Nat)) (a8 : SlotImg) :
    (placePlan s a1 a2 a3 a4 a5 a6 a7 a8).ccr = s.ccr := by
  unfold placePlan
  dsimp only
  repeat' split
  all_goals simp

@[simp] theorem receivePlan_ccr (s : State) (a1 : Nat) (a2 : Nat) (a3 : Nat) (a4 : Option (Nat × Nat)) (a5 : SlotImg) :
    (receivePlan s a1 a2 a3 a4 a5).ccr = s.ccr := by
  unfold receivePlan
  repeat' split
  all_goals simp

@[simp] theorem passOn_ccr (s : State) (a1 : Nat × Nat × Nat) (a2 : Nat) (a3 : BitVec 16) (a4 : List Byte) (a5 : Option SlotHdr) :
    (passOn s a1 a2 a3 a4 a5).ccr = s.ccr := by
  simp [passOn]

@[simp] theorem takeMsg_ccr (s : State) (a1 : Msg) :
    (takeMsg s a1).ccr = s.ccr := by
  unfold takeMsg
  dsimp only
  repeat' split
  all_goals simp

@[simp] theorem routeMsg_ccr (a0 : Nat × Nat × Nat) (a1 : Nat) (s : State) (a3 : Msg) :
    (routeMsg a0 a1 s a3).ccr = s.ccr := by
  simp [routeMsg]

theorem routeMgmt_ccr (s : State) (key : Nat × Nat × Nat) (d : List Byte) :
    (routeMgmt s key d).ccr = s.ccr ∨ (routeMgmt s key d).ccr = [] := by
  unfold routeMgmt
  extract_lets
  split
  · split <;> simp
  · split
    · split
      · exact fmArrive_ccr s _
      · simp
    · simp

@[simp] theorem takeBulk_ccr (s : State) (d : List Byte) (isSealed : Bool) :
    (takeBulk s d isSealed).ccr = s.ccr := by
  simp [takeBulk]

@[simp] theorem routeBulk_ccr (s : State) (a1 : Nat × Nat × Nat) (a2 : List Byte) :
    (routeBulk s a1 a2).ccr = s.ccr := by
  simp [routeBulk]

theorem takeClear_ccr (s : State) (key : Nat × Nat × Nat) (c : Nat) (d : List Byte) :
    (takeClear s key c d).ccr = s.ccr ∨ (takeClear s key c d).ccr = [] := by
  unfold takeClear
  split
  · exact routeMgmt_ccr s key d
  · left; split
    · simp
    · exact foldl_ccr _ (fun s m => by simp) _ _

@[simp] theorem takeSealed_ccr (s : State) (key : Nat × Nat × Nat) (c : Nat) (h : HeldSlot) :
    (takeSealed s key c h).ccr = s.ccr := by
  unfold takeSealed
  dsimp only
  repeat' split
  all_goals simp

theorem deliverSlot_ccr (s : State) (p : Nat) (h : HeldSlot) (kind : Nat) :
    (deliverSlot s p h kind).ccr = s.ccr ∨ (deliverSlot s p h kind).ccr = [] := by
  unfold deliverSlot
  split
  · simp
  · rename_i c _
    extract_lets k s1
    have key : s1.ccr = s.ccr ∨ s1.ccr = [] := by
      simp only [s1]
      split
      · simp
      · exact takeClear_ccr s _ c _
    split
    · rw [modTraf_ccr]; exact key
    · exact key

theorem inOrder_ccr (s : State) (p : Nat) (h : HeldSlot) :
    (inOrder s p h).ccr = s.ccr ∨ (inOrder s p h).ccr = [] := by
  unfold inOrder
  split
  · simp
  · exact deliverSlot_ccr s p h _

theorem releaseHeld_ccr (s : State) (p : Nat) :
    (releaseHeld s p).ccr = s.ccr ∨ (releaseHeld s p).ccr = [] := by
  unfold releaseHeld
  refine foldl_ccrOr _ (fun s h => ?_) _ _
  split
  · simp
  · exact (deliverSlot_ccr _ p h _).imp (fun h => by simp [h]) id

@[simp] theorem countReplay_ccr (s : State) (a1 : Nat) :
    (countReplay s a1).ccr = s.ccr := by
  simp [countReplay]

theorem receiveReplay_ccr (s : State) (p : Nat) (x : SlotImg) (dest : BitVec 16) :
    (receiveReplay s p x dest).ccr = s.ccr ∨ (receiveReplay s p x dest).ccr = [] := by
  unfold receiveReplay
  extract_lets
  split
  · refine ccrOr_trans (t := _) ?_ (releaseHeld_ccr _ p)
    split
    · simp
    · exact (inOrder_ccr _ p _).imp (fun h => h.trans (by simp)) id
  · split <;> simp

theorem takeSlot_ccr (s : State) (p : Nat) (x : SlotImg) (dest : BitVec 16) :
    (takeSlot s p x dest).ccr = s.ccr ∨ (takeSlot s p x dest).ccr = [] := by
  have hs : (readFlags s x.hdr).ccr = s.ccr := by simp
  unfold takeSlot
  extract_lets b n kind s1
  change s1.ccr = s.ccr at hs
  split
  · simp [hs]
  · split
    · simp [hs]
    · split
      · simp [hs]
      · split
        · exact (receiveReplay_ccr _ p x dest).imp (fun h => h.trans hs) id
        · exact (inOrder_ccr _ p _).imp (fun h => h.trans hs) id

theorem execSlotReceived_ccr (port : PortId) (rx : RxSlot) (s t : State)
    (h : execSlotReceived port rx s = .next t) : t.ccr = s.ccr ∨ t.ccr = [] := by
  unfold execSlotReceived at h
  dsimp only at h
  repeat' split at h
  all_goals simp only [Host.Outcome.next.injEq] at h
  all_goals rw [← h]
  · simp
  · simp
  · simp
  · exact (takeSlot_ccr _ _ _ _).imp (fun h => by simp [h]) id

theorem execSyncWait_ccr (a0 : Pane16) (a1 : LCell) (s : State) (t : State) (h : execSyncWait a0 a1 s = .next t) :
    t.ccr = s.ccr := by
  simp only [execSyncWait, Host.Outcome.next.injEq] at h
  simp [← h]

theorem execPaneBarrier_ccr (a0 : Pane16) (a1 : LCell) (s : State) (t : State) (h : execPaneBarrier a0 a1 s = .next t) :
    t.ccr = s.ccr := by
  simp only [execPaneBarrier, Host.Outcome.next.injEq] at h
  simp [← h]

theorem execBarrierComplete_ccr (a0 : Pane16) (a1 : BitVec 4) (s : State) (t : State) (h : execBarrierComplete a0 a1 s = .next t) :
    t.ccr = s.ccr := by
  unfold execBarrierComplete at h
  split at h <;> cases h <;> simp

@[simp] theorem latchRefused_ccr (s : State) (p l t : Nat) :
    (latchRefused s p l t).ccr = s.ccr := by
  simp [latchRefused]

@[simp] theorem issueLatch_ccr (op a : Nat) (good : Bool) (s : State) (p l w : Nat) :
    (issueLatch op a good s p l w).ccr = s.ccr := by
  unfold issueLatch
  dsimp only
  split
  · simp
  · split
    · simp
    · split
      · rename_i hl
        simp [latchRequest_done_ccr _ _ _ _ _ _ _ _ hl]
      · rename_i hl
        simp [latchRequest_waits_ccr _ _ _ _ _ _ hl]
      · simp

theorem execSyncArrive_ccr (a0 : Pane16) (a1 : LCell) (s : State) (t : State) (h : execSyncArrive a0 a1 s = .next t) :
    t.ccr = s.ccr := by
  simp only [execSyncArrive, Host.Outcome.next.injEq] at h
  simp [← h]

theorem execSyncLatchWait_ccr (a0 : Pane16) (a1 : LCell) (s : State) (t : State) (h : execSyncLatchWait a0 a1 s = .next t) :
    t.ccr = s.ccr := by
  simp only [execSyncLatchWait, Host.Outcome.next.injEq] at h
  simp [← h]

theorem execSyncAcquire_ccr (a0 : Pane16) (a1 : LCell) (s : State) (t : State) (h : execSyncAcquire a0 a1 s = .next t) :
    t.ccr = s.ccr := by
  simp only [execSyncAcquire, Host.Outcome.next.injEq] at h
  simp [← h]

theorem execSyncRelease_ccr (a0 : Pane16) (a1 : LCell) (s : State) (t : State) (h : execSyncRelease a0 a1 s = .next t) :
    t.ccr = s.ccr := by
  simp only [execSyncRelease, Host.Outcome.next.injEq] at h
  simp [← h]

@[simp] theorem endLatchOp_ccr (s : State) (a1 : Nat) (a2 : Nat) (a3 : Nat) (a4 : Nat) (a5 : LatchOp) (a6 : Nat) (a7 : BitVec 64) :
    (endLatchOp s a1 a2 a3 a4 a5 a6 a7).ccr = s.ccr := by
  simp [endLatchOp]

@[simp] theorem retryLatch_ccr (s : State) (p l t i : Nat) (op : LatchOp) :
    (retryLatch s p l t i op).ccr = s.ccr := by
  unfold retryLatch
  dsimp only
  split
  · rename_i hl
    simp [latchRequest_done_ccr _ _ _ _ _ _ _ _ hl]
  · rename_i hl
    simp [latchRequest_waits_ccr _ _ _ _ _ _ hl]
  · simp

theorem execLatchOpComplete_ccr (a0 : Pane16) (a1 : LCell) (a2 : BitVec 6) (s : State) (t : State) (h : execLatchOpComplete a0 a1 a2 s = .next t) :
    t.ccr = s.ccr := by
  unfold execLatchOpComplete at h
  repeat' split at h
  all_goals cases h
  all_goals simp

@[simp] theorem unwait_ccr (s : State) (a1 : Nat) (a2 : Nat) (a3 : Nat) (a4 : Nat) :
    (unwait s a1 a2 a3 a4).ccr = s.ccr := by
  simp [unwait]

theorem execSyncWaitLimit_ccr (a0 : Pane16) (a1 : LCell) (a2 : BitVec 6) (s : State) (t : State) (h : execSyncWaitLimit a0 a1 a2 s = .next t) :
    t.ccr = s.ccr := by
  unfold execSyncWaitLimit at h
  repeat' split at h
  all_goals cases h
  all_goals simp

@[simp] theorem issueRmo_ccr (s : State) (a1 : Nat) (a2 : Nat) (a3 : Nat) :
    (issueRmo s a1 a2 a3).ccr = s.ccr := by
  unfold issueRmo
  dsimp only
  repeat' split
  all_goals simp

theorem execPut_ccr (a0 : Pane16) (a1 : LCell) (s : State) (t : State) (h : execPut a0 a1 s = .next t) :
    t.ccr = s.ccr := by
  simp only [execPut, Host.Outcome.next.injEq] at h
  simp [← h]

theorem execGet_ccr (a0 : Pane16) (a1 : LCell) (s : State) (t : State) (h : execGet a0 a1 s = .next t) :
    t.ccr = s.ccr := by
  simp only [execGet, Host.Outcome.next.injEq] at h
  simp [← h]

theorem execRmoAdd_ccr (a0 : Pane16) (a1 : LCell) (s : State) (t : State) (h : execRmoAdd a0 a1 s = .next t) :
    t.ccr = s.ccr := by
  simp only [execRmoAdd, Host.Outcome.next.injEq] at h
  simp [← h]

theorem execSwap_ccr (a0 : Pane16) (a1 : LCell) (s : State) (t : State) (h : execSwap a0 a1 s = .next t) :
    t.ccr = s.ccr := by
  simp only [execSwap, Host.Outcome.next.injEq] at h
  simp [← h]

theorem execCompareSwap_ccr (a0 : Pane16) (a1 : LCell) (s : State) (t : State) (h : execCompareSwap a0 a1 s = .next t) :
    t.ccr = s.ccr := by
  simp only [execCompareSwap, Host.Outcome.next.injEq] at h
  simp [← h]

theorem execRmoArrive_ccr (a0 : Pane16) (a1 : LCell) (s : State) (t : State) (h : execRmoArrive a0 a1 s = .next t) :
    t.ccr = s.ccr := by
  simp only [execRmoArrive, Host.Outcome.next.injEq] at h
  simp [← h]

theorem execRmoWait_ccr (a0 : Pane16) (a1 : LCell) (s : State) (t : State) (h : execRmoWait a0 a1 s = .next t) :
    t.ccr = s.ccr := by
  simp only [execRmoWait, Host.Outcome.next.injEq] at h
  simp [← h]

theorem execRmoAcquire_ccr (a0 : Pane16) (a1 : LCell) (s : State) (t : State) (h : execRmoAcquire a0 a1 s = .next t) :
    t.ccr = s.ccr := by
  simp only [execRmoAcquire, Host.Outcome.next.injEq] at h
  simp [← h]

theorem execRmoRelease_ccr (a0 : Pane16) (a1 : LCell) (s : State) (t : State) (h : execRmoRelease a0 a1 s = .next t) :
    t.ccr = s.ccr := by
  simp only [execRmoRelease, Host.Outcome.next.injEq] at h
  simp [← h]

@[simp] theorem putFragment_ccr (s : State) (a1 : Nat) (a2 : Msg) (a3 : Nat) :
    (putFragment s a1 a2 a3).ccr = s.ccr := by
  simp [putFragment]

@[simp] theorem respondGet_ccr (s : State) (a1 : Nat) (a2 : Msg) (a3 : Nat) :
    (respondGet s a1 a2 a3).ccr = s.ccr := by
  simp [respondGet]

@[simp] theorem serveRequest_ccr (s : State) (a1 : Nat) (a2 : Msg) :
    (serveRequest s a1 a2).ccr = s.ccr := by
  unfold serveRequest
  dsimp only
  repeat' split
  all_goals first
  | (rename_i hl
     simp [latchRequest_done_ccr _ _ _ _ _ _ _ _ hl]
     done)
  | (rename_i hl hc
     simp [latchRequest_done_ccr _ _ _ _ _ _ _ _ hl]
     done)
  | (rename_i hl
     simp [latchRequest_waits_ccr _ _ _ _ _ _ hl]
     done)
  | simp

@[simp] theorem refuseTested_ccr (s : State) (p : Nat) (m : Msg) :
    (refuseTested s p m).ccr = s.ccr := by
  simp [refuseTested]

theorem execRequestMessageReceived_ccr (a0 : Pane16) (s : State) (t : State) (h : execRequestMessageReceived a0 s = .next t) :
    t.ccr = s.ccr := by
  unfold execRequestMessageReceived at h
  dsimp only at h
  repeat' split at h
  all_goals simp only [Host.Outcome.next.injEq] at h
  all_goals subst h
  all_goals simp

@[simp] theorem getFragment_ccr (s : State) (a1 : Nat) (a2 : RmoOp) (a3 : Msg) :
    (getFragment s a1 a2 a3).ccr = s.ccr := by
  simp [getFragment]

theorem execResponseMessageReceived_ccr (a0 : Pane16) (s : State) (t : State) (h : execResponseMessageReceived a0 s = .next t) :
    t.ccr = s.ccr := by
  unfold execResponseMessageReceived at h
  repeat' split at h
  all_goals cases h
  all_goals simp

theorem execRefusalReceived_ccr (a0 : Pane16) (s : State) (t : State) (h : execRefusalReceived a0 s = .next t) :
    t.ccr = s.ccr := by
  unfold execRefusalReceived at h
  repeat' split at h
  all_goals cases h
  all_goals simp

theorem execRmoResend_ccr (a0 : Pane16) (a1 : BitVec 32) (s : State) (t : State) (h : execRmoResend a0 a1 s = .next t) :
    t.ccr = s.ccr := by
  unfold execRmoResend at h
  repeat' split at h
  all_goals cases h
  all_goals simp

theorem execRmoTimeout_ccr (a0 : Pane16) (a1 : BitVec 32) (s : State) (t : State) (h : execRmoTimeout a0 a1 s = .next t) :
    t.ccr = s.ccr := by
  unfold execRmoTimeout at h
  repeat' split at h
  all_goals cases h
  all_goals simp

theorem execWindowRevokeDone_ccr (a0 : Pane16) (a1 : BitVec 8) (s : State) (t : State) (h : execWindowRevokeDone a0 a1 s = .next t) :
    t.ccr = s.ccr := by
  unfold execWindowRevokeDone at h
  repeat' split at h
  all_goals cases h
  all_goals simp

end Sys2Proof.Machine

end
end

