-- ==== Sys2Proof/Laws/Table.lean ====
section
/-! SUPPORT. Laws of the sparse tables and byte memories: what a read gives after a write, and that every operation keeps
the canonical form. -/

namespace Sys2Proof.Machine

variable {β : Type}

/-! ### `tblSet` -/

theorem tblGet_tblSet_self (d : β) (t : Tbl β) (a : Nat) (v : β) : tblGet d (tblSet t a v) a = v := by
  induction t with
  | nil => simp [tblSet, tblGet]
  | cons e r ih =>
    obtain ⟨k, w⟩ := e
    simp only [tblSet]
    split
    · simp [tblGet]
    · split
      · simp [tblGet]
      · have : k ≠ a := by omega
        simp [tblGet, this, ih]

theorem tblGet_tblSet_ne (d : β) (t : Tbl β) (a b : Nat) (v : β) (h : b ≠ a) :
    tblGet d (tblSet t a v) b = tblGet d t b := by
  induction t with
  | nil => simp [tblSet, tblGet, h.symm]
  | cons e r ih =>
    obtain ⟨k, w⟩ := e
    simp only [tblSet]
    split
    · simp [tblGet, h.symm]
    · split
      · rename_i h1; subst h1; simp [tblGet, h.symm]
      · simp only [tblGet, ih]

/-- What a table holds after an entry has been set. -/
theorem tblGet_tblSet (d : β) (t : Tbl β) (a b : Nat) (v : β) :
    tblGet d (tblSet t a v) b = if b = a then v else tblGet d t b := by
  split
  · rename_i h; subst h; exact tblGet_tblSet_self d t b v
  · exact tblGet_tblSet_ne d t a b v ‹_›

/-! ### `tblPut` -/

variable [DecidableEq β]

theorem tblGet_tblPut_ne (d : β) (t : Tbl β) (a b : Nat) (v : β) (h : b ≠ a) :
    tblGet d (tblPut d t a v) b = tblGet d t b := by
  induction t with
  | nil => simp only [tblPut]; split <;> simp [tblGet, h.symm]
  | cons e r ih =>
    obtain ⟨k, w⟩ := e
    simp only [tblPut]
    split
    · split <;> simp [tblGet, h.symm]
    · split
      · rename_i h1; subst h1
        split <;> simp [tblGet, h.symm]
      · simp only [tblGet, ih]

/-- A table in canonical form above a bound lists nothing at or below it. -/
theorem tblGet_low (d : β) (t : Tbl β) (lo a : Nat) (h : tblWfFrom d (some lo) t = true) (ha : a ≤ lo) :
    tblGet d t a = d := by
  induction t generalizing lo with
  | nil => rfl
  | cons e r ih =>
    obtain ⟨k, w⟩ := e
    simp only [tblWfFrom, Bool.and_eq_true, decide_eq_true_eq] at h
    have : k ≠ a := by omega
    simp only [tblGet, this, if_false]
    exact ih k h.2 (by omega)

theorem tblWfFrom_weaken (d : β) (t : Tbl β) (lo lo' : Nat) (h : tblWfFrom d (some lo) t = true) (hl : lo' ≤ lo) :
    tblWfFrom d (some lo') t = true := by
  cases t with
  | nil => rfl
  | cons e r =>
    obtain ⟨k, w⟩ := e
    simp only [tblWfFrom, Bool.and_eq_true, decide_eq_true_eq] at h ⊢
    exact ⟨⟨by omega, h.1.2⟩, h.2⟩

theorem tblWfFrom_none (d : β) (t : Tbl β) (lo : Nat) (h : tblWfFrom d (some lo) t = true) :
    tblWfFrom d none t = true := by
  cases t with
  | nil => rfl
  | cons e r =>
    obtain ⟨k, w⟩ := e
    simp only [tblWfFrom, Bool.and_eq_true, decide_eq_true_eq] at h ⊢
    exact ⟨h.1.2, h.2⟩

theorem tblWfFrom_tblPut (d : β) (t : Tbl β) (lo a : Nat) (v : β) (h : tblWfFrom d (some lo) t = true) (hl : lo < a) :
    tblWfFrom d (some lo) (tblPut d t a v) = true := by
  induction t generalizing lo with
  | nil =>
    simp only [tblPut]
    split <;> simp_all [tblWfFrom]
  | cons e r ih =>
    obtain ⟨k, w⟩ := e
    have h' := h
    simp only [tblWfFrom, Bool.and_eq_true, decide_eq_true_eq] at h
    simp only [tblPut]
    split
    · split
      · exact h'
      · rename_i hk hv
        simp only [tblWfFrom, Bool.and_eq_true, decide_eq_true_eq]
        exact ⟨⟨hl, hv⟩, ⟨hk, h.1.2⟩, h.2⟩
    · split
      · split
        · rename_i hk _; subst hk
          exact tblWfFrom_weaken d r a lo h.2 (by omega)
        · rename_i hk hv; subst hk
          simp only [tblWfFrom, Bool.and_eq_true, decide_eq_true_eq]
          exact ⟨⟨hl, hv⟩, h.2⟩
      · simp only [tblWfFrom, Bool.and_eq_true, decide_eq_true_eq]
        exact ⟨h.1, ih k h.2 (by omega)⟩

/-- Writing an entry keeps the canonical form. -/
theorem tblWf_tblPut (d : β) (t : Tbl β) (a : Nat) (v : β) (h : tblWf d t = true) : tblWf d (tblPut d t a v) = true := by
  unfold tblWf at h ⊢
  cases t with
  | nil => simp only [tblPut]; split <;> simp_all [tblWfFrom]
  | cons e r =>
    obtain ⟨k, w⟩ := e
    have h' := h
    simp only [tblWfFrom, Bool.and_eq_true, decide_eq_true_eq] at h
    simp only [tblPut]
    split
    · split
      · exact h'
      · rename_i hk hv
        simp only [tblWfFrom, Bool.and_eq_true, decide_eq_true_eq]
        exact ⟨hv, ⟨hk, h.1⟩, h.2⟩
    · split
      · split
        · exact tblWfFrom_none d r k h.2
        · rename_i hk hv; subst hk
          simp only [tblWfFrom, Bool.and_eq_true, decide_eq_true_eq]
          exact ⟨hv, h.2⟩
      · simp only [tblWfFrom, Bool.and_eq_true, decide_eq_true_eq]
        exact ⟨h.1, tblWfFrom_tblPut d r k a v h.2 (by omega)⟩

theorem tblGet_tblPut_self (d : β) (t : Tbl β) (a : Nat) (v : β) (h : tblWf d t = true) :
    tblGet d (tblPut d t a v) a = v := by
  have key : ∀ (lo : Option Nat) (t : Tbl β), tblWfFrom d lo t = true → tblGet d (tblPut d t a v) a = v := by
    intro lo t
    induction t generalizing lo with
    | nil =>
      intro _
      simp only [tblPut]
      split
      · rename_i hv; simp [tblGet, hv]
      · simp [tblGet]
    | cons e r ih =>
      obtain ⟨k, w⟩ := e
      intro hw
      have hr : tblWfFrom d (some k) r = true := by
        cases lo <;> simp only [tblWfFrom, Bool.and_eq_true, decide_eq_true_eq] at hw <;> exact hw.2
      simp only [tblPut]
      split
      · rename_i hk
        split
        · rename_i hv
          have : k ≠ a := by omega
          simp only [tblGet, this, if_false]
          rw [hv]
          exact tblGet_low d r k a hr (by omega)
        · simp [tblGet]
      · split
        · split
          · rename_i hk hv
            rw [hv]
            exact tblGet_low d r k a hr (by omega)
          · simp [tblGet]
        · have : k ≠ a := by omega
          simp only [tblGet, this, if_false]
          exact ih (some k) hr
  exact key none t h

/-- What a table in canonical form holds after an entry has been put. -/
theorem tblGet_tblPut (d : β) (t : Tbl β) (a b : Nat) (v : β) (h : tblWf d t = true) :
    tblGet d (tblPut d t a v) b = if b = a then v else tblGet d t b := by
  split
  · rename_i hb; subst hb; exact tblGet_tblPut_self d t b v h
  · exact tblGet_tblPut_ne d t a b v ‹_›

theorem tblWfFrom_filter (d : β) (t : Tbl β) (p : Nat × β → Bool) (lo : Nat) (h : tblWfFrom d (some lo) t = true) :
    tblWfFrom d (some lo) (t.filter p) = true := by
  induction t generalizing lo with
  | nil => rfl
  | cons e r ih =>
    obtain ⟨k, w⟩ := e
    simp only [tblWfFrom, Bool.and_eq_true, decide_eq_true_eq] at h
    simp only [List.filter_cons]
    split
    · simp only [tblWfFrom, Bool.and_eq_true, decide_eq_true_eq]
      exact ⟨h.1, ih k h.2⟩
    · exact tblWfFrom_weaken d _ k lo (ih k h.2) (by omega)

/-- Taking entries out keeps the canonical form. -/
theorem tblWf_filter (d : β) (t : Tbl β) (p : Nat × β → Bool) (h : tblWf d t = true) : tblWf d (t.filter p) = true := by
  unfold tblWf at h ⊢
  cases t with
  | nil => rfl
  | cons e r =>
    obtain ⟨k, w⟩ := e
    simp only [tblWfFrom, Bool.and_eq_true, decide_eq_true_eq] at h
    simp only [List.filter_cons]
    split
    · simp only [tblWfFrom, Bool.and_eq_true, decide_eq_true_eq]
      exact ⟨h.1, tblWfFrom_filter d r p k h.2⟩
    · exact tblWfFrom_none d _ k (tblWfFrom_filter d r p k h.2)

theorem tblWf_tblClear (d : β) (t : Tbl β) (lo n : Nat) (h : tblWf d t = true) : tblWf d (tblClear t lo n) = true :=
  tblWf_filter d t _ h

theorem tblWf_tblDel (d : β) (t : Tbl β) (a : Nat) (h : tblWf d t = true) : tblWf d (tblDel t a) = true :=
  tblWf_filter d t _ h

/-! ### Byte memories -/

/-- The memory that lists nothing is in canonical form. -/
theorem Memory.wf_nil : Memory.wf [] = true := rfl

theorem Memory.wf_memSet (m : Mem) (a : Nat) (b : Byte) (h : Memory.wf m = true) : Memory.wf (memSet m a b) = true :=
  tblWf_tblPut 0 m a b h

theorem Memory.wf_memWrite (m : Mem) (a : Nat) (d : List Byte) (h : Memory.wf m = true) :
    Memory.wf (memWrite m a d) = true := by
  induction d generalizing m a with
  | nil => exact h
  | cons b r ih => exact ih _ _ (Memory.wf_memSet m a b h)

theorem Memory.wf_memZero (m : Mem) (a n : Nat) (h : Memory.wf m = true) : Memory.wf (memZero m a n) = true :=
  tblWf_tblClear 0 m a n h

/-- A read after a write of one byte. -/
theorem memGet_memSet (m : Mem) (a b : Nat) (v : Byte) (h : Memory.wf m = true) :
    memGet (memSet m a v) b = if b = a then v else memGet m b :=
  tblGet_tblPut 0 m a b v h

theorem memGet_memSet_ne (m : Mem) (a b : Nat) (v : Byte) (h : b ≠ a) : memGet (memSet m a v) b = memGet m b :=
  tblGet_tblPut_ne 0 m a b v h

/-- A write leaves every byte outside its range alone. -/
theorem memGet_memWrite_outside (m : Mem) (a : Nat) (d : List Byte) (b : Nat) (h : b < a ∨ a + d.length ≤ b) :
    memGet (memWrite m a d) b = memGet m b := by
  induction d generalizing m a with
  | nil => rfl
  | cons x r ih =>
    simp only [List.length_cons] at h
    rw [memWrite, ih _ _ (by omega), memGet_memSet_ne _ _ _ _ (by omega)]

/-- A byte that a write covers is the one written. -/
theorem memGet_memWrite_inside (m : Mem) (a : Nat) (d : List Byte) (i : Nat) (hm : Memory.wf m = true) (h : i < d.length) :
    memGet (memWrite m a d) (a + i) = d[i] := by
  induction d generalizing m a i with
  | nil => simp at h
  | cons x r ih =>
    rw [memWrite]
    cases i with
    | zero =>
      rw [memGet_memWrite_outside _ _ _ _ (by omega), memGet_memSet _ _ _ _ hm]
      simp
    | succ j =>
      have := ih (memSet m a x) (a + 1) j (Memory.wf_memSet m a x hm) (by simpa using h)
      rw [show a + (j + 1) = a + 1 + j by omega, this]
      simp

/-! ### The local stores and the near tiers -/

theorem writeLocal_wf (c : Cell) (a : Nat) (d : List Byte) (h : Memory.wf c.store = true) :
    Memory.wf (writeLocal c a d).store = true :=
  Memory.wf_memWrite _ _ _ h

theorem nearSkip_wf (poison : Tbl Bool) (ofs n : Nat) (m : Mem) (a : Nat) (d : List Byte) (h : Memory.wf m = true) :
    Memory.wf (nearSkip poison ofs n m a d) = true := by
  induction d generalizing m a with
  | nil => exact h
  | cons b r ih =>
    rw [nearSkip]
    apply ih
    split
    · exact h
    · exact Memory.wf_memSet m a b h

/-- A write to a near tier keeps its canonical form, poisoned lines or not. -/
theorem nearPut_wf (m : NearTier) (ofs : Nat) (d : List Byte) (h : Memory.wf m.mem = true) :
    Memory.wf (nearPut m ofs d).mem = true := by
  unfold nearPut
  extract_lets m1
  split
  · exact Memory.wf_memWrite _ _ _ h
  · exact nearSkip_wf _ _ _ _ _ _ h

end Sys2Proof.Machine
end

