-- ==== Sys2Proof/Laws/Ops.lean ====
section
/-! SUPPORT. What each shared operation can do, said once: reads after updates, the issue of an instruction, the life of a
Doorkeeper command, and the delivery of an event. -/

namespace Sys2Proof.Machine

/-! ### Reads after updates -/

theorem tblFind_cons {β : Type} (k : Nat) (w : β) (r : Tbl β) (a : Nat) :
    tblFind ((k, w) :: r) a = if k = a then some w else tblFind r a := by
  unfold tblFind
  by_cases h : k = a <;> simp [h]

theorem tblFind_tblSet_self {β : Type} (t : Tbl β) (a : Nat) (v : β) : tblFind (tblSet t a v) a = some v := by
  induction t with
  | nil => rw [tblSet, tblFind_cons, if_pos rfl]
  | cons e r ih =>
    obtain ⟨k, w⟩ := e
    simp only [tblSet]
    split
    · rw [tblFind_cons, if_pos rfl]
    · split
      · rw [tblFind_cons, if_pos rfl]
      · rw [tblFind_cons, if_neg (by omega), ih]

theorem tblFind_tblSet_ne {β : Type} (t : Tbl β) (a b : Nat) (v : β) (h : b ≠ a) :
    tblFind (tblSet t a v) b = tblFind t b := by
  induction t with
  | nil => rw [tblSet, tblFind_cons, if_neg (Ne.symm h)]
  | cons e r ih =>
    obtain ⟨k, w⟩ := e
    simp only [tblSet]
    split
    · rw [tblFind_cons, if_neg (Ne.symm h)]
    · split
      · rename_i h1; subst h1; rw [tblFind_cons, tblFind_cons, if_neg (Ne.symm h), if_neg (Ne.symm h)]
      · rw [tblFind_cons, tblFind_cons, ih]

@[simp] theorem pane_setPane (s : State) (p q : Nat) (v : Pane) :
    pane (setPane s p v) q = if q = p then v else pane s q := tblGet_tblSet _ _ _ _ _

@[simp] theorem pane_modPane (s : State) (p q : Nat) (f : Pane → Pane) :
    pane (modPane s p f) q = if q = p then f (pane s p) else pane s q := tblGet_tblSet _ _ _ _ _

theorem pane_modPane_self (s : State) (p : Nat) (f : Pane → Pane) : pane (modPane s p f) p = f (pane s p) := by simp

theorem pane_modPane_ne (s : State) (p q : Nat) (f : Pane → Pane) (h : q ≠ p) : pane (modPane s p f) q = pane s q := by
  simp [h]

@[simp] theorem mbx_modMbx (s : State) (r q : Nat) (f : Mailbox → Mailbox) :
    mbx (modMbx s r f) q = if q = r then f (mbx s r) else mbx s q := tblGet_tblSet _ _ _ _ _

@[simp] theorem testOf_modTest (s : State) (p q : Nat) (f : PaneTest → PaneTest) :
    testOf (modTest s p f) q = if q = p then f (testOf s p) else testOf s q := tblGet_tblSet _ _ _ _ _

@[simp] theorem ledgerOf_modLedger (s : State) (e q : Nat) (f : TestEntry → TestEntry) :
    ledgerOf (modLedger s e f) q = if q = e then f (ledgerOf s e) else ledgerOf s q := tblGet_tblSet _ _ _ _ _

@[simp] theorem cvOf_modCv (s : State) (u q : Nat) (f : CvUnit → CvUnit) :
    cvOf (modCv s u f) q = if q = u then f (cvOf s u) else cvOf s q := tblGet_tblSet _ _ _ _ _

@[simp] theorem trafOf_modTraf (s : State) (p q : Nat) (f : PortTraffic → PortTraffic) :
    trafOf (modTraf s p f) q = if q = p then f (trafOf s p) else trafOf s q := tblGet_tblSet _ _ _ _ _

/-- A group keeps its lead under a change that leaves its members alone. -/
theorem groupLed_modGroup (s : State) (l k : Nat) (f : Group → Group) (hf : ∀ g, (f g).members = g.members) :
    groupLed (modGroup s l f) k = if k = l then (groupLed s k).map f else groupLed s k := by
  unfold groupLed modGroup
  show List.find? _ (s.groups.map _) = _
  induction s.groups with
  | nil => simp
  | cons g r ih =>
    simp only [List.map_cons, List.find?_cons]
    by_cases hg : leadOf g.members = k
    · by_cases hk : k = l
      · subst hk; simp [hg, hf]
      · have : leadOf g.members ≠ l := fun h => hk (hg.symm.trans h)
        simp [hg, hk]
    · have h1 : (leadOf (if (leadOf g.members == l) = true then f g else g).members == k) = false := by
        split <;> simp [hf, hg]
      have h2 : (leadOf g.members == k) = false := by simp [hg]
      simp only [h1, h2, ih]

theorem cell_setPhysCell (s : State) (p c q d : Nat) (v : Cell) :
    physCell (setPhysCell s p c v) q d = if cellKey q d = cellKey p c then v else physCell s q d :=
  tblGet_tblSet _ _ _ _ _

@[simp] theorem cell_setCell_self (s : State) (p l : Nat) (v : Cell) : cell (setCell s p l v) p l = v := by
  show physCell (setPhysCell s p (physOf s p l) v) p (physOf s p l) = v
  rw [cell_setPhysCell]; simp

@[simp] theorem cell_modCell_self (s : State) (p l : Nat) (f : Cell → Cell) : cell (modCell s p l f) p l = f (cell s p l) :=
  cell_setCell_self s p l _

/-! ### The issue of an instruction (R52, R53, R73) -/

/-- A cell that does not stand at an instruction of the row does nothing. -/
theorem issueWith_idle {row act} {s : State} {p l : Nat}
    (h : canIssue s p l = false ∨ row (issueWord (cell s p l)) = false) : issueWith row act s p l = s := by
  unfold issueWith
  rcases h with h | h <;> simp [h]

/-- An illegal word faults the context. -/
theorem issueWith_illegal {row act} {s : State} {p l : Nat} (h : canIssue s p l = true)
    (hr : row (issueWord (cell s p l)) = true) (hl : wordLegal (issueWord (cell s p l)) = false) :
    issueWith row act s p l = cellFault s p l fcIllegal (cell s p l).pc 0 := by
  unfold issueWith
  simp [h, hr, hl]

/-- A busy token stops issue. -/
theorem issueWith_busy {row act} {s : State} {p l : Nat} (hl : wordLegal (issueWord (cell s p l)) = true)
    (hn : namesToken (issueWord (cell s p l)) = true)
    (hb : tokenBusy (cell s p l) (wToken (issueWord (cell s p l))) = true) : issueWith row act s p l = s := by
  unfold issueWith
  simp [hl, hn, hb]

/-- Otherwise the instruction acts. -/
theorem issueWith_acts {row act} {s : State} {p : Pane16} {c : LCell} {w} (h : Issues s p c w) (hr : row w = true) :
    issueWith row act s p.val c.val = act s p.val c.val w := by
  obtain ⟨h1, h2, h3, h4⟩ := h
  unfold issueWith
  simp only [h1, h2, h3, hr, Bool.not_true, Bool.or_false]
  by_cases h5 : namesToken w = true
  · simp [h4 h5]
  · simp [h5]

/-- What an instruction's pure outcome becomes. -/
theorem landOut_cases (s : State) (p l index : Nat) (o : CellOut) :
    (∃ c fl, o = .ok c fl ∧ landOut s p l index o = addFlags (setCell s p l c) p l fl) ∨
    ∃ code a, o = .fault code a ∧ landOut s p l index o = cellFault s p l code index a := by
  cases o with
  | ok c fl => exact .inl ⟨c, fl, rfl, rfl⟩
  | fault code a => exact .inr ⟨code, a, rfl, rfl⟩

/-! ### The life of a command (R358, R364, R367, R378) -/

/-- A mailbox that is not there takes no doorbell. -/
theorem doorbell_unreachable {s : State} {r op : Nat} {k : Packet} (h : reachable s r = false) : doorbell s r op k = s := by
  unfold doorbell
  simp [h]

/-- A doorbell of a mailbox that is there: its packet is looked at, and refused while a command is in hand. -/
theorem doorbell_heard {s : State} {r op : Nat} {k : Packet} (h : reachable s r = true) (hj : (mbx s r).job = none) :
    doorbell s r op k = acceptPacket (heard s r k) r op k := by
  unfold doorbell heard fmPacket
  by_cases hr : r = 17
  · subst hr; simp [h, hj]
  · simp [h, hj, hr]

/-- A busy mailbox refuses a doorbell. -/
theorem doorbell_busy {s : State} {r op : Nat} {k : Packet} {j : Job} (h : reachable s r = true)
    (hj : (mbx s r).job = some j) : ∃ who, doorbell s r op k = refuseBusy s r j who op k.seq.toNat := by
  unfold doorbell fmPacket
  by_cases hr : r = 17
  · subst hr; exact ⟨some (none, (Config.freeWord k.seq.toNat).setWidth 32), by simp [h, hj]⟩
  · exact ⟨none, by simp [h, hj, hr]⟩

/-- A packet that fails checks 1 to 4 is answered. -/
theorem doorbell_early {s : State} {r op : Nat} {k : Packet} {a : Ans} (h : reachable s r = true)
    (hj : (mbx s r).job = none) (he : earlyRefusal (heard s r k) r (r == 17) op k = some a) :
    doorbell s r op k = finish (heard s r k) r (mkReply (heard s r k) op k.seq.toNat a) := by
  rw [doorbell_heard h hj]
  unfold acceptPacket
  rw [he]

/-- A packet whose locks are not free waits. -/
theorem doorbell_waits {s : State} {r op : Nat} {k : Packet} (h : reachable s r = true) (hj : (mbx s r).job = none)
    (he : earlyRefusal (heard s r k) r (r == 17) op k = none)
    (hc : canStart (rung s r op k) r (newJob (heard s r k) r op k) = false) :
    doorbell s r op k = rung s r op k := by
  rw [doorbell_heard h hj]
  unfold acceptPacket
  rw [he]
  show (if canStart (rung s r op k) r (newJob (heard s r k) r op k) = true then _ else rung s r op k) = _
  rw [hc]; rfl

theorem mbx_heard (s : State) (r q : Nat) (k : Packet) : mbx (heard s r k) q = mbx s q := by
  unfold heard; split <;> rfl

theorem heard_time (s : State) (r : Nat) (k : Packet) : (heard s r k).time = s.time := by
  unfold heard; split <;> rfl

theorem rung_job (s : State) (r op : Nat) (k : Packet) :
    mbx (rung s r op k) r =
      { setMState (heard s r k) .waiting (mbx s r) with job := some (newJob (heard s r k) r op k) } := by
  unfold rung; simp [mbx_heard]

/-- A packet that starts at once has its effect; one that answers at once is decided. -/
theorem doorbell_starts {s : State} {r op : Nat} {k : Packet} (h : StartsAtOnce s r op k) (ho : op < 65536) :
    doorbell s r op k = match (startEffect op (begun s r op k) r k).2 with
      | some a => decideJob (startEffect op (begun s r op k) r k).1 r a
      | none => (startEffect op (begun s r op k) r k).1 := by
  obtain ⟨h1, h2, h3, h4, h5⟩ := h
  have hop : (newJob (heard s r k) r op k).opcode.toNat = op := by
    show (BitVec.ofNat 16 op).toNat = op
    simp only [BitVec.toNat_ofNat]; omega
  have hd : doorbell s r op k = startJob (rung s r op k) r := by
    rw [doorbell_heard h1 h2]
    unfold acceptPacket
    rw [h3]
    show (if canStart (rung s r op k) r (newJob (heard s r k) r op k) = true then startJob (rung s r op k) r else _) = _
    rw [h4]; rfl
  rw [hd]
  unfold startJob
  rw [rung_job]
  dsimp only
  rw [hop]
  show (match startRefused (rung s r op k) r op k with
    | some a => _
    | none => _) = _
  rw [h5]
  have hb : noteAts (modMbx (rung s r op k) r fun m =>
      { setMState (rung s r op k) (if m.mstate = .idle then .idle else .running) m with
        job := some { withLocks (rung s r op k) r (newJob (heard s r k) r op k) with
          start := some (rung s r op k).time.beat, bound := boundOf (rung s r op k) op k
          lastBeat := (rung s r op k).time.beat } }) r op k = begun s r op k := by
    unfold begun
    simp only [modMbx, rung_job]
    rfl
  rw [← hb]
  rfl

/-- A decided command keeps all but its outcome. -/
theorem decideJob_job {s : State} {r : Nat} {j : Job} (a : Ans) (h : (mbx s r).job = some j) :
    (mbx (decideJob s r a) r).job =
      some { j with outcome := some (mkReply s j.opcode.toNat j.packet.seq.toNat a) } := by
  unfold decideJob
  simp [h]

theorem decides_decideJob {s : State} {r : Nat} {j : Job} (a : Ans) (h : (mbx s r).job = some j)
    (hs : j.start.isSome = true) : Decides (decideJob s r a) r a.status :=
  ⟨_, _, decideJob_job a h, hs, rfl, rfl⟩

/-- A mailbox without a command has nothing to end. -/
theorem endNow_none {s : State} {r : Nat} (a : Ans) (h : (mbx s r).job = none) : endNow s r a = s := by
  unfold endNow
  rw [h]

/-! ### Delivery of an event (R37, R473, R479) -/

theorem deliver_frozen {s : State} (e : Event) (h : s.evrec.frozen = true) :
    (deliver s e).evrec.queue = s.evrec.queue ∧
    (deliver s e).evrec.drops = BitVec.ofNat 16 (satAdd 16 s.evrec.drops.toNat 1) := by
  unfold deliver
  simp [h]

theorem deliver_full {s : State} (e : Event) (h : s.evrec.frozen = false) (hq : 256 ≤ s.evrec.queue.length) :
    deliver s e = { s with evrec := { s.evrec with
      lost := BitVec.ofNat 24 (satAdd 24 s.evrec.lost.toNat 1), lostSince := s.evrec.lostSince + 1 } } := by
  unfold deliver
  simp [h, hq]

theorem deliver_queued {s : State} (e : Event) (h : s.evrec.frozen = false) (hq : s.evrec.queue.length < 256) :
    deliver s e = { s with evrec := { s.evrec with queue := queueInsert (now s) e s.evrec.queue } } := by
  unfold deliver
  simp [h, Nat.not_le.mpr hq]

end Sys2Proof.Machine
end

