-- ==== Sys2Proof/Laws/Pending.lean ====
section
/-! SUPPORT. No operation of the machine touches the queue of waiting commands: one lemma per function, from the
shared operations up to the meanings of the commands. -/

section

set_option linter.unusedVariables false
set_option linter.unusedSimpArgs false
set_option linter.unnecessarySimpa false
set_option linter.unusedTactic false
set_option linter.unreachableTactic false

namespace Sys2Proof.Machine

@[simp] theorem foldl_pending {α : Type} (f : State → α → State) (hf : ∀ s a, (f s a).pending = s.pending) (l : List α)
    (s : State) : (l.foldl f s).pending = s.pending := by
  induction l generalizing s with
  | nil => rfl
  | cons a l ih => rw [List.foldl_cons, ih, hf]

@[simp] theorem ite_pending (c : Prop) [Decidable c] (a b : State) : (if c then a else b).pending = if c then a.pending else b.pending := by
  split <;> rfl

@[simp] theorem modPanes_pending (s : State) (a1 : BitVec 16) (a2 : Nat → Pane → Pane) :
    (modPanes s a1 a2).pending = s.pending := by
  simp [modPanes]

@[simp] theorem modCells_pending (s : State) (a1 : Nat) (a2 : Cell → Cell) :
    (modCells s a1 a2).pending = s.pending := by
  simp [modCells]

@[simp] theorem scramble_pending (s : State) (a1 : Nat) (a2 : Nat) (a3 : Nat) :
    (scramble s a1 a2 a3).pending = s.pending := by
  simp [scramble]

@[simp] theorem deliver_pending (s : State) (a1 : Event) :
    (deliver s a1).pending = s.pending := by
  simp [deliver]

@[simp] theorem record_pending (s : State) (a1 : Nat) (a2 : Nat) (a3 : Nat) (a4 : List Byte) :
    (record s a1 a2 a3 a4).pending = s.pending := by
  simp [record]

@[simp] theorem msix_pending (s : State) (a1 : Nat) (a2 : Nat) :
    (msix s a1 a2).pending = s.pending := by
  simp [msix]

@[simp] theorem queueNotice_pending (s : State) (a1 : Nat) (a2 : Nat) (a3 : BitVec 32) (a4 : BitVec 16) (a5 : Nat) (a6 : Nat) (a7 : Nat) :
    (queueNotice s a1 a2 a3 a4 a5 a6 a7).pending = s.pending := by
  simp [queueNotice]

@[simp] theorem modMeter_pending (s : State) (a1 : Nat) (a2 : Meter → Meter) :
    (modMeter s a1 a2).pending = s.pending := by
  unfold modMeter
  dsimp only
  repeat' split
  all_goals simp

@[simp] theorem meterRefusal_pending (s : State) (a1 : Nat) :
    (meterRefusal s a1).pending = s.pending := by
  simp [meterRefusal]

@[simp] theorem meterTorus_pending (s : State) (a1 : Nat) (a2 : Nat) :
    (meterTorus s a1 a2).pending = s.pending := by
  simp [meterTorus]

@[simp] theorem meterEth_pending (s : State) (a1 : Nat) (a2 : Nat) :
    (meterEth s a1 a2).pending = s.pending := by
  simp [meterEth]

@[simp] theorem islandPass_pending (s : State) (a1 : Nat) :
    (islandPass s a1).pending = s.pending := by
  simp [islandPass]

@[simp] theorem idleTick_pending (s : State) :
    (idleTick s).pending = s.pending := by
  simp [idleTick]

theorem execCcrRequest_pending (a0 : Fin 21) (a1 : BitVec 20) (a2 : Bool) (a3 : Option (BitVec 64 × BitVec 512)) (s : State) (t : State) (h : execCcrRequest a0 a1 a2 a3 s = .next t) :
    t.pending = s.pending := by
  unfold execCcrRequest at h
  split at h <;> cases h <;> simp

theorem execCcrWriteback_pending (a0 : Fin 21) (a1 : BitVec 20) (s : State) (t : State) (h : execCcrWriteback a0 a1 s = .next t) :
    t.pending = s.pending := by
  unfold execCcrWriteback at h
  dsimp only at h
  repeat' split at h
  all_goals simp only [Host.Outcome.next.injEq] at h
  all_goals subst h
  all_goals simp

theorem execCcrSnoop_pending (a0 : Fin 21) (a1 : BitVec 20) (s : State) (t : State) (h : execCcrSnoop a0 a1 s = .next t) :
    t.pending = s.pending := by
  unfold execCcrSnoop at h
  dsimp only at h
  repeat' split at h
  all_goals simp only [Host.Outcome.next.injEq] at h
  all_goals subst h
  all_goals simp

theorem execCcrSnoopAck_pending (a0 : Fin 21) (a1 : BitVec 20) (s : State) (t : State) (h : execCcrSnoopAck a0 a1 s = .next t) :
    t.pending = s.pending := by
  unfold execCcrSnoopAck at h
  dsimp only at h
  repeat' split at h
  all_goals simp only [Host.Outcome.next.injEq] at h
  all_goals subst h
  all_goals simp

theorem sealFrame_pending (s : State) (p : Nat) (h : SlotHdr) (d : List Byte) (r : State × List Byte)
    (e : sealFrame s p h d = some r) : r.1.pending = s.pending := by
  simp only [sealFrame, Option.map_eq_some_iff] at e
  obtain ⟨k, -, rfl⟩ := e
  simp

@[simp] theorem queueParcel_pending (s : State) (p : Parcel) :
    (queueParcel s p).pending = s.pending := by
  unfold queueParcel
  split <;> simp

@[simp] theorem sendParcel_pending (s : State) (a1 : Parcel) :
    (sendParcel s a1).pending = s.pending := by
  unfold sendParcel
  split <;> simp

@[simp] theorem sendMgmt_pending (s : State) (a1 : BitVec 16) (a2 : List Byte) :
    (sendMgmt s a1 a2).pending = s.pending := by
  simp [sendMgmt]

@[simp] theorem pushSb_pending (s : State) (a1 : SbReply) :
    (pushSb s a1).pending = s.pending := by
  simp [pushSb]

@[simp] theorem sbReply_pending (s : State) (a1 : BitVec 16) (a2 : FmFragment) :
    (sbReply s a1 a2).pending = s.pending := by
  simp [sbReply]

@[simp] theorem fmReplyTo_pending (s : State) (a1 : Option (BitVec 16)) (a2 : BitVec 32) (a3 : List Byte) :
    (fmReplyTo s a1 a2 a3).pending = s.pending := by
  unfold fmReplyTo
  split <;> simp

@[simp] theorem finish_pending (s : State) (a1 : Nat) (a2 : Reply) :
    (finish s a1 a2).pending = s.pending := by
  unfold finish
  dsimp only
  repeat' split
  all_goals simp

@[simp] theorem orphanWork_pending (s : State) (a1 : Nat) :
    (orphanWork s a1).pending = s.pending := by
  simp [orphanWork]

@[simp] theorem spoilFar_pending (s : State) (o ofs n : Nat) :
    (spoilFar s o ofs n).pending = s.pending := by
  simp [spoilFar]

@[simp] theorem leaveUndefined_pending (s : State) (j : Job) :
    (leaveUndefined s j).pending = s.pending := by
  unfold leaveUndefined
  dsimp only
  repeat' split
  all_goals simp

@[simp] theorem endNow_pending (s : State) (a1 : Nat) (a2 : Ans) :
    (endNow s a1 a2).pending = s.pending := by
  unfold endNow
  split <;> simp

@[simp] theorem decideJob_pending (s : State) (a1 : Nat) (a2 : Ans) :
    (decideJob s a1 a2).pending = s.pending := by
  simp [decideJob]

@[simp] theorem decideJobs_pending (s : State) (a1 : Job → Bool) (a2 : Ans) :
    (decideJobs s a1 a2).pending = s.pending := by
  simp [decideJobs]

@[simp] theorem chargeRefusal_pending (s : State) (a1 : Nat) :
    (chargeRefusal s a1).pending = s.pending := by
  simp [chargeRefusal]

@[simp] theorem abortLocked_pending (s : State) (a1 : BitVec 16) (a2 : Nat) (a3 : Job → Bool) :
    (abortLocked s a1 a2 a3).pending = s.pending := by
  simp [abortLocked]

@[simp] theorem endEscape_pending (s : State) (a1 : Ans) :
    (endEscape s a1).pending = s.pending := by
  unfold endEscape
  split <;> simp

@[simp] theorem endEscapeIf_pending (s : State) (a1 : Job → Bool) (a2 : Ans) :
    (endEscapeIf s a1 a2).pending = s.pending := by
  unfold endEscapeIf
  split <;> simp

@[simp] theorem abortForEvent_pending (s : State) (a1 : Nat) :
    (abortForEvent s a1).pending = s.pending := by
  simp [abortForEvent]

@[simp] theorem warnGroups_pending (s : State) (a1 : Nat) (a2 : Nat) :
    (warnGroups s a1 a2).pending = s.pending := by
  simp [warnGroups]

@[simp] theorem raiseWarning_pending (s : State) (a1 : Nat) (a2 : Nat) :
    (raiseWarning s a1 a2).pending = s.pending := by
  simp [raiseWarning]

@[simp] theorem noteDeclared_pending (s : State) (a1 : Nat) (a2 : Nat) :
    (noteDeclared s a1 a2).pending = s.pending := by
  simp [noteDeclared]

@[simp] theorem tellDeclared_pending (s : State) (a1 : Nat) (a2 : Nat) :
    (tellDeclared s a1 a2).pending = s.pending := by
  simp [tellDeclared]

@[simp] theorem declareFaulty_pending (s : State) (a1 : Nat) (a2 : Nat) :
    (declareFaulty s a1 a2).pending = s.pending := by
  simp [declareFaulty]

@[simp] theorem countError_pending (s : State) (a1 : Nat) (a2 : Nat) (a3 : Nat) :
    (countError s a1 a2 a3).1.pending = s.pending := by
  unfold countError
  dsimp only
  repeat' split
  all_goals simp

@[simp] theorem askTeardown_pending (s : State) (a1 : Nat) (a2 : Nat) (a3 : Bool) :
    (askTeardown s a1 a2 a3).pending = s.pending := by
  simp [askTeardown]

@[simp] theorem setCtxFault_pending (s : State) (a1 : Nat) (a2 : Nat) (a3 : Nat) (a4 : Nat) :
    (setCtxFault s a1 a2 a3 a4).pending = s.pending := by
  simp [setCtxFault]

@[simp] theorem contextFault_pending (s : State) (a1 : Nat) (a2 : Nat) (a3 : Nat) (a4 : Nat) (a5 : Nat) (a6 : Nat) :
    (contextFault s a1 a2 a3 a4 a5 a6).pending = s.pending := by
  simp [contextFault]

@[simp] theorem cellFault_pending (s : State) (a1 : Nat) (a2 : Nat) (a3 : Nat) (a4 : Nat) (a5 : Nat) :
    (cellFault s a1 a2 a3 a4 a5).pending = s.pending := by
  simp [cellFault]

@[simp] theorem nearWrite_pending (s : State) (a1 : Nat) (a2 : Nat) (a3 : List Byte) :
    (nearWrite s a1 a2 a3).pending = s.pending := by
  simp [nearWrite]

@[simp] theorem goOutOfService_pending (s : State) (a1 : Nat) :
    (goOutOfService s a1).pending = s.pending := by
  simp [goOutOfService]

@[simp] theorem dropCount_pending (s : State) (a1 : Nat) (a2 : Nat) :
    (dropCount s a1 a2).pending = s.pending := by
  simp [dropCount]

@[simp] theorem substCell_pending (s : State) (a1 : Nat) (a2 : Nat) :
    (substCell s a1 a2).pending = s.pending := by
  unfold substCell
  dsimp only
  repeat' split
  all_goals simp

@[simp] theorem retireCell_pending (s : State) (a1 : Nat) (a2 : Nat) (a3 : Bool) :
    (retireCell s a1 a2 a3).pending = s.pending := by
  simp [retireCell]

@[simp] theorem losePc_pending (s : State) (p l pc : Nat) :
    (losePc s p l pc).pending = s.pending := by
  simp [losePc]

@[simp] theorem substPc_pending (s : State) (a1 : Nat) (a2 : Nat) (a3 : Bool) :
    (substPc s a1 a2 a3).pending = s.pending := by
  unfold substPc
  dsimp only
  repeat' split
  all_goals simp

@[simp] theorem retirePc_pending (s : State) (a1 : Nat) (a2 : Nat) (a3 : Bool) :
    (retirePc s a1 a2 a3).pending = s.pending := by
  simp [retirePc]

@[simp] theorem releaseDue_pending (s : State) (a1 : Nat) :
    (releaseDue s a1).pending = s.pending := by
  simp [releaseDue]

@[simp] theorem nearCorrected_pending (s : State) (a1 : Nat) (a2 : Nat) :
    (nearCorrected s a1 a2).pending = s.pending := by
  simp [nearCorrected]

@[simp] theorem nearUncorrectable_pending (s : State) (a1 : Nat) (a2 : Nat) :
    (nearUncorrectable s a1 a2).pending = s.pending := by
  simp [nearUncorrectable]

@[simp] theorem nearFirst_pending (s : State) (a1 : Nat) (a2 : Nat) (a3 : Bool) (a4 : Ecc) :
    (nearFirst s a1 a2 a3 a4).1.pending = s.pending := by
  unfold nearFirst
  repeat' split
  all_goals simp

@[simp] theorem cellEcc_pending (s : State) (a1 : Nat) (a2 : Nat) (a3 : Ecc) :
    (cellEcc s a1 a2 a3).pending = s.pending := by
  unfold cellEcc
  split <;> simp

theorem execNearReadRetry_pending (p : Pane16) (line : BitVec 30) (second : Ecc) (s : State) (t : State) (h : execNearReadRetry p line second s = .next t) :
    t.pending = s.pending := by
  unfold execNearReadRetry at h
  repeat' split at h
  all_goals cases h
  all_goals simp

theorem execSpareTakeoverDone_pending (a0 : Pane16) (s : State) (t : State) (h : execSpareTakeoverDone a0 s = .next t) :
    t.pending = s.pending := by
  unfold execSpareTakeoverDone at h
  split at h <;> cases h <;> simp

theorem execRefreshShadow_pending (a0 : Pane16) (a1 : Fin 4) (s : State) (t : State) (h : execRefreshShadow a0 a1 s = .next t) :
    t.pending = s.pending := by
  simp only [execRefreshShadow, Host.Outcome.next.injEq] at h
  simp [← h]

theorem execScrubBurst_pending (a0 : Pane16) (a1 : BitVec 30) (a2 : Ecc) (s : State) (t : State) (h : execScrubBurst a0 a1 a2 s = .next t) :
    t.pending = s.pending := by
  unfold execScrubBurst at h
  split at h <;> cases h <;> simp

theorem execPcCopyDone_pending (a0 : Pane16) (s : State) (t : State) (h : execPcCopyDone a0 s = .next t) :
    t.pending = s.pending := by
  unfold execPcCopyDone at h
  split at h <;> cases h <;> simp

@[simp] theorem addFlags_pending (s : State) (a1 : Nat) (a2 : Nat) (a3 : Nat) :
    (addFlags s a1 a2 a3).pending = s.pending := by
  simp [addFlags]

@[simp] theorem landOut_pending (s : State) (a1 : Nat) (a2 : Nat) (a3 : Nat) (a4 : CellOut) :
    (landOut s a1 a2 a3 a4).pending = s.pending := by
  unfold landOut
  split <;> simp

@[simp] theorem issueWith_pending (row : Nat → Bool) (act : State → Nat → Nat → Nat → State)
    (ha : ∀ s p l w, (act s p l w).pending = s.pending) (s : State) (p l : Nat) : (issueWith row act s p l).pending = s.pending := by
  unfold issueWith
  (try dsimp only)
  (repeat' split) <;> simp [ha]

@[simp] theorem actCell_pending (a0 : Nat → Cell → CellOut) (s : State) (a2 : Nat) (a3 : Nat) (a4 : Nat) :
    (actCell a0 s a2 a3 a4).pending = s.pending := by
  simp [actCell]

@[simp] theorem actRead_pending (a0 : Nat → Nat → Cell → CellOut) (s : State) (a2 : Nat) (a3 : Nat) (a4 : Nat) :
    (actRead a0 s a2 a3 a4).pending = s.pending := by
  simp [actRead]

theorem execNop_pending (a0 : Pane16) (a1 : LCell) (s : State) (t : State) (h : execNop a0 a1 s = .next t) :
    t.pending = s.pending := by
  simp only [execNop, Host.Outcome.next.injEq] at h
  simp [← h]

theorem execLoop_pending (a0 : Pane16) (a1 : LCell) (s : State) (t : State) (h : execLoop a0 a1 s = .next t) :
    t.pending = s.pending := by
  simp only [execLoop, Host.Outcome.next.injEq] at h
  simp [← h]

theorem execEndloop_pending (a0 : Pane16) (a1 : LCell) (s : State) (t : State) (h : execEndloop a0 a1 s = .next t) :
    t.pending = s.pending := by
  simp only [execEndloop, Host.Outcome.next.injEq] at h
  simp [← h]

theorem execSkip_pending (a0 : Pane16) (a1 : LCell) (s : State) (t : State) (h : execSkip a0 a1 s = .next t) :
    t.pending = s.pending := by
  simp only [execSkip, Host.Outcome.next.injEq] at h
  simp [← h]

theorem execPset_pending (a0 : Pane16) (a1 : LCell) (s : State) (t : State) (h : execPset a0 a1 s = .next t) :
    t.pending = s.pending := by
  simp only [execPset, Host.Outcome.next.injEq] at h
  simp [← h]

theorem execEndBlock_pending (a0 : Pane16) (a1 : LCell) (s : State) (t : State) (h : execEndBlock a0 a1 s = .next t) :
    t.pending = s.pending := by
  simp only [execEndBlock, Host.Outcome.next.injEq] at h
  simp [← h]

theorem execScalarAdd_pending (a0 : Pane16) (a1 : LCell) (s : State) (t : State) (h : execScalarAdd a0 a1 s = .next t) :
    t.pending = s.pending := by
  simp only [execScalarAdd, Host.Outcome.next.injEq] at h
  simp [← h]

theorem execScalarSubtract_pending (a0 : Pane16) (a1 : LCell) (s : State) (t : State) (h : execScalarSubtract a0 a1 s = .next t) :
    t.pending = s.pending := by
  simp only [execScalarSubtract, Host.Outcome.next.injEq] at h
  simp [← h]

theorem execScalarAnd_pending (a0 : Pane16) (a1 : LCell) (s : State) (t : State) (h : execScalarAnd a0 a1 s = .next t) :
    t.pending = s.pending := by
  simp only [execScalarAnd, Host.Outcome.next.injEq] at h
  simp [← h]

theorem execScalarOr_pending (a0 : Pane16) (a1 : LCell) (s : State) (t : State) (h : execScalarOr a0 a1 s = .next t) :
    t.pending = s.pending := by
  simp only [execScalarOr, Host.Outcome.next.injEq] at h
  simp [← h]

theorem execScalarXor_pending (a0 : Pane16) (a1 : LCell) (s : State) (t : State) (h : execScalarXor a0 a1 s = .next t) :
    t.pending = s.pending := by
  simp only [execScalarXor, Host.Outcome.next.injEq] at h
  simp [← h]

theorem execScalarShiftLeft_pending (a0 : Pane16) (a1 : LCell) (s : State) (t : State) (h : execScalarShiftLeft a0 a1 s = .next t) :
    t.pending = s.pending := by
  simp only [execScalarShiftLeft, Host.Outcome.next.injEq] at h
  simp [← h]

theorem execScalarShiftRightLogical_pending (a0 : Pane16) (a1 : LCell) (s : State) (t : State) (h : execScalarShiftRightLogical a0 a1 s = .next t) :
    t.pending = s.pending := by
  simp only [execScalarShiftRightLogical, Host.Outcome.next.injEq] at h
  simp [← h]

theorem execScalarShiftRightArith_pending (a0 : Pane16) (a1 : LCell) (s : State) (t : State) (h : execScalarShiftRightArith a0 a1 s = .next t) :
    t.pending = s.pending := by
  simp only [execScalarShiftRightArith, Host.Outcome.next.injEq] at h
  simp [← h]

theorem execScalarMultiply_pending (a0 : Pane16) (a1 : LCell) (s : State) (t : State) (h : execScalarMultiply a0 a1 s = .next t) :
    t.pending = s.pending := by
  simp only [execScalarMultiply, Host.Outcome.next.injEq] at h
  simp [← h]

theorem execScalarSetIfLessSigned_pending (a0 : Pane16) (a1 : LCell) (s : State) (t : State) (h : execScalarSetIfLessSigned a0 a1 s = .next t) :
    t.pending = s.pending := by
  simp only [execScalarSetIfLessSigned, Host.Outcome.next.injEq] at h
  simp [← h]

theorem execScalarSetIfLessUnsigned_pending (a0 : Pane16) (a1 : LCell) (s : State) (t : State) (h : execScalarSetIfLessUnsigned a0 a1 s = .next t) :
    t.pending = s.pending := by
  simp only [execScalarSetIfLessUnsigned, Host.Outcome.next.injEq] at h
  simp [← h]

theorem execScalarSetIfEqual_pending (a0 : Pane16) (a1 : LCell) (s : State) (t : State) (h : execScalarSetIfEqual a0 a1 s = .next t) :
    t.pending = s.pending := by
  simp only [execScalarSetIfEqual, Host.Outcome.next.injEq] at h
  simp [← h]

theorem execScalarMove_pending (a0 : Pane16) (a1 : LCell) (s : State) (t : State) (h : execScalarMove a0 a1 s = .next t) :
    t.pending = s.pending := by
  simp only [execScalarMove, Host.Outcome.next.injEq] at h
  simp [← h]

theorem execScalarLoad_pending (a0 : Pane16) (a1 : LCell) (s : State) (t : State) (h : execScalarLoad a0 a1 s = .next t) :
    t.pending = s.pending := by
  simp only [execScalarLoad, Host.Outcome.next.injEq] at h
  simp [← h]

theorem execScalarStore_pending (a0 : Pane16) (a1 : LCell) (s : State) (t : State) (h : execScalarStore a0 a1 s = .next t) :
    t.pending = s.pending := by
  simp only [execScalarStore, Host.Outcome.next.injEq] at h
  simp [← h]

theorem execVmemLoad_pending (a0 : Pane16) (a1 : LCell) (a2 : Ecc) (s : State) (t : State) (h : execVmemLoad a0 a1 a2 s = .next t) :
    t.pending = s.pending := by
  unfold execVmemLoad at h
  split at h <;> cases h <;> simp

theorem execVmemStore_pending (a0 : Pane16) (a1 : LCell) (s : State) (t : State) (h : execVmemStore a0 a1 s = .next t) :
    t.pending = s.pending := by
  simp only [execVmemStore, Host.Outcome.next.injEq] at h
  simp [← h]

theorem execStridedLoad_pending (a0 : Pane16) (a1 : LCell) (s : State) (t : State) (h : execStridedLoad a0 a1 s = .next t) :
    t.pending = s.pending := by
  simp only [execStridedLoad, Host.Outcome.next.injEq] at h
  simp [← h]

theorem execStridedStore_pending (a0 : Pane16) (a1 : LCell) (s : State) (t : State) (h : execStridedStore a0 a1 s = .next t) :
    t.pending = s.pending := by
  simp only [execStridedStore, Host.Outcome.next.injEq] at h
  simp [← h]

theorem execLocalGather_pending (a0 : Pane16) (a1 : LCell) (s : State) (t : State) (h : execLocalGather a0 a1 s = .next t) :
    t.pending = s.pending := by
  simp only [execLocalGather, Host.Outcome.next.injEq] at h
  simp [← h]

theorem execLdsplit_pending (a0 : Pane16) (a1 : LCell) (s : State) (t : State) (h : execLdsplit a0 a1 s = .next t) :
    t.pending = s.pending := by
  simp only [execLdsplit, Host.Outcome.next.injEq] at h
  simp [← h]

theorem execStsplit_pending (a0 : Pane16) (a1 : LCell) (s : State) (t : State) (h : execStsplit a0 a1 s = .next t) :
    t.pending = s.pending := by
  simp only [execStsplit, Host.Outcome.next.injEq] at h
  simp [← h]

theorem execVopAdd_pending (a0 : Pane16) (a1 : LCell) (s : State) (t : State) (h : execVopAdd a0 a1 s = .next t) :
    t.pending = s.pending := by
  simp only [execVopAdd, Host.Outcome.next.injEq] at h
  simp [← h]

theorem execVopSubtract_pending (a0 : Pane16) (a1 : LCell) (s : State) (t : State) (h : execVopSubtract a0 a1 s = .next t) :
    t.pending = s.pending := by
  simp only [execVopSubtract, Host.Outcome.next.injEq] at h
  simp [← h]

theorem execVopMultiply_pending (a0 : Pane16) (a1 : LCell) (s : State) (t : State) (h : execVopMultiply a0 a1 s = .next t) :
    t.pending = s.pending := by
  simp only [execVopMultiply, Host.Outcome.next.injEq] at h
  simp [← h]

theorem execFusedMultiplyAdd_pending (a0 : Pane16) (a1 : LCell) (s : State) (t : State) (h : execFusedMultiplyAdd a0 a1 s = .next t) :
    t.pending = s.pending := by
  simp only [execFusedMultiplyAdd, Host.Outcome.next.injEq] at h
  simp [← h]

theorem execVopMinimum_pending (a0 : Pane16) (a1 : LCell) (s : State) (t : State) (h : execVopMinimum a0 a1 s = .next t) :
    t.pending = s.pending := by
  simp only [execVopMinimum, Host.Outcome.next.injEq] at h
  simp [← h]

theorem execVopMaximum_pending (a0 : Pane16) (a1 : LCell) (s : State) (t : State) (h : execVopMaximum a0 a1 s = .next t) :
    t.pending = s.pending := by
  simp only [execVopMaximum, Host.Outcome.next.injEq] at h
  simp [← h]

theorem execCompareEqual_pending (a0 : Pane16) (a1 : LCell) (s : State) (t : State) (h : execCompareEqual a0 a1 s = .next t) :
    t.pending = s.pending := by
  simp only [execCompareEqual, Host.Outcome.next.injEq] at h
  simp [← h]

theorem execCompareLess_pending (a0 : Pane16) (a1 : LCell) (s : State) (t : State) (h : execCompareLess a0 a1 s = .next t) :
    t.pending = s.pending := by
  simp only [execCompareLess, Host.Outcome.next.injEq] at h
  simp [← h]

theorem execCompareLessOrEqual_pending (a0 : Pane16) (a1 : LCell) (s : State) (t : State) (h : execCompareLessOrEqual a0 a1 s = .next t) :
    t.pending = s.pending := by
  simp only [execCompareLessOrEqual, Host.Outcome.next.injEq] at h
  simp [← h]

theorem execConvert_pending (a0 : Pane16) (a1 : LCell) (s : State) (t : State) (h : execConvert a0 a1 s = .next t) :
    t.pending = s.pending := by
  simp only [execConvert, Host.Outcome.next.injEq] at h
  simp [← h]

theorem execVopMove_pending (a0 : Pane16) (a1 : LCell) (s : State) (t : State) (h : execVopMove a0 a1 s = .next t) :
    t.pending = s.pending := by
  simp only [execVopMove, Host.Outcome.next.injEq] at h
  simp [← h]

theorem execExp2_pending (a0 : Pane16) (a1 : LCell) (s : State) (t : State) (h : execExp2 a0 a1 s = .next t) :
    t.pending = s.pending := by
  simp only [execExp2, Host.Outcome.next.injEq] at h
  simp [← h]

theorem execLog2_pending (a0 : Pane16) (a1 : LCell) (s : State) (t : State) (h : execLog2 a0 a1 s = .next t) :
    t.pending = s.pending := by
  simp only [execLog2, Host.Outcome.next.injEq] at h
  simp [← h]

theorem execRcp_pending (a0 : Pane16) (a1 : LCell) (s : State) (t : State) (h : execRcp a0 a1 s = .next t) :
    t.pending = s.pending := by
  simp only [execRcp, Host.Outcome.next.injEq] at h
  simp [← h]

theorem execRsqrt_pending (a0 : Pane16) (a1 : LCell) (s : State) (t : State) (h : execRsqrt a0 a1 s = .next t) :
    t.pending = s.pending := by
  simp only [execRsqrt, Host.Outcome.next.injEq] at h
  simp [← h]

theorem execLaneSum_pending (a0 : Pane16) (a1 : LCell) (s : State) (t : State) (h : execLaneSum a0 a1 s = .next t) :
    t.pending = s.pending := by
  simp only [execLaneSum, Host.Outcome.next.injEq] at h
  simp [← h]

theorem execLaneMaximum_pending (a0 : Pane16) (a1 : LCell) (s : State) (t : State) (h : execLaneMaximum a0 a1 s = .next t) :
    t.pending = s.pending := by
  simp only [execLaneMaximum, Host.Outcome.next.injEq] at h
  simp [← h]

theorem execRng_pending (a0 : Pane16) (a1 : LCell) (s : State) (t : State) (h : execRng a0 a1 s = .next t) :
    t.pending = s.pending := by
  simp only [execRng, Host.Outcome.next.injEq] at h
  simp [← h]

theorem execReservedClass_pending (a0 : Pane16) (a1 : LCell) (s : State) (t : State) (h : execReservedClass a0 a1 s = .next t) :
    t.pending = s.pending := by
  simp only [execReservedClass, Host.Outcome.next.injEq] at h
  simp [← h]

theorem execIssuePastProgram_pending (a0 : Pane16) (a1 : LCell) (s : State) (t : State) (h : execIssuePastProgram a0 a1 s = .next t) :
    t.pending = s.pending := by
  unfold execIssuePastProgram at h
  dsimp only at h
  repeat' split at h
  all_goals simp only [Host.Outcome.next.injEq] at h
  all_goals subst h
  all_goals simp

theorem execTmm_pending (a0 : Pane16) (a1 : LCell) (s : State) (t : State) (h : execTmm a0 a1 s = .next t) :
    t.pending = s.pending := by
  simp only [execTmm, Host.Outcome.next.injEq] at h
  simp [← h]

theorem execTmmComplete_pending (a0 : Pane16) (a1 : LCell) (a2 : BitVec 6) (s : State) (t : State) (h : execTmmComplete a0 a1 a2 s = .next t) :
    t.pending = s.pending := by
  unfold execTmmComplete at h
  dsimp only at h
  repeat' split at h
  all_goals simp only [Host.Outcome.next.injEq] at h
  all_goals subst h
  all_goals simp

theorem execTdrain_pending (a0 : Pane16) (a1 : LCell) (s : State) (t : State) (h : execTdrain a0 a1 s = .next t) :
    t.pending = s.pending := by
  simp only [execTdrain, Host.Outcome.next.injEq] at h
  simp [← h]

theorem execTdrainComplete_pending (a0 : Pane16) (a1 : LCell) (a2 : BitVec 6) (s : State) (t : State) (h : execTdrainComplete a0 a1 a2 s = .next t) :
    t.pending = s.pending := by
  unfold execTdrainComplete at h
  dsimp only at h
  repeat' split at h
  all_goals simp only [Host.Outcome.next.injEq] at h
  all_goals subst h
  all_goals simp

theorem execNearTierLoad_pending (a0 : Pane16) (a1 : LCell) (s : State) (t : State) (h : execNearTierLoad a0 a1 s = .next t) :
    t.pending = s.pending := by
  simp only [execNearTierLoad, Host.Outcome.next.injEq] at h
  simp [← h]

theorem execNearTierStore_pending (a0 : Pane16) (a1 : LCell) (s : State) (t : State) (h : execNearTierStore a0 a1 s = .next t) :
    t.pending = s.pending := by
  simp only [execNearTierStore, Host.Outcome.next.injEq] at h
  simp [← h]

theorem execLocalMove_pending (a0 : Pane16) (a1 : LCell) (s : State) (t : State) (h : execLocalMove a0 a1 s = .next t) :
    t.pending = s.pending := by
  simp only [execLocalMove, Host.Outcome.next.injEq] at h
  simp [← h]

theorem execExchange_pending (a0 : Pane16) (a1 : LCell) (s : State) (t : State) (h : execExchange a0 a1 s = .next t) :
    t.pending = s.pending := by
  simp only [execExchange, Host.Outcome.next.injEq] at h
  simp [← h]

theorem execNearTierGather_pending (a0 : Pane16) (a1 : LCell) (s : State) (t : State) (h : execNearTierGather a0 a1 s = .next t) :
    t.pending = s.pending := by
  simp only [execNearTierGather, Host.Outcome.next.injEq] at h
  simp [← h]

@[simp] theorem landLoad_pending (s : State) (a1 : Nat) (a2 : Nat) (a3 : Nat) (a4 : Nat) (a5 : DmaOp) :
    (landLoad s a1 a2 a3 a4 a5).pending = s.pending := by
  unfold landLoad
  dsimp only
  repeat' split
  all_goals simp

@[simp] theorem landStore_pending (s : State) (a1 : Nat) (a2 : Nat) (a3 : Nat) (a4 : DmaOp) :
    (landStore s a1 a2 a3 a4).pending = s.pending := by
  simp [landStore]

@[simp] theorem landMove_pending (s : State) (a1 : Nat) (a2 : Nat) (a3 : Nat) (a4 : Nat) (a5 : DmaOp) :
    (landMove s a1 a2 a3 a4 a5).pending = s.pending := by
  simp [landMove]

@[simp] theorem landDma_pending (s : State) (a1 : Nat) (a2 : Nat) (a3 : Nat) (a4 : Nat) (a5 : DmaOp) :
    (landDma s a1 a2 a3 a4 a5).pending = s.pending := by
  unfold landDma
  dsimp only
  repeat' split
  all_goals simp

theorem execDmaComplete_pending (a0 : Pane16) (a1 : LCell) (a2 : BitVec 6) (a3 : Option (BitVec 30 × Ecc)) (s : State) (t : State) (h : execDmaComplete a0 a1 a2 a3 s = .next t) :
    t.pending = s.pending := by
  unfold execDmaComplete at h
  dsimp only at h
  repeat' split at h
  all_goals simp only [Host.Outcome.next.injEq] at h
  all_goals subst h
  all_goals simp

@[simp] theorem chargeSource_pending (s : State) (a1 : BitVec 16) (a2 : Nat) :
    (chargeSource s a1 a2).pending = s.pending := by
  simp [chargeSource]

@[simp] theorem refuseMsg_pending (s : State) (a1 : Msg) (a2 : Nat) :
    (refuseMsg s a1 a2).pending = s.pending := by
  simp [refuseMsg]

@[simp] theorem sendResponse_pending (s : State) (a1 : Nat) (a2 : Msg) :
    (sendResponse s a1 a2).pending = s.pending := by
  simp [sendResponse]

@[simp] theorem respond_pending (s : State) (a1 : Nat) (a2 : Msg) (a3 : Nat) (a4 : List Byte) (a5 : Option (BitVec 64)) :
    (respond s a1 a2 a3 a4 a5).pending = s.pending := by
  simp [respond]

@[simp] theorem countNack_pending (s : State) (p code : Nat) :
    (countNack s p code).pending = s.pending := by
  simp [countNack]

@[simp] theorem respondCode_pending (s : State) (a1 : Nat) (a2 : Msg) (a3 : Nat) :
    (respondCode s a1 a2 a3).pending = s.pending := by
  simp [respondCode]

@[simp] theorem turnAway_pending (s : State) (p : Nat) (m : Msg) (q : Nat) :
    (turnAway s p m q).pending = s.pending := by
  simp [turnAway]

@[simp] theorem deliverRequest_pending (s : State) (a1 : Msg) :
    (deliverRequest s a1).pending = s.pending := by
  unfold deliverRequest
  split <;> simp

@[simp] theorem deliverResponse_pending (s : State) (a1 : Msg) :
    (deliverResponse s a1).pending = s.pending := by
  simp [deliverResponse]

@[simp] theorem modOp_pending (s : State) (a1 : Nat) (a2 : BitVec 32) (a3 : RmoOp → RmoOp) :
    (modOp s a1 a2 a3).pending = s.pending := by
  simp [modOp]

@[simp] theorem noteRefusal_pending (s : State) (a1 : Nat) (a2 : BitVec 32) (a3 : Nat) :
    (noteRefusal s a1 a2 a3).pending = s.pending := by
  simp [noteRefusal]

@[simp] theorem admitOp_pending (s : State) (a1 : Nat) (a2 : RmoOp) :
    (admitOp s a1 a2).pending = s.pending := by
  simp [admitOp]

@[simp] theorem completeAt_pending (s : State) (a1 : Nat) (a2 : Nat) (a3 : Nat) (a4 : Nat) (a5 : Nat) (a6 : Nat) (a7 : BitVec 64) (a8 : Bool) (a9 : Bool) (a10 : Nat) :
    (completeAt s a1 a2 a3 a4 a5 a6 a7 a8 a9 a10).pending = s.pending := by
  simp [completeAt]

@[simp] theorem completeOp_pending (s : State) (a1 : Nat) (a2 : RmoOp) (a3 : Nat) (a4 : BitVec 64) :
    (completeOp s a1 a2 a3 a4).pending = s.pending := by
  simp [completeOp]

@[simp] theorem answerWaiter_pending (s : State) (a1 : Nat) (a2 : Waiter) (a3 : Nat) (a4 : BitVec 64) :
    (answerWaiter s a1 a2 a3 a4).pending = s.pending := by
  unfold answerWaiter
  split <;> simp

@[simp] theorem grantNext_pending (s : State) (a1 : Nat) (a2 : Nat) :
    (grantNext s a1 a2).pending = s.pending := by
  unfold grantNext
  dsimp only
  repeat' split
  all_goals simp

@[simp] theorem orphanLatch_pending (s : State) (a1 : Nat) :
    (orphanLatch s a1).pending = s.pending := by
  unfold orphanLatch
  dsimp only
  repeat' split
  all_goals simp

@[simp] theorem orphanAll_pending (s : State) (a1 : BitVec 16) (a2 : BitVec 4) (a3 : BitVec 16) :
    (orphanAll s a1 a2 a3).pending = s.pending := by
  simp [orphanAll]

@[simp] theorem dropWaiters_pending (s : State) (a1 : Nat) :
    (dropWaiters s a1).pending = s.pending := by
  simp [dropWaiters]

@[simp] theorem noteEpoch_pending (s : State) (a1 : Nat) (a2 : Waiter) :
    (noteEpoch s a1 a2).pending = s.pending := by
  simp [noteEpoch]

@[simp] theorem latchArrive_pending (s : State) (a1 : Nat) (a2 : Nat) :
    (latchArrive s a1 a2).pending = s.pending := by
  simp [latchArrive]

theorem latchRequest_done_pending (s : State) (op i a : Nat) (w : Waiter) (t : State) (c : Nat) (r : BitVec 64)
    (h : latchRequest s op i a w = .done t c r) : t.pending = s.pending := by
  unfold latchRequest at h
  dsimp only at h
  (repeat' split at h) <;> first
  | (simp only [LatchOut.done.injEq] at h
     obtain ⟨rfl, -, -⟩ := h
     simp)
  | cases h

theorem latchRequest_waits_pending (s : State) (op i a : Nat) (w : Waiter) (t : State)
    (h : latchRequest s op i a w = .waits t) : t.pending = s.pending := by
  unfold latchRequest at h
  dsimp only at h
  (repeat' split at h) <;> first
  | (simp only [LatchOut.waits.injEq] at h
     obtain rfl := h
     simp)
  | cases h

@[simp] theorem arriveRef_pending (s : State) (a1 : Group) (a2 : Nat) :
    (arriveRef s a1 a2).pending = s.pending := by
  unfold arriveRef
  split <;> simp

@[simp] theorem scrambleColl_pending (s : State) (a1 : Group) (a2 : List Byte) (a3 : Nat) :
    (scrambleColl s a1 a2 a3).pending = s.pending := by
  simp [scrambleColl]

@[simp] theorem enterAbort_pending (s : State) (a1 : AbortEntry) :
    (enterAbort s a1).pending = s.pending := by
  simp [enterAbort]

@[simp] theorem dueAbort_pending (s : State) (a1 : AbortEntry) :
    (dueAbort s a1).pending = s.pending := by
  simp [dueAbort]

@[simp] theorem detectAbort_pending (s : State) (a1 : BitVec 32) (a2 : Nat) (a3 : Nat) :
    (detectAbort s a1 a2 a3).pending = s.pending := by
  simp [detectAbort]

@[simp] theorem abortGroup_pending (s : State) (a1 : Group) (a2 : Nat) (a3 : Nat) :
    (abortGroup s a1 a2 a3).pending = s.pending := by
  simp [abortGroup]

@[simp] theorem receiveAbort_pending (s : State) (a1 : BitVec 32) (a2 : BitVec 16) (a3 : BitVec 16) (a4 : Nat) :
    (receiveAbort s a1 a2 a3 a4).pending = s.pending := by
  unfold receiveAbort
  dsimp only
  repeat' split
  all_goals simp

@[simp] theorem haltPane_pending (s : State) (a1 : Nat) :
    (haltPane s a1).pending = s.pending := by
  simp [haltPane]

@[simp] theorem dropFwd_pending (s : State) (lead : Nat) :
    (dropFwd s lead).pending = s.pending := by
  simp [dropFwd]

@[simp] theorem dropRun_pending (s : State) (a1 : Group) :
    (dropRun s a1).pending = s.pending := by
  simp [dropRun]

@[simp] theorem stopColls_pending (s : State) (a1 : Group) :
    (stopColls s a1).pending = s.pending := by
  unfold stopColls
  split <;> simp

@[simp] theorem setCollStatus_pending (s : State) (a1 : Nat) (a2 : AbortEntry) :
    (setCollStatus s a1 a2).pending = s.pending := by
  simp [setCollStatus]

@[simp] theorem recordAbort_pending (s : State) (a1 : Nat) (a2 : AbortEntry) :
    (recordAbort s a1 a2).pending = s.pending := by
  simp [recordAbort]

@[simp] theorem stopForAbort_pending (s : State) (a1 : Group) (a2 : AbortEntry) :
    (stopForAbort s a1 a2).pending = s.pending := by
  simp [stopForAbort]

theorem execAbortStop_pending (a0 : Pane16) (s : State) (t : State) (h : execAbortStop a0 s = .next t) :
    t.pending = s.pending := by
  unfold execAbortStop at h
  repeat' split at h
  all_goals cases h
  all_goals simp

theorem execAbortEntryExpiry_pending (s : State) (t : State) (h : execAbortEntryExpiry s = .next t) :
    t.pending = s.pending := by
  simp only [execAbortEntryExpiry, Host.Outcome.next.injEq] at h
  simp [← h]

@[simp] theorem enterTime_pending (s : State) (a1 : TimeMode) :
    (enterTime s a1).pending = s.pending := by
  simp [enterTime]

@[simp] theorem phaseHit_pending (s : State) :
    (phaseHit s).pending = s.pending := by
  simp [phaseHit]

@[simp] theorem beatHit_pending (s : State) (a1 : Nat) :
    (beatHit s a1).pending = s.pending := by
  simp [beatHit]

@[simp] theorem stepSpans_pending (s : State) (a1 : Nat → Nat) :
    (stepSpans s a1).pending = s.pending := by
  simp [stepSpans]

@[simp] theorem enterLocked_pending (s : State) (a1 : Nat) :
    (enterLocked s a1).pending = s.pending := by
  simp [enterLocked]

@[simp] theorem looseMarker_pending (s : State) (a1 : Nat) (a2 : Bool) :
    (looseMarker s a1 a2).pending = s.pending := by
  unfold looseMarker
  dsimp only
  repeat' split
  all_goals simp

@[simp] theorem boundMarker_pending (s : State) (a1 : Nat) (a2 : Bool) :
    (boundMarker s a1 a2).pending = s.pending := by
  simp [boundMarker]

theorem execBeatMarker_pending (a0 : BitVec 48) (a1 : BitVec 8) (a2 : Bool) (s : State) (t : State) (h : execBeatMarker a0 a1 a2 s = .next t) :
    t.pending = s.pending := by
  simp only [execBeatMarker, Host.Outcome.next.injEq] at h
  simp [← h]

@[simp] theorem countHoldover_pending (s : State) :
    (countHoldover s).pending = s.pending := by
  simp [countHoldover]

theorem execMissingMarker_pending (s : State) (t : State) (h : execMissingMarker s = .next t) :
    t.pending = s.pending := by
  unfold execMissingMarker at h
  repeat' split at h
  all_goals cases h
  all_goals simp

theorem execHoldoverBeat_pending (s : State) (t : State) (h : execHoldoverBeat s = .next t) :
    t.pending = s.pending := by
  unfold execHoldoverBeat at h
  split at h <;> cases h <;> simp

@[simp] theorem loseTime_pending (s : State) (a1 : Group) :
    (loseTime s a1).pending = s.pending := by
  simp [loseTime]

theorem execHoldoverLimitReached_pending (s : State) (t : State) (h : execHoldoverLimitReached s = .next t) :
    t.pending = s.pending := by
  unfold execHoldoverLimitReached at h
  split at h <;> cases h <;> simp

theorem execBeatTrimWrite_pending (a0 : Accessor) (a1 : BitVec 32) (s : State) (t : State) (h : execBeatTrimWrite a0 a1 s = .next t) :
    t.pending = s.pending := by
  unfold execBeatTrimWrite at h
  split at h <;> cases h <;> simp

@[simp] theorem appendRec_pending (s : State) (r : JRec) :
    (appendRec s r).pending = s.pending := by
  simp [appendRec]

@[simp] theorem checkpoint_pending (s : State) :
    (checkpoint s).pending = s.pending := by
  simp [checkpoint]

@[simp] theorem checkpointIfDue_pending (s : State) :
    (checkpointIfDue s).pending = s.pending := by
  simp [checkpointIfDue]

@[simp] theorem journal_pending (s : State) (a1 : Nat) (a2 : Nat) (a3 : BitVec 32) (a4 : Nat) (a5 : Nat) (a6 : BitVec 32) (a7 : BitVec 32) (a8 : BitVec 32) :
    (journal s a1 a2 a3 a4 a5 a6 a7 a8).pending = s.pending := by
  simp [journal]

@[simp] theorem journalBlk_pending (s : State) (a1 : Nat) (a2 : Nat) (a3 : Nat) :
    (journalBlk s a1 a2 a3).pending = s.pending := by
  simp [journalBlk]

@[simp] theorem openBlk_pending (s : State) (a1 : Nat) (a2 : Nat) (a3 : BlockState) :
    (openBlk s a1 a2 a3).pending = s.pending := by
  simp [openBlk]

@[simp] theorem takeUnit_pending (s : State) (a1 : Nat) (a2 : Nat) :
    (takeUnit s a1 a2).1.pending = s.pending := by
  simp [takeUnit]

theorem placeUnit_pending (s : State) (ch : Nat) (st : BlockState) (r : State × BitVec 32)
    (e : placeUnit s ch st = some r) : r.1.pending = s.pending := by
  unfold placeUnit at e
  split at e
  · obtain rfl := Option.some.inj e
    simp
  · simp only [Option.map_eq_some_iff] at e
    obtain ⟨k, -, rfl⟩ := e
    simp

@[simp] theorem countBlkRead_pending (s : State) (k : Nat) :
    (countBlkRead s k).pending = s.pending := by
  simp [countBlkRead]

@[simp] theorem countRead_pending (s : State) (a1 : Nat) (a2 : Nat) :
    (countRead s a1 a2).pending = s.pending := by
  unfold countRead
  split <;> simp

@[simp] theorem countReads_pending (s : State) (o ofs n : Nat) :
    (countReads s o ofs n).pending = s.pending := by
  simp [countReads]

@[simp] theorem poisonNear_pending (s : State) (a1 : Nat) (a2 : Nat) (a3 : Nat) :
    (poisonNear s a1 a2 a3).pending = s.pending := by
  simp [poisonNear]

@[simp] theorem farToNear_pending (s : State) (a1 : Nat) (a2 : Nat) (a3 : Nat) (a4 : List (Nat × Nat)) :
    (farToNear s a1 a2 a3 a4).pending = s.pending := by
  unfold farToNear
  refine foldl_pending _ (fun s a => ?_) _ _
  dsimp only
  rw [foldl_pending]
  · simp
  · intro s b
    split <;> simp

@[simp] theorem addProg_pending (s : State) (g : FarProg) : (addProg s g).pending = s.pending := by
  unfold addProg
  split
  · rename_i h
    simpa using placeUnit_pending _ _ _ _ h
  · simp

@[simp] theorem progUnit_pending (s : State) (a1 : Nat) (a2 : Nat) (a3 : Nat) (a4 : List Byte) (a5 : Nat) :
    (progUnit s a1 a2 a3 a4 a5).pending = s.pending := by
  unfold progUnit
  dsimp only
  split
  · rename_i h
    simpa using placeUnit_pending _ _ _ _ h
  · simp

@[simp] theorem farWrite_pending (s : State) (a1 : Nat) (a2 : Nat) (a3 : List Byte) (a4 : FarSink) :
    (farWrite s a1 a2 a3 a4).pending = s.pending := by
  simp [farWrite]

@[simp] theorem ackCommand_pending (s : State) (a1 : Nat) :
    (ackCommand s a1).pending = s.pending := by
  unfold ackCommand
  split <;> simp

@[simp] theorem ackWrites_pending (s : State) :
    (ackWrites s).pending = s.pending := by
  unfold ackWrites
  dsimp only
  rw [foldl_pending]
  · simp
  · intro s a
    split <;> simp

@[simp] theorem countWritten_pending (s : State) (a1 : Nat) (a2 : Nat) :
    (countWritten s a1 a2).pending = s.pending := by
  simp [countWritten]

@[simp] theorem putUnits_pending (s : State) (g : FarProg) :
    (putUnits s g).pending = s.pending := by
  simp [putUnits]

@[simp] theorem landProg_pending (s : State) (a1 : FarProg) :
    (landProg s a1).pending = s.pending := by
  unfold landProg
  split <;> simp

theorem execPageProgramComplete_pending (a0 : Fin 64) (s : State) (t : State) (h : execPageProgramComplete a0 s = .next t) :
    t.pending = s.pending := by
  unfold execPageProgramComplete at h
  split at h <;> cases h <;> simp

@[simp] theorem placeWaiting_pending (s : State) (ch : Nat) :
    (placeWaiting s ch).pending = s.pending := by
  simp [placeWaiting]

@[simp] theorem blockError_pending (s : State) (a1 : Nat) :
    (blockError s a1).pending = s.pending := by
  simp [blockError]

theorem execProgramFailed_pending (channel : Fin 64) (s : State) (t : State) (h : execProgramFailed channel s = .next t) :
    t.pending = s.pending := by
  unfold execProgramFailed at h
  split at h <;> cases h <;> simp

@[simp] theorem zeroingDone_pending (s : State) :
    (zeroingDone s).pending = s.pending := by
  simp [zeroingDone]

@[simp] theorem makeDurable_pending (s : State) (upto : Nat) :
    (makeDurable s upto).pending = s.pending := by
  simp [makeDurable]

theorem execJournalDurable_pending (upto : Nat) (s : State) (t : State) (h : execJournalDurable upto s = .next t) :
    t.pending = s.pending := by
  simp only [execJournalDurable, Host.Outcome.next.injEq] at h
  simp [← h]

theorem execMapCheckpoint_pending (s : State) (t : State) (h : execMapCheckpoint s = .next t) :
    t.pending = s.pending := by
  simp only [execMapCheckpoint, Host.Outcome.next.injEq] at h
  simp [← h]

@[simp] theorem checkReadOnly_pending (s : State) (a1 : Nat) :
    (checkReadOnly s a1).pending = s.pending := by
  simp [checkReadOnly]

@[simp] theorem retireBlk_pending (s : State) (a1 : Nat) (a2 : Nat) :
    (retireBlk s a1 a2).pending = s.pending := by
  simp [retireBlk]

@[simp] theorem moveUnit_pending (a0 : Nat) (s : State) (a2 : Nat × Nat × BitVec 32) :
    (moveUnit a0 s a2).pending = s.pending := by
  unfold moveUnit
  split
  · rename_i hp
    simpa using placeUnit_pending _ _ _ _ hp
  · simp

@[simp] theorem moveValid_pending (s : State) (ch b : Nat) :
    (moveValid s ch b).pending = s.pending := by
  simp [moveValid]

@[simp] theorem collect_pending (s : State) (a1 : Nat) (a2 : Nat) :
    (collect s a1 a2).pending = s.pending := by
  simp [collect]

theorem execGcVictim_pending (a0 : Fin 64) (s : State) (t : State) (h : execGcVictim a0 s = .next t) :
    t.pending = s.pending := by
  unfold execGcVictim at h
  split at h
  · cases h; rfl
  · split at h
    · simp only [Host.Outcome.next.injEq] at h
      simp [← h]
    · cases h; rfl

theorem execGcErase_pending (a0 : Fin 64) (s : State) (t : State) (h : execGcErase a0 s = .next t) :
    t.pending = s.pending := by
  unfold execGcErase at h
  dsimp only at h
  repeat' split at h
  all_goals simp only [Host.Outcome.next.injEq] at h
  all_goals subst h
  all_goals simp

theorem execBlockEraseComplete_pending (a0 : Fin 64) (a1 : BitVec 15) (a2 : Bool) (s : State) (t : State) (h : execBlockEraseComplete a0 a1 a2 s = .next t) :
    t.pending = s.pending := by
  unfold execBlockEraseComplete at h
  dsimp only at h
  repeat' split at h
  all_goals simp only [Host.Outcome.next.injEq] at h
  all_goals subst h
  all_goals simp

theorem execWearLevel_pending (a0 : Fin 64) (s : State) (t : State) (h : execWearLevel a0 s = .next t) :
    t.pending = s.pending := by
  unfold execWearLevel at h
  dsimp only at h
  repeat' split at h
  all_goals simp only [Host.Outcome.next.injEq] at h
  all_goals subst h
  all_goals simp

theorem execReadRecalibration_pending (a0 : Fin 64) (s : State) (t : State) (h : execReadRecalibration a0 s = .next t) :
    t.pending = s.pending := by
  unfold execReadRecalibration at h
  split at h <;> cases h <;> simp

theorem execFarReadRetry_pending (a0 : Fin 17) (a1 : BitVec 32) (a2 : Bool) (s : State) (t : State) (h : execFarReadRetry a0 a1 a2 s = .next t) :
    t.pending = s.pending := by
  unfold execFarReadRetry at h
  repeat' split at h
  all_goals cases h
  all_goals simp

theorem execHoldupMeasure_pending (a0 : BitVec 32) (s : State) (t : State) (h : execHoldupMeasure a0 s = .next t) :
    t.pending = s.pending := by
  simp only [execHoldupMeasure, Host.Outcome.next.injEq] at h
  simp [← h]

@[simp] theorem recoverBlk_pending (s : State) (a1 : Nat) :
    (recoverBlk s a1).pending = s.pending := by
  simp [recoverBlk]

@[simp] theorem recoverFar_pending (s : State) :
    (recoverFar s).pending = s.pending := by
  simp [recoverFar]

theorem execRecover_pending (s : State) (t : State) (h : execRecover s = .next t) :
    t.pending = s.pending := by
  simp only [execRecover, Host.Outcome.next.injEq] at h
  simp [← h]

@[simp] theorem farPowerLoss_pending (s : State) :
    (farPowerLoss s).pending = s.pending := by
  simp [farPowerLoss]

@[simp] theorem dropStaging_pending (s : State) (a1 : Nat) :
    (dropStaging s a1).pending = s.pending := by
  unfold dropStaging
  split <;> simp

@[simp] theorem dropExtents_pending (s : State) (a1 : Nat) :
    (dropExtents s a1).pending = s.pending := by
  simp [dropExtents]

@[simp] theorem zeroOwner_pending (s : State) (a1 : Nat) :
    (zeroOwner s a1).pending = s.pending := by
  simp [zeroOwner]

theorem execExtentStart_pending (a0 : Pane16) (a1 : Nat) (s : State) (t : State) (h : execExtentStart a0 a1 s = .next t) :
    t.pending = s.pending := by
  unfold execExtentStart at h
  dsimp only at h
  repeat' split at h
  all_goals simp only [Host.Outcome.next.injEq] at h
  all_goals subst h
  all_goals simp

theorem execExtentDone_pending (a0 : Pane16) (a1 : Nat) (s : State) (t : State) (h : execExtentDone a0 a1 s = .next t) :
    t.pending = s.pending := by
  unfold execExtentDone at h
  repeat' split at h
  all_goals cases h
  all_goals simp

@[simp] theorem meterEvent_pending (s : State) (a1 : Nat) (a2 : Nat) :
    (meterEvent s a1 a2).pending = s.pending := by
  simp [meterEvent]

@[simp] theorem storeRec_pending (s : State) (a1 : MeterRec) :
    (storeRec s a1).pending = s.pending := by
  simp [storeRec]

@[simp] theorem holdRec_pending (s : State) (a1 : MeterRec) :
    (holdRec s a1).pending = s.pending := by
  simp [holdRec]

@[simp] theorem writeRec_pending (s : State) (a1 : Nat) (a2 : Nat) (a3 : Nat) (a4 : Nat) (a5 : Nat) (a6 : List Byte) :
    (writeRec s a1 a2 a3 a4 a5 a6).pending = s.pending := by
  simp [writeRec]

@[simp] theorem paneRec_pending (s : State) (a1 : Nat) (a2 : Nat) (a3 : Meter) (a4 : Nat) :
    (paneRec s a1 a2 a3 a4).pending = s.pending := by
  simp [paneRec]

@[simp] theorem keptRec_pending (s : State) (a1 : Nat) (a2 : Meter) (a3 : Nat) :
    (keptRec s a1 a2 a3).pending = s.pending := by
  simp [keptRec]

@[simp] theorem operRec_pending (s : State) :
    (operRec s).pending = s.pending := by
  simp [operRec]

@[simp] theorem legalRec_pending (s : State) (a1 : Nat) (a2 : Nat) :
    (legalRec s a1 a2).pending = s.pending := by
  simp [legalRec]

@[simp] theorem openOccupancy_pending (s : State) (a1 : Nat) :
    (openOccupancy s a1).pending = s.pending := by
  simp [openOccupancy]

@[simp] theorem closeOccupancy_pending (s : State) (a1 : Nat) (a2 : Nat) :
    (closeOccupancy s a1 a2).pending = s.pending := by
  unfold closeOccupancy
  split <;> simp

@[simp] theorem openKept_pending (s : State) (a1 : Nat) :
    (openKept s a1).pending = s.pending := by
  simp [openKept]

@[simp] theorem closeKept_pending (s : State) (a1 : Nat) (a2 : Nat) :
    (closeKept s a1 a2).pending = s.pending := by
  unfold closeKept
  split <;> simp

@[simp] theorem endKept_pending (s : State) (a1 : Nat) (a2 : Bool) :
    (endKept s a1 a2).pending = s.pending := by
  unfold endKept
  refine foldl_pending _ (fun s a => ?_) _ _
  split
  · dsimp only
    split <;> simp
  · simp

@[simp] theorem closeAll_pending (s : State) (a1 : Nat) :
    (closeAll s a1).pending = s.pending := by
  simp [closeAll]

@[simp] theorem boundaryRec_pending (s : State) (a1 : Nat) :
    (boundaryRec s a1).pending = s.pending := by
  unfold boundaryRec
  split <;> simp

theorem execMeterIntervalBoundary_pending (s : State) (t : State) (h : execMeterIntervalBoundary s = .next t) :
    t.pending = s.pending := by
  unfold execMeterIntervalBoundary at h
  dsimp only at h
  repeat' split at h
  all_goals simp only [Host.Outcome.next.injEq] at h
  all_goals subst h
  all_goals simp

theorem execMeterRecordRetry_pending (a0 : Bool) (s : State) (t : State) (h : execMeterRecordRetry a0 s = .next t) :
    t.pending = s.pending := by
  unfold execMeterRecordRetry at h
  dsimp only at h
  repeat' split at h
  all_goals simp only [Host.Outcome.next.injEq] at h
  all_goals subst h
  all_goals simp

@[simp] theorem sealEvent_pending (s : State) (a1 : Nat) :
    (sealEvent s a1).pending = s.pending := by
  simp [sealEvent]

theorem execDebugPadsEnabled_pending (s : State) (t : State) (h : execDebugPadsEnabled s = .next t) :
    t.pending = s.pending := by
  simp only [execDebugPadsEnabled, Host.Outcome.next.injEq] at h
  simp [← h]

theorem execMeterUpdatePackage_pending (a0 : MeterUpdate) (s : State) (t : State) (h : execMeterUpdatePackage a0 s = .next t) :
    t.pending = s.pending := by
  unfold execMeterUpdatePackage at h
  dsimp only at h
  repeat' split at h
  all_goals simp only [Host.Outcome.next.injEq] at h
  all_goals subst h
  all_goals simp

@[simp] theorem islandLoss_pending (s : State) :
    (islandLoss s).pending = s.pending := by
  simp [islandLoss]

theorem execIslandStart_pending (s : State) (t : State) (h : execIslandStart s = .next t) :
    t.pending = s.pending := by
  unfold execIslandStart at h
  split at h <;> cases h <;> simp

@[simp] theorem islandReset_pending (s : State) :
    (islandReset s).pending = s.pending := by
  simp [islandReset]

@[simp] theorem noteRead_pending (s : State) (a1 : List MeterRec) :
    (noteRead s a1).pending = s.pending := by
  simp [noteRead]

@[simp] theorem putRec_pending (s : State) (a1 : Nat) (a2 : Nat) (a3 : Nat) (a4 : List Byte) (a5 : Nat) (a6 : List Byte) :
    (putRec s a1 a2 a3 a4 a5 a6).pending = s.pending := by
  simp [putRec]

@[simp] theorem countLost_pending (s : State) (a1 : Nat) :
    (countLost s a1).pending = s.pending := by
  simp [countLost]

@[simp] theorem newSegment_pending (s : State) :
    (newSegment s).pending = s.pending := by
  simp [newSegment]

@[simp] theorem makeRoom_pending (s : State) (a1 : Nat) :
    (makeRoom s a1).pending = s.pending := by
  simp [makeRoom]

@[simp] theorem addRec_pending (s : State) (a1 : Nat) (a2 : Nat) (a3 : Nat) (a4 : List Byte) (a5 : Nat) (a6 : List Byte) :
    (addRec s a1 a2 a3 a4 a5 a6).pending = s.pending := by
  simp [addRec]

@[simp] theorem writeOwn_pending (s : State) (a1 : DueRec) :
    (writeOwn s a1).pending = s.pending := by
  simp [writeOwn]

@[simp] theorem dueOwn_pending (s : State) (a1 : DueRec) :
    (dueOwn s a1).pending = s.pending := by
  simp [dueOwn]

@[simp] theorem newRec_pending (s : State) (a1 : Event) (a2 : Nat) :
    (newRec s a1 a2).pending = s.pending := by
  simp [newRec]

@[simp] theorem foldRec_pending (s : State) (a1 : Event) (a2 : LastRec) (a3 : Bool) :
    (foldRec s a1 a2 a3).pending = s.pending := by
  simp [foldRec]

@[simp] theorem writePriv_pending (s : State) (a1 : Event) (a2 : Nat) :
    (writePriv s a1 a2).pending = s.pending := by
  unfold writePriv
  dsimp only
  repeat' split
  all_goals simp

@[simp] theorem writeLimited_pending (s : State) (a1 : Event) (a2 : Nat) :
    (writeLimited s a1 a2).pending = s.pending := by
  simp [writeLimited]

@[simp] theorem writeEvent_pending (s : State) (a1 : Event) :
    (writeEvent s a1).pending = s.pending := by
  unfold writeEvent
  split <;> simp

@[simp] theorem startSpill_pending (s : State) :
    (startSpill s).pending = s.pending := by
  unfold startSpill
  dsimp only
  repeat' split
  all_goals simp

@[simp] theorem spillOver_pending (s : State) :
    (spillOver s).pending = s.pending := by
  unfold spillOver
  split <;> simp

theorem execEventDelivery_pending (e : Event) (s : State) (t : State) (h : execEventDelivery e s = .next t) :
    t.pending = s.pending := by
  unfold execEventDelivery at h
  repeat' split at h
  all_goals cases h
  all_goals simp

@[simp] theorem tellLost_pending (s : State) :
    (tellLost s).pending = s.pending := by
  simp [tellLost]

@[simp] theorem freezeDone_pending (s : State) :
    (freezeDone s).pending = s.pending := by
  simp [freezeDone]

theorem execEventAccept_pending (s : State) (t : State) (h : execEventAccept s = .next t) :
    t.pending = s.pending := by
  unfold execEventAccept at h
  repeat' split at h
  all_goals cases h
  all_goals simp

theorem execSuppressedSummary_pending (s : State) (t : State) (h : execSuppressedSummary s = .next t) :
    t.pending = s.pending := by
  simp only [execSuppressedSummary, Host.Outcome.next.injEq] at h
  simp [← h]

@[simp] theorem freezeRec_pending (s : State) :
    (freezeRec s).pending = s.pending := by
  simp [freezeRec]

@[simp] theorem thawRec_pending (s : State) :
    (thawRec s).pending = s.pending := by
  simp [thawRec]

@[simp] theorem recorderReset_pending (s : State) :
    (recorderReset s).pending = s.pending := by
  simp [recorderReset]

@[simp] theorem recorderLost_pending (s : State) :
    (recorderLost s).pending = s.pending := by
  simp [recorderLost]

@[simp] theorem dropParcels_pending (s : State) (a1 : Nat) :
    (dropParcels s a1).pending = s.pending := by
  simp [dropParcels]

@[simp] theorem dropQueues_pending (s : State) (a1 : Nat) (a2 : Bool) :
    (dropQueues s a1 a2).pending = s.pending := by
  simp [dropQueues]

@[simp] theorem zeroCells_pending (s : State) (a1 : Nat) :
    (zeroCells s a1).pending = s.pending := by
  simp [zeroCells]

@[simp] theorem abortForPane_pending (s : State) (a1 : Nat) :
    (abortForPane s a1).pending = s.pending := by
  unfold abortForPane
  split <;> simp

@[simp] theorem resetContext_pending (s : State) (a1 : Nat) :
    (resetContext s a1).pending = s.pending := by
  simp [resetContext]

@[simp] theorem askContextReset_pending (s : State) (p : Nat) :
    (askContextReset s p).pending = s.pending := by
  simp [askContextReset]

@[simp] theorem contextResetDue_pending (s : State) (p : Nat) :
    (contextResetDue s p).pending = s.pending := by
  unfold contextResetDue
  split <;> simp

@[simp] theorem noteHeld_pending (s : State) (a1 : Nat) (a2 : Option Nat) (a3 : List Byte) :
    (noteHeld s a1 a2 a3).pending = s.pending := by
  unfold noteHeld
  dsimp only
  repeat' split
  all_goals simp

@[simp] theorem writeFrame_pending (s : State) (a1 : Option Nat) (a2 : List Byte) :
    (writeFrame s a1 a2).pending = s.pending := by
  simp [writeFrame]

@[simp] theorem restoreFrame_pending (s : State) (a1 : Group) (a2 : List Byte) (a3 : List Byte) :
    (restoreFrame s a1 a2 a3).pending = s.pending := by
  unfold restoreFrame
  dsimp only
  repeat' split
  all_goals simp

@[simp] theorem sendStore_pending (s : State) (a1 : StoreTxn) (a2 : Nat) :
    (sendStore s a1 a2).pending = s.pending := by
  simp [sendStore]

@[simp] theorem dropTxns_pending (s : State) (a1 : StoreOwner) :
    (dropTxns s a1).pending = s.pending := by
  simp [dropTxns]

@[simp] theorem openTxn_pending (s : State) (a1 : StoreOwner) (a2 : List Byte) (a3 : BitVec 16) (a4 : Nat) (a5 : Nat) :
    (openTxn s a1 a2 a3 a4 a5).pending = s.pending := by
  simp [openTxn]

@[simp] theorem startDrain_pending (s : State) (a1 : Nat) :
    (startDrain s a1).pending = s.pending := by
  unfold startDrain
  split <;> simp

@[simp] theorem endDrain_pending (s : State) (a1 : Nat) (a2 : BitVec 48) :
    (endDrain s a1 a2).pending = s.pending := by
  simp [endDrain]

@[simp] theorem endStoreJob_pending (s : State) (a1 : StoreOwner) (a2 : Ans) :
    (endStoreJob s a1 a2).pending = s.pending := by
  unfold endStoreJob
  split <;> simp

@[simp] theorem landFetch_pending (s : State) (a1 : Nat) (a2 : Job) (a3 : List Byte) :
    (landFetch s a1 a2 a3).pending = s.pending := by
  simp [landFetch]

@[simp] theorem landObject_pending (s : State) (a1 : Nat) (a2 : Job) (a3 : StoreTxn) (a4 : List Byte) :
    (landObject s a1 a2 a3 a4).pending = s.pending := by
  unfold landObject
  dsimp only
  repeat' split
  all_goals simp

@[simp] theorem noteBytes_pending (s : State) (a1 : Nat) (a2 : Nat) :
    (noteBytes s a1 a2).pending = s.pending := by
  simp [noteBytes]

theorem execStoreGrantReceived_pending (a0 : BitVec 32) (a1 : BitVec 32) (a2 : BitVec 64) (s : State) (t : State) (h : execStoreGrantReceived a0 a1 a2 s = .next t) :
    t.pending = s.pending := by
  unfold execStoreGrantReceived at h
  split at h <;> cases h <;> simp

theorem execRdmaWritesComplete_pending (a0 : BitVec 32) (s : State) (t : State) (h : execRdmaWritesComplete a0 s = .next t) :
    t.pending = s.pending := by
  unfold execRdmaWritesComplete at h
  repeat' split at h
  all_goals cases h
  all_goals simp

theorem execRdmaReadsComplete_pending (a0 : BitVec 32) (a1 : List Byte) (s : State) (t : State) (h : execRdmaReadsComplete a0 a1 s = .next t) :
    t.pending = s.pending := by
  unfold execRdmaReadsComplete at h
  repeat' split at h
  all_goals cases h
  all_goals simp

theorem execStoreDoneReceived_pending (a0 : BitVec 32) (a1 : BitVec 8) (a2 : BitVec 64) (s : State) (t : State) (h : execStoreDoneReceived a0 a1 a2 s = .next t) :
    t.pending = s.pending := by
  unfold execStoreDoneReceived at h
  repeat' split at h
  all_goals cases h
  all_goals simp

theorem execStoreRefuseReceived_pending (a0 : BitVec 32) (a1 : BitVec 8) (a2 : BitVec 32) (s : State) (t : State) (h : execStoreRefuseReceived a0 a1 a2 s = .next t) :
    t.pending = s.pending := by
  unfold execStoreRefuseReceived at h
  repeat' split at h
  all_goals cases h
  all_goals simp

theorem execStoreRetryExpiry_pending (a0 : BitVec 32) (s : State) (t : State) (h : execStoreRetryExpiry a0 s = .next t) :
    t.pending = s.pending := by
  unfold execStoreRetryExpiry at h
  repeat' split at h
  all_goals cases h
  all_goals simp

theorem execStoreConnectionLost_pending (a0 : BitVec 32) (s : State) (t : State) (h : execStoreConnectionLost a0 s = .next t) :
    t.pending = s.pending := by
  unfold execStoreConnectionLost at h
  repeat' split at h
  all_goals cases h
  all_goals simp

theorem execShardFetchTimeout_pending (a0 : Req) (s : State) (t : State) (h : execShardFetchTimeout a0 s = .next t) :
    t.pending = s.pending := by
  simp only [execShardFetchTimeout, Host.Outcome.next.injEq] at h
  simp [← h]

theorem execRestoreTimeout_pending (a0 : Req) (s : State) (t : State) (h : execRestoreTimeout a0 s = .next t) :
    t.pending = s.pending := by
  simp only [execRestoreTimeout, Host.Outcome.next.injEq] at h
  simp [← h]

@[simp] theorem drainLate_pending (s : State) (a1 : Nat) (a2 : BitVec 32) (a3 : Nat) (a4 : Nat) :
    (drainLate s a1 a2 a3 a4).pending = s.pending := by
  simp [drainLate]

@[simp] theorem checkDrain_pending (s : State) (a1 : Group) (a2 : Nat) :
    (checkDrain s a1 a2).pending = s.pending := by
  unfold checkDrain
  dsimp only
  repeat' split
  all_goals simp

@[simp] theorem beginDrain_pending (s : State) (a1 : Group) (a2 : Nat) (a3 : List Byte) :
    (beginDrain s a1 a2 a3).1.pending = s.pending := by
  unfold beginDrain
  dsimp only
  repeat' split
  all_goals simp

@[simp] theorem countAbandoned_pending (s : State) (a1 : Nat) :
    (countAbandoned s a1).pending = s.pending := by
  simp [countAbandoned]

@[simp] theorem stormBoundary_pending (s : State) (a1 : Nat) (a2 : Nat) :
    (stormBoundary s a1 a2).pending = s.pending := by
  unfold stormBoundary
  dsimp only
  repeat' split
  all_goals simp

@[simp] theorem abandonCopy_pending (s : State) (a1 : Nat) (a2 : CopyRun) :
    (abandonCopy s a1 a2).pending = s.pending := by
  unfold abandonCopy
  split <;> simp

@[simp] theorem abandonFailed_pending (s : State) :
    (abandonFailed s).pending = s.pending := by
  unfold abandonFailed
  refine foldl_pending _ (fun s a => ?_) _ _
  (repeat' split) <;> simp

@[simp] theorem stageDrain_pending (s : State) (a1 : Nat) (a2 : DrainRun) :
    (stageDrain s a1 a2).pending = s.pending := by
  simp [stageDrain]

@[simp] theorem takeSnapshot_pending (s : State) (a1 : Group) (a2 : List Byte) (a3 : CopyRun) :
    (takeSnapshot s a1 a2 a3).pending = s.pending := by
  unfold takeSnapshot
  dsimp only
  repeat' split
  all_goals simp

theorem execSnapshotDone_pending (a0 : Pane16) (s : State) (t : State) (h : execSnapshotDone a0 s = .next t) :
    t.pending = s.pending := by
  unfold execSnapshotDone at h
  repeat' split at h
  all_goals cases h
  all_goals simp

@[simp] theorem sendAck_pending (s : State) (a1 : BitVec 16) :
    (sendAck s a1).pending = s.pending := by
  simp [sendAck]

@[simp] theorem takeRestoreFrame_pending (s : State) (a1 : Nat) (a2 : Job) (a3 : List Byte) :
    (takeRestoreFrame s a1 a2 a3).pending = s.pending := by
  unfold takeRestoreFrame
  dsimp only
  repeat' split
  all_goals simp

@[simp] theorem receiveFrame_pending (s : State) (a1 : List Byte) :
    (receiveFrame s a1).pending = s.pending := by
  unfold receiveFrame
  dsimp only
  repeat' split
  all_goals simp

theorem execStormFrameReceived_pending (a0 : List Byte) (s : State) (t : State) (h : execStormFrameReceived a0 s = .next t) :
    t.pending = s.pending := by
  simp only [execStormFrameReceived, Host.Outcome.next.injEq] at h
  simp [← h]

theorem execStormAckReceived_pending (a0 : Pane16) (s : State) (t : State) (h : execStormAckReceived a0 s = .next t) :
    t.pending = s.pending := by
  unfold execStormAckReceived at h
  repeat' split at h
  all_goals cases h
  all_goals simp

theorem execCopyAbandonTimeout_pending (a0 : Pane16) (s : State) (t : State) (h : execCopyAbandonTimeout a0 s = .next t) :
    t.pending = s.pending := by
  unfold execCopyAbandonTimeout at h
  repeat' split at h
  all_goals cases h
  all_goals simp

theorem execDrainStaged_pending (a0 : Pane16) (s : State) (t : State) (h : execDrainStaged a0 s = .next t) :
    t.pending = s.pending := by
  unfold execDrainStaged at h
  repeat' split at h
  all_goals cases h
  all_goals simp

@[simp] theorem enterTesting_pending (s : State) (a1 : Nat) :
    (enterTesting s a1).pending = s.pending := by
  simp [enterTesting]

@[simp] theorem suspendTest_pending (s : State) (a1 : Nat) :
    (suspendTest s a1).pending = s.pending := by
  simp [suspendTest]

@[simp] theorem suspendToBudget_pending (s : State) (n : Nat) : (suspendToBudget s n).pending = s.pending := by
  induction n generalizing s with
  | zero => rfl
  | succ n ih =>
    unfold suspendToBudget
    dsimp only
    (repeat' split) <;> simp [ih]

@[simp] theorem suspendAll_pending (s : State) :
    (suspendAll s).pending = s.pending := by
  simp [suspendAll]

@[simp] theorem holdBeat_pending (s : State) (a1 : Group) (a2 : HoldCause) :
    (holdBeat s a1 a2).pending = s.pending := by
  simp [holdBeat]

@[simp] theorem planBeat_pending (s : State) (a1 : Group) (a2 : List Byte) (a3 : Run) :
    (planBeat s a1 a2 a3).pending = s.pending := by
  unfold planBeat
  dsimp only
  repeat' split
  all_goals simp

@[simp] theorem beginBeat_pending (s : State) (a1 : Group) (a2 : List Byte) (a3 : Run) :
    (beginBeat s a1 a2 a3).pending = s.pending := by
  unfold beginBeat
  repeat' split
  all_goals simp

@[simp] theorem groupBeat_pending (s : State) (a1 : Nat) :
    (groupBeat s a1).pending = s.pending := by
  unfold groupBeat
  dsimp only
  repeat' split
  all_goals simp

@[simp] theorem countPeriods_pending (s : State) :
    (countPeriods s).pending = s.pending := by
  simp [countPeriods]

@[simp] theorem applyCap_pending (s : State) (a1 : BitVec 2) :
    (applyCap s a1).pending = s.pending := by
  simp [applyCap]

@[simp] theorem powerBoundary_pending (s : State) :
    (powerBoundary s).pending = s.pending := by
  simp [powerBoundary]

@[simp] theorem meterBeat_pending (s : State) :
    (meterBeat s).pending = s.pending := by
  simp [meterBeat]

@[simp] theorem freshBeat_pending (s : State) :
    (freshBeat s).pending = s.pending := by
  simp [freshBeat]

theorem execBeatBoundary_pending (s : State) (t : State) (h : execBeatBoundary s = .next t) :
    t.pending = s.pending := by
  unfold execBeatBoundary at h
  dsimp only at h
  repeat' split at h
  all_goals simp only [Host.Outcome.next.injEq] at h
  all_goals subst h
  all_goals simp

@[simp] theorem startCells_pending (s : State) (a1 : Group) :
    (startCells s a1).pending = s.pending := by
  simp [startCells]

theorem execPlanEpochStart_pending (a0 : Pane16) (s : State) (t : State) (h : execPlanEpochStart a0 s = .next t) :
    t.pending = s.pending := by
  unfold execPlanEpochStart at h
  dsimp only at h
  repeat' split at h
  all_goals simp only [Host.Outcome.next.injEq] at h
  all_goals subst h
  all_goals simp

@[simp] theorem recordSkip_pending (s : State) (a1 : Group) (a2 : Nat) :
    (recordSkip s a1 a2).pending = s.pending := by
  simp [recordSkip]

@[simp] theorem endPlan_pending (s : State) (a1 : Group) (a2 : List Byte) :
    (endPlan s a1 a2).pending = s.pending := by
  simp [endPlan]

theorem execStepBoundary_pending (a0 : Pane16) (s : State) (t : State) (h : execStepBoundary a0 s = .next t) :
    t.pending = s.pending := by
  unfold execStepBoundary at h
  repeat' split at h
  all_goals cases h
  all_goals simp

theorem execBlockStart_pending (a0 : Pane16) (a1 : LCell) (s : State) (t : State) (h : execBlockStart a0 a1 s = .next t) :
    t.pending = s.pending := by
  unfold execBlockStart at h
  dsimp only at h
  repeat' split at h
  all_goals simp only [Host.Outcome.next.injEq] at h
  all_goals subst h
  all_goals simp

theorem execSlackExpired_pending (a0 : Pane16) (a1 : LCell) (s : State) (t : State) (h : execSlackExpired a0 a1 s = .next t) :
    t.pending = s.pending := by
  unfold execSlackExpired at h
  repeat' split at h
  all_goals cases h
  all_goals simp

@[simp] theorem holdJob_pending (s : State) (a1 : BitVec 32) (a2 : Nat) (a3 : Nat) (a4 : HoldCause) :
    (holdJob s a1 a2 a3 a4).pending = s.pending := by
  simp [holdJob]

@[simp] theorem raiseHold_pending (s : State) (a1 : Group) (a2 : List Byte) (a3 : HoldCause) :
    (raiseHold s a1 a2 a3).pending = s.pending := by
  unfold raiseHold
  dsimp only
  repeat' split
  all_goals simp

theorem execGridBeat_pending (a0 : Pane16) (s : State) (t : State) (h : execGridBeat a0 s = .next t) :
    t.pending = s.pending := by
  unfold execGridBeat at h
  repeat' split at h
  all_goals cases h
  all_goals simp

@[simp] theorem receiveHold_pending (s : State) (a1 : BitVec 32) :
    (receiveHold s a1).pending = s.pending := by
  simp [receiveHold]

@[simp] theorem abortUsers_pending (s : State) (a1 : Nat) :
    (abortUsers s a1).pending = s.pending := by
  unfold abortUsers
  refine foldl_pending _ (fun s a => ?_) _ _
  (repeat' split) <;> simp

@[simp] theorem enterLink_pending (s : State) (a1 : Nat) (a2 : BitVec 4) :
    (enterLink s a1 a2).pending = s.pending := by
  simp [enterLink]

@[simp] theorem leaveActive_pending (s : State) (a1 : Nat) (a2 : BitVec 4) :
    (leaveActive s a1 a2).pending = s.pending := by
  simp [leaveActive]

@[simp] theorem portEvent_pending (s : State) (a1 : Nat) (a2 : BitVec 4) (a3 : BitVec 4) (a4 : Nat) :
    (portEvent s a1 a2 a3 a4).pending = s.pending := by
  simp [portEvent]

@[simp] theorem failPort_pending (s : State) (a1 : Nat) (a2 : Nat) :
    (failPort s a1 a2).pending = s.pending := by
  simp [failPort]

@[simp] theorem outOfStep_pending (s : State) (a1 : Nat) :
    (outOfStep s a1).pending = s.pending := by
  simp [outOfStep]

theorem execPresenceDetected_pending (a0 : PortId) (s : State) (t : State) (h : execPresenceDetected a0 s = .next t) :
    t.pending = s.pending := by
  unfold execPresenceDetected at h
  split at h <;> cases h <;> simp

theorem execEqualizeDone_pending (a0 : PortId) (s : State) (t : State) (h : execEqualizeDone a0 s = .next t) :
    t.pending = s.pending := by
  unfold execEqualizeDone at h
  split at h <;> cases h <;> simp

theorem execAlignDone_pending (a0 : PortId) (a1 : Nat) (s : State) (t : State) (h : execAlignDone a0 a1 s = .next t) :
    t.pending = s.pending := by
  unfold execAlignDone at h
  split at h <;> cases h <;> simp

@[simp] theorem forgetSlots_pending (s : State) (a1 : Nat) :
    (forgetSlots s a1).pending = s.pending := by
  simp [forgetSlots]

@[simp] theorem becomeActive_pending (s : State) (a1 : Nat) (a2 : Sill) :
    (becomeActive s a1 a2).pending = s.pending := by
  simp [becomeActive]

theorem execNegotiateDone_pending (a0 : PortId) (a1 : Sill) (s : State) (t : State) (h : execNegotiateDone a0 a1 s = .next t) :
    t.pending = s.pending := by
  unfold execNegotiateDone at h
  dsimp only at h
  repeat' split at h
  all_goals simp only [Host.Outcome.next.injEq] at h
  all_goals subst h
  all_goals simp

theorem execTrainingTimeout_pending (a0 : PortId) (s : State) (t : State) (h : execTrainingTimeout a0 s = .next t) :
    t.pending = s.pending := by
  unfold execTrainingTimeout at h
  dsimp only at h
  repeat' split at h
  all_goals simp only [Host.Outcome.next.injEq] at h
  all_goals subst h
  all_goals simp

theorem execTrainingBackoffExpired_pending (a0 : PortId) (s : State) (t : State) (h : execTrainingBackoffExpired a0 s = .next t) :
    t.pending = s.pending := by
  unfold execTrainingBackoffExpired at h
  dsimp only at h
  repeat' split at h
  all_goals simp only [Host.Outcome.next.injEq] at h
  all_goals subst h
  all_goals simp

theorem execPortRetrainingOrder_pending (a0 : PortId) (s : State) (t : State) (h : execPortRetrainingOrder a0 s = .next t) :
    t.pending = s.pending := by
  unfold execPortRetrainingOrder at h
  dsimp only at h
  repeat' split at h
  all_goals simp only [Host.Outcome.next.injEq] at h
  all_goals subst h
  all_goals simp

@[simp] theorem retireLane_pending (s : State) (a1 : Nat) (a2 : Nat) :
    (retireLane s a1 a2).pending = s.pending := by
  simp [retireLane]

@[simp] theorem switchLane_pending (a0 : Nat) (s : State) (a2 : Nat × Nat × Nat) :
    (switchLane a0 s a2).pending = s.pending := by
  simp [switchLane]

theorem execLaneSwitch_pending (a0 : PortId) (s : State) (t : State) (h : execLaneSwitch a0 s = .next t) :
    t.pending = s.pending := by
  simp only [execLaneSwitch, Host.Outcome.next.injEq] at h
  simp [← h]

theorem execSillTransmit_pending (a0 : PortId) (s : State) (t : State) (h : execSillTransmit a0 s = .next t) :
    t.pending = s.pending := by
  unfold execSillTransmit at h
  dsimp only at h
  repeat' split at h
  all_goals simp only [Host.Outcome.next.injEq] at h
  all_goals subst h
  all_goals simp

@[simp] theorem readSill_pending (s : State) (a1 : Nat) (a2 : Sill) :
    (readSill s a1 a2).pending = s.pending := by
  simp [readSill]

theorem execSillReceived_pending (port : PortId) (sill : Sill) (crc : BitVec 32) (s : State) (t : State) (h : execSillReceived port sill crc s = .next t) :
    t.pending = s.pending := by
  unfold execSillReceived at h
  dsimp only at h
  repeat' split at h
  all_goals simp only [Host.Outcome.next.injEq] at h
  all_goals subst h
  all_goals simp

theorem execReplayTimeout_pending (a0 : PortId) (s : State) (t : State) (h : execReplayTimeout a0 s = .next t) :
    t.pending = s.pending := by
  unfold execReplayTimeout at h
  split at h <;> cases h <;> simp

@[simp] theorem portsDown_pending (s : State) :
    (portsDown s).pending = s.pending := by
  simp [portsDown]

@[simp] theorem park_pending (s : State) :
    (park s).pending = s.pending := by
  simp [park]

@[simp] theorem startHubTest_pending (s : State) :
    (startHubTest s).pending = s.pending := by
  simp [startHubTest]

@[simp] theorem parkNext_pending (s : State) :
    (parkNext s).pending = s.pending := by
  unfold parkNext
  split <;> simp

@[simp] theorem beginPark_pending (s : State) :
    (beginPark s).pending = s.pending := by
  simp [beginPark]

@[simp] theorem afterShutdown_pending (s : State) (a1 : Bool) :
    (afterShutdown s a1).pending = s.pending := by
  simp [afterShutdown]

@[simp] theorem cvSlot_pending (s : State) (a1 : Nat) (a2 : Bool) (a3 : Group) (a4 : List Byte) (a5 : SlotRun) (a6 : Nat) (a7 : Nat) (a8 : BitVec 64) (a9 : List Byte) :
    (cvSlot s a1 a2 a3 a4 a5 a6 a7 a8 a9).pending = s.pending := by
  unfold cvSlot
  dsimp only
  split_ifs <;> simp

@[simp] theorem emit_pending (s : State) (a1 : Nat) (a2 : Nat) (a3 : SlotHdr) (a4 : List Byte) :
    (emit s a1 a2 a3 a4).pending = s.pending := by
  simp [emit]

@[simp] theorem emitIdle_pending (s : State) (a1 : Nat) (a2 : Nat) :
    (emitIdle s a1 a2).pending = s.pending := by
  simp [emitIdle]

@[simp] theorem sendStream_pending (s : State) (a1 : Nat) (a2 : Nat) (a3 : Group) (a4 : List Byte) (a5 : SlotRun) (a6 : Nat) (a7 : Nat) :
    (sendStream s a1 a2 a3 a4 a5 a6 a7).pending = s.pending := by
  unfold sendStream
  extract_lets x pn rel at' n lead data h sl
  have hs : ∀ r : State × List Byte, sl = some r → r.1.pending = s.pending := by
    intro r e
    change (if a3.isSealed = true then sealFrame s pn h data else some (s, data)) = some r at e
    split at e
    · exact sealFrame_pending s pn h data r e
    · obtain rfl := Option.some.inj e
      rfl
  clear_value sl
  split
  · simp
  · split
    · simp
    · split
      · simp
      · have hx := hs _ rfl
        split <;> simpa using hx

@[simp] theorem sendScheduled_pending (s : State) (a1 : Nat) (a2 : Nat) :
    (sendScheduled s a1 a2).pending = s.pending := by
  unfold sendScheduled
  dsimp only
  repeat' split
  all_goals simp

@[simp] theorem sendReplay_pending (s : State) (a1 : Nat) (a2 : Nat) (a3 : SlotImg) (a4 : Nat) :
    (sendReplay s a1 a2 a3 a4).pending = s.pending := by
  simp [sendReplay]

@[simp] theorem takeReplay_pending (p slot : Nat) (l : List (Nat × Nat × Nat)) (s : State) :
    (takeReplay p slot l s).1.pending = s.pending := by
  induction l generalizing s with
  | nil =>
    unfold takeReplay
    split <;> simp
  | cons q l ih =>
    unfold takeReplay
    dsimp only
    (repeat' split) <;> simp [ih]

@[simp] theorem freeSlots_pending (s : State) (a1 : Nat) (a2 : List Parcel) :
    (freeSlots s a1 a2).pending = s.pending := by
  simp [freeSlots]

@[simp] theorem fillBulk_pending (s : State) (via : Nat) :
    (fillBulk s via).pending = s.pending := by
  simp [fillBulk]

@[simp] theorem takeLoad_pending (s : State) (a1 : Nat) (a2 : Nat) (a3 : Nat) :
    (takeLoad s a1 a2 a3).1.pending = s.pending := by
  unfold takeLoad
  dsimp only
  repeat' split
  all_goals simp

@[simp] theorem noteCommit_pending (s : State) (a1 : Nat) (a2 : List Byte) :
    (noteCommit s a1 a2).pending = s.pending := by
  simp [noteCommit]

@[simp] theorem sendLoad_pending (s : State) (a1 : Nat) (a2 : Nat) (a3 : Nat) (a4 : Load) :
    (sendLoad s a1 a2 a3 a4).pending = s.pending := by
  unfold sendLoad
  dsimp only
  split
  · simp
  · split
    · split
      · split
        · rename_i hs
          have := sealFrame_pending _ _ _ _ _ hs
          split at this <;> simpa using this
        · split <;> simp
      · split <;> simp
    · simp

@[simp] theorem sendUnscheduled_pending (s : State) (a1 : Nat) (a2 : Nat) :
    (sendUnscheduled s a1 a2).pending = s.pending := by
  unfold sendUnscheduled
  have hr := takeReplay_pending a1 a2 (trafOf s a1).replayDue s
  split
  · rename_i hs
    rw [hs] at hr
    exact hr
  · rename_i hs
    rw [hs] at hr
    dsimp only at hr ⊢
    (repeat' split) <;> simp [hr]

@[simp] theorem sendSlot_pending (s : State) (p n : Nat) :
    (sendSlot s p n).pending = s.pending := by
  simp [sendSlot]

theorem execSlotTransmit_pending (a0 : PortId) (a1 : BitVec 8) (s : State) (t : State) (h : execSlotTransmit a0 a1 s = .next t) :
    t.pending = s.pending := by
  unfold execSlotTransmit at h
  dsimp only at h
  repeat' split at h
  all_goals simp only [Host.Outcome.next.injEq] at h
  all_goals subst h
  all_goals simp

@[simp] theorem modColl_pending (s : State) (a1 : Nat) (a2 : Nat) (a3 : CollRun → CollRun) :
    (modColl s a1 a2 a3).pending = s.pending := by
  simp [modColl]

@[simp] theorem CollEnv.writeOut_pending (x : CollEnv) (s : State) (lead i elem : Nat) (codes : List Nat) :
    (CollEnv.writeOut x s lead i elem codes).pending = s.pending := by
  simp [CollEnv.writeOut]

@[simp] theorem CollEnv.noteNorm_pending (x : CollEnv) (s : State) (lead i : Nat) (codes : List Nat) :
    (CollEnv.noteNorm x s lead i codes).pending = s.pending := by
  simp [CollEnv.noteNorm]

@[simp] theorem CollEnv.noteNoise_pending (x : CollEnv) (s : State) (lead i : Nat) (values : List Num) :
    (CollEnv.noteNoise x s lead i values).pending = s.pending := by
  simp [CollEnv.noteNoise]

@[simp] theorem CollEnv.keepExpo_pending (s : State) (lead i elem : Nat) (items : List Nat) :
    (CollEnv.keepExpo s lead i elem items).pending = s.pending := by
  simp [CollEnv.keepExpo]

@[simp] theorem CollEnv.finish_pending (x : CollEnv) (s : State) (lead : Nat) (r : CollRun) (pass : ChunkPass) (i elem : Nat) (items : List Nat) :
    (CollEnv.finish x s lead r pass i elem items).pending = s.pending := by
  simp [CollEnv.finish]

@[simp] theorem CollEnv.stageOut_pending (x : CollEnv) (s : State) (pass : ChunkPass) (k : ChunkAt) (items : List Nat) :
    (CollEnv.stageOut x s pass k items).pending = s.pending := by
  simp [CollEnv.stageOut]

@[simp] theorem noteChunk_pending (s : State) (lead coll : Nat) (id : ChunkId) (inp out : Option ChunkAt) :
    (noteChunk s lead coll id inp out).pending = s.pending := by
  simp [noteChunk]

@[simp] theorem CollEnv.sendOn_pending (x : CollEnv) (s : State) (pass : ChunkPass) (items : List Nat)
    (k : Option ChunkAt) : (x.sendOn s pass items k).pending = s.pending := by
  cases k <;> simp [CollEnv.sendOn]

@[simp] theorem CollEnv.passOn_pending (x : CollEnv) (s : State) (lead coll : Nat) (r : CollRun) (id : ChunkId) (last : Bool) (items : List Nat) (out : Option ChunkAt) :
    (CollEnv.passOn x s lead coll r id last items out).pending = s.pending := by
  simp [CollEnv.passOn]

@[simp] theorem CollEnv.reduceChunk_pending (x : CollEnv) (s : State) (lead : Nat) (r : Run) (coll : Nat) (c : CollRun) (id : ChunkId) (inp out : Option ChunkAt) :
    (CollEnv.reduceChunk x s lead r coll c id inp out).pending = s.pending := by
  unfold CollEnv.reduceChunk
  split <;> simp

@[simp] theorem CollEnv.gatherChunk_pending (x : CollEnv) (s : State) (lead : Nat) (r : Run) (coll : Nat) (c : CollRun) (id : ChunkId) (inp out : Option ChunkAt) :
    (CollEnv.gatherChunk x s lead r coll c id inp out).pending = s.pending := by
  simp [CollEnv.gatherChunk]

@[simp] theorem CollEnv.advance_pending (x : CollEnv) (s : State) (lead : Nat) (r : Run) (coll : Nat) (c : CollRun) (id : ChunkId) (inp out : Option ChunkAt) :
    (CollEnv.advance x s lead r coll c id inp out).pending = s.pending := by
  simp [CollEnv.advance]

theorem execChunkAdvance_pending (lead : Pane16) (coll : Nat) (id : ChunkId) (inp out : Option ChunkAt) (s : State) (t : State) (h : execChunkAdvance lead coll id inp out s = .next t) :
    t.pending = s.pending := by
  unfold execChunkAdvance at h
  dsimp only at h
  repeat' split at h
  all_goals simp only [Host.Outcome.next.injEq] at h
  all_goals subst h
  all_goals simp

theorem execCollectiveDone_pending (a0 : Pane16) (a1 : Nat) (a2 : BitVec 640) (a3 : BitVec 640) (a4 : BitVec 32) (a5 : Bool) (s : State) (t : State) (h : execCollectiveDone a0 a1 a2 a3 a4 a5 s = .next t) :
    t.pending = s.pending := by
  unfold execCollectiveDone at h
  dsimp only at h
  repeat' split at h
  all_goals simp only [Host.Outcome.next.injEq] at h
  all_goals subst h
  all_goals simp

@[simp] theorem detachCv_pending (s : State) (a1 : Nat) :
    (detachCv s a1).pending = s.pending := by
  simp [detachCv]

@[simp] theorem zeroCv_pending (s : State) (a1 : Nat) :
    (zeroCv s a1).pending = s.pending := by
  simp [zeroCv]

@[simp] theorem zeroNear_pending (s : State) (a1 : Nat) :
    (zeroNear s a1).pending = s.pending := by
  simp [zeroNear]

@[simp] theorem zeroWindows_pending (s : State) (p : Nat) :
    (zeroWindows s p).pending = s.pending := by
  simp [zeroWindows]

@[simp] theorem freeLatches_pending (s : State) (a1 : Nat) (a2 : BitVec 16) :
    (freeLatches s a1 a2).1.pending = s.pending := by
  simp [freeLatches]

@[simp] theorem leaveGroup_pending (s : State) (a1 : Nat) :
    (leaveGroup s a1).pending = s.pending := by
  simp [leaveGroup]

@[simp] theorem endGroupPlan_pending (s : State) (a1 : Nat) :
    (endGroupPlan s a1).pending = s.pending := by
  unfold endGroupPlan
  split <;> simp

@[simp] theorem beginTeardown_pending (s : State) (a1 : Nat) (a2 : Shutter) :
    (beginTeardown s a1 a2).pending = s.pending := by
  simp [beginTeardown]

theorem execTeardownBegin_pending (a0 : Pane16) (s : State) (t : State) (h : execTeardownBegin a0 s = .next t) :
    t.pending = s.pending := by
  unfold execTeardownBegin at h
  dsimp only at h
  repeat' split at h
  all_goals simp only [Host.Outcome.next.injEq] at h
  all_goals subst h
  all_goals simp

@[simp] theorem shutterSpares_pending (s : State) (a1 : Nat) :
    (shutterSpares s a1).pending = s.pending := by
  simp [shutterSpares]

@[simp] theorem shutterFar_pending (s : State) (a1 : Nat) (a2 : Shutter) :
    (shutterFar s a1 a2).pending = s.pending := by
  simp [shutterFar]

@[simp] theorem beginShutter_pending (s : State) (a1 : Nat) (a2 : Shutter) :
    (beginShutter s a1 a2).pending = s.pending := by
  simp [beginShutter]

theorem execWritersStopped_pending (a0 : Pane16) (s : State) (t : State) (h : execWritersStopped a0 s = .next t) :
    t.pending = s.pending := by
  unfold execWritersStopped at h
  repeat' split at h
  all_goals cases h
  all_goals simp

@[simp] theorem resetDone_pending (s : State) (a1 : Nat) (a2 : Nat) (a3 : Nat) (a4 : BitVec 32) (a5 : BitVec 16) (a6 : Nat) :
    (resetDone s a1 a2 a3 a4 a5 a6).pending = s.pending := by
  simp [resetDone]

@[simp] theorem selfResetOver_pending (s : State) (a1 : Nat) (a2 : Nat) :
    (selfResetOver s a1 a2).pending = s.pending := by
  simp [selfResetOver]

@[simp] theorem selfTestReturns_pending (s : State) :
    (selfTestReturns s).pending = s.pending := by
  unfold selfTestReturns
  refine foldl_pending _ (fun s a => ?_) _ _
  dsimp only
  (repeat' split) <;> simp

@[simp] theorem shutdownReturns_pending (s : State) :
    (shutdownReturns s).pending = s.pending := by
  unfold shutdownReturns
  dsimp only
  repeat' split
  all_goals simp

@[simp] theorem askPaneReset_pending (s : State) (a1 : Nat) :
    (askPaneReset s a1).pending = s.pending := by
  simp [askPaneReset]

@[simp] theorem endShutter_pending (s : State) (a1 : Nat) (a2 : Shutter) :
    (endShutter s a1 a2).pending = s.pending := by
  simp [endShutter]

theorem execShutterComplete_pending (a0 : Pane16) (s : State) (t : State) (h : execShutterComplete a0 s = .next t) :
    t.pending = s.pending := by
  unfold execShutterComplete at h
  repeat' split at h
  all_goals cases h
  all_goals simp

@[simp] theorem joinTeardown_pending (s : State) (a1 : Nat) (a2 : Bool) :
    (joinTeardown s a1 a2).pending = s.pending := by
  unfold joinTeardown
  dsimp only
  repeat' split
  all_goals simp

theorem execCtxResetEnd_pending (a0 : Pane16) (s : State) (t : State) (h : execCtxResetEnd a0 s = .next t) :
    t.pending = s.pending := by
  unfold execCtxResetEnd at h
  dsimp only at h
  repeat' split at h
  all_goals simp only [Host.Outcome.next.injEq] at h
  all_goals subst h
  all_goals simp

theorem execTestStart_pending (s : State) (t : State) (h : execTestStart s = .next t) :
    t.pending = s.pending := by
  unfold execTestStart at h
  repeat' split at h
  all_goals cases h
  all_goals simp

@[simp] theorem retireCells_pending (s : State) (a1 : Nat) (a2 : BitVec 34) :
    (retireCells s a1 a2).pending = s.pending := by
  simp [retireCells]

@[simp] theorem retirePcs_pending (s : State) (a1 : Nat) (a2 : BitVec 68) :
    (retirePcs s a1 a2).pending = s.pending := by
  simp [retirePcs]

@[simp] theorem takeReport_pending (s : State) (a1 : Nat) (a2 : Nat) (a3 : TestReport) :
    (takeReport s a1 a2 a3).pending = s.pending := by
  simp [takeReport]

@[simp] theorem reinitPane_pending (s : State) (a1 : Nat) :
    (reinitPane s a1).pending = s.pending := by
  simp [reinitPane]

@[simp] theorem failPaneTest_pending (s : State) (a1 : Nat) :
    (failPaneTest s a1).pending = s.pending := by
  simp [failPaneTest]

@[simp] theorem endPaneTest_pending (s : State) (a1 : Nat) (a2 : BitVec 64) :
    (endPaneTest s a1 a2).pending = s.pending := by
  simp [endPaneTest]

theorem execTestPhaseDone_pending (a0 : Pane16) (a1 : TestReport) (s : State) (t : State) (h : execTestPhaseDone a0 a1 s = .next t) :
    t.pending = s.pending := by
  unfold execTestPhaseDone at h
  dsimp only at h
  repeat' split at h
  all_goals simp only [Host.Outcome.next.injEq] at h
  all_goals subst h
  all_goals simp

@[simp] theorem dropTest_pending (s : State) (a1 : Nat) :
    (dropTest s a1).pending = s.pending := by
  simp [dropTest]

theorem execHubTestDone_pending (a0 : Bool) (a1 : BitVec 64) (s : State) (t : State) (h : execHubTestDone a0 a1 s = .next t) :
    t.pending = s.pending := by
  unfold execHubTestDone at h
  dsimp only at h
  repeat' split at h
  all_goals simp only [Host.Outcome.next.injEq] at h
  all_goals subst h
  all_goals simp

theorem execSpillDone_pending (s : State) (t : State) (h : execSpillDone s = .next t) :
    t.pending = s.pending := by
  simp only [execSpillDone, Host.Outcome.next.injEq] at h
  simp [← h]

@[simp] theorem resetRing_pending (s : State) (a1 : Nat) :
    (resetRing s a1).pending = s.pending := by
  simp [resetRing]

@[simp] theorem resetEth_pending (s : State) (a1 : Nat) :
    (resetEth s a1).pending = s.pending := by
  unfold resetEth
  refine foldl_pending _ (fun s a => ?_) _ _
  (repeat' split) <;> simp

@[simp] theorem resetCv_pending (s : State) (a1 : Nat) :
    (resetCv s a1).pending = s.pending := by
  simp [resetCv]

@[simp] theorem resetEngine_pending (s : State) (a1 : Nat) :
    (resetEngine s a1).pending = s.pending := by
  simp [resetEngine]

@[simp] theorem keepSpaces_pending (s : State) :
    (keepSpaces s).pending = s.pending := by
  simp [keepSpaces]

@[simp] theorem hubClear_pending (s : State) :
    (hubClear s).pending = s.pending := by
  simp [hubClear]

@[simp] theorem ledgerCheck_pending (s : State) (a1 : Bool) :
    (ledgerCheck s a1).pending = s.pending := by
  simp [ledgerCheck]

@[simp] theorem hubStart_pending (s : State) (a1 : Bool) (a2 : Bool) :
    (hubStart s a1 a2).pending = s.pending := by
  simp [hubStart]

@[simp] theorem moduleReset_pending (s : State) (a1 : BitVec 3) :
    (moduleReset s a1).pending = s.pending := by
  simp [moduleReset]

@[simp] theorem askPowerCycle_pending (s : State) :
    (askPowerCycle s).pending = s.pending := by
  simp [askPowerCycle]

@[simp] theorem watchReset_pending (s : State) :
    (watchReset s).pending = s.pending := by
  simp [watchReset]

@[simp] theorem hubFault_pending (s : State) (a1 : BitVec 3) :
    (hubFault s a1).pending = s.pending := by
  simp [hubFault]

theorem execHubFault_pending (s : State) (t : State) (h : execHubFault s = .next t) :
    t.pending = s.pending := by
  simp only [execHubFault, Host.Outcome.next.injEq] at h
  simp [← h]

theorem execHubWatchdogExpiry_pending (s : State) (t : State) (h : execHubWatchdogExpiry s = .next t) :
    t.pending = s.pending := by
  simp only [execHubWatchdogExpiry, Host.Outcome.next.injEq] at h
  simp [← h]

theorem execEngineFault_pending (a0 : Fin 28) (s : State) (t : State) (h : execEngineFault a0 s = .next t) :
    t.pending = s.pending := by
  simp only [execEngineFault, Host.Outcome.next.injEq] at h
  simp [← h]

theorem execPaneHardwareFault_pending (a0 : Pane16) (s : State) (t : State) (h : execPaneHardwareFault a0 s = .next t) :
    t.pending = s.pending := by
  unfold execPaneHardwareFault at h
  dsimp only at h
  repeat' split at h
  all_goals simp only [Host.Outcome.next.injEq] at h
  all_goals subst h
  all_goals simp

theorem execResetEscalation_pending (s : State) (t : State) (h : execResetEscalation s = .next t) :
    t.pending = s.pending := by
  unfold execResetEscalation at h
  repeat' split at h
  all_goals cases h
  all_goals simp

theorem execSubwindowRollover_pending (s : State) (t : State) (h : execSubwindowRollover s = .next t) :
    t.pending = s.pending := by
  simp only [execSubwindowRollover, Host.Outcome.next.injEq] at h
  simp [← h]

theorem execEthernetUncorrectableCodeword_pending (a0 : Fin 2) (s : State) (t : State) (h : execEthernetUncorrectableCodeword a0 s = .next t) :
    t.pending = s.pending := by
  unfold execEthernetUncorrectableCodeword at h
  dsimp only at h
  repeat' split at h
  all_goals simp only [Host.Outcome.next.injEq] at h
  all_goals subst h
  all_goals simp

@[simp] theorem done_pending (s : State) :
    (done s).1.pending = s.pending := by
  simp [done]

@[simp] theorem answer_pending (s : State) (a1 : Ans) :
    (answer s a1).1.pending = s.pending := by
  simp [answer]

@[simp] theorem goesOn_pending (s : State) :
    (goesOn s).1.pending = s.pending := by
  simp [goesOn]

@[simp] theorem doHello_pending (s : State) (a1 : Nat) (a2 : Packet) :
    (doHello s a1 a2).1.pending = s.pending := by
  unfold doHello
  split <;> simp

@[simp] theorem createContext_pending (s : State) (a1 : Nat) (a2 : BitVec 32) :
    (createContext s a1 a2).pending = s.pending := by
  simp [createContext]

@[simp] theorem doCtxCreate_pending (s : State) (a1 : Nat) (a2 : Packet) :
    (doCtxCreate s a1 a2).1.pending = s.pending := by
  unfold doCtxCreate
  dsimp only
  repeat' split
  all_goals simp

@[simp] theorem createAfterZeroing_pending (s : State) (a1 : Packet) :
    (createAfterZeroing s a1).1.pending = s.pending := by
  unfold createAfterZeroing
  dsimp only
  repeat' split
  all_goals simp

@[simp] theorem doCtxTeardown_pending (s : State) (a1 : Nat) (a2 : Packet) :
    (doCtxTeardown s a1 a2).1.pending = s.pending := by
  unfold doCtxTeardown
  dsimp only
  repeat' split
  all_goals simp

@[simp] theorem doGroupBind_pending (s : State) (a1 : Nat) (a2 : Packet) :
    (doGroupBind s a1 a2).1.pending = s.pending := by
  unfold doGroupBind
  dsimp only
  repeat' split
  all_goals simp

@[simp] theorem doCtxReset_pending (s : State) (a1 : Nat) (a2 : Packet) :
    (doCtxReset s a1 a2).1.pending = s.pending := by
  unfold doCtxReset
  dsimp only
  repeat' split
  all_goals simp

@[simp] theorem doEngineReset_pending (s : State) (a1 : Nat) (a2 : Packet) :
    (doEngineReset s a1 a2).1.pending = s.pending := by
  unfold doEngineReset
  split <;> simp

@[simp] theorem doPaneReset_pending (s : State) (a1 : Nat) (a2 : Packet) :
    (doPaneReset s a1 a2).1.pending = s.pending := by
  unfold doPaneReset
  dsimp only
  repeat' split
  all_goals simp

@[simp] theorem doModuleReset_pending (s : State) (a1 : Nat) (a2 : Packet) :
    (doModuleReset s a1 a2).1.pending = s.pending := by
  simp [doModuleReset]

theorem onIdleGroup_pending (s : State) (lead : Nat) (f : Group → Effect) (hf : ∀ g, (f g).1.pending = s.pending) :
    (onIdleGroup s lead f).1.pending = s.pending := by
  unfold onIdleGroup
  (repeat' split) <;> simp [hf]

@[simp] theorem doSlotAlloc_pending (s : State) (a1 : Nat) (a2 : Packet) :
    (doSlotAlloc s a1 a2).1.pending = s.pending := by
  unfold doSlotAlloc
  dsimp only
  refine onIdleGroup_pending _ _ _ (fun g => ?_)
  (repeat' split) <;> simp

@[simp] theorem doStreamShare_pending (s : State) (a1 : Nat) (a2 : Packet) :
    (doStreamShare s a1 a2).1.pending = s.pending := by
  unfold doStreamShare
  dsimp only
  refine onIdleGroup_pending _ _ _ (fun g => ?_)
  (repeat' split) <;> simp

@[simp] theorem trimBeyond_pending (s : State) (a1 : Nat) (a2 : Nat) :
    (trimBeyond s a1 a2).pending = s.pending := by
  simp [trimBeyond]

@[simp] theorem doFarQuota_pending (s : State) (a1 : Nat) (a2 : Packet) :
    (doFarQuota s a1 a2).1.pending = s.pending := by
  unfold doFarQuota
  dsimp only
  repeat' split
  all_goals simp

@[simp] theorem allocBlock_pending (s : State) (a1 : Nat) (a2 : Nat) :
    (allocBlock s a1 a2).pending = s.pending := by
  simp [allocBlock]

@[simp] theorem doLatchAlloc_pending (s : State) (a1 : Nat) (a2 : Packet) :
    (doLatchAlloc s a1 a2).1.pending = s.pending := by
  unfold doLatchAlloc
  dsimp only
  repeat' split
  all_goals simp

@[simp] theorem doJobMapLoad_pending (s : State) (a1 : Nat) (a2 : Packet) :
    (doJobMapLoad s a1 a2).1.pending = s.pending := by
  unfold doJobMapLoad
  dsimp only
  repeat' split
  all_goals simp

@[simp] theorem endWait_pending (s : State) :
    (endWait s).pending = s.pending := by
  simp [endWait]

@[simp] theorem doCoordLoad_pending (s : State) (a1 : Nat) (a2 : Packet) :
    (doCoordLoad s a1 a2).1.pending = s.pending := by
  unfold doCoordLoad
  dsimp only
  repeat' split
  all_goals simp

@[simp] theorem doIdentitySet_pending (s : State) (a1 : Nat) (a2 : Packet) :
    (doIdentitySet s a1 a2).1.pending = s.pending := by
  unfold doIdentitySet
  split <;> simp

@[simp] theorem loadPane_pending (a0 : List Byte) (a1 : Group) (s : State) (a3 : Nat) :
    (loadPane a0 a1 s a3).pending = s.pending := by
  simp [loadPane]

@[simp] theorem loadLatch_pending (a0 : Group) (s : State) (a2 : Nat × Nat × Nat) :
    (loadLatch a0 s a2).pending = s.pending := by
  unfold loadLatch
  split <;> simp

@[simp] theorem installPlan_pending (s : State) (a1 : Group) (a2 : List Byte) :
    (installPlan s a1 a2).pending = s.pending := by
  simp [installPlan]

@[simp] theorem doPlanLoad_pending (s : State) (a1 : Nat) (a2 : Packet) :
    (doPlanLoad s a1 a2).1.pending = s.pending := by
  unfold doPlanLoad
  dsimp only
  refine onIdleGroup_pending _ _ _ (fun g => ?_)
  repeat' split
  all_goals simp

@[simp] theorem doPlanStart_pending (s : State) (a1 : Nat) (a2 : Packet) :
    (doPlanStart s a1 a2).1.pending = s.pending := by
  unfold doPlanStart
  dsimp only
  repeat' split
  all_goals simp

@[simp] theorem doPlanStop_pending (s : State) (a1 : Nat) (a2 : Packet) :
    (doPlanStop s a1 a2).1.pending = s.pending := by
  unfold doPlanStop
  dsimp only
  repeat' split
  all_goals simp

@[simp] theorem doWindowGrant_pending (s : State) (a1 : Nat) (a2 : Packet) :
    (doWindowGrant s a1 a2).1.pending = s.pending := by
  unfold doWindowGrant
  dsimp only
  repeat' split
  all_goals simp

@[simp] theorem doWindowRevoke_pending (s : State) (a1 : Nat) (a2 : Packet) :
    (doWindowRevoke s a1 a2).1.pending = s.pending := by
  unfold doWindowRevoke
  dsimp only
  repeat' split
  all_goals simp

@[simp] theorem doSealKey_pending (s : State) (a1 : Nat) (a2 : Packet) :
    (doSealKey s a1 a2).1.pending = s.pending := by
  unfold doSealKey
  dsimp only
  repeat' split
  all_goals simp

@[simp] theorem doLatchOrphan_pending (s : State) (a1 : Nat) (a2 : Packet) :
    (doLatchOrphan s a1 a2).1.pending = s.pending := by
  unfold doLatchOrphan
  split <;> simp

@[simp] theorem setWriting_pending (s : State) (a1 : Nat) (a2 : List (Nat × Nat × Nat)) :
    (setWriting s a1 a2).pending = s.pending := by
  simp [setWriting]

@[simp] theorem doSwapIn_pending (s : State) (a1 : Nat) (a2 : Packet) :
    (doSwapIn s a1 a2).1.pending = s.pending := by
  unfold doSwapIn
  dsimp only
  repeat' split
  all_goals simp

@[simp] theorem refuseWrite_pending (s : State) (a1 : Nat) (a2 : Ans) :
    (refuseWrite s a1 a2).1.pending = s.pending := by
  simp [refuseWrite]

@[simp] theorem doSwapOut_pending (s : State) (a1 : Nat) (a2 : Packet) :
    (doSwapOut s a1 a2).1.pending = s.pending := by
  unfold doSwapOut
  dsimp only
  repeat' split
  all_goals simp

@[simp] theorem doShardFetch_pending (s : State) (a1 : Nat) (a2 : Packet) :
    (doShardFetch s a1 a2).1.pending = s.pending := by
  unfold doShardFetch
  dsimp only
  repeat' split
  all_goals simp

@[simp] theorem doBuddySet_pending (s : State) (a1 : Nat) (a2 : Packet) :
    (doBuddySet s a1 a2).1.pending = s.pending := by
  unfold doBuddySet
  dsimp only
  refine onIdleGroup_pending _ _ _ (fun g => ?_)
  (repeat' split) <;> simp

@[simp] theorem doStormNow_pending (s : State) (a1 : Nat) (a2 : Packet) :
    (doStormNow s a1 a2).1.pending = s.pending := by
  unfold doStormNow
  dsimp only
  repeat' split
  all_goals simp

@[simp] theorem doDrainSet_pending (s : State) (a1 : Nat) (a2 : Packet) :
    (doDrainSet s a1 a2).1.pending = s.pending := by
  unfold doDrainSet
  dsimp only
  refine onIdleGroup_pending _ _ _ (fun g => ?_)
  (repeat' split) <;> simp

@[simp] theorem restoreBuddy_pending (s : State) (a1 : Nat) (a2 : Group) (a3 : List Byte) (a4 : Nat) :
    (restoreBuddy s a1 a2 a3 a4).1.pending = s.pending := by
  unfold restoreBuddy
  dsimp only
  repeat' split
  all_goals simp

@[simp] theorem doRestore_pending (s : State) (a1 : Nat) (a2 : Packet) :
    (doRestore s a1 a2).1.pending = s.pending := by
  unfold doRestore
  dsimp only
  refine onIdleGroup_pending _ _ _ (fun g => ?_)
  (repeat' split) <;> simp

@[simp] theorem renegotiate_pending (s : State) :
    (renegotiate s).pending = s.pending := by
  simp [renegotiate]

@[simp] theorem clearUnscheduled_pending (s : State) (a1 : Nat) :
    (clearUnscheduled s a1).pending = s.pending := by
  simp [clearUnscheduled]

@[simp] theorem setModuleMode_pending (s : State) (a1 : Nat) (a2 : Nat) :
    (setModuleMode s a1 a2).pending = s.pending := by
  unfold setModuleMode
  split <;> simp

@[simp] theorem doModeSet_pending (s : State) (a1 : Nat) (a2 : Packet) :
    (doModeSet s a1 a2).1.pending = s.pending := by
  unfold doModeSet
  dsimp only
  repeat' split
  all_goals simp

@[simp] theorem doModeGet_pending (s : State) (a1 : Nat) (a2 : Packet) :
    (doModeGet s a1 a2).1.pending = s.pending := by
  unfold doModeGet
  dsimp only
  repeat' split
  all_goals simp

@[simp] theorem doSelfTest_pending (s : State) (a1 : Nat) (a2 : Packet) :
    (doSelfTest s a1 a2).1.pending = s.pending := by
  unfold doSelfTest
  dsimp only
  repeat' split
  all_goals simp

@[simp] theorem shutdownPane_pending (s : State) (a1 : Nat) :
    (shutdownPane s a1).pending = s.pending := by
  simp [shutdownPane]

@[simp] theorem doShutdown_pending (s : State) (a1 : Nat) (a2 : Packet) :
    (doShutdown s a1 a2).1.pending = s.pending := by
  unfold doShutdown
  split <;> simp

@[simp] theorem doMeterRead_pending (s : State) (a1 : Nat) (a2 : Packet) :
    (doMeterRead s a1 a2).1.pending = s.pending := by
  unfold doMeterRead
  dsimp only
  repeat' split
  all_goals simp

@[simp] theorem doMeterIdent_pending (s : State) (a1 : Nat) (a2 : Packet) :
    (doMeterIdent s a1 a2).1.pending = s.pending := by
  simp [doMeterIdent]

@[simp] theorem doEventFreeze_pending (s : State) (a1 : Nat) (a2 : Packet) :
    (doEventFreeze s a1 a2).1.pending = s.pending := by
  unfold doEventFreeze
  repeat' split
  all_goals simp

@[simp] theorem doEventRead_pending (s : State) (a1 : Nat) (a2 : Packet) :
    (doEventRead s a1 a2).1.pending = s.pending := by
  unfold doEventRead
  dsimp only
  repeat' split
  all_goals simp

@[simp] theorem doEventThaw_pending (s : State) (a1 : Nat) (a2 : Packet) :
    (doEventThaw s a1 a2).1.pending = s.pending := by
  unfold doEventThaw
  split <;> simp

@[simp] theorem refuseBusy_pending (s : State) (a1 : Nat) (a2 : Job) (a3 : Option (Option (BitVec 16) × BitVec 32)) (a4 : Nat) (a5 : Nat) :
    (refuseBusy s a1 a2 a3 a4 a5).pending = s.pending := by
  unfold refuseBusy
  split <;> simp

@[simp] theorem effectOf_pending (a0 : Nat) (s : State) (a2 : Nat) (a3 : Packet) :
    (effectOf a0 s a2 a3).1.pending = s.pending := by
  unfold effectOf
  split <;> simp

@[simp] theorem startEffect_pending (a0 : Nat) (s : State) (a2 : Nat) (a3 : Packet) :
    (startEffect a0 s a2 a3).1.pending = s.pending := by
  unfold startEffect
  dsimp only
  repeat' split
  all_goals simp

@[simp] theorem replyEffect_pending (a0 : Nat) (s : State) (a2 : Nat) (a3 : Packet) :
    (replyEffect a0 s a2 a3).1.pending = s.pending := by
  unfold replyEffect
  repeat' split
  all_goals simp

@[simp] theorem noteAts_pending (s : State) (a1 : Nat) (a2 : Nat) (a3 : Packet) :
    (noteAts s a1 a2 a3).pending = s.pending := by
  simp [noteAts]

@[simp] theorem startJob_pending (s : State) (a1 : Nat) :
    (startJob s a1).pending = s.pending := by
  unfold startJob
  dsimp only
  repeat' split
  all_goals simp

@[simp] theorem acceptPacket_pending (s : State) (a1 : Nat) (a2 : Nat) (a3 : Packet) :
    (acceptPacket s a1 a2 a3).pending = s.pending := by
  unfold acceptPacket
  split <;> simp

@[simp] theorem fmPacket_pending (s : State) (entry : Option (BitVec 16)) (xid : BitVec 32) (op : Nat) (k : Packet) :
    (fmPacket s entry xid op k).pending = s.pending := by
  unfold fmPacket
  split <;> simp

@[simp] theorem doorbell_pending (s : State) (a1 : Nat) (a2 : Nat) (a3 : Packet) :
    (doorbell s a1 a2 a3).pending = s.pending := by
  unfold doorbell
  repeat' split
  all_goals simp

theorem execCommandStart_pending (a0 : Req) (s : State) (t : State) (h : execCommandStart a0 s = .next t) :
    t.pending = s.pending := by
  unfold execCommandStart at h
  repeat' split at h
  all_goals cases h
  all_goals simp

theorem execCommandReply_pending (a0 : Req) (s : State) (t : State) (h : execCommandReply a0 s = .next t) :
    t.pending = s.pending := by
  unfold execCommandReply at h
  dsimp only at h
  repeat' split at h
  all_goals simp only [Host.Outcome.next.injEq] at h
  all_goals subst h
  all_goals simp

@[simp] theorem escapeReply_pending (s : State) (a1 : Nat) (a2 : Packet) (a3 : Ans) :
    (escapeReply s a1 a2 a3).pending = s.pending := by
  simp [escapeReply]

@[simp] theorem escapeBusy_pending (s : State) (a1 : Nat) (a2 : Packet) (a3 : Job) :
    (escapeBusy s a1 a2 a3).pending = s.pending := by
  simp [escapeBusy]

@[simp] theorem tellOverrun_pending (s : State) (r : Nat) (j : Job) :
    (tellOverrun s r j).pending = s.pending := by
  simp [tellOverrun]

theorem execCommandOverrun_pending (r : Req) (s : State) (t : State) (h : execCommandOverrun r s = .next t) :
    t.pending = s.pending := by
  unfold execCommandOverrun at h
  dsimp only at h
  repeat' split at h
  all_goals simp only [Host.Outcome.next.injEq] at h
  all_goals subst h
  all_goals simp

@[simp] theorem runEscape_pending (s : State) (a1 : Nat) (a2 : Packet) :
    (runEscape s a1 a2).pending = s.pending := by
  unfold runEscape
  dsimp only
  repeat' split
  all_goals simp

@[simp] theorem escapeBell_pending (s : State) (a1 : Nat) (a2 : Packet) :
    (escapeBell s a1 a2).pending = s.pending := by
  unfold escapeBell
  repeat' split
  all_goals simp

theorem execEscape_pending (a0 : BitVec 16) (a1 : Packet) (s : State) (t : State) (h : execEscape a0 a1 s = .next t) :
    t.pending = s.pending := by
  simp only [execEscape, Host.Outcome.next.injEq] at h
  simp [← h]

theorem execHello_pending (a0 : Req) (a1 : Packet) (s : State) (t : State) (h : execHello a0 a1 s = .next t) :
    t.pending = s.pending := by
  simp only [execHello, Host.Outcome.next.injEq] at h
  simp [← h]

theorem execCtxCreate_pending (a0 : Req) (a1 : Packet) (s : State) (t : State) (h : execCtxCreate a0 a1 s = .next t) :
    t.pending = s.pending := by
  simp only [execCtxCreate, Host.Outcome.next.injEq] at h
  simp [← h]

theorem execCtxTeardown_pending (a0 : Req) (a1 : Packet) (s : State) (t : State) (h : execCtxTeardown a0 a1 s = .next t) :
    t.pending = s.pending := by
  simp only [execCtxTeardown, Host.Outcome.next.injEq] at h
  simp [← h]

theorem execGroupBind_pending (a0 : Req) (a1 : Packet) (s : State) (t : State) (h : execGroupBind a0 a1 s = .next t) :
    t.pending = s.pending := by
  simp only [execGroupBind, Host.Outcome.next.injEq] at h
  simp [← h]

theorem execCtxReset_pending (a0 : Req) (a1 : Packet) (s : State) (t : State) (h : execCtxReset a0 a1 s = .next t) :
    t.pending = s.pending := by
  simp only [execCtxReset, Host.Outcome.next.injEq] at h
  simp [← h]

theorem execEngineReset_pending (a0 : Req) (a1 : Packet) (s : State) (t : State) (h : execEngineReset a0 a1 s = .next t) :
    t.pending = s.pending := by
  simp only [execEngineReset, Host.Outcome.next.injEq] at h
  simp [← h]

theorem execPaneReset_pending (a0 : Req) (a1 : Packet) (s : State) (t : State) (h : execPaneReset a0 a1 s = .next t) :
    t.pending = s.pending := by
  simp only [execPaneReset, Host.Outcome.next.injEq] at h
  simp [← h]

theorem execModuleReset_pending (a0 : Req) (a1 : Packet) (s : State) (t : State) (h : execModuleReset a0 a1 s = .next t) :
    t.pending = s.pending := by
  simp only [execModuleReset, Host.Outcome.next.injEq] at h
  simp [← h]

theorem execSlotAlloc_pending (a0 : Req) (a1 : Packet) (s : State) (t : State) (h : execSlotAlloc a0 a1 s = .next t) :
    t.pending = s.pending := by
  simp only [execSlotAlloc, Host.Outcome.next.injEq] at h
  simp [← h]

theorem execStreamShare_pending (a0 : Req) (a1 : Packet) (s : State) (t : State) (h : execStreamShare a0 a1 s = .next t) :
    t.pending = s.pending := by
  simp only [execStreamShare, Host.Outcome.next.injEq] at h
  simp [← h]

theorem execFarQuota_pending (a0 : Req) (a1 : Packet) (s : State) (t : State) (h : execFarQuota a0 a1 s = .next t) :
    t.pending = s.pending := by
  simp only [execFarQuota, Host.Outcome.next.injEq] at h
  simp [← h]

theorem execLatchAlloc_pending (a0 : Req) (a1 : Packet) (s : State) (t : State) (h : execLatchAlloc a0 a1 s = .next t) :
    t.pending = s.pending := by
  simp only [execLatchAlloc, Host.Outcome.next.injEq] at h
  simp [← h]

theorem execJobMapLoad_pending (a0 : Req) (a1 : Packet) (s : State) (t : State) (h : execJobMapLoad a0 a1 s = .next t) :
    t.pending = s.pending := by
  simp only [execJobMapLoad, Host.Outcome.next.injEq] at h
  simp [← h]

theorem execCoordLoad_pending (a0 : Req) (a1 : Packet) (s : State) (t : State) (h : execCoordLoad a0 a1 s = .next t) :
    t.pending = s.pending := by
  simp only [execCoordLoad, Host.Outcome.next.injEq] at h
  simp [← h]

theorem execIdentitySet_pending (a0 : Req) (a1 : Packet) (s : State) (t : State) (h : execIdentitySet a0 a1 s = .next t) :
    t.pending = s.pending := by
  simp only [execIdentitySet, Host.Outcome.next.injEq] at h
  simp [← h]

theorem execPlanLoad_pending (a0 : Req) (a1 : Packet) (s : State) (t : State) (h : execPlanLoad a0 a1 s = .next t) :
    t.pending = s.pending := by
  simp only [execPlanLoad, Host.Outcome.next.injEq] at h
  simp [← h]

theorem execPlanStart_pending (a0 : Req) (a1 : Packet) (s : State) (t : State) (h : execPlanStart a0 a1 s = .next t) :
    t.pending = s.pending := by
  simp only [execPlanStart, Host.Outcome.next.injEq] at h
  simp [← h]

theorem execPlanStop_pending (a0 : Req) (a1 : Packet) (s : State) (t : State) (h : execPlanStop a0 a1 s = .next t) :
    t.pending = s.pending := by
  simp only [execPlanStop, Host.Outcome.next.injEq] at h
  simp [← h]

theorem execWindowGrant_pending (a0 : Req) (a1 : Packet) (s : State) (t : State) (h : execWindowGrant a0 a1 s = .next t) :
    t.pending = s.pending := by
  simp only [execWindowGrant, Host.Outcome.next.injEq] at h
  simp [← h]

theorem execWindowRevoke_pending (a0 : Req) (a1 : Packet) (s : State) (t : State) (h : execWindowRevoke a0 a1 s = .next t) :
    t.pending = s.pending := by
  simp only [execWindowRevoke, Host.Outcome.next.injEq] at h
  simp [← h]

theorem execSealKey_pending (a0 : Req) (a1 : Packet) (s : State) (t : State) (h : execSealKey a0 a1 s = .next t) :
    t.pending = s.pending := by
  simp only [execSealKey, Host.Outcome.next.injEq] at h
  simp [← h]

theorem execLatchOrphan_pending (a0 : Req) (a1 : Packet) (s : State) (t : State) (h : execLatchOrphan a0 a1 s = .next t) :
    t.pending = s.pending := by
  simp only [execLatchOrphan, Host.Outcome.next.injEq] at h
  simp [← h]

theorem execSwapIn_pending (a0 : Req) (a1 : Packet) (s : State) (t : State) (h : execSwapIn a0 a1 s = .next t) :
    t.pending = s.pending := by
  simp only [execSwapIn, Host.Outcome.next.injEq] at h
  simp [← h]

theorem execSwapOut_pending (a0 : Req) (a1 : Packet) (s : State) (t : State) (h : execSwapOut a0 a1 s = .next t) :
    t.pending = s.pending := by
  simp only [execSwapOut, Host.Outcome.next.injEq] at h
  simp [← h]

theorem execShardFetch_pending (a0 : Req) (a1 : Packet) (s : State) (t : State) (h : execShardFetch a0 a1 s = .next t) :
    t.pending = s.pending := by
  simp only [execShardFetch, Host.Outcome.next.injEq] at h
  simp [← h]

theorem execBuddySet_pending (a0 : Req) (a1 : Packet) (s : State) (t : State) (h : execBuddySet a0 a1 s = .next t) :
    t.pending = s.pending := by
  simp only [execBuddySet, Host.Outcome.next.injEq] at h
  simp [← h]

theorem execStormNow_pending (a0 : Req) (a1 : Packet) (s : State) (t : State) (h : execStormNow a0 a1 s = .next t) :
    t.pending = s.pending := by
  simp only [execStormNow, Host.Outcome.next.injEq] at h
  simp [← h]

theorem execDrainSet_pending (a0 : Req) (a1 : Packet) (s : State) (t : State) (h : execDrainSet a0 a1 s = .next t) :
    t.pending = s.pending := by
  simp only [execDrainSet, Host.Outcome.next.injEq] at h
  simp [← h]

theorem execRestore_pending (a0 : Req) (a1 : Packet) (s : State) (t : State) (h : execRestore a0 a1 s = .next t) :
    t.pending = s.pending := by
  simp only [execRestore, Host.Outcome.next.injEq] at h
  simp [← h]

@[simp] theorem modeBell_pending (s : State) (a1 : Nat) (a2 : Nat) (a3 : Packet) :
    (modeBell s a1 a2 a3).pending = s.pending := by
  simp [modeBell]

theorem execModeSetPowerCap_pending (a0 : Req) (a1 : Packet) (s : State) (t : State) (h : execModeSetPowerCap a0 a1 s = .next t) :
    t.pending = s.pending := by
  simp only [execModeSetPowerCap, Host.Outcome.next.injEq] at h
  simp [← h]

theorem execModeSetSlotSplit_pending (a0 : Req) (a1 : Packet) (s : State) (t : State) (h : execModeSetSlotSplit a0 a1 s = .next t) :
    t.pending = s.pending := by
  simp only [execModeSetSlotSplit, Host.Outcome.next.injEq] at h
  simp [← h]

theorem execModeSetHoldoverLimit_pending (a0 : Req) (a1 : Packet) (s : State) (t : State) (h : execModeSetHoldoverLimit a0 a1 s = .next t) :
    t.pending = s.pending := by
  simp only [execModeSetHoldoverLimit, Host.Outcome.next.injEq] at h
  simp [← h]

theorem execModeSetCheckValueMode_pending (a0 : Req) (a1 : Packet) (s : State) (t : State) (h : execModeSetCheckValueMode a0 a1 s = .next t) :
    t.pending = s.pending := by
  simp only [execModeSetCheckValueMode, Host.Outcome.next.injEq] at h
  simp [← h]

theorem execModeSetCheckValuePoly_pending (a0 : Req) (a1 : Packet) (s : State) (t : State) (h : execModeSetCheckValuePoly a0 a1 s = .next t) :
    t.pending = s.pending := by
  simp only [execModeSetCheckValuePoly, Host.Outcome.next.injEq] at h
  simp [← h]

theorem execModeSetFarTierWrites_pending (a0 : Req) (a1 : Packet) (s : State) (t : State) (h : execModeSetFarTierWrites a0 a1 s = .next t) :
    t.pending = s.pending := by
  simp only [execModeSetFarTierWrites, Host.Outcome.next.injEq] at h
  simp [← h]

theorem execModeSetExactBf16_pending (a0 : Req) (a1 : Packet) (s : State) (t : State) (h : execModeSetExactBf16 a0 a1 s = .next t) :
    t.pending = s.pending := by
  simp only [execModeSetExactBf16, Host.Outcome.next.injEq] at h
  simp [← h]

theorem execModeSetSealedFrames_pending (a0 : Req) (a1 : Packet) (s : State) (t : State) (h : execModeSetSealedFrames a0 a1 s = .next t) :
    t.pending = s.pending := by
  simp only [execModeSetSealedFrames, Host.Outcome.next.injEq] at h
  simp [← h]

theorem execModeSetStormInterval_pending (a0 : Req) (a1 : Packet) (s : State) (t : State) (h : execModeSetStormInterval a0 a1 s = .next t) :
    t.pending = s.pending := by
  simp only [execModeSetStormInterval, Host.Outcome.next.injEq] at h
  simp [← h]

theorem execModeSetDrainInterval_pending (a0 : Req) (a1 : Packet) (s : State) (t : State) (h : execModeSetDrainInterval a0 a1 s = .next t) :
    t.pending = s.pending := by
  simp only [execModeSetDrainInterval, Host.Outcome.next.injEq] at h
  simp [← h]

theorem execModeGet_pending (a0 : Req) (a1 : Packet) (s : State) (t : State) (h : execModeGet a0 a1 s = .next t) :
    t.pending = s.pending := by
  simp only [execModeGet, Host.Outcome.next.injEq] at h
  simp [← h]

theorem execSelfTest_pending (a0 : Req) (a1 : Packet) (s : State) (t : State) (h : execSelfTest a0 a1 s = .next t) :
    t.pending = s.pending := by
  simp only [execSelfTest, Host.Outcome.next.injEq] at h
  simp [← h]

theorem execShutdown_pending (a0 : Req) (a1 : Packet) (s : State) (t : State) (h : execShutdown a0 a1 s = .next t) :
    t.pending = s.pending := by
  simp only [execShutdown, Host.Outcome.next.injEq] at h
  simp [← h]

theorem execMeterRead_pending (a0 : Req) (a1 : Packet) (s : State) (t : State) (h : execMeterRead a0 a1 s = .next t) :
    t.pending = s.pending := by
  simp only [execMeterRead, Host.Outcome.next.injEq] at h
  simp [← h]

theorem execMeterIdent_pending (a0 : Req) (a1 : Packet) (s : State) (t : State) (h : execMeterIdent a0 a1 s = .next t) :
    t.pending = s.pending := by
  simp only [execMeterIdent, Host.Outcome.next.injEq] at h
  simp [← h]

theorem execEventFreeze_pending (a0 : Req) (a1 : Packet) (s : State) (t : State) (h : execEventFreeze a0 a1 s = .next t) :
    t.pending = s.pending := by
  simp only [execEventFreeze, Host.Outcome.next.injEq] at h
  simp [← h]

theorem execEventRead_pending (a0 : Req) (a1 : Packet) (s : State) (t : State) (h : execEventRead a0 a1 s = .next t) :
    t.pending = s.pending := by
  simp only [execEventRead, Host.Outcome.next.injEq] at h
  simp [← h]

theorem execEventThaw_pending (a0 : Req) (a1 : Packet) (s : State) (t : State) (h : execEventThaw a0 a1 s = .next t) :
    t.pending = s.pending := by
  simp only [execEventThaw, Host.Outcome.next.injEq] at h
  simp [← h]

@[simp] theorem hubOff_pending (s : State) (a1 : BitVec 3) :
    (hubOff s a1).pending = s.pending := by
  simp [hubOff]

@[simp] theorem holdupActions_pending (s : State) :
    (holdupActions s).pending = s.pending := by
  simp [holdupActions]

theorem execInputPowerLoss_pending (s : State) (t : State) (h : execInputPowerLoss s = .next t) :
    t.pending = s.pending := by
  unfold execInputPowerLoss at h
  split at h
  · cases h; rfl
  · simp only [Host.Outcome.next.injEq] at h
    simp [← h]

theorem execBankCharged_pending (s : State) (t : State) (h : execBankCharged s = .next t) :
    t.pending = s.pending := by
  simp only [execBankCharged, Host.Outcome.next.injEq] at h
  simp [← h]

theorem execPwrEnAssert_pending (s : State) (t : State) (h : execPwrEnAssert s = .next t) :
    t.pending = s.pending := by
  simp only [execPwrEnAssert, Host.Outcome.next.injEq] at h
  simp [← h]

theorem execPwrEnDeassert_pending (s : State) (t : State) (h : execPwrEnDeassert s = .next t) :
    t.pending = s.pending := by
  unfold execPwrEnDeassert at h
  dsimp only at h
  repeat' split at h
  all_goals simp only [Host.Outcome.next.injEq] at h
  all_goals subst h
  all_goals simp

theorem execResetNRise_pending (a0 : BitVec 4) (s : State) (t : State) (h : execResetNRise a0 s = .next t) :
    t.pending = s.pending := by
  unfold execResetNRise at h
  split at h <;> cases h <;> simp

theorem execResetNPulse_pending (s : State) (t : State) (h : execResetNPulse s = .next t) :
    t.pending = s.pending := by
  simp only [execResetNPulse, Host.Outcome.next.injEq] at h
  simp [← h]

theorem execDoorkeeperReady_pending (s : State) (t : State) (h : execDoorkeeperReady s = .next t) :
    t.pending = s.pending := by
  unfold execDoorkeeperReady at h
  split at h <;> cases h <;> simp

@[simp] theorem startupShutter_pending (s : State) (a1 : Nat) :
    (startupShutter s a1).pending = s.pending := by
  simp [startupShutter]

theorem execPaneBringupDone_pending (s : State) (t : State) (h : execPaneBringupDone s = .next t) :
    t.pending = s.pending := by
  unfold execPaneBringupDone at h
  split at h
  · simp only [Host.Outcome.next.injEq] at h
    rw [← h, foldl_pending _ startupShutter_pending]
    simp
  · cases h; rfl

@[simp] theorem readSensor_pending (s : State) (a1 : Nat) (a2 : Nat) :
    (readSensor s a1 a2).pending = s.pending := by
  simp [readSensor]

@[simp] theorem thermalEvent_pending (s : State) (a1 : Nat) (a2 : Nat) :
    (thermalEvent s a1 a2).pending = s.pending := by
  simp [thermalEvent]

@[simp] theorem enterTrip_pending (s : State) (a1 : Nat) :
    (enterTrip s a1).pending = s.pending := by
  simp [enterTrip]

theorem execThermalThreshold_pending (a0 : Fin 33) (a1 : Nat) (s : State) (t : State) (h : execThermalThreshold a0 a1 s = .next t) :
    t.pending = s.pending := by
  unfold execThermalThreshold at h
  split at h <;> cases h <;> simp

theorem execThermalClear_pending (s : State) (t : State) (h : execThermalClear s = .next t) :
    t.pending = s.pending := by
  unfold execThermalClear at h
  repeat' split at h
  all_goals cases h
  all_goals simp

@[simp] theorem stopForCap_pending (s : State) (a1 : Group) :
    (stopForCap s a1).pending = s.pending := by
  unfold stopForCap
  split <;> simp

@[simp] theorem setCap_pending (s : State) (a1 : BitVec 2) :
    (setCap s a1).pending = s.pending := by
  simp [setCap]

theorem execCapEffecterSet_pending (a0 : BitVec 2) (s : State) (t : State) (h : execCapEffecterSet a0 s = .next t) :
    t.pending = s.pending := by
  simp only [execCapEffecterSet, Host.Outcome.next.injEq] at h
  simp [← h]

theorem execPldmFirmwareUpdate_pending (a0 : Fin 3) (a1 : Bool) (s : State) (t : State) (h : execPldmFirmwareUpdate a0 a1 s = .next t) :
    t.pending = s.pending := by
  simp only [execPldmFirmwareUpdate, Host.Outcome.next.injEq] at h
  simp [← h]

@[simp] theorem complete_pending (s : State) (a1 : Completion) :
    (complete s a1).pending = s.pending := by
  simp [complete]

@[simp] theorem setSnap_pending (s : State) (a1 : Nat) (a2 : Option (Nat × List (BitVec 64))) :
    (setSnap s a1 a2).pending = s.pending := by
  simp [setSnap]

theorem execWideRegisterRead_pending (a0 : Accessor) (a1 : BitVec 21) (a2 : Nat) (s : State) (t : State) (h : execWideRegisterRead a0 a1 a2 s = .next t) :
    t.pending = s.pending := by
  unfold execWideRegisterRead at h
  repeat' split at h
  all_goals cases h
  all_goals simp

@[simp] theorem writeTrim_pending (s : State) (a1 : Accessor) (a2 : BitVec 32) :
    (writeTrim s a1 a2).pending = s.pending := by
  unfold writeTrim
  split
  · rename_i h
    exact execBeatTrimWrite_pending _ _ _ _ h
  · rfl

@[simp] theorem writeModule_pending (s : State) (a1 : Nat) (a2 : Nat) :
    (writeModule s a1 a2).pending = s.pending := by
  unfold writeModule
  split <;> simp

@[simp] theorem writePane_pending (s : State) (a1 : Nat) (a2 : Nat) (a3 : Nat) :
    (writePane s a1 a2 a3).pending = s.pending := by
  unfold writePane
  split <;> simp

@[simp] theorem areaPacket_pending (s : State) (a1 : Tbl Byte) (a2 : Nat) :
    (areaPacket s a1 a2).1.pending = s.pending := by
  unfold areaPacket
  dsimp only
  repeat' split
  all_goals simp

@[simp] theorem writeMailbox_pending (s : State) (a1 : Nat) (a2 : Nat) (a3 : Nat) :
    (writeMailbox s a1 a2 a3).pending = s.pending := by
  simp [writeMailbox]

@[simp] theorem firePending_pending (s : State) (a1 : Nat) (a2 : Nat) :
    (firePending s a1 a2).pending = s.pending := by
  simp [firePending]

@[simp] theorem writeMsix_pending (s : State) (a1 : Nat) (a2 : Nat) (a3 : Nat) :
    (writeMsix s a1 a2 a3).pending = s.pending := by
  simp [writeMsix]

@[simp] theorem writeWord_pending (s : State) (a1 : Nat) (a2 : Nat) (a3 : Nat) :
    (writeWord s a1 a2 a3).pending = s.pending := by
  unfold writeWord
  split <;> simp

theorem execRegisterWrite_pending (a0 : Accessor) (a1 : BitVec 21) (a2 : Nat) (a3 : BitVec 64) (s : State) (t : State) (h : execRegisterWrite a0 a1 a2 a3 s = .next t) :
    t.pending = s.pending := by
  unfold execRegisterWrite at h
  repeat' split at h
  all_goals cases h
  all_goals simp

@[simp] theorem idleMailbox_pending (s : State) (a1 : Nat) :
    (idleMailbox s a1).pending = s.pending := by
  simp [idleMailbox]

@[simp] theorem resetMailbox_pending (s : State) (a1 : Nat) :
    (resetMailbox s a1).pending = s.pending := by
  simp [resetMailbox]

theorem execVfFlr_pending (a0 : Pane16) (s : State) (t : State) (h : execVfFlr a0 s = .next t) :
    t.pending = s.pending := by
  unfold execVfFlr at h
  split at h <;> cases h <;> simp

theorem execPfFlr_pending (s : State) (t : State) (h : execPfFlr s = .next t) :
    t.pending = s.pending := by
  unfold execPfFlr at h
  split at h <;> cases h <;> simp

theorem execVfEnableChange_pending (a0 : Nat) (s : State) (t : State) (h : execVfEnableChange a0 s = .next t) :
    t.pending = s.pending := by
  unfold execVfEnableChange at h
  repeat' split at h
  all_goals cases h
  all_goals simp

theorem execAtsInvalidation_pending (a0 : BitVec 64) (a1 : Fin 17) (s : State) (t : State) (h : execAtsInvalidation a0 a1 s = .next t) :
    t.pending = s.pending := by
  simp only [execAtsInvalidation, Host.Outcome.next.injEq] at h
  simp [← h]

@[simp] theorem sbAnswer_pending (s : State) (a1 : Nat) (a2 : Nat) (a3 : BitVec 32) (a4 : BitVec 32) (a5 : List Byte) :
    (sbAnswer s a1 a2 a3 a4 a5).pending = s.pending := by
  simp [sbAnswer]

theorem execSbRegisterRead_pending (a0 : BitVec 32) (a1 : BitVec 32) (a2 : BitVec 16) (s : State) (t : State) (h : execSbRegisterRead a0 a1 a2 s = .next t) :
    t.pending = s.pending := by
  unfold execSbRegisterRead at h
  split at h <;> cases h <;> simp

theorem execSbRegisterWrite_pending (a0 : BitVec 32) (a1 : BitVec 32) (a2 : BitVec 16) (a3 : BitVec 64) (s : State) (t : State) (h : execSbRegisterWrite a0 a1 a2 a3 s = .next t) :
    t.pending = s.pending := by
  unfold execSbRegisterWrite at h
  repeat' split at h
  all_goals cases h
  all_goals simp

theorem execSbMeterIdent_pending (a0 : BitVec 32) (s : State) (t : State) (h : execSbMeterIdent a0 s = .next t) :
    t.pending = s.pending := by
  unfold execSbMeterIdent at h
  split at h <;> cases h <;> simp

@[simp] theorem sendReceipt_pending (s : State) (a1 : BitVec 16) (a2 : BitVec 32) :
    (sendReceipt s a1 a2).pending = s.pending := by
  simp [sendReceipt]

@[simp] theorem fmRun_pending (s : State) (entry : Option (BitVec 16)) (xid : BitVec 32) (d : List Byte) :
    (fmRun s entry xid d).pending = s.pending := by
  simp [fmRun]

@[simp] theorem fmAssemble_pending (s : State) (a1 : BitVec 16) (a2 : FmFragment) :
    (fmAssemble s a1 a2).pending = s.pending := by
  simp [fmAssemble]

@[simp] theorem noteRelay_pending (s : State) (a1 : FmFragment) :
    (noteRelay s a1).pending = s.pending := by
  simp [noteRelay]

@[simp] theorem sbFragStatus_pending (s : State) (a1 : Nat) (a2 : BitVec 16) (a3 : BitVec 32) :
    (sbFragStatus s a1 a2 a3).pending = s.pending := by
  simp [sbFragStatus]

theorem execFmRequestFragment_pending (a0 : FmFragment) (s : State) (t : State) (h : execFmRequestFragment a0 s = .next t) :
    t.pending = s.pending := by
  unfold execFmRequestFragment at h
  repeat' split at h
  all_goals cases h
  all_goals simp

@[simp] theorem fmReturn_pending (s : State) (a1 : FmFragment) :
    (fmReturn s a1).pending = s.pending := by
  unfold fmReturn
  split <;> simp

@[simp] theorem fmArrive_pending (s : State) (a1 : FmFragment) :
    (fmArrive s a1).pending = s.pending := by
  simp [fmArrive]

@[simp] theorem fmForward_pending (s : State) (a1 : Nat) (a2 : Option (Nat × Nat × Nat)) (a3 : FmFragment) :
    (fmForward s a1 a2 a3).pending = s.pending := by
  simp [fmForward]

theorem execFmFragmentReceived_pending (a0 : PortId) (a1 : FmFragment) (s : State) (t : State) (h : execFmFragmentReceived a0 a1 s = .next t) :
    t.pending = s.pending := by
  unfold execFmFragmentReceived at h
  repeat' split at h
  all_goals cases h
  all_goals simp

theorem execFmReceiptRepeat_pending (s : State) (t : State) (h : execFmReceiptRepeat s = .next t) :
    t.pending = s.pending := by
  unfold execFmReceiptRepeat at h
  repeat' split at h
  all_goals cases h
  all_goals simp

theorem execFmUnreachableTimeout_pending (s : State) (t : State) (h : execFmUnreachableTimeout s = .next t) :
    t.pending = s.pending := by
  unfold execFmUnreachableTimeout at h
  dsimp only at h
  repeat' split at h
  all_goals simp only [Host.Outcome.next.injEq] at h
  all_goals subst h
  all_goals simp

@[simp] theorem askReplay_pending (s : State) (a1 : Nat) (a2 : Nat) (a3 : Nat) :
    (askReplay s a1 a2 a3).pending = s.pending := by
  simp [askReplay]

@[simp] theorem countSymbols_pending (a0 : Nat) (s : State) (a2 : Nat × Nat) :
    (countSymbols a0 s a2).pending = s.pending := by
  simp [countSymbols]

@[simp] theorem countFec_pending (s : State) (a1 : Nat) (a2 : RxSlot) :
    (countFec s a1 a2).pending = s.pending := by
  simp [countFec]

@[simp] theorem failCheck_pending (s : State) (a1 : Nat) (a2 : Nat) :
    (failCheck s a1 a2).pending = s.pending := by
  simp [failCheck]

@[simp] theorem readFlags_pending (s : State) (a1 : SlotHdr) :
    (readFlags s a1).pending = s.pending := by
  simp [readFlags]

@[simp] theorem sealFail_pending (s : State) (a1 : Nat) (a2 : Nat) (a3 : Nat) (a4 : BitVec 16) :
    (sealFail s a1 a2 a3 a4).pending = s.pending := by
  simp [sealFail]

@[simp] theorem misplace_pending (s : State) (a1 : Nat) (a2 : Nat) (a3 : Group) (a4 : Nat) :
    (misplace s a1 a2 a3 a4).pending = s.pending := by
  simp [misplace]

@[simp] theorem forwardSlot_pending (s : State) (a1 : Group) (a2 : SlotRun) (a3 : Nat) (a4 : Nat) (a5 : Option (Nat × Nat)) (a6 : SlotImg) :
    (forwardSlot s a1 a2 a3 a4 a5 a6).pending = s.pending := by
  simp [forwardSlot]

@[simp] theorem landStream_pending (s : State) (a1 : Group) (a2 : List Byte) (a3 : SlotRun) (a4 : Nat) (a5 : Nat) (a6 : List Byte) :
    (landStream s a1 a2 a3 a4 a5 a6).pending = s.pending := by
  simp [landStream]

@[simp] theorem takeStream_pending (s : State) (a1 : Nat) (a2 : Group) (a3 : List Byte) (a4 : SlotRun) (a5 : Nat) (a6 : Nat) (a7 : SlotImg) :
    (takeStream s a1 a2 a3 a4 a5 a6 a7).pending = s.pending := by
  unfold takeStream
  dsimp only
  repeat' split
  all_goals simp

@[simp] theorem placePlan_pending (s : State) (a1 : Nat) (a2 : Nat) (a3 : Group) (a4 : List Byte) (a5 : Run) (a6 : Nat) (a7 : Option (Nat × Nat)) (a8 : SlotImg) :
    (placePlan s a1 a2 a3 a4 a5 a6 a7 a8).pending = s.pending := by
  unfold placePlan
  dsimp only
  repeat' split
  all_goals simp

@[simp] theorem receivePlan_pending (s : State) (a1 : Nat) (a2 : Nat) (a3 : Nat) (a4 : Option (Nat × Nat)) (a5 : SlotImg) :
    (receivePlan s a1 a2 a3 a4 a5).pending = s.pending := by
  unfold receivePlan
  repeat' split
  all_goals simp

@[simp] theorem passOn_pending (s : State) (a1 : Nat × Nat × Nat) (a2 : Nat) (a3 : BitVec 16) (a4 : List Byte) (a5 : Option SlotHdr) :
    (passOn s a1 a2 a3 a4 a5).pending = s.pending := by
  simp [passOn]

@[simp] theorem takeMsg_pending (s : State) (a1 : Msg) :
    (takeMsg s a1).pending = s.pending := by
  unfold takeMsg
  dsimp only
  repeat' split
  all_goals simp

@[simp] theorem routeMsg_pending (a0 : Nat × Nat × Nat) (a1 : Nat) (s : State) (a3 : Msg) :
    (routeMsg a0 a1 s a3).pending = s.pending := by
  simp [routeMsg]

@[simp] theorem routeMgmt_pending (s : State) (a1 : Nat × Nat × Nat) (a2 : List Byte) :
    (routeMgmt s a1 a2).pending = s.pending := by
  simp [routeMgmt]

@[simp] theorem takeBulk_pending (s : State) (d : List Byte) (isSealed : Bool) :
    (takeBulk s d isSealed).pending = s.pending := by
  simp [takeBulk]

@[simp] theorem routeBulk_pending (s : State) (a1 : Nat × Nat × Nat) (a2 : List Byte) :
    (routeBulk s a1 a2).pending = s.pending := by
  simp [routeBulk]

@[simp] theorem takeClear_pending (s : State) (a1 : Nat × Nat × Nat) (a2 : Nat) (a3 : List Byte) :
    (takeClear s a1 a2 a3).pending = s.pending := by
  simp [takeClear]

@[simp] theorem takeSealed_pending (s : State) (key : Nat × Nat × Nat) (c : Nat) (h : HeldSlot) :
    (takeSealed s key c h).pending = s.pending := by
  unfold takeSealed
  dsimp only
  repeat' split
  all_goals simp

@[simp] theorem deliverSlot_pending (s : State) (p : Nat) (h : HeldSlot) (kind : Nat) :
    (deliverSlot s p h kind).pending = s.pending := by
  unfold deliverSlot
  split <;> simp

@[simp] theorem inOrder_pending (s : State) (a1 : Nat) (a2 : HeldSlot) :
    (inOrder s a1 a2).pending = s.pending := by
  simp [inOrder]

@[simp] theorem releaseHeld_pending (s : State) (a1 : Nat) :
    (releaseHeld s a1).pending = s.pending := by
  simp [releaseHeld]

@[simp] theorem countReplay_pending (s : State) (a1 : Nat) :
    (countReplay s a1).pending = s.pending := by
  simp [countReplay]

@[simp] theorem receiveReplay_pending (s : State) (p : Nat) (x : SlotImg) (dest : BitVec 16) :
    (receiveReplay s p x dest).pending = s.pending := by
  unfold receiveReplay
  dsimp only
  repeat' split
  all_goals simp

@[simp] theorem takeSlot_pending (s : State) (p : Nat) (x : SlotImg) (dest : BitVec 16) :
    (takeSlot s p x dest).pending = s.pending := by
  simp [takeSlot]

theorem execSlotReceived_pending (port : PortId) (rx : RxSlot) (s : State) (t : State) (h : execSlotReceived port rx s = .next t) :
    t.pending = s.pending := by
  unfold execSlotReceived at h
  dsimp only at h
  repeat' split at h
  all_goals simp only [Host.Outcome.next.injEq] at h
  all_goals subst h
  all_goals simp

theorem execSyncWait_pending (a0 : Pane16) (a1 : LCell) (s : State) (t : State) (h : execSyncWait a0 a1 s = .next t) :
    t.pending = s.pending := by
  simp only [execSyncWait, Host.Outcome.next.injEq] at h
  simp [← h]

theorem execPaneBarrier_pending (a0 : Pane16) (a1 : LCell) (s : State) (t : State) (h : execPaneBarrier a0 a1 s = .next t) :
    t.pending = s.pending := by
  simp only [execPaneBarrier, Host.Outcome.next.injEq] at h
  simp [← h]

theorem execBarrierComplete_pending (a0 : Pane16) (a1 : BitVec 4) (s : State) (t : State) (h : execBarrierComplete a0 a1 s = .next t) :
    t.pending = s.pending := by
  unfold execBarrierComplete at h
  split at h <;> cases h <;> simp

@[simp] theorem latchRefused_pending (s : State) (p l t : Nat) :
    (latchRefused s p l t).pending = s.pending := by
  simp [latchRefused]

@[simp] theorem issueLatch_pending (op a : Nat) (good : Bool) (s : State) (p l w : Nat) :
    (issueLatch op a good s p l w).pending = s.pending := by
  unfold issueLatch
  dsimp only
  split
  · simp
  · split
    · simp
    · split
      · rename_i hl
        simp [latchRequest_done_pending _ _ _ _ _ _ _ _ hl]
      · rename_i hl
        simp [latchRequest_waits_pending _ _ _ _ _ _ hl]
      · simp

theorem execSyncArrive_pending (a0 : Pane16) (a1 : LCell) (s : State) (t : State) (h : execSyncArrive a0 a1 s = .next t) :
    t.pending = s.pending := by
  simp only [execSyncArrive, Host.Outcome.next.injEq] at h
  simp [← h]

theorem execSyncLatchWait_pending (a0 : Pane16) (a1 : LCell) (s : State) (t : State) (h : execSyncLatchWait a0 a1 s = .next t) :
    t.pending = s.pending := by
  simp only [execSyncLatchWait, Host.Outcome.next.injEq] at h
  simp [← h]

theorem execSyncAcquire_pending (a0 : Pane16) (a1 : LCell) (s : State) (t : State) (h : execSyncAcquire a0 a1 s = .next t) :
    t.pending = s.pending := by
  simp only [execSyncAcquire, Host.Outcome.next.injEq] at h
  simp [← h]

theorem execSyncRelease_pending (a0 : Pane16) (a1 : LCell) (s : State) (t : State) (h : execSyncRelease a0 a1 s = .next t) :
    t.pending = s.pending := by
  simp only [execSyncRelease, Host.Outcome.next.injEq] at h
  simp [← h]

@[simp] theorem endLatchOp_pending (s : State) (a1 : Nat) (a2 : Nat) (a3 : Nat) (a4 : Nat) (a5 : LatchOp) (a6 : Nat) (a7 : BitVec 64) :
    (endLatchOp s a1 a2 a3 a4 a5 a6 a7).pending = s.pending := by
  simp [endLatchOp]

@[simp] theorem retryLatch_pending (s : State) (p l t i : Nat) (op : LatchOp) :
    (retryLatch s p l t i op).pending = s.pending := by
  unfold retryLatch
  dsimp only
  split
  · rename_i hl
    simp [latchRequest_done_pending _ _ _ _ _ _ _ _ hl]
  · rename_i hl
    simp [latchRequest_waits_pending _ _ _ _ _ _ hl]
  · simp

theorem execLatchOpComplete_pending (a0 : Pane16) (a1 : LCell) (a2 : BitVec 6) (s : State) (t : State) (h : execLatchOpComplete a0 a1 a2 s = .next t) :
    t.pending = s.pending := by
  unfold execLatchOpComplete at h
  repeat' split at h
  all_goals cases h
  all_goals simp

@[simp] theorem unwait_pending (s : State) (a1 : Nat) (a2 : Nat) (a3 : Nat) (a4 : Nat) :
    (unwait s a1 a2 a3 a4).pending = s.pending := by
  simp [unwait]

theorem execSyncWaitLimit_pending (a0 : Pane16) (a1 : LCell) (a2 : BitVec 6) (s : State) (t : State) (h : execSyncWaitLimit a0 a1 a2 s = .next t) :
    t.pending = s.pending := by
  unfold execSyncWaitLimit at h
  repeat' split at h
  all_goals cases h
  all_goals simp

@[simp] theorem issueRmo_pending (s : State) (a1 : Nat) (a2 : Nat) (a3 : Nat) :
    (issueRmo s a1 a2 a3).pending = s.pending := by
  unfold issueRmo
  dsimp only
  repeat' split
  all_goals simp

theorem execPut_pending (a0 : Pane16) (a1 : LCell) (s : State) (t : State) (h : execPut a0 a1 s = .next t) :
    t.pending = s.pending := by
  simp only [execPut, Host.Outcome.next.injEq] at h
  simp [← h]

theorem execGet_pending (a0 : Pane16) (a1 : LCell) (s : State) (t : State) (h : execGet a0 a1 s = .next t) :
    t.pending = s.pending := by
  simp only [execGet, Host.Outcome.next.injEq] at h
  simp [← h]

theorem execRmoAdd_pending (a0 : Pane16) (a1 : LCell) (s : State) (t : State) (h : execRmoAdd a0 a1 s = .next t) :
    t.pending = s.pending := by
  simp only [execRmoAdd, Host.Outcome.next.injEq] at h
  simp [← h]

theorem execSwap_pending (a0 : Pane16) (a1 : LCell) (s : State) (t : State) (h : execSwap a0 a1 s = .next t) :
    t.pending = s.pending := by
  simp only [execSwap, Host.Outcome.next.injEq] at h
  simp [← h]

theorem execCompareSwap_pending (a0 : Pane16) (a1 : LCell) (s : State) (t : State) (h : execCompareSwap a0 a1 s = .next t) :
    t.pending = s.pending := by
  simp only [execCompareSwap, Host.Outcome.next.injEq] at h
  simp [← h]

theorem execRmoArrive_pending (a0 : Pane16) (a1 : LCell) (s : State) (t : State) (h : execRmoArrive a0 a1 s = .next t) :
    t.pending = s.pending := by
  simp only [execRmoArrive, Host.Outcome.next.injEq] at h
  simp [← h]

theorem execRmoWait_pending (a0 : Pane16) (a1 : LCell) (s : State) (t : State) (h : execRmoWait a0 a1 s = .next t) :
    t.pending = s.pending := by
  simp only [execRmoWait, Host.Outcome.next.injEq] at h
  simp [← h]

theorem execRmoAcquire_pending (a0 : Pane16) (a1 : LCell) (s : State) (t : State) (h : execRmoAcquire a0 a1 s = .next t) :
    t.pending = s.pending := by
  simp only [execRmoAcquire, Host.Outcome.next.injEq] at h
  simp [← h]

theorem execRmoRelease_pending (a0 : Pane16) (a1 : LCell) (s : State) (t : State) (h : execRmoRelease a0 a1 s = .next t) :
    t.pending = s.pending := by
  simp only [execRmoRelease, Host.Outcome.next.injEq] at h
  simp [← h]

@[simp] theorem putFragment_pending (s : State) (a1 : Nat) (a2 : Msg) (a3 : Nat) :
    (putFragment s a1 a2 a3).pending = s.pending := by
  simp [putFragment]

@[simp] theorem respondGet_pending (s : State) (a1 : Nat) (a2 : Msg) (a3 : Nat) :
    (respondGet s a1 a2 a3).pending = s.pending := by
  simp [respondGet]

@[simp] theorem serveRequest_pending (s : State) (a1 : Nat) (a2 : Msg) :
    (serveRequest s a1 a2).pending = s.pending := by
  unfold serveRequest
  dsimp only
  repeat' split
  all_goals first
  | (rename_i hl
     simp [latchRequest_done_pending _ _ _ _ _ _ _ _ hl]
     done)
  | (rename_i hl hc
     simp [latchRequest_done_pending _ _ _ _ _ _ _ _ hl]
     done)
  | (rename_i hl
     simp [latchRequest_waits_pending _ _ _ _ _ _ hl]
     done)
  | simp

@[simp] theorem refuseTested_pending (s : State) (p : Nat) (m : Msg) :
    (refuseTested s p m).pending = s.pending := by
  simp [refuseTested]

theorem execRequestMessageReceived_pending (a0 : Pane16) (s : State) (t : State) (h : execRequestMessageReceived a0 s = .next t) :
    t.pending = s.pending := by
  unfold execRequestMessageReceived at h
  dsimp only at h
  repeat' split at h
  all_goals simp only [Host.Outcome.next.injEq] at h
  all_goals subst h
  all_goals simp

@[simp] theorem getFragment_pending (s : State) (a1 : Nat) (a2 : RmoOp) (a3 : Msg) :
    (getFragment s a1 a2 a3).pending = s.pending := by
  simp [getFragment]

theorem execResponseMessageReceived_pending (a0 : Pane16) (s : State) (t : State) (h : execResponseMessageReceived a0 s = .next t) :
    t.pending = s.pending := by
  unfold execResponseMessageReceived at h
  repeat' split at h
  all_goals cases h
  all_goals simp

theorem execRefusalReceived_pending (a0 : Pane16) (s : State) (t : State) (h : execRefusalReceived a0 s = .next t) :
    t.pending = s.pending := by
  unfold execRefusalReceived at h
  repeat' split at h
  all_goals cases h
  all_goals simp

theorem execRmoResend_pending (a0 : Pane16) (a1 : BitVec 32) (s : State) (t : State) (h : execRmoResend a0 a1 s = .next t) :
    t.pending = s.pending := by
  unfold execRmoResend at h
  repeat' split at h
  all_goals cases h
  all_goals simp

theorem execRmoTimeout_pending (a0 : Pane16) (a1 : BitVec 32) (s : State) (t : State) (h : execRmoTimeout a0 a1 s = .next t) :
    t.pending = s.pending := by
  unfold execRmoTimeout at h
  repeat' split at h
  all_goals cases h
  all_goals simp

theorem execWindowRevokeDone_pending (a0 : Pane16) (a1 : BitVec 8) (s : State) (t : State) (h : execWindowRevokeDone a0 a1 s = .next t) :
    t.pending = s.pending := by
  unfold execWindowRevokeDone at h
  repeat' split at h
  all_goals cases h
  all_goals simp

end Sys2Proof.Machine

end
end

