-- ==== Sys2Proof/Tests/Slice0.lean ====
section
/-! SUPPORT. Tests: an ill-formed term for each check of `Instr.wf`, a state and operands that meet the hypotheses of each
statement (one part for each clause), and single steps with results worked out from the manual. -/

namespace Sys2Proof.Tests

open Sys2Proof.Machine

set_option maxRecDepth 20000

/-! ### Small states -/

/-- A module that is up: power, Doorkeeper and far tier there, mailbox 0 greeted, the beat locked at beat 10,000. -/
def up : State :=
  { State.reset with
    time := { State.reset.time with mode := .locked, beat := 10000, lockBeat := some 9000 }
    power := { State.reset.power with
      identity := some 5, startId := some 5, coordLoaded := true, input := true, pwrEn := true, pwrGood := true, hubUp := true, resetN := true }
    far := { State.reset.far with recovering := false, holdupLow := false }
    dk := { State.reset.dk with ready := true, mbx := [(0, { Mailbox.reset with hello := true })] } }

/-- The same with every pane free. -/
def freeUp : State := { up with panes := (List.range 16).map fun p => (p, { Pane.reset with state := .free }) }

/-- The same with a context of job 7 open on pane 0, alone in its group. -/
def ctx : State :=
  { freeUp with
    panes := (0, { Pane.reset with state := .opened, jobTag := 7, ownerTag := 7, epoch := 3 })
      :: (List.range 15).map fun p => (p + 1, { Pane.reset with state := .free })
    groups := [Group.alone 0] }

/-- A cell that stands at the instruction `w`. -/
def cellAt (w : Nat) : Cell :=
  { Cell.reset with running := true, istore := [(0, BitVec.ofNat 128 w)], instrCount := 1, seqCount := 1 }

/-- The context of `ctx`, its cell 0 standing at the instruction `w`. -/
def atWord (w : Nat) : State := setCell ctx 0 0 (cellAt w)

/-- An instruction word: class, operation, and the rest. -/
def word (cls op low : Nat) : Nat := cls * 2 ^ 124 + op * 2 ^ 120 + low

/-- A state with the mailbox of requester `r` changed. -/
def withMbx (s : State) (r : Nat) (f : Mailbox → Mailbox) : State := modMbx s r f

/-- A packet of `n` parameter bytes. -/
def pkt (params : List Byte) : Packet :=
  { protoMajor := 1, rsvd3 := 0, seq := 1, paramBytes := BitVec.ofNat 16 params.length, rsvd10 := 0, bulkAddr := 0
    bulkLen := 0, params := params, bulk := none }

/-- A packet with bulk data. -/
def bulkPkt (params data : List Byte) : Packet :=
  { pkt params with bulkLen := BitVec.ofNat 64 data.length, bulk := some data }

/-- The state that an outcome goes on with. -/
def nextOf : Host.Outcome State Fault Refusal → State
  | .next t => t
  | _ => State.reset

/-! ### Cells -/

/-- Words of lane-wise, special-function and lane-tree operations. -/
def vop (o : Nat) : Nat := word 5 0 (o * 2 ^ 118)

theorem witness_scalar : ∀ o ∈ List.range 13, Issues (atWord (word 1 o 0)) 0 0 (word 1 o 0) ∧ wClass (word 1 o 0) = 1 ∧
    wOp4 (word 1 o 0) = o := by
  unfold Issues; decide

/-- The last aligned word of the local store, and one byte past it. -/
theorem witness_scalar_memory : ∀ o ∈ [0xD, 0xE],
    (Issues (atWord (word 1 o 6291448)) 0 0 (word 1 o 6291448) ∧ rowOp 1 o (word 1 o 6291448) = true) ∧
    (Issues (atWord (word 1 o 6291456)) 0 0 (word 1 o 6291456) ∧ rowOp 1 o (word 1 o 6291456) = true) := by
  unfold Issues; decide

/-- The context with a cell of loops and predicates at an instruction. -/
def atLoops (w : Nat) (n : Nat) : State :=
  setCell ctx 0 0 { cellAt w with loops := (List.range n).map fun i => ⟨i, 3, 1⟩ }

theorem witness_control :
    (∀ o ∈ [0, 4, 5], Issues (atWord (word 0 o 0)) 0 0 (word 0 o 0) ∧ rowOp 0 o (word 0 o 0) = true) ∧
    (Issues (atWord (word 0 3 (2 ^ 112))) 0 0 (word 0 3 (2 ^ 112)) ∧ rowOp 0 3 (word 0 3 (2 ^ 112)) = true) ∧
    (∀ n ∈ [3, 4], Issues (atLoops (word 0 1 (2 ^ 104)) n) 0 0 (word 0 1 (2 ^ 104)) ∧
      rowOp 0 1 (word 0 1 (2 ^ 104)) = true ∧ (cell (atLoops (word 0 1 (2 ^ 104)) n) 0 0).loops.length = n) ∧
    (∀ n ∈ [0, 1], Issues (atLoops (word 0 2 0) n) 0 0 (word 0 2 0) ∧ rowOp 0 2 (word 0 2 0) = true) ∧
    (cellRuns (setCell ctx 0 0 { cellAt 0 with pc := 1 }) 0 0 = true ∧
      (cell (setCell ctx 0 0 { cellAt 0 with pc := 1 }) 0 0).instrCount ≤ 1) := by
  unfold Issues; decide

/-- The vector instructions on the local store, at its start, with every lane inside, and with lane 0 past its end. -/
theorem witness_vector_memory : ∀ o ∈ [0, 1, 2, 3, 4, 5, 6],
    (Issues (atWord (word 4 o 0)) 0 0 (word 4 o 0) ∧ rowOp 4 o (word 4 o 0) = true) ∧
    Issues (setCell ctx 0 0 { cellAt (word 4 o 0) with sregs := [(0, 6291456)] }) 0 0 (word 4 o 0) := by
  unfold Issues; decide

/-- A store of a scalar at address 8 leaves byte 0 alone. -/
theorem witness_stores : rowOp 1 0xE (word 1 0xE 8) = true ∧ Issues (atWord (word 1 0xE 8)) 0 0 (word 1 0xE 8) ∧
    scalarAddr (word 1 0xE 8) (cellAt (word 1 0xE 8)) = 8 ∧
    memGet (cell (nextOf (exec (.scalarStore 0 0) (atWord (word 1 0xE 8)))) 0 0).store 0 = 0 := by
  unfold Issues; decide

theorem witness_vector_lanes :
    (∀ o ∈ [0, 1, 2, 3, 4, 5, 6, 7, 8, 10], Issues (atWord (vop o)) 0 0 (vop o) ∧ rowVop o (vop o) = true) ∧
    (∀ f ∈ [0, 1, 2, 3], Issues (atWord (word 6 0 (f * 2 ^ 122))) 0 0 (word 6 0 (f * 2 ^ 122)) ∧
      rowVsf f (word 6 0 (f * 2 ^ 122)) = true) := by
  unfold Issues; decide

theorem witness_compare_reduce_convert_draw :
    (Issues (atWord (vop 9)) 0 0 (vop 9) ∧ rowVop 9 (vop 9) = true) ∧
    (∀ f ∈ [0, 1], Issues (atWord (word 7 (8 * f) 0)) 0 0 (word 7 (8 * f) 0) ∧ rowVred f (word 7 (8 * f) 0) = true) ∧
    (Issues (atWord (word 0xB 0 0)) 0 0 (word 0xB 0 0) ∧ wClass (word 0xB 0 0) = 0xB) ∧
    (let s := setCell ctx 0 0 { cellAt (word 0xB 0 0) with sregs := [(0, 2 ^ 48)] }
     Issues s 0 0 (word 0xB 0 0) ∧ 2 ^ 48 ≤ sreg (cell s 0 0) 0 + 63 * 0) := by
  unfold Issues; decide

/-- A BF16 `TMM` of the first set, its draining, and the same drain of an empty set. -/
def tmmWord : Nat := word 2 0 (2 ^ 110 + 2 ^ 106)

theorem witness_tensor_issue :
    (Issues (atWord tmmWord) 0 0 tmmWord ∧ wClass tmmWord = 2 ∧ fmtHalf (fld tmmWord 113 110) = true) ∧
    (let w := tmmWord + 2 ^ 122
     Issues (atWord w) 0 0 w ∧ issMode (cell (atWord w) 0 0) false = .empty) ∧
    (let s := setCell ctx 0 0 { cellAt tmmWord with sregs := [(0, 6291456)] }
     Issues s 0 0 tmmWord ∧ (mkTmm false tmmWord (cell s 0 0)).a = 6291456) ∧
    (let s := setCell ctx 0 0 { cellAt (word 3 0 0) with issA := .fp32 }
     Issues s 0 0 (word 3 0 0) ∧ issMode (cell s 0 0) false ≠ .empty) ∧
    (Issues (atWord (word 3 0 0)) 0 0 (word 3 0 0) ∧ wClass (word 3 0 0) = 3) ∧
    (let s := setCell ctx 0 0 { cellAt (word 3 0 0) with issA := .fp32, sregs := [(0, 6291456)] }
     Issues s 0 0 (word 3 0 0)) ∧
    (let w := word 3 0 (2 ^ 122 + 2 ^ 82)
     let s := setCell ctx 0 0 { cellAt w with issA := .fp32, sregs := [(1, 2 ^ 48)] }
     Issues s 0 0 w ∧ fld w 122 121 = 2 ∧ (mkDrain w (cell s 0 0)).idxBase = 2 ^ 48) := by
  unfold Issues; decide

/-- A cell with one flight. -/
def inFlight (k : FlightKind) : State :=
  setCell ctx 0 0 { Cell.reset with running := true, tokBusy := 2, flights := [⟨1, k, 0⟩] }

/-- The operations of such flights. -/
def tmmOp : TmmOp := mkTmm false (tmmWord + 2 ^ 114) Cell.reset
/-- A `TDRAIN`. -/
def drainOp : DrainOp := mkDrain (word 3 0 (2 ^ 114)) Cell.reset

theorem witness_tensor_complete :
    cellAlive ctx 0 = true ∧ (cell (inFlight (.tmm tmmOp)) 0 0).flights = [⟨1, .tmm tmmOp, 0⟩] ∧ tmmOp.olds = [] ∧
    (cell (inFlight (.tdrain drainOp)) 0 0).flights = [⟨1, .tdrain drainOp, 0⟩] ∧ drainOp.hits = [] ∧
    drainOp.snap = none := by decide

/-- A cell with an instruction and registers set. -/
def atRegs (w : Nat) (r : Tbl (BitVec 64)) : State := setCell ctx 0 0 { cellAt w with sregs := r }

/-- The global address of this module's near tier in pane 0. -/
def nearAddr (ofs : Nat) : BitVec 64 := mkGa 5 0 0 ofs

/-- A `DMA` instruction whose remote end is register 1, local end register 2 and length register 3. -/
def dmaWord (op : Nat) : Nat := word 8 op (2 * 2 ^ 109 + 1 * 2 ^ 104 + 3 * 2 ^ 99)

theorem witness_dma_issue :
    (∀ o ∈ [0, 1], Issues (atRegs (dmaWord o) [(1, nearAddr 0), (3, 64)]) 0 0 (dmaWord o) ∧ rowOp 8 o (dmaWord o) = true) ∧
    (∀ o ∈ [2, 3], Issues (atRegs (dmaWord o) [(3, 64)]) 0 0 (dmaWord o) ∧ rowOp 8 o (dmaWord o) = true) ∧
    (∀ o ∈ [0, 1, 2, 3], Issues (atWord (dmaWord o)) 0 0 (dmaWord o)) ∧
    (Issues (atWord (word 8 4 0)) 0 0 (word 8 4 0) ∧ rowOp 8 4 (word 8 4 0) = true) ∧
    (let op := mkDma (dmaWord 0) (cell (atRegs (dmaWord 0) [(1, nearAddr 0), (3, 64)]) 0 0)
     1 ≤ op.len ∧ op.len ≤ 6291456 ∧ op.loc + op.len ≤ 6291456 ∧ ownNear ctx 0 op.remote op.len = true) := by
  unfold Issues; decide

/-- A transfer in flight. -/
def dmaOp (o : Nat) : DmaOp := mkDma (dmaWord o) { Cell.reset with sregs := [(1, nearAddr 0), (3, 64)] }

/-- A gather of no offsets in flight. -/
def gatherOp : DmaOp := mkGather 0 (word 8 4 0) Cell.reset

theorem witness_dma_complete :
    (∀ o ∈ [0, 1, 2, 3], flightOf (cell (inFlight (.dma (dmaOp o))) 0 0) 1 = some ⟨1, .dma (dmaOp o), 0⟩ ∧
      wOp4 (dmaOp o).word.toNat = o ∧ rangePoison (nearOf ctx 0) 0 64 = false) ∧
    (nearOf (inFlight (.dma (dmaOp 0))) 0).retries = [] ∧
    rangePoison { nearOf ctx 0 with poison := [(0, true)] } 0 64 = true ∧
    (dmaPieces (dmaOp 0)).any (lineIn 0) = true ∧ wOp4 gatherOp.word.toNat = 4 := by decide

/-- Words of every class that names token 0, and a cell whose token 0 is busy. -/
theorem witness_busy_token : ∀ w ∈ [tmmWord, word 3 0 0] ++ (List.range 5).map (fun o => word 8 o 0) ++
      (List.range 9).map (fun o => word 9 o 0) ++ [2, 3, 4, 5].map (fun o => word 0xA o 0),
    let x := cell (setCell ctx 0 0 { cellAt w with tokBusy := 1 }) 0 0
    issueWord x = w ∧ wordLegal w = true ∧ tokenBusy x (wToken w) = true := by decide

theorem witness_reserved_class : canIssue (atWord (word 0xC 0 0)) 0 0 = true ∧
    0xC ≤ wClass (issueWord (cell (atWord (word 0xC 0 0)) 0 0)) ∧ (pane (atWord (word 0xC 0 0)) 0).ctxFault.fcode = 0 := by
  decide

theorem witness_tokens_and_barriers :
    (Issues (atWord (word 0xA 0 0)) 0 0 (word 0xA 0 0) ∧ (cell (atWord (word 0xA 0 0)) 0 0).tokSet &&& 0 = 0) ∧
    (Issues (atWord (word 0xA 0 1)) 0 0 (word 0xA 0 1) ∧ (cell (atWord (word 0xA 0 1)) 0 0).tokSet &&& 1 ≠ 1) ∧
    (Issues (atWord (word 0xA 1 0)) 0 0 (word 0xA 1 0) ∧ rowOp 0xA 1 (word 0xA 1 0) = true) ∧
    (let s := modPane (atWord 0) 0 fun x => { x with barriers := [(15, 1)] }
     tblWf 0 (pane s 0).barriers = true ∧ tblGet (0 : BitVec 32) (pane s 0).barriers 15 ≠ 0 ∧
     ∀ l ∈ List.range 32, (cell s 0 l).seqCount ≠ 0 → (1 : BitVec 32).getLsbD l = true) := by
  unfold Issues; decide

/-- The context with latch 300 its first, in a given state. -/
def withLatch (w : Nat) (l : Latch) : State :=
  modPane { atRegs w [(4, 1)] with latches := [(300, { l with owner := 1, ownerEpoch := 3 })] } 0 fun x =>
    { x with latchList := [300] }

/-- A latch instruction of `SYNC` with operand A in register 4. -/
def latchWord (op : Nat) : Nat := word 0xA op (if op ≤ 3 then 4 * 2 ^ 104 else 0)

/-- A latch that this context, or another module's, holds. -/
def heldLatch (device : BitVec 16) : Latch := { latchZero with state := 1, holderDevice := device, holderPane := 0, holderEpoch := 3 }

theorem witness_latch_issue :
    (∀ o ∈ [2, 3, 4, 5], Issues (withLatch (latchWord o) latchZero) 0 0 (latchWord o) ∧
      rowOp 0xA o (latchWord o) = true ∧ ownLatch (withLatch (latchWord o) latchZero) 0 0 = some 300 ∧
      ownLatch (atWord (latchWord o)) 0 0 = none) ∧
    (∀ v ∈ [0, 2 ^ 47], (BitVec.ofNat 48 v - 0).toNat = v) ∧
    (latchOf (withLatch (latchWord 4) (heldLatch 9)) 300).state = 1 ∧
    waitersUsed (withLatch (latchWord 4) (heldLatch 9)) = 0 ∧
    latchHolder (latchOf (withLatch (latchWord 5) (heldLatch 5)) 300) 5 0 3 = true ∧
    latchHolder (latchOf (withLatch (latchWord 5) (heldLatch 9)) 300) 5 0 3 = false ∧
    Issues (atRegs (latchWord 2) [(0, 6291441)]) 0 0 (latchWord 2) := by
  unfold Issues; decide

/-- A latch operation in flight, with an outcome or a limit. -/
def latchOp (out : Option (Nat × BitVec 64)) : LatchOp :=
  { latch := 300, comp := 0, waits := true, limit := some 0, outcome := out, op := 7, arg := 0, retryAt := none }

/-- An `ACQUIRE` that the full table has refused, to ask again at a beat. -/
def retryOp (beat : Nat) : LatchOp := { latchOp none with retryAt := some beat }

/-- The context with latch 300 its first, free or held, and such an operation in flight. -/
def asking (l : Latch) (beat : Nat) : State :=
  modPane { inFlight (.latch (retryOp beat)) with latches := [(300, { l with owner := 1, ownerEpoch := 3 })] } 0 fun x =>
    { x with latchList := [300] }

/-- The state in which its retry beat has come. -/
def asked (l : Latch) : State := modCell (asking l 10000) 0 0 (setLatchOp 1 fun o => { o with retryAt := none })

theorem witness_latch_retries :
    (∀ b ∈ [10000, 10001], cellAlive (asking latchZero b) 0 = true ∧
      flightOf (cell (asking latchZero b) 0 0) 1 = some ⟨1, .latch (retryOp b), 0⟩ ∧ (retryOp b).outcome = none ∧
      (retryOp b).retryAt = some b) ∧ 10000 ≤ ctx.time.beat ∧ ctx.time.beat < 10001 ∧
    (match latchRequest (asked latchZero) 7 300 0 (localWaiter ctx 0 0 1 0) with
      | .done _ k _ => k == 0
      | _ => false) = true ∧
    (match latchRequest (asked (heldLatch 9)) 7 300 0 (localWaiter ctx 0 0 1 0) with
      | .waits _ => true
      | _ => false) = true := by decide

/-- The same with every place of the waiter table taken. -/
def crowded : Latch :=
  { heldLatch 9 with
    queue := List.replicate 4096
      { device := 9, pane := 3, lcell := 0, epoch := 1, target := 0, stamp := 0, localTok := none, req := none } }

theorem witness_full_waiters :
    (let s := withLatch (latchWord 4) crowded
     4096 ≤ waitersUsed s ∧ (cell s 0 0).flights = [] ∧ tokenBusy (cell s 0 0) (wToken (latchWord 4)) = false) ∧
    (match latchRequest (asked crowded) 7 300 0 (localWaiter ctx 0 0 1 0) with
      | .full => true
      | _ => false) = true := by decide +kernel

theorem witness_latch_operations :
    tblWf latchZero (withLatch 0 latchZero).latches = true ∧ (latchOf (withLatch 0 latchZero) 300).queue = [] ∧
    (∀ o ∈ [some (1, 0), some (0x13, 0), none], flightOf (cell (inFlight (.latch (latchOp o))) 0 0) 1 =
      some ⟨1, .latch (latchOp o), 0⟩ ∧ (latchOp o).outcome = o) ∧ 0 ≤ now ctx := by decide

/-! ### Remote operations -/

/-- An `RMO` instruction whose operands A and B are register 4, holding 1 in `atRegs … [(4, 1)]`. -/
def rmoWord (op : Nat) : Nat := word 9 op (4 * 2 ^ 94 + 4 * 2 ^ 89)

theorem witness_remote_issue :
    (∀ o ∈ List.range 9, Issues (atRegs (rmoWord o) [(4, 1)]) 0 0 (rmoWord o) ∧ rowOp 9 o (rmoWord o) = true ∧
      Issues (atWord (rmoWord o)) 0 0 (rmoWord o)) ∧
    Issues (atRegs (rmoWord 2 + 2 ^ 86) [(4, 1)]) 0 0 (rmoWord 2 + 2 ^ 86) ∧ bitAt (rmoWord 2 + 2 ^ 86) 86 = true ∧
    (let w := rmoWord 0 + 5 * 2 ^ 109
     Issues (atRegs w [(5, BitVec.ofNat 64 (2 ^ 43))]) 0 0 w ∧ gaTier (BitVec.ofNat 64 (2 ^ 43)) = 1) := by
  unfold Issues; decide

/-- A request from module 9 for pane 0, under job 7. -/
def request (op : BitVec 4) (ofs : Nat) : Msg :=
  { op := op, isResponse := false, code := 0, srcDevice := 9, srcPane := 0, torusRel := false, srcEpoch := 1, jobTag := 7
    tag := 1, target := nearAddr ofs, fragOfs := 0, length := 8, data := zeros 8, isSealed := false, srcPlan := none
    srcCell := 0, result := none }

/-- A window on the first 64 bytes of pane 0 for module 9, all operations. -/
def window : Window :=
  { base := nearAddr 0, length := 64, peerJob := 7, peerDevice := 9, scope := 0, wstate := 1, ops := 63
    peerPanes := 0xFFFF, isSealed := false }

/-- A request that waits at pane 0, which has the window. -/
def served (m : Msg) (s : State) : State := modRmo s 0 fun u => { u with reqQ := [m], windows := [(0, window)] }

theorem witness_requests_served :
    (∀ o ∈ [0, 1, 2, 3, 4], nearChecks (served (request o 56) ctx) 0 (request o 56) = 0 ∧
      nearChecks (served (request o 64) ctx) 0 (request o 64) ≠ 0) ∧
    paneLive ctx 0 = true ∧ (pane ctx 0).state ≠ .testing ∧
    paneLive (modPane ctx 0 fun x => { x with state := .teardown }) 0 = false ∧
    (pane (modPane ctx 0 fun x => { x with state := .testing }) 0).state = .testing ∧
    rangePoison (nearOf (modNear ctx 0 fun m => { m with poison := [(0, true)] }) 0) 56 8 = true ∧
    (∀ o ∈ [5, 6, 7, 8], requestLatch (served (request o 0) ctx) 0 (request o 0) = none ∧
      requestLatch (served (request o 4800) (withLatch 0 latchZero)) 0 (request o 4800) = some 300) ∧
    admitted (served (request 5 4800) (withLatch 0 latchZero)) 0 (request 5 4800) 5 4800 16 = false ∧
    admitted (modRmo (served (request 5 4800) (withLatch 0 latchZero)) 0 fun u =>
      { u with windows := [(0, { window with length := 8192 })] }) 0 (request 5 4800) 5 4800 16 = true := by decide

/-- A response that waits for room in the queue of pane 0. -/
def crowdedOut : State :=
  modRmo (served (request 2 0) ctx) 0 fun u => { u with respRest := [{ device := 9, msg := request 2 0 }] }

theorem witness_fragments :
    (rmoOf crowdedOut 0).respRest ≠ [] ∧ (rmoOf (served (request 0 0) ctx) 0).respRest = [] ∧
    (request 0 0).data ≠ [] ∧ (request 0 0).data.length ≤ fragMax (groupSealed ctx 0) ∧
    (∀ n ∈ [3040, 3041], ({ request 0 0 with data := zeros n } : Msg).data.length ≤ fragMax (groupSealed ctx 0) ↔ n = 3040) ∧
    (fragsOf ctx 0 { request 0 0 with data := zeros 3041 }).length = 2 := by decide

/-- An operation in progress. -/
def remoteOp (op : BitVec 4) : RmoOp :=
  { tag := 1, lcell := 0, token := 1, index := 0, op := op, target := nearAddr 0, torusRel := false, device := 9, comp := 0
    loc := 0, length := 8, opa := 8, opb := 0, tolerate := false, deadline := (10000, 0), got := 0, code := 0
    retryAt := some 10000, data := [] }

/-- The context with such an operation, a response to it and a refusal. -/
def pendingOp (op : BitVec 4) (m : Msg) : State :=
  modRmo ctx 0 fun u => { u with ops := [remoteOp op], respQ := [m], windows := [(255, { window with wstate := 2 })] }

theorem witness_remote_ends :
    (∀ o ∈ [0, 1, 2, 5, 7], (rmoOf (pendingOp o (request o 0)) 0).ops.find? (fun x => x.tag == 1) = some (remoteOp o) ∧
      (rmoOf (pendingOp o (request o 0)) 0).respQ = [request o 0]) ∧
    (request 2 0).srcEpoch ≠ (pane ctx 0).epoch ∧ ({ request 2 0 with srcEpoch := 3 } : Msg).srcEpoch = (pane ctx 0).epoch ∧
    cellAlive (pendingOp 2 (request 2 0)) 0 = true ∧ reached ctx (10000, 0) = true ∧ reached ctx (10000, 1) = false ∧
    (remoteOp 2).retryAt = some 10000 ∧ ctx.time.beat = 10000 ∧
    (rmoOf (pendingOp 2 { request 2 0 with tag := 2 }) 0).ops.all (fun x => x.tag != 2) = true ∧
    tblFind (rmoOf (pendingOp 2 (request 2 0)) 0).windows 255 = some { window with wstate := 2 } ∧
    tblFind (rmoOf (served (request 2 0) ctx) 0).windows 0 = some window ∧
    tblFind (rmoOf ctx 0).windows 0 = none := by decide

/-! ### The Coherent Control Region -/

/-- A line with copies, a transaction and waiting requests. -/
def withLine (n : Nat) (l : CcrLine) : State := { up with ccr := [(n, l)] }

/-- A copy. -/
def copyIn (st : Mesi) : CcrCopy := { state := st, data := 0 }

/-- An ownership request of cache 3. -/
def own3 : CcrReq := { requester := 3, own := true, store := none, at' := 0 }

theorem witness_ccr :
    tblWf lineZero up.ccr = true ∧ (ccrLine up 16384).txn = none ∧ (ccrLine up 16384).waiting = [] ∧
    tblWf copyZero (ccrLine up 16384).copies = true ∧
    (∀ c ∈ [Mesi.s, Mesi.m], tblWf lineZero (withLine 16384 { lineZero with copies := [(1, copyIn c)] }).ccr = true ∧
      (copyOf (ccrLine (withLine 16384 { lineZero with copies := [(1, copyIn c)] }) 16384) 1).state = c) ∧
    (let s := withLine 16384 { lineZero with txn := some { req := own3, snoops := [2], acks := [1] } }
     (ccrLine s 16384).txn = some { req := own3, snoops := [2], acks := [1] }) ∧
    (let s := withLine 16384 { lineZero with txn := some { req := own3, snoops := [], acks := [1] } }
     (ccrLine s 16384).txn = some { req := own3, snoops := [], acks := [1] } ∧ (ccrLine s 16384).waiting = []) := by decide

/-- The home's state after reset is coherent, and a step with nothing waiting answers a next state. -/
theorem witness_coherence_step : State.reset.ccr = [] ∧ step State.reset = .next (idleTick State.reset) := ⟨rfl, rfl⟩

/-! ### The beat and Plans -/

/-- A state in a time mode, with a beat and the number of good markers so far. -/
def inMode (m : TimeMode) (beat good : Nat) (last : Option (Nat × Int)) (f : Option Nat) : State :=
  { up with time := { up.time with mode := m, beat := beat, goodMarkers := good, lastMarker := last, markerFor := f
                                   episodeLimit := 1024 } }

theorem witness_markers :
    beatCrc 5 = (beatCrc 5 % 256) ∧
    (let s := inMode .unsync 5 3 (some (4, -8192 + 40960)) none
     s.time.lastMarker = some (4, 32768) ∧ (nowTicks s - 32768 - 8192).natAbs ≤ 16 ∧ s.time.goodMarkers = 3) ∧
    (inMode .freeRun 5 0 none none).time.lastMarker = none ∧
    (let s := inMode .holdover 5 3 none (some 4)
     onTime s 5 = true ∧ s.time.markerFor = some (5 - 1)) ∧
    (let s := inMode .locked 5 0 none (some 4)
     onTime s 5 = true ∧ s.time.markerFor ≠ some 5) ∧
    (∀ m ∈ [some 10000, some 9999, none],
      let s := inMode .locked 10000 2 none m
      markerBeat s = 10000 ∧ s.time.hitFor = none ∧ (s.time.markerFor = some 10000 ↔ m = some 10000)) := by decide

theorem witness_missing_marker :
    let s := { inMode .locked 5 0 none (some 4) with time := { (inMode .locked 5 0 none (some 4)).time with tick := 17 } }
    s.time.mode = .locked ∧ markerMissed s = true := by decide

theorem witness_holdover :
    (let s := inMode .holdover 5 0 none none
     s.time.mode = .holdover ∧ s.time.holdFor ≠ some 5 ∧ s.time.holdoverBeats.toNat < s.time.episodeLimit) ∧
    (let s := { inMode .holdover 5 0 none none with time := { (inMode .holdover 5 0 none none).time with
       holdFor := some 5, holdoverBeats := 1024 } }
     s.time.holdFor = some s.time.beat ∧ s.time.episodeLimit ≤ s.time.holdoverBeats.toNat) := by decide

/-- A module whose hub is down. -/
def hubDown : State := { up with power := { up.power with hubUp := false } }

theorem witness_beat_boundary : up.power.hubUp = true ∧ hubDown.power.hubUp = false ∧ up.time.lead = 0 ∧
    up.time.phaseError = 0 ∧ plansRun up = true ∧ plansRun State.reset = false := by decide

/-- A Plan of sections, each with its type, for a torus along the first two axes; `STEP_BEATS` 16. -/
def mkShaped (nx ny modules : Nat) (secs : List (Nat × List Byte)) : List Byte :=
  let hd := zeros 12 ++ natLe 2 secs.length ++ zeros 26 ++ natLe 4 16 ++ zeros 4 ++ natLe 2 1 ++ [0, 0] ++ natLe 4 modules
    ++ natLe 2 nx ++ natLe 2 ny ++ zeros 196
  let base := 256 + 32 * secs.length
  let dir := (List.range secs.length).flatMap fun i =>
    natLe 2 ((secs.getD i (0, [])).1) ++ zeros 6 ++ natLe 8 (base + ((secs.take i).map fun x => x.2.length).sum)
    ++ natLe 8 (secs.getD i (0, [])).2.length ++ zeros 8
  hd ++ dir ++ secs.flatMap Prod.snd

/-- A Plan without a torus shape. -/
def mkPlan (modules : Nat) (secs : List (Nat × List Byte)) : List Byte := mkShaped 0 0 modules secs

/-- A run of a Plan, started, at a plan beat. -/
def running (beat : Nat) : Run :=
  { epoch := 2, firstStep := 0, stepCount := 4, k0 := 0, k1 := 0, started := true, nextBeat := beat, planStep := 0
    stormStep := 0, stopping := false, held := none, holdLog := [], wantHold := none, stepStart := 9990, periods := [], gridRuns := 0
    lastGrid := 0, taken := [], received := [], chunks := [], begun := [], extents := [], extentsDone := [], colls := []
    collsDone := [], normSum := 0, normNan := false }

/-- The group of pane 0 with a Plan and a run. -/
def planGroup (d : List Byte) (r : Run) : Group := { Group.alone 0 with plan := some d, run := some r }

/-- The context with that group. -/
def withPlan (d : List Byte) (r : Run) : State := { ctx with groups := [planGroup d r] }

theorem witness_plan_starts :
    let r := { running 0 with started := false }
    let s := { withPlan (mkPlan 1 []) r with time := { ctx.time with beat := 8192 } }
    groupLed s 0 = some (planGroup (mkPlan 1 []) r) ∧ plansRun s = true ∧ s.time.beat = r.epoch * 4096 := by decide

theorem witness_step_boundary :
    planStepBeats (mkPlan 1 []) = 16 ∧ (0 + 1) * 16 < (running 17).nextBeat ∧ (running 17).stepCount ≠ 0 + 1 ∧
    ({ running 17 with stepCount := 1 } : Run).stepCount = 0 + 1 ∧
    groupLed (withPlan (mkPlan 1 []) (running 17)) 0 = some (planGroup (mkPlan 1 []) (running 17)) := by decide

/-- A cell with one block a step, due at beat 1 of it. -/
def seqCell : Cell := { Cell.reset with seqCount := 1, seqTab := [(0, BitVec.ofNat 64 (2 ^ 44 + 1))] }

theorem witness_blocks :
    (∀ n ∈ [1, 2], nextBlock (mkPlan 1 []) (running n) seqCell = some 8192 ∧ seqLast (nextEntry seqCell) = true) ∧
    blockReady (withPlan (mkPlan 1 []) (running 2)) (mkPlan 1 []) (running 2) seqCell 8192 = true ∧
    blockReady (withPlan (mkPlan 1 []) (running 1)) (mkPlan 1 []) (running 1) seqCell 8192 = false ∧
    overdueAt (mkPlan 1 []) (running 3) (planNow (withPlan (mkPlan 1 []) (running 3)) (running 3)) seqCell = true ∧
    overdueAt (mkPlan 1 []) (running 1) (planNow (withPlan (mkPlan 1 []) (running 1)) (running 1)) seqCell = false ∧
    planModules (mkPlan 2 []) ≠ 1 ∧ ctx.time.beat % holdGrid (mkPlan 2 []) = 0 ∧
    (∀ b ∈ [9999, 10000], ({ running 3 with wantHold := some (.ownLate, b) } : Run).wantHold = some (.ownLate, b)) ∧
    (let s := withPlan (mkPlan 2 []) (running 3)
     soonUnready s (planGroup (mkPlan 2 []) (running 3)) (mkPlan 2 []) (running 3) 32 = false ∧
     overdueCause s (planGroup (mkPlan 2 []) (running 3)) (mkPlan 2 []) (running 3) = none) := by decide

/-! ### Ports -/

/-- A state with port 0 changed. -/
def withPort (f : Port → Port) : State := modPort up 0 f

/-- A state whose port 0 is in a link state. -/
def inLink (st : BitVec 4) : State := withPort fun x => { x with state := st }

/-- A torus of two modules along the first axis: 5 at its origin and 6. -/
def twoModules (s : State) : State :=
  { s with links := { s.links with coord := [{ device := 5, x := 0, y := 0, z := 0 }, { device := 6, x := 1, y := 0, z := 0 }] } }

/-- A sill of module 6, sent on its port 1. -/
def sill6 : Sill :=
  { beat := 10000, srcDevice := 6, srcPort := 1, timeState := 1, laneMap := 4, laneSwitch := 0, llMajor := 1, llMinor := 0
    split := 0, cv := 0, creditRet := [1, 2, 3, 4], replayReq := [] }

theorem witness_training :
    (∀ st ∈ [0, 1, 2, 3, 4, 5, 6, 7], (portOf (inLink st) 0).state = st) ∧
    (∀ st ∈ [1, 2, 3], linkBound (portOf (inLink st) 0).state ≠ none ∧
      (portOf (inLink st) 0).since + ((linkBound (portOf (inLink st) 0).state).getD 0) ≤ (inLink st).time.beat) ∧
    (let s := withPort fun x => { x with state := 4, since := 9984 }
     linkBound (portOf s 0).state = some 16 ∧ (portOf s 0).since + 16 ≤ s.time.beat ∧ tablesLoaded s = true) ∧
    (let s := withPort fun x => { x with state := 4, since := 9985 }
     linkBound (portOf s 0).state = some 16 ∧ s.time.beat < (portOf s 0).since + 16) ∧
    (let s := twoModules (withPort fun x => { x with backoff := some 10000 })
     s.power.hubUp = true ∧ s.test.parked = false ∧ s.test.hub ≠ tsActive ∧ (portOf s 0).state = 0 ∧ portUnused s 0 = false ∧
     retrainBeat s (portOf s 0) ≤ s.time.beat) ∧
    (let s := withPort fun x => { x with backoff := some 10001 }
     s.time.beat < retrainBeat s (portOf s 0)) ∧
    (let s := twoModules (inLink 4)
     (portOf s 0).state = 4 ∧ tablesLoaded s = true ∧ sill6.llMajor = 1 ∧ cablingOk s 0 sill6 = true ∧
     ({ sill6 with llMajor := 2 } : Sill).llMajor ≠ 1 ∧ cablingOk s 0 { sill6 with srcPort := 0 } = false) ∧
    tablesLoaded { up with power := { up.power with coordLoaded := false } } = false ∧
    (∀ m ∈ [(0 : BitVec 5), 16, 24], lanesEnough (trafOf (modTraf (twoModules (inLink 4)) 0 fun t =>
      { t with lanesRx := m }) 0).lanesRx = (m != 24)) := by decide

/-- A port that is `ACTIVE`, its traffic changed. -/
def traffic (f : PortTraffic → PortTraffic) : State := modTraf (inLink 5) 0 f

theorem witness_sills :
    (inLink 5).power.hubUp = true ∧ sillState (portOf (inLink 5) 0).state = true ∧ sillState (portOf up 0).state = false ∧
    portActive up 0 = false ∧ portActive (inLink 5) 0 = true ∧ sill6.beat.toNat = (inLink 5).time.beat ∧
    (trafOf (inLink 5) 0).txNext = 0 ∧ (trafOf (traffic fun t => { t with txNext := 1 }) 0).txNext ≠ 0 ∧
    sillResidual (inLink 5) 0 = (0, 10000) ∧
    (∀ n ∈ [128, 129], (sillResidual (withPort fun x => { x with state := 5, linkDelay := n }) 0).1 = -(n.toNat : Int)) ∧
    sill6.timeState.toNat = 1 ∧ timeCode (inLink 5).time.mode = 1 ∧ tblWf 0 (trafOf (inLink 5) 0).returned = true ∧
    (trafOf (inLink 5) 0).badSills = 0 ∧ 1 ≤ (trafOf (traffic fun t => { t with badSills := 1 }) 0).badSills ∧
    (∀ b ∈ [0, 10000, 10001], (trafOf (traffic fun t => { t with switches := [(b, 0, 2)] }) 0).switches = [(b, 0, 2)]) ∧
    (∃ w ∈ (trafOf (traffic fun t => { t with wanted := [{ beat := 9991, slot := 3, since := 9991 }] }) 0).wanted,
      w.since + 8 < (inLink 5).time.beat) ∧
    (∀ w ∈ (trafOf (traffic fun t => { t with wanted := [{ beat := 9992, slot := 3, since := 9992 }] }) 0).wanted,
      (inLink 5).time.beat ≤ w.since + 8) := by decide

/-- A sill whose check agrees, and the others. -/
theorem witness_sill_check : (BitVec.ofNat 32 (sillCrc sill6)).toNat = sillCrc sill6 ∧
    (BitVec.ofNat 32 (sillCrc sill6 + 1)).toNat ≠ sillCrc sill6 := by decide +kernel

/-- A slot of a kind that reaches port 0 whole. -/
def slotOf (kind : BitVec 8) (bad : Bool) : RxSlot :=
  { uncorrectable := bad, correctedCodewords := 1, laneSymbols := [], dest := 5
    img := { hdr := { hdrZero with kind := kind, slotNo := 3 }, payload := zeros 8, check := 0 } }

theorem witness_slots :
    (inLink 5).power.hubUp = true ∧ portActive (inLink 5) 0 = true ∧ (trafOf (inLink 5) 0).replayDue = [] ∧
    portActive up 0 = false ∧ (inLink 5).time.beat % 64 = 16 ∧
    (∀ n ∈ [1, 256, 257], (trafOf (traffic fun t => { t with txNext := n }) 0).txNext = n) ∧
    ({ inLink 5 with time := { (inLink 5).time with beat := 9984 } } : State).time.beat % 64 = 0 ∧
    portActive (withPort fun x => { x with state := 5, cvMode := false }) 0 = true ∧
    (∀ k ∈ [0, 7, 8, 255], checkHolds (withPort fun x => { x with state := 5, cvMode := false }) 0 (slotOf k false).img = true ∧ (slotOf k false).laneSymbols = [] ∧
      (slotOf k false).uncorrectable = false ∧ (slotOf k true).uncorrectable = true ∧
      (slotOf k false).img.hdr.hold = false ∧ (slotOf k false).img.hdr.abort = false) ∧
    checkHolds (withPort fun x => { x with state := 5, cvMode := true }) 0 (slotOf 0 false).img = false := by decide

/-! ### Collectives and aborts -/

/-- A collective descriptor of FP32 elements, block floats on the wire, its stages staged at 1 MiB. -/
def collBytes (kind axes flags elements : Nat) : List Byte :=
  zeros 2 ++ natLe 1 kind ++ zeros 4 ++ natLe 1 axes ++ natLe 1 flags ++ zeros 23 ++ natLe 8 elements ++ natLe 8 (2 ^ 20)
  ++ natLe 4 8192 ++ natLe 4 1 ++ zeros 24

/-- A Plan with one collective and one member. -/
def collPlan (flags : Nat) : List Byte := mkPlan 1 [(5, natLe 2 1 ++ zeros 14 ++ collBytes 0 0 flags 256)]

/-- A collective in progress whose output is written in a range. -/
def collRun (written : List (Nat × Nat)) : CollRun :=
  { index := 0, step := 0, expo := [], normOwn := 0, noiseOwn := 0, nanSeen := false, done := [], held := [], known := []
    written := written }

/-- A run in which it is in progress; chunk 0 of stream 0 came whole in plan beat 3. -/
def collState (beat : Nat) (written : List (Nat × Nat)) : Run :=
  { running beat with colls := [collRun written], collsDone := [0], chunks := [(chunkKey 0 0 0, (1, 3))] }

/-- The environment of the collective of a Plan. -/
def collEnv (d : List Byte) (r : Run) : CollEnv :=
  { g := planGroup d r, d := d, c := planColl d 0, k0 := 0, k1 := 0, step := 0 }

theorem witness_block_floats : (collEnv (collPlan 0) (collState 6 [])).c.wire = 0 ∧
    [[1, 2], [3, 4], [5, 6]].Perm [[3, 4], [1, 2], [5, 6]] := ⟨by decide, .swap _ _ _⟩

/-- The first 256 elements in a pass, of a stage along the first axis, or of its tray level. -/
def firstBlock (pass : ChunkPass) (tray : Bool) : ChunkId := { pass := pass, axis := 0, tray := tray, elem := 0, count := 256 }

theorem witness_collective_alone :
    let r := collState 6 []
    let s := withPlan (collPlan 0) r
    let x := collEnv (collPlan 0) r
    groupLed s 0 = some (planGroup (collPlan 0) r) ∧ r.colls.find? (fun y => y.index == 0) = some (collRun []) ∧
    joinAlone s x r 0 = r ∧ r.started = true ∧ r.held = none ∧ (planGroup (collPlan 0) r).ended = none ∧
    plansRun s = true ∧ 0 < collCount (collPlan 0) ∧
    x.hasPass .gather = false ∧ x.hasPass .exponents = true ∧ x.stepOf s (firstBlock .reduce true) = none ∧
    x.stepOf s (firstBlock .exponents false) = some { inPort := none, outPort := none, own := true, last := true, hops := 0 } ∧
    (x.before 0).1 = none ∧ x.stages = [] ∧
    x.reduceReady r 0 (collRun []) (firstBlock .exponents false) none none
      { inPort := none, outPort := none, own := true, last := true, hops := 0 } = true ∧
    x.reduceReady r 0 (collRun []) (firstBlock .reduce false) none none
      { inPort := none, outPort := none, own := true, last := true, hops := 0 } = false ∧
    x.srcPoison s 0 256 = false ∧ x.srcPoison (modNear s 0 fun m => { m with poison := [(15, true)] }) 0 256 = true := by
  decide

/-- A Plan whose collective has stages: stream 0 is received at 1 MiB, stream 1 is sent from the next 3,072 bytes. -/
def ringPlan (kind nx ny elements : Nat) : List Byte :=
  mkShaped nx ny (nx * ny)
    [(3, natLe 4 2 ++ zeros 12 ++ natLe 8 (2 ^ 20) ++ natLe 8 3072 ++ zeros 2 ++ natLe 2 1 ++ zeros 12
        ++ natLe 8 (2 ^ 20 + 3072) ++ natLe 8 3072 ++ zeros 16),
     (5, natLe 2 1 ++ zeros 14 ++ collBytes kind (if ny = 1 then 1 else 3) 0 elements)]

/-- A step of a member of a pair: it sends, and at the tray level it adds what came. -/
def pairStep (tray : Bool) : RingStep :=
  if tray then { inPort := some 1, outPort := none, own := true, last := true, hops := 1 }
  else { inPort := none, outPort := some 0, own := true, last := false, hops := 0 }

/-- A stage of two members along the first axis, another along the second: the first chunk is sent, comes back and is
held for the second stage; one that came in plan beat 3 may be used from plan beat 5 on, which is beat 6 here. -/
theorem witness_collective_stages :
    let d := ringPlan 0 2 2 256
    let r := collState 6 []
    let s := withPlan d r
    let x := collEnv d r
    joinAlone s x r 0 = r ∧ x.stages = [0, 1] ∧
    (∀ t ∈ [true, false], x.stepOf s (firstBlock .exponents t) = some (pairStep t)) ∧
    x.reduceReady r 0 (collRun []) (firstBlock .exponents false) none (some { stream := 1, chunk := 0 }) (pairStep false) = true ∧
    x.reduceReady r 0 (collRun []) (firstBlock .exponents true) (some { stream := 0, chunk := 0 }) none (pairStep true) = true ∧
    x.reduceReady (collState 5 []) 0 (collRun []) (firstBlock .exponents true) (some { stream := 0, chunk := 0 }) none
      (pairStep true) = false ∧
    (x.ownItems s (collRun []) (firstBlock .exponents true)).isSome = true ∧
    x.ownItems s (collRun []) { firstBlock .exponents false with axis := 1 } = none ∧
    x.stagedPoison s .exponents 256 { stream := 0, chunk := 0 } = false ∧
    x.stagedPoison (modNear s 0 fun m => { m with poison := [(16384, true)] }) .exponents 256 { stream := 0, chunk := 0 } = true := by
  decide

/-- A gather on four members along the first axis: this member's half is sent and written, the other half comes in. -/
theorem witness_collective_gathers :
    let d := ringPlan 1 4 1 512
    let r := collState 6 []
    let s := withPlan d r
    let x := collEnv d r
    let other : ChunkId := { firstBlock .gather false with elem := 256 }
    x.hasPass .gather = true ∧
    x.gatherReady s r 0 (collRun []) other (some { stream := 0, chunk := 0 }) (some { stream := 1, chunk := 0 }) = true ∧
    x.gatherReady s r 0 (collRun []) other none none = false ∧
    (∀ o ∈ [none, some { stream := 1, chunk := 0 }],
      x.gatherReady s r 0 (collRun []) (firstBlock .gather false) none o = true) ∧
    x.heldPoison s (collRun []) (firstBlock .gather false) = false ∧
    x.heldPoison (modNear s 0 fun m => { m with poison := [(0, true)] }) (collRun []) (firstBlock .gather false) = true ∧
    (let x := collEnv (ringPlan 2 4 1 512) r
     let s := withPlan (ringPlan 2 4 1 512) r
     x.hasPass .exponentsBack = true ∧
     x.gatherReady s r 0 (collRun []) { other with pass := .exponentsBack } (some { stream := 0, chunk := 0 }) none = true) := by
  decide

theorem witness_collective_ends :
    (∀ f ∈ [0, 1, 2, 3],
      let r := collState 6 [(0, 256)]
      groupLed (withPlan (collPlan f) r) 0 = some (planGroup (collPlan f) r) ∧ r.held = none ∧
      r.colls.find? (fun y => y.index == 0 && outElems (collEnv (collPlan f) r) ≤ collFinals y) = some (collRun [(0, 256)])) ∧
    (collState 6 [(0, 255)]).colls.find? (fun y =>
      y.index == 0 && outElems (collEnv (collPlan 0) (collState 6 [])) ≤ collFinals y) = none := by decide

/-- An abort of the job in a beat. -/
def abortIn (b : Nat) : AbortEntry := { job := 7, coll := 0, origin := 9, hops := 1, beat := b, trigger := none }

/-- A group whose job has been aborted in a beat. -/
def abortedGroup (b : Nat) : Group := { Group.alone 0 with abortDue := some (abortIn b) }

theorem witness_aborts :
    (∀ b ∈ [9999, 10000], groupLed { ctx with groups := [abortedGroup b] } 0 = some (abortedGroup b) ∧
      (abortedGroup b).abortDue = some (abortIn b) ∧ (abortedGroup b).ended = none) ∧
    (abortIn 9999).beat < ctx.time.beat ∧ ctx.time.beat ≤ (abortIn 10000).beat := by decide

/-! ### Tiers -/

/-- The context's near tier changed. -/
def nearBy (f : NearTier → NearTier) : State := modNear ctx 0 f

theorem witness_near_tier :
    (nearOf ctx 0).retries = [] ∧ tblWf false (nearOf ctx 0).poison = true ∧
    (nearOf (nearBy fun m => { m with retries := [(5, true), (6, false)] }) 0).retries = (5, true) :: [(6, false)] ∧
    nearBytes / 64 ≤ (BitVec.ofNat 30 (nearBytes / 64)).toNat ∧
    (∀ n ∈ [rowA, rowB], (countError ctx n (unitIndex 0 (physPc (nearOf ctx 0) 0)) 1).2 = false) ∧
    (nearOf ctx 0).retries.any (·.1 == 5) = false ∧
    (0 : BitVec 30).toNat < nearBytes / 64 ∧ (BitVec.ofNat 30 (nearBytes / 64 - 1)).toNat < nearBytes / 64 ∧
    isPoison (nearOf (nearBy fun m => { m with poison := [(5, true)] }) 0) 5 = true ∧ isPoison (nearOf ctx 0) 5 = false ∧
    (pane (modPane ctx 0 fun x => { x with takeovers := [(31, 32)] }) 0).takeovers = (31, 32) :: [] ∧
    (∀ b ∈ [true, false], (nearOf (nearBy fun m => { m with copying := [(63, 64, b)] }) 0).copying = (63, 64, b) :: []) ∧
    (nearOf ctx 0).copying = [] := by decide

/-- A state with the far tier changed. -/
def farBy (f : FarTier → FarTier) : State := modFar up f

/-- A program under way on channel 0. -/
def prog (moved : Option (BitVec 32)) : FarProg :=
  { channel := 0, phys := 3, owner := 1, lun := 7, gen := 0, key := 1, data := [], bad := false, more := [], write := none, weight := 4
    moved := moved }

/-- A channel with a block open for writes. -/
def openChannel : State := farBy fun t => { t with blocks := [(0, { blockZero with state := .openW, next := 9 })] }

theorem witness_far_programs :
    oldestProg up 0 = none ∧ oldestProg (farBy fun t => { t with progs := [prog none] }) 0 = some (prog none) ∧
    (let s := farBy fun t => { t with
       progs := [prog (some 9)], owners := [(1, { ownerZero 1 with map := [(7, { phys := 9, gen := 0 })] })] }
     oldestProg s 0 = some (prog (some 9)) ∧ tblFind (ownerOf s 1).map 7 = some { phys := 9, gen := 0 }) ∧
    openOf openChannel 0 .openW = some 0 ∧ (placeUnit openChannel 0 .openW).isSome = true ∧
    up.far.recovering = false ∧ up.far.powerLost = false ∧ State.reset.far.recovering = true := by decide

/-- A channel without a free block. -/
def fullChannel : State :=
  farBy fun t => { t with
    progs := [prog none], blocks := (List.range chanBlockCount).map fun b => (b, { blockZero with state := .retired }) }

theorem witness_full_channel : oldestProg fullChannel 0 = some (prog none) ∧
    placeUnit (blockError (modFar fullChannel fun t => { t with progs := t.progs.erase (prog none) }) (physBlk (prog none).phys))
      0 .openW = none := by decide +kernel

/-- A block of channel 0. -/
def blockIn (st : BlockState) (retire : Bool) (erases : Nat) : Block :=
  { blockZero with state := st, dueRetire := retire, erases := erases }

/-- An extent: 64 bytes of pane 0's far tier into pane 0, to start at beat 1 of each step. -/
def extentBytes : List Byte :=
  natLe 8 (2 ^ 43) ++ natLe 8 64 ++ natLe 8 0 ++ natLe 4 1 ++ natLe 4 2 ++ natLe 4 3 ++ zeros 4 ++ natLe 4 0 ++ natLe 2 1 ++ zeros 2

/-- A Plan with that extent. -/
def extentPlan : List Byte := mkPlan 1 [(7, natLe 4 0 ++ natLe 4 1 ++ zeros 8 ++ extentBytes)]

theorem witness_far_media :
    (let s := farBy fun t => { t with blocks := [(0, blockIn .used true 0)] }
     mediaIdle s = false ∧ s.far.gcs.any (·.channel == 0) = false ∧ victimOf s 0 = some 0) ∧
    victimOf up 0 = none ∧ mediaIdle State.reset = true ∧
    (∀ b ∈ [true, false],
      let s := farBy fun t => { t with
        gcs := [{ channel := 0, block := 0, lastSeq := 0 }], blocks := [(0, blockIn .used b 0)] }
      s.far.gcs.find? (·.channel == 0) = some { channel := 0, block := 0, lastSeq := 0 } ∧ mediaIdle s = false ∧
      s.far.holdupLow = false ∧ s.far.progs = [] ∧ (blkOf s (blkKey 0 0)).dueRetire = b) ∧
    (blkOf (farBy fun t => { t with blocks := [(0, blockIn .erasing false 5)] }) (blkKey 0 0)).state = .erasing ∧
    (blkOf up (blkKey 0 0)).state ≠ .erasing ∧
    (let s := farBy fun t => { t with
       blocks := [(0, blockIn .used false 0), (1, blockIn .used false 257), (2, blockIn .free false 300)] }
     bestOf (fun a b : Nat × Nat => a.1 < b.1)
       (((listedBlks s 0).filter fun e => inUse e.2).map fun e => (e.2.erases, e.1)) = some (0, 0) ∧
     bestOf (fun a b : Nat × Nat => b.1 < a.1) (freeCands s 0) = some (300, 2) ∧ eraseSpread s 0 = 257 ∧
     poolState (freeBlks s 0) < 2) ∧
    eraseSpread up 0 ≤ 256 ∧ ({ up with time := { up.time with beat := 4096 + 64 * 63 } } : State).time.beat % 4096 = 64 * 63 ∧
    mappedAt (farBy fun t => { t with owners := [(1, { ownerZero 1 with map := [(7, { phys := 9, gen := 0 })] })] }) 1 7
      = some 9 ∧
    (let s := { up with far := { up.far with recovering := true } }
     s.dk.ready = true ∧ s.far.recovering = true ∧ s.far.powerLost = false) := by decide

/-- A relocation of a run of two units, one that waits for a place, a checkpoint that is not durable yet, and units left
in a victim. -/
theorem witness_far_runs :
    (let g := { prog (some 9) with more := [([], true)] }
     oldestProg (farBy fun t => { t with progs := [g] }) 0 = some g ∧ g.units.length = 2) ∧
    ({ prog none with phys := noPhys } : FarProg).phys = noPhys ∧ (prog none).phys ≠ noPhys ∧
    (sinceCkpt up.far).2 < 262144 ∧ up.time.beat < (sinceCkpt up.far).1 + 1048576 ∧
    (let c : Ckpt := { seq := 3, beat := 0, owners := [], blocks := [] }
     ∀ n ∈ [3, 4], ((farBy fun t => { t with ckptNext := some c, nextSeq := 4, durSeq := 0 }).far.ckptNext = some c) ∧
       (c.seq < max 0 (min n 4) ↔ n = 4)) ∧
    (let s := farBy fun t => { t with
       gcs := [{ channel := 0, block := 0, lastSeq := 0 }], blocks := [(0, blockIn .used false 0)]
       owners := [(1, { ownerZero 1 with map := [(7, { phys := 9, gen := 0 })] })] }
     validUnits s 0 0 ≠ []) ∧ validUnits up 0 0 = [] := by decide

theorem witness_extents :
    (planExtents extentPlan)[0]?.map (·.start) = some 1 ∧
    (∀ b ∈ [1, 2, 16, 17], groupLed (withPlan extentPlan (running b)) 0 = some (planGroup extentPlan (running b))) ∧
    (running 2).started = true ∧ (running 2).held = none ∧ runBeat (running 2) = 1 ∧ 0 ∉ (running 2).extentsDone ∧
    (running 2).extents.any (fun x => x.1 == 0) = false ∧ runBeat (running 1) < 1 ∧
    ({ running 2 with extents := [(0, 0)] } : Run).extents.any (fun x => x.1 == 0) = true := by decide

/-! ### Power, faults and tests -/

/-- A state with the power unit changed. -/
def powerBy (f : PowerUnit → PowerUnit) : State := modPower up f

theorem witness_power :
    up.power.input = true ∧ (powerBy fun p => { p with input := false }).power.input = false ∧ up.power.pwrGood = true ∧
    (powerBy fun p => { p with pwrGood := false }).power.pwrGood = false ∧ up.power.pwrEn = true ∧
    (powerBy fun p => { p with pwrEn := false }).power.pwrEn = false ∧ up.test.parked = false ∧
    hubDown.power.hubUp = false ∧ mayStart hubDown = true ∧ up.power.hubUp = true ∧ mayStart up = true ∧
    mayStart (powerBy fun p => { p with pwrEn := false }) = false ∧
    (let s := { up with dk := { up.dk with ready := false } }
     s.power.hubUp = true ∧ s.dk.ready = false ∧ s.test.hub ≠ tsActive ∧ s.faults.hubDead = false) ∧
    up.dk.ready = true ∧ up.far.recovering = false ∧ up.power.broughtUp = false ∧ (pane up 15).state = .shuttering ∧
    (pane up 15).shutter = none ∧ (powerBy fun p => { p with broughtUp := true }).power.broughtUp = true := by decide

theorem witness_thermal :
    (∀ n ∈ [0, 4, 32], sensorWf n = true ∧ reaches up n (thresholds n).2.1 (thresholds n).2.1 = true ∧
      reaches up n ((thresholds n).2.1 - 1) (thresholds n).2.1 = false ∧
      reaches up n (thresholds n).2.2 (thresholds n).2.2 = true) ∧
    (∃ n ∈ List.range 33, sensorWf n = false) ∧
    (∀ b ∈ [5904, 5905], (powerBy fun p => { p with trip := true, coolSince := some b }).power.trip = true ∧
      (powerBy fun p => { p with trip := true, coolSince := some b }).power.coolSince = some b) ∧
    5904 + 4096 ≤ up.time.beat ∧ up.time.beat < 5905 + 4096 ∧ up.power.trip = false ∧
    anyStart up = false ∧ anyStart (withPlan (mkPlan 1 []) (running 1)) = true ∧
    (1 : BitVec 2).toNat < (powerBy fun p => { p with capMode := 2 }).power.capMode.toNat ∧
    (∃ g ∈ (withPlan (mkPlan 1 []) (running 1)).groups, aboveCap 2 g = true) ∧
    (withPlan (mkPlan 1 []) (running 1)).power.capMode.toNat < (2 : BitVec 2).toNat := by decide

theorem witness_faults :
    up.power.hubUp = true ∧ hubDown.power.hubUp = false ∧
    (pane ctx 0).state = .opened ∧ (pane ctx 0).ctxFault.fcode = 0 ∧ (pane ctx 0).shutter = none ∧
    (pane (modPane ctx 0 fun x => { x with state := .outOfService }) 0).state = .outOfService ∧
    (∃ g ∈ (withPlan (collPlan 0) { collState 3 [] with colls := [] }).groups, usesRing g 0 = false) ∧
    (∀ e ∈ [0, 1], (countError up rowL e 1).2 = false) ∧
    (∃ n, (countError { up with faults := { up.faults with
      windows := [(winKey rowL 0, { sub := 0, counts := [n], warned := true })] } } rowL 0 1).2 = true) ∧
    (∀ rung ∈ [3, 4],
      let s := { up with faults := { up.faults with selfResets := [{ rung := rung, index := 0, deadline := 10000 }] } }
      s.faults.selfResets.find? (fun r => decide (r.deadline ≤ s.time.beat)) =
        some { rung := rung, index := 0, deadline := 10000 }) ∧
    (∀ r ∈ up.faults.selfResets, up.time.beat < r.deadline) :=
  ⟨by decide, by decide, by decide, by decide, by decide, by decide, ⟨_, .head _, by decide⟩, by decide, ⟨1000000, by decide⟩,
   by decide, by decide⟩

/-- A state with the test of pane 3 in a state and a phase. -/
def testing (st : BitVec 3) (phase : Nat) : State :=
  modTest (modPane freeUp 3 fun x => { x with state := .testing }) 3 fun t => { t with tstate := st, phase := phase }

theorem witness_tests :
    (∀ st ∈ [tsQueued, tsSuspended], waitingTests (testing st 0) = 3 :: [] ∧ (testOf (testing st 0) 3).tstate = st ∧
      mayTest (testing st 0) (testsIn (testing st 0) tsActive).length = true) ∧
    (testing 1 0).power.trip = false ∧ waitingTests freeUp = [] ∧
    (∀ n ∈ [1, 5, 6], (testOf (testing tsActive n) 3).tstate = tsActive ∧ (testOf (testing tsActive n) 3).phase = n) ∧
    (testOf freeUp 3).tstate ≠ tsActive ∧
    ({ up with test := { up.test with hub := tsActive } } : State).test.hub = tsActive ∧ up.test.hub ≠ tsActive := by decide

/-! ### Contexts, the store and storms -/

/-- A teardown asked for at a beat. -/
def shutterAt (d : Nat) (keep zeroed : Bool) : Shutter :=
  { cause := 1, keepFar := keep, d := d, oldTag := 7, oldEpoch := 3, farSeq := 0, farZeroed := zeroed, latchesFreed := 0
    paneReset := false }

/-- The context with it, in a state. -/
def ending (st : PaneState) (sh : Shutter) : State := modPane ctx 0 fun x => { x with state := st, shutter := some sh }

theorem witness_context_ends :
    (∀ st ∈ [PaneState.opened, .free, .testing], (pane (ending st (shutterAt 10000 false false)) 0).shutter =
      some (shutterAt 10000 false false) ∧ (pane (ending st (shutterAt 10000 false false)) 0).state = st) ∧
    (shutterAt 10000 false false).d ≤ ctx.time.beat ∧ ctx.time.beat < (shutterAt 10001 false false).d ∧
    (pane ctx 0).shutter = none ∧ (pane (ending .teardown (shutterAt 10000 false false)) 0).state = .teardown ∧
    (pane (ending .shuttering (shutterAt 0 false true)) 0).state = .shuttering ∧
    (pane (ending .shuttering (shutterAt 0 false true)) 0).resetDue = false ∧ ctx.test.startDue.getLsbD 0 = false ∧
    (List.range 18).all (fun r => (mbx ctx r).job.isNone) = true ∧
    (∀ b ∈ [10000, 10001], (pane (modPane ctx 0 fun x => { x with resetFrom := some b }) 0).resetFrom = some b ∧
      b ≤ ctx.time.beat + 1) ∧ ctx.time.lead = 0 ∧
    (∀ b ∈ [10000, 10001], (pane (modPane ctx 0 fun x => { x with resetUntil := some b }) 0).resetUntil = some b) := by decide

/-- A transaction of an owner, in a phase. -/
def txnIn (o : StoreOwner) (ph : StorePhase) : StoreTxn :=
  { xid := 9, owner := o, phase := ph, desc := zeros 64, moduleId := 5, step := 4, length := 8, rkey := 0, addr := 0, objCrc := 0 }

/-- A drain. -/
def drainOf (staged : Bool) : DrainRun :=
  { step := 4, jobTag := 7, desc := zeros 64, limit := 8, wrote := true, staged := staged, image := [zeros 8] }

/-- The context with a transaction and a drain. -/
def stored (x : StoreTxn) : State :=
  { ctx with store := { ctx.store with txns := [x], drains := [(0, drainOf true)] } }

/-- A command that has started and waits for bytes. -/
def fetching (op : BitVec 16) (params : List Byte) : Job :=
  { opcode := op, packet := pkt params, order := 0, start := some 9000, bound := 4096, locks := 1, wholeModule := false
    outcome := none, writing := [], got := 0, need := none, lastBeat := 9000 }

/-- That command in mailbox 0, with its transaction. -/
def fetchIn (op : BitVec 16) (params : List Byte) (x : StoreTxn) : State :=
  withMbx (stored x) 0 fun m => { m with mstate := .running, job := some (fetching op params) }

/-- The context so late that the command has had no byte for its limit. -/
def lateIn (s : State) : State := { s with time := { s.time with beat := 9000 + 122071 } }

theorem witness_store :
    (∀ o ∈ [StoreOwner.drain 0, .fetch 0, .restore 0], ∀ ph ∈ [StorePhase.opening, .moving, .closed, .waiting 10000, .waiting 10001],
      txnOf (stored (txnIn o ph)) 9 = some (txnIn o ph)) ∧
    tblFind (stored (txnIn (.drain 0) .moving)).store.drains 0 = some (drainOf true) ∧
    groupLed (stored (txnIn (.drain 0) .moving)) 0 = some (Group.alone 0) ∧
    (∀ ps ∈ [zeros 24, zeros 8 ++ natLe 8 (2 ^ 43) ++ zeros 8],
      storeJob (fetchIn 0x0052 ps (txnIn (.fetch 0) .moving)) (.fetch 0) = some (0, fetching 0x0052 ps)) ∧
    gaTier (BitVec.ofNat 64 (prm (pkt (zeros 24)) 8 8)) = 0 ∧
    gaTier (BitVec.ofNat 64 (prm (pkt (zeros 8 ++ natLe 8 (2 ^ 43) ++ zeros 8)) 8 8)) ≠ 0 ∧
    storeJob (fetchIn 0x0063 (zeros 24) (txnIn (.restore 0) .moving)) (.restore 0) = some (0, fetching 0x0063 (zeros 24)) ∧
    starved (lateIn (fetchIn 0x0052 (zeros 24) (txnIn (.fetch 0) .moving))) 0 opShardFetch = true ∧
    starved (lateIn (fetchIn 0x0063 (zeros 24) (txnIn (.restore 0) .moving))) 0 opRestore = true ∧
    starved ctx 0 opShardFetch = false ∧ starved ctx 0 opRestore = false ∧ txnOf ctx 9 = none ∧
    replyLost ctx 0 = false := by decide

/-- A copy to the buddy. -/
def copyOf' (taken : Bool) (commit : Option Nat) : CopyRun := { step := 4, buf := 1, taken := taken, commitBeat := commit, drain := false }

/-- A group with such a copy, its buddy on module 6. -/
def stormGroup (d : List Byte) (c : CopyRun) : Group :=
  { planGroup d (running 3) with
    copies := [c], storm := { (Group.alone 0).storm with buddy := some (6, 0, 0, 36864) } }

/-- A state with that group, in a torus of two modules. -/
def stormIn (d : List Byte) (c : CopyRun) : State := twoModules { ctx with groups := [stormGroup d c] }

/-- A Plan with a `STORM` range over the first 12 frames of pane 0. -/
def stormPlan : List Byte := mkPlan 1 [(7, natLe 4 1 ++ zeros 12 ++ zeros 8 ++ natLe 8 36864 ++ natLe 1 3 ++ zeros 15)]

/-- A data frame of job 7's step 4. -/
def aFrame : List Byte :=
  mkFrame { ftype := 2, buf := 0, tag := 7, device := 6, tray := 0, step := 4, bytes := 8, number := 1, tensor := 0, elem := 0
            family := 0, variant := 0 } (nearAddr 0) (zeros 8)

theorem witness_storms :
    (∀ c ∈ [copyOf' false none, copyOf' true (some 8976), copyOf' true (some 8977)],
      groupLed (stormIn (mkPlan 1 []) c) 0 = some (stormGroup (mkPlan 1 []) c)) ∧
    [copyOf' false none].find? (fun c => !c.taken) = some (copyOf' false none) ∧
    routePort (stormIn (mkPlan 1 []) (copyOf' false none)) 6 = some 0 ∧
    pathFailed (stormIn (mkPlan 1 []) (copyOf' false none)) 6 = false ∧ groupLed freeUp 0 = none ∧
    [copyOf' true (some 8976)].find? (fun c => c.commitBeat.isSome) = some (copyOf' true (some 8976)) ∧
    copyOverdue ctx (copyOf' true (some 8976)) = true ∧ copyOverdue ctx (copyOf' true (some 8977)) = false ∧
    (let s := { ctx with store := { ctx.store with drains := [(0, drainOf false)] } }
     tblFind s.store.drains 0 = some (drainOf false) ∧ (drainOf false).image ≠ [] ∧ (drainOf false).wrote = true ∧
     (s.far.writes.all fun w => w.sink != .staging 0) = true) ∧ tblFind ctx.store.drains 0 = none := by decide

theorem witness_storm_frames :
    (let s := withPlan stormPlan (running 3)
     restoreFor s (frameHdr aFrame) = none ∧ gaPane (frameDest aFrame) = 0 ∧
     frameMay s aFrame = true) ∧
    frameMay ctx aFrame = false ∧
    (let ps := [0, 0, 0, 0, 4] ++ zeros 75
     restoreFor (withMbx ctx 0 fun m => { m with job := some (fetching 0x0063 ps) }) (frameHdr aFrame) =
       some (0, fetching 0x0063 ps)) := by decide +kernel

theorem witness_frame_check : frameOk aFrame = true ∧ frameOk (aFrame.drop 1) = false := by decide +kernel

/-! ### Commands -/

/-- A state whose mailboxes have greeted and whose virtual functions are there. -/
def open' (s : State) : State :=
  { s with
    host := { s.host with vfEnable := true, numVfs := 16 }
    dk := { s.dk with mbx := [0, 1, 17].map fun r => (r, { Mailbox.reset with hello := true }) } }

/-- The context with its mailboxes open. -/
def cmd : State := open' ctx

/-- No context, the same. -/
def free' : State := open' freeUp

/-- Opcodes that mailbox 0 may run, with the bytes of their parameters, here zeros. -/
def plain : List (Nat × Nat) :=
  [(0x0001, 8), (0x0010, 8), (0x0011, 2), (0x0012, 2), (0x0013, 1), (0x0014, 1), (0x0015, 1), (0x0016, 0), (0x0020, 388),
   (0x0021, 8), (0x0022, 4), (0x0023, 4), (0x0024, 1), (0x0025, 0), (0x0030, 1), (0x0031, 34), (0x0032, 2), (0x0040, 36),
   (0x0041, 2), (0x0043, 6), (0x0050, 32), (0x0051, 32), (0x0052, 88), (0x0060, 24), (0x0061, 1), (0x0062, 72),
   (0x0063, 80), (0x0070, 8), (0x0071, 4), (0x0080, 2), (0x0081, 1), (0x0090, 12), (0x0091, 0), (0x00A0, 0), (0x00A1, 12),
   (0x00A2, 0)]

theorem witness_doorbells :
    (∀ e ∈ plain, StartsAtOnce cmd 0 e.1 (pkt (zeros e.2)) ∧
      earlyRefusal cmd 0 false e.1 { pkt (zeros e.2) with rsvd3 := 1 } ≠ none) ∧
    StartsAtOnce cmd 1 0x0042 (pkt (zeros 40)) ∧ StartsAtOnce cmd 17 0x0026 (pkt (zeros 3)) ∧
    reachable ctx 1 = false ∧ reachable cmd 0 = true ∧ (mbx cmd 0).job = none ∧
    (mbx (withMbx cmd 0 fun m => { m with job := some (fetching 0x0052 (zeros 88)) }) 0).job =
      some (fetching 0x0052 (zeros 88)) ∧
    (let s := withMbx cmd 1 fun m => { m with job := some (fetching 0x0052 (zeros 88)) }
     let k := pkt (zeros 2)
     reachable s 0 = true ∧ (mbx s 0).job = none ∧ earlyRefusal s 0 false 0x0011 k = none ∧
     canStart (rung s 0 0x0011 k) 0 (newJob s 0 0x0011 k) = false) ∧
    (let k := pkt (zeros 3)
     earlyRefusal cmd 0 false 0x0026 k = none ∧ canStart (rung cmd 0 0x0026 k) 0 (newJob cmd 0 0x0026 k) = true ∧
     startRefused (rung cmd 0 0x0026 k) 0 0x0026 k ≠ none) := by
  unfold StartsAtOnce; decide

theorem witness_start_effects :
    (startEffect 0x0011 (begun cmd 0 0x0011 (pkt (zeros 2))) 0 (pkt (zeros 2))).2 = none ∧
    (startEffect 0x0012 (begun cmd 0 0x0012 (pkt (zeros 2))) 0 (pkt (zeros 2))).2 ≠ none := by
  unfold begun noteAts
  generalize Config.atsEnabled = b
  cases b <;> decide

/-- A command that waits, or runs, or is decided, in mailbox 0. -/
def job (op : BitVec 16) (k : Packet) (start : Option Nat) (out : Option Reply) : Job :=
  { opcode := op, packet := k, order := 5, start := start, bound := 16, locks := 1, wholeModule := false, outcome := out
    writing := [], got := 0, need := none, lastBeat := 9000 }

/-- A state with that command. -/
def inHand (s : State) (j : Job) : State :=
  withMbx s 0 fun m => { m with mstate := if j.start.isSome then .running else .waiting, job := some j }

/-- A reply. -/
def reply : Reply :=
  { status := 0, opcode := 0x0091, seq := 1, atBeat := 0, detail := 0, stampBeat := 0, stampTick := 0, result := [], bulk := [] }

/-- A job map of this module alone. -/
def mapBytes : List Byte := zeros 12 ++ natLe 4 7 ++ natLe 2 1 ++ natLe 2 1 ++ natLe 2 1 ++ zeros 2 ++ natLe 4 1 ++ zeros 4 ++ natLe 2 5

/-- A window grant of the first 64 bytes of pane 0 to module 9. -/
def grantParams : List Byte := zeros 4 ++ natLe 8 (nearAddr 0).toNat ++ natLe 8 64 ++ zeros 8 ++ natLe 4 63 ++ zeros 4

theorem witness_command_life :
    (let j := job 0x0011 (pkt (zeros 2)) none none
     let s := inHand cmd j
     (mbx s 0).job = some j ∧ canStart s 0 (withLocks s 0 j) = true ∧ (mbx s 0).mstate = .waiting) ∧
    startRefused cmd 0 0x0026 (pkt (zeros 3)) ≠ none ∧ startRefused cmd 0 0x0091 (pkt []) = none ∧
    (mbx (inHand cmd (job 0x0091 (pkt []) (some 9999) (some reply))) 0).job =
      some (job 0x0091 (pkt []) (some 9999) (some reply)) ∧ replyLost cmd 0 = false ∧
    (let k := bulkPkt [0] mapBytes
     prm k 0 1 < 16 ∧ groupLed cmd (prm k 0 1) = some (Group.alone 0) ∧ bulkData k = some mapBytes ∧
     hasStart (Group.alone 0) = false ∧ mapBytes.length = 32 + 2 * leAt mapBytes 24 4 ∧
     mapRefusal cmd (parseMap mapBytes) = none ∧ mapRefusal cmd (parseMap (zeros 34)) ≠ none ∧
     StartsAtOnce cmd 0 0x0024 k) ∧
    (let k := pkt grantParams
     (pane cmd (prm k 0 1)).state = .opened ∧ grantRefusal cmd (prm k 0 1) k = none ∧ closedEntry cmd (prm k 0 1) = some 0 ∧
     StartsAtOnce cmd 0 0x0040 k ∧ grantRefusal cmd 0 (pkt (zeros 36)) ≠ none) ∧
    (∀ b ∈ [8960, 8961], boundFrom cmd (job 0x0091 (pkt []) (some b) none) = some b) ∧
    8960 + 16 + 1024 ≤ cmd.time.beat ∧ cmd.time.beat < 8961 + 16 + 1024 ∧
    ({ cmd.dk.esc with job := some (job 0x0013 (pkt [0]) (some 9999) none) } : Escape).job ≠ none ∧ cmd.dk.esc.job = none ∧
    (∀ b ∈ [8960, 8961],
      let s := { cmd with dk := { cmd.dk with esc := { cmd.dk.esc with job := some (job 0x0013 (pkt [0]) (some b) none) } } }
      (mbx s 0).job = none ∧ s.dk.esc.job = some (job 0x0013 (pkt [0]) (some b) none) ∧
      (outlived s (job 0x0013 (pkt [0]) (some b) none) = true ↔ b = 8960)) ∧
    hubAnswers cmd = true ∧ hubAnswers hubDown = false ∧
    earlyRefusal cmd 0 false 0x0016 (pkt []) = none ∧ earlyRefusal cmd 0 false 0x0091 (pkt []) = none ∧
    escapeOp 0x0091 = false := by
  unfold StartsAtOnce; decide

theorem witness_context_commands :
    (prm (pkt [1, 1, 0, 0, 0, 0, 0, 0]) 0 1 ≤ 1 ∧ 1 ≤ prm (pkt [1, 1, 0, 0, 0, 0, 0, 0]) 1 1) ∧
    ¬1 ≤ prm (pkt (zeros 8)) 1 1 ∧
    StartsAtOnce free' 0 0x0010 (pkt [15, 0, 0, 0, 7, 0, 0, 0]) ∧ (pane free' 15).state = .free ∧ (pane free' 15).kept = false ∧
    (pane cmd 0).state = .opened ∧ (pane cmd 0).shutter = none ∧ (pane free' 0).state = .free ∧
    StartsAtOnce free' 0 0x0011 (pkt (zeros 2)) ∧
    StartsAtOnce cmd 0 0x0012 (pkt [1, 0]) ∧ bindRefusal cmd 1 = none ∧ StartsAtOnce cmd 0 0x0012 (pkt [3, 0]) ∧
    bindRefusal cmd 3 = some 1 ∧ StartsAtOnce free' 0 0x0013 (pkt [0]) ∧
    (∀ p ∈ [0, 2, 16, 27, 28], StartsAtOnce cmd 0 0x0014 (pkt [p])) ∧ engineOk 28 = false ∧
    (let s := modPane cmd 0 fun x => { x with state := .outOfService }
     StartsAtOnce s 0 0x0015 (pkt [0]) ∧ (pane s 0).state = .outOfService) := by
  unfold StartsAtOnce; decide

/-- A Plan that passes the load checks: one pane, its cells without programs. -/
def goodPlan : List Byte :=
  let caps := capBytes 1800
  let body := zeros 512
  let hd (digest : List Byte) : List Byte :=
    natLe 4 0x4C505A4C ++ natLe 2 1 ++ zeros 2 ++ natLe 4 256 ++ natLe 2 1 ++ natLe 2 0 ++ natLe 8 832 ++ zeros 16
    ++ natLe 4 16 ++ natLe 4 0 ++ natLe 2 1 ++ [0, 0] ++ natLe 4 1 ++ zeros 8 ++ caps ++ digest ++ natLe 4 0xFFFFFFFF ++ zeros 92
  let dir := natLe 2 1 ++ natLe 2 1 ++ zeros 4 ++ natLe 8 320 ++ natLe 8 512 ++ natLe 4 (crc32c body) ++ zeros 4
  let rest := dir ++ zeros 32 ++ body
  hd (sha256 (hd (zeros 32) ++ rest)) ++ rest

theorem witness_plan_passes : loadCheck cmd (Group.alone 0) goodPlan 832 = none ∧
    loadCheck cmd (Group.alone 0) (zeros 832) 832 ≠ none := by decide +kernel

/-- The command state with that group. -/
def withGroup (g : Group) : State := { cmd with groups := [g] }

theorem witness_allocations :
    (let s := withGroup (planGroup (mkPlan 1 []) (running 3))
     groupLed s 0 = some (planGroup (mkPlan 1 []) (running 3)) ∧ hasStart (planGroup (mkPlan 1 []) (running 3)) = true ∧
     StartsAtOnce s 0 0x0020 (pkt (zeros 388)) ∧ StartsAtOnce s 0 0x0021 (pkt (zeros 8)) ∧
     StartsAtOnce s 0 0x0030 (bulkPkt [0] [1]) ∧ StartsAtOnce s 0 0x0032 (pkt [0, 0])) := by
  unfold StartsAtOnce; decide

theorem witness_allocations_fit :
    groupLed cmd 0 = some (Group.alone 0) ∧ hasStart (Group.alone 0) = false ∧
    slotConflict cmd 0 (fun _ => 0) = none ∧ slotConflict cmd 0 (fun _ => 1 <<< 255) ≠ none ∧
    1835008 < 0 + prm (pkt (zeros 4 ++ natLe 4 1835009)) 4 4 ∧ StartsAtOnce cmd 0 0x0021 (pkt (zeros 4 ++ natLe 4 1835009)) ∧
    (let s := withGroup { Group.alone 0 with plan := some (mkPlan 1 []) }
     let k := pkt ([0, 0] ++ natLe 6 16 ++ natLe 6 0 ++ natLe 4 1 ++ zeros 16)
     StartsAtOnce s 0 0x0031 k ∧
     startRefusal s { Group.alone 0 with plan := some (mkPlan 1 []) } (prm k 2 6) (prm k 8 6) (prm k 14 4) = none) ∧
    startRefusal cmd (Group.alone 0) 0 0 0 ≠ none ∧ groupShort cmd (Group.alone 0) = false ∧
    groupShort (modNear cmd 0 fun m => { m with short := true }) (Group.alone 0) = true ∧
    StartsAtOnce (modNear cmd 0 fun m => { m with short := true }) 0 0x0031 (pkt (zeros 34)) ∧
    StartsAtOnce (modNear cmd 0 fun m => { m with short := true }) 0 0x0030 (bulkPkt [0] [1]) ∧
    ((groupOf cmd 0).all fun g => !hasStart g) = true ∧
    (∀ n ∈ [0, 3721, 3722, 65535], StartsAtOnce cmd 0 0x0022 (pkt ([0, 0] ++ natLe 2 n))) ∧
    fitsFar (farClaims cmd 0 16 + 3721) = true ∧ fitsFar (farClaims cmd 0 16 + 3722) = false ∧
    (pane cmd 0).state = .opened ∧ groupOf cmd 0 = some (Group.alone 0) ∧
    StartsAtOnce cmd 0 0x0023 (pkt [0, 0, 0, 1]) ∧ StartsAtOnce cmd 0 0x0023 (pkt [0, 0, 1, 1]) ∧
    ((List.range 256).filter (blockFree cmd)).length = 256 := by
  unfold StartsAtOnce; decide

theorem witness_module_tables :
    StartsAtOnce cmd 0 0x0025 (bulkPkt [] (zeros 4)) ∧ bulkData (bulkPkt [] (zeros 4)) = some (zeros 4) ∧
    (zeros 4).length = 4 + 8 * leAt (zeros 4) 0 4 ∧ (zeros 5).length ≠ 4 + 8 * leAt (zeros 5) 0 4 ∧
    (∀ n ∈ List.range 16, holdsContext free' n = false) ∧ holdsContext cmd 0 = true ∧
    StartsAtOnce free' 17 0x0026 (pkt (zeros 3)) := by
  unfold StartsAtOnce; decide

/-- A waiter. -/
def aWaiter : Waiter := { device := 9, pane := 3, epoch := 1, lcell := 0, target := 0, stamp := 0, localTok := none, req := none }

/-- Latch 5 held by a pane of module 9, with and without a waiter. -/
def waited (q : List Waiter) : State :=
  { cmd with latches := [(5, { latchZero with state := 1, holderDevice := 9, holderPane := 2, holderEpoch := 4, queue := q })] }

theorem witness_windows :
    (∀ w ∈ [1, 2], (tblGet windowZero (rmoOf (modRmo cmd 0 fun u =>
      { u with windows := [(255, { window with wstate := w })] }) 0).windows 255).wstate = w) ∧
    StartsAtOnce cmd 0 0x0041 (pkt [0, 255]) ∧ StartsAtOnce free' 0 0x0040 (pkt grantParams) ∧
    (pane free' 0).state ≠ .opened ∧ StartsAtOnce cmd 1 0x0042 (pkt ([1] ++ zeros 39)) ∧
    StartsAtOnce cmd 1 0x0042 (pkt ([2] ++ zeros 39)) ∧ (pane cmd (1 - 1)).state = .opened ∧
    (∀ q ∈ [[], [aWaiter]],
      tblWf latchZero (waited q).latches = true ∧ latchHolder (latchOf (waited q) 5) 9 2 4 = true ∧
      (latchOf (waited q) 5).queue = q) ∧
    StartsAtOnce (waited []) 0 0x0043 (pkt [9, 0, 2, 0, 4, 0]) := by
  unfold StartsAtOnce; decide

theorem witness_full_windows :
    closedEntry (modRmo cmd 0 fun u => { u with windows := (List.range 256).map fun i => (i, window) }) 0 = none := by
  decide +kernel

/-- A quota of 1 GiB for pane 0. -/
def quota (s : State) : State := { s with far := { s.far with quotas := [(0, 1)] } }

/-- A store object descriptor on engine 0. -/
def desc : List Byte := zeros 40 ++ [1] ++ zeros 23

theorem witness_far_commands :
    (let k := pkt (zeros 6 ++ natLe 2 1 ++ natLe 8 (mkGa 5 0 1 0).toNat ++ natLe 8 (nearAddr 0).toNat ++ natLe 8 64)
     StartsAtOnce (quota cmd) 0 0x0050 k ∧ BitVec.ofNat 16 (prm k 6 2) &&& ~~~callerGroup (quota cmd) 0 = 0 ∧
     adrOk (quota cmd) (callerGroup (quota cmd) 0) 1 (BitVec.ofNat 64 (prm k 8 8)) = true ∧
     inQuota (quota cmd) (BitVec.ofNat 64 (prm k 8 8)) (prm k 24 8) = true ∧
     BitVec.ofNat 16 (gaDevice (BitVec.ofNat 64 (prm k 16 8))) = moduleId cmd ∧
     gaTier (BitVec.ofNat 64 (prm k 16 8)) = 0 ∧ nearOk (gaOfs (BitVec.ofNat 64 (prm k 16 8))) 64 = true ∧
     startedLead (quota cmd) 0 = none) ∧
    (let k := pkt (zeros 8 ++ natLe 8 (nearAddr 0).toNat ++ natLe 8 (mkGa 5 0 1 (2 ^ 30 - 64)).toNat ++ natLe 8 64)
     StartsAtOnce (quota cmd) 0 0x0051 k ∧ adrOk (quota cmd) (callerGroup (quota cmd) 0) 0 (BitVec.ofNat 64 (prm k 8 8)) = true ∧
     inQuota (quota cmd) (BitVec.ofNat 64 (prm k 16 8)) (prm k 24 8) = true ∧ writeRefusal (quota cmd) (2 ^ 30 - 64) 64 = none) ∧
    writeRefusal { cmd with far := { cmd.far with readOnly := true } } 0 64 ≠ none ∧
    (let k := pkt (zeros 6 ++ natLe 2 1 ++ natLe 8 (nearAddr 0).toNat ++ natLe 8 64 ++ desc)
     StartsAtOnce cmd 0 0x0052 k ∧ badDesc k 24 = none ∧ enginesOut cmd k 24 = false) := by
  unfold StartsAtOnce; decide

theorem witness_storm_commands :
    (∀ n ∈ [0, 1, 36864], StartsAtOnce cmd 0 0x0060 (pkt ([0, 0, 6, 0, 15, 0, 0, 0] ++ zeros 8 ++ natLe 8 n))) ∧
    fitsFar (farClaims cmd 16 0 + stagingFor 36864) = true ∧ StartsAtOnce cmd 0 0x0061 (pkt [0]) ∧
    StartsAtOnce cmd 0 0x0062 (pkt ([0, 0, 8, 0, 0, 0, 0, 0] ++ desc)) ∧ 8 % (Group.alone 0).storm.interval = 0 ∧
    badDesc (pkt ([0, 0, 8, 0, 0, 0, 0, 0] ++ desc)) 8 = none ∧
    (let g := { Group.alone 0 with plan := some (mkPlan 1 []) }
     let k := pkt ([0, 1] ++ zeros 14 ++ desc)
     groupLed (withGroup g) 0 = some g ∧ hasStart g = false ∧ StartsAtOnce (withGroup g) 0 0x0063 k ∧ prm k 1 1 = 1 ∧
     badDesc k 16 = none ∧ prm k 52 2 ≤ prm k 54 2 ∧ enginesOut cmd k 16 = false ∧ g.storm.buddy = none ∧
     StartsAtOnce (withGroup g) 0 0x0063 (pkt (zeros 80))) := by
  unfold StartsAtOnce; decide

theorem witness_remote_buddy :
    (let g := { Group.alone 0 with plan := some (mkPlan 1 []), storm := { (Group.alone 0).storm with buddy := some (6, 0, 0, 36864) } }
     StartsAtOnce (withGroup g) 0 0x0063 (pkt (zeros 80)) ∧ (6 : BitVec 16) ≠ moduleId (withGroup g)) ∧
    (let g := planGroup (mkPlan 1 []) (running 3)
     groupLed (withGroup g) 0 = some g ∧ planRunning g = true ∧ StartsAtOnce (withGroup g) 0 0x0061 (pkt [0])) := by
  unfold StartsAtOnce; decide

/-- Parameters of `MODE_SET`. -/
def modeParams (m scope v : Nat) : List Byte := natLe 2 m ++ natLe 1 scope ++ [0] ++ natLe 4 v

theorem witness_modes :
    (∀ m ∈ [1, 2, 3, 4, 5, 6], (∀ v ∈ [0, 1, 3], StartsAtOnce cmd 0 0x0070 (pkt (modeParams m 0xFF v))) ∧
      moduleValueOk cmd m 1 = true ∧ moduleValueOk cmd m 3 = false ∧
      StartsAtOnce (withGroup (planGroup (mkPlan 1 []) (running 3))) 0 0x0070 (pkt (modeParams m 0xFF 1)) ∧
      StartsAtOnce cmd 0 0x0070 (pkt (modeParams m 0 1))) ∧
    (∀ m ∈ [7, 8, 9], StartsAtOnce cmd 0 0x0070 (pkt (modeParams m 0 1)) ∧ groupValueOk (Group.alone 0) m 1 = true ∧
      groupValueOk (Group.alone 0) m 2000 = false ∧
      StartsAtOnce (withGroup (planGroup (mkPlan 1 []) (running 3))) 0 0x0070 (pkt (modeParams m 0 1))) ∧
    (∀ m ∈ [0, 10, 11], StartsAtOnce cmd 0 0x0070 (pkt (modeParams m 0 1))) ∧
    (∀ m ∈ [1, 6], StartsAtOnce cmd 0 0x0071 (pkt (natLe 2 m ++ [0xFF, 0])) ∧ moduleMode m = true) ∧
    (∀ m ∈ [7, 10], StartsAtOnce cmd 0 0x0071 (pkt (natLe 2 m ++ [0, 0])) ∧ groupMode m = true) ∧
    (∀ g ∈ cmd.groups, hasStart g = false) := by
  unfold StartsAtOnce; decide

theorem witness_services :
    (∀ m ∈ [0, 1, 0xFF], StartsAtOnce free' 0 0x0080 (pkt [m, 0])) ∧ (∀ p ∈ maskPanes 0xFFFF, (pane free' p).state = .free) ∧
    StartsAtOnce cmd 0 0x0080 (pkt [1, 0]) ∧ (∃ p ∈ maskPanes 1, (pane cmd p).state = .opened) ∧
    StartsAtOnce free' 0 0x0081 (pkt [1]) ∧ StartsAtOnce cmd 0 0x0081 (pkt [0]) ∧
    (∀ n ∈ [0, 1, 65536, 65537], StartsAtOnce cmd 0 0x0090 { bulkPkt (zeros 8 ++ natLe 4 n) [] with bulkLen := 8388608 }) ∧
    (bulkPkt (zeros 12) []).bulk ≠ none ∧ 128 * 65536 ≤ (8388608 : BitVec 64).toNat ∧
    cmd.evrec.frozen = false ∧ cmd.evrec.queue = [] ∧
    (let s := { cmd with evrec := { cmd.evrec with frozen := true } }
     StartsAtOnce s 0 0x00A0 (pkt []) ∧ StartsAtOnce s 0 0x00A2 (pkt []) ∧ eventRangeOk 0 8 = true ∧
     StartsAtOnce s 0 0x00A1 (bulkPkt (zeros 8 ++ natLe 4 8) (zeros 8))) := by
  unfold StartsAtOnce; decide

/-! ### The island, the recorder, the host and the sideband -/

/-- A state with the island changed. -/
def islandBy (f : Island → Island) : State := { up with island := f up.island }

/-- An update package. -/
def package (ok : Bool) : MeterUpdate :=
  { signatureOk := ok, firmware := true, legalVersion := 3, legalSha := zeros 32, intervalMs := 10000 }

/-- An interval of 30 seconds that began at 0, at a time. -/
def due (ns : Nat) : State :=
  islandBy fun i => { i with running := true, ns := ns, intervalMs := 30000, lastBoundary := 0 }

theorem witness_island :
    ((due 30000000000).island.running = true ∧ (due 30000000000).island.stopped = false ∧
      (due 30000000000).island.fault = false ∧
      (due 30000000000).island.lastBoundary + (due 30000000000).island.intervalMs ≤ islandMs (due 30000000000)) ∧
    islandMs (due 29999999999) < (due 29999999999).island.lastBoundary + (due 29999999999).island.intervalMs ∧
    (islandBy fun i => { i with running := false }).island.running = false ∧ up.island.sealCount = 0 ∧
    updateOk (due 0) (package true) = true ∧ updateOk (due 0) (package false) = false := by decide

theorem witness_seal_count : (islandBy fun i => { i with sealCount := 0xFFFF }).island.sealCount = 0xFFFF := rfl

/-- An event with a code. -/
def event (code : BitVec 16) (payload : List Byte) : Event :=
  { code := code, source := 1, beat := 10000, tick := 0, pane := 0xFF, payload := payload, localTime := false }

/-- A state with the recorder changed. -/
def recBy (f : Recorder → Recorder) : State := { up with evrec := f up.evrec }

theorem witness_recorder :
    srcListed (event 0x0201 []).source.toNat = true ∧ srcListed 0 = false ∧
    declaresBank (event 0x0201 []) = false ∧ declaresBank (event 0x0601 [9, 0, 0]) = true ∧ declaresBank (event 0x0601 [8]) = false ∧
    up.evrec.frozen = false ∧ (recBy fun q => { q with frozen := true }).evrec.frozen = true ∧
    (∀ n ∈ [255, 256], (recBy fun q => { q with queue := List.replicate n (0, event 0x0201 []) }).evrec.queue.length = n) ∧
    (∀ t ∈ [9999 * 8192, 10000 * 8192], ∀ l ∈ [0, 1],
      let s := recBy fun q => { q with
        queue := [(t, event 0x0201 [])], lastAccept := some (t / 8192, 0), limit := 1, written := [(epochKey 10000 0x0201, l)] }
      s.evrec.queue = (t, event 0x0201 []) :: [] ∧ (mayAccept s = true ↔ t = 9999 * 8192) ∧
      codeInfo (event 0x0201 []).code.toNat = some (40, 1) ∧ tblGet 0 s.evrec.written (epochKey 10000 0x0201) = l) ∧
    up.evrec.lostSince = 0 ∧
    (let s := { recBy fun q => { q with suppressed := [(0x0201, 5)] } with time := { up.time with beat := 4104 } }
     ∃ x ∈ s.evrec.suppressed, (x.1 / 65536 + 1) * 4096 + 8 ≤ s.time.beat) ∧
    (let s := recBy fun q => { q with spillQueue := [3], spilling := true }
     s.evrec.spillQueue = 3 :: [] ∧ s.evrec.spilling = true ∧ spillAcked s 3 = true) ∧
    up.evrec.spilling = false ∧ up.test.shutdown = none := by decide

theorem witness_host :
    accessFn .pf = some 0 ∧ accessFn (.vf 3) = some 4 ∧ up.power.hubUp = true ∧ hubDown.power.hubUp = false ∧
    (∀ o ∈ [0x00020, 0x20000, 0x20008, 0x20040, 0x20048, 0x20058], accessOk cmd 0 o 8 = true) ∧
    accessOk cmd 0 0x20004 8 = false ∧ accessOk cmd 0 0x20000 16 = false ∧ accessOk cmd 4 0x1000 8 = true ∧
    accessOk ctx 4 0x1000 8 = false ∧
    (seenReg cmd 0 0x20000).map (fun x => (x.1, x.2.1)) = some (0x20000, 1) ∧
    (seenReg cmd 0 0x20040).map (fun x => (x.1, x.2.1)) = some (0x20040, 2) ∧
    (seenReg cmd 0 0x20048).map (fun x => (x.1, x.2.1)) = some (0x20040, 2) ∧
    (let s := { cmd with host := { cmd.host with snaps := [(0, (0x20040, [1, 2]))] } }
     tblFind s.host.snaps 0 = some (0x20040, [1, 2])) ∧
    placeOf 4 0x1000 = .paneBlock 3 0 ∧ placeOf 0 0x20 = .mailbox 0 0x020 ∧ placeOf 4 0x20 = .mailbox 4 0x020 ∧
    (∀ n ∈ [1, 256], 1 ≤ fld n 8 0 ∧ fld n 8 0 ≤ 256) ∧ vfExists cmd (15 + 1) = true ∧ (pane cmd 0).state = .opened ∧
    ctx.host.vfEnable = false ∧ usesPage cmd 0 5 = false ∧
    usesPage (inHand cmd (job 0x0030 { bulkPkt [0] [1] with bulkAddr := 20480 } (some 9999) none)) 0 5 = true := by decide

/-- A fragment of `n` bytes of a request of `total`. -/
def fragment (device : BitVec 16) (mtype : BitVec 8) (n total : Nat) : FmFragment :=
  { mtype := mtype, device := device, entry := 5, xid := 77, ofs := 0, total := BitVec.ofNat 32 total, bytes := zeros n }

/-- A state with a relay. -/
def relayed (since : Option Nat) : State :=
  { up with fm := { up.fm with relays := [{ xid := 77, device := 6, since := since, got := 0 }] } }

theorem witness_sideband :
    hubAnswers up = true ∧ hubAnswers hubDown = false ∧
    sbRange 0x20000 8 = true ∧ sbRange 0xFFFF8 8 = true ∧ sbRange 0xFFFF8 16 = false ∧ sbRange 0x20004 8 = false ∧
    sbRange 0xFF8 8 = true ∧ sbWord up 0x20000 ≠ none ∧ sbWord up 0x20018 ≠ none ∧
    up.fm.partials.find? (fun x => x.entry == moduleId up && x.xid == 77) = none ∧
    (∀ f ∈ [fragment 5 1 32 33, fragment 0xFFFF 1 32 33], ownDevice up f.device = true ∧ f.bytes.length < f.total.toNat) ∧
    (fragment 5 1 32 32).total.toNat = (fragment 5 1 32 32).bytes.length ∧ (fragment 5 1 33 32).total.toNat < 0 + 33 ∧
    (mbx (withMbx up 17 fun m => { m with job := some (fetching 0x0063 []) }) 17).job = some (fetching 0x0063 []) ∧
    (mbx up 17).job = none ∧ dkReady { up with dk := { up.dk with ready := false } } = false ∧
    ownDevice up 6 = false ∧ coordOf up 6 = none ∧ coordOf (twoModules up) 6 ≠ none ∧
    portActive (inLink 5) 0 = true ∧ portActive up 0 = false ∧ routePort (twoModules (inLink 5)) 6 = some 0 ∧
    (fragment 6 1 32 32).device ≠ moduleId up ∧ (fragment 5 3 32 32).device = moduleId up ∧
    (∀ b ∈ [none, some 8976, some 8977], (relayed b).fm.relays.find? (fun x => x.xid == 77) ≠ none) ∧
    ((relayed (some 8976)).fm.relays.find? (fun x => x.since.elim false fun b => decide (b + 1024 ≤ up.time.beat))).isSome = true ∧
    (∀ x ∈ (relayed (some 8977)).fm.relays, ∀ b, x.since = some b → up.time.beat < b + 1024) ∧
    (∀ b ∈ [9488, 9489], ({ up.fm with current := some (some 6, 77, b) } : FmUnit).current = some (some 6, 77, b)) ∧
    9488 + 512 ≤ up.time.beat ∧ up.time.beat < 9489 + 512 := by
  simp only [relayed, List.mem_singleton, forall_eq, Option.some.injEq, forall_eq']
  decide

/-- What `EveryEventCompletes` asks for beyond the states above. -/
theorem witness_events :
    checkHolds (countFec (withPort fun x => { x with state := 5, cvMode := false }) 0 (slotOf 0 false)) 0 (slotOf 0 false).img = true ∧
    (let r := { running 3 with firstStep := 5 }
     let g := { planGroup (mkPlan 2 []) r with copies := [copyOf' false none] }
     let s := { ctx with groups := [g] }
     groupOf s 0 = some g ∧ soonUnready s g (mkPlan 2 []) r (2 * holdGrid (mkPlan 2 [])) = true) ∧
    (let d := { drainOf false with wrote := false }
     tblFind ({ ctx with store := { ctx.store with drains := [(0, d)] } } : State).store.drains 0 = some d ∧ d.image ≠ []) ∧
    (∀ y ∈ (running 2).extents, y.1 ≠ 0) ∧ up.store.drains = [] ∧
    (∀ n ∈ [0, 32], reaches up n 0 (thresholds n).1 = false ∧ reaches up n 0 (thresholds n).2.1 = false ∧
      reaches up n 0 (thresholds n).2.2 = false) ∧
    (∀ e ∈ [0, 2, 16, 27], engineOk e = true) ∧ up.evrec.suppressed = [] ∧ escapeOp 0x0016 = true ∧
    (let s := farBy fun t => { t with
       blocks := [(0, blockIn .used false 0), (1, blockIn .used false 257), (2, blockIn .free false 300)] }
     s.far.progs.any (·.channel == 0) = false ∧ s.far.gcs.any (·.channel == 0) = false ∧ openOf s 0 .openG = none) ∧
    (∀ m ∈ List.range 10, 1 ≤ m → prm (pkt (modeParams m 0xFF 1)) 0 2 = m) ∧
    (withLine 16384 { lineZero with txn := some { req := own3, snoops := [2], acks := [1] } }).ccr ≠ [] := by decide

theorem witness_idle : State.reset.pending = [] := rfl

/-! ### Ill-formed commands -/

/-- A packet that says another length than it has. -/
def shortPkt : Packet := { pkt (zeros 8) with paramBytes := 7 }

theorem test_illformed_packets :
    Instr.wf (.hello 0 shortPkt) = false ∧ Instr.wf (.escape 0x13 shortPkt) = false ∧
    Instr.wf (.slotAlloc 0 (pkt (zeros 993))) = false ∧ Instr.wf (.modeGet 17 shortPkt) = false ∧
    Instr.wf (.modeSetPowerCap 0 shortPkt) = false ∧ Instr.wf (.modeSetDrainInterval 0 shortPkt) = false ∧
    Instr.wf (.hello 0 (pkt (zeros 8))) = true := by decide

theorem test_illformed_links :
    Instr.wf (.slotReceived 0 (slotOf 0 false)) = false ∧ Instr.wf (.alignDone 0 4096) = false ∧
    Instr.wf (.alignDone 0 4095) = true ∧ Instr.wf (.sillReceived 0 { sill6 with creditRet := [0] } 0) = false ∧
    Instr.wf (.negotiateDone 0 { sill6 with replayReq := List.replicate 17 0 }) = false ∧
    Instr.wf (.negotiateDone 0 sill6) = true := by decide

theorem test_illformed_others :
    Instr.wf (.stormFrameReceived (zeros 3071)) = false ∧
    Instr.wf (.eventDelivery { event 1 [] with tick := 8192 }) = false ∧
    Instr.wf (.eventDelivery (event 1 (zeros 233))) = false ∧ Instr.wf (.thermalThreshold 15 0) = false ∧
    Instr.wf (.vfEnableChange 17) = false ∧ Instr.wf (.meterUpdatePackage { package true with intervalMs := 20000 }) = false ∧
    Instr.wf (.meterUpdatePackage { package true with legalSha := [] }) = false ∧
    Instr.wf (.sbRegisterRead 0 0 4) = false ∧ Instr.wf (.sbRegisterWrite 0 0 16 0) = false ∧
    Instr.wf (.fmRequestFragment (fragment 5 1 4097 4097)) = false ∧
    Instr.wf (.fmFragmentReceived 0 (fragment 5 1 4097 4097)) = false ∧ Instr.wf .hubFault = true := by decide

/-! ### The manual's examples -/

/-- 06_memory_tiers.md: pane 5 of module 0x0103 at offset 9 GiB, near and far. -/
theorem test_global_address :
    mkGa 0x0103 5 0 0x240000000 = 0x0103500240000000#64 ∧ mkGa 0x0103 5 1 0x240000000 = 0x0103580240000000#64 := by decide

/-- 04_arithmetic.md, after R94: 300.5 to E4M3 is 288 under RNE and RTZ, and 320 under SR from a draw of 2,617,245,696. -/
theorem test_round_e4m3 :
    roundNum .e4m3 .rne false false (.fin false 601 (-1)) = roundNum .e4m3 .rtz false false (.fin false 601 (-1)) ∧
    Elem.e4m3.decode (roundNum .e4m3 .rne false false (.fin false 601 (-1))).1 = .fin false 9 5 ∧
    Elem.e4m3.decode (roundNum .e4m3 (.sr 2617245696) false false (.fin false 601 (-1))).1 = .fin false 10 5 ∧
    Elem.e4m3.decode (roundNum .e4m3 (.sr 2617245695) false false (.fin false 601 (-1))).1 = .fin false 9 5 := by decide

/-- There: 460 is 448 under RNE; under SR it can overflow, to NaN without `SAT` and to 448 with it. -/
theorem test_overflow_e4m3 :
    Elem.e4m3.decode (roundNum .e4m3 .rne false false (.fin false 460 0)).1 = .fin false 14 5 ∧
    roundNum .e4m3 (.sr 4294967295) false false (.fin false 460 0) = (0x7F, flOvf + flNanOut) ∧
    (roundNum .e4m3 (.sr 4294967295) true false (.fin false 460 0)).1 = 0x7E := by decide

/-- 04_arithmetic.md, on split tensors: 0x3F80_C000 to BF16 under RNE is 0x3F81, and its high plane 0x3F80. -/
theorem test_round_bf16 :
    (roundNum .bf16 .rne false false (Elem.fp32.decode 0x3F80C000)).1 = 0x3F81 ∧
    (roundNum .bf16 .rtz false false (Elem.fp32.decode 0x3F80C000)).1 = 0x3F80 := by decide

/-- 20_startup_power_and_modes.md, the cold start: the ports of module 0x1881 enter `DETECT` at 9,000,001 (R228). -/
theorem test_first_attempt :
    retrainBeat { up with power := { up.power with t0 := 9000000, identity := some 0x1881 } } Port.reset = 9000001 := by decide

/-- A scalar add of 1 and 2^64 - 1 wraps; both words are the encoding of Table 03-9. -/
theorem test_scalar_add :
    sreg (cell (nextOf (exec (.scalarAdd 0 0)
      (setCell ctx 0 0 { cellAt (word 1 0 (3 * 2 ^ 115 + 1 * 2 ^ 110 + 2 * 2 ^ 105)) with
        sregs := [(1, 1), (2, 0xFFFFFFFFFFFFFFFF)] }))) 0 0) 3 = 0 := by decide

/-- 02_beat_and_time.md, the holdover example: with the last marker at 500,000 and none for 500,001, the module is in
`HOLDOVER` there and `HOLDOVER_BEATS` reads 1 once the beat has counted. -/
theorem test_holdover :
    (let s : State := { up with time := { up.time with beat := 500001, markerFor := some 500000, tick := 17 } }
     let t := nextOf (exec .missingMarker s)
     t.time.mode = .holdover ∧ (nextOf (exec .holdoverBeat t)).time.holdoverBeats = 1) := by decide

/-- 13_panes_and_tenancy.md, the move of a pane: a teardown in beat 3,000,000 has d = 3,000,001, cause 0 and no kept space. -/
theorem test_teardown :
    ((pane (startEffect 0x0011 { cmd with time := { cmd.time with beat := 3000000, tick := 4000 } } 0 (pkt [0, 0])).1 0).shutter.map
      fun h => (h.d, h.cause, h.keepFar)) = some (3000001, 0, false) := by decide

end Sys2Proof.Tests
end

section
/-! PROOFS. The beat unit under the operations of faults and events: recording, counting an error and declaring a resource
faulty leave it alone; a phase hit counts in it. -/

namespace Sys2Proof.Machine

/-! ### Operations that leave the beat unit alone -/

@[simp] theorem deliver_time (s : State) (e : Event) : (deliver s e).time = s.time := by
  unfold deliver
  dsimp only
  repeat' split
  all_goals rfl

@[simp] theorem record_time (s : State) (code source pane : Nat) (payload : List Byte) :
    (record s code source pane payload).time = s.time := deliver_time s _

@[simp] theorem msix_time (s : State) (fn vector : Nat) : (msix s fn vector).time = s.time := by
  unfold msix
  split
  · exact setMsixByte_time s _ _ _
  · rfl

@[simp] theorem queueNotice_time (s : State) (ntype pane : Nat) (tag : BitVec 32) (epoch : BitVec 16)
    (code index source : Nat) : (queueNotice s ntype pane tag epoch code index source).time = s.time := by
  unfold queueNotice
  dsimp only
  repeat' split
  · rw [msix_time]
  · rw [msix_time]
  · rfl

@[simp] theorem warnGroups_time (s : State) (row index : Nat) : (warnGroups s row index).time = s.time := rfl

@[simp] theorem raiseWarning_time (s : State) (row index : Nat) : (raiseWarning s row index).time = s.time := by
  simp [raiseWarning]

@[simp] theorem noteDeclared_time (s : State) (row index : Nat) : (noteDeclared s row index).time = s.time := rfl

@[simp] theorem tellDeclared_time (s : State) (row index : Nat) : (tellDeclared s row index).time = s.time := by
  simp [tellDeclared]

@[simp] theorem declareFaulty_time (s : State) (row index : Nat) : (declareFaulty s row index).time = s.time := by
  simp [declareFaulty]

@[simp] theorem countError_time (s : State) (row index n : Nat) : (countError s row index n).1.time = s.time := by
  unfold countError
  dsimp only
  repeat' split
  all_goals simp

/-! ### What the beat unit's own operations make of it -/

@[simp] theorem modTime_time (s : State) (f : BeatUnit → BeatUnit) : (modTime s f).time = f s.time := rfl

@[simp] theorem enterTime_time (s : State) (m : TimeMode) : (enterTime s m).time = { s.time with mode := m } := by
  simp [enterTime]

/-- R29: a beat of holdover counts one and is marked as counted. -/
@[simp] theorem countHoldover_time (s : State) :
    (countHoldover s).time = { s.time with
      holdoverBeats := BitVec.ofNat 32 (satAdd 32 s.time.holdoverBeats.toNat 1), holdFor := some s.time.beat } := by
  simp [countHoldover]

/-- R17: a phase hit adds one to `PHASE_HITS`; the reference declared faulty by it is not the beat unit's. -/
@[simp] theorem phaseHit_time (s : State) :
    (phaseHit s).time = { s.time with phaseHits := BitVec.ofNat 16 (satAdd 16 s.time.phaseHits.toNat 1) } := by
  unfold phaseHit
  dsimp only
  split
  all_goals simp

/-- R17: a beat's phase hit counts once, and not for a beat that has its valid marker. -/
theorem beatHit_time (s : State) (b : Nat) :
    (beatHit s b).time =
      if s.time.markerFor = some b || s.time.hitFor = some b then s.time
      else { (phaseHit s).time with hitFor := some b } := by
  unfold beatHit
  split <;> rfl

@[simp] theorem beatHit_beat (s : State) (b : Nat) : (beatHit s b).time.beat = s.time.beat := by
  rw [beatHit_time]
  split
  · rfl
  · rw [phaseHit_time]

end Sys2Proof.Machine
end

section
/-! PROOFS. A missing marker while the module is `LOCKED` (R27). -/

namespace Sys2Proof.Machine

/-- R27, R29: the entry into `HOLDOVER` at a beat without a valid marker: the beat's phase hit, an episode begun at 0
with the limit of the selection, and the beat at hand counted. -/
def enterHoldover (s : State) : State :=
  countHoldover (enterTime (modTime (beatHit s s.time.beat) fun t =>
    { t with holdoverBeats := 0, goodMarkers := 0, episodeLimit := holdoverLimit t.limitSel }) .holdover)

/-- The command has this entry as its effect in `LOCKED`, once the window of the beat's marker has passed. -/
theorem exec_missingMarker_locked {s : State} (hmode : s.time.mode = .locked) (hmiss : markerMissed s = true) :
    exec .missingMarker s = .next (enterHoldover s) := by
  show execMissingMarker s = _
  unfold execMissingMarker
  rw [hmode]
  exact if_pos hmiss

/-- An episode begins with its first beat counted, whatever the count of the episode before. -/
theorem enterHoldover_time (s : State) :
    (enterHoldover s).time = { (beatHit s s.time.beat).time with
      mode := .holdover, holdoverBeats := 1, holdFor := some s.time.beat, goodMarkers := 0
      episodeLimit := holdoverLimit (beatHit s s.time.beat).time.limitSel } := by
  have hfirst : BitVec.ofNat 32 (satAdd 32 (0 : BitVec 32).toNat 1) = 1 := by decide
  simp only [enterHoldover, countHoldover_time, enterTime_time, modTime_time, beatHit_beat, hfirst]

end Sys2Proof.Machine

open Sys2Proof Sys2Proof.Machine

/-- Settles O27: the command's effect is the entry into `HOLDOVER`, which counts the beat at hand as the first of its
episode and leaves the beat counter where it is. -/
theorem missingMarkerEntersHoldover : Obligations.MissingMarkerEntersHoldover := by
  unfold Obligations.MissingMarkerEntersHoldover
  intro s hmode hmiss
  refine ⟨enterHoldover s, exec_missingMarker_locked hmode hmiss, ?_⟩
  rw [enterHoldover_time]
  exact ⟨rfl, rfl, beatHit_beat s _, rfl⟩

end

section
/-! PROOFS. Tokens that stop issue (R53): every instruction that names a completion token is an issue of a row of its
class, and an issue with a busy token changes nothing. -/

namespace Sys2Proof.Machine

/-- A row of a class and operation code holds the words that have both. -/
theorem rowOp_iff {cls op w : Nat} : rowOp cls op w = true ↔ wClass w = cls ∧ wOp4 w = op := by
  simp [rowOp]

/-- R53: the words of `TMM` and `TDRAIN` name a token. -/
theorem namesToken_of_tileClass {w : Nat} (h : wClass w = 2 ∨ wClass w = 3) : namesToken w = true := by
  unfold namesToken
  rcases h with h | h
  · rw [h]; rfl
  · rw [h]; rfl

/-- R53: so do the words of `DMA` and `RMO`, and those of `SYNC` from `ARRIVE` on. -/
theorem namesToken_of_rowOp {cls op w : Nat} (hrow : rowOp cls op w = true)
    (hcls : cls = 8 ∨ cls = 9 ∨ cls = 0xA ∧ 2 ≤ op) : namesToken w = true := by
  obtain ⟨hclass, hop⟩ := rowOp_iff.mp hrow
  unfold namesToken
  rw [hclass]
  rcases hcls with rfl | rfl | ⟨rfl, hlatch⟩
  · rfl
  · rfl
  · simpa [hop] using hlatch

end Sys2Proof.Machine

open Sys2Proof Sys2Proof.Machine

/-- Settles O14: each of these commands issues the instruction at the cell's `pc` when it is of the command's row; a word
of such a row names a token, and its token is busy. -/
theorem busyTokenStopsIssue : Obligations.BusyTokenStopsIssue := by
  unfold Obligations.BusyTokenStopsIssue
  intro s p c x w hlegal hbusy
  have stalls {row act} (hnames : namesToken w = true) :
      Host.Outcome.next (issueWith row act s p.val c.val) = (.next s : Host.Outcome State Fault Refusal) :=
    congrArg _ (issueWith_busy hlegal hnames hbusy)
  have tile {row act} (h : wClass w = 2 ∨ wClass w = 3) := stalls (row := row) (act := act) (namesToken_of_tileClass h)
  have dma {op row act} (h : rowOp 8 op w = true) :=
    stalls (row := row) (act := act) (namesToken_of_rowOp h (.inl rfl))
  have rmo {op row act} (h : rowOp 9 op w = true) :=
    stalls (row := row) (act := act) (namesToken_of_rowOp h (.inr (.inl rfl)))
  have latch {op row act} (hop : 2 ≤ op) (h : rowOp 0xA op w = true) :=
    stalls (row := row) (act := act) (namesToken_of_rowOp h (.inr (.inr ⟨rfl, hop⟩)))
  exact ⟨fun h => tile (.inl h), fun h => tile (.inr h),
    dma, dma, dma, dma, dma,
    rmo, rmo, rmo, rmo, rmo, rmo, rmo, rmo, rmo,
    latch (by decide), latch (by decide), latch (by decide), latch (by decide)⟩

end

section
/-! PROOFS. A fault of a cell's issue (R52, R406): what is recorded, announced, aborted and torn down for it leaves the
cells and every `CTX_FAULT` as the fault itself made them. -/

namespace Sys2Proof.Machine

/-- The cells, and of each pane which physical cell holds a logical number (R67) and its `CTX_FAULT` (R406). -/
def cellView (s : State) : Tbl Cell × (Nat → Tbl Nat × CtxFault) :=
  (s.cells, fun p => ((pane s p).cellSub, (pane s p).ctxFault))

theorem cell_eq_of_cellView {s t : State} (h : cellView t = cellView s) (p l : Nat) : cell t p l = cell s p l := by
  obtain ⟨hcells, hpanes⟩ := Prod.mk.inj h
  have hsub : (pane t p).cellSub = (pane s p).cellSub := congrArg Prod.fst (congrFun hpanes p)
  simp only [cell, physCell, physOf, hcells, hsub]

theorem ctxFault_eq_of_cellView {s t : State} (h : cellView t = cellView s) (p : Nat) :
    (pane t p).ctxFault = (pane s p).ctxFault :=
  congrArg Prod.snd (congrFun (congrArg Prod.snd h) p)

/-! ### Operations that leave the view alone -/

theorem modPane_cellView {s : State} {p : Nat} {f : Pane → Pane}
    (hf : ∀ x, (f x).cellSub = x.cellSub ∧ (f x).ctxFault = x.ctxFault) : cellView (modPane s p f) = cellView s := by
  refine Prod.ext rfl (funext fun q => ?_)
  show ((pane (modPane s p f) q).cellSub, (pane (modPane s p f) q).ctxFault) = _
  rw [pane_modPane]
  split
  next h => subst h; exact Prod.ext (hf _).1 (hf _).2
  next => rfl

theorem foldl_cellView {α : Type} {f : State → α → State} (hf : ∀ s a, cellView (f s a) = cellView s) (l : List α)
    (s : State) : cellView (l.foldl f s) = cellView s := by
  induction l generalizing s with
  | nil => rfl
  | cons a l ih => rw [List.foldl_cons, ih, hf]

@[simp] theorem deliver_cellView (s : State) (e : Event) : cellView (deliver s e) = cellView s := by
  unfold deliver
  dsimp only
  repeat' split
  all_goals rfl

@[simp] theorem record_cellView (s : State) (code source pane : Nat) (payload : List Byte) :
    cellView (record s code source pane payload) = cellView s := deliver_cellView s _

@[simp] theorem msix_cellView (s : State) (fn vector : Nat) : cellView (msix s fn vector) = cellView s := by
  unfold msix
  split <;> rfl

@[simp] theorem queueNotice_cellView (s : State) (ntype pane : Nat) (tag : BitVec 32) (epoch : BitVec 16)
    (code index source : Nat) : cellView (queueNotice s ntype pane tag epoch code index source) = cellView s := by
  unfold queueNotice
  dsimp only
  repeat' split
  · exact msix_cellView _ _ _
  · exact msix_cellView _ _ _
  · rfl

@[simp] theorem askTeardown_cellView (s : State) (p cause : Nat) (keepFar : Bool) :
    cellView (askTeardown s p cause keepFar) = cellView s := by
  refine modPane_cellView fun x => ?_
  split <;> exact ⟨rfl, rfl⟩

@[simp] theorem sendMgmt_cellView (s : State) (device : BitVec 16) (bytes : List Byte) :
    cellView (sendMgmt s device bytes) = cellView s := by
  unfold sendMgmt sendParcel
  split
  · exact modPane_cellView fun _ => ⟨rfl, rfl⟩
  · unfold queueParcel
    split <;> rfl

@[simp] theorem fmReplyTo_cellView (s : State) (entry : Option (BitVec 16)) (xid : BitVec 32) (d : List Byte) :
    cellView (fmReplyTo s entry xid d) = cellView s := by
  cases entry with
  | none => exact foldl_cellView (f := fun s f => sbReply s f.device f) (fun _ _ => rfl) _ s
  | some e => exact foldl_cellView (fun s f => sendMgmt_cellView s e (fragBytes f)) _ s

/-! ### Commands that a module event ends (R369, R377, R378) -/

@[simp] theorem finish_cellView (s : State) (r : Nat) (rep : Reply) : cellView (finish s r rep) = cellView s := by
  unfold finish
  dsimp only
  repeat' split
  · rfl
  · exact fmReplyTo_cellView _ _ _ _
  · rfl
  · exact msix_cellView _ _ _
  · rfl

@[simp] theorem scramble_cellView (s : State) (p ofs n : Nat) : cellView (scramble s p ofs n) = cellView s := by
  unfold scramble
  split
  · rfl
  · exact modPane_cellView fun _ => ⟨rfl, rfl⟩

/-- R378: what an aborted command was writing is left undefined in the tiers, a window table or a job map. -/
@[simp] theorem leaveUndefined_cellView (s : State) (j : Job) : cellView (leaveUndefined s j) = cellView s := by
  have hnear : cellView (j.writing.foldl (fun s w => scramble s w.1 w.2.1 w.2.2) s) = cellView s :=
    foldl_cellView (fun _ _ => scramble_cellView ..) _ s
  refine Eq.trans ?_ hnear
  unfold leaveUndefined
  dsimp only
  repeat' split
  · rfl
  · rfl
  · exact modPane_cellView fun _ => ⟨rfl, rfl⟩
  · rfl
  · rfl
  · rfl

@[simp] theorem endNow_cellView (s : State) (r : Nat) (a : Ans) : cellView (endNow s r a) = cellView s := by
  unfold endNow
  split
  · rw [finish_cellView]
    show cellView (if _ then s else leaveUndefined s _) = _
    split
    · rfl
    · exact leaveUndefined_cellView s _
  · rfl

@[simp] theorem abortLocked_cellView (s : State) (mask : BitVec 16) (detail : Nat) (spare : Job → Bool) :
    cellView (abortLocked s mask detail spare) = cellView s := by
  refine foldl_cellView (fun s e => ?_) _ s
  split
  · exact endNow_cellView s _ _
  · rfl

@[simp] theorem endEscape_cellView (s : State) (a : Ans) : cellView (endEscape s a) = cellView s := by
  unfold endEscape
  dsimp only
  repeat' split
  · exact msix_cellView _ _ _
  · rfl
  · rfl

@[simp] theorem endEscapeIf_cellView (s : State) (f : Job → Bool) (a : Ans) :
    cellView (endEscapeIf s f a) = cellView s := by
  unfold endEscapeIf
  repeat' split
  · exact endEscape_cellView s a
  · rfl
  · rfl

@[simp] theorem abortForEvent_cellView (s : State) (p : Nat) : cellView (abortForEvent s p) = cellView s :=
  (endEscapeIf_cellView ..).trans (abortLocked_cellView ..)

/-! ### The fault itself -/

/-- R406: a context's first fault leaves the cells, and every `CTX_FAULT`, as taking the fault does. -/
theorem contextFault_cellView {s : State} {p : Nat} (hopen : (pane s p).state = .opened)
    (hfirst : (pane s p).ctxFault.fcode = 0) (fcode source lcell index addr : Nat) :
    cellView (contextFault s p fcode source lcell index addr) = cellView (setCtxFault s p fcode source lcell) := by
  simp [contextFault, hopen, hfirst]

/-- R406: a fault of a pane that is not open, or whose context has one, changes nothing. -/
theorem contextFault_of_later {s : State} {p fcode source lcell index addr : Nat}
    (h : ¬((pane s p).state = .opened ∧ (pane s p).ctxFault.fcode = 0)) :
    contextFault s p fcode source lcell index addr = s := by
  unfold contextFault
  exact if_pos (by simpa [imp_iff_not_or] using h)

@[simp] theorem setCtxFault_cell (s : State) (p fcode source lcell q l : Nat) :
    cell (setCtxFault s p fcode source lcell) q l = cell s q l := by
  have hsub : (pane (setCtxFault s p fcode source lcell) q).cellSub = (pane s q).cellSub := by
    unfold setCtxFault
    rw [pane_modPane]
    split
    next h => subst h; rfl
    next => rfl
  unfold cell physOf
  rw [hsub]
  rfl

/-- R406: a fault charged to a context changes no cell. -/
@[simp] theorem contextFault_cell (s : State) (p fcode source lcell index addr q l : Nat) :
    cell (contextFault s p fcode source lcell index addr) q l = cell s q l := by
  by_cases h : (pane s p).state = .opened ∧ (pane s p).ctxFault.fcode = 0
  · rw [cell_eq_of_cellView (contextFault_cellView h.1 h.2 ..), setCtxFault_cell]
  · rw [contextFault_of_later h]

/-- R406: the first fault of an open pane's context stands in its `CTX_FAULT`. -/
theorem contextFault_fcode {s : State} {p : Nat} (hopen : (pane s p).state = .opened)
    (hfirst : (pane s p).ctxFault.fcode = 0) (fcode source lcell index addr : Nat) :
    (pane (contextFault s p fcode source lcell index addr) p).ctxFault.fcode = BitVec.ofNat 8 fcode := by
  rw [ctxFault_eq_of_cellView (contextFault_cellView hopen hfirst ..), setCtxFault, pane_modPane_self]

/-- R52: a cell that raises a fault has stopped issue. -/
theorem cellFault_halted (s : State) (p l fcode index addr : Nat) :
    (cell (cellFault s p l fcode index addr) p l).halted = true := by
  unfold cellFault
  rw [contextFault_cell, cell_modCell_self]

/-- R406: the fault is charged to its pane's context, when it is the context's first. -/
theorem cellFault_fcode {s : State} {p : Nat} (hopen : (pane s p).state = .opened)
    (hfirst : (pane s p).ctxFault.fcode = 0) (l fcode index addr : Nat) :
    (pane (cellFault s p l fcode index addr) p).ctxFault.fcode = BitVec.ofNat 8 fcode :=
  contextFault_fcode (s := modCell s p l _) hopen hfirst ..

/-! ### Reserved class codes -/

/-- Table 03-3: the class codes from 0xC on name no instruction. -/
theorem namedBits_of_reservedClass {w : Nat} (h : 0xC ≤ wClass w) : namedBits w = none := by
  unfold namedBits
  split
  any_goals omega
  rfl

theorem opened_of_canIssue {s : State} {p l : Nat} (h : canIssue s p l = true) : (pane s p).state = .opened := by
  simp only [canIssue, cellRuns, Bool.and_eq_true, beq_iff_eq] at h
  obtain ⟨⟨⟨⟨-, hopen⟩, -⟩, -⟩, -⟩ := h
  exact hopen

end Sys2Proof.Machine

open Sys2Proof Sys2Proof.Machine

/-- Settles O15: a word of a reserved class is of the command's row and is not legal, so it faults as it issues. -/
theorem reservedClassFaults : Obligations.ReservedClassFaults := by
  unfold Obligations.ReservedClassFaults
  intro s p c x hissue hclass
  have hnone : namedBits (issueWord x) = none := namedBits_of_reservedClass hclass
  have hrow : rowUnlisted (issueWord x) = true := by simp [rowUnlisted, hnone]
  have hillegal : wordLegal (issueWord x) = false := by simp [wordLegal, hnone]
  exact ⟨congrArg _ (issueWith_illegal hissue hrow hillegal), cellFault_halted .., fun hfirst =>
    cellFault_fcode (opened_of_canIssue hissue) hfirst ..⟩

end

section
/-! PROOFS. The Coherent Control Region (R218 to R221): its lines and copies after an update, what a grant, the serving of
the waiting requests and the answers of the caches make of a line, and that each of them keeps the line coherent. -/

namespace Sys2Proof.Machine

/-! ### Tables in canonical form -/

theorem lt_of_mem {β : Type} [DecidableEq β] {d : β} {t : Tbl β} {lo : Nat} {e : Nat × β}
    (h : tblWfFrom d (some lo) t = true) (he : e ∈ t) : lo < e.1 := by
  induction t generalizing lo with
  | nil => simp at he
  | cons x r ih =>
    obtain ⟨k, w⟩ := x
    simp only [tblWfFrom, Bool.and_eq_true, decide_eq_true_eq] at h
    rcases List.mem_cons.mp he with rfl | he
    · exact h.1.1
    · exact h.1.1.trans (ih h.2 he)

/-- A table in canonical form lists what it holds beside the default, once. -/
theorem mem_iff_tblGet {β : Type} [DecidableEq β] {d : β} {t : Tbl β} (h : tblWf d t = true) (k : Nat) (v : β) :
    (k, v) ∈ t ↔ tblGet d t k = v ∧ v ≠ d := by
  have key : ∀ (lo : Option Nat) (t : Tbl β), tblWfFrom d lo t = true → ((k, v) ∈ t ↔ tblGet d t k = v ∧ v ≠ d) := by
    intro lo t
    induction t generalizing lo with
    | nil => intro _; simp only [List.not_mem_nil, tblGet, false_iff]; rintro ⟨rfl, h⟩; exact h rfl
    | cons e r ih =>
      obtain ⟨a, w⟩ := e
      intro hw
      have hr : w ≠ d ∧ tblWfFrom d (some a) r = true := by
        cases lo <;> simp only [tblWfFrom, Bool.and_eq_true, decide_eq_true_eq] at hw
        · exact hw
        · exact ⟨hw.1.2, hw.2⟩
      by_cases ha : a = k
      · subst ha
        have hnot : (a, v) ∉ r := fun hm => absurd (lt_of_mem hr.2 hm) (by simp)
        simp only [List.mem_cons, Prod.mk.injEq, true_and, hnot, or_false, tblGet, if_true]
        exact ⟨fun h => ⟨h.symm, h ▸ hr.1⟩, fun h => h.1.symm⟩
      · simp only [List.mem_cons, Prod.mk.injEq, Ne.symm ha, false_and, false_or, tblGet, if_neg ha]
        exact ih _ hr.2
  exact key none t h

/-- Taking out entries by their key leaves the others as they are. -/
theorem tblGet_filter_key {β : Type} (d : β) (t : Tbl β) (p : Nat → Bool) (a : Nat) :
    tblGet d (t.filter fun e => p e.1) a = if p a = true then tblGet d t a else d := by
  induction t with
  | nil => simp [tblGet]
  | cons e r ih =>
    obtain ⟨k, v⟩ := e
    by_cases hk : p k = true
    · by_cases ha : k = a
      · subst ha; simp [hk, tblGet]
      · simp [hk, tblGet, ha, ih]
    · by_cases ha : k = a
      · subst ha; simp [hk, ih]
      · simp [hk, tblGet, ha, ih]

/-! ### Lines and copies after an update -/

theorem ccrLine_setLine {s : State} (h : tblWf lineZero s.ccr = true) (n k : Nat) (l : CcrLine) :
    ccrLine (setLine s n l) k = if k = n then l else ccrLine s k := tblGet_tblPut lineZero s.ccr n k l h

theorem ccrLine_setLine_self {s : State} (h : tblWf lineZero s.ccr = true) (n : Nat) (l : CcrLine) :
    ccrLine (setLine s n l) n = l := by rw [ccrLine_setLine h, if_pos rfl]

theorem setLine_ccr_wf {s : State} (h : tblWf lineZero s.ccr = true) (n : Nat) (l : CcrLine) :
    tblWf lineZero (setLine s n l).ccr = true := tblWf_tblPut lineZero s.ccr n l h

theorem copyOf_setCopy {l : CcrLine} (h : tblWf copyZero l.copies = true) (r a : Nat) (c : CcrCopy) :
    copyOf (setCopy l r c) a = if a = r then c else copyOf l a := tblGet_tblPut copyZero l.copies r a c h

theorem copyOf_setCopy_self {l : CcrLine} (h : tblWf copyZero l.copies = true) (r : Nat) (c : CcrCopy) :
    copyOf (setCopy l r c) r = c := by rw [copyOf_setCopy h, if_pos rfl]

theorem copyOf_setCopy_ne {l : CcrLine} (h : tblWf copyZero l.copies = true) {r a : Nat} (ha : a ≠ r) (c : CcrCopy) :
    copyOf (setCopy l r c) a = copyOf l a := by rw [copyOf_setCopy h, if_neg ha]

theorem setCopy_copies_wf {l : CcrLine} (h : tblWf copyZero l.copies = true) (r : Nat) (c : CcrCopy) :
    tblWf copyZero (setCopy l r c).copies = true := tblWf_tblPut copyZero l.copies r c h

@[simp] theorem setCopy_data (l : CcrLine) (r : Nat) (c : CcrCopy) : (setCopy l r c).data = l.data := rfl
@[simp] theorem setCopy_txn (l : CcrLine) (r : Nat) (c : CcrCopy) : (setCopy l r c).txn = l.txn := rfl
@[simp] theorem setCopy_waiting (l : CcrLine) (r : Nat) (c : CcrCopy) : (setCopy l r c).waiting = l.waiting := rfl

theorem ne_copyZero_of_state {c : CcrCopy} (h : c.state ≠ .i) : c ≠ copyZero := fun e => h (e ▸ rfl)

/-! ### Snoops and grants -/

/-- A copy that stands in the way of a request: any for ownership, a modified or exclusive one for a read (R220). -/
def StandsIn (q : CcrReq) (c : CcrCopy) : Prop :=
  if q.own then c.state ≠ .i else c.state = .m ∨ c.state = .e

theorem standsIn_own {q : CcrReq} {c : CcrCopy} (h : q.own = true) : StandsIn q c ↔ c.state ≠ .i := by
  simp [StandsIn, h]

theorem standsIn_read {q : CcrReq} {c : CcrCopy} (h : q.own = false) :
    StandsIn q c ↔ c.state = .m ∨ c.state = .e := by simp [StandsIn, h]

theorem state_ne_i_of_standsIn {q : CcrReq} {c : CcrCopy} (h : StandsIn q c) : c.state ≠ .i := by
  unfold StandsIn at h
  split at h
  · exact h
  · rcases h with h | h <;> rw [h] <;> decide

/-- The caches that a request has snooped are the others whose copy stands in its way. -/
theorem mem_snoopsOf {l : CcrLine} (h : tblWf copyZero l.copies = true) (q : CcrReq) (a : Nat) :
    a ∈ snoopsOf l q ↔ a ≠ q.requester ∧ StandsIn q (copyOf l a) := by
  have hstands : ∀ c : CcrCopy,
      (if q.own then c.state != .i else c.state == .m || c.state == .e) = true ↔ StandsIn q c := by
    intro c; unfold StandsIn; split <;> simp
  simp only [snoopsOf, List.mem_map, List.mem_filter, Bool.and_eq_true, bne_iff_ne, hstands]
  constructor
  · rintro ⟨⟨k, c⟩, ⟨hmem, hne, hin⟩, rfl⟩
    obtain ⟨hget, -⟩ := (mem_iff_tblGet h k c).mp hmem
    exact ⟨hne, (show copyOf l k = c from hget) ▸ hin⟩
  · rintro ⟨hne, hin⟩
    exact ⟨(a, copyOf l a),
      ⟨(mem_iff_tblGet h a _).mpr ⟨rfl, ne_copyZero_of_state (state_ne_i_of_standsIn hin)⟩, hne, hin⟩, rfl⟩

theorem snoopsOf_isEmpty {l : CcrLine} (h : tblWf copyZero l.copies = true) (q : CcrReq) :
    (snoopsOf l q).isEmpty = true ↔ ∀ a, a ≠ q.requester → ¬StandsIn q (copyOf l a) := by
  simp only [List.isEmpty_iff, List.eq_nil_iff_forall_not_mem, mem_snoopsOf h, not_and]

theorem shared_iff {l : CcrLine} (h : tblWf copyZero l.copies = true) (r : Nat) :
    (l.copies.any fun e => e.1 != r && e.2.state != .i) = true ↔ ∃ a, a ≠ r ∧ (copyOf l a).state ≠ .i := by
  simp only [List.any_eq_true, Bool.and_eq_true, bne_iff_ne]
  constructor
  · rintro ⟨⟨k, c⟩, hmem, hne, hi⟩
    obtain ⟨hget, -⟩ := (mem_iff_tblGet h k c).mp hmem
    exact ⟨k, hne, (show copyOf l k = c from hget) ▸ hi⟩
  · rintro ⟨a, hne, hi⟩
    exact ⟨(a, copyOf l a), (mem_iff_tblGet h a _).mpr ⟨rfl, ne_copyZero_of_state hi⟩, hne, hi⟩

theorem grantLine_uncached {l : CcrLine} {q : CcrReq} (h : q.requester = ccrUncached) :
    grantLine l q = { l with data := if q.own then storeLine l.data q.store else l.data } := by
  rw [grantLine, if_pos h]

theorem grantLine_own {l : CcrLine} {q : CcrReq} (h : q.requester ≠ ccrUncached) (ho : q.own = true) :
    grantLine l q = setCopy l q.requester
      { state := if q.store.isSome || (copyOf l q.requester).state = .m then .m else .e
        data := storeLine (if (copyOf l q.requester).state = .m then (copyOf l q.requester).data else l.data) q.store } := by
  rw [grantLine, if_neg h, if_pos ho]

theorem grantLine_held {l : CcrLine} {q : CcrReq} (h : q.requester ≠ ccrUncached) (ho : q.own = false)
    (hc : (copyOf l q.requester).state ≠ .i) : grantLine l q = l := by
  simp [grantLine, h, ho, hc]

theorem grantLine_read {l : CcrLine} {q : CcrReq} (h : q.requester ≠ ccrUncached) (ho : q.own = false)
    (hc : (copyOf l q.requester).state = .i) :
    grantLine l q = setCopy l q.requester
      { state := if l.copies.any fun e => e.1 != q.requester && e.2.state != .i then .s else .e, data := l.data } := by
  simp [grantLine, h, ho, hc]

@[simp] theorem grantLine_txn (l : CcrLine) (q : CcrReq) : (grantLine l q).txn = l.txn := by
  unfold grantLine; dsimp only; repeat' split
  all_goals rfl

@[simp] theorem grantLine_waiting (l : CcrLine) (q : CcrReq) : (grantLine l q).waiting = l.waiting := by
  unfold grantLine; dsimp only; repeat' split
  all_goals rfl

/-! ### Coherence of a line -/

/-- Coherence speaks of a line's data and copies alone. -/
theorem lineCoherent_congr {l k : CcrLine} (hd : k.data = l.data) (hc : k.copies = l.copies) (h : LineCoherent l) :
    LineCoherent k := by
  simpa only [LineCoherent, copyOf, hd, hc] using h

theorem lineCoherent_lineZero : LineCoherent lineZero :=
  ⟨rfl, rfl, fun _ _ _ h => absurd rfl h, fun _ h => by rcases h with h | h <;> cases h⟩

/-- A modified copy is the only one. -/
theorem others_invalid_of_modified {l : CcrLine} (h : LineCoherent l) {r : Nat} (hm : (copyOf l r).state = .m) {a : Nat}
    (ha : a ≠ r) : (copyOf l a).state = .i := by
  by_contra hi
  have := (h.2.2.1 a r ha hi (by rw [hm]; decide)).2
  rw [hm] at this
  cases this

/-- A line stays coherent when a cache's copy is replaced, if the other copies leave room for it and match the line's
data, old or new. -/
theorem lineCoherent_setCopy {l : CcrLine} {d : BitVec 512} {r : Nat} {c : CcrCopy} (h : LineCoherent l)
    (hr : r = ccrUncached → c.state = .i)
    (hothers : ∀ a, a ≠ r → (copyOf l a).state ≠ .i → c.state ≠ .i → (copyOf l a).state = .s ∧ c.state = .s)
    (hdata : c.state = .s ∨ c.state = .e → c.data = d)
    (hhome : d ≠ l.data → ∀ a, a ≠ r → (copyOf l a).state = .i) :
    LineCoherent (setCopy { l with data := d } r c) := by
  obtain ⟨hwf, hun, hpair, hsame⟩ := h
  have hcopy (a : Nat) : copyOf (setCopy { l with data := d } r c) a = if a = r then c else copyOf l a :=
    copyOf_setCopy (l := { l with data := d }) hwf r a c
  refine ⟨setCopy_copies_wf (l := { l with data := d }) hwf r c, ?_, fun a b hab => ?_, fun a => ?_⟩
  · rw [hcopy]
    split
    next e => exact hr e.symm
    next => exact hun
  · rw [hcopy, hcopy]
    intro ha hb
    by_cases ea : a = r
    · have eb : b ≠ r := fun eb => hab (ea.trans eb.symm)
      rw [if_pos ea] at ha ⊢
      rw [if_neg eb] at hb ⊢
      exact (hothers b eb hb ha).symm
    · rw [if_neg ea] at ha ⊢
      by_cases eb : b = r
      · rw [if_pos eb] at hb ⊢
        exact hothers a ea ha hb
      · rw [if_neg eb] at hb ⊢
        exact hpair a b hab ha hb
  · rw [hcopy]
    intro ha
    show _ = d
    by_cases ea : a = r
    · rw [if_pos ea] at ha ⊢
      exact hdata ha
    · rw [if_neg ea] at ha ⊢
      by_cases hd : d = l.data
      · rw [hd]; exact hsame a ha
      · rw [hhome hd a ea] at ha
        rcases ha with ha | ha <;> cases ha

/-- A grant keeps a line coherent when no copy stands in the way of its request. -/
theorem lineCoherent_grantLine {l : CcrLine} {q : CcrReq} (h : LineCoherent l)
    (hfree : ∀ a, a ≠ q.requester → ¬StandsIn q (copyOf l a)) : LineCoherent (grantLine l q) := by
  by_cases hun : q.requester = ccrUncached
  · rw [grantLine_uncached hun]
    by_cases ho : q.own = true
    · obtain ⟨hwf, hnone, hpair, -⟩ := h
      refine ⟨hwf, hnone, hpair, fun a ha => ?_⟩
      have hi : (copyOf l a).state = .i := by
        by_cases e : a = q.requester
        · rw [e, hun]; exact hnone
        · simpa [standsIn_own ho] using hfree a e
      rcases ha with ha | ha <;> exact absurd (hi.symm.trans ha) (by decide)
    · simpa [ho] using h
  · cases ho : q.own
    · by_cases hc : (copyOf l q.requester).state = .i
      · rw [grantLine_read hun ho hc]
        refine lineCoherent_setCopy h (fun e => absurd e hun) (fun a ha hai _ => ?_) (fun _ => rfl)
          (fun hd => absurd rfl hd)
        have hs : (copyOf l a).state = .s := by
          have := hfree a ha
          rw [standsIn_read ho] at this
          cases hst : (copyOf l a).state <;> simp_all
        exact ⟨hs, if_pos ((shared_iff h.1 _).mpr ⟨a, ha, hai⟩)⟩
      · rw [grantLine_held hun ho hc]; exact h
    · rw [grantLine_own hun ho]
      have hnone : ∀ a, a ≠ q.requester → (copyOf l a).state = .i := fun a ha => by
        simpa [standsIn_own ho] using hfree a ha
      refine lineCoherent_setCopy h (fun e => absurd e hun) (fun a ha hai => absurd (hnone a ha) hai) (fun hst => ?_)
        (fun hd => absurd rfl hd)
      have hclean : q.store = none ∧ (copyOf l q.requester).state ≠ .m := by
        by_cases hm : (q.store.isSome || decide ((copyOf l q.requester).state = .m)) = true
        · simp [hm] at hst
        · simpa using hm
      simp only [hclean.1, if_neg hclean.2, storeLine]

/-! ### Serving what waits -/

theorem serveLine_busy (fuel : Nat) {l : CcrLine} {t : CcrTxn} (h : l.txn = some t) : serveLine fuel l = l := by
  cases fuel with
  | zero => rfl
  | succ n => simp [serveLine, h]

theorem serveLine_idle (fuel : Nat) {l : CcrLine} (h : l.waiting = []) : serveLine fuel l = l := by
  cases fuel with
  | zero => rfl
  | succ n => unfold serveLine; rw [h]; cases l.txn <;> rfl

/-- The first request that waits is granted when no copy stands in its way, and the next is looked at. -/
theorem serveLine_grant {fuel : Nat} {l : CcrLine} {q : CcrReq} {r : List CcrReq} (ht : l.txn = none)
    (hw : l.waiting = q :: r) (hs : (snoopsOf l q).isEmpty = true) :
    serveLine (fuel + 1) l = serveLine fuel (grantLine { l with waiting := r } q) := by
  rw [serveLine, ht, hw]
  exact if_pos hs

/-- Otherwise a transaction opens that snoops those that do. -/
theorem serveLine_open {fuel : Nat} {l : CcrLine} {q : CcrReq} {r : List CcrReq} (ht : l.txn = none)
    (hw : l.waiting = q :: r) (hs : (snoopsOf l q).isEmpty = false) :
    serveLine (fuel + 1) l =
      { l with waiting := r, txn := some { req := q, snoops := snoopsOf l q, acks := [] } } := by
  rw [serveLine, ht, hw]
  exact if_neg (by simp [hs])

theorem lineServed_some {l : CcrLine} {t : CcrTxn} (h : l.txn = some t) :
    LineServed l ↔ ∀ a, a ≠ t.req.requester → StandsIn t.req (copyOf l a) → a ∈ t.snoops := by
  unfold LineServed
  rw [h]
  rfl

theorem lineServed_none {l : CcrLine} (h : l.txn = none) : LineServed l ↔ l.waiting = [] := by
  unfold LineServed
  rw [h]

theorem serveLine_keeps (fuel : Nat) {l : CcrLine} (h : LineCoherent l) (ht : l.txn = none)
    (hf : l.waiting.length ≤ fuel) : LineCoherent (serveLine fuel l) ∧ LineServed (serveLine fuel l) := by
  induction fuel generalizing l with
  | zero => exact ⟨h, (lineServed_none ht).mpr (List.eq_nil_of_length_eq_zero (Nat.le_zero.mp hf))⟩
  | succ n ih =>
    cases hw : l.waiting with
    | nil => rw [serveLine_idle _ hw]; exact ⟨h, (lineServed_none ht).mpr hw⟩
    | cons q r =>
      rw [hw, List.length_cons] at hf
      cases hs : (snoopsOf l q).isEmpty with
      | true =>
        rw [serveLine_grant ht hw hs]
        have hfree := (snoopsOf_isEmpty h.1 q).mp hs
        refine ih (lineCoherent_grantLine (lineCoherent_congr rfl rfl h) hfree) (by simpa using ht) ?_
        simpa using hf
      | false =>
        rw [serveLine_open ht hw hs]
        refine ⟨lineCoherent_congr rfl rfl h, (lineServed_some rfl).mpr fun a ha hin => ?_⟩
        exact (mem_snoopsOf h.1 q a).mpr ⟨ha, hin⟩

/-! ### The region -/

theorem ccrCoherent_setLine {s : State} (h : CcrCoherent s) (n : Nat) {l : CcrLine} (hl : LineCoherent l ∧ LineServed l) :
    CcrCoherent (setLine s n l) := by
  refine ⟨setLine_ccr_wf h.1 n l, fun k => ?_⟩
  rw [ccrLine_setLine h.1]
  split
  · exact hl
  · exact h.2 k

theorem ccrCoherent_of_ccr {s t : State} (h : CcrCoherent s) (e : t.ccr = s.ccr) : CcrCoherent t := by
  simpa only [CcrCoherent, ccrLine, e] using h

theorem ccrCoherent_of_nil {t : State} (e : t.ccr = []) : CcrCoherent t := by
  simp only [CcrCoherent, ccrLine, e]
  exact ⟨rfl, fun _ => ⟨lineCoherent_lineZero, (lineServed_none (l := lineZero) rfl).mpr rfl⟩⟩

/-- Lines zeroed by their number leave the region coherent. -/
theorem ccrCoherent_of_filter {s t : State} (h : CcrCoherent s) {p : Nat → Bool}
    (e : t.ccr = s.ccr.filter fun x => p x.1) : CcrCoherent t := by
  refine ⟨e ▸ tblWf_filter lineZero s.ccr _ h.1, fun n => ?_⟩
  have hl : ccrLine t n = if p n = true then ccrLine s n else lineZero := by
    rw [ccrLine, e, tblGet_filter_key]; rfl
  rw [hl]
  split
  · exact h.2 n
  · exact ⟨lineCoherent_lineZero, (lineServed_none (l := lineZero) rfl).mpr rfl⟩

/-! ### The region's own commands -/

theorem execCcrRequest_keeps {r : Fin 21} {n : BitVec 20} {own store} {s t : State} (h : CcrCoherent s)
    (e : execCcrRequest r n own store s = .next t) : CcrCoherent t := by
  unfold execCcrRequest at e
  split at e
  · cases e; exact h
  · cases e
    obtain ⟨hco, hse⟩ := h.2 n.toNat
    refine ccrCoherent_setLine h _ ?_
    cases ht : (ccrLine s n.toNat).txn with
    | none => exact serveLine_keeps _ (lineCoherent_congr rfl rfl hco) rfl le_rfl
    | some x =>
      rw [serveLine_busy _ (t := x) rfl]
      exact ⟨lineCoherent_congr rfl rfl hco, (lineServed_some (t := x) rfl).mpr ((lineServed_some ht).mp hse)⟩

theorem execCcrWriteback_keeps {r : Fin 21} {n : BitVec 20} {s t : State} (h : CcrCoherent s)
    (e : execCcrWriteback r n s = .next t) : CcrCoherent t := by
  unfold execCcrWriteback at e
  dsimp only at e
  split at e
  case isFalse => cases e; exact h
  case isTrue hm =>
    cases e
    obtain ⟨hco, hse⟩ := h.2 n.toNat
    refine ccrCoherent_setLine h _ ⟨lineCoherent_setCopy hco (fun _ => rfl) (fun _ _ _ hi => absurd rfl hi)
      (fun hst => by rcases hst with hst | hst <;> cases hst) 
      (fun _ _ ha => others_invalid_of_modified hco hm ha), ?_⟩
    cases ht : (ccrLine s n.toNat).txn with
    | none => exact (lineServed_none rfl).mpr ((lineServed_none ht).mp hse)
    | some x =>
      refine (lineServed_some (t := x) rfl).mpr fun a ha hin => (lineServed_some ht).mp hse a ha ?_
      rw [copyOf_setCopy] at hin
      · split at hin
        next => exact absurd rfl (state_ne_i_of_standsIn hin)
        next => exact hin
      · exact hco.1

theorem execCcrSnoop_keeps {r : Fin 21} {n : BitVec 20} {s t : State} (h : CcrCoherent s)
    (e : execCcrSnoop r n s = .next t) : CcrCoherent t := by
  unfold execCcrSnoop at e
  dsimp only at e
  obtain ⟨hco, hse⟩ := h.2 n.toNat
  split at e
  case h_2 => cases e; exact h
  case h_1 x ht =>
    split at e
    case isFalse => cases e; exact h
    case isTrue hr =>
      cases e
      refine ccrCoherent_setLine h _ ⟨?_, ?_⟩
      · refine lineCoherent_setCopy (l := { ccrLine s n.toNat with txn := _ }) (lineCoherent_congr rfl rfl hco)
          ?_ ?_ ?_ ?_
        · intro e
          have : (copyOf (ccrLine s n.toNat) r.val).state = .i := e ▸ hco.2.1
          rw [if_pos (by simp [this])]
          rfl
        · intro a ha hai hc
          split at hc
          · exact absurd rfl hc
          next hkeep =>
            rw [if_neg hkeep]
            have hci : (copyOf (ccrLine s n.toNat) r.val).state ≠ .i := fun e => hkeep (by simp [e])
            exact ⟨(hco.2.2.1 a r.val ha hai hci).1, rfl⟩
        · intro hst
          split at hst
          · rcases hst with hst | hst <;> cases hst
          next hkeep =>
            rw [if_neg hkeep]
            have hci : (copyOf (ccrLine s n.toNat) r.val).state ≠ .i := fun e => hkeep (by simp [e])
            split
            · rfl
            next hm =>
              refine hco.2.2.2 r.val ?_
              cases hs : (copyOf (ccrLine s n.toNat) r.val).state <;> simp_all
        · intro hd a ha
          split at hd
          next hm => exact others_invalid_of_modified hco hm ha
          next => exact absurd rfl hd
      · refine (lineServed_some rfl).mpr fun a ha hin => ?_
        rw [copyOf_setCopy] at hin
        · split at hin
          next =>
            split at hin
            · exact absurd rfl (state_ne_i_of_standsIn hin)
            next hkeep =>
              have hown : x.req.own = false := by
                cases ho : x.req.own
                · rfl
                · exact absurd (by simp [ho]) hkeep
              rw [standsIn_read hown] at hin
              rcases hin with hin | hin <;> cases hin
          next hne => exact List.mem_filter.mpr ⟨(lineServed_some ht).mp hse a ha hin, by simpa using hne⟩
        · exact hco.1

theorem execCcrSnoopAck_keeps {r : Fin 21} {n : BitVec 20} {s t : State} (h : CcrCoherent s)
    (e : execCcrSnoopAck r n s = .next t) : CcrCoherent t := by
  unfold execCcrSnoopAck at e
  dsimp only at e
  obtain ⟨hco, hse⟩ := h.2 n.toNat
  split at e
  case h_2 => cases e; exact h
  case h_1 x ht =>
    have hserved := (lineServed_some ht).mp hse
    repeat' split at e
    case isFalse => cases e; exact h
    case isTrue.isFalse =>
      cases e
      exact ccrCoherent_setLine h _ ⟨lineCoherent_congr rfl rfl hco, (lineServed_some (t := { x with acks := x.acks.filter (· != r.val) }) rfl).mpr hserved⟩
    case isTrue.isTrue hlast =>
      cases e
      simp only [Bool.and_eq_true, List.isEmpty_iff] at hlast
      have hfree : ∀ a, a ≠ x.req.requester → ¬StandsIn x.req (copyOf (ccrLine s n.toNat) a) := fun a ha hin => by
        have := hserved a ha hin
        rw [hlast.1] at this
        cases this
      exact ccrCoherent_setLine h _ (serveLine_keeps _
        (lineCoherent_grantLine (l := { ccrLine s n.toNat with txn := none }) (lineCoherent_congr rfl rfl hco) hfree)
        (by simp) le_rfl)

end Sys2Proof.Machine
end

section
/-! PROOFS. Every command keeps the Coherent Control Region coherent, and the queue of waiting commands as it is. -/

namespace Sys2Proof.Machine

/-- Every command keeps the region coherent: the region's own by the laws of the protocol; any other leaves the lines
alone, clears them all with the hub's memories, or zeroes those of one pane's windows. -/
theorem exec_keeps_ccrCoherent {i : Instr} {s t : State} (hs : CcrCoherent s) (h : exec i s = .next t) : CcrCoherent t := by
  have same (e : t.ccr = s.ccr) : CcrCoherent t := ccrCoherent_of_ccr hs e
  have cleared (e : t.ccr = s.ccr ∨ t.ccr = []) : CcrCoherent t := e.elim same ccrCoherent_of_nil
  have zeroed {p : Nat} (e : t.ccr = s.ccr ∨ t.ccr = s.ccr.filter fun x => x.1 / 128 != 128 + p) : CcrCoherent t :=
    e.elim same (ccrCoherent_of_filter (p := fun k => k / 128 != 128 + p) hs)
  cases i with
  | beatMarker => exact same (execBeatMarker_ccr (h := h) ..)
  | missingMarker => exact same (execMissingMarker_ccr (h := h) ..)
  | holdoverBeat => exact same (execHoldoverBeat_ccr (h := h) ..)
  | holdoverLimitReached => exact same (execHoldoverLimitReached_ccr (h := h) ..)
  | beatTrimWrite => exact same (execBeatTrimWrite_ccr (h := h) ..)
  | beatBoundary => exact same (execBeatBoundary_ccr (h := h) ..)
  | planEpochStart => exact same (execPlanEpochStart_ccr (h := h) ..)
  | stepBoundary => exact same (execStepBoundary_ccr (h := h) ..)
  | blockStart => exact same (execBlockStart_ccr (h := h) ..)
  | slackExpired => exact same (execSlackExpired_ccr (h := h) ..)
  | nop => exact same (execNop_ccr (h := h) ..)
  | loop => exact same (execLoop_ccr (h := h) ..)
  | endloop => exact same (execEndloop_ccr (h := h) ..)
  | skip => exact same (execSkip_ccr (h := h) ..)
  | pset => exact same (execPset_ccr (h := h) ..)
  | endBlock => exact same (execEndBlock_ccr (h := h) ..)
  | scalarAdd => exact same (execScalarAdd_ccr (h := h) ..)
  | scalarSubtract => exact same (execScalarSubtract_ccr (h := h) ..)
  | scalarAnd => exact same (execScalarAnd_ccr (h := h) ..)
  | scalarOr => exact same (execScalarOr_ccr (h := h) ..)
  | scalarXor => exact same (execScalarXor_ccr (h := h) ..)
  | scalarShiftLeft => exact same (execScalarShiftLeft_ccr (h := h) ..)
  | scalarShiftRightLogical => exact same (execScalarShiftRightLogical_ccr (h := h) ..)
  | scalarShiftRightArith => exact same (execScalarShiftRightArith_ccr (h := h) ..)
  | scalarMultiply => exact same (execScalarMultiply_ccr (h := h) ..)
  | scalarSetIfLessSigned => exact same (execScalarSetIfLessSigned_ccr (h := h) ..)
  | scalarSetIfLessUnsigned => exact same (execScalarSetIfLessUnsigned_ccr (h := h) ..)
  | scalarSetIfEqual => exact same (execScalarSetIfEqual_ccr (h := h) ..)
  | scalarMove => exact same (execScalarMove_ccr (h := h) ..)
  | scalarLoad => exact same (execScalarLoad_ccr (h := h) ..)
  | scalarStore => exact same (execScalarStore_ccr (h := h) ..)
  | tmm => exact same (execTmm_ccr (h := h) ..)
  | tmmComplete => exact same (execTmmComplete_ccr (h := h) ..)
  | tdrain => exact same (execTdrain_ccr (h := h) ..)
  | tdrainComplete => exact same (execTdrainComplete_ccr (h := h) ..)
  | vmemLoad => exact same (execVmemLoad_ccr (h := h) ..)
  | vmemStore => exact same (execVmemStore_ccr (h := h) ..)
  | stridedLoad => exact same (execStridedLoad_ccr (h := h) ..)
  | stridedStore => exact same (execStridedStore_ccr (h := h) ..)
  | localGather => exact same (execLocalGather_ccr (h := h) ..)
  | ldsplit => exact same (execLdsplit_ccr (h := h) ..)
  | stsplit => exact same (execStsplit_ccr (h := h) ..)
  | vopAdd => exact same (execVopAdd_ccr (h := h) ..)
  | vopSubtract => exact same (execVopSubtract_ccr (h := h) ..)
  | vopMultiply => exact same (execVopMultiply_ccr (h := h) ..)
  | fusedMultiplyAdd => exact same (execFusedMultiplyAdd_ccr (h := h) ..)
  | vopMinimum => exact same (execVopMinimum_ccr (h := h) ..)
  | vopMaximum => exact same (execVopMaximum_ccr (h := h) ..)
  | compareEqual => exact same (execCompareEqual_ccr (h := h) ..)
  | compareLess => exact same (execCompareLess_ccr (h := h) ..)
  | compareLessOrEqual => exact same (execCompareLessOrEqual_ccr (h := h) ..)
  | convert => exact same (execConvert_ccr (h := h) ..)
  | vopMove => exact same (execVopMove_ccr (h := h) ..)
  | exp2 => exact same (execExp2_ccr (h := h) ..)
  | log2 => exact same (execLog2_ccr (h := h) ..)
  | rcp => exact same (execRcp_ccr (h := h) ..)
  | rsqrt => exact same (execRsqrt_ccr (h := h) ..)
  | laneSum => exact same (execLaneSum_ccr (h := h) ..)
  | laneMaximum => exact same (execLaneMaximum_ccr (h := h) ..)
  | nearTierLoad => exact same (execNearTierLoad_ccr (h := h) ..)
  | nearTierStore => exact same (execNearTierStore_ccr (h := h) ..)
  | localMove => exact same (execLocalMove_ccr (h := h) ..)
  | exchange => exact same (execExchange_ccr (h := h) ..)
  | nearTierGather => exact same (execNearTierGather_ccr (h := h) ..)
  | dmaComplete => exact same (execDmaComplete_ccr (h := h) ..)
  | syncWait => exact same (execSyncWait_ccr (h := h) ..)
  | paneBarrier => exact same (execPaneBarrier_ccr (h := h) ..)
  | barrierComplete => exact same (execBarrierComplete_ccr (h := h) ..)
  | syncArrive => exact same (execSyncArrive_ccr (h := h) ..)
  | syncLatchWait => exact same (execSyncLatchWait_ccr (h := h) ..)
  | syncAcquire => exact same (execSyncAcquire_ccr (h := h) ..)
  | syncRelease => exact same (execSyncRelease_ccr (h := h) ..)
  | latchOpComplete => exact same (execLatchOpComplete_ccr (h := h) ..)
  | put => exact same (execPut_ccr (h := h) ..)
  | get => exact same (execGet_ccr (h := h) ..)
  | rmoAdd => exact same (execRmoAdd_ccr (h := h) ..)
  | swap => exact same (execSwap_ccr (h := h) ..)
  | compareSwap => exact same (execCompareSwap_ccr (h := h) ..)
  | rmoArrive => exact same (execRmoArrive_ccr (h := h) ..)
  | rmoWait => exact same (execRmoWait_ccr (h := h) ..)
  | rmoAcquire => exact same (execRmoAcquire_ccr (h := h) ..)
  | rmoRelease => exact same (execRmoRelease_ccr (h := h) ..)
  | rng => exact same (execRng_ccr (h := h) ..)
  | reservedClass => exact same (execReservedClass_ccr (h := h) ..)
  | issuePastProgram => exact same (execIssuePastProgram_ccr (h := h) ..)
  | requestMessageReceived => exact same (execRequestMessageReceived_ccr (h := h) ..)
  | responseMessageReceived => exact same (execResponseMessageReceived_ccr (h := h) ..)
  | refusalReceived => exact same (execRefusalReceived_ccr (h := h) ..)
  | rmoResend => exact same (execRmoResend_ccr (h := h) ..)
  | rmoTimeout => exact same (execRmoTimeout_ccr (h := h) ..)
  | syncWaitLimit => exact same (execSyncWaitLimit_ccr (h := h) ..)
  | windowRevokeDone => exact same (execWindowRevokeDone_ccr (h := h) ..)
  | ccrRequest => exact execCcrRequest_keeps hs h
  | ccrWriteback => exact execCcrWriteback_keeps hs h
  | ccrSnoop => exact execCcrSnoop_keeps hs h
  | slotTransmit => exact same (execSlotTransmit_ccr (h := h) ..)
  | sillTransmit => exact same (execSillTransmit_ccr (h := h) ..)
  | slotReceived => exact cleared (execSlotReceived_ccr (h := h) ..)
  | sillReceived => exact same (execSillReceived_ccr (h := h) ..)
  | laneSwitch => exact same (execLaneSwitch_ccr (h := h) ..)
  | replayTimeout => exact same (execReplayTimeout_ccr (h := h) ..)
  | presenceDetected => exact same (execPresenceDetected_ccr (h := h) ..)
  | equalizeDone => exact same (execEqualizeDone_ccr (h := h) ..)
  | alignDone => exact same (execAlignDone_ccr (h := h) ..)
  | negotiateDone => exact same (execNegotiateDone_ccr (h := h) ..)
  | trainingTimeout => exact same (execTrainingTimeout_ccr (h := h) ..)
  | trainingBackoffExpired => exact same (execTrainingBackoffExpired_ccr (h := h) ..)
  | chunkAdvance => exact same (execChunkAdvance_ccr (h := h) ..)
  | collectiveDone => exact same (execCollectiveDone_ccr (h := h) ..)
  | gridBeat => exact same (execGridBeat_ccr (h := h) ..)
  | abortStop => exact same (execAbortStop_ccr (h := h) ..)
  | abortEntryExpiry => exact same (execAbortEntryExpiry_ccr (h := h) ..)
  | nearReadRetry => exact same (execNearReadRetry_ccr (h := h) ..)
  | spareTakeoverDone => exact same (execSpareTakeoverDone_ccr (h := h) ..)
  | refreshShadow p q => exact same (execRefreshShadow_ccr p q s t h)
  | scrubBurst => exact same (execScrubBurst_ccr (h := h) ..)
  | pcCopyDone => exact same (execPcCopyDone_ccr (h := h) ..)
  | extentStart => exact same (execExtentStart_ccr (h := h) ..)
  | extentDone => exact same (execExtentDone_ccr (h := h) ..)
  | journalDurable => exact same (execJournalDurable_ccr (h := h) ..)
  | mapCheckpoint => exact same (execMapCheckpoint_ccr (h := h) ..)
  | gcVictim => exact same (execGcVictim_ccr (h := h) ..)
  | gcErase => exact same (execGcErase_ccr (h := h) ..)
  | wearLevel => exact same (execWearLevel_ccr (h := h) ..)
  | readRecalibration => exact same (execReadRecalibration_ccr (h := h) ..)
  | farReadRetry => exact same (execFarReadRetry_ccr (h := h) ..)
  | programFailed => exact same (execProgramFailed_ccr (h := h) ..)
  | holdupMeasure => exact same (execHoldupMeasure_ccr (h := h) ..)
  | recover => exact same (execRecover_ccr (h := h) ..)
  | inputPowerLoss => exact cleared (execInputPowerLoss_ccr (h := h) ..)
  | bankCharged => exact same (execBankCharged_ccr (h := h) ..)
  | hello => exact cleared (execHello_ccr (h := h) ..)
  | ctxCreate => exact cleared (execCtxCreate_ccr (h := h) ..)
  | ctxTeardown => exact cleared (execCtxTeardown_ccr (h := h) ..)
  | groupBind => exact cleared (execGroupBind_ccr (h := h) ..)
  | ctxReset => exact cleared (execCtxReset_ccr (h := h) ..)
  | engineReset => exact cleared (execEngineReset_ccr (h := h) ..)
  | paneReset => exact cleared (execPaneReset_ccr (h := h) ..)
  | moduleReset => exact cleared (execModuleReset_ccr (h := h) ..)
  | slotAlloc => exact cleared (execSlotAlloc_ccr (h := h) ..)
  | streamShare => exact cleared (execStreamShare_ccr (h := h) ..)
  | farQuota => exact cleared (execFarQuota_ccr (h := h) ..)
  | latchAlloc => exact cleared (execLatchAlloc_ccr (h := h) ..)
  | jobMapLoad => exact cleared (execJobMapLoad_ccr (h := h) ..)
  | coordLoad => exact cleared (execCoordLoad_ccr (h := h) ..)
  | identitySet => exact cleared (execIdentitySet_ccr (h := h) ..)
  | planLoad => exact cleared (execPlanLoad_ccr (h := h) ..)
  | planStart => exact cleared (execPlanStart_ccr (h := h) ..)
  | planStop => exact cleared (execPlanStop_ccr (h := h) ..)
  | windowGrant => exact cleared (execWindowGrant_ccr (h := h) ..)
  | windowRevoke => exact cleared (execWindowRevoke_ccr (h := h) ..)
  | sealKey => exact cleared (execSealKey_ccr (h := h) ..)
  | latchOrphan => exact cleared (execLatchOrphan_ccr (h := h) ..)
  | swapIn => exact cleared (execSwapIn_ccr (h := h) ..)
  | swapOut => exact cleared (execSwapOut_ccr (h := h) ..)
  | shardFetch => exact cleared (execShardFetch_ccr (h := h) ..)
  | shardFetchTimeout => exact same (execShardFetchTimeout_ccr (h := h) ..)
  | buddySet => exact cleared (execBuddySet_ccr (h := h) ..)
  | stormNow => exact cleared (execStormNow_ccr (h := h) ..)
  | drainSet => exact cleared (execDrainSet_ccr (h := h) ..)
  | restore => exact cleared (execRestore_ccr (h := h) ..)
  | restoreTimeout => exact same (execRestoreTimeout_ccr (h := h) ..)
  | modeSetPowerCap => exact cleared (execModeSetPowerCap_ccr (h := h) ..)
  | modeSetSlotSplit => exact cleared (execModeSetSlotSplit_ccr (h := h) ..)
  | modeSetHoldoverLimit => exact cleared (execModeSetHoldoverLimit_ccr (h := h) ..)
  | modeSetCheckValueMode => exact cleared (execModeSetCheckValueMode_ccr (h := h) ..)
  | modeSetCheckValuePoly => exact cleared (execModeSetCheckValuePoly_ccr (h := h) ..)
  | modeSetFarTierWrites => exact cleared (execModeSetFarTierWrites_ccr (h := h) ..)
  | modeSetExactBf16 => exact cleared (execModeSetExactBf16_ccr (h := h) ..)
  | modeSetSealedFrames => exact cleared (execModeSetSealedFrames_ccr (h := h) ..)
  | modeSetStormInterval => exact cleared (execModeSetStormInterval_ccr (h := h) ..)
  | modeSetDrainInterval => exact cleared (execModeSetDrainInterval_ccr (h := h) ..)
  | modeGet => exact cleared (execModeGet_ccr (h := h) ..)
  | selfTest => exact cleared (execSelfTest_ccr (h := h) ..)
  | shutdown => exact cleared (execShutdown_ccr (h := h) ..)
  | meterRead => exact cleared (execMeterRead_ccr (h := h) ..)
  | meterIdent => exact cleared (execMeterIdent_ccr (h := h) ..)
  | eventFreeze => exact cleared (execEventFreeze_ccr (h := h) ..)
  | eventRead => exact cleared (execEventRead_ccr (h := h) ..)
  | eventThaw => exact cleared (execEventThaw_ccr (h := h) ..)
  | escape => exact cleared (execEscape_ccr (h := h) ..)
  | commandStart => exact cleared (execCommandStart_ccr (h := h) ..)
  | commandReply => exact same (execCommandReply_ccr (h := h) ..)
  | commandOverrun => exact same (execCommandOverrun_ccr (h := h) ..)
  | teardownBegin => exact same (execTeardownBegin_ccr (h := h) ..)
  | writersStopped => exact zeroed (execWritersStopped_ccr (h := h) ..)
  | shutterComplete => exact same (execShutterComplete_ccr (h := h) ..)
  | ctxResetEnd => exact same (execCtxResetEnd_ccr (h := h) ..)
  | snapshotDone => exact same (execSnapshotDone_ccr (h := h) ..)
  | stormFrameReceived => exact same (execStormFrameReceived_ccr (h := h) ..)
  | stormAckReceived => exact same (execStormAckReceived_ccr (h := h) ..)
  | copyAbandonTimeout => exact same (execCopyAbandonTimeout_ccr (h := h) ..)
  | drainStaged => exact same (execDrainStaged_ccr (h := h) ..)
  | storeGrantReceived => exact same (execStoreGrantReceived_ccr (h := h) ..)
  | rdmaWritesComplete => exact same (execRdmaWritesComplete_ccr (h := h) ..)
  | rdmaReadsComplete => exact same (execRdmaReadsComplete_ccr (h := h) ..)
  | storeDoneReceived => exact same (execStoreDoneReceived_ccr (h := h) ..)
  | storeRefuseReceived => exact same (execStoreRefuseReceived_ccr (h := h) ..)
  | storeRetryExpiry => exact same (execStoreRetryExpiry_ccr (h := h) ..)
  | storeConnectionLost => exact same (execStoreConnectionLost_ccr (h := h) ..)
  | subwindowRollover => exact same (execSubwindowRollover_ccr (h := h) ..)
  | hubWatchdogExpiry => exact cleared (execHubWatchdogExpiry_ccr (h := h) ..)
  | engineFault => exact same (execEngineFault_ccr (h := h) ..)
  | paneHardwareFault => exact same (execPaneHardwareFault_ccr (h := h) ..)
  | hubFault => exact cleared (execHubFault_ccr (h := h) ..)
  | resetEscalation => exact cleared (execResetEscalation_ccr (h := h) ..)
  | testStart => exact same (execTestStart_ccr (h := h) ..)
  | testPhaseDone => exact same (execTestPhaseDone_ccr (h := h) ..)
  | hubTestDone => exact same (execHubTestDone_ccr (h := h) ..)
  | meterIntervalBoundary => exact same (execMeterIntervalBoundary_ccr (h := h) ..)
  | meterRecordRetry => exact same (execMeterRecordRetry_ccr (h := h) ..)
  | debugPadsEnabled => exact same (execDebugPadsEnabled_ccr (h := h) ..)
  | meterUpdatePackage => exact same (execMeterUpdatePackage_ccr (h := h) ..)
  | islandStart => exact same (execIslandStart_ccr (h := h) ..)
  | eventDelivery => exact same (execEventDelivery_ccr (h := h) ..)
  | eventAccept => exact same (execEventAccept_ccr (h := h) ..)
  | suppressedSummary => exact same (execSuppressedSummary_ccr (h := h) ..)
  | spillDone => exact same (execSpillDone_ccr (h := h) ..)
  | pwrEnAssert => exact same (execPwrEnAssert_ccr (h := h) ..)
  | pwrEnDeassert => exact cleared (execPwrEnDeassert_ccr (h := h) ..)
  | resetNRise => exact same (execResetNRise_ccr (h := h) ..)
  | resetNPulse => exact cleared (execResetNPulse_ccr (h := h) ..)
  | doorkeeperReady => exact same (execDoorkeeperReady_ccr (h := h) ..)
  | paneBringupDone => exact same (execPaneBringupDone_ccr (h := h) ..)
  | thermalThreshold => exact same (execThermalThreshold_ccr (h := h) ..)
  | thermalClear => exact same (execThermalClear_ccr (h := h) ..)
  | capEffecterSet => exact same (execCapEffecterSet_ccr (h := h) ..)
  | vfFlr => exact same (execVfFlr_ccr (h := h) ..)
  | pfFlr => exact same (execPfFlr_ccr (h := h) ..)
  | vfEnableChange => exact same (execVfEnableChange_ccr (h := h) ..)
  | atsInvalidation => exact same (execAtsInvalidation_ccr (h := h) ..)
  | wideRegisterRead => exact same (execWideRegisterRead_ccr (h := h) ..)
  | registerWrite => exact cleared (execRegisterWrite_ccr (h := h) ..)
  | sbRegisterRead => exact same (execSbRegisterRead_ccr (h := h) ..)
  | sbRegisterWrite => exact same (execSbRegisterWrite_ccr (h := h) ..)
  | sbMeterIdent => exact same (execSbMeterIdent_ccr (h := h) ..)
  | fmRequestFragment => exact cleared (execFmRequestFragment_ccr (h := h) ..)
  | fmFragmentReceived => exact cleared (execFmFragmentReceived_ccr (h := h) ..)
  | fmReceiptRepeat => exact same (execFmReceiptRepeat_ccr (h := h) ..)
  | fmUnreachableTimeout => exact same (execFmUnreachableTimeout_ccr (h := h) ..)
  | blockEraseComplete => exact same (execBlockEraseComplete_ccr (h := h) ..)
  | pageProgramComplete => exact same (execPageProgramComplete_ccr (h := h) ..)
  | ccrSnoopAck => exact execCcrSnoopAck_keeps hs h
  | ethernetUncorrectableCodeword => exact same (execEthernetUncorrectableCodeword_ccr (h := h) ..)
  | portRetrainingOrder => exact same (execPortRetrainingOrder_ccr (h := h) ..)
  | pldmFirmwareUpdate => exact same (execPldmFirmwareUpdate_ccr (h := h) ..)

/-- No command changes the queue. -/
theorem exec_pending {i : Instr} {s t : State} (h : exec i s = .next t) : t.pending = s.pending := by
  cases i with
  | beatMarker => exact execBeatMarker_pending (h := h) ..
  | missingMarker => exact execMissingMarker_pending (h := h) ..
  | holdoverBeat => exact execHoldoverBeat_pending (h := h) ..
  | holdoverLimitReached => exact execHoldoverLimitReached_pending (h := h) ..
  | beatTrimWrite => exact execBeatTrimWrite_pending (h := h) ..
  | beatBoundary => exact execBeatBoundary_pending (h := h) ..
  | planEpochStart => exact execPlanEpochStart_pending (h := h) ..
  | stepBoundary => exact execStepBoundary_pending (h := h) ..
  | blockStart => exact execBlockStart_pending (h := h) ..
  | slackExpired => exact execSlackExpired_pending (h := h) ..
  | nop => exact execNop_pending (h := h) ..
  | loop => exact execLoop_pending (h := h) ..
  | endloop => exact execEndloop_pending (h := h) ..
  | skip => exact execSkip_pending (h := h) ..
  | pset => exact execPset_pending (h := h) ..
  | endBlock => exact execEndBlock_pending (h := h) ..
  | scalarAdd => exact execScalarAdd_pending (h := h) ..
  | scalarSubtract => exact execScalarSubtract_pending (h := h) ..
  | scalarAnd => exact execScalarAnd_pending (h := h) ..
  | scalarOr => exact execScalarOr_pending (h := h) ..
  | scalarXor => exact execScalarXor_pending (h := h) ..
  | scalarShiftLeft => exact execScalarShiftLeft_pending (h := h) ..
  | scalarShiftRightLogical => exact execScalarShiftRightLogical_pending (h := h) ..
  | scalarShiftRightArith => exact execScalarShiftRightArith_pending (h := h) ..
  | scalarMultiply => exact execScalarMultiply_pending (h := h) ..
  | scalarSetIfLessSigned => exact execScalarSetIfLessSigned_pending (h := h) ..
  | scalarSetIfLessUnsigned => exact execScalarSetIfLessUnsigned_pending (h := h) ..
  | scalarSetIfEqual => exact execScalarSetIfEqual_pending (h := h) ..
  | scalarMove => exact execScalarMove_pending (h := h) ..
  | scalarLoad => exact execScalarLoad_pending (h := h) ..
  | scalarStore => exact execScalarStore_pending (h := h) ..
  | tmm => exact execTmm_pending (h := h) ..
  | tmmComplete => exact execTmmComplete_pending (h := h) ..
  | tdrain => exact execTdrain_pending (h := h) ..
  | tdrainComplete => exact execTdrainComplete_pending (h := h) ..
  | vmemLoad => exact execVmemLoad_pending (h := h) ..
  | vmemStore => exact execVmemStore_pending (h := h) ..
  | stridedLoad => exact execStridedLoad_pending (h := h) ..
  | stridedStore => exact execStridedStore_pending (h := h) ..
  | localGather => exact execLocalGather_pending (h := h) ..
  | ldsplit => exact execLdsplit_pending (h := h) ..
  | stsplit => exact execStsplit_pending (h := h) ..
  | vopAdd => exact execVopAdd_pending (h := h) ..
  | vopSubtract => exact execVopSubtract_pending (h := h) ..
  | vopMultiply => exact execVopMultiply_pending (h := h) ..
  | fusedMultiplyAdd => exact execFusedMultiplyAdd_pending (h := h) ..
  | vopMinimum => exact execVopMinimum_pending (h := h) ..
  | vopMaximum => exact execVopMaximum_pending (h := h) ..
  | compareEqual => exact execCompareEqual_pending (h := h) ..
  | compareLess => exact execCompareLess_pending (h := h) ..
  | compareLessOrEqual => exact execCompareLessOrEqual_pending (h := h) ..
  | convert => exact execConvert_pending (h := h) ..
  | vopMove => exact execVopMove_pending (h := h) ..
  | exp2 => exact execExp2_pending (h := h) ..
  | log2 => exact execLog2_pending (h := h) ..
  | rcp => exact execRcp_pending (h := h) ..
  | rsqrt => exact execRsqrt_pending (h := h) ..
  | laneSum => exact execLaneSum_pending (h := h) ..
  | laneMaximum => exact execLaneMaximum_pending (h := h) ..
  | nearTierLoad => exact execNearTierLoad_pending (h := h) ..
  | nearTierStore => exact execNearTierStore_pending (h := h) ..
  | localMove => exact execLocalMove_pending (h := h) ..
  | exchange => exact execExchange_pending (h := h) ..
  | nearTierGather => exact execNearTierGather_pending (h := h) ..
  | dmaComplete => exact execDmaComplete_pending (h := h) ..
  | syncWait => exact execSyncWait_pending (h := h) ..
  | paneBarrier => exact execPaneBarrier_pending (h := h) ..
  | barrierComplete => exact execBarrierComplete_pending (h := h) ..
  | syncArrive => exact execSyncArrive_pending (h := h) ..
  | syncLatchWait => exact execSyncLatchWait_pending (h := h) ..
  | syncAcquire => exact execSyncAcquire_pending (h := h) ..
  | syncRelease => exact execSyncRelease_pending (h := h) ..
  | latchOpComplete => exact execLatchOpComplete_pending (h := h) ..
  | put => exact execPut_pending (h := h) ..
  | get => exact execGet_pending (h := h) ..
  | rmoAdd => exact execRmoAdd_pending (h := h) ..
  | swap => exact execSwap_pending (h := h) ..
  | compareSwap => exact execCompareSwap_pending (h := h) ..
  | rmoArrive => exact execRmoArrive_pending (h := h) ..
  | rmoWait => exact execRmoWait_pending (h := h) ..
  | rmoAcquire => exact execRmoAcquire_pending (h := h) ..
  | rmoRelease => exact execRmoRelease_pending (h := h) ..
  | rng => exact execRng_pending (h := h) ..
  | reservedClass => exact execReservedClass_pending (h := h) ..
  | issuePastProgram => exact execIssuePastProgram_pending (h := h) ..
  | requestMessageReceived => exact execRequestMessageReceived_pending (h := h) ..
  | responseMessageReceived => exact execResponseMessageReceived_pending (h := h) ..
  | refusalReceived => exact execRefusalReceived_pending (h := h) ..
  | rmoResend => exact execRmoResend_pending (h := h) ..
  | rmoTimeout => exact execRmoTimeout_pending (h := h) ..
  | syncWaitLimit => exact execSyncWaitLimit_pending (h := h) ..
  | windowRevokeDone => exact execWindowRevokeDone_pending (h := h) ..
  | ccrRequest => exact execCcrRequest_pending (h := h) ..
  | ccrWriteback => exact execCcrWriteback_pending (h := h) ..
  | ccrSnoop => exact execCcrSnoop_pending (h := h) ..
  | slotTransmit => exact execSlotTransmit_pending (h := h) ..
  | sillTransmit => exact execSillTransmit_pending (h := h) ..
  | slotReceived => exact execSlotReceived_pending (h := h) ..
  | sillReceived => exact execSillReceived_pending (h := h) ..
  | laneSwitch => exact execLaneSwitch_pending (h := h) ..
  | replayTimeout => exact execReplayTimeout_pending (h := h) ..
  | presenceDetected => exact execPresenceDetected_pending (h := h) ..
  | equalizeDone => exact execEqualizeDone_pending (h := h) ..
  | alignDone => exact execAlignDone_pending (h := h) ..
  | negotiateDone => exact execNegotiateDone_pending (h := h) ..
  | trainingTimeout => exact execTrainingTimeout_pending (h := h) ..
  | trainingBackoffExpired => exact execTrainingBackoffExpired_pending (h := h) ..
  | chunkAdvance => exact execChunkAdvance_pending (h := h) ..
  | collectiveDone => exact execCollectiveDone_pending (h := h) ..
  | gridBeat => exact execGridBeat_pending (h := h) ..
  | abortStop => exact execAbortStop_pending (h := h) ..
  | abortEntryExpiry => exact execAbortEntryExpiry_pending (h := h) ..
  | nearReadRetry => exact execNearReadRetry_pending (h := h) ..
  | spareTakeoverDone => exact execSpareTakeoverDone_pending (h := h) ..
  | refreshShadow p q => exact execRefreshShadow_pending p q s t h
  | scrubBurst => exact execScrubBurst_pending (h := h) ..
  | pcCopyDone => exact execPcCopyDone_pending (h := h) ..
  | extentStart => exact execExtentStart_pending (h := h) ..
  | extentDone => exact execExtentDone_pending (h := h) ..
  | journalDurable => exact execJournalDurable_pending (h := h) ..
  | mapCheckpoint => exact execMapCheckpoint_pending (h := h) ..
  | gcVictim => exact execGcVictim_pending (h := h) ..
  | gcErase => exact execGcErase_pending (h := h) ..
  | wearLevel => exact execWearLevel_pending (h := h) ..
  | readRecalibration => exact execReadRecalibration_pending (h := h) ..
  | farReadRetry => exact execFarReadRetry_pending (h := h) ..
  | programFailed => exact execProgramFailed_pending (h := h) ..
  | holdupMeasure => exact execHoldupMeasure_pending (h := h) ..
  | recover => exact execRecover_pending (h := h) ..
  | inputPowerLoss => exact execInputPowerLoss_pending (h := h) ..
  | bankCharged => exact execBankCharged_pending (h := h) ..
  | hello => exact execHello_pending (h := h) ..
  | ctxCreate => exact execCtxCreate_pending (h := h) ..
  | ctxTeardown => exact execCtxTeardown_pending (h := h) ..
  | groupBind => exact execGroupBind_pending (h := h) ..
  | ctxReset => exact execCtxReset_pending (h := h) ..
  | engineReset => exact execEngineReset_pending (h := h) ..
  | paneReset => exact execPaneReset_pending (h := h) ..
  | moduleReset => exact execModuleReset_pending (h := h) ..
  | slotAlloc => exact execSlotAlloc_pending (h := h) ..
  | streamShare => exact execStreamShare_pending (h := h) ..
  | farQuota => exact execFarQuota_pending (h := h) ..
  | latchAlloc => exact execLatchAlloc_pending (h := h) ..
  | jobMapLoad => exact execJobMapLoad_pending (h := h) ..
  | coordLoad => exact execCoordLoad_pending (h := h) ..
  | identitySet => exact execIdentitySet_pending (h := h) ..
  | planLoad => exact execPlanLoad_pending (h := h) ..
  | planStart => exact execPlanStart_pending (h := h) ..
  | planStop => exact execPlanStop_pending (h := h) ..
  | windowGrant => exact execWindowGrant_pending (h := h) ..
  | windowRevoke => exact execWindowRevoke_pending (h := h) ..
  | sealKey => exact execSealKey_pending (h := h) ..
  | latchOrphan => exact execLatchOrphan_pending (h := h) ..
  | swapIn => exact execSwapIn_pending (h := h) ..
  | swapOut => exact execSwapOut_pending (h := h) ..
  | shardFetch => exact execShardFetch_pending (h := h) ..
  | shardFetchTimeout => exact execShardFetchTimeout_pending (h := h) ..
  | buddySet => exact execBuddySet_pending (h := h) ..
  | stormNow => exact execStormNow_pending (h := h) ..
  | drainSet => exact execDrainSet_pending (h := h) ..
  | restore => exact execRestore_pending (h := h) ..
  | restoreTimeout => exact execRestoreTimeout_pending (h := h) ..
  | modeSetPowerCap => exact execModeSetPowerCap_pending (h := h) ..
  | modeSetSlotSplit => exact execModeSetSlotSplit_pending (h := h) ..
  | modeSetHoldoverLimit => exact execModeSetHoldoverLimit_pending (h := h) ..
  | modeSetCheckValueMode => exact execModeSetCheckValueMode_pending (h := h) ..
  | modeSetCheckValuePoly => exact execModeSetCheckValuePoly_pending (h := h) ..
  | modeSetFarTierWrites => exact execModeSetFarTierWrites_pending (h := h) ..
  | modeSetExactBf16 => exact execModeSetExactBf16_pending (h := h) ..
  | modeSetSealedFrames => exact execModeSetSealedFrames_pending (h := h) ..
  | modeSetStormInterval => exact execModeSetStormInterval_pending (h := h) ..
  | modeSetDrainInterval => exact execModeSetDrainInterval_pending (h := h) ..
  | modeGet => exact execModeGet_pending (h := h) ..
  | selfTest => exact execSelfTest_pending (h := h) ..
  | shutdown => exact execShutdown_pending (h := h) ..
  | meterRead => exact execMeterRead_pending (h := h) ..
  | meterIdent => exact execMeterIdent_pending (h := h) ..
  | eventFreeze => exact execEventFreeze_pending (h := h) ..
  | eventRead => exact execEventRead_pending (h := h) ..
  | eventThaw => exact execEventThaw_pending (h := h) ..
  | escape => exact execEscape_pending (h := h) ..
  | commandStart => exact execCommandStart_pending (h := h) ..
  | commandReply => exact execCommandReply_pending (h := h) ..
  | commandOverrun => exact execCommandOverrun_pending (h := h) ..
  | teardownBegin => exact execTeardownBegin_pending (h := h) ..
  | writersStopped => exact execWritersStopped_pending (h := h) ..
  | shutterComplete => exact execShutterComplete_pending (h := h) ..
  | ctxResetEnd => exact execCtxResetEnd_pending (h := h) ..
  | snapshotDone => exact execSnapshotDone_pending (h := h) ..
  | stormFrameReceived => exact execStormFrameReceived_pending (h := h) ..
  | stormAckReceived => exact execStormAckReceived_pending (h := h) ..
  | copyAbandonTimeout => exact execCopyAbandonTimeout_pending (h := h) ..
  | drainStaged => exact execDrainStaged_pending (h := h) ..
  | storeGrantReceived => exact execStoreGrantReceived_pending (h := h) ..
  | rdmaWritesComplete => exact execRdmaWritesComplete_pending (h := h) ..
  | rdmaReadsComplete => exact execRdmaReadsComplete_pending (h := h) ..
  | storeDoneReceived => exact execStoreDoneReceived_pending (h := h) ..
  | storeRefuseReceived => exact execStoreRefuseReceived_pending (h := h) ..
  | storeRetryExpiry => exact execStoreRetryExpiry_pending (h := h) ..
  | storeConnectionLost => exact execStoreConnectionLost_pending (h := h) ..
  | subwindowRollover => exact execSubwindowRollover_pending (h := h) ..
  | hubWatchdogExpiry => exact execHubWatchdogExpiry_pending (h := h) ..
  | engineFault => exact execEngineFault_pending (h := h) ..
  | paneHardwareFault => exact execPaneHardwareFault_pending (h := h) ..
  | hubFault => exact execHubFault_pending (h := h) ..
  | resetEscalation => exact execResetEscalation_pending (h := h) ..
  | testStart => exact execTestStart_pending (h := h) ..
  | testPhaseDone => exact execTestPhaseDone_pending (h := h) ..
  | hubTestDone => exact execHubTestDone_pending (h := h) ..
  | meterIntervalBoundary => exact execMeterIntervalBoundary_pending (h := h) ..
  | meterRecordRetry => exact execMeterRecordRetry_pending (h := h) ..
  | debugPadsEnabled => exact execDebugPadsEnabled_pending (h := h) ..
  | meterUpdatePackage => exact execMeterUpdatePackage_pending (h := h) ..
  | islandStart => exact execIslandStart_pending (h := h) ..
  | eventDelivery => exact execEventDelivery_pending (h := h) ..
  | eventAccept => exact execEventAccept_pending (h := h) ..
  | suppressedSummary => exact execSuppressedSummary_pending (h := h) ..
  | spillDone => exact execSpillDone_pending (h := h) ..
  | pwrEnAssert => exact execPwrEnAssert_pending (h := h) ..
  | pwrEnDeassert => exact execPwrEnDeassert_pending (h := h) ..
  | resetNRise => exact execResetNRise_pending (h := h) ..
  | resetNPulse => exact execResetNPulse_pending (h := h) ..
  | doorkeeperReady => exact execDoorkeeperReady_pending (h := h) ..
  | paneBringupDone => exact execPaneBringupDone_pending (h := h) ..
  | thermalThreshold => exact execThermalThreshold_pending (h := h) ..
  | thermalClear => exact execThermalClear_pending (h := h) ..
  | capEffecterSet => exact execCapEffecterSet_pending (h := h) ..
  | vfFlr => exact execVfFlr_pending (h := h) ..
  | pfFlr => exact execPfFlr_pending (h := h) ..
  | vfEnableChange => exact execVfEnableChange_pending (h := h) ..
  | atsInvalidation => exact execAtsInvalidation_pending (h := h) ..
  | wideRegisterRead => exact execWideRegisterRead_pending (h := h) ..
  | registerWrite => exact execRegisterWrite_pending (h := h) ..
  | sbRegisterRead => exact execSbRegisterRead_pending (h := h) ..
  | sbRegisterWrite => exact execSbRegisterWrite_pending (h := h) ..
  | sbMeterIdent => exact execSbMeterIdent_pending (h := h) ..
  | fmRequestFragment => exact execFmRequestFragment_pending (h := h) ..
  | fmFragmentReceived => exact execFmFragmentReceived_pending (h := h) ..
  | fmReceiptRepeat => exact execFmReceiptRepeat_pending (h := h) ..
  | fmUnreachableTimeout => exact execFmUnreachableTimeout_pending (h := h) ..
  | blockEraseComplete => exact execBlockEraseComplete_pending (h := h) ..
  | pageProgramComplete => exact execPageProgramComplete_pending (h := h) ..
  | ccrSnoopAck => exact execCcrSnoopAck_pending (h := h) ..
  | ethernetUncorrectableCodeword => exact execEthernetUncorrectableCodeword_pending (h := h) ..
  | portRetrainingOrder => exact execPortRetrainingOrder_pending (h := h) ..
  | pldmFirmwareUpdate => exact execPldmFirmwareUpdate_pending (h := h) ..

end Sys2Proof.Machine

open Sys2Proof Sys2Proof.Machine

/-- Settles O23: a step runs a command or lets a fabric cycle pass; commands keep the region coherent, and a cycle leaves
it alone. -/
theorem coherenceKeptByEveryStep : Obligations.CoherenceKeptByEveryStep := by
  unfold Obligations.CoherenceKeptByEveryStep
  intro s t hs h
  unfold step at h
  split at h
  next r _ =>
    have hrest : CcrCoherent { s with pending := r } := ccrCoherent_of_ccr hs rfl
    exact exec_keeps_ccrCoherent hrest h
  next =>
    cases h
    exact ccrCoherent_of_ccr hs (idleTick_ccr s)

/-- Settles O3: no command's meaning touches the queue. -/
theorem commandsLeaveTheQueueAlone : Obligations.CommandsLeaveTheQueueAlone := by
  unfold Obligations.CommandsLeaveTheQueueAlone
  exact fun _ _ _ => exec_pending

end

section
/-! PROOFS. A step: the command at the front of the queue, or one fabric cycle; neither stops the block. The module at t0. -/

namespace Sys2Proof.Machine

/-- Every command's meaning answers a next state on each of its branches. -/
theorem exec_goesOn (c : Instr) (s : State) : ∃ t, exec c s = .next t := by
  cases c
  case missingMarker | holdoverBeat | holdoverLimitReached | beatTrimWrite | beatBoundary | planEpochStart |
      stepBoundary | blockStart | slackExpired | tmmComplete | tdrainComplete | vmemLoad | dmaComplete |
      barrierComplete | latchOpComplete | issuePastProgram | requestMessageReceived | responseMessageReceived |
      refusalReceived | rmoResend | rmoTimeout | syncWaitLimit | windowRevokeDone | ccrRequest | ccrWriteback |
      ccrSnoop | slotTransmit | sillTransmit | slotReceived | sillReceived | replayTimeout | presenceDetected |
      equalizeDone | alignDone | negotiateDone | trainingTimeout | trainingBackoffExpired | chunkAdvance |
      collectiveDone | gridBeat | abortStop | nearReadRetry | spareTakeoverDone | scrubBurst | pcCopyDone |
      extentStart | extentDone | gcVictim | gcErase | wearLevel | readRecalibration | farReadRetry | programFailed |
      inputPowerLoss | commandStart | commandReply | commandOverrun | teardownBegin | writersStopped | shutterComplete
      | ctxResetEnd | snapshotDone | stormAckReceived | copyAbandonTimeout | drainStaged | storeGrantReceived |
      rdmaWritesComplete | rdmaReadsComplete | storeDoneReceived | storeRefuseReceived | storeRetryExpiry |
      storeConnectionLost | paneHardwareFault | resetEscalation | testStart | testPhaseDone | hubTestDone |
      meterIntervalBoundary | meterRecordRetry | meterUpdatePackage | islandStart | eventDelivery | eventAccept |
      pwrEnDeassert | resetNRise | doorkeeperReady | paneBringupDone | thermalThreshold | thermalClear | vfFlr | pfFlr
      | vfEnableChange | wideRegisterRead | registerWrite | sbRegisterRead | sbRegisterWrite | sbMeterIdent |
      fmRequestFragment | fmFragmentReceived | fmReceiptRepeat | fmUnreachableTimeout | blockEraseComplete |
      pageProgramComplete | ccrSnoopAck | ethernetUncorrectableCodeword | portRetrainingOrder =>
    dsimp only [exec,
        execMissingMarker, execHoldoverBeat, execHoldoverLimitReached, execBeatTrimWrite, execBeatBoundary,
        execPlanEpochStart, execStepBoundary, execBlockStart, execSlackExpired, execTmmComplete, execTdrainComplete,
        execVmemLoad, execDmaComplete, execBarrierComplete, execLatchOpComplete, execIssuePastProgram,
        execRequestMessageReceived, execResponseMessageReceived, execRefusalReceived, execRmoResend, execRmoTimeout,
        execSyncWaitLimit, execWindowRevokeDone, execCcrRequest, execCcrWriteback, execCcrSnoop, execSlotTransmit,
        execSillTransmit, execSlotReceived, execSillReceived, execReplayTimeout, execPresenceDetected,
        execEqualizeDone, execAlignDone, execNegotiateDone, execTrainingTimeout, execTrainingBackoffExpired,
        execChunkAdvance, execCollectiveDone, execGridBeat, execAbortStop, execNearReadRetry, execSpareTakeoverDone,
        execScrubBurst, execPcCopyDone, execExtentStart, execExtentDone, execGcVictim, execGcErase, execWearLevel,
        execReadRecalibration, execFarReadRetry, execProgramFailed, execInputPowerLoss, execCommandStart,
        execCommandReply, execCommandOverrun, execTeardownBegin, execWritersStopped, execShutterComplete,
        execCtxResetEnd, execSnapshotDone, execStormAckReceived, execCopyAbandonTimeout, execDrainStaged,
        execStoreGrantReceived, execRdmaWritesComplete, execRdmaReadsComplete, execStoreDoneReceived,
        execStoreRefuseReceived, execStoreRetryExpiry, execStoreConnectionLost, execPaneHardwareFault,
        execResetEscalation, execTestStart, execTestPhaseDone, execHubTestDone, execMeterIntervalBoundary,
        execMeterRecordRetry, execMeterUpdatePackage, execIslandStart, execEventDelivery, execEventAccept,
        execPwrEnDeassert, execResetNRise, execDoorkeeperReady, execPaneBringupDone, execThermalThreshold,
        execThermalClear, execVfFlr, execPfFlr, execVfEnableChange, execWideRegisterRead, execRegisterWrite,
        execSbRegisterRead, execSbRegisterWrite, execSbMeterIdent, execFmRequestFragment, execFmFragmentReceived,
        execFmReceiptRepeat, execFmUnreachableTimeout, execBlockEraseComplete, execPageProgramComplete,
        execCcrSnoopAck, execEthernetUncorrectableCodeword, execPortRetrainingOrder]
    repeat' split
    all_goals exact ⟨_, rfl⟩
  all_goals exact ⟨_, rfl⟩

theorem step_front (s : State) (c : Instr) : step { s with pending := c :: s.pending } = exec c s := rfl

theorem step_idle {s : State} (h : s.pending = []) : step s = .next (idleTick s) := by
  unfold step
  rw [h]

/-- Island time passes within the island (R443, R449). -/
theorem islandPass_eq (s : State) (dt : Nat) : ∃ i : Island, islandPass s dt = { s with island := i } := by
  unfold islandPass
  dsimp only
  split
  · exact ⟨s.island, rfl⟩
  · exact ⟨_, rfl⟩

/-- A fabric cycle is the island's and the beat unit's. -/
theorem idleTick_eq (s : State) : ∃ i : Island, idleTick s = { s with
    island := i
    time := if s.power.hubUp = false then s.time
      else if 0 < s.time.lead then { s.time with lead := s.time.lead - 1 }
      else if s.time.stretch = true then { s.time with stretch := false }
      else if s.time.tick < 8191 then { s.time with tick := s.time.tick + 1 }
      else s.time } := by
  obtain ⟨i, hi⟩ := islandPass_eq s 1
  refine ⟨i, ?_⟩
  unfold idleTick
  rw [hi]
  dsimp only
  cases s.power.hubUp
  · rfl
  · simp only [Bool.not_true, Bool.true_eq_false, Bool.false_eq_true, if_false]
    by_cases hlead : 0 < s.time.lead
    · simp only [if_pos hlead]
    by_cases hstretch : s.time.stretch = true
    · simp only [if_neg hlead, if_pos hstretch]
    by_cases htick : s.time.tick < 8191
    · simp only [if_neg hlead, if_neg hstretch, if_pos htick]
    · simp only [if_neg hlead, if_neg hstretch, if_neg htick]

end Sys2Proof.Machine

open Sys2Proof Sys2Proof.Machine

/-- Settles O4: every command goes on, and so does a fabric cycle. -/
theorem noStepStops : Obligations.NoStepStops := by
  unfold Obligations.NoStepStops GoesOn
  refine ⟨exec_goesOn, fun s => ?_⟩
  cases hp : s.pending with
  | nil => exact ⟨_, step_idle hp⟩
  | cons c r =>
    obtain ⟨t, ht⟩ := exec_goesOn c { s with pending := r }
    exact ⟨t, by unfold step; rw [hp]; exact ht⟩

/-- Settles O1: the queue's front is what `step` takes. -/
theorem stepRunsTheFrontCommand : Obligations.StepRunsTheFrontCommand := by
  unfold Obligations.StepRunsTheFrontCommand
  exact step_front

/-- Settles O2: an idle step is one fabric cycle, which moves the island's clock and the beat unit. -/
theorem idleStepIsOneFabricCycle : Obligations.IdleStepIsOneFabricCycle := by
  unfold Obligations.IdleStepIsOneFabricCycle
  intro s hs
  obtain ⟨i, hi⟩ := idleTick_eq s
  exact ⟨_, i, (step_idle hs).trans (congrArg _ hi), rfl⟩

/-- Settles O5: the reset module lists no pane, cell, port or mailbox, so each reads as its own reset value. -/
theorem resetValues : Obligations.ResetValues := by
  unfold Obligations.ResetValues
  exact ⟨rfl, rfl, rfl, rfl, rfl, rfl, rfl, rfl, rfl,
    fun _ => ⟨rfl, rfl, rfl, rfl, rfl, rfl, rfl, rfl, rfl⟩, fun _ _ => ⟨rfl, rfl, rfl, rfl, rfl, rfl⟩,
    rfl, rfl, fun _ => rfl, fun _ => ⟨rfl, rfl, rfl⟩, fun _ => ⟨rfl, rfl, rfl, rfl⟩,
    rfl, rfl, rfl, rfl, rfl, rfl, rfl, rfl,
    rfl, rfl, rfl, rfl, rfl, rfl, rfl, rfl, rfl⟩

/-- Settles O22: the reset region lists no line. -/
theorem coherenceAtReset : Obligations.CoherenceAtReset := by
  unfold Obligations.CoherenceAtReset
  exact ccrCoherent_of_nil rfl

end

section
/-! PROOFS. The Coherent Control Region's commands, each by its outcome (R218 to R221): a request behind an open transaction
and one that is served at once, a writeback, and the answers to snoops. -/

namespace Sys2Proof.Machine

/-! ### Requests -/

/-- R218: a request for a latch line has no effect. -/
theorem execCcrRequest_latchLine {r : Fin 21} {n : BitVec 20} {own store} {s : State} (h : n.toNat < 16384) :
    execCcrRequest r n own store s = .next s := by
  unfold execCcrRequest
  exact if_pos (by simpa [latchLine] using h)

theorem execCcrRequest_queued {r : Fin 21} {n : BitVec 20} {own store} {s : State} (h : 16384 ≤ n.toNat)
    {l : CcrLine} (hl : l = ccrLine s n.toNat) {w : List CcrReq}
    (hw : w = queueReq { requester := r.val, own := own, store := store, at' := now s } l.waiting) :
    execCcrRequest r n own store s = .next (setLine s n.toNat (serveLine w.length { l with waiting := w })) := by
  subst hw hl
  unfold execCcrRequest
  exact if_neg (by simpa [latchLine] using h)

/-- A line without a transaction on which nothing waits serves a request at once, when no copy stands in its way. -/
theorem serveLine_sole_grant {l : CcrLine} {q : CcrReq} (ht : l.txn = none) (hw : l.waiting = [])
    (hs : (snoopsOf l q).isEmpty = true) : serveLine 1 { l with waiting := [q] } = grantLine l q := by
  have hl : { l with waiting := [] } = l := by cases l; cases hw; rfl
  rw [serveLine_grant (q := q) (r := []) (l := { l with waiting := [q] }) ht rfl hs]
  exact congrArg (grantLine · q) hl

theorem serveLine_sole_open {l : CcrLine} {q : CcrReq} (ht : l.txn = none) (hw : l.waiting = [])
    (hs : (snoopsOf l q).isEmpty = false) : serveLine 1 { l with waiting := [q] } =
      { l with txn := some { req := q, snoops := snoopsOf l q, acks := [] } } := by
  have hl : { l with waiting := [] } = l := by cases l; cases hw; rfl
  rw [serveLine_open (q := q) (r := []) (l := { l with waiting := [q] }) ht rfl hs]
  exact congrArg (fun k : CcrLine => { k with txn := some { req := q, snoops := snoopsOf l q, acks := [] } }) hl

/-! ### Answers -/

theorem execCcrWriteback_modified {r : Fin 21} {n : BitVec 20} {s : State} {l : CcrLine} (hl : l = ccrLine s n.toNat)
    (h : (copyOf l r.val).state = .m) : execCcrWriteback r n s =
      .next (setLine s n.toNat (setCopy { l with data := (copyOf l r.val).data } r.val copyZero)) := by
  subst hl
  unfold execCcrWriteback
  exact if_pos h

theorem execCcrWriteback_clean {r : Fin 21} {n : BitVec 20} {s : State}
    (h : (copyOf (ccrLine s n.toNat) r.val).state ≠ .m) : execCcrWriteback r n s = .next s := by
  unfold execCcrWriteback
  exact if_neg h

/-- What a cache keeps of its copy when it answers a snoop. -/
def snoopedCopy (q : CcrReq) (c : CcrCopy) : CcrCopy :=
  if q.own || c.state = .i then copyZero else { c with state := .s }

theorem execCcrSnoop_answered {r : Fin 21} {n : BitVec 20} {s : State} {l : CcrLine} {x : CcrTxn}
    (hl : l = ccrLine s n.toNat) (ht : l.txn = some x) (hr : x.snoops.contains r.val = true) : execCcrSnoop r n s =
      .next (setLine s n.toNat (setCopy { l with
          data := if (copyOf l r.val).state = .m then (copyOf l r.val).data else l.data
          txn := some { x with snoops := x.snoops.filter (· != r.val), acks := x.acks ++ [r.val] } } r.val
        (snoopedCopy x.req (copyOf l r.val)))) := by
  subst hl
  unfold execCcrSnoop
  simp only [ht]
  exact if_pos hr

theorem execCcrSnoop_unasked {r : Fin 21} {n : BitVec 20} {s : State}
    (h : ∀ x, (ccrLine s n.toNat).txn = some x → x.snoops.contains r.val = false) : execCcrSnoop r n s = .next s := by
  unfold execCcrSnoop
  dsimp only
  split
  next x ht => exact if_neg (by rw [h x ht]; decide)
  next => rfl

theorem execCcrSnoopAck_open {r : Fin 21} {n : BitVec 20} {s : State} {l : CcrLine} {x : CcrTxn}
    (hl : l = ccrLine s n.toNat) (ht : l.txn = some x) (hr : x.acks.contains r.val = true)
    (hmore : x.snoops ≠ [] ∨ ∃ a ∈ x.acks, a ≠ r.val) : execCcrSnoopAck r n s =
      .next (setLine s n.toNat { l with txn := some { x with acks := x.acks.filter (· != r.val) } }) := by
  have hopen : (x.snoops.isEmpty && (x.acks.filter (· != r.val)).isEmpty) = false := by
    rcases hmore with h | ⟨a, ha, hne⟩
    · simp [h]
    · have : a ∈ x.acks.filter (· != r.val) := List.mem_filter.mpr ⟨ha, by simpa using hne⟩
      simp [List.isEmpty_eq_false_iff_exists_mem.mpr ⟨a, this⟩]
  subst hl
  unfold execCcrSnoopAck
  simp only [ht, hr, hopen]
  rfl

theorem execCcrSnoopAck_last {r : Fin 21} {n : BitVec 20} {s : State} {l : CcrLine} {x : CcrTxn}
    (hl : l = ccrLine s n.toNat) (ht : l.txn = some x) (hr : x.acks.contains r.val = true) (hs : x.snoops = [])
    (ha : ∀ a ∈ x.acks, a = r.val) : execCcrSnoopAck r n s =
      .next (setLine s n.toNat (serveLine l.waiting.length (grantLine { l with txn := none } x.req))) := by
  have hlast : (x.snoops.isEmpty && (x.acks.filter (· != r.val)).isEmpty) = true := by
    have : x.acks.filter (· != r.val) = [] := List.filter_eq_nil_iff.mpr fun a h => by simpa using ha a h
    simp [hs, this]
  subst hl
  unfold execCcrSnoopAck
  simp only [ht, hr, hlast, grantLine_waiting]
  rfl

end Sys2Proof.Machine

open Sys2Proof Sys2Proof.Machine

/-- Settles O24: with a transaction open nothing is served, so a request only joins those that wait; an acknowledgement
leaves the others outstanding, or grants the transaction's request as the last one. -/
theorem oneTransactionOnALine : Obligations.OneTransactionOnALine := by
  unfold Obligations.OneTransactionOnALine
  intro s r n x hwf ht l
  have line (k : CcrLine) : ccrLine (setLine s n.toNat k) n.toNat = k := ccrLine_setLine_self hwf _ _
  refine ⟨fun hn own store => ?_, fun hr => ?_⟩
  · refine ⟨_, execCcrRequest_queued hn (l := l) rfl rfl, ?_⟩
    rw [line, serveLine_busy _ (t := x) (by exact ht)]
    exact ⟨ht, rfl, rfl, rfl⟩
  · by_cases hlast : x.snoops = [] ∧ ∀ a ∈ x.acks, a = r.val
    · refine ⟨_, execCcrSnoopAck_last (l := l) rfl ht hr hlast.1 hlast.2, fun hmore => ?_, fun _ _ hw => ?_⟩
      · rcases hmore with h | ⟨a, ha, hne⟩
        · exact absurd hlast.1 h
        · exact absurd (hlast.2 a ha) hne
      · rw [line, serveLine_idle _ (by rw [grantLine_waiting]; exact hw)]
        exact ⟨rfl, by rw [grantLine_txn]⟩
    · have hmore : x.snoops ≠ [] ∨ ∃ a ∈ x.acks, a ≠ r.val := by
        by_contra h
        push Not at h
        exact hlast h
      exact ⟨_, execCcrSnoopAck_open (l := l) rfl ht hr hmore, fun _ => line _, fun hs ha => absurd ⟨hs, ha⟩ hlast⟩

/-- Settles O25: a request that nothing stands in the way of is granted as `grantLine` says, and one that something does
opens a transaction that snoops it; writebacks and snoops change the one cache's copy. -/
theorem coherentRequestsWritebacksAndSnoops : Obligations.CoherentRequestsWritebacksAndSnoops := by
  unfold Obligations.CoherentRequestsWritebacksAndSnoops
  constructor
  · intro s r n own store hwf hcopies ht hw l q e others dirty
    refine ⟨execCcrRequest_latchLine, fun hn => ?_⟩
    have hlw : tblWf copyZero l.copies = true := hcopies _
    have hstands : (¬∃ a, a ≠ r.val ∧ StandsIn q (copyOf l a)) ↔ (snoopsOf l q).isEmpty = true := by
      rw [snoopsOf_isEmpty hlw]; push Not; rfl
    have hothers (ho : own = true) : others ↔ ∃ a, a ≠ r.val ∧ StandsIn q (copyOf l a) := by
      simp only [others, standsIn_own (q := q) ho]
    have hdirty (ho : own = false) : dirty ↔ ∃ a, a ≠ r.val ∧ StandsIn q (copyOf l a) := by
      simp only [dirty, standsIn_read (q := q) ho]
    have hexec : e = .next (setLine s n.toNat (serveLine 1 { l with waiting := [q] })) :=
      execCcrRequest_queued hn (l := l) (w := [q]) rfl (by rw [show l.waiting = [] from hw]; rfl)
    refine ⟨_, hexec, fun k hk => by rw [ccrLine_setLine hwf, if_neg hk], ?_⟩
    rw [ccrLine_setLine_self hwf]
    have granted (h : ¬∃ a, a ≠ r.val ∧ StandsIn q (copyOf l a)) : serveLine 1 { l with waiting := [q] } = grantLine l q :=
      serveLine_sole_grant ht hw (hstands.mp h)
    refine ⟨fun hr ho hno => ?_, fun hr ho hno => ?_, fun hr ho hno => ?_, fun hr ho hc hno => ?_, fun hr ho hc hno => ?_,
      fun hr ho hc hsome hno => ?_, fun hblocked => ?_⟩
    · rw [granted (mt (hothers ho).mpr hno), grantLine_uncached (q := q) hr, if_pos (show q.own = true from ho)]
    · rw [granted (mt (hdirty ho).mpr hno), grantLine_uncached (q := q) hr, if_neg (by simp [q, ho])]
    · rw [granted (mt (hothers ho).mpr hno), grantLine_own (q := q) hr ho, copyOf_setCopy_self hlw]
      exact ⟨rfl, fun hst => by simp [q, hst], rfl, ht⟩
    · rw [granted (mt (hdirty ho).mpr hno), grantLine_held (q := q) hr ho hc]
    · rw [granted (mt (hdirty ho).mpr fun ⟨a, ha, hd⟩ => hno ⟨a, ha, by rcases hd with h | h <;> rw [h] <;> decide⟩),
        grantLine_read (q := q) hr ho hc, copyOf_setCopy_self hlw, if_neg (by rwa [shared_iff hlw])]
      exact ⟨rfl, rfl, ht⟩
    · rw [granted (mt (hdirty ho).mpr hno), grantLine_read (q := q) hr ho hc, copyOf_setCopy_self hlw,
        if_pos (by rwa [shared_iff hlw])]
      exact ⟨rfl, rfl, ht⟩
    · have hstand : ∃ a, a ≠ r.val ∧ StandsIn q (copyOf l a) := by
        rcases hblocked with ⟨ho, h⟩ | ⟨ho, h⟩
        · exact (hothers ho).mp h
        · exact (hdirty ho).mp h
      have hsn : (snoopsOf l q).isEmpty = false := by
        cases h : (snoopsOf l q).isEmpty
        · rfl
        · exact absurd hstand (hstands.mpr h)
      rw [serveLine_sole_open ht hw hsn]
      exact ⟨rfl, rfl, _, rfl, rfl, rfl, fun a => mem_snoopsOf hlw q a⟩
  · intro s r n hwf hcopies l c
    have hlw : tblWf copyZero l.copies = true := hcopies _
    refine ⟨fun hm => ?_, execCcrWriteback_clean, fun x hx hr => ?_, execCcrSnoop_unasked⟩
    · refine ⟨_, execCcrWriteback_modified (l := l) rfl hm, ?_⟩
      rw [ccrLine_setLine_self hwf]
      exact ⟨rfl, copyOf_setCopy_self hlw .., fun a ha => copyOf_setCopy_ne hlw ha _, rfl⟩
    · refine ⟨_, execCcrSnoop_answered (l := l) rfl hx hr, ?_⟩
      rw [ccrLine_setLine_self hwf]
      refine ⟨rfl, fun h => ?_, fun ho hc => ?_, fun a ha => copyOf_setCopy_ne hlw ha _, rfl⟩
      · exact (copyOf_setCopy_self hlw ..).trans (if_pos (by simpa using h))
      · exact (copyOf_setCopy_self hlw ..).trans (if_neg (by simpa [ho] using hc))

end

section
/-! PROOFS. A cell's instruction that issues acts on its cell alone, by a pure operation (R51 to R53); the operations of the
classes `SCALAR` and `CTRL`. -/

namespace Sys2Proof.Machine

/-! ### The issue of a pure operation -/

section
variable {row : Nat → Bool} {s : State} {p : Pane16} {c : LCell} {w : Nat}

theorem issue_cell_ok {f : Nat → Cell → CellOut} {y : Cell} {fl : Nat} (h : Issues s p c w) (hrow : row w = true)
    (hf : f w (stepPc (cell s p.val c.val)) = .ok y fl) :
    (.next (issueWith row (actCell f) s p.val c.val) : Host.Outcome State Fault Refusal) = cellNext s p c y fl := by
  rw [issueWith_acts h hrow, actCell, hf]
  rfl

theorem issue_cell_fault {f : Nat → Cell → CellOut} {code a : Nat} (h : Issues s p c w) (hrow : row w = true)
    (hf : f w (stepPc (cell s p.val c.val)) = .fault code a) :
    (.next (issueWith row (actCell f) s p.val c.val) : Host.Outcome State Fault Refusal) =
      .next (cellFault s p.val c.val code (cell s p.val c.val).pc a) := by
  rw [issueWith_acts h hrow, actCell, hf]
  rfl

theorem issue_read_ok {f : Nat → Nat → Cell → CellOut} {y : Cell} {fl : Nat} (h : Issues s p c w) (hrow : row w = true)
    (hf : f s.free w (stepPc (cell s p.val c.val)) = .ok y fl) :
    (.next (issueWith row (actRead f) s p.val c.val) : Host.Outcome State Fault Refusal) =
      cellNext (readFrom s p c) p c y fl := by
  rw [issueWith_acts h hrow, actRead, hf]
  rfl

theorem issue_read_fault {f : Nat → Nat → Cell → CellOut} {code a : Nat} (h : Issues s p c w) (hrow : row w = true)
    (hf : f s.free w (stepPc (cell s p.val c.val)) = .fault code a) :
    (.next (issueWith row (actRead f) s p.val c.val) : Host.Outcome State Fault Refusal) =
      .next (cellFault (readFrom s p c) p.val c.val code (cell s p.val c.val).pc a) := by
  rw [issueWith_acts h hrow, actRead, hf]
  rfl

/-- An operation that sets no flag leaves its cell alone. -/
theorem issue_cell_done {f : Nat → Cell → CellOut} {y : Cell} (h : Issues s p c w) (hrow : row w = true)
    (hf : f w (stepPc (cell s p.val c.val)) = .ok y 0) :
    (.next (issueWith row (actCell f) s p.val c.val) : Host.Outcome State Fault Refusal) =
      .next (setCell s p.val c.val y) := issue_cell_ok h hrow hf

theorem issue_read_done {f : Nat → Nat → Cell → CellOut} {y : Cell} (h : Issues s p c w) (hrow : row w = true)
    (hf : f s.free w (stepPc (cell s p.val c.val)) = .ok y 0) :
    (.next (issueWith row (actRead f) s p.val c.val) : Host.Outcome State Fault Refusal) =
      .next (setCell (readFrom s p c) p.val c.val y) := issue_read_ok h hrow hf

end

/-! ### Registers as bit vectors -/

theorem fld_lt (w hi lo : Nat) : fld w hi lo < 2 ^ (hi + 1 - lo) := Nat.mod_lt _ (Nat.two_pow_pos _)

theorem sreg_eq (c : Cell) (i : Nat) : sreg c i = (sregBits c i).toNat := rfl

theorem toSigned_toNat (a : BitVec 64) : toSigned 64 a.toNat = a.toInt := by
  have := a.isLt
  unfold toSigned
  rw [Nat.mod_eq_of_lt this, BitVec.toInt_eq_toNat_cond]
  norm_num
  split <;> split <;> omega

theorem ofNat_ofSigned (i : Int) : BitVec.ofNat 64 (ofSigned 64 i) = BitVec.ofInt 64 i := by
  apply BitVec.eq_of_toNat_eq
  simp only [ofSigned, BitVec.toNat_ofNat, BitVec.toNat_ofInt]
  omega

/-! ### `SCALAR` (R6, Table 03-9) -/

/-- The second operand of a scalar operation, as 64 bits. -/
def scalarBits (w : Nat) (c : Cell) : BitVec 64 :=
  if bitAt w 104 then BitVec.ofNat 64 (fld w 63 0) else sregBits c (fld w 109 105)

theorem scalarB_eq (w : Nat) (c : Cell) : scalarB w c = (scalarBits w c).toNat := by
  unfold scalarB scalarBits
  split
  · rw [BitVec.toNat_ofNat, Nat.mod_eq_of_lt (fld_lt w 63 0)]
  · rfl

/-- A scalar operation writes what it is on 64-bit words. -/
theorem scalarAlu_ok {f : Nat → Nat → Nat} {g : BitVec 64 → BitVec 64 → BitVec 64}
    (hf : ∀ a b : BitVec 64, BitVec.ofNat 64 (f a.toNat b.toNat) = g a b) (w : Nat) (c : Cell) :
    scalarAlu f w c =
      .ok { c with sregs := tblPut 0 c.sregs (fld w 119 115) (g (sregBits c (fld w 114 110)) (scalarBits w c)) } 0 := by
  rw [scalarAlu, scalarB_eq, sreg_eq, setSreg, hf]

theorem ofNat_sub64 (a b : BitVec 64) : BitVec.ofNat 64 (sub64 a.toNat b.toNat) = a - b := by
  have ha := a.isLt
  have hb := b.isLt
  apply BitVec.eq_of_toNat_eq
  simp only [sub64, BitVec.toNat_ofNat, BitVec.toNat_sub]
  omega

theorem ofNat_shl64 (a b : BitVec 64) : BitVec.ofNat 64 (shl64 a.toNat b.toNat) = a <<< b.toNat := by
  unfold shl64
  split
  next h => rw [BitVec.shiftLeft_eq_zero h]
  next => exact BitVec.eq_of_toNat_eq (by simp)

theorem ofNat_shr64 (a b : BitVec 64) : BitVec.ofNat 64 (shr64 a.toNat b.toNat) = a >>> b.toNat := by
  unfold shr64
  split
  next h => rw [BitVec.ushiftRight_eq_zero h]
  next =>
    apply BitVec.eq_of_toNat_eq
    rw [BitVec.toNat_ofNat, BitVec.toNat_ushiftRight, Nat.mod_eq_of_lt]
    exact (Nat.shiftRight_le _ _).trans_lt a.isLt

/-- An arithmetic shift by 64 or more gives what one by 64 gives: the sign in every bit (R6). -/
theorem ediv_two_pow_min (i : Int) (n : Nat) (hlo : -2 ^ 63 ≤ i) (hhi : i < 2 ^ 63) :
    i / ((2 ^ min n 64 : Nat) : Int) = i / ((2 ^ n : Nat) : Int) := by
  rcases Nat.le_total n 64 with h | h
  · rw [Nat.min_eq_left h]
  · rw [Nat.min_eq_right h]
    have hpow : (2 ^ 64 : Int) ≤ ((2 ^ n : Nat) : Int) := by exact_mod_cast Nat.pow_le_pow_right (by decide) h
    have hdiv (d : Int) (hd : 2 ^ 64 ≤ d) : i / d = if i < 0 then -1 else 0 := by
      split
      · rw [Int.ediv_eq_neg_one_of_neg_of_le (by omega) (by omega)]
      · exact Int.ediv_eq_zero_of_lt (by omega) (by omega)
    rw [hdiv _ hpow, hdiv _ (by norm_num)]

theorem ofNat_sra64 (a b : BitVec 64) : BitVec.ofNat 64 (sra64 a.toNat b.toNat) = a.sshiftRight b.toNat := by
  have hlo := BitVec.le_toInt a
  have hhi := BitVec.toInt_lt (x := a)
  rw [sra64, ofNat_ofSigned, toSigned_toNat, ediv_two_pow_min _ _ (by simpa using hlo) (by simpa using hhi),
    BitVec.sshiftRight, Int.shiftRight_eq_div_pow]

theorem ofNat_b2n (b : Bool) : BitVec.ofNat 64 (b2n b) = if b = true then 1 else 0 := by
  cases b <;> rfl

theorem ofNat_slt64 (a b : BitVec 64) : BitVec.ofNat 64 (slt64 a.toNat b.toNat) = if a.toInt < b.toInt then 1 else 0 := by
  simp only [slt64, ofNat_b2n, toSigned_toNat, decide_eq_true_eq]

theorem ofNat_sltu64 (a b : BitVec 64) :
    BitVec.ofNat 64 (sltu64 a.toNat b.toNat) = if a.toNat < b.toNat then 1 else 0 := by
  simp only [sltu64, ofNat_b2n, decide_eq_true_eq]

theorem ofNat_seq64 (a b : BitVec 64) : BitVec.ofNat 64 (seq64 a.toNat b.toNat) = if a = b then 1 else 0 := by
  simp only [seq64, ofNat_b2n, decide_eq_true_eq, BitVec.toNat_inj]

/-- The address of a scalar load or store, as the sum in 64 bits. -/
theorem scalarAddr_eq (w : Nat) (c : Cell) :
    scalarAddr w c = (sregBits c (fld w 114 110) + BitVec.ofNat 64 (fld w 63 0)).toNat := by
  rw [scalarAddr, sreg_eq, BitVec.toNat_add, BitVec.toNat_ofNat, Nat.mod_eq_of_lt (fld_lt w 63 0)]

theorem scalarAddrOk_iff (a : Nat) : scalarAddrOk a = true ↔ a + 8 ≤ 6291456 ∧ a % 8 = 0 := by
  simp [scalarAddrOk, localOk, localBytes]

/-! ### `CTRL` (R60, R61, R74) -/

theorem ctrlLoop_ok {w : Nat} {c : Cell} (h : c.loops.length < 4) :
    ctrlLoop w c = .ok { c with loops := ⟨c.pc, fld w 119 104, 1⟩ :: c.loops } 0 :=
  if_neg (Nat.not_le.mpr h)

theorem ctrlLoop_full {w : Nat} {c : Cell} (h : 4 ≤ c.loops.length) : ctrlLoop w c = .fault fcIllegal := if_pos h

theorem ctrlEndloop_none {w : Nat} {c : Cell} (h : c.loops = []) : ctrlEndloop w c = .fault fcIllegal := by
  rw [ctrlEndloop, h]

theorem pred_eq_zero_iff (c : Cell) (i : Nat) : pred c i = 0 ↔ tblGet (0 : BitVec 64) c.preds i = 0 :=
  (BitVec.toNat_eq (y := 0#64)).symm

theorem pred_eq_all_iff (c : Cell) (i : Nat) :
    pred c i = 2 ^ 64 - 1 ↔ tblGet (0 : BitVec 64) c.preds i = BitVec.allOnes 64 := by
  rw [BitVec.toNat_eq, BitVec.toNat_allOnes]
  rfl

theorem ctrlEndloop_open {w : Nat} {c : Cell} {f : LoopFrame} {r : List LoopFrame} (h : c.loops = f :: r) :
    ctrlEndloop w c = .ok
      (if f.trip ≤ f.runs ∨ (bitAt w 103 = true ∧ tblGet (0 : BitVec 64) c.preds (fld w 102 100) ≠ 0)
        then { c with loops := r } else { c with pc := f.body, loops := { f with runs := f.runs + 1 } :: r }) 0 := by
  have hleave : (f.trip ≤ f.runs || (bitAt w 103 && pred c (fld w 102 100) != 0)) = true ↔
      f.trip ≤ f.runs ∨ (bitAt w 103 = true ∧ tblGet (0 : BitVec 64) c.preds (fld w 102 100) ≠ 0) := by
    simp only [Bool.or_eq_true, Bool.and_eq_true, decide_eq_true_eq, bne_iff_ne, ne_eq, pred_eq_zero_iff]
  rw [ctrlEndloop, h]
  simp only [hleave]
  split <;> rfl

theorem ctrlSkip_ok (w : Nat) (c : Cell) :
    ctrlSkip w c = .ok
      (if (if bitAt w 108 = true then tblGet (0 : BitVec 64) c.preds (fld w 111 109) = BitVec.allOnes 64
          else tblGet (0 : BitVec 64) c.preds (fld w 111 109) ≠ 0)
        then { c with pc := c.pc + fld w 119 112 } else c) 0 := by
  have htake : (if bitAt w 108 = true then pred c (fld w 111 109) == 2 ^ 64 - 1 else pred c (fld w 111 109) != 0) = true ↔
      (if bitAt w 108 = true then tblGet (0 : BitVec 64) c.preds (fld w 111 109) = BitVec.allOnes 64
        else tblGet (0 : BitVec 64) c.preds (fld w 111 109) ≠ 0) := by
    split
    · rw [beq_iff_eq, pred_eq_all_iff]
    · rw [bne_iff_ne, ne_eq, pred_eq_zero_iff]
  simp only [ctrlSkip, htake]

end Sys2Proof.Machine

open Sys2Proof Sys2Proof.Machine

/-- Settles O6: each operation on numbers is the operation on 64-bit words, and a load or store completes at the addresses
that its check admits. -/
theorem scalarInstructions : Obligations.ScalarInstructions := by
  unfold Obligations.ScalarInstructions
  constructor
  · intro s p c w h hclass x a b res
    have alu {op : Nat} {f : Nat → Nat → Nat} {g : BitVec 64 → BitVec 64 → BitVec 64}
        (hf : ∀ a b : BitVec 64, BitVec.ofNat 64 (f a.toNat b.toNat) = g a b) (hop : wOp4 w = op) :
        Host.Outcome.next (issueWith (rowOp 1 op) (actCell (scalarAlu f)) s p.val c.val) = res (g a b) :=
      issue_cell_ok h (rowOp_iff.mpr ⟨hclass, hop⟩) (scalarAlu_ok hf w (stepPc x))
    exact ⟨alu (g := (· + ·)) fun _ _ => BitVec.eq_of_toNat_eq (by simp), alu (g := (· - ·)) ofNat_sub64,
      alu (g := (· &&& ·)) fun _ _ => BitVec.eq_of_toNat_eq (by simp [Nat.land_eq]), alu (g := (· ||| ·)) fun _ _ => BitVec.eq_of_toNat_eq (by simp [Nat.lor_eq]),
      alu (g := (· ^^^ ·)) fun _ _ => BitVec.eq_of_toNat_eq (by simp), alu (g := fun a b => a <<< b.toNat) ofNat_shl64,
      alu (g := fun a b => a >>> b.toNat) ofNat_shr64, alu (g := fun a b => a.sshiftRight b.toNat) ofNat_sra64,
      alu (g := (· * ·)) fun _ _ => BitVec.eq_of_toNat_eq (by simp), alu ofNat_slt64, alu ofNat_sltu64, alu ofNat_seq64,
      alu (g := fun _ b => b) fun _ _ => BitVec.eq_of_toNat_eq (by simp)⟩
  · intro s p c w h x y a
    have haddr : scalarAddr w (stepPc x) = a := scalarAddr_eq w (stepPc x)
    refine ⟨fun hrow => ⟨fun hok => ?_, fun hbad => ?_⟩, fun hrow => ⟨fun hok => ?_, fun hbad => ?_⟩⟩
    · refine issue_read_done h hrow ?_
      rw [scalarLoadOp, haddr]
      exact if_pos ((scalarAddrOk_iff a).mpr hok)
    · refine issue_read_fault h hrow ?_
      rw [scalarLoadOp, haddr]
      exact if_neg (mt (scalarAddrOk_iff a).mp hbad)
    · refine issue_cell_done h hrow ?_
      rw [scalarStoreOp, haddr]
      exact if_pos ((scalarAddrOk_iff a).mpr hok)
    · refine issue_cell_fault h hrow ?_
      rw [scalarStoreOp, haddr]
      exact if_neg (mt (scalarAddrOk_iff a).mp hbad)

/-- Settles O7: each operation on the cell with `pc` at the next instruction, and the faults of R74 and R545. -/
theorem controlInstructions : Obligations.ControlInstructions := by
  unfold Obligations.ControlInstructions
  refine ⟨?_, ?_, ?_⟩
  · intro s p c w h x y res pr
    exact ⟨fun hrow => issue_cell_done h hrow rfl, fun hrow hdepth => issue_cell_done h hrow (ctrlLoop_ok hdepth),
      fun hrow f r hopen => issue_cell_done h hrow (ctrlEndloop_open (c := y) hopen),
      fun hrow => issue_cell_done h hrow (ctrlSkip_ok w y), fun hrow => issue_cell_done h hrow rfl,
      fun hrow => issue_cell_done h hrow rfl⟩
  · intro s p c w h x
    exact ⟨fun hrow hdepth => issue_cell_fault h hrow (ctrlLoop_full hdepth),
      fun hrow hnone => issue_cell_fault h hrow (ctrlEndloop_none hnone)⟩
  · intro s p c x hruns hpast
    exact if_pos (by rw [hruns]; simpa using hpast)

end

section
/-! PROOFS. The vector instructions (R50, R62, R94 to R104): the lanes of a vector register, loads and stores of the active
lanes, the split tensors, the lane-wise operations, compares, lane trees, converts and draws. -/

namespace Sys2Proof.Machine

/-! ### Lanes -/

@[simp] theorem vlanes_length (c : Cell) (i : Nat) : (vlanes c i).length = 64 := by simp [vlanes]

/-- Lanes with their numbers are the numbers with the lanes. -/
theorem vlanes_zipIdx_map {α : Type} (c : Cell) (i : Nat) (g : Nat × Nat → α) :
    (vlanes c i).zipIdx.map g = (List.range 64).map fun l => g ((vlanes c i).getD l 0, l) := by
  refine List.ext_getElem (by simp) fun n h1 _ => ?_
  have hn : n < 64 := by simpa using h1
  simp [hn]

theorem getElem?_map_range {α : Type} (g : Nat → α) {l : Nat} (h : l < 64) :
    ((List.range 64).map g)[l]? = some (g l) := by simp [h]

theorem mem_maskLanes {mask l : Nat} : l ∈ maskLanes mask ↔ l < 64 ∧ bitAt mask l = true := by
  simp [maskLanes, List.mem_filter]

theorem contains_maskLanes {mask l : Nat} (h : l < 64) : (maskLanes mask).contains l = bitAt mask l := by
  rw [Bool.eq_iff_iff, List.contains_iff_mem, mem_maskLanes]
  simp [h]

theorem all_maskLanes {mask : Nat} {f : Nat → Bool} :
    (maskLanes mask).all f = true ↔ ∀ l, l < 64 → bitAt mask l = true → f l = true := by
  simp only [List.all_eq_true, mem_maskLanes, and_imp]

theorem any_maskLanes {mask : Nat} {f : Nat → Bool} :
    (maskLanes mask).any f = true ↔ ∃ l, l < 64 ∧ bitAt mask l = true ∧ f l = true := by
  simp only [List.any_eq_true, mem_maskLanes, and_assoc]

theorem localOk_iff (a n : Nat) : localOk a n = true ↔ a + n ≤ 6291456 := decide_eq_true_iff

theorem localOkInt_iff (a : Int) (n : Nat) : localOkInt a n = true ↔ 0 ≤ a ∧ a + n ≤ 6291456 := by
  rw [localOkInt, Bool.and_eq_true, decide_eq_true_eq, localOk_iff]
  omega

/-! ### Vector loads and stores (R63, R73) -/

/-- Every active lane of the mask has its bytes in the local store. -/
def LanesInStore (mask n : Nat) (addr : Nat → Int) : Prop :=
  ∀ l, l < 64 → bitAt mask l = true → 0 ≤ addr l ∧ addr l + n ≤ 6291456

theorem all_localOkInt {mask n : Nat} {addr : Nat → Int} :
    ((maskLanes mask).all fun l => localOkInt (addr l) n) = true ↔ LanesInStore mask n addr := by
  simp only [all_maskLanes, localOkInt_iff, LanesInStore]

theorem vloadAt_ok {addr : Nat → Int} {w : Nat} {c : Cell}
    (h : LanesInStore (activeMask c (bitAt w 102) (fld w 101 99)) (vmemSize w) addr) (fr : Nat) :
    vloadAt addr fr w c = .ok (setVlanes c (fld w 119 115) ((vlanes c (fld w 119 115)).zipIdx.map fun p =>
      if (vmemActive w c).contains p.2 then leNat (readLocal c fr (addr p.2).toNat (vmemSize w)) else p.1)) 0 :=
  if_pos (all_localOkInt.mpr h)

theorem vloadAt_fault {addr : Nat → Int} {w : Nat} {c : Cell}
    (h : ¬LanesInStore (activeMask c (bitAt w 102) (fld w 101 99)) (vmemSize w) addr) (fr : Nat) :
    vloadAt addr fr w c = .fault fcAddress (firstBad addr (vmemSize w) (vmemActive w c)) :=
  if_neg (mt all_localOkInt.mp h)

theorem vstoreAt_ok {addr : Nat → Int} {w : Nat} {c : Cell}
    (h : LanesInStore (activeMask c (bitAt w 102) (fld w 101 99)) (vmemSize w) addr) :
    vstoreAt addr w c = .ok ((vmemActive w c).foldl (fun z l =>
      writeLocal z (addr l).toNat (natLe (vmemSize w) ((vlanes c (fld w 119 115)).getD l 0))) c) 0 :=
  if_pos (all_localOkInt.mpr h)

theorem vstoreAt_fault {addr : Nat → Int} {w : Nat} {c : Cell}
    (h : ¬LanesInStore (activeMask c (bitAt w 102) (fld w 101 99)) (vmemSize w) addr) :
    vstoreAt addr w c = .fault fcAddress (firstBad addr (vmemSize w) (vmemActive w c)) :=
  if_neg (mt all_localOkInt.mp h)

section
variable {row : Nat → Bool} {s : State} {p : Pane16} {c : LCell} {w : Nat}

/-- A load by `vloadAt` is the vector load at its lane addresses. -/
theorem vectorLoad_of_vloadAt {i : Instr} {at' : Nat → Cell → Nat → Int} {addr : Nat → Int} (h : Issues s p c w)
    (hrow : row w = true)
    (hexec : exec i s = .next (issueWith row (actRead fun fr w x => vloadAt (at' w x) fr w x) s p.val c.val))
    (haddr : at' w (stepPc (cell s p.val c.val)) = addr) : VectorLoad s p c w addr i := by
  refine ⟨fun hin => ?_, fun l hl hact hbad => ?_⟩
  · refine ⟨_, hexec.trans (issue_read_done h hrow ((congrArg (vloadAt · ..) haddr).trans (vloadAt_ok (c := stepPc (cell s p.val c.val)) hin _))), ?_, ?_⟩
    · simp
    · intro l hl
      rw [vlanes_zipIdx_map, getElem?_map_range _ hl]
      simp only [vmemActive, contains_maskLanes hl]
      exact ⟨fun hact => congrArg some (if_pos hact), fun hact => congrArg some (if_neg hact)⟩
  · exact ⟨_, hexec.trans (issue_read_fault h hrow
      ((congrArg (vloadAt · ..) haddr).trans (vloadAt_fault (c := stepPc (cell s p.val c.val)) (fun hin => hbad (hin l hl hact)) _)))⟩

theorem vectorStore_of_vstoreAt {i : Instr} {at' : Nat → Cell → Nat → Int} {addr : Nat → Int} (h : Issues s p c w)
    (hrow : row w = true)
    (hexec : exec i s = .next (issueWith row (actCell fun w x => vstoreAt (at' w x) w x) s p.val c.val))
    (haddr : at' w (stepPc (cell s p.val c.val)) = addr) : VectorStore s p c w addr i := by
  refine ⟨fun hin => ?_, fun l hl hact hbad => ?_⟩
  · exact hexec.trans (issue_cell_done h hrow ((congrArg (vstoreAt · ..) haddr).trans (vstoreAt_ok (c := stepPc (cell s p.val c.val)) hin)))
  · exact ⟨_, hexec.trans (issue_cell_fault h hrow
      ((congrArg (vstoreAt · ..) haddr).trans (vstoreAt_fault (c := stepPc (cell s p.val c.val)) fun hin => hbad (hin l hl hact))))⟩

end

theorem laneAddr_eq (w : Nat) (c : Cell) :
    laneAddr w c = fun l => ((sregBits c (fld w 114 110)).toNat : Int) + (l * vmemSize w : Nat) := by
  funext l
  simp [laneAddr, sreg_eq]

theorem strideAddr_eq (w : Nat) (c : Cell) : strideAddr w c = fun l : Nat =>
    ((sregBits c (fld w 114 110)).toNat : Int) + (l : Int) * (sregBits c (fld w 109 105)).toInt := by
  funext l
  rw [strideAddr, sreg_eq, sreg_eq, toSigned_toNat]

theorem gatherAddr_eq (w : Nat) (c : Cell) : gatherAddr w c = fun l =>
    ((sregBits c (fld w 114 110)).toNat : Int) + ((vlanes c (fld w 109 105)).getD l 0 : Nat) := by
  funext l
  simp [gatherAddr, sreg_eq]

/-- R69: a load that meets an error of the local store is the load in the state the error leaves. -/
theorem execVmemLoad_ecc {s : State} {p : Pane16} {c : LCell} {w : Nat} (h : Issues s p c w) (hrow : rowOp 4 0 w = true)
    (e : Ecc) : execVmemLoad p c e s = execVmemLoad p c .clean (cellEcc s p.val c.val e) := by
  obtain ⟨hissue, hword, -, -⟩ := h
  have hgoes : (!canIssue s p.val c.val || !rowOp 4 0 (issueWord (cell s p.val c.val))) = false := by
    simp [hissue, hword, hrow]
  refine (if_neg (by simp [hgoes])).trans ?_
  unfold execVmemLoad
  split
  next hstops => exact congrArg Host.Outcome.next (issueWith_idle (by simpa using hstops))
  next => rfl

/-! ### Split tensors (R94, R104) -/

/-- Both planes' elements of every active lane lie in the local store. -/
def PlanesInStore (mask hi lo : Nat) : Prop :=
  ∀ l, l < 64 → bitAt mask l = true → hi + 2 * l + 2 ≤ 6291456 ∧ lo + 2 * l + 2 ≤ 6291456

theorem splitOk_iff {w : Nat} {c : Cell} : splitOk w c (vmemActive w c) = true ↔
    PlanesInStore (activeMask c (bitAt w 102) (fld w 101 99)) (sreg c (fld w 114 110)) (sreg c (fld w 109 105)) := by
  simp only [splitOk, vmemActive, all_maskLanes, Bool.and_eq_true, localOk_iff, PlanesInStore]

theorem isNan_fp32_iff (v : Nat) : (Elem.fp32.decode v).isNan = true ↔ 0x7F800000 < v % 0x80000000 := by
  have hex : fld v 30 23 = v / 2 ^ 23 % 2 ^ 8 := by rw [fld, Nat.shiftRight_eq_div_pow]
  have hnan : (Elem.fp32.decode v).isNan = true ↔ fld v 30 23 = 255 ∧ v % 2 ^ 23 ≠ 0 := by
    unfold Elem.decode
    dsimp only
    split
    next h =>
      have he : fld v 30 23 = 255 := beq_iff_eq.mp h
      split
      next hm => exact ⟨fun hn => absurd hn (by simp [Num.isNan]), fun hn => absurd hm hn.2⟩
      next hm => exact ⟨fun _ => ⟨he, hm⟩, fun _ => rfl⟩
    next h =>
      have he : fld v 30 23 ≠ 255 := fun he => h (beq_iff_eq.mpr he)
      refine ⟨fun hn => ?_, fun hn => absurd hn.1 he⟩
      rw [if_neg (by simp)] at hn
      split at hn <;> exact absurd hn (by simp [Num.isNan])
  rw [hnan, hex]
  omega

/-! ### What stores leave alone -/

@[simp] theorem natLe_length (k n : Nat) : (natLe k n).length = k := by
  induction k generalizing n with
  | zero => rfl
  | succ k ih => rw [natLe, List.length_cons, ih]

theorem memGet_writeLocal_outside {c : Cell} {a n v b : Nat} (h : b < a ∨ a + n ≤ b) :
    memGet (writeLocal c a (natLe n v)).store b = memGet c.store b :=
  memGet_memWrite_outside _ _ _ _ (by rwa [natLe_length])

/-- Stores lane by lane leave a byte alone that each of them does. -/
theorem memGet_foldl_stores {f : Cell → Nat → Cell} {b : Nat} (ls : List Nat) (c : Cell)
    (hf : ∀ z, ∀ l ∈ ls, memGet (f z l).store b = memGet z.store b) :
    memGet (ls.foldl f c).store b = memGet c.store b := by
  induction ls generalizing c with
  | nil => rfl
  | cons l r ih =>
    rw [List.foldl_cons, ih _ fun z k hk => hf z k (List.mem_cons_of_mem l hk)]
    exact hf c l List.mem_cons_self

@[simp] theorem addFlags_cellView (s : State) (p l fl : Nat) : cellView (addFlags s p l fl) = cellView s := by
  unfold addFlags
  split
  · rfl
  · exact modPane_cellView fun _ => ⟨rfl, rfl⟩

theorem cell_of_cellNext {s t : State} {p : Pane16} {c : LCell} {x : Cell} {fl : Nat}
    (h : cellNext s p c x fl = .next t) : cell t p.val c.val = x := by
  cases h
  rw [cell_eq_of_cellView (addFlags_cellView ..), cell_setCell_self]

/-- A vector store leaves every byte alone that no active lane stores to. -/
theorem memGet_vstoreAt {addr : Nat → Int} {w b : Nat} {c y : Cell} {fl : Nat} (h : vstoreAt addr w c = .ok y fl)
    (hapart : ∀ l, l < 64 → bitAt (activeMask c (bitAt w 102) (fld w 101 99)) l = true →
      b < (addr l).toNat ∨ (addr l).toNat + vmemSize w ≤ b) : memGet y.store b = memGet c.store b := by
  unfold vstoreAt at h
  dsimp only at h
  split at h
  · cases h
    refine memGet_foldl_stores _ c fun z l hl => ?_
    obtain ⟨hl, hact⟩ := mem_maskLanes.mp hl
    exact memGet_writeLocal_outside (hapart l hl hact)
  · cases h

end Sys2Proof.Machine

open Sys2Proof Sys2Proof.Machine

/-- Settles O8: the loads and stores are `vloadAt` and `vstoreAt` at the lane addresses of Table 03-9. -/
theorem vectorMemoryAndSplitTensors : Obligations.VectorMemoryAndSplitTensors := by
  unfold Obligations.VectorMemoryAndSplitTensors
  constructor
  · intro s p c w h x base near strided gather
    exact ⟨fun hrow => vectorLoad_of_vloadAt h hrow
        (by show execVmemLoad p c .clean s = _
            exact if_neg (by obtain ⟨hissue, hword, -, -⟩ := h; simp [hissue, hword, hrow])) (laneAddr_eq w (stepPc x)),
      execVmemLoad_ecc h, fun hrow => vectorStore_of_vstoreAt h hrow rfl (laneAddr_eq w (stepPc x)),
      fun hrow => vectorLoad_of_vloadAt h hrow rfl (strideAddr_eq w (stepPc x)),
      fun hrow => vectorStore_of_vstoreAt h hrow rfl (strideAddr_eq w (stepPc x)),
      fun hrow => vectorLoad_of_vloadAt h hrow rfl (gatherAddr_eq w (stepPc x))⟩
  · intro s p c w h x y hi lo mask dst inside
    have hsplit : splitOk w y (vmemActive w y) = true ↔ inside := splitOk_iff
    refine ⟨fun hrow hin => ?_, fun hrow hout => ?_, fun hrow hin => ?_, fun hrow hout => ?_⟩
    · refine ⟨_, issue_read_done h hrow (if_pos (hsplit.mpr hin)), by simp, fun l hl => ?_⟩
      rw [vlanes_zipIdx_map, getElem?_map_range _ hl]
      simp only [vmemActive, contains_maskLanes hl]
      exact ⟨fun hact => congrArg some (if_pos hact), fun hact => congrArg some (if_neg (Bool.eq_false_iff.mp hact))⟩
    · exact ⟨_, issue_read_fault h hrow (if_neg (mt hsplit.mp hout))⟩
    · refine ⟨_, issue_cell_ok h hrow (if_pos (hsplit.mpr hin)), ?_, ?_⟩
      · unfold flIf
        split
        · exact .inl rfl
        · exact .inr rfl
      · have hany : ((vmemActive w y).any fun l => (Elem.fp32.decode ((vlanes y dst).getD l 0)).isNan) = true ↔
            ∃ l, l < 64 ∧ bitAt mask l = true ∧ 0x7F800000 < (vlanes x dst).getD l 0 % 0x80000000 := by
          simp only [vmemActive, any_maskLanes, isNan_fp32_iff]
          rfl
        rw [← hany]
        unfold flIf
        split
        next hn => exact ⟨fun _ => hn, fun _ => rfl⟩
        next hn => exact ⟨fun h0 => absurd h0 (by decide), fun hn' => absurd hn' hn⟩
    · exact ⟨_, issue_cell_fault h hrow (if_neg (mt hsplit.mp hout))⟩

/-- Settles O9: each store is of the bytes of its operands, whose addresses all lie apart from the byte. -/
theorem storesLeaveOtherBytesAlone : Obligations.StoresLeaveOtherBytesAlone := by
  unfold Obligations.StoresLeaveOtherBytesAlone
  intro s t p c w b h x mask apart lanesApart hi lo hcase
  -- the cell after an operation that completes is the operation's
  have after {row f y fl} (hrow : row w = true) (he : .next (issueWith row (actCell f) s p.val c.val) =
      (.next t : Host.Outcome State Fault Refusal)) (hf : f w (stepPc x) = .ok y fl) : cell t p.val c.val = y :=
    cell_of_cellNext ((issue_cell_ok h hrow hf).symm.trans he)
  have vector {row : Nat → Bool} {at' : Nat → Cell → Nat → Int} (hrow : row w = true) (he : .next (issueWith row (actCell fun w x => vstoreAt (at' w x) w x)
      s p.val c.val) = (.next t : Host.Outcome State Fault Refusal)) (hlanes : lanesApart (at' w (stepPc x))) :
      memGet (cell t p.val c.val).store b = memGet x.store b := by
    have hok := vstoreAt_ok (c := stepPc x) (w := w) fun l hl hact => ⟨(hlanes l hl hact).1, (hlanes l hl hact).2.1⟩
    rw [after hrow he hok]
    exact memGet_vstoreAt (c := stepPc x) hok fun l hl hact => (hlanes l hl hact).2.2
  rcases hcase with ⟨hrow, he, hin, halign, hapart⟩ | ⟨hrow, he, hlanes⟩ | ⟨hrow, he, hlanes⟩ | ⟨hrow, he, hplanes⟩
  · rw [after hrow he (if_pos ((scalarAddrOk_iff _).mpr ⟨hin, halign⟩))]
    exact memGet_writeLocal_outside hapart
  · exact vector hrow he hlanes
  · exact vector hrow he hlanes
  · have hok : splitOk w (stepPc x) (vmemActive w (stepPc x)) = true :=
      splitOk_iff.mpr fun l hl hact => ⟨(hplanes l hl hact).1, (hplanes l hl hact).2.1⟩
    rw [after hrow he (if_pos hok)]
    refine memGet_foldl_stores _ (stepPc x) fun z l hl => ?_
    obtain ⟨hl, hact⟩ := mem_maskLanes.mp hl
    obtain ⟨-, -, hhi, hlo⟩ := hplanes l hl hact
    exact (memGet_writeLocal_outside hlo).trans (memGet_writeLocal_outside hhi)

end

section
/-! PROOFS. The arithmetic of the vector unit lane by lane (R50, R62, R96, R97): the lane-wise operations, the compares, the
lane trees, the convert and the draw. -/

namespace Sys2Proof.Machine

/-! ### Flags and lanes -/

theorem bitAt_lor (a b i : Nat) : bitAt (a.lor b) i = (bitAt a i || bitAt b i) := Nat.testBit_lor a b i

/-- The flags of a union are those of its members. -/
theorem bitAt_flUnion (l : List Nat) (i : Nat) : bitAt (flUnion l) i = true ↔ ∃ f ∈ l, bitAt f i = true := by
  have key : ∀ (l : List Nat) (a : Nat), bitAt (l.foldl Nat.lor a) i = true ↔ bitAt a i = true ∨ ∃ f ∈ l, bitAt f i = true := by
    intro l
    induction l with
    | nil => simp
    | cons x r ih => intro a; rw [List.foldl_cons, ih, bitAt_lor, Bool.or_eq_true]; simp only [List.mem_cons, exists_eq_or_imp, or_assoc]
  rw [flUnion, key]
  simp [bitAt]

/-- The second source of a vector operation, lane by lane. -/
theorem vopB_getD {w : Nat} {c : Cell} {l : Nat} (h : l < 64) : (vopB w c).getD l 0 =
    if bitAt w 97 then (sregBits c (fld w 107 103)).toNat % 2 ^ 32 else (vlanes c (fld w 107 103)).getD l 0 := by
  unfold vopB
  split
  · rw [List.getD_eq_getElem?_getD, List.getElem?_replicate, if_pos h]; rfl
  · rfl

/-- Bit l of packed bits is the l-th of them. -/
theorem testBit_packElems_one (bs : List Bool) (l : Nat) : (packElems 1 (bs.map b2n)).testBit l = bs.getD l false := by
  induction bs generalizing l with
  | nil => simp [packElems]
  | cons b r ih =>
    have hb : b2n b % 2 ^ 1 = b.toNat := by cases b <;> rfl
    have hcons : packElems 1 ((b :: r).map b2n) = Nat.bit b (packElems 1 (r.map b2n)) := by
      rw [List.map_cons, packElems, hb, Nat.bit_val]
      ring
    rw [hcons]
    cases l with
    | zero => simp
    | succ l => rw [Nat.testBit_bit_succ, ih, List.getD_cons_succ]

section
variable {row : Nat → Bool} {s : State} {p : Pane16} {c : LCell} {w : Nat}

/-- An instruction whose operation is lane by lane has lane-wise results. -/
theorem laneWise_of_vopLanes {op : Nat → Cell → CellOut} {f g : Nat → Nat × Nat} (h : Issues s p c w)
    (hrow : row w = true) (hop : op w (stepPc (cell s p.val c.val)) = vopLanes g w (stepPc (cell s p.val c.val)))
    (hfg : ∀ l, l < 64 → g l = f l) :
    LaneWise s p c w f (.next (issueWith row (actCell op) s p.val c.val)) := by
  refine ⟨_, _, issue_cell_ok h hrow hop, by simp, fun l hl => ?_, fun i => ?_⟩
  · rw [vlanes_zipIdx_map, List.map_map, getElem?_map_range _ hl]
    refine ⟨fun hact => ?_, fun hact => ?_⟩
    · rw [← hfg l hl]
      exact congrArg (fun r : Nat × Nat => some r.1) (if_pos hact)
    · exact congrArg (fun r : Nat × Nat => some r.1) (if_neg hact)
  · rw [bitAt_flUnion, vlanes_zipIdx_map, List.map_map]
    simp only [List.mem_map, List.mem_range, Function.comp_apply, exists_exists_and_eq_and]
    refine exists_congr fun l => and_congr_right fun hl => ?_
    rw [← hfg l hl]
    split
    next hact => exact ⟨fun hb => ⟨hact, hb⟩, fun hb => hb.2⟩
    next hact => exact ⟨fun hb => absurd hb (by simp [bitAt]), fun hb => absurd hb.1 hact⟩

/-- A compare writes its outcome for each active lane. -/
theorem vopCompare_bits (k : Cmp) (w : Nat) (x : Cell) : ∃ (v : BitVec 64) (fl : Nat),
    vopCompare k w x = .ok { x with preds := tblPut 0 x.preds (fld w 92 90) v } fl ∧
    ∀ l, l < 64 → v.getLsbD l =
      if bitAt (vopMask w x) l then
        (f32Cmp k ((vlanes x (fld w 112 108)).getD l 0) ((vopB w x).getD l 0)).1
      else (tblGet (0 : BitVec 64) x.preds (fld w 92 90)).getLsbD l := by
  refine ⟨_, _, rfl, fun l hl => ?_⟩
  have hbits {rs : List (Bool × Nat)} : rs.map (fun r => b2n r.1) = (rs.map Prod.fst).map b2n := by
    rw [List.map_map]; rfl
  rw [hbits, BitVec.getLsbD_ofNat, testBit_packElems_one]
  simp only [hl, decide_true, Bool.true_and, List.map_map, List.getD_eq_getElem?_getD, getElem?_map_range _ hl,
    Option.getD_some, Function.comp_apply]
  split <;> rfl

end

/-- A lane tree takes the lanes of its mask and the neutral value for the others. -/
theorem vredOp_eq (f : Nat → Nat → Nat × Nat) (id w : Nat) (c : Cell) : vredOp f id w c =
    .ok (setSreg c (fld w 117 113) (laneTree f ((List.range 64).map fun l =>
        if bitAt (vopMask w c) l then (vlanes c (fld w 112 108)).getD l 0 else id)).1)
      (laneTree f ((List.range 64).map fun l =>
        if bitAt (vopMask w c) l then (vlanes c (fld w 112 108)).getD l 0 else id)).2 := by
  simp only [vredOp, vlanes_zipIdx_map]

/-- A convert writes its vector register. -/
theorem vopConvert_ok (w : Nat) (c : Cell) : ∃ (v : BitVec 2048) (fl : Nat),
    vopConvert w c = .ok { c with vregs := tblPut 0 c.vregs (fld w 117 113) v } fl := by
  unfold vopConvert
  dsimp only
  split
  · exact ⟨_, _, rfl⟩
  · exact ⟨_, _, rfl⟩

end Sys2Proof.Machine

open Sys2Proof Sys2Proof.Machine

/-- Settles O10: each of these operations is one of `vopLanes` on its sources' lanes. -/
theorem vectorLaneResults : Obligations.VectorLaneResults := by
  unfold Obligations.VectorLaneResults
  intro s p c w h x a b d
  have hb (l : Nat) (hl : l < 64) : (vopB w (stepPc x)).getD l 0 = b l := vopB_getD hl
  have two {f : Nat → Nat → Nat × Nat} {op : Nat} (hrow : rowVop op w = true) :
      LaneWise s p c w (fun l => f (a l) (b l)) (.next (issueWith (rowVop op) (actCell (vop2 f)) s p.val c.val)) :=
    laneWise_of_vopLanes (g := fun l => f (a l) ((vopB w (stepPc x)).getD l 0)) h hrow rfl
      fun l hl => congrArg (f (a l)) (hb l hl)
  have one {f : Nat → Cell → CellOut} {g : Nat → Nat × Nat} {row : Nat → Bool}
      (hop : f w (stepPc x) = vopLanes g w (stepPc x)) (hrow : row w = true) :
      LaneWise s p c w g (.next (issueWith row (actCell f) s p.val c.val)) :=
    laneWise_of_vopLanes h hrow hop fun _ _ => rfl
  exact ⟨two, two, two,
    fun hrow => laneWise_of_vopLanes (g := fun l => f32Fma (a l) ((vopB w (stepPc x)).getD l 0) (d l)) h hrow rfl
      fun l hl => congrArg (f32Fma (a l) · (d l)) (hb l hl), two, two,
    one rfl, one rfl, one rfl, one rfl, one rfl⟩

/-- Settles O11: by what the compares, the lane trees, the convert and the draw make of their cell. -/
theorem vectorCompareReduceConvertDraw : Obligations.VectorCompareReduceConvertDraw := by
  unfold Obligations.VectorCompareReduceConvertDraw
  intro s p c w h x y a b mask pdst compares tree base stride
  have cmp {k : Cmp} {op : Nat} (hrow : rowVop op w = true) :
      compares k (.next (issueWith (rowVop op) (actCell (vopCompare k)) s p.val c.val)) := by
    obtain ⟨v, fl, hop, hbits⟩ := vopCompare_bits k w (stepPc x)
    refine ⟨v, fl, issue_cell_ok h hrow hop, fun l hl => ?_⟩
    rw [hbits l hl, vopB_getD hl]
    rfl
  refine ⟨cmp, cmp, cmp, fun hrow => issue_cell_ok h hrow (vredOp_eq f32Add 0 w y),
    fun hrow => issue_cell_ok h hrow (vredOp_eq (f32MinMax true) 0xFF800000 w y), fun hrow => ?_, fun hrow hidx => ?_,
    fun hrow hidx => ?_⟩
  · obtain ⟨v, fl, hop⟩ := vopConvert_ok w y
    exact ⟨v, fl, hop, issue_cell_ok h hrow hop⟩
  · exact issue_cell_done h (row := fun w => wClass w == 0xB) (by simpa using hrow) (if_neg (Nat.not_le.mpr hidx))
  · exact issue_cell_fault h (row := fun w => wClass w == 0xB) (by simpa using hrow) (if_pos hidx)

end

section
/-! PROOFS. The tensor array's instructions at their issue and at their completion (R45 to R49, R79 to R90, R539, R540). -/

namespace Sys2Proof.Machine

/-! ### Ranges of the local store (R73) -/

/-- Every range of a list lies in the local store. -/
def RangesInStore (rs : List (Nat × Nat)) : Prop := ∀ r ∈ rs, r.1 + r.2 ≤ 6291456

theorem badRange_eq_none {rs : List (Nat × Nat)} : badRange rs = none ↔ RangesInStore rs := by
  simp only [badRange, Option.map_eq_none_iff, List.find?_eq_none, Bool.not_eq_true', Bool.not_eq_false, localOk_iff,
    RangesInStore]

theorem badRange_of_outside {rs : List (Nat × Nat)} (h : ¬RangesInStore rs) : ∃ a, badRange rs = some a :=
  Option.ne_none_iff_exists'.mp (mt badRange_eq_none.mp h)

/-! ### Issue (R539) -/

/-- R539: the mode that a `TMM` of a format leaves its set in. -/
def tmmWant (exact : Bool) (fmt : Nat) : AccMode :=
  if fmt = 10 then .long else if fmtHalf fmt = true ∧ exact = false then .fp32 else .long

/-- R539: the set is in the mode that a merge or a `TMM` with `ACC_KEEP` asks for. -/
def TmmFits (exact : Bool) (w : Nat) (c : Cell) : Prop :=
  fld w 113 110 = 10 ∨ bitAt w 122 = true → issMode c (bitAt w 123) = tmmWant exact (fld w 113 110)

theorem tmmIssue_fits {exact : Bool} {w : Nat} {c : Cell} (h : TmmFits exact w c) :
    tmmIssue exact w c = some (tmmWant exact (fld w 113 110)) := by
  unfold TmmFits tmmWant at h
  unfold tmmIssue tmmWant tmmMode
  by_cases hf : fld w 113 110 = 10
  · have hlong : issMode c (bitAt w 123) = .long := by simpa [hf] using h (.inl hf)
    simp [hf, hlong]
  · by_cases hk : bitAt w 122 = true
    · have hheld := h (.inr hk)
      rw [if_neg hf] at hheld
      simp [hf, hheld]
    · simp [hf, hk]

theorem tmmIssue_unfit {exact : Bool} {w : Nat} {c : Cell} (h : ¬TmmFits exact w c) : tmmIssue exact w c = none := by
  unfold TmmFits tmmWant at h
  unfold tmmIssue tmmMode
  push Not at h
  obtain ⟨hwhich, hne⟩ := h
  by_cases hf : fld w 113 110 = 10
  · have hne' : issMode c (bitAt w 123) ≠ .long := by simpa [hf] using hne
    simp [hf, hne']
  · have hk : bitAt w 122 = true := hwhich.resolve_left hf
    rw [if_neg hf] at hne
    simpa [hf, hk] using hne

theorem issueTmm_ok {exact : Bool} {w : Nat} {c : Cell} (hfits : TmmFits exact w c)
    (hin : RangesInStore (tmmRanges (mkTmm exact w c))) : issueTmm exact w c =
      .ok (addFlight (takeToken (setIssMode c (bitAt w 123) (tmmWant exact (fld w 113 110))) (wToken w)) (wToken w)
        (.tmm (mkTmm exact w c))) 0 := by
  simp only [issueTmm, tmmIssue_fits hfits, badRange_eq_none.mpr hin]

theorem issueTmm_unfit {exact : Bool} {w : Nat} {c : Cell} (hfits : ¬TmmFits exact w c) :
    issueTmm exact w c = .fault 0x01 := by
  simp only [issueTmm, tmmIssue_unfit hfits]
  rfl

theorem issueTmm_outside {exact : Bool} {w : Nat} {c : Cell} (hfits : TmmFits exact w c)
    (hout : ¬RangesInStore (tmmRanges (mkTmm exact w c))) : ∃ a, issueTmm exact w c = .fault 0x03 a := by
  obtain ⟨a, ha⟩ := badRange_of_outside hout
  exact ⟨a, by simp only [issueTmm, tmmIssue_fits hfits, ha]; rfl⟩

/-- R539: the set holds something that the output format can be drained to. -/
def Drains (w : Nat) (c : Cell) : Prop :=
  issMode c (bitAt w 123) ≠ .empty ∧ ¬(fld w 113 110 = 10 ∧ issMode c (bitAt w 123) = .fp32)

/-- R100: every draw index of a drain is below 2^48. -/
def DrawsInRange (w : Nat) (op : DrainOp) : Prop :=
  fld w 113 110 = 10 ∨ fld w 122 121 ≠ 2 ∨ op.idxBase + 127 * op.idxRow + 63 < 2 ^ 48

theorem drains_iff {w : Nat} {c : Cell} :
    Drains w c ↔ ¬(issMode c (bitAt w 123) = .empty || (fld w 113 110 == 10 && issMode c (bitAt w 123) == .fp32)) = true := by
  simp [Drains]

theorem drawsInRange_iff {w : Nat} {op : DrainOp} : DrawsInRange w op ↔
    ¬(fld w 113 110 != 10 && fld w 122 121 == 2 && 2 ^ 48 ≤ op.idxBase + 127 * op.idxRow + 63) = true := by
  simp only [DrawsInRange, Bool.and_eq_true, bne_iff_ne, beq_iff_eq, decide_eq_true_eq, not_and, and_imp, not_le]
  rw [or_iff_not_imp_left, or_iff_not_imp_left, ne_eq, not_not]

theorem issueDrain_ok {w : Nat} {c : Cell} (hd : Drains w c)
    (hin : RangesInStore (drainRanges (mkDrain w c) ++ drainScales (mkDrain w c))) (hidx : DrawsInRange w (mkDrain w c)) :
    issueDrain w c = .ok (addFlight (takeToken c (wToken w)) (wToken w) (.tdrain (mkDrain w c))) 0 := by
  rw [issueDrain, if_neg (drains_iff.mp hd), badRange_eq_none.mpr hin]
  exact if_neg (drawsInRange_iff.mp hidx)

theorem issueDrain_empty {w : Nat} {c : Cell} (hd : ¬Drains w c) : issueDrain w c = .fault 0x01 :=
  if_pos (not_not.mp (mt drains_iff.mpr hd))

theorem issueDrain_outside {w : Nat} {c : Cell} (hd : Drains w c)
    (hout : ¬RangesInStore (drainRanges (mkDrain w c) ++ drainScales (mkDrain w c))) :
    ∃ a, issueDrain w c = .fault 0x03 a := by
  obtain ⟨a, ha⟩ := badRange_of_outside hout
  exact ⟨a, by rw [issueDrain, if_neg (drains_iff.mp hd), ha]; rfl⟩

theorem issueDrain_index {w : Nat} {c : Cell} (hd : Drains w c)
    (hin : RangesInStore (drainRanges (mkDrain w c) ++ drainScales (mkDrain w c)))
    (hidx : ¬DrawsInRange w (mkDrain w c)) : issueDrain w c = .fault 0x02 := by
  rw [issueDrain, if_neg (drains_iff.mp hd), badRange_eq_none.mpr hin]
  exact if_pos (not_not.mp (mt drawsInRange_iff.mpr hidx))

/-! ### Flights -/

/-- The flight of a token is the first that holds it; those before it are what came before. -/
theorem flightOf_append {c : Cell} {fs gs : List Flight} {f : Flight} (h : c.flights = fs ++ f :: gs)
    (hfs : ∀ g ∈ fs, g.token ≠ f.token) : flightOf c f.token = some f := by
  rw [flightOf, h, List.find?_append, List.find?_eq_none.mpr (by simpa using hfs)]
  simp

theorem flightsBefore_append {c : Cell} {fs gs : List Flight} {f : Flight} (h : c.flights = fs ++ f :: gs)
    (hfs : ∀ g ∈ fs, g.token ≠ f.token) : flightsBefore c f.token = fs := by
  rw [flightsBefore, h, List.takeWhile_append_of_pos (by simpa using hfs)]
  simp

theorem noTmmBefore_of {fs : List Flight} (h : ∀ f ∈ fs, ∀ o, f.kind ≠ .tmm o) : noTmmBefore fs = true := by
  simp only [noTmmBefore, Bool.not_eq_true', List.any_eq_false]
  intro f hf
  split
  next o he => exact absurd he (h f hf o)
  next => decide

theorem noDrainBefore_of {fs : List Flight} (h : ∀ f ∈ fs, ∀ o, f.kind ≠ .tdrain o) : noDrainBefore fs = true := by
  simp only [noDrainBefore, Bool.not_eq_true', List.any_eq_false]
  intro f hf
  split
  next o he => exact absurd he (h f hf o)
  next => decide

/-! ### Completion (R47 to R49, R540) -/

section
variable {s : State} {p : Pane16} {c : LCell} {t : BitVec 6} {i : Nat} {fs gs : List Flight}

/-- The oldest `TMM` of a cell ends. -/
theorem execTmmComplete_oldest (halive : cellAlive s p.val = true) {op : TmmOp}
    (h : (cell s p.val c.val).flights = fs ++ ⟨t.toNat, .tmm op, i⟩ :: gs)
    (hfs : ∀ f ∈ fs, f.token ≠ t.toNat ∧ ∀ o, f.kind ≠ .tmm o) : execTmmComplete p c t s =
      .next (landOut (tookFree s) p.val c.val i (finishTmm (cell s p.val c.val) s.free t.toNat op)) := by
  have htok : ∀ f ∈ fs, f.token ≠ t.toNat := fun f hf => (hfs f hf).1
  unfold execTmmComplete
  dsimp only
  rw [show flightOf (cell s p.val c.val) t.toNat = some ⟨t.toNat, .tmm op, i⟩ from flightOf_append h htok]
  dsimp only
  rw [show flightsBefore (cell s p.val c.val) t.toNat = fs from
    flightsBefore_append (f := ⟨t.toNat, .tmm op, i⟩) h htok]
  exact if_pos (by rw [halive, noTmmBefore_of fun f hf => (hfs f hf).2]; rfl)

/-- The oldest drain of a cell ends once it has its set. -/
theorem execTdrainComplete_oldest (halive : cellAlive s p.val = true) {op : DrainOp} {set : AccSet}
    (h : (cell s p.val c.val).flights = fs ++ ⟨t.toNat, .tdrain op, i⟩ :: gs)
    (hfs : ∀ f ∈ fs, f.token ≠ t.toNat ∧ ∀ o, f.kind ≠ .tdrain o)
    (hset : drainSource (cell s p.val c.val) fs op = some set) : execTdrainComplete p c t s =
      .next (landOut (tookFree s) p.val c.val i (finishDrain (cell s p.val c.val) s.free t.toNat op set)) := by
  have htok : ∀ f ∈ fs, f.token ≠ t.toNat := fun f hf => (hfs f hf).1
  unfold execTdrainComplete
  dsimp only
  rw [show flightOf (cell s p.val c.val) t.toNat = some ⟨t.toNat, .tdrain op, i⟩ from flightOf_append h htok]
  dsimp only
  rw [show flightsBefore (cell s p.val c.val) t.toNat = fs from
    flightsBefore_append (f := ⟨t.toNat, .tdrain op, i⟩) h htok, hset]
  exact if_pos (by rw [halive, noDrainBefore_of fun f hf => (hfs f hf).2]; rfl)

end

/-- Without a drain in flight a reader sees the store as it is. -/
theorem racedStore_of_noDrain {c : Cell} (h : ∀ f ∈ c.flights, ∀ o, f.kind ≠ .tdrain o) (fr a n : Nat) :
    racedStore c fr a n = c.store := by
  have key : ∀ (l : List Flight) (m : Mem) (g : Mem → Flight → Mem), (∀ f ∈ l, ∀ m, g m f = m) → l.foldl g m = m := by
    intro l
    induction l with
    | nil => intro m g _; rfl
    | cons f r ih =>
      intro m g hg
      rw [List.foldl_cons, hg f List.mem_cons_self, ih _ _ fun f hf => hg f (List.mem_cons_of_mem _ hf)]
  refine key _ _ _ fun f hf m => ?_
  split
  next o he => exact absurd he (h f hf o)
  next => rfl

theorem racedRanges_of_noDrain {c : Cell} (h : ∀ f ∈ c.flights, ∀ o, f.kind ≠ .tdrain o) (fr : Nat)
    (rs : List (Nat × Nat)) : racedRanges c fr rs = c.store := by
  unfold racedRanges
  induction rs with
  | nil => rfl
  | cons r rs ih => rw [List.foldl_cons, racedStore_of_noDrain h]; exact ih

/-- R79 to R90: a `TMM` that is its cell's one flight works on the store's bytes. -/
theorem finishTmm_alone {c : Cell} {t i fr : Nat} {op : TmmOp} {a : AccSet} {fl : Nat}
    (h : c.flights = [⟨t, .tmm op, i⟩]) (hold : op.olds = [])
    (hres : tmmResult c.store op (accOf c (bitAt op.word.toNat 123)) = .ok (a, fl)) :
    finishTmm c fr t op = .ok (giveToken { setAcc c (bitAt op.word.toNat 123) a with flights := [] } t) fl := by
  have hraced : racedRanges c fr (tmmRanges op) = c.store := racedRanges_of_noDrain (by rw [h]; simp) fr _
  have hbefore : flightsBefore c t = [] := by simp [flightsBefore, h]
  have hview : tmmView c.store fr op = c.store := by simp [tmmView, hold]
  simp only [finishTmm, hraced, hview, hres, hbefore, h]
  unfold setAcc dropFlight
  split <;> simp

/-- R84, R87: or faults. -/
theorem finishTmm_alone_fault {c : Cell} {t i fr code : Nat} {op : TmmOp} (h : c.flights = [⟨t, .tmm op, i⟩])
    (hold : op.olds = []) (hres : tmmResult c.store op (accOf c (bitAt op.word.toNat 123)) = .error code) :
    finishTmm c fr t op = .fault code := by
  have hraced : racedRanges c fr (tmmRanges op) = c.store := racedRanges_of_noDrain (by rw [h]; simp) fr _
  have hview : tmmView c.store fr op = c.store := by simp [tmmView, hold]
  simp only [finishTmm, hraced, hview, hres]

/-- R539, R540: so does a drain. -/
theorem finishDrain_alone {c : Cell} {t i fr : Nat} {op : DrainOp} {a : AccSet} (h : c.flights = [⟨t, .tdrain op, i⟩])
    (hhits : op.hits = []) : finishDrain c fr t op a =
      .ok (giveToken ((drainWrites c.store op a).1.foldl (fun z d => writeLocal z d.1 d.2) { c with flights := [] }) t)
        (drainWrites c.store op a).2 := by
  have hdrop : dropFlight c t = { c with flights := [] } := by simp [dropFlight, h]
  simp only [finishDrain, landDrain, hhits, List.isEmpty_nil, if_true, hdrop]

end Sys2Proof.Machine

open Sys2Proof Sys2Proof.Machine

/-- Settles O12: by what `TMM` and `TDRAIN` do at their issue, and at the completion of the oldest of each kind. -/
theorem tensorInstructions : Obligations.TensorInstructions := by
  unfold Obligations.TensorInstructions
  constructor
  · intro s p c w h x y held fmt exact inStore want fits tmm drain drains index fault
    have row2 (hclass : wClass w = 2) : (fun w => wClass w == 2) w = true := by simpa using hclass
    have row3 (hclass : wClass w = 3) : (fun w => wClass w == 3) w = true := by simpa using hclass
    have fault2 (hclass : wClass w = 2) {code : Nat} (hf : ∃ a, issueTmm exact w y = .fault code a) : fault code := by
      obtain ⟨a, ha⟩ := hf
      refine ⟨a, ?_⟩
      rw [if_pos hclass]
      exact issue_cell_fault h (row2 hclass) ha
    have fault3 (hclass : wClass w = 3) {code : Nat} (hf : ∃ a, issueDrain w y = .fault code a) : fault code := by
      obtain ⟨a, ha⟩ := hf
      refine ⟨a, ?_⟩
      rw [if_neg (by omega)]
      exact issue_cell_fault h (row3 hclass) ha
    exact ⟨fun hclass hfits hin => issue_cell_done h (row2 hclass) (issueTmm_ok (c := y) hfits hin),
      fun hclass hfits => fault2 hclass ⟨0, issueTmm_unfit (c := y) hfits⟩,
      fun hclass hfits hout => fault2 hclass (issueTmm_outside (c := y) hfits hout),
      fun hclass hd hin hidx => issue_cell_done h (row3 hclass) (issueDrain_ok (c := y) hd hin hidx),
      fun hclass hd => fault3 hclass ⟨0, issueDrain_empty (c := y) hd⟩,
      fun hclass hd hout => fault3 hclass (issueDrain_outside (c := y) hd hout),
      fun hclass hd hin hidx => fault3 hclass ⟨0, issueDrain_index (c := y) hd hin hidx⟩⟩
  · intro s p c t i halive x alone
    refine ⟨fun op a fl hx hold hres => ?_, fun op code hx hold hres => ?_, fun op hx hhits hsnap => ?_,
      fun fs gs op hx hfs => execTmmComplete_oldest halive hx hfs,
      fun fs gs op set hx hfs hset => execTdrainComplete_oldest halive hx hfs hset⟩
    · refine (execTmmComplete_oldest (fs := []) (gs := []) halive hx (by simp)).trans ?_
      rw [finishTmm_alone hx hold hres]
      rfl
    · refine (execTmmComplete_oldest (fs := []) (gs := []) halive hx (by simp)).trans ?_
      rw [finishTmm_alone_fault hx hold hres]
      rfl
    · refine (execTdrainComplete_oldest (fs := []) (gs := []) (set := accOf x (bitAt op.word.toNat 123)) halive hx
        (by simp) ?_).trans ?_
      · rw [drainSource, hsnap]; rfl
      · rw [finishDrain_alone hx hhits]
        rfl

end

section
/-! PROOFS. The transfers of the class `DMA` at their issue and at their completion (R63 to R65, R73, R138, R141, R142,
R541). -/

namespace Sys2Proof.Machine

/-! ### Issue -/

/-- R73: a transfer's length is in its range, its near end lies in the local store, and its far end exists. -/
def TransferEnds (farOk : Nat → Nat → Bool) (op : DmaOp) : Prop :=
  1 ≤ op.len ∧ op.len ≤ 6291456 ∧ op.loc + op.len ≤ 6291456 ∧ farOk op.remote op.len = true

theorem issueDma_ok {farOk : Nat → Nat → Bool} {w : Nat} {c : Cell} (h : TransferEnds farOk (mkDma w c)) :
    issueDma farOk w c = startDma w (mkDma w c) c := by
  obtain ⟨hpos, hmax, hloc, hfar⟩ := h
  have hlen : ¬((mkDma w c).len = 0 || decide (dmaMax < (mkDma w c).len)) = true := by
    simp only [Bool.or_eq_true, decide_eq_true_eq]
    unfold dmaMax
    omega
  rw [issueDma, if_neg hlen, if_neg (by simp [(localOk_iff _ _).mpr hloc]), if_neg (by simp [hfar])]

theorem issueDma_fault {farOk : Nat → Nat → Bool} {w : Nat} {c : Cell} (h : ¬TransferEnds farOk (mkDma w c)) :
    ∃ a, issueDma farOk w c = .fault 0x03 a := by
  unfold issueDma
  dsimp only
  split
  next => exact ⟨_, rfl⟩
  next hlen =>
    simp only [Bool.or_eq_true, decide_eq_true_eq, not_or] at hlen
    unfold dmaMax at hlen
    split
    next => exact ⟨_, rfl⟩
    next hloc =>
      split
      next => exact ⟨_, rfl⟩
      next hfar =>
        simp only [Bool.not_eq_true', Bool.not_eq_false, localOk_iff] at hloc hfar
        exact absurd ⟨by omega, by omega, hloc, hfar⟩ h

/-- R63: a gather's offset list and its near end lie in the local store, and each of its addresses in a range of the
pane's Plan. -/
def GatherFound (s : State) (p w : Nat) (tab : Nat) (op : DmaOp) : Prop :=
  tab + 8 * (fld w 93 82 + 1) ≤ 6291456 ∧ op.loc + op.len ≤ 6291456 ∧
  ∀ o ∈ op.offsets, ownNear s p ((op.remote + o) % 2 ^ 64) (gatherSize w) = true ∧
    inMemoryMap s p (gaOfs (BitVec.ofNat 64 ((op.remote + o) % 2 ^ 64))) (gatherSize w) = true

theorem issueGather_ok {s : State} {p fr w : Nat} {c : Cell}
    (h : GatherFound s p w (sreg c (fld w 79 75)) (mkGather fr w c)) :
    issueGather s p fr w c = startDma w (mkGather fr w c) c := by
  obtain ⟨htab, hloc, hall⟩ := h
  rw [issueGather, if_neg (by simp [(localOk_iff _ _).mpr htab]), if_neg (by simp [(localOk_iff _ _).mpr hloc])]
  have hnone : ((mkGather fr w c).offsets.find? fun o =>
      !(ownNear s p (((mkGather fr w c).remote + o) % 2 ^ 64) (gatherSize w) && inMemoryMap s p
        (gaOfs (BitVec.ofNat 64 (((mkGather fr w c).remote + o) % 2 ^ 64))) (gatherSize w))) = none :=
    List.find?_eq_none.mpr fun o ho => by rw [(hall o ho).1, (hall o ho).2]; decide
  simp only [hnone]

theorem issueGather_fault {s : State} {p fr w : Nat} {c : Cell}
    (h : ¬GatherFound s p w (sreg c (fld w 79 75)) (mkGather fr w c)) : ∃ a, issueGather s p fr w c = .fault 0x03 a := by
  unfold issueGather
  dsimp only
  split
  next => exact ⟨_, rfl⟩
  next htab =>
    split
    next => exact ⟨_, rfl⟩
    next hloc =>
      split
      next => exact ⟨_, rfl⟩
      next hall =>
        simp only [Bool.not_eq_true', Bool.not_eq_false, localOk_iff] at htab hloc
        refine absurd ⟨htab, hloc, fun o ho => ?_⟩ h
        simpa using List.find?_eq_none.mp hall o ho

/-! ### Completion (R541) -/

@[simp] theorem memRead_length (m : Mem) (a n : Nat) : (memRead m a n).length = n := by
  induction n generalizing a with
  | zero => rfl
  | succ n ih => rw [memRead, List.length_cons, ih]

@[simp] theorem readLocal_length (c : Cell) (fr a n : Nat) : (readLocal c fr a n).length = n := by
  unfold readLocal
  split
  · exact memRead_length ..
  · exact memRead_length ..

theorem moveBytes_length {fr src dst n : Nat} {overlaps : Bool} {d : List Byte} :
    (moveBytes fr overlaps src dst n d).length = d.length := by
  unfold moveBytes
  split
  · rfl
  · simp

/-- A move delivers its source's bytes, but for those that it writes itself. -/
theorem moveBytes_getElem? {fr src dst n k : Nat} {overlaps : Bool} {d : List Byte}
    (h : overlaps = false ∨ src = dst ∨ src + k < dst ∨ dst + n ≤ src + k) :
    (moveBytes fr overlaps src dst n d)[k]? = d[k]? := by
  unfold moveBytes
  split
  next => rfl
  next hover =>
    have hapart : ¬(dst ≤ src + k ∧ src + k < dst + n) := by
      simp only [Bool.or_eq_true, Bool.not_eq_true', decide_eq_true_eq, not_or] at hover
      rcases h with h | h | h | h
      · exact absurd h hover.1
      · exact absurd h hover.2
      · omega
      · omega
    cases hk : d[k]? with
    | none => simpa using hk
    | some b => simp [hk, hapart]

theorem landLoad_clean {s : State} {p l t i : Nat} {op : DmaOp}
    (h : ∀ q ∈ dmaPieces op, rangePoison (nearOf s p) q.1 q.2 = false) : landLoad s p l t i op =
      modCell s p l fun c =>
        endFlight (writeLocal c op.loc ((dmaPieces op).flatMap fun q => nearGet (nearOf s p) q.1 q.2)) t := by
  have hnone : ((dmaPieces op).find? fun q => rangePoison (nearOf s p) q.1 q.2) = none :=
    List.find?_eq_none.mpr fun q hq => Bool.eq_false_iff.mp (h q hq)
  simp only [landLoad, hnone]

section
variable {s : State} {p : Pane16} {c : LCell} {t : BitVec 6} {op : DmaOp} {i : Nat}

/-- With no retry due a transfer that met no error completes. -/
theorem execDmaComplete_clean (halive : cellAlive s p.val = true)
    (hflight : flightOf (cell s p.val c.val) t.toNat = some ⟨t.toNat, .dma op, i⟩)
    (hret : (nearOf s p.val).retries = []) :
    execDmaComplete p c t none s = .next (landDma (tookFree s) p.val c.val t.toNat i op) := by
  unfold execDmaComplete
  rw [hflight]
  dsimp only
  rw [halive, hret]
  rfl

/-- A transfer that met an error on a line it touches goes on at once, or waits for the retry that it calls for. -/
theorem execDmaComplete_error (halive : cellAlive s p.val = true)
    (hflight : flightOf (cell s p.val c.val) t.toNat = some ⟨t.toNat, .dma op, i⟩)
    (hret : (nearOf s p.val).retries = []) {line : BitVec 30} (hline : (dmaPieces op).any (lineIn (64 * line.toNat)) = true)
    (e : Ecc) : execDmaComplete p c t (some (line, e)) s =
      if (nearFirst s p.val line.toNat false e).2 then .next (nearFirst s p.val line.toNat false e).1
      else .next (landDma (tookFree (nearFirst s p.val line.toNat false e).1) p.val c.val t.toNat i op) := by
  unfold execDmaComplete
  rw [hflight]
  dsimp only
  rw [halive, hret, if_pos hline]
  rfl

/-- R142: a first uncorrectable error on a line calls for its retry. -/
theorem nearFirst_uncorrectable {line : Nat} (hpoison : isPoison (nearOf s p.val) line = false)
    (hret : (nearOf s p.val).retries = []) (scrub : Bool) : nearFirst s p.val line scrub .uncorrectable =
      (modNear s p.val fun m => { m with retries := [(line, scrub)] }, true) := by
  have hq : ((nearOf s p.val).retries.any (·.1 == line)) = false := by rw [hret]; rfl
  have hput : (modNear s p.val fun m => { m with retries := m.retries ++ [(line, scrub)] }) =
      modNear s p.val fun m => { m with retries := [(line, scrub)] } := by
    have hret' : (pane s p.val).near.retries = [] := hret
    simp only [modNear, modPane, hret', List.nil_append]
  simp only [nearFirst, hpoison, hq, hput]
  rfl

end

end Sys2Proof.Machine

open Sys2Proof Sys2Proof.Machine

/-- Settles O13: by what the transfers do at their issue, and by what lands of each kind. -/
theorem dmaInstructions : Obligations.DmaInstructions := by
  unfold Obligations.DmaInstructions
  constructor
  · intro s p c w h x y go op ends near other bad gather tab found
    have dma {farOk : Nat → Nat → Bool} {n : Nat} {far : Prop} (hfar : far ↔ farOk op.remote op.len = true)
        (hrow : rowOp 8 n w = true) {i : Instr}
        (hexec : exec i s = .next (issueWith (rowOp 8 n) (actCell (issueDma farOk)) s p.val c.val)) :
        (ends far → exec i s = go op s) ∧ (¬ends far → bad i s) := by
      have hends : ends far ↔ TransferEnds farOk (mkDma w y) := by
        simp only [ends, TransferEnds, hfar]
        rfl
      refine ⟨fun hok => hexec.trans (issue_cell_done h hrow (issueDma_ok (c := y) (hends.mp hok))), fun hbad => ?_⟩
      obtain ⟨a, ha⟩ := issueDma_fault (c := y) (mt hends.mpr hbad)
      exact ⟨a, hexec.trans (issue_cell_fault h hrow ha)⟩
    refine ⟨fun hrow => dma Iff.rfl hrow rfl, fun hrow => dma Iff.rfl hrow rfl,
      fun hrow => dma (localOk_iff ..).symm hrow rfl, fun hrow => dma (localOk_iff ..).symm hrow rfl,
      fun hrow => ⟨fun hok => issue_read_done h hrow (issueGather_ok (c := y) hok), fun hbad => ?_⟩⟩
    obtain ⟨a, ha⟩ := issueGather_fault (c := y) hbad
    exact ⟨a, issue_read_fault h hrow ha⟩
  · intro s p c t op i halive hflight hret s1 near done e
    have hexec : e = .next (landDma s1 p.val c.val t.toNat i op) := execDmaComplete_clean halive hflight hret
    have single (hop : wOp4 op.word.toNat = 0) : landDma s1 p.val c.val t.toNat i op = landLoad s1 p.val c.val t.toNat i op ∧
        dmaPieces op = [(near, op.len)] := by
      constructor
      · unfold landDma; simp only [hop]
      · unfold dmaPieces; simp only [hop]; rfl
    refine ⟨fun hop hclean => ?_, fun hop hpoison => ?_, fun hop => ?_, fun hop hclean => ?_, fun hop => ?_,
      fun line hline => ⟨?_, fun hpoison => ?_⟩⟩
    · obtain ⟨hland, hpieces⟩ := single hop
      rw [hexec, hland, landLoad_clean (s := s1) (by rw [hpieces]; exact List.forall_mem_singleton.mpr hclean), hpieces, List.flatMap_singleton]
      rfl
    · obtain ⟨hland, hpieces⟩ := single hop
      have hfind : [(near, op.len)].find? (fun q => rangePoison (nearOf s1 p.val) q.1 q.2) = some (near, op.len) :=
        List.find?_cons_of_pos hpoison
      rw [hexec, hland, landLoad, hpieces, hfind]
      rfl
    · rw [hexec]
      unfold landDma
      simp only [hop]
      rfl
    · have hland : landDma s1 p.val c.val t.toNat i op = landLoad s1 p.val c.val t.toNat i op := by
        unfold landDma; simp only [hop]
      rw [hexec, hland, landLoad_clean (s := s1) hclean]
      rfl
    · intro target src
      refine ⟨moveBytes s1.free (target == c.val) op.loc op.remote op.len src, ?_, fun k hk hapart => ?_, ?_⟩
      · rw [moveBytes_length]
        exact readLocal_length ..
      · refine moveBytes_getElem? (hapart.imp (fun hne => ?_) id)
        simpa using hne
      · rw [hexec]
        unfold landDma
        rcases hop with hop | hop
        · simp only [hop, target]; rfl
        · simp only [hop, target]; rfl
    · exact execDmaComplete_error halive hflight hret hline .corrected
    · refine (execDmaComplete_error halive hflight hret hline .uncorrectable).trans ?_
      rw [nearFirst_uncorrectable hpoison hret]
      rfl

end

section
/-! PROOFS. The class `SYNC`: tokens and pane barriers (R53), and the cells of a pane changed together. -/

namespace Sys2Proof.Machine

/-! ### The cells of a pane -/

theorem cellKey_inj {p c d : Nat} : cellKey p c = cellKey p d ↔ c = d := by
  unfold cellKey
  omega

/-- A cell changed, by the physical cell that holds its number (R67). -/
theorem physCell_modCell (s : State) (p l k : Nat) (f : Cell → Cell) :
    physCell (modCell s p l f) p k = if k = physOf s p l then f (physCell s p k) else physCell s p k := by
  show physCell (setPhysCell s p (physOf s p l) (f (cell s p l))) p k = _
  rw [cell_setPhysCell]
  simp only [cellKey_inj]
  split
  next h => rw [h]; rfl
  next => rfl

/-- Every logical cell of a pane is changed once by an operation that does no more when it is done twice. -/
theorem cell_modCells {s : State} {p l : Nat} {f : Cell → Cell} (hf : ∀ c, f (f c) = f c) (hl : l < 32) :
    cell (modCells s p f) p l = f (cell s p l) := by
  have key (n : Nat) : let t := (List.range n).foldl (fun s l => modCell s p l f) s
      (∀ k, physOf t p k = physOf s p k) ∧
      ∀ k, physCell t p k = if ∃ j, j < n ∧ physOf s p j = k then f (physCell s p k) else physCell s p k := by
    induction n with
    | zero => simp
    | succ n ih =>
      obtain ⟨hphys, hcell⟩ := ih
      rw [List.range_succ, List.foldl_append, List.foldl_cons, List.foldl_nil]
      refine ⟨fun k => hphys k, fun k => ?_⟩
      rw [physCell_modCell, hcell, hphys]
      by_cases hk : k = physOf s p n
      · have hex : ∃ j, j < n + 1 ∧ physOf s p j = k := ⟨n, Nat.lt_succ_self n, hk.symm⟩
        simp only [if_pos hk, if_pos hex]
        split
        · exact hf _
        · rfl
      · rw [if_neg hk]
        refine if_congr (exists_congr fun j => and_congr_left fun hj => ?_) rfl rfl
        have : j ≠ n := fun e => hk (hj.symm.trans (by rw [e]))
        omega
  obtain ⟨hphys, hcell⟩ := key 32
  unfold cell modCells
  rw [hphys, hcell, if_pos ⟨l, hl, rfl⟩]

theorem modCells_eq (s : State) (p : Nat) (f : Cell → Cell) : ∃ cells, modCells s p f = { s with cells := cells } := by
  have key (l : List Nat) : ∀ s : State, ∃ cells, l.foldl (fun s l => modCell s p l f) s = { s with cells := cells } := by
    induction l with
    | nil => exact fun s => ⟨s.cells, rfl⟩
    | cons a l ih =>
      intro s
      obtain ⟨cells, h⟩ := ih (modCell s p a f)
      exact ⟨cells, h⟩
  exact key _ s

/-! ### Tokens and barriers -/

theorem modCell_eq_setCell {s : State} {p l : Nat} {f : Cell → Cell} {c : Cell} (h : f (cell s p l) = c) :
    modCell s p l f = setCell s p l c := by rw [modCell, h]

theorem barrierFull_of {s : State} {p b : Nat} (hany : tblGet (0 : BitVec 32) (pane s p).barriers b ≠ 0)
    (hall : ∀ l, l < 32 → (cell s p l).seqCount ≠ 0 → (tblGet (0 : BitVec 32) (pane s p).barriers b).getLsbD l = true) :
    barrierFull s p b = true := by
  simp only [barrierFull, Bool.and_eq_true, bne_iff_ne, List.all_eq_true, List.mem_range, Bool.or_eq_true, beq_iff_eq]
  exact ⟨hany, fun l hl => or_iff_not_imp_left.mpr (hall l hl)⟩

/-- The cell that stands at a barrier may issue again; another is left alone. -/
def leaveBarrier (bar : BitVec 4) (c : Cell) : Cell := if c.barrier = some bar then { c with barrier := none } else c

theorem leaveBarrier_twice (bar : BitVec 4) (c : Cell) : leaveBarrier bar (leaveBarrier bar c) = leaveBarrier bar c := by
  unfold leaveBarrier
  by_cases h : c.barrier = some bar
  · simp [h]
  · simp [h]

theorem setBarrier_cell (s : State) (p b q l : Nat) (v : BitVec 32) :
    cell (modPane s p fun x => { x with barriers := tblPut 0 x.barriers b v }) q l = cell s q l :=
  have hview : cellView (modPane s p fun x => { x with barriers := tblPut 0 x.barriers b v }) = cellView s :=
    modPane_cellView fun _ => ⟨rfl, rfl⟩
  cell_eq_of_cellView hview q l

theorem execBarrierComplete_full {s : State} {p : Pane16} {bar : BitVec 4} (h : barrierFull s p.val bar.toNat = true) :
    execBarrierComplete p bar s = .next (modPane (modCells s p.val (leaveBarrier bar)) p.val
      fun x => { x with barriers := tblPut 0 x.barriers bar.toNat 0 }) := if_pos h

end Sys2Proof.Machine

open Sys2Proof Sys2Proof.Machine

/-- Settles O16: by the acts of `SYNC_WAIT` and `PANE_BARRIER`, and by a full barrier's release of its cells. -/
theorem tokensAndBarriers : Obligations.TokensAndBarriers := by
  unfold Obligations.TokensAndBarriers
  constructor
  · intro s p c w h x m b
    refine ⟨fun hrow hset => ?_, fun hrow hunset => ?_, fun hrow => congrArg _ (issueWith_acts h hrow)⟩
    · refine congrArg _ ((issueWith_acts h hrow).trans (modCell_eq_setCell ?_))
      exact if_pos hset
    · refine congrArg _ ((issueWith_acts h hrow).trans (modCell_eq_setCell ?_))
      exact if_neg hunset
  · intro s p bar arrived hwf hany hall
    obtain ⟨cells, hcells⟩ := modCells_eq s p.val (leaveBarrier bar)
    have hfull : barrierFull s p.val bar.toNat = true := barrierFull_of hany hall
    generalize ht : modPane (modCells s p.val (leaveBarrier bar)) p.val
      (fun x => { x with barriers := tblPut 0 x.barriers bar.toNat 0 }) = t
    have hexec : exec (.barrierComplete p bar) s = .next t := ht ▸ execBarrierComplete_full hfull
    have hbar : (pane t p.val).barriers = tblPut 0 (pane s p.val).barriers bar.toNat 0 := by
      rw [← ht, pane_modPane_self, hcells]
      rfl
    have hcell (l : Nat) (hl : l < 32) : cell t p.val l = leaveBarrier bar (cell s p.val l) := by
      rw [← ht, setBarrier_cell]
      exact cell_modCells (leaveBarrier_twice bar) hl
    have hrest : t.groups = s.groups ∧ t.latches = s.latches ∧ t.time = s.time ∧ t.evrec = s.evrec := by
      rw [← ht, hcells]
      exact ⟨rfl, rfl, rfl, rfl⟩
    refine ⟨t, hexec, ?_, fun k hk => ?_, hcell, hrest⟩
    · rw [hbar]
      exact tblGet_tblPut_self _ _ _ _ hwf
    · rw [hbar]
      exact tblGet_tblPut_ne _ _ _ _ _ hk

end

section
/-! PROOFS. The latch unit (R207 to R217): what an answer leaves alone, the latches themselves, and the latch operations of
the cells of this module. -/

namespace Sys2Proof.Machine

/-- A refusal is charged on the island and nowhere else. -/
theorem modMeter_eq (s : State) (p : Nat) (f : Meter → Meter) : ∃ isl, modMeter s p f = { s with island := isl } := by
  unfold modMeter
  split
  · exact ⟨s.island, rfl⟩
  · split
    · exact ⟨_, rfl⟩
    · exact ⟨_, rfl⟩

theorem meterRefusal_eq (s : State) (p : Nat) : ∃ isl, meterRefusal s p = { s with island := isl } := modMeter_eq s p _

/-! ### What an answer to a waiter leaves alone -/

/-- The clock, the pins and the latches: what a change of a pane or a cell leaves alone. -/
def besidePanes (s : State) : BeatUnit × PowerUnit × Tbl Latch := (s.time, s.power, s.latches)

theorem besidePanes_sendResponse (s : State) (p : Nat) (m : Msg) : besidePanes (sendResponse s p m) = besidePanes s := by
  unfold sendResponse
  split <;> rfl

theorem besidePanes_countNack (s : State) (p code : Nat) : besidePanes (countNack s p code) = besidePanes s := by
  unfold countNack
  split <;> rfl

theorem besidePanes_respondCode (s : State) (p : Nat) (m : Msg) (code : Nat) :
    besidePanes (respondCode s p m code) = besidePanes s := by
  refine (besidePanes_sendResponse _ _ _).trans (Eq.trans ?_ (besidePanes_countNack s p code))
  repeat' split
  all_goals rfl

theorem besidePanes_answerWaiter (s : State) (h : Nat) (w : Waiter) (code : Nat) (r : BitVec 64) :
    besidePanes (answerWaiter s h w code r) = besidePanes s := by
  unfold answerWaiter
  split
  · rfl
  · split
    · exact besidePanes_sendResponse _ _ _
    · exact besidePanes_respondCode _ _ _ _
  · rfl

theorem besidePanes_answerAll (l : List Waiter) (h code : Nat) (r : BitVec 64) (s : State) :
    besidePanes (l.foldl (fun s w => answerWaiter s h w code r) s) = besidePanes s := by
  induction l generalizing s with
  | nil => rfl
  | cons w l ih => exact (ih _).trans (besidePanes_answerWaiter _ _ _ _ _)

theorem latches_eq_of_besidePanes {s t : State} (h : besidePanes t = besidePanes s) : t.latches = s.latches :=
  congrArg (fun x => x.2.2) h

/-- The clock and the pins. -/
def clockPins (s : State) : BeatUnit × PowerUnit := (s.time, s.power)

theorem clockPins_of_besidePanes {s t : State} (h : besidePanes t = besidePanes s) : clockPins t = clockPins s :=
  congrArg (fun x => (x.1, x.2.1)) h

theorem clockPins_grantNext (s : State) (i code : Nat) : clockPins (grantNext s i code) = clockPins s := by
  unfold grantNext
  dsimp only
  split
  · exact (clockPins_of_besidePanes (besidePanes_answerWaiter _ _ _ _ _)).trans rfl
  · rfl

theorem clockPins_orphanLatch (s : State) (i : Nat) : clockPins (orphanLatch s i) = clockPins s := by
  unfold orphanLatch
  dsimp only
  split
  · exact clockPins_grantNext _ _ _
  · rfl

theorem clockPins_noteEpoch (s : State) (i : Nat) (w : Waiter) : clockPins (noteEpoch s i w) = clockPins s := by
  unfold noteEpoch
  dsimp only
  split
  · exact clockPins_orphanLatch _ _
  · rfl

theorem clockPins_latchArrive (s : State) (i n : Nat) : clockPins (latchArrive s i n) = clockPins s := by
  unfold latchArrive
  dsimp only
  exact (clockPins_of_besidePanes (besidePanes_answerAll _ _ _ _ _)).trans rfl

theorem moduleId_eq_of_clockPins {s t : State} (h : clockPins t = clockPins s) : moduleId t = moduleId s := by
  have hp : t.power = s.power := congrArg Prod.snd h
  rw [moduleId, moduleId, hp]

/-! ### The latches -/

theorem latchOf_modLatch_self {s : State} (h : tblWf latchZero s.latches = true) (i : Nat) (f : Latch → Latch) :
    latchOf (modLatch s i f) i = f (latchOf s i) := tblGet_tblPut_self _ _ _ _ h

theorem latchOf_modLatch_ne {i j : Nat} (h : j ≠ i) (s : State) (f : Latch → Latch) :
    latchOf (modLatch s i f) j = latchOf s j := tblGet_tblPut_ne _ _ _ _ _ h

theorem latchOf_eq_of_besidePanes {s t : State} (h : besidePanes t = besidePanes s) (i : Nat) : latchOf t i = latchOf s i := by
  rw [latchOf, latchOf, latches_eq_of_besidePanes h]

/-- A latch after an `ARRIVE`. -/
def arrived (l : Latch) (n : Nat) : Latch :=
  { l with count := l.count + BitVec.ofNat 48 n
           waits := l.waits.filter fun w => !waitMet (l.count + BitVec.ofNat 48 n) w.target }

theorem latchOf_latchArrive (s : State) (i n j : Nat) :
    latchOf (latchArrive s i n) j = latchOf (modLatch s i fun l => arrived l n) j :=
  latchOf_eq_of_besidePanes (besidePanes_answerAll ((latchOf s i).waits.filter _) _ _ _ (modLatch s i _)) j

theorem latchOf_latchArrive_self {s : State} (h : tblWf latchZero s.latches = true) (i n : Nat) :
    latchOf (latchArrive s i n) i = arrived (latchOf s i) n := by
  rw [latchOf_latchArrive, latchOf_modLatch_self h]

theorem latchOf_latchArrive_ne {i j : Nat} (h : j ≠ i) (s : State) (n : Nat) : latchOf (latchArrive s i n) j = latchOf s j := by
  rw [latchOf_latchArrive, latchOf_modLatch_ne h]

theorem mem_arrived_waits {l : Latch} {n : Nat} {v : Waiter} (h : v ∈ l.waits) :
    v ∈ (arrived l n).waits ↔ 2 ^ 47 ≤ (l.count + BitVec.ofNat 48 n - v.target).toNat := by
  simp only [arrived, waitMet, List.mem_filter, h, true_and, Bool.not_eq_true', decide_eq_false_iff_not, not_lt]

theorem latchOf_grantNext_free {s : State} {i : Nat} (h : (latchOf s i).queue = []) (code j : Nat) :
    latchOf (grantNext s i code) j = latchOf (modLatch s i fun l => { l with state := laFree }) j := by
  unfold grantNext
  simp only [h]

theorem latchOf_grantNext_head {s : State} {i : Nat} {v : Waiter} {r : List Waiter} (h : (latchOf s i).queue = v :: r)
    (code j : Nat) :
    latchOf (grantNext s i code) j = latchOf (modLatch s i fun l => grantTo { l with queue := r } v) j := by
  unfold grantNext
  simp only [h]
  exact latchOf_eq_of_besidePanes (besidePanes_answerWaiter _ _ _ _ _) j

theorem latchOf_grantNext_ne {i j : Nat} (h : j ≠ i) (s : State) (code : Nat) :
    latchOf (grantNext s i code) j = latchOf s j := by
  cases hq : (latchOf s i).queue with
  | nil => rw [latchOf_grantNext_free hq, latchOf_modLatch_ne h]
  | cons v r => rw [latchOf_grantNext_head hq, latchOf_modLatch_ne h]

/-! ### The four operations at the latch's home -/

section
variable (s : State) (i a : Nat) (w : Waiter)

theorem latchRequest_arrive : latchRequest s 5 i a w = .done (latchArrive (noteEpoch s i w) i a) cOk
    (((latchOf (noteEpoch s i w) i).count + BitVec.ofNat 48 a).setWidth 64) := by
  simp [latchRequest]

theorem latchRequest_wait_met (h : waitMet (latchOf (noteEpoch s i w) i).count w.target = true) :
    latchRequest s 6 i a w = .done (noteEpoch s i w) cOk ((latchOf (noteEpoch s i w) i).count.setWidth 64) := by
  simp only [latchRequest, h, if_true, reduceIte, Nat.reduceEqDiff]

theorem latchRequest_wait_unmet (h : waitMet (latchOf (noteEpoch s i w) i).count w.target = false)
    (hd : w.device = moduleId (noteEpoch s i w)) : latchRequest s 6 i a w =
      .waits (modLatch (noteEpoch s i w) i fun l => { l with waits := l.waits ++ [w] }) := by
  simp [latchRequest, h, hd]

theorem latchRequest_acquire_open (h : (latchOf (noteEpoch s i w) i).state ≠ laHeld) : latchRequest s 7 i a w =
    .done (modLatch (noteEpoch s i w) i fun l => grantTo l w)
      (if (latchOf (noteEpoch s i w) i).state = laOrphaned then cOrphaned else cOk) 0 := by
  simp [latchRequest, h]

theorem latchRequest_acquire_joins (h : (latchOf (noteEpoch s i w) i).state = laHeld)
    (hu : waitersUsed (noteEpoch s i w) < 4096) : latchRequest s 7 i a w =
      .waits (modLatch (noteEpoch s i w) i fun l => { l with queue := joinQueue w l.queue }) := by
  simp [latchRequest, h, Nat.not_le.mpr hu]

theorem latchRequest_acquire_full (h : (latchOf (noteEpoch s i w) i).state = laHeld)
    (hu : 4096 ≤ waitersUsed (noteEpoch s i w)) : latchRequest s 7 i a w = .full := by
  simp [latchRequest, h, hu]

theorem latchRequest_release_held (h : latchHolder (latchOf (noteEpoch s i w) i) w.device w.pane w.epoch = true) :
    latchRequest s 8 i a w = .done (grantNext (noteEpoch s i w) i cOk) cOk 0 := by
  simp [latchRequest, h]

theorem latchRequest_release_other (h : latchHolder (latchOf (noteEpoch s i w) i) w.device w.pane w.epoch = false) :
    latchRequest s 8 i a w = .done (noteEpoch s i w) cNotHolder 0 := by
  simp [latchRequest, h]

end

/-- What an operation answered at once leaves alone. -/
theorem latchRequest_done_clockPins {s : State} {op i a : Nat} {w : Waiter} {t : State} {code : Nat} {r : BitVec 64}
    (h : latchRequest s op i a w = .done t code r) : clockPins t = clockPins s := by
  refine Eq.trans ?_ (clockPins_noteEpoch s i w)
  unfold latchRequest at h
  dsimp only at h
  split at h
  · cases h; exact clockPins_latchArrive _ _ _
  split at h
  · split at h
    · cases h; rfl
    split at h <;> cases h
  split at h
  · split at h
    · split at h <;> cases h
    · cases h; rfl
  split at h
  · cases h; exact clockPins_grantNext _ _ _
  · cases h; rfl

/-! ### An operation refused (R196, R214) -/

theorem setLatchOp_flights (t : Nat) (f : LatchOp → LatchOp) (c : Cell) (op : LatchOp) (i : Nat)
    (h : flightOf c t = some ⟨t, .latch op, i⟩) : flightOf (setLatchOp t f c) t = some ⟨t, .latch (f op), i⟩ := by
  unfold flightOf setLatchOp at *
  show List.find? _ (List.map _ c.flights) = _
  rw [List.find?_map]
  have hp : (fun x : Flight => x.token == t) ∘ (fun x : Flight => match x.kind with
      | .latch op => if x.token = t then { x with kind := FlightKind.latch (f op) } else x
      | _ => x) = fun x => x.token == t := by
    funext x
    obtain ⟨tok, kind, idx⟩ := x
    cases kind with
    | latch o => by_cases ht : tok = t <;> simp [ht]
    | _ => rfl
  erw [hp, h]
  simp

theorem setLatchOp_setLatchOp (t : Nat) (f g : LatchOp → LatchOp) (c : Cell) :
    setLatchOp t g (setLatchOp t f c) = setLatchOp t (fun o => g (f o)) c := by
  unfold setLatchOp
  simp only [List.map_map]
  congr 1
  refine List.map_congr_left fun x _ => ?_
  obtain ⟨tok, kind, idx⟩ := x
  cases kind with
  | latch o => by_cases ht : tok = t <;> simp [ht]
  | _ => rfl

/-- The retry-at beat of a refused operation of this module: one of the next eight. -/
theorem latchRefused_beat (s : State) (p l t : Nat) : ∃ b, s.time.beat ≤ b ∧ b < s.time.beat + 8 ∧
    cell (latchRefused s p l t) p l = setLatchOp t (fun op => { op with retryAt := some b }) (cell s p l) := by
  refine ⟨s.time.beat + (Config.freeWord s.free).toNat % 8, Nat.le_add_right _ _, by omega, ?_⟩
  have hview (u : State) (f : RmoUnit → RmoUnit) : cellView (modRmo u p f) = cellView u :=
    modPane_cellView fun _ => ⟨rfl, rfl⟩
  obtain ⟨isl, hisl⟩ := meterRefusal_eq (modCell (modRmo (tookFree s) p _) p l _) p
  unfold latchRefused
  dsimp only
  rw [hisl]
  exact (cell_modCell_self _ _ _ _).trans (congrArg _ (cell_eq_of_cellView (s := tookFree s) (hview (tookFree s) _) p l))

theorem latchRefused_retries (s : State) (p l t : Nat) :
    (rmoOf (latchRefused s p l t) p).retries = BitVec.ofNat 16 (satAdd 16 (rmoOf s p).retries.toNat 1) := by
  have h : pane (latchRefused s p l t) p = pane (modRmo (tookFree s) p fun u =>
    { u with retries := BitVec.ofNat 16 (satAdd 16 u.retries.toNat 1) }) p := by
    obtain ⟨isl, hisl⟩ := meterRefusal_eq (modCell (modRmo (tookFree s) p _) p l _) p
    unfold latchRefused
    dsimp only
    rw [hisl]
    rfl
  rw [rmoOf, h, modRmo, pane_modPane_self]
  rfl

/-! ### The issue of a latch operation (R209, R213) -/

section
variable {op a k : Nat} {good : Bool} {s : State} {p l w : Nat}

/-- The operation that a cell has in flight once it has issued. -/
def latchFlight (s : State) (op a k comp w : Nat) (out : Option (Nat × BitVec 64)) : LatchOp :=
  { latch := k, comp := comp, waits := opWaits op
    limit := if opWaits op then some (now s + 8192 * limitBeats w) else none, outcome := out, op := op, arg := a
    retryAt := none }

theorem issueLatch_outside (h : 6291456 < sreg (cell s p l) (fld w 103 99) + 16) :
    issueLatch op a good s p l w =
      cellFault s p l 0x03 (cell s p l).pc (sreg (cell s p l) (fld w 103 99)) := by
  have hb : localOk (sreg (cell s p l) (fld w 103 99)) 16 = false :=
    Bool.eq_false_iff.mpr fun e => absurd ((localOk_iff _ _).mp e) (Nat.not_le.mpr h)
  unfold issueLatch
  simp only [hb, Bool.not_false, if_true]
  rfl

theorem issueLatch_inside (h : sreg (cell s p l) (fld w 103 99) + 16 ≤ 6291456) :
    issueLatch op a good s p l w =
      match (if good then ownLatch s p (sreg (cell s p l) (fld w 113 109)) else none) with
      | none => modCell s p l (flyLatch (latchFlight s op a 0 (sreg (cell s p l) (fld w 103 99)) w (some (cRange, 0))) (wToken w))
      | some k => match latchRequest s op k a (localWaiter s p l (wToken w) a) with
        | .done s1 code res =>
          modCell s1 p l (flyLatch (latchFlight s op a k (sreg (cell s p l) (fld w 103 99)) w (some (code, res))) (wToken w))
        | .waits s1 => modCell s1 p l (flyLatch (latchFlight s op a k (sreg (cell s p l) (fld w 103 99)) w none) (wToken w))
        | .full =>
          latchRefused (modCell s p l (flyLatch (latchFlight s op a k (sreg (cell s p l) (fld w 103 99)) w none) (wToken w)))
            p l (wToken w) := by
  have hb : localOk (sreg (cell s p l) (fld w 103 99)) 16 = true := (localOk_iff _ _).mpr h
  unfold issueLatch
  simp only [hb, Bool.not_true]
  rfl

theorem issueLatch_noLatch (h : sreg (cell s p l) (fld w 103 99) + 16 ≤ 6291456)
    (hno : good = false ∨ ownLatch s p (sreg (cell s p l) (fld w 113 109)) = none) :
    issueLatch op a good s p l w =
      modCell s p l (flyLatch (latchFlight s op a 0 (sreg (cell s p l) (fld w 103 99)) w (some (cRange, 0))) (wToken w)) := by
  rw [issueLatch_inside h]
  rcases hno with hno | hno
  · simp [hno]
  · simp [hno]

/-- What the latch unit answers makes the operation's outcome. -/
theorem issueLatch_done (h : sreg (cell s p l) (fld w 103 99) + 16 ≤ 6291456) (hg : good = true)
    (hk : ownLatch s p (sreg (cell s p l) (fld w 113 109)) = some k) {z : State} {code : Nat} {r : BitVec 64}
    (ha : latchRequest s op k a (localWaiter s p l (wToken w) a) = .done z code r) :
    issueLatch op a good s p l w =
      modCell z p l (flyLatch (latchFlight s op a k (sreg (cell s p l) (fld w 103 99)) w (some (code, r))) (wToken w)) := by
  rw [issueLatch_inside h]
  simp [hg, hk, ha]

theorem issueLatch_waits (h : sreg (cell s p l) (fld w 103 99) + 16 ≤ 6291456) (hg : good = true)
    (hk : ownLatch s p (sreg (cell s p l) (fld w 113 109)) = some k) {z : State}
    (ha : latchRequest s op k a (localWaiter s p l (wToken w) a) = .waits z) :
    issueLatch op a good s p l w =
      modCell z p l (flyLatch (latchFlight s op a k (sreg (cell s p l) (fld w 103 99)) w none) (wToken w)) := by
  rw [issueLatch_inside h]
  simp [hg, hk, ha]

theorem issueLatch_full (h : sreg (cell s p l) (fld w 103 99) + 16 ≤ 6291456) (hg : good = true)
    (hk : ownLatch s p (sreg (cell s p l) (fld w 113 109)) = some k)
    (ha : latchRequest s op k a (localWaiter s p l (wToken w) a) = .full) :
    issueLatch op a good s p l w =
      latchRefused (modCell s p l (flyLatch (latchFlight s op a k (sreg (cell s p l) (fld w 103 99)) w none) (wToken w)))
        p l (wToken w) := by
  rw [issueLatch_inside h]
  simp [hg, hk, ha]

end

/-- The one flight of a cell that has issued its first. -/
theorem setLatchOp_flyLatch {x : Cell} (h : x.flights = []) (t : Nat) (o : LatchOp) (f : LatchOp → LatchOp) :
    setLatchOp t f (flyLatch o t x) = flyLatch (f o) t x := by
  simp [setLatchOp, flyLatch, addFlight, takeToken, stepPc, h]

/-- The waiters that stand for a cell of this module are this module's. -/
theorem localWaiter_device (s : State) (p l t target k : Nat) :
    (localWaiter s p l t target).device = moduleId (noteEpoch s k (localWaiter s p l t target)) :=
  (moduleId_eq_of_clockPins (clockPins_noteEpoch _ _ _)).symm

/-! ### The end of a latch operation (R190, R191) -/

/-- The cell of an ended operation: its record is written, and its token set. -/
def recordWritten (s z : State) (p l t comp code : Nat) (r : BitVec 64) : State :=
  modCell (modCell z p l fun y => dropFlight y t) p l fun y => giveToken (writeLocal y comp (recordBytes s code r)) t

theorem recordBytes_eq_of_clockPins {s z : State} (h : clockPins z = clockPins s) (code : Nat) (r : BitVec 64) :
    recordBytes z code r = recordBytes s code r := by
  have ht : z.time = s.time := congrArg Prod.fst h
  rw [recordBytes, recordBytes, ht]

theorem endLatchOp_record {s z : State} (h : clockPins z = clockPins s) (p l t i : Nat) (op : LatchOp) (code : Nat)
    (r : BitVec 64) :
    endLatchOp z p l t i op code r =
      let z1 := recordWritten s z p l t op.comp code r
      let z2 := if code = cTimeout then
        modRmo z1 p fun u => { u with timeouts := BitVec.ofNat 16 (satAdd 16 u.timeouts.toNat 1) } else z1
      if codeOk code then z2
      else cellFault z2 p l (if op.waits && code = cTimeout then fcWait else fcRemote) i (16 * op.latch) := by
  have hr : recordBytes (modCell z p l (dropFlight · t)) code r = recordBytes s code r :=
    recordBytes_eq_of_clockPins h code r
  unfold endLatchOp completeAt
  simp only [hr, Bool.false_and, Bool.or_false]
  rfl

theorem endLatchOp_ok {s z : State} (h : clockPins z = clockPins s) {code : Nat} (hc : code ≤ 1) (p l t i : Nat)
    (op : LatchOp) (r : BitVec 64) : endLatchOp z p l t i op code r = recordWritten s z p l t op.comp code r := by
  have hok : codeOk code = true := decide_eq_true hc
  have hne : code ≠ cTimeout := by unfold cTimeout; omega
  rw [endLatchOp_record h]
  simp only [hok, hne, if_true, if_false]

theorem endLatchOp_fails {s z : State} (h : clockPins z = clockPins s) {code : Nat} (hc : 1 < code) (hn : code ≠ 0x21)
    (p l t i : Nat) (op : LatchOp) (r : BitVec 64) :
    endLatchOp z p l t i op code r = cellFault (recordWritten s z p l t op.comp code r) p l 0x04 i (16 * op.latch) := by
  have hok : codeOk code = false := decide_eq_false (Nat.not_le.mpr hc)
  have hne : code ≠ cTimeout := hn
  rw [endLatchOp_record h]
  simp [hok, hne]
  rfl

theorem endLatchOp_timeout {s z : State} (h : clockPins z = clockPins s) {op : LatchOp} (hw : op.waits = true)
    (p l t i : Nat) (r : BitVec 64) :
    endLatchOp z p l t i op 0x21 r = cellFault (modRmo (recordWritten s z p l t op.comp 0x21 r) p fun u =>
      { u with timeouts := BitVec.ofNat 16 (satAdd 16 u.timeouts.toNat 1) }) p l 0x05 i (16 * op.latch) := by
  have hto : 0x21 = cTimeout := rfl
  rw [endLatchOp_record h]
  simp [hto, hw]
  rfl

section
variable {s : State} {p : Pane16} {c : LCell} {t : BitVec 6} {i : Nat} {op : LatchOp}

theorem execLatchOpComplete_answered (ha : cellAlive s p.val = true)
    (hf : flightOf (cell s p.val c.val) t.toNat = some ⟨t.toNat, .latch op, i⟩) {code : Nat} {r : BitVec 64}
    (ho : op.outcome = some (code, r)) :
    exec (.latchOpComplete p c t) s = .next (endLatchOp s p.val c.val t.toNat i op code r) := by
  show execLatchOpComplete p c t s = _
  unfold execLatchOpComplete
  rw [hf]
  simp [ha, ho]

theorem execLatchOpComplete_silent (ha : cellAlive s p.val = true)
    (hf : flightOf (cell s p.val c.val) t.toNat = some ⟨t.toNat, .latch op, i⟩) (ho : op.outcome = none)
    (hr : op.retryAt = none) : exec (.latchOpComplete p c t) s = .next s := by
  show execLatchOpComplete p c t s = _
  unfold execLatchOpComplete
  rw [hf]
  simp [ha, ho, hr]

theorem execLatchOpComplete_refused (ha : cellAlive s p.val = true)
    (hf : flightOf (cell s p.val c.val) t.toNat = some ⟨t.toNat, .latch op, i⟩) (ho : op.outcome = none) {b : Nat}
    (hr : op.retryAt = some b) : exec (.latchOpComplete p c t) s =
      if b ≤ s.time.beat then .next (retryLatch s p.val c.val t.toNat i op) else .next s := by
  show execLatchOpComplete p c t s = _
  unfold execLatchOpComplete
  rw [hf]
  simp [ha, ho, hr]

theorem execSyncWaitLimit_runsOut (ha : cellAlive s p.val = true)
    (hf : flightOf (cell s p.val c.val) t.toNat = some ⟨t.toNat, .latch op, i⟩) (ho : op.outcome = none) {b : Nat}
    (hl : op.limit = some b) (hb : b ≤ now s) : exec (.syncWaitLimit p c t) s =
      .next (endLatchOp (unwait s op.latch p.val c.val t.toNat) p.val c.val t.toNat i op cTimeout 0) := by
  show execSyncWaitLimit p c t s = _
  unfold execSyncWaitLimit
  rw [hf]
  simp [ha, ho, hl, hb]

end

end Sys2Proof.Machine

open Sys2Proof Sys2Proof.Machine

/-- Settles O17: by what the latch unit answers to each of the four operations. -/
theorem latchInstructionsIssue : Obligations.LatchInstructionsIssue := by
  unfold Obligations.LatchInstructionsIssue
  intro s p c w h x tok comp idx a flight fly own me
  have hown {i : Instr} {op v : Nat} {good : Bool} {done : Nat → Prop}
      (he : exec i s = .next (issueLatch op v good s p.val c.val w))
      (hd : comp + 16 ≤ 6291456 → good = true → ∀ k, ownLatch s p.val idx = some k → done k) : own i op v good done :=
    ⟨fun hc => he.trans (congrArg _ (issueLatch_outside hc)),
     fun hc hno => he.trans (congrArg _ (issueLatch_noLatch hc hno)), hd⟩
  refine ⟨fun hrow => ?_, fun hrow => ?_, fun hrow => ?_, fun hrow => ?_⟩
  · have he : exec (.syncArrive p c) s = .next (issueLatch 5 a (decide (1 ≤ a ∧ a < 2 ^ 32)) s p.val c.val w) := by
      rw [Bool.decide_and]
      exact congrArg _ (issueWith_acts h hrow)
    refine hown he fun hc hg k hk => ?_
    exact he.trans (congrArg _ (issueLatch_done hc hg hk (latchRequest_arrive s k a (me a))))
  · have he : exec (.syncLatchWait p c) s = .next (issueLatch 6 a (decide (a < 2 ^ 48)) s p.val c.val w) :=
      congrArg _ (issueWith_acts h hrow)
    refine hown he fun hc hg k hk => ⟨fun hmet => ?_, fun hunmet => ?_⟩
    · have hm : waitMet (latchOf (noteEpoch s k (me a)) k).count (me a).target = true := decide_eq_true hmet
      exact he.trans (congrArg _ (issueLatch_done hc hg hk (latchRequest_wait_met s k a (me a) hm)))
    · have hm : waitMet (latchOf (noteEpoch s k (me a)) k).count (me a).target = false :=
        decide_eq_false (Nat.not_lt.mpr hunmet)
      have hd : (me a).device = moduleId (noteEpoch s k (me a)) := localWaiter_device ..
      exact he.trans (congrArg _ (issueLatch_waits hc hg hk (latchRequest_wait_unmet s k a (me a) hm hd)))
  · have he : exec (.syncAcquire p c) s = .next (issueLatch 7 0 true s p.val c.val w) :=
      congrArg _ (issueWith_acts h hrow)
    refine hown he fun hc hg k hk => ⟨fun hopen => ?_, fun hheld hroom => ?_, fun hheld hfull _ hnone => ?_⟩
    · exact he.trans (congrArg _ (issueLatch_done hc hg hk (latchRequest_acquire_open s k 0 (me 0) hopen)))
    · exact he.trans (congrArg _ (issueLatch_waits hc hg hk (latchRequest_acquire_joins s k 0 (me 0) hheld hroom)))
    · have hf := issueLatch_full hc hg hk (latchRequest_acquire_full s k 0 (me 0) hheld hfull)
      obtain ⟨b, hle, hlt, hcell⟩ := latchRefused_beat
        (modCell s p.val c.val (flyLatch (latchFlight s 7 0 k comp w none) tok)) p.val c.val tok
      refine ⟨_, b, he.trans (congrArg _ hf), hle, hlt, ?_, latchRefused_retries _ _ _ _⟩
      rw [hcell, cell_modCell_self, setLatchOp_flyLatch hnone]
      rfl
  · have he : exec (.syncRelease p c) s = .next (issueLatch 8 0 true s p.val c.val w) :=
      congrArg _ (issueWith_acts h hrow)
    refine hown he fun hc hg k hk => ⟨fun hheld => ?_, fun hother => ?_⟩
    · exact he.trans (congrArg _ (issueLatch_done hc hg hk (latchRequest_release_held s k 0 (me 0) hheld)))
    · exact he.trans (congrArg _ (issueLatch_done hc hg hk (latchRequest_release_other s k 0 (me 0) hother)))

/-- Settles O18: by what the latch unit does to a latch, and by the record that ends an operation. -/
theorem latchOperations : Obligations.LatchOperations := by
  unfold Obligations.LatchOperations
  constructor
  · intro s i n hwf l t
    have hself : latchOf t i = arrived l n := latchOf_latchArrive_self hwf i n
    refine ⟨congrArg Latch.count hself, (congrArg Latch.state hself).trans rfl, (congrArg Latch.queue hself).trans rfl, fun v hv => ?_,
      fun j hj => ⟨latchOf_latchArrive_ne hj s n, latchOf_grantNext_ne hj s 0⟩, fun hq => ?_, fun v r hq => ?_⟩
    · rw [hself]
      exact mem_arrived_waits hv
    · rw [latchOf_grantNext_free hq, latchOf_modLatch_self hwf]
      rfl
    · rw [latchOf_grantNext_head hq, latchOf_modLatch_self hwf]
      rfl
  · intro s p c t i op ha hf written
    refine ⟨fun code r ho hc => ?_, fun code r ho hc hn => ?_, fun ho b hr => ⟨fun hb => ?_, fun hb => ?_⟩, fun ho hr => ?_,
      fun ho hw b hl hb => ?_⟩
    · exact (execLatchOpComplete_answered ha hf ho).trans (congrArg _ (endLatchOp_ok rfl hc ..))
    · exact (execLatchOpComplete_answered ha hf ho).trans (congrArg _ (endLatchOp_fails rfl hc hn ..))
    · exact (execLatchOpComplete_refused ha hf ho hr).trans (if_neg (Nat.not_le.mpr hb))
    · intro z asks
      have he : exec (.latchOpComplete p c t) s = .next (retryLatch s p.val c.val t.toNat i op) :=
        (execLatchOpComplete_refused ha hf ho hr).trans (if_pos hb)
      have hretry : retryLatch s p.val c.val t.toNat i op = match asks with
          | .done s1 code res => endLatchOp s1 p.val c.val t.toNat i op code res
          | .waits s1 => s1
          | .full => latchRefused z p.val c.val t.toNat := rfl
      refine ⟨fun y code r hasks hc => ?_, fun y hasks => ?_, fun hasks => ?_⟩
      · have hy : clockPins y = clockPins s := (latchRequest_done_clockPins (s := z) hasks).trans rfl
        rw [he, hretry, hasks]
        exact congrArg Host.Outcome.next (endLatchOp_ok hy hc p.val c.val t.toNat i op r)
      · rw [he, hretry, hasks]
      · obtain ⟨b', hle, hlt, hcell⟩ := latchRefused_beat z p.val c.val t.toNat
        refine ⟨latchRefused z p.val c.val t.toNat, b', ?_, hle, hlt, ?_⟩
        · rw [he, hretry, hasks]
        · rw [hcell, cell_modCell_self, setLatchOp_setLatchOp]
          exact setLatchOp_flights _ _ _ op i hf
    · exact execLatchOpComplete_silent ha hf ho hr
    · exact (execSyncWaitLimit_runsOut ha hf ho hl hb).trans (congrArg _ (endLatchOp_timeout rfl hw ..))

end

section
/-! PROOFS. Remote operations: their issue (R73, R137, R188 to R195), the requests that a pane serves (R189, R201, R202),
and what ends an operation or a revocation at its source (R190, R195, R196, R203). -/

namespace Sys2Proof.Machine

/-! ### Issue -/

theorem rmoGood_iff (op a b : Nat) : rmoGood op a b = true ↔
    (op ≤ 1 → 1 ≤ a ∧ a ≤ 4194304) ∧ (op = 5 → 1 ≤ a ∧ a < 2 ^ 32) ∧ (op = 6 → a < 2 ^ 48)
      ∧ (op = 6 ∨ op = 7 → 1 ≤ b ∧ b ≤ 1048576) := by
  unfold rmoGood
  split
  next h =>
    have h5 : op ≠ 5 := by omega
    have h6 : op ≠ 6 := by omega
    have h7 : op ≠ 7 := by omega
    simp [h, h5, h6, h7]
  next h =>
    split
    next h5 => simp [h5]
    next h5 =>
      split
      next h6 => simp [h6, and_assoc]
      next h6 =>
        split
        next h7 => simp [h7]
        next h7 => simp [h, h5, h6, h7]

/-- Where an operation goes: the module that its address names, and the address there. -/
def rmoTarget (s : State) (p l w : Nat) (good : Bool) : BitVec 16 × BitVec 64 :=
  let addr := BitVec.ofNat 64 (sreg (cell s p l) (fld w 113 109))
  match (if good then resolveDevice s p (bitAt w 86) addr else .nowhere) with
  | .device d => (d, withDevice addr d)
  | _ => (0, addr)

/-- The operation in progress. -/
def issuedRmo (s : State) (p l w : Nat) (good : Bool) : RmoOp :=
  { mkRmo s p l w good with device := (rmoTarget s p l w good).1, target := (rmoTarget s p l w good).2 }

/-- The pane with an operation in progress: its tag is used, its token taken. -/
def withRmo (s : State) (p l w : Nat) (o : RmoOp) : State :=
  modRmo (modRmo (modCell (if (cell s p l).flights.isEmpty then s else tookFree s) p l fun c => takeToken (stepPc c) (wToken w))
    p fun u => { u with nextTag := u.nextTag + 1 }) p fun u => { u with ops := u.ops ++ [o] }

/-- The ends of an operation are where they have to be (R137, R73). -/
def rmoEndsOk (c : Cell) (w : Nat) (good : Bool) : Prop :=
  gaTier (BitVec.ofNat 64 (sreg c (fld w 113 109))) ≠ 1 ∧ sreg c (fld w 103 99) + 16 ≤ 6291456 ∧
  (wOp4 w ≤ 1 → good = true → sreg c (fld w 108 104) + sreg c (fld w 98 94) ≤ 6291456)

section
variable {s : State} {p l w : Nat} {good : Bool}

theorem issueRmo_outside (hg : rmoGood (wOp4 w) (sreg (cell s p l) (fld w 98 94)) (sreg (cell s p l) (fld w 93 89)) = good)
    (h : ¬rmoEndsOk (cell s p l) w good) : ∃ v, issueRmo s p l w = cellFault s p l 0x03 (cell s p l).pc v := by
  unfold issueRmo
  dsimp only
  split
  · exact ⟨_, rfl⟩
  next htier =>
    split
    · exact ⟨_, rfl⟩
    next hcomp =>
      split
      · exact ⟨_, rfl⟩
      next hloc =>
        refine absurd ⟨htier, ?_, fun hop hgood => ?_⟩ h
        · simpa [← localOk_iff] using hcomp
        · rw [hg] at hloc
          simpa [hop, hgood, ← localOk_iff] using hloc

theorem issueRmo_inside (hg : rmoGood (wOp4 w) (sreg (cell s p l) (fld w 98 94)) (sreg (cell s p l) (fld w 93 89)) = good)
    (h : rmoEndsOk (cell s p l) w good) : issueRmo s p l w =
      let o := mkRmo s p l w good
      let addr := BitVec.ofNat 64 (sreg (cell s p l) (fld w 113 109))
      if !good then completeOp (withRmo s p l w o) p o cRange 0
      else match resolveDevice s p o.torusRel addr with
        | .pastEnd => completeOp (withRmo s p l w o) p o cRange 0
        | .nowhere => withRmo s p l w o
        | .device d =>
          let o1 := { o with device := d, target := withDevice addr d }
          admitOp (withRmo s p l w o1) p o1 := by
  obtain ⟨htier, hcomp, hloc⟩ := h
  have hl : (decide (wOp4 w ≤ 1) && good && !localOk (sreg (cell s p l) (fld w 108 104)) (sreg (cell s p l) (fld w 98 94)))
      = false := by
    by_cases hop : wOp4 w ≤ 1
    · cases good with
      | false => simp
      | true => simp [(localOk_iff _ _).mpr (hloc hop rfl)]
    · simp [hop]
  have hfree (b : Bool) (x : BitVec 64) : resolveDevice (if (cell s p l).flights.isEmpty then s else tookFree s) p b x =
      resolveDevice s p b x := by
    split <;> rfl
  unfold issueRmo
  simp only [htier, (localOk_iff _ _).mpr hcomp, hg, hl, hfree, Bool.not_true, Bool.false_eq_true, if_false]
  rfl

/-- An operand out of its range ends the operation at once. -/
theorem issueRmo_range (hg : rmoGood (wOp4 w) (sreg (cell s p l) (fld w 98 94)) (sreg (cell s p l) (fld w 93 89)) = false)
    (h : rmoEndsOk (cell s p l) w false) :
    issueRmo s p l w = completeOp (withRmo s p l w (issuedRmo s p l w false)) p (issuedRmo s p l w false) 0x11 0 :=
  issueRmo_inside hg h

theorem issueRmo_admits (hg : rmoGood (wOp4 w) (sreg (cell s p l) (fld w 98 94)) (sreg (cell s p l) (fld w 93 89)) = true)
    (h : rmoEndsOk (cell s p l) w true) {d : BitVec 16}
    (hd : resolveDevice s p (bitAt w 86) (BitVec.ofNat 64 (sreg (cell s p l) (fld w 113 109))) = .device d) :
    (issuedRmo s p l w true).device = d ∧
    (issuedRmo s p l w true).target = withDevice (BitVec.ofNat 64 (sreg (cell s p l) (fld w 113 109))) d ∧
    issueRmo s p l w = admitOp (withRmo s p l w (issuedRmo s p l w true)) p (issuedRmo s p l w true) := by
  have ht : rmoTarget s p l w true = (d, withDevice (BitVec.ofNat 64 (sreg (cell s p l) (fld w 113 109))) d) := by
    simp [rmoTarget, hd]
  have hd' : resolveDevice s p (mkRmo s p l w true).torusRel _ = _ := hd
  refine ⟨congrArg Prod.fst ht, congrArg Prod.snd ht, ?_⟩
  rw [issueRmo_inside hg h, issuedRmo, ht]
  simp only [hd', Bool.not_true, Bool.false_eq_true, if_false]

theorem rmoTarget_unresolved {x : Resolved} (hx : x = .nowhere ∨ x = .pastEnd)
    (hd : resolveDevice s p (bitAt w 86) (BitVec.ofNat 64 (sreg (cell s p l) (fld w 113 109))) = x) :
    issuedRmo s p l w true = mkRmo s p l w true := by
  have ht : rmoTarget s p l w true = (0, BitVec.ofNat 64 (sreg (cell s p l) (fld w 113 109))) := by
    rcases hx with hx | hx <;> simp [rmoTarget, hd, hx]
  rw [issuedRmo, ht]
  rfl

theorem issueRmo_nowhere (hg : rmoGood (wOp4 w) (sreg (cell s p l) (fld w 98 94)) (sreg (cell s p l) (fld w 93 89)) = true)
    (h : rmoEndsOk (cell s p l) w true)
    (hd : resolveDevice s p (bitAt w 86) (BitVec.ofNat 64 (sreg (cell s p l) (fld w 113 109))) = .nowhere) :
    issueRmo s p l w = withRmo s p l w (issuedRmo s p l w true) := by
  have hd' : resolveDevice s p (mkRmo s p l w true).torusRel _ = _ := hd
  rw [issueRmo_inside hg h, rmoTarget_unresolved (.inl rfl) hd]
  simp only [hd', Bool.not_true, Bool.false_eq_true, if_false]

theorem issueRmo_pastEnd (hg : rmoGood (wOp4 w) (sreg (cell s p l) (fld w 98 94)) (sreg (cell s p l) (fld w 93 89)) = true)
    (h : rmoEndsOk (cell s p l) w true)
    (hd : resolveDevice s p (bitAt w 86) (BitVec.ofNat 64 (sreg (cell s p l) (fld w 113 109))) = .pastEnd) :
    issueRmo s p l w = completeOp (withRmo s p l w (issuedRmo s p l w true)) p (issuedRmo s p l w true) 0x11 0 := by
  have hd' : resolveDevice s p (mkRmo s p l w true).torusRel _ = _ := hd
  rw [issueRmo_inside hg h, rmoTarget_unresolved (.inr rfl) hd]
  simp only [hd', Bool.not_true, Bool.false_eq_true, if_false]
  rfl

end

theorem resolveDevice_absolute (s : State) (p : Nat) (a : BitVec 64) :
    resolveDevice s p false a = .device (BitVec.ofNat 16 (gaDevice a)) := by
  simp [resolveDevice]

/-- Each instruction of the class is the issue of a remote operation. -/
theorem exec_rmo {s : State} {p : Pane16} {c : LCell} {w : Nat} {i : Instr} (h : Issues s p c w)
    (hi : rowOp 9 0 w = true ∧ i = .put p c ∨ rowOp 9 1 w = true ∧ i = .get p c ∨ rowOp 9 2 w = true ∧ i = .rmoAdd p c
      ∨ rowOp 9 3 w = true ∧ i = .swap p c ∨ rowOp 9 4 w = true ∧ i = .compareSwap p c
      ∨ rowOp 9 5 w = true ∧ i = .rmoArrive p c ∨ rowOp 9 6 w = true ∧ i = .rmoWait p c
      ∨ rowOp 9 7 w = true ∧ i = .rmoAcquire p c ∨ rowOp 9 8 w = true ∧ i = .rmoRelease p c) :
    exec i s = .next (issueRmo s p.val c.val w) := by
  rcases hi with ⟨hr, rfl⟩ | ⟨hr, rfl⟩ | ⟨hr, rfl⟩ | ⟨hr, rfl⟩ | ⟨hr, rfl⟩ | ⟨hr, rfl⟩ | ⟨hr, rfl⟩ | ⟨hr, rfl⟩ | ⟨hr, rfl⟩ <;>
    exact congrArg _ (issueWith_acts h hr)

theorem opWaits_iff (op : Nat) : opWaits op = true ↔ op = 6 ∨ op = 7 := by
  simp [opWaits]

end Sys2Proof.Machine

open Sys2Proof Sys2Proof.Machine

/-- Settles O19: by the ends of the operation, its operands and the module that its address names. -/
theorem remoteOperationsIssue : Obligations.RemoteOperationsIssue := by
  unfold Obligations.RemoteOperationsIssue
  intro s p c w i h hi x op a b addr comp loc good ends
  have he : exec i s = .next (issueRmo s p.val c.val w) := exec_rmo h hi
  have hgood : rmoGood op a b = true ↔ good := rmoGood_iff op a b
  generalize hg : rmoGood op a b = g at hgood
  have hends : rmoEndsOk x w g ↔ ends := by
    unfold rmoEndsOk
    rw [hgood]
  refine ⟨fun hout => ?_, fun hin => ⟨issuedRmo s p.val c.val w g, ?_⟩⟩
  · obtain ⟨v, hv⟩ := issueRmo_outside hg (mt hends.mp hout)
    exact ⟨v, he.trans (congrArg _ hv)⟩
  · intro z
    have hok := hends.mpr hin
    have hres {rel : Bool} (hr : bitAt w 86 = rel) :
        resolveDevice s p.val (bitAt w 86) addr = resolveDevice s p.val rel addr :=
      congrArg (resolveDevice s p.val · addr) hr
    refine ⟨rfl, rfl, rfl, rfl, rfl, rfl, rfl, rfl, rfl, rfl, rfl, rfl, rfl, fun hop hy => ?_, fun hop hy => ?_,
      fun hy hw => ?_, fun hn => ?_, fun hn => ?_, fun hy hrel => ?_, fun hy hrel d hd => ?_, fun hy hrel hd => ?_,
      fun hy hrel hd => ?_⟩
    · show (if (decide (op ≤ 1) && g) = true then a else 0) = a
      simp [hop, hgood.mpr hy]
    · show (if (decide (op = 0) && g) = true then readLocal x s.free loc
        (if (decide (op ≤ 1) && g) = true then a else 0) else []) = _
      simp [hop, hgood.mpr hy]
    · show (s.time.beat + (if (opWaits op && g) = true then b else _), s.time.tick) = _
      simp [(opWaits_iff op).mpr hw, hgood.mpr hy]
    · show (s.time.beat + (if (opWaits op && g) = true then b else tmoBeats (fld w 88 87)), s.time.tick) = _
      have hno : (opWaits op && g) = false := by
        rw [Bool.and_eq_false_iff, ← Bool.not_eq_true, ← Bool.not_eq_true, opWaits_iff, hgood]
        exact hn.elim .inr fun h67 => .inl (not_or.mpr h67)
      simp [hno]
    · have hgf : g = false := Bool.not_eq_true _ ▸ mt hgood.mp hn
      subst hgf
      exact he.trans (congrArg _ (issueRmo_range hg hok))
    · have hgt : g = true := hgood.mpr hy
      subst hgt
      have hd : resolveDevice s p.val (bitAt w 86) addr = .device (BitVec.ofNat 16 (gaDevice addr)) :=
        (hres hrel).trans (resolveDevice_absolute s p.val addr)
      obtain ⟨hdev, htgt, hiss⟩ := issueRmo_admits hg hok hd
      exact ⟨hdev, htgt.trans (congrArg _ hdev.symm), he.trans (congrArg _ hiss)⟩
    · have hgt : g = true := hgood.mpr hy
      subst hgt
      obtain ⟨hdev, htgt, hiss⟩ := issueRmo_admits hg hok ((hres hrel).trans hd)
      exact ⟨hdev, htgt, he.trans (congrArg _ hiss)⟩
    · have hgt : g = true := hgood.mpr hy
      subst hgt
      exact he.trans (congrArg _ (issueRmo_nowhere hg hok ((hres hrel).trans hd)))
    · have hgt : g = true := hgood.mpr hy
      subst hgt
      exact he.trans (congrArg _ (issueRmo_pastEnd hg hok ((hres hrel).trans hd)))

end

section
/-! PROOFS. Requests at their target (R189, R201, R202, R212, R249). -/

namespace Sys2Proof.Machine

/-! ### What the pane's remote-operation state leaves alone -/

theorem nearOf_modRmo (s : State) (p q : Nat) (f : RmoUnit → RmoUnit) : nearOf (modRmo s p f) q = nearOf s q := by
  rw [nearOf, nearOf, modRmo, pane_modPane]
  split
  next h => rw [h]
  next => rfl

theorem paneState_modRmo (s : State) (p q : Nat) (f : RmoUnit → RmoUnit) :
    (pane (modRmo s p f) q).state = (pane s q).state := by
  rw [modRmo, pane_modPane]
  split
  next h => rw [h]
  next => rfl

theorem paneLive_modRmo (s : State) (p q : Nat) (f : RmoUnit → RmoUnit) : paneLive (modRmo s p f) q = paneLive s q := by
  unfold paneLive
  rw [modRmo, pane_modPane]
  split
  next h => rw [h]
  next => rfl

theorem rmoOf_modRmo_self (s : State) (p : Nat) (f : RmoUnit → RmoUnit) : rmoOf (modRmo s p f) p = f (rmoOf s p) := by
  rw [rmoOf, modRmo, pane_modPane_self]
  rfl

/-! ### The request that has waited longest -/

section
variable {s : State} {p : Pane16} {m : Msg} {r : List Msg}

theorem execRequest_blocked (hq : (rmoOf s p.val).reqQ = m :: r) (hr : (rmoOf s p.val).respRest ≠ []) :
    exec (.requestMessageReceived p) s = .next s := by
  show execRequestMessageReceived p s = _
  unfold execRequestMessageReceived
  rw [hq]
  simp [hr]

theorem execRequest_gone (hq : (rmoOf s p.val).reqQ = m :: r) (hr : (rmoOf s p.val).respRest = [])
    (hl : paneLive s p.val = false) :
    exec (.requestMessageReceived p) s = .next (modRmo s p.val fun u => { u with reqQ := r }) := by
  show execRequestMessageReceived p s = _
  unfold execRequestMessageReceived
  rw [hq]
  simp [hr, paneLive_modRmo, hl]

theorem execRequest_tested (hq : (rmoOf s p.val).reqQ = m :: r) (hr : (rmoOf s p.val).respRest = [])
    (hl : paneLive s p.val = true) (ht : (pane s p.val).state = .testing) :
    exec (.requestMessageReceived p) s = .next (refuseTested (modRmo s p.val fun u => { u with reqQ := r }) p.val m) := by
  show execRequestMessageReceived p s = _
  unfold execRequestMessageReceived
  rw [hq]
  simp [hr, paneLive_modRmo, paneState_modRmo, hl, ht]

theorem execRequest_served (hq : (rmoOf s p.val).reqQ = m :: r) (hr : (rmoOf s p.val).respRest = [])
    (hl : paneLive s p.val = true) (ht : (pane s p.val).state ≠ .testing) (hm : m.torusRel = false) :
    exec (.requestMessageReceived p) s = .next (serveRequest (modRmo s p.val fun u => { u with reqQ := r }) p.val m) := by
  show execRequestMessageReceived p s = _
  unfold execRequestMessageReceived
  rw [hq]
  simp [hr, paneLive_modRmo, paneState_modRmo, hl, ht, hm]

end

/-! ### What each request does (R189, R202, R212) -/

section
variable {s : State} {p : Nat} {m : Msg}

theorem serveRequest_put (hop : m.op.toNat = 0) : serveRequest s p m = (fragsOf s p m).foldl (fun y f =>
    putFragment (if nearChecks y p f = 0 then nearWrite y p (gaOfs f.target) f.data else y) p f (nearChecks y p f)) s :=
  if_pos hop

theorem serveRequest_get (hop : m.op.toNat = 1) : serveRequest s p m =
    if nearChecks s p m ≠ cOk then respondCode s p m (nearChecks s p m)
    else if rangePoison (nearOf s p) (gaOfs m.target) m.length.toNat then respondGet (tookFree s) p m cPoison
    else respondGet s p m cOk := by
  unfold serveRequest
  simp only [hop, Nat.one_ne_zero, if_false, if_true]

theorem serveRequest_atomic (hlo : 2 ≤ m.op.toNat) (hhi : m.op.toNat ≤ 4) : serveRequest s p m =
    if nearChecks s p m ≠ cOk then respondCode s p m (nearChecks s p m)
    else if rangePoison (nearOf s p) (gaOfs m.target) 8 then respond s p m cPoison (zeros 8) (some 0)
    else respond (nearWrite s p (gaOfs m.target) (natLe 8 (atomicNew m.op.toNat (leNat (nearRead s p (gaOfs m.target) 8))
      (leAt m.data 0 8) (leAt m.data 8 8)))) p m cOk (natLe 8 (leNat (nearRead s p (gaOfs m.target) 8)))
        (some (BitVec.ofNat 64 (leNat (nearRead s p (gaOfs m.target) 8)))) := by
  have h0 : m.op.toNat ≠ 0 := by omega
  have h1 : m.op.toNat ≠ 1 := by omega
  unfold serveRequest
  simp only [h0, h1, hhi, if_false, if_true]

/-- The requester of a latch request, as the latch knows it. -/
def latchRequester (s : State) (m : Msg) : Waiter :=
  { device := m.srcDevice, pane := m.srcPane, lcell := m.srcCell, epoch := m.srcEpoch
    target := BitVec.ofNat 48 (leAt m.data 0 8), stamp := now s, localTok := none, req := some m }

theorem serveRequest_latch (hlo : 5 ≤ m.op.toNat) (hhi : m.op.toNat ≤ 8) : serveRequest s p m =
    match requestLatch s p m with
    | none => respondCode s p m cRange
    | some i =>
      if !admitted s p m 5 (16 * i) 16 then respondCode s p m cNoWindow
      else match latchRequest s m.op.toNat i (leAt m.data 0 8) (latchRequester s m) with
        | .done s1 code res => if codeOk code then respond s1 p m code [] (some res) else respondCode s1 p m code
        | .waits s1 => s1
        | .full => turnAway s p m 0 := by
  have h0 : m.op.toNat ≠ 0 := by omega
  have h1 : m.op.toNat ≠ 1 := by omega
  have h4 : ¬m.op.toNat ≤ 4 := by omega
  unfold serveRequest
  simp only [h0, h1, h4, hhi, if_false, if_true]
  rfl

theorem serveRequest_latch_none (hlo : 5 ≤ m.op.toNat) (hhi : m.op.toNat ≤ 8) (hl : requestLatch s p m = none) :
    serveRequest s p m = respondCode s p m 0x11 := by
  rw [serveRequest_latch hlo hhi, hl]
  rfl

theorem serveRequest_latch_closed (hlo : 5 ≤ m.op.toNat) (hhi : m.op.toNat ≤ 8) {i : Nat} (hl : requestLatch s p m = some i)
    (ha : admitted s p m 5 (16 * i) 16 = false) : serveRequest s p m = respondCode s p m 0x10 := by
  rw [serveRequest_latch hlo hhi, hl]
  simp only [ha, Bool.not_false, if_true]
  rfl

theorem serveRequest_latch_acts (hlo : 5 ≤ m.op.toNat) (hhi : m.op.toNat ≤ 8) {i : Nat} (hl : requestLatch s p m = some i)
    (ha : admitted s p m 5 (16 * i) 16 = true) : serveRequest s p m =
      match latchRequest s m.op.toNat i (leAt m.data 0 8) (latchRequester s m) with
      | .done s1 code res => if codeOk code then respond s1 p m code [] (some res) else respondCode s1 p m code
      | .waits s1 => s1
      | .full => turnAway s p m 0 := by
  rw [serveRequest_latch hlo hhi, hl]
  simp only [ha, Bool.not_true, Bool.false_eq_true, if_false]

theorem serveRequest_other (hop : 9 ≤ m.op.toNat) : serveRequest s p m = respondCode s p m 0x11 := by
  have h0 : m.op.toNat ≠ 0 := by omega
  have h1 : m.op.toNat ≠ 1 := by omega
  have h4 : ¬m.op.toNat ≤ 4 := by omega
  have h8 : ¬m.op.toNat ≤ 8 := by omega
  unfold serveRequest
  simp only [h0, h1, h4, h8, if_false]
  rfl

theorem respondGet_local (hd : m.srcDevice = moduleId s)
    (hp : rangePoison (nearOf s p) (gaOfs m.target) m.length.toNat = false) (code : Nat) :
    respondGet s p m code = respond s p m code (nearRead s p (gaOfs m.target) m.length.toNat) (some 0) := by
  unfold respondGet getData
  simp only [hd, hp, beq_self_eq_true, Bool.not_false, if_true]
  rfl

/-- A `PUT` that one fragment holds is its own piece. -/
theorem fragsOf_one (hop : m.op.toNat = 0) (hne : m.data ≠ []) (hlen : m.data.length ≤ fragMax (groupSealed s p)) :
    fragsOf s p m = [m] := by
  have hpos : 0 < m.data.length := List.length_pos_iff.mpr hne
  have hone : ceilDiv m.data.length (fragMax (groupSealed s p)) = 1 := by
    unfold ceilDiv
    rw [Nat.div_eq_iff (by omega)]
    omega
  unfold fragsOf
  simp only [hop, if_true, hone, List.range_one, List.map_cons, List.map_nil, Nat.zero_mul, List.drop_zero,
    List.take_of_length_le hlen, BitVec.add_zero]

theorem serveRequest_fragment (hop : m.op.toNat = 0) (hne : m.data ≠ [])
    (hlen : m.data.length ≤ fragMax (groupSealed s p)) : serveRequest s p m =
      putFragment (if nearChecks s p m = 0 then nearWrite s p (gaOfs m.target) m.data else s) p m (nearChecks s p m) := by
  rw [serveRequest_put hop, fragsOf_one hop hne hlen]
  rfl

end

/-- R216: what the latch unit has noted before it serves a request. -/
theorem noteEpoch_cases (s : State) (i : Nat) (w : Waiter) : noteEpoch s i w = s ∨ noteEpoch s i w = orphanLatch s i := by
  unfold noteEpoch
  dsimp only
  split
  · exact .inr rfl
  · exact .inl rfl

end Sys2Proof.Machine

open Sys2Proof Sys2Proof.Machine

/-- Settles O20: by what each request does at its target, and by the checks before it. -/
theorem remoteRequestsServed : Obligations.RemoteRequestsServed := by
  unfold Obligations.RemoteRequestsServed
  intro s p m r hq hrel
  refine ⟨execRequest_blocked hq, fun hrest => ?_⟩
  intro z e op ofs old a b new code one
  refine ⟨execRequest_gone hq hrest, fun hlive htest => ?_, fun hlive htest => ?_⟩
  · have he : e = .next (refuseTested z p.val m) := execRequest_tested hq hrest hlive htest
    exact ⟨fun hop => he.trans (congrArg _ (if_neg hop)), fun hop => he.trans (congrArg _ (if_pos hop))⟩
  · have he : e = .next (serveRequest z p.val m) := execRequest_served hq hrest hlive htest hrel
    have hserve {t : State} (h : serveRequest z p.val m = t) : e = .next t := he.trans (congrArg _ h)
    have hnear : nearOf z p.val = nearOf s p.val := nearOf_modRmo ..
    have hread (n : Nat) : nearRead z p.val ofs n = nearRead s p.val ofs n := congrArg (nearGet · ofs n) hnear
    have hpoison (n : Nat) : rangePoison (nearOf z p.val) ofs n = rangePoison (nearOf s p.val) ofs n :=
      congrArg (rangePoison · ofs n) hnear
    have hsealed : groupSealed z p.val = groupSealed s p.val := rfl
    refine ⟨fun hop h0 hc => hserve ?_, fun ⟨hlo, hhi⟩ hc hp => hserve ?_, fun ⟨hlo, hhi⟩ hc hp => hserve ?_,
      fun hop hc hp hd => hserve ?_, fun hop hc hwire => hserve ?_, fun hop ⟨hne, hlen⟩ hc => hserve ?_,
      fun hop ⟨hne, hlen⟩ hc => hserve ?_, fun hop => hserve (serveRequest_put hop),
      fun ⟨hlo, hhi⟩ hl => hserve (serveRequest_latch_none hlo hhi hl),
      fun ⟨hlo, hhi⟩ i hl ha => hserve (serveRequest_latch_closed hlo hhi hl ha), fun hop i hl ha => ?_,
      fun ⟨hlo, hhi⟩ i hl ha => ?_, fun hop => hserve (serveRequest_other hop)⟩
    · by_cases h1 : op = 1
      · exact (serveRequest_get h1).trans (if_pos hc)
      · exact (serveRequest_atomic (by omega) hop).trans (if_pos hc)
    · refine (serveRequest_atomic hlo hhi).trans ((if_neg (not_not.mpr hc)).trans ?_)
      rw [hpoison 8, hp, hread 8]
      rfl
    · refine (serveRequest_atomic hlo hhi).trans ((if_neg (not_not.mpr hc)).trans (if_pos ?_))
      rw [hpoison 8, hp]
    · refine (serveRequest_get hop).trans ((if_neg (not_not.mpr hc)).trans ((if_neg ?_).trans ?_))
      · exact ne_true_of_eq_false ((hpoison _).trans hp)
      · exact (respondGet_local (s := z) hd ((hpoison _).trans hp) 0).trans (congrArg (respond z p.val m 0 · (some 0)) (hread _))
    · refine (serveRequest_get hop).trans ((if_neg (not_not.mpr hc)).trans ?_)
      cases hbad : rangePoison (nearOf s p.val) ofs m.length.toNat with
      | true => exact if_pos ((hpoison _).trans hbad)
      | false => exact if_neg (ne_true_of_eq_false ((hpoison _).trans hbad))
    · refine (serveRequest_fragment (s := z) hop hne hlen).trans ?_
      exact congr (congrArg (putFragment · p.val m) (if_pos hc)) hc
    · refine (serveRequest_fragment (s := z) hop hne hlen).trans ?_
      exact congrArg (putFragment · p.val m code) (if_neg hc)
    · refine ⟨noteEpoch z i (latchRequester z m), noteEpoch_cases z i _, hserve ?_⟩
      have harrive : latchRequest z m.op.toNat i a (latchRequester z m) = _ :=
        (congrArg (latchRequest z · i a (latchRequester z m)) hop).trans (latchRequest_arrive z i a (latchRequester z m))
      exact (serveRequest_latch_acts (by omega) (by omega) hl ha).trans (by rw [harrive]; rfl)
    · have hacts := serveRequest_latch_acts (by omega) hhi hl ha
      show (match latchRequest z m.op.toNat i a (latchRequester z m) with
        | .done y k v => e = .next (if k ≤ 1 then respond y p.val m k [] (some v) else respondCode y p.val m k)
        | .waits y => e = .next y
        | .full => e = .next (turnAway z p.val m 0))
      cases hasks : latchRequest z m.op.toNat i a (latchRequester z m) with
      | done y k v =>
        refine hserve (hacts.trans ?_)
        rw [hasks]
        by_cases hk : k ≤ 1
        · exact (if_pos (decide_eq_true hk)).trans (if_pos hk).symm
        · exact (if_neg (mt of_decide_eq_true hk)).trans (if_neg hk).symm
      | waits y => exact hserve (hacts.trans (by rw [hasks]))
      | full => exact hserve (hacts.trans (by rw [hasks]))

end

section
/-! PROOFS. The commands that an event decides (R374), and what ends an operation or a revocation at its source (R190, R195,
R196, R203). -/

namespace Sys2Proof.Machine

/-! ### Commands decided by an event -/

theorem decideJobs_panes (s : State) (f : Job → Bool) (a : Ans) : (decideJobs s f a).panes = s.panes := by
  unfold decideJobs
  induction openJobs s f generalizing s with
  | nil => rfl
  | cons r l ih => exact (ih _).trans rfl

theorem mem_openJobs {s : State} {f : Job → Bool} {r : Nat} {j : Job} (hr : r < 18) (hj : (mbx s r).job = some j)
    (hs : j.start.isSome = true) (ho : j.outcome = none) (hf : f j = true) : r ∈ openJobs s f := by
  simp only [openJobs, List.mem_filter, List.mem_range]
  exact ⟨hr, by simp [hj, hs, ho, hf]⟩

theorem decides_decideJob_ne {s : State} {r q : Nat} (h : q ≠ r) {st : Nat} (a : Ans) (hd : Decides s q st) :
    Decides (decideJob s r a) q st := by
  have hm : mbx (decideJob s r a) q = mbx s q := by
    rw [decideJob, mbx_modMbx, if_neg h]
  unfold Decides
  rw [hm]
  exact hd

/-- A command that is started stays decided while others are. -/
theorem decides_foldl_decideJob (l : List Nat) (a : Ans) (q : Nat) (s : State)
    (h : Decides s q a.status ∨ q ∈ l ∧ ∃ j, (mbx s q).job = some j ∧ j.start.isSome = true) :
    Decides (l.foldl (fun s r => decideJob s r a) s) q a.status := by
  induction l generalizing s with
  | nil =>
    rcases h with h | ⟨hm, _⟩
    · exact h
    · exact absurd hm List.not_mem_nil
  | cons r l ih =>
    refine ih _ ?_
    by_cases hq : q = r
    · subst hq
      have hj : ∃ j, (mbx s q).job = some j ∧ j.start.isSome = true := by
        rcases h with ⟨j, _, hj, hs, _⟩ | ⟨_, hj⟩
        · exact ⟨j, hj, hs⟩
        · exact hj
      obtain ⟨j, hj, hs⟩ := hj
      exact .inl (decides_decideJob a hj hs)
    · have hm : mbx (decideJob s r a) q = mbx s q := by
        rw [decideJob, mbx_modMbx, if_neg hq]
      rcases h with h | ⟨hl, hj⟩
      · exact .inl (decides_decideJob_ne hq a h)
      · rw [hm]
        exact .inr ⟨(List.mem_cons.mp hl).resolve_left hq, hj⟩

/-- Every running, undecided command that satisfies the test has the outcome. -/
theorem decides_decideJobs {s : State} {f : Job → Bool} {q : Nat} {j : Job} (a : Ans) (hq : q < 18)
    (hj : (mbx s q).job = some j) (hs : j.start.isSome = true) (ho : j.outcome = none) (hf : f j = true) :
    Decides (decideJobs s f a) q a.status :=
  decides_foldl_decideJob _ a q s (.inr ⟨mem_openJobs hq hj hs ho hf, j, hj, hs⟩)

/-! ### Responses, refusals and timeouts at the source -/

section
variable {s : State} {p : Pane16} {o : RmoOp} {m : Msg} {r : List Msg}

theorem execResponse_ended (hq : (rmoOf s p.val).respQ = m :: r)
    (ho : (rmoOf s p.val).ops.find? (·.tag == m.tag) = none) :
    exec (.responseMessageReceived p) s = .next (modRmo s p.val fun u => { u with respQ := r }) := by
  show execResponseMessageReceived p s = _
  unfold execResponseMessageReceived
  rw [hq]
  simp only [ho]

theorem execResponse_stale (hq : (rmoOf s p.val).respQ = m :: r)
    (ho : (rmoOf s p.val).ops.find? (·.tag == m.tag) = some o)
    (h : m.srcEpoch ≠ (pane s p.val).epoch ∨ cellAlive s p.val = false) :
    exec (.responseMessageReceived p) s = .next (modRmo s p.val fun u => { u with respQ := r }) := by
  show execResponseMessageReceived p s = _
  unfold execResponseMessageReceived
  rw [hq]
  simp only [ho]
  rcases h with h | h <;> simp [h]

/-- A response that is not a fragment of a `GET`'s data. -/
def wholeResponse (o : RmoOp) (m : Msg) : Bool :=
  !(decide (o.op.toNat = 1) && !m.data.isEmpty && (decide (m.code.toNat = cOk) || decide (m.code.toNat = cPoison)))

theorem execResponse_fragment (hq : (rmoOf s p.val).respQ = m :: r)
    (ho : (rmoOf s p.val).ops.find? (·.tag == m.tag) = some o) (he : m.srcEpoch = (pane s p.val).epoch)
    (ha : cellAlive s p.val = true) (hw : wholeResponse o m = false) :
    exec (.responseMessageReceived p) s =
      .next (getFragment (modRmo s p.val fun u => { u with respQ := r }) p.val o m) := by
  show execResponseMessageReceived p s = _
  unfold execResponseMessageReceived
  rw [hq]
  simp only [ho, he, ha, bne_self_eq_false, Bool.not_true, Bool.or_self, Bool.false_eq_true, if_false]
  exact if_pos (by simpa only [wholeResponse, Bool.not_eq_false'] using hw)

theorem execResponse_whole (hq : (rmoOf s p.val).respQ = m :: r)
    (ho : (rmoOf s p.val).ops.find? (·.tag == m.tag) = some o) (he : m.srcEpoch = (pane s p.val).epoch)
    (ha : cellAlive s p.val = true) (hw : wholeResponse o m = true) :
    exec (.responseMessageReceived p) s =
      let z := modRmo s p.val fun u => { u with respQ := r }
      .next (completeOp (if m.result.isNone && (m.op.toNat == 5 || m.op.toNat == 6) then tookFree z else z) p.val o
        m.code.toNat (responseResult z o m)) := by
  show execResponseMessageReceived p s = _
  unfold execResponseMessageReceived
  rw [hq]
  simp only [ho, he, ha, bne_self_eq_false, Bool.not_true, Bool.or_self, Bool.false_eq_true, if_false]
  exact if_neg (ne_true_of_eq_false (by simpa only [wholeResponse, Bool.not_eq_true'] using hw))

theorem wholeResponse_iff (o : RmoOp) (m : Msg) :
    wholeResponse o m = true ↔ o.op ≠ 1 ∨ m.data = [] ∨ (m.code ≠ 0 ∧ m.code ≠ 0x20) := by
  have hop : o.op.toNat = 1 ↔ o.op = 1 := BitVec.toNat_inj (y := 1)
  have h0 : m.code.toNat = cOk ↔ m.code = 0 := BitVec.toNat_inj (y := 0)
  have h20 : m.code.toNat = cPoison ↔ m.code = 0x20 := BitVec.toNat_inj (y := 0x20)
  unfold wholeResponse
  simp only [hop, h0, h20, Bool.not_eq_true', Bool.and_eq_false_iff, Bool.or_eq_false_iff, decide_eq_false_iff_not,
    Bool.not_eq_false', List.isEmpty_iff, or_assoc]

/-- A response of a class whose result is not a latch's count. -/
theorem execResponse_settled (hq : (rmoOf s p.val).respQ = m :: r)
    (ho : (rmoOf s p.val).ops.find? (·.tag == m.tag) = some o) (he : m.srcEpoch = (pane s p.val).epoch)
    (ha : cellAlive s p.val = true) (hw : wholeResponse o m = true) (h5 : m.op.toNat ≠ 5) (h6 : m.op.toNat ≠ 6) :
    exec (.responseMessageReceived p) s = .next (completeOp (modRmo s p.val fun u => { u with respQ := r }) p.val o
      m.code.toNat (if 2 ≤ m.op.toNat ∧ m.op.toNat ≤ 4 then BitVec.ofNat 64 (leAt m.data 0 8) else 0)) := by
  rw [execResponse_whole hq ho he ha hw]
  have hb5 : (m.op.toNat == 5) = false := beq_eq_false_iff_ne.mpr h5
  have hb6 : (m.op.toNat == 6) = false := beq_eq_false_iff_ne.mpr h6
  unfold responseResult
  simp [h5, h6, hb5, hb6]

theorem execResponse_counted (hq : (rmoOf s p.val).respQ = m :: r)
    (ho : (rmoOf s p.val).ops.find? (·.tag == m.tag) = some o) (he : m.srcEpoch = (pane s p.val).epoch)
    (ha : cellAlive s p.val = true) (hw : wholeResponse o m = true) (h56 : m.op.toNat = 5 ∨ m.op.toNat = 6) {v : BitVec 64}
    (hv : m.result = some v) :
    exec (.responseMessageReceived p) s =
      .next (completeOp (modRmo s p.val fun u => { u with respQ := r }) p.val o m.code.toNat v) := by
  rw [execResponse_whole hq ho he ha hw]
  unfold responseResult
  rcases h56 with h | h <;> simp [h, hv]

/-- The count that a response does not carry: free, of 48 bits, and one that a `WAIT` has observed meets its condition. -/
def openCount (s : State) (o : RmoOp) (m : Msg) : BitVec 64 :=
  let free := (Config.freeWord s.free).toNat
  BitVec.ofNat 64 (if m.op.toNat = 5 then free % 2 ^ 48 else (o.opa.toNat + free % 2 ^ 47) % 2 ^ 48)

theorem openCount_lt (s : State) (o : RmoOp) (m : Msg) : (openCount s o m).toNat < 2 ^ 48 := by
  unfold openCount
  rw [BitVec.toNat_ofNat]
  split <;> omega

theorem openCount_met (s : State) (o : RmoOp) (h6 : m.op.toNat = 6) :
    waitMet ((openCount s o m).setWidth 48) (o.opa.setWidth 48) = true := by
  have h5 : m.op.toNat ≠ 5 := by omega
  refine decide_eq_true ?_
  unfold openCount
  simp only [h5, if_false, BitVec.toNat_sub, BitVec.toNat_setWidth, BitVec.toNat_ofNat]
  omega

theorem execResponse_uncounted (hq : (rmoOf s p.val).respQ = m :: r)
    (ho : (rmoOf s p.val).ops.find? (·.tag == m.tag) = some o) (he : m.srcEpoch = (pane s p.val).epoch)
    (ha : cellAlive s p.val = true) (hw : wholeResponse o m = true) (h56 : m.op.toNat = 5 ∨ m.op.toNat = 6)
    (hv : m.result = none) :
    exec (.responseMessageReceived p) s =
      .next (completeOp (tookFree (modRmo s p.val fun u => { u with respQ := r })) p.val o m.code.toNat (openCount s o m)) := by
  rw [execResponse_whole hq ho he ha hw]
  unfold responseResult openCount
  rcases h56 with h | h
  · simp [h, hv]
  · simp [h, hv]

theorem execRefusal_noted {x : RefusalMsg} {q : List RefusalMsg} (hq : (rmoOf s p.val).refQ = x :: q)
    (ho : (rmoOf s p.val).ops.any (·.tag == x.tag) = true) : exec (.refusalReceived p) s =
      .next (noteRefusal (modRmo s p.val fun u => { u with refQ := q }) p.val x.tag x.retryAt) := by
  show execRefusalReceived p s = _
  unfold execRefusalReceived
  rw [hq]
  simp only [ho, if_true]

theorem execRmoResend_due (ho : (rmoOf s p.val).ops.find? (·.tag == o.tag) = some o) {b : Nat} (hb : o.retryAt = some b)
    (hd : b ≤ s.time.beat) (hp : (pane s p.val).state = .opened) : exec (.rmoResend p o.tag) s =
      .next (admitOp (modOp s p.val o.tag fun _ => { o with retryAt := none }) p.val { o with retryAt := none }) := by
  show execRmoResend p o.tag s = _
  unfold execRmoResend
  simp only [ho, hb, hd, hp, decide_true, beq_self_eq_true, Bool.and_self, if_true]

theorem execRmoTimeout_eq (ho : (rmoOf s p.val).ops.find? (·.tag == o.tag) = some o) : exec (.rmoTimeout p o.tag) s =
    if reached s o.deadline && cellAlive s p.val then .next (completeOp s p.val o 0x21 0) else .next s := by
  show execRmoTimeout p o.tag s = _
  unfold execRmoTimeout
  simp only [ho]
  rfl

end

/-! ### The end of a revocation (R203) -/

theorem tblFind_tblDel_self {β : Type} (t : Tbl β) (a : Nat) : tblFind (tblDel t a) a = none := by
  simp only [tblFind, tblDel, List.find?_filter, Option.map_eq_none_iff, List.find?_eq_none, bne_iff_ne]
  intro e _
  by_cases h : e.1 = a <;> simp [h]

theorem tblFind_tblDel_ne {β : Type} {a b : Nat} (h : b ≠ a) (t : Tbl β) : tblFind (tblDel t a) b = tblFind t b := by
  simp only [tblFind, tblDel, List.find?_filter]
  congr 2
  funext e
  by_cases hb : e.1 = b
  · simp [hb, h]
  · simp [hb]

section
variable {s : State} {p : Pane16} {n : BitVec 8} {v : Window}

/-- The commands that ask for the revocation of an entry. -/
def revokes (p n : Nat) (j : Job) : Bool := j.opcode.toNat == opRevoke && prm j.packet 0 1 == p && prm j.packet 1 1 == n

theorem execWindowRevokeDone_done (h : tblFind (rmoOf s p.val).windows n.toNat = some v) (hv : v.wstate = 2) :
    exec (.windowRevokeDone p n) s = .next (decideJobs (modRmo s p.val fun u => { u with windows := tblDel u.windows n.toNat })
      (revokes p.val n.toNat) ansOk) := by
  show execWindowRevokeDone p n s = _
  unfold execWindowRevokeDone
  simp only [h, hv, if_true]
  rfl

theorem execWindowRevokeDone_idle (h : ∀ v, tblFind (rmoOf s p.val).windows n.toNat = some v → v.wstate ≠ 2) :
    exec (.windowRevokeDone p n) s = .next s := by
  show execWindowRevokeDone p n s = _
  unfold execWindowRevokeDone
  cases hf : tblFind (rmoOf s p.val).windows n.toNat with
  | none => rfl
  | some v => exact if_neg (h v hf)

theorem rmoOf_decideJobs (t : State) (f : Job → Bool) (a : Ans) (p : Nat) : rmoOf (decideJobs t f a) p = rmoOf t p := by
  rw [rmoOf, rmoOf, pane, pane, decideJobs_panes]

end

end Sys2Proof.Machine

open Sys2Proof Sys2Proof.Machine

/-- Settles O21: by what each response, refusal and timeout finds, and by the end of a revocation. -/
theorem remoteOperationsAndRevocationsEnd : Obligations.RemoteOperationsAndRevocationsEnd := by
  unfold Obligations.RemoteOperationsAndRevocationsEnd
  constructor
  · intro s p o ho
    refine ⟨fun m r hq htag => ?_, fun m r hq hno => ?_, fun x r hq htag => ?_, fun b hb hd hp => execRmoResend_due ho hb hd hp,
      fun hr ha => ?_, fun hr => ?_⟩
    · intro z whole
      have hm : (rmoOf s p.val).ops.find? (·.tag == m.tag) = some o := htag ▸ ho
      refine ⟨execResponse_stale hq hm, fun he ha hw hop => ?_, fun he ha hw hop => ?_, fun he ha hw hop => ?_,
        fun he ha hw => ?_⟩
      · have hset := execResponse_settled hq hm he ha ((wholeResponse_iff o m).mpr hw) (by omega) (by omega)
        rw [if_pos hop] at hset
        exact hset
      · have hset := execResponse_settled hq hm he ha ((wholeResponse_iff o m).mpr hw) (by omega) (by omega)
        rw [if_neg (by omega)] at hset
        exact hset
      · have h56 : m.op.toNat = 5 ∨ m.op.toNat = 6 := hop.imp (congrArg BitVec.toNat) (congrArg BitVec.toNat)
        have hw' := (wholeResponse_iff o m).mpr hw
        exact ⟨fun v hv => execResponse_counted hq hm he ha hw' h56 hv, fun hv => ⟨openCount s o m, openCount_lt s o m,
          fun h6 => openCount_met s o (congrArg BitVec.toNat h6), execResponse_uncounted hq hm he ha hw' h56 hv⟩⟩
      · exact execResponse_fragment hq hm he ha (Bool.eq_false_iff.mpr (mt (wholeResponse_iff o m).mp hw))
    · refine execResponse_ended hq (List.find?_eq_none.mpr fun x hx => ?_)
      exact (bne_iff_ne.mp (List.all_eq_true.mp hno x hx)) ∘ beq_iff_eq.mp
    · refine execRefusal_noted hq (List.any_eq_true.mpr ⟨o, List.mem_of_find?_eq_some ho, ?_⟩)
      exact beq_iff_eq.mpr htag.symm
    · refine (execRmoTimeout_eq ho).trans (if_pos ?_)
      rw [hr, ha, Bool.and_self]
    · refine (execRmoTimeout_eq ho).trans (if_neg ?_)
      rw [hr, Bool.false_and]
      exact Bool.false_ne_true
  · intro s p n ws
    refine ⟨fun v hv hst => ?_, fun v hv hst => ?_, fun hno => ?_⟩
    · have hwin : (rmoOf (decideJobs (modRmo s p.val fun u => { u with windows := tblDel u.windows n.toNat })
          (revokes p.val n.toNat) ansOk) p.val).windows = tblDel ws n.toNat := by
        rw [rmoOf_decideJobs, rmoOf_modRmo_self]
      refine ⟨_, execWindowRevokeDone_done hv hst, ?_, fun k hk => ?_, fun q j hq hj hop hs hout hp hn => ?_⟩
      · rw [hwin]
        exact tblFind_tblDel_self _ _
      · rw [hwin]
        exact tblFind_tblDel_ne hk _
      · refine decides_decideJobs ansOk hq hj hs hout ?_
        simp only [revokes, hop, hp, hn, beq_self_eq_true, Bool.and_true]
        rfl
    · refine execWindowRevokeDone_idle fun v' hv' => ?_
      obtain rfl : v = v' := Option.some.inj (hv.symm.trans hv')
      exact hst
    · exact execWindowRevokeDone_idle fun v hv => absurd (hno.symm.trans hv) (by simp)

end

section
/-! PROOFS. Frames: what the operations of the module's engines leave alone, field by field. -/

section

set_option linter.unusedVariables false
set_option linter.unusedSimpArgs false
set_option linter.unnecessarySimpa false
set_option linter.unusedTactic false
set_option linter.unreachableTactic false

namespace Sys2Proof.Machine

/-! ### The beat unit -/

@[simp] theorem foldl_time {α : Type} (f : State → α → State) (hf : ∀ s a, (f s a).time = s.time) (l : List α)
    (s : State) : (l.foldl f s).time = s.time := by
  induction l generalizing s with
  | nil => rfl
  | cons a l ih => rw [List.foldl_cons, ih, hf]

@[simp] theorem ite_time (c : Prop) [Decidable c] (a b : State) : (if c then a else b).time = if c then a.time else b.time := by
  split <;> rfl

@[simp] theorem modPanes_time (s : State) (a1 : BitVec 16) (a2 : Nat → Pane → Pane) :
    (modPanes s a1 a2).time = s.time := by
  simp [modPanes]

@[simp] theorem modCells_time (s : State) (a1 : Nat) (a2 : Cell → Cell) :
    (modCells s a1 a2).time = s.time := by
  simp [modCells]

@[simp] theorem scramble_time (s : State) (a1 : Nat) (a2 : Nat) (a3 : Nat) :
    (scramble s a1 a2 a3).time = s.time := by
  simp [scramble]

@[simp] theorem modMeter_time (s : State) (a1 : Nat) (a2 : Meter → Meter) :
    (modMeter s a1 a2).time = s.time := by
  unfold modMeter
  dsimp only
  repeat' split
  all_goals simp

@[simp] theorem meterTorus_time (s : State) (a1 : Nat) (a2 : Nat) :
    (meterTorus s a1 a2).time = s.time := by
  simp [meterTorus]

@[simp] theorem islandPass_time (s : State) (a1 : Nat) :
    (islandPass s a1).time = s.time := by
  simp [islandPass]

theorem sealFrame_time (s : State) (p : Nat) (h : SlotHdr) (d : List Byte) (r : State × List Byte)
    (e : sealFrame s p h d = some r) : r.1.time = s.time := by
  simp only [sealFrame, Option.map_eq_some_iff] at e
  obtain ⟨k, -, rfl⟩ := e
  simp

@[simp] theorem queueParcel_time (s : State) (p : Parcel) :
    (queueParcel s p).time = s.time := by
  unfold queueParcel
  split <;> simp

@[simp] theorem sendParcel_time (s : State) (a1 : Parcel) :
    (sendParcel s a1).time = s.time := by
  unfold sendParcel
  split <;> simp

@[simp] theorem sendMgmt_time (s : State) (a1 : BitVec 16) (a2 : List Byte) :
    (sendMgmt s a1 a2).time = s.time := by
  simp [sendMgmt]

@[simp] theorem pushSb_time (s : State) (a1 : SbReply) :
    (pushSb s a1).time = s.time := by
  simp [pushSb]

@[simp] theorem sbReply_time (s : State) (a1 : BitVec 16) (a2 : FmFragment) :
    (sbReply s a1 a2).time = s.time := by
  simp [sbReply]

@[simp] theorem fmReplyTo_time (s : State) (a1 : Option (BitVec 16)) (a2 : BitVec 32) (a3 : List Byte) :
    (fmReplyTo s a1 a2 a3).time = s.time := by
  unfold fmReplyTo
  split <;> simp

@[simp] theorem finish_time (s : State) (a1 : Nat) (a2 : Reply) :
    (finish s a1 a2).time = s.time := by
  unfold finish
  dsimp only
  repeat' split
  all_goals simp

@[simp] theorem orphanWork_time (s : State) (a1 : Nat) :
    (orphanWork s a1).time = s.time := by
  simp [orphanWork]

@[simp] theorem spoilFar_time (s : State) (o ofs n : Nat) :
    (spoilFar s o ofs n).time = s.time := by
  simp [spoilFar]

@[simp] theorem leaveUndefined_time (s : State) (j : Job) :
    (leaveUndefined s j).time = s.time := by
  unfold leaveUndefined
  dsimp only
  repeat' split
  all_goals simp

@[simp] theorem endNow_time (s : State) (a1 : Nat) (a2 : Ans) :
    (endNow s a1 a2).time = s.time := by
  unfold endNow
  split <;> simp

@[simp] theorem abortLocked_time (s : State) (a1 : BitVec 16) (a2 : Nat) (a3 : Job → Bool) :
    (abortLocked s a1 a2 a3).time = s.time := by
  simp [abortLocked]

@[simp] theorem endEscape_time (s : State) (a1 : Ans) :
    (endEscape s a1).time = s.time := by
  unfold endEscape
  split <;> simp

@[simp] theorem endEscapeIf_time (s : State) (a1 : Job → Bool) (a2 : Ans) :
    (endEscapeIf s a1 a2).time = s.time := by
  unfold endEscapeIf
  split <;> simp

@[simp] theorem abortForEvent_time (s : State) (a1 : Nat) :
    (abortForEvent s a1).time = s.time := by
  simp [abortForEvent]

@[simp] theorem askTeardown_time (s : State) (a1 : Nat) (a2 : Nat) (a3 : Bool) :
    (askTeardown s a1 a2 a3).time = s.time := by
  simp [askTeardown]

@[simp] theorem goOutOfService_time (s : State) (a1 : Nat) :
    (goOutOfService s a1).time = s.time := by
  simp [goOutOfService]

@[simp] theorem dropCount_time (s : State) (a1 : Nat) (a2 : Nat) :
    (dropCount s a1 a2).time = s.time := by
  simp [dropCount]

@[simp] theorem substCell_time (s : State) (a1 : Nat) (a2 : Nat) :
    (substCell s a1 a2).time = s.time := by
  unfold substCell
  dsimp only
  repeat' split
  all_goals simp

@[simp] theorem losePc_time (s : State) (p l pc : Nat) :
    (losePc s p l pc).time = s.time := by
  simp [losePc]

@[simp] theorem substPc_time (s : State) (a1 : Nat) (a2 : Nat) (a3 : Bool) :
    (substPc s a1 a2 a3).time = s.time := by
  unfold substPc
  dsimp only
  repeat' split
  all_goals simp

@[simp] theorem releaseDue_time (s : State) (a1 : Nat) :
    (releaseDue s a1).time = s.time := by
  simp [releaseDue]

@[simp] theorem sendResponse_time (s : State) (a1 : Nat) (a2 : Msg) :
    (sendResponse s a1 a2).time = s.time := by
  simp [sendResponse]

@[simp] theorem respond_time (s : State) (a1 : Nat) (a2 : Msg) (a3 : Nat) (a4 : List Byte) (a5 : Option (BitVec 64)) :
    (respond s a1 a2 a3 a4 a5).time = s.time := by
  simp [respond]

@[simp] theorem countNack_time (s : State) (p code : Nat) :
    (countNack s p code).time = s.time := by
  simp [countNack]

@[simp] theorem respondCode_time (s : State) (a1 : Nat) (a2 : Msg) (a3 : Nat) :
    (respondCode s a1 a2 a3).time = s.time := by
  simp [respondCode]

@[simp] theorem answerWaiter_time (s : State) (a1 : Nat) (a2 : Waiter) (a3 : Nat) (a4 : BitVec 64) :
    (answerWaiter s a1 a2 a3 a4).time = s.time := by
  unfold answerWaiter
  split <;> simp

@[simp] theorem grantNext_time (s : State) (a1 : Nat) (a2 : Nat) :
    (grantNext s a1 a2).time = s.time := by
  unfold grantNext
  dsimp only
  repeat' split
  all_goals simp

@[simp] theorem orphanLatch_time (s : State) (a1 : Nat) :
    (orphanLatch s a1).time = s.time := by
  unfold orphanLatch
  dsimp only
  repeat' split
  all_goals simp

@[simp] theorem orphanAll_time (s : State) (a1 : BitVec 16) (a2 : BitVec 4) (a3 : BitVec 16) :
    (orphanAll s a1 a2 a3).time = s.time := by
  simp [orphanAll]

@[simp] theorem dropWaiters_time (s : State) (a1 : Nat) :
    (dropWaiters s a1).time = s.time := by
  simp [dropWaiters]

@[simp] theorem scrambleColl_time (s : State) (a1 : Group) (a2 : List Byte) (a3 : Nat) :
    (scrambleColl s a1 a2 a3).time = s.time := by
  simp [scrambleColl]

@[simp] theorem enterAbort_time (s : State) (a1 : AbortEntry) :
    (enterAbort s a1).time = s.time := by
  simp [enterAbort]

@[simp] theorem dueAbort_time (s : State) (a1 : AbortEntry) :
    (dueAbort s a1).time = s.time := by
  simp [dueAbort]

@[simp] theorem detectAbort_time (s : State) (a1 : BitVec 32) (a2 : Nat) (a3 : Nat) :
    (detectAbort s a1 a2 a3).time = s.time := by
  simp [detectAbort]

@[simp] theorem abortGroup_time (s : State) (a1 : Group) (a2 : Nat) (a3 : Nat) :
    (abortGroup s a1 a2 a3).time = s.time := by
  simp [abortGroup]

@[simp] theorem haltPane_time (s : State) (a1 : Nat) :
    (haltPane s a1).time = s.time := by
  simp [haltPane]

@[simp] theorem dropFwd_time (s : State) (lead : Nat) :
    (dropFwd s lead).time = s.time := by
  simp [dropFwd]

@[simp] theorem dropRun_time (s : State) (a1 : Group) :
    (dropRun s a1).time = s.time := by
  simp [dropRun]

@[simp] theorem stopColls_time (s : State) (a1 : Group) :
    (stopColls s a1).time = s.time := by
  unfold stopColls
  split <;> simp

@[simp] theorem setCollStatus_time (s : State) (a1 : Nat) (a2 : AbortEntry) :
    (setCollStatus s a1 a2).time = s.time := by
  simp [setCollStatus]

@[simp] theorem recordAbort_time (s : State) (a1 : Nat) (a2 : AbortEntry) :
    (recordAbort s a1 a2).time = s.time := by
  simp [recordAbort]

@[simp] theorem stepSpans_time (s : State) (a1 : Nat → Nat) :
    (stepSpans s a1).time = s.time := by
  simp [stepSpans]

@[simp] theorem loseTime_time (s : State) (a1 : Group) :
    (loseTime s a1).time = s.time := by
  simp [loseTime]

@[simp] theorem appendRec_time (s : State) (r : JRec) :
    (appendRec s r).time = s.time := by
  simp [appendRec]

@[simp] theorem checkpoint_time (s : State) :
    (checkpoint s).time = s.time := by
  simp [checkpoint]

@[simp] theorem checkpointIfDue_time (s : State) :
    (checkpointIfDue s).time = s.time := by
  simp [checkpointIfDue]

@[simp] theorem journal_time (s : State) (a1 : Nat) (a2 : Nat) (a3 : BitVec 32) (a4 : Nat) (a5 : Nat) (a6 : BitVec 32) (a7 : BitVec 32) (a8 : BitVec 32) :
    (journal s a1 a2 a3 a4 a5 a6 a7 a8).time = s.time := by
  simp [journal]

@[simp] theorem countWritten_time (s : State) (a1 : Nat) (a2 : Nat) :
    (countWritten s a1 a2).time = s.time := by
  simp [countWritten]

@[simp] theorem putUnits_time (s : State) (g : FarProg) :
    (putUnits s g).time = s.time := by
  simp [putUnits]

@[simp] theorem landProg_time (s : State) (a1 : FarProg) :
    (landProg s a1).time = s.time := by
  unfold landProg
  split <;> simp

@[simp] theorem makeDurable_time (s : State) (upto : Nat) :
    (makeDurable s upto).time = s.time := by
  simp [makeDurable]

@[simp] theorem farPowerLoss_time (s : State) :
    (farPowerLoss s).time = s.time := by
  simp [farPowerLoss]

@[simp] theorem dropParcels_time (s : State) (a1 : Nat) :
    (dropParcels s a1).time = s.time := by
  simp [dropParcels]

@[simp] theorem dropQueues_time (s : State) (a1 : Nat) (a2 : Bool) :
    (dropQueues s a1 a2).time = s.time := by
  simp [dropQueues]

@[simp] theorem zeroCells_time (s : State) (a1 : Nat) :
    (zeroCells s a1).time = s.time := by
  simp [zeroCells]

@[simp] theorem abortForPane_time (s : State) (a1 : Nat) :
    (abortForPane s a1).time = s.time := by
  unfold abortForPane
  split <;> simp

@[simp] theorem resetContext_time (s : State) (a1 : Nat) :
    (resetContext s a1).time = s.time := by
  simp [resetContext]

@[simp] theorem contextResetDue_time (s : State) (p : Nat) :
    (contextResetDue s p).time = s.time := by
  unfold contextResetDue
  split <;> simp

@[simp] theorem suspendTest_time (s : State) (a1 : Nat) :
    (suspendTest s a1).time = s.time := by
  simp [suspendTest]

@[simp] theorem suspendToBudget_time (s : State) (n : Nat) : (suspendToBudget s n).time = s.time := by
  induction n generalizing s with
  | zero => rfl
  | succ n ih =>
    unfold suspendToBudget
    dsimp only
    (repeat' split) <;> simp [ih]

@[simp] theorem holdBeat_time (s : State) (a1 : Group) (a2 : HoldCause) :
    (holdBeat s a1 a2).time = s.time := by
  simp [holdBeat]

@[simp] theorem planBeat_time (s : State) (a1 : Group) (a2 : List Byte) (a3 : Run) :
    (planBeat s a1 a2 a3).time = s.time := by
  unfold planBeat
  dsimp only
  repeat' split
  all_goals simp

@[simp] theorem beginBeat_time (s : State) (a1 : Group) (a2 : List Byte) (a3 : Run) :
    (beginBeat s a1 a2 a3).time = s.time := by
  unfold beginBeat
  repeat' split
  all_goals simp

@[simp] theorem groupBeat_time (s : State) (a1 : Nat) :
    (groupBeat s a1).time = s.time := by
  unfold groupBeat
  dsimp only
  repeat' split
  all_goals simp

@[simp] theorem countPeriods_time (s : State) :
    (countPeriods s).time = s.time := by
  simp [countPeriods]

@[simp] theorem applyCap_time (s : State) (a1 : BitVec 2) :
    (applyCap s a1).time = s.time := by
  simp [applyCap]

@[simp] theorem powerBoundary_time (s : State) :
    (powerBoundary s).time = s.time := by
  simp [powerBoundary]

@[simp] theorem meterBeat_time (s : State) :
    (meterBeat s).time = s.time := by
  simp [meterBeat]

@[simp] theorem freshBeat_time (s : State) :
    (freshBeat s).time = s.time := by
  simp [freshBeat]

@[simp] theorem abortUsers_time (s : State) (a1 : Nat) :
    (abortUsers s a1).time = s.time := by
  unfold abortUsers
  refine foldl_time _ (fun s a => ?_) _ _
  (repeat' split) <;> simp

@[simp] theorem enterLink_time (s : State) (a1 : Nat) (a2 : BitVec 4) :
    (enterLink s a1 a2).time = s.time := by
  simp [enterLink]

@[simp] theorem leaveActive_time (s : State) (a1 : Nat) (a2 : BitVec 4) :
    (leaveActive s a1 a2).time = s.time := by
  simp [leaveActive]

@[simp] theorem cvSlot_time (s : State) (a1 : Nat) (a2 : Bool) (a3 : Group) (a4 : List Byte) (a5 : SlotRun) (a6 : Nat) (a7 : Nat) (a8 : BitVec 64) (a9 : List Byte) :
    (cvSlot s a1 a2 a3 a4 a5 a6 a7 a8 a9).time = s.time := by
  unfold cvSlot
  dsimp only
  split_ifs <;> simp

@[simp] theorem freeSlots_time (s : State) (a1 : Nat) (a2 : List Parcel) :
    (freeSlots s a1 a2).time = s.time := by
  simp [freeSlots]

@[simp] theorem fillBulk_time (s : State) (via : Nat) :
    (fillBulk s via).time = s.time := by
  simp [fillBulk]

@[simp] theorem takeLoad_time (s : State) (a1 : Nat) (a2 : Nat) (a3 : Nat) :
    (takeLoad s a1 a2 a3).1.time = s.time := by
  unfold takeLoad
  dsimp only
  repeat' split
  all_goals simp

@[simp] theorem noteCommit_time (s : State) (a1 : Nat) (a2 : List Byte) :
    (noteCommit s a1 a2).time = s.time := by
  simp [noteCommit]

@[simp] theorem resetDone_time (s : State) (a1 : Nat) (a2 : Nat) (a3 : Nat) (a4 : BitVec 32) (a5 : BitVec 16) (a6 : Nat) :
    (resetDone s a1 a2 a3 a4 a5 a6).time = s.time := by
  simp [resetDone]

@[simp] theorem done_time (s : State) :
    (done s).1.time = s.time := by
  simp [done]

@[simp] theorem renegotiate_time (s : State) :
    (renegotiate s).time = s.time := by
  simp [renegotiate]

/-! ### `groups` -/

@[simp] theorem foldl_groups {α : Type} (f : State → α → State) (hf : ∀ s a, (f s a).groups = s.groups) (l : List α)
    (s : State) : (l.foldl f s).groups = s.groups := by
  induction l generalizing s with
  | nil => rfl
  | cons a l ih => rw [List.foldl_cons, ih, hf]

@[simp] theorem ite_groups (c : Prop) [Decidable c] (a b : State) : (if c then a else b).groups = if c then a.groups else b.groups := by
  split <;> rfl

@[simp] theorem modCells_groups (s : State) (a1 : Nat) (a2 : Cell → Cell) :
    (modCells s a1 a2).groups = s.groups := by
  simp [modCells]

@[simp] theorem scramble_groups (s : State) (a1 : Nat) (a2 : Nat) (a3 : Nat) :
    (scramble s a1 a2 a3).groups = s.groups := by
  simp [scramble]

@[simp] theorem deliver_groups (s : State) (a1 : Event) :
    (deliver s a1).groups = s.groups := by
  simp [deliver]

@[simp] theorem record_groups (s : State) (a1 : Nat) (a2 : Nat) (a3 : Nat) (a4 : List Byte) :
    (record s a1 a2 a3 a4).groups = s.groups := by
  simp [record]

@[simp] theorem msix_groups (s : State) (a1 : Nat) (a2 : Nat) :
    (msix s a1 a2).groups = s.groups := by
  simp [msix]

@[simp] theorem queueNotice_groups (s : State) (a1 : Nat) (a2 : Nat) (a3 : BitVec 32) (a4 : BitVec 16) (a5 : Nat) (a6 : Nat) (a7 : Nat) :
    (queueNotice s a1 a2 a3 a4 a5 a6 a7).groups = s.groups := by
  simp [queueNotice]

@[simp] theorem modMeter_groups (s : State) (a1 : Nat) (a2 : Meter → Meter) :
    (modMeter s a1 a2).groups = s.groups := by
  unfold modMeter
  dsimp only
  repeat' split
  all_goals simp

@[simp] theorem meterRefusal_groups (s : State) (a1 : Nat) :
    (meterRefusal s a1).groups = s.groups := by
  simp [meterRefusal]

@[simp] theorem meterTorus_groups (s : State) (a1 : Nat) (a2 : Nat) :
    (meterTorus s a1 a2).groups = s.groups := by
  simp [meterTorus]

@[simp] theorem queueParcel_groups (s : State) (p : Parcel) :
    (queueParcel s p).groups = s.groups := by
  unfold queueParcel
  split <;> simp

@[simp] theorem sendParcel_groups (s : State) (a1 : Parcel) :
    (sendParcel s a1).groups = s.groups := by
  unfold sendParcel
  split <;> simp

@[simp] theorem sendMgmt_groups (s : State) (a1 : BitVec 16) (a2 : List Byte) :
    (sendMgmt s a1 a2).groups = s.groups := by
  simp [sendMgmt]

@[simp] theorem pushSb_groups (s : State) (a1 : SbReply) :
    (pushSb s a1).groups = s.groups := by
  simp [pushSb]

@[simp] theorem sbReply_groups (s : State) (a1 : BitVec 16) (a2 : FmFragment) :
    (sbReply s a1 a2).groups = s.groups := by
  simp [sbReply]

@[simp] theorem fmReplyTo_groups (s : State) (a1 : Option (BitVec 16)) (a2 : BitVec 32) (a3 : List Byte) :
    (fmReplyTo s a1 a2 a3).groups = s.groups := by
  unfold fmReplyTo
  split <;> simp

@[simp] theorem finish_groups (s : State) (a1 : Nat) (a2 : Reply) :
    (finish s a1 a2).groups = s.groups := by
  unfold finish
  dsimp only
  repeat' split
  all_goals simp

@[simp] theorem decideJob_groups (s : State) (a1 : Nat) (a2 : Ans) :
    (decideJob s a1 a2).groups = s.groups := by
  simp [decideJob]

@[simp] theorem chargeRefusal_groups (s : State) (a1 : Nat) :
    (chargeRefusal s a1).groups = s.groups := by
  simp [chargeRefusal]

@[simp] theorem nearWrite_groups (s : State) (a1 : Nat) (a2 : Nat) (a3 : List Byte) :
    (nearWrite s a1 a2 a3).groups = s.groups := by
  simp [nearWrite]

@[simp] theorem sendResponse_groups (s : State) (a1 : Nat) (a2 : Msg) :
    (sendResponse s a1 a2).groups = s.groups := by
  simp [sendResponse]

@[simp] theorem respond_groups (s : State) (a1 : Nat) (a2 : Msg) (a3 : Nat) (a4 : List Byte) (a5 : Option (BitVec 64)) :
    (respond s a1 a2 a3 a4 a5).groups = s.groups := by
  simp [respond]

@[simp] theorem countNack_groups (s : State) (p code : Nat) :
    (countNack s p code).groups = s.groups := by
  simp [countNack]

@[simp] theorem respondCode_groups (s : State) (a1 : Nat) (a2 : Msg) (a3 : Nat) :
    (respondCode s a1 a2 a3).groups = s.groups := by
  simp [respondCode]

@[simp] theorem answerWaiter_groups (s : State) (a1 : Nat) (a2 : Waiter) (a3 : Nat) (a4 : BitVec 64) :
    (answerWaiter s a1 a2 a3 a4).groups = s.groups := by
  unfold answerWaiter
  split <;> simp

@[simp] theorem latchArrive_groups (s : State) (a1 : Nat) (a2 : Nat) :
    (latchArrive s a1 a2).groups = s.groups := by
  simp [latchArrive]

@[simp] theorem scrambleColl_groups (s : State) (a1 : Group) (a2 : List Byte) (a3 : Nat) :
    (scrambleColl s a1 a2 a3).groups = s.groups := by
  simp [scrambleColl]

@[simp] theorem enterAbort_groups (s : State) (a1 : AbortEntry) :
    (enterAbort s a1).groups = s.groups := by
  simp [enterAbort]

@[simp] theorem setCollStatus_groups (s : State) (a1 : Nat) (a2 : AbortEntry) :
    (setCollStatus s a1 a2).groups = s.groups := by
  simp [setCollStatus]

@[simp] theorem recordAbort_groups (s : State) (a1 : Nat) (a2 : AbortEntry) :
    (recordAbort s a1 a2).groups = s.groups := by
  simp [recordAbort]

@[simp] theorem enterTime_groups (s : State) (a1 : TimeMode) :
    (enterTime s a1).groups = s.groups := by
  simp [enterTime]

@[simp] theorem appendRec_groups (s : State) (r : JRec) :
    (appendRec s r).groups = s.groups := by
  simp [appendRec]

@[simp] theorem checkpoint_groups (s : State) :
    (checkpoint s).groups = s.groups := by
  simp [checkpoint]

@[simp] theorem checkpointIfDue_groups (s : State) :
    (checkpointIfDue s).groups = s.groups := by
  simp [checkpointIfDue]

@[simp] theorem journal_groups (s : State) (a1 : Nat) (a2 : Nat) (a3 : BitVec 32) (a4 : Nat) (a5 : Nat) (a6 : BitVec 32) (a7 : BitVec 32) (a8 : BitVec 32) :
    (journal s a1 a2 a3 a4 a5 a6 a7 a8).groups = s.groups := by
  simp [journal]

@[simp] theorem journalBlk_groups (s : State) (a1 : Nat) (a2 : Nat) (a3 : Nat) :
    (journalBlk s a1 a2 a3).groups = s.groups := by
  simp [journalBlk]

@[simp] theorem openBlk_groups (s : State) (a1 : Nat) (a2 : Nat) (a3 : BlockState) :
    (openBlk s a1 a2 a3).groups = s.groups := by
  simp [openBlk]

@[simp] theorem takeUnit_groups (s : State) (a1 : Nat) (a2 : Nat) :
    (takeUnit s a1 a2).1.groups = s.groups := by
  simp [takeUnit]

theorem placeUnit_groups (s : State) (ch : Nat) (st : BlockState) (r : State × BitVec 32)
    (e : placeUnit s ch st = some r) : r.1.groups = s.groups := by
  unfold placeUnit at e
  split at e
  · obtain rfl := Option.some.inj e
    simp
  · simp only [Option.map_eq_some_iff] at e
    obtain ⟨k, -, rfl⟩ := e
    simp

@[simp] theorem countBlkRead_groups (s : State) (k : Nat) :
    (countBlkRead s k).groups = s.groups := by
  simp [countBlkRead]

@[simp] theorem countRead_groups (s : State) (a1 : Nat) (a2 : Nat) :
    (countRead s a1 a2).groups = s.groups := by
  unfold countRead
  split <;> simp

@[simp] theorem addProg_groups (s : State) (g : FarProg) : (addProg s g).groups = s.groups := by
  unfold addProg
  split
  · rename_i h
    simpa using placeUnit_groups _ _ _ _ h
  · simp

@[simp] theorem progUnit_groups (s : State) (a1 : Nat) (a2 : Nat) (a3 : Nat) (a4 : List Byte) (a5 : Nat) :
    (progUnit s a1 a2 a3 a4 a5).groups = s.groups := by
  unfold progUnit
  dsimp only
  split
  · rename_i h
    simpa using placeUnit_groups _ _ _ _ h
  · simp

@[simp] theorem farWrite_groups (s : State) (a1 : Nat) (a2 : Nat) (a3 : List Byte) (a4 : FarSink) :
    (farWrite s a1 a2 a3 a4).groups = s.groups := by
  simp [farWrite]

@[simp] theorem meterEvent_groups (s : State) (a1 : Nat) (a2 : Nat) :
    (meterEvent s a1 a2).groups = s.groups := by
  simp [meterEvent]

@[simp] theorem storeRec_groups (s : State) (a1 : MeterRec) :
    (storeRec s a1).groups = s.groups := by
  simp [storeRec]

@[simp] theorem holdRec_groups (s : State) (a1 : MeterRec) :
    (holdRec s a1).groups = s.groups := by
  simp [holdRec]

@[simp] theorem writeRec_groups (s : State) (a1 : Nat) (a2 : Nat) (a3 : Nat) (a4 : Nat) (a5 : Nat) (a6 : List Byte) :
    (writeRec s a1 a2 a3 a4 a5 a6).groups = s.groups := by
  simp [writeRec]

@[simp] theorem keptRec_groups (s : State) (a1 : Nat) (a2 : Meter) (a3 : Nat) :
    (keptRec s a1 a2 a3).groups = s.groups := by
  simp [keptRec]

@[simp] theorem openOccupancy_groups (s : State) (a1 : Nat) :
    (openOccupancy s a1).groups = s.groups := by
  simp [openOccupancy]

@[simp] theorem closeKept_groups (s : State) (a1 : Nat) (a2 : Nat) :
    (closeKept s a1 a2).groups = s.groups := by
  unfold closeKept
  split <;> simp

@[simp] theorem noteHeld_groups (s : State) (a1 : Nat) (a2 : Option Nat) (a3 : List Byte) :
    (noteHeld s a1 a2 a3).groups = s.groups := by
  unfold noteHeld
  dsimp only
  repeat' split
  all_goals simp

@[simp] theorem writeFrame_groups (s : State) (a1 : Option Nat) (a2 : List Byte) :
    (writeFrame s a1 a2).groups = s.groups := by
  simp [writeFrame]

@[simp] theorem stageDrain_groups (s : State) (a1 : Nat) (a2 : DrainRun) :
    (stageDrain s a1 a2).groups = s.groups := by
  simp [stageDrain]

@[simp] theorem suspendTest_groups (s : State) (a1 : Nat) :
    (suspendTest s a1).groups = s.groups := by
  simp [suspendTest]

@[simp] theorem suspendToBudget_groups (s : State) (n : Nat) : (suspendToBudget s n).groups = s.groups := by
  induction n generalizing s with
  | zero => rfl
  | succ n ih =>
    unfold suspendToBudget
    dsimp only
    (repeat' split) <;> simp [ih]

@[simp] theorem resetDone_groups (s : State) (a1 : Nat) (a2 : Nat) (a3 : Nat) (a4 : BitVec 32) (a5 : BitVec 16) (a6 : Nat) :
    (resetDone s a1 a2 a3 a4 a5 a6).groups = s.groups := by
  simp [resetDone]

@[simp] theorem done_groups (s : State) :
    (done s).1.groups = s.groups := by
  simp [done]

@[simp] theorem loadPane_groups (a0 : List Byte) (a1 : Group) (s : State) (a3 : Nat) :
    (loadPane a0 a1 s a3).groups = s.groups := by
  simp [loadPane]

@[simp] theorem loadLatch_groups (a0 : Group) (s : State) (a2 : Nat × Nat × Nat) :
    (loadLatch a0 s a2).groups = s.groups := by
  unfold loadLatch
  split <;> simp

/-! ### The groups, their Plans and runs -/

/-- What the running of Plans looks at in a group. -/
def groupView (g : Group) : BitVec 16 × Option (List Byte) × Option Run × Option PlanEnd := (g.members, g.plan, g.run, g.ended)

/-- The groups as the running of Plans looks at them. -/
def gvs (l : List Group) : List (BitVec 16 × Option (List Byte) × Option Run × Option PlanEnd) := l.map groupView

@[simp] theorem gvs_ite (c : Prop) [Decidable c] (a b : List Group) :
    gvs (if c then a else b) = if c then gvs a else gvs b := apply_ite gvs c a b

theorem groupView_of_keeps {f : Group → Group}
    (hf : ∀ g, (f g).members = g.members ∧ (f g).plan = g.plan ∧ (f g).run = g.run ∧ (f g).ended = g.ended) (g : Group) : groupView (f g) = groupView g := by
  obtain ⟨h1, h2, h3, h4⟩ := hf g
  rw [groupView, h1, h2, h3, h4]
  rfl

@[simp] theorem gvs_map (f : Group → Group)
    (hf : ∀ g, (f g).members = g.members ∧ (f g).plan = g.plan ∧ (f g).run = g.run ∧ (f g).ended = g.ended) (l : List Group) :
    gvs (l.map f) = gvs l := by
  rw [gvs, List.map_map]
  exact List.map_congr_left fun g _ => groupView_of_keeps hf g

@[simp] theorem gvs_modGroup (s : State) (l : Nat) (f : Group → Group)
    (hf : ∀ g, (f g).members = g.members ∧ (f g).plan = g.plan ∧ (f g).run = g.run ∧ (f g).ended = g.ended) :
    gvs (modGroup s l f).groups = gvs s.groups :=
  gvs_map _ (fun g => by
    split
    · exact hf g
    · exact ⟨rfl, rfl, rfl, rfl⟩) _

@[simp] theorem dueAbort_gvs (s : State) (a1 : AbortEntry) : gvs (dueAbort s a1).groups = gvs s.groups :=
  gvs_map _ (fun g => by
    split
    · exact ⟨rfl, rfl, rfl, rfl⟩
    · exact ⟨rfl, rfl, rfl, rfl⟩) _

@[simp] theorem setPane_gvs (s : State) (p : Nat) (v : Pane) :
    gvs (setPane s p v).groups = gvs s.groups := by rfl

@[simp] theorem modPane_gvs (s : State) (p : Nat) (f : Pane → Pane) :
    gvs (modPane s p f).groups = gvs s.groups := by rfl

@[simp] theorem setPhysCell_gvs (s : State) (p : Nat) (c : Nat) (v : Cell) :
    gvs (setPhysCell s p c v).groups = gvs s.groups := by rfl

@[simp] theorem setCell_gvs (s : State) (p : Nat) (l : Nat) (v : Cell) :
    gvs (setCell s p l v).groups = gvs s.groups := by rfl

@[simp] theorem modCell_gvs (s : State) (p : Nat) (l : Nat) (f : Cell → Cell) :
    gvs (modCell s p l f).groups = gvs s.groups := by rfl

@[simp] theorem tookFree_gvs (s : State) :
    gvs (tookFree s).groups = gvs s.groups := by rfl

@[simp] theorem modTraf_gvs (s : State) (p : Nat) (f : PortTraffic → PortTraffic) :
    gvs (modTraf s p f).groups = gvs s.groups := by rfl

@[simp] theorem modMbx_gvs (s : State) (r : Nat) (f : Mailbox → Mailbox) :
    gvs (modMbx s r f).groups = gvs s.groups := by rfl

@[simp] theorem modNear_gvs (s : State) (p : Nat) (f : NearTier → NearTier) :
    gvs (modNear s p f).groups = gvs s.groups := by rfl

@[simp] theorem modRmo_gvs (s : State) (p : Nat) (f : RmoUnit → RmoUnit) :
    gvs (modRmo s p f).groups = gvs s.groups := by rfl

@[simp] theorem modLatch_gvs (s : State) (i : Nat) (f : Latch → Latch) :
    gvs (modLatch s i f).groups = gvs s.groups := by rfl

@[simp] theorem modStore_gvs (s : State) (f : StoreUnit → StoreUnit) :
    gvs (modStore s f).groups = gvs s.groups := by rfl

@[simp] theorem setMsixByte_gvs (s : State) (fn : Nat) (o : Nat) (b : Byte) :
    gvs (setMsixByte s fn o b).groups = gvs s.groups := by rfl

@[simp] theorem foldl_gvs {α : Type} (f : State → α → State) (hf : ∀ s a, gvs (f s a).groups = gvs s.groups) (l : List α)
    (s : State) : gvs (l.foldl f s).groups = gvs s.groups := by
  induction l generalizing s with
  | nil => rfl
  | cons a l ih => rw [List.foldl_cons, ih, hf]

@[simp] theorem ite_gvs (c : Prop) [Decidable c] (a b : State) : gvs (if c then a else b).groups = if c then gvs a.groups else gvs b.groups := by
  split <;> rfl

@[simp] theorem modCells_gvs (s : State) (a1 : Nat) (a2 : Cell → Cell) :
    gvs (modCells s a1 a2).groups = gvs s.groups := by
  simp [modCells]

@[simp] theorem scramble_gvs (s : State) (a1 : Nat) (a2 : Nat) (a3 : Nat) :
    gvs (scramble s a1 a2 a3).groups = gvs s.groups := by
  simp [scramble]

@[simp] theorem deliver_gvs (s : State) (a1 : Event) :
    gvs (deliver s a1).groups = gvs s.groups := by
  simp [deliver]

@[simp] theorem record_gvs (s : State) (a1 : Nat) (a2 : Nat) (a3 : Nat) (a4 : List Byte) :
    gvs (record s a1 a2 a3 a4).groups = gvs s.groups := by
  simp [record]

@[simp] theorem msix_gvs (s : State) (a1 : Nat) (a2 : Nat) :
    gvs (msix s a1 a2).groups = gvs s.groups := by
  simp [msix]

@[simp] theorem queueParcel_gvs (s : State) (p : Parcel) :
    gvs (queueParcel s p).groups = gvs s.groups := by
  unfold queueParcel
  split <;> simp

@[simp] theorem sendParcel_gvs (s : State) (a1 : Parcel) :
    gvs (sendParcel s a1).groups = gvs s.groups := by
  unfold sendParcel
  split <;> simp

@[simp] theorem sendMgmt_gvs (s : State) (a1 : BitVec 16) (a2 : List Byte) :
    gvs (sendMgmt s a1 a2).groups = gvs s.groups := by
  simp [sendMgmt]

@[simp] theorem pushSb_gvs (s : State) (a1 : SbReply) :
    gvs (pushSb s a1).groups = gvs s.groups := by
  simp [pushSb]

@[simp] theorem sbReply_gvs (s : State) (a1 : BitVec 16) (a2 : FmFragment) :
    gvs (sbReply s a1 a2).groups = gvs s.groups := by
  simp [sbReply]

@[simp] theorem fmReplyTo_gvs (s : State) (a1 : Option (BitVec 16)) (a2 : BitVec 32) (a3 : List Byte) :
    gvs (fmReplyTo s a1 a2 a3).groups = gvs s.groups := by
  unfold fmReplyTo
  split <;> simp

@[simp] theorem finish_gvs (s : State) (a1 : Nat) (a2 : Reply) :
    gvs (finish s a1 a2).groups = gvs s.groups := by
  unfold finish
  dsimp only
  repeat' split
  all_goals simp

@[simp] theorem orphanWork_gvs (s : State) (a1 : Nat) :
    gvs (orphanWork s a1).groups = gvs s.groups := by
  simp [orphanWork]

@[simp] theorem spoilFar_gvs (s : State) (o ofs n : Nat) :
    gvs (spoilFar s o ofs n).groups = gvs s.groups := by
  simp [spoilFar]

@[simp] theorem leaveUndefined_gvs (s : State) (j : Job) :
    gvs (leaveUndefined s j).groups = gvs s.groups := by
  unfold leaveUndefined
  dsimp only
  repeat' split
  all_goals simp

@[simp] theorem endNow_gvs (s : State) (a1 : Nat) (a2 : Ans) :
    gvs (endNow s a1 a2).groups = gvs s.groups := by
  unfold endNow
  split <;> simp

@[simp] theorem abortLocked_gvs (s : State) (a1 : BitVec 16) (a2 : Nat) (a3 : Job → Bool) :
    gvs (abortLocked s a1 a2 a3).groups = gvs s.groups := by
  simp [abortLocked]

@[simp] theorem endEscape_gvs (s : State) (a1 : Ans) :
    gvs (endEscape s a1).groups = gvs s.groups := by
  unfold endEscape
  split <;> simp

@[simp] theorem endEscapeIf_gvs (s : State) (a1 : Job → Bool) (a2 : Ans) :
    gvs (endEscapeIf s a1 a2).groups = gvs s.groups := by
  unfold endEscapeIf
  split <;> simp

@[simp] theorem abortForEvent_gvs (s : State) (a1 : Nat) :
    gvs (abortForEvent s a1).groups = gvs s.groups := by
  simp [abortForEvent]

@[simp] theorem askTeardown_gvs (s : State) (a1 : Nat) (a2 : Nat) (a3 : Bool) :
    gvs (askTeardown s a1 a2 a3).groups = gvs s.groups := by
  simp [askTeardown]

@[simp] theorem goOutOfService_gvs (s : State) (a1 : Nat) :
    gvs (goOutOfService s a1).groups = gvs s.groups := by
  simp [goOutOfService]

@[simp] theorem dropCount_gvs (s : State) (a1 : Nat) (a2 : Nat) :
    gvs (dropCount s a1 a2).groups = gvs s.groups := by
  simp [dropCount]

@[simp] theorem substCell_gvs (s : State) (a1 : Nat) (a2 : Nat) :
    gvs (substCell s a1 a2).groups = gvs s.groups := by
  unfold substCell
  dsimp only
  repeat' split
  all_goals simp

@[simp] theorem losePc_gvs (s : State) (p l pc : Nat) :
    gvs (losePc s p l pc).groups = gvs s.groups := by
  simp [losePc]

@[simp] theorem substPc_gvs (s : State) (a1 : Nat) (a2 : Nat) (a3 : Bool) :
    gvs (substPc s a1 a2 a3).groups = gvs s.groups := by
  unfold substPc
  dsimp only
  repeat' split
  all_goals simp

@[simp] theorem releaseDue_gvs (s : State) (a1 : Nat) :
    gvs (releaseDue s a1).groups = gvs s.groups := by
  simp [releaseDue]

@[simp] theorem sendResponse_gvs (s : State) (a1 : Nat) (a2 : Msg) :
    gvs (sendResponse s a1 a2).groups = gvs s.groups := by
  simp [sendResponse]

@[simp] theorem respond_gvs (s : State) (a1 : Nat) (a2 : Msg) (a3 : Nat) (a4 : List Byte) (a5 : Option (BitVec 64)) :
    gvs (respond s a1 a2 a3 a4 a5).groups = gvs s.groups := by
  simp [respond]

@[simp] theorem countNack_gvs (s : State) (p code : Nat) :
    gvs (countNack s p code).groups = gvs s.groups := by
  simp [countNack]

@[simp] theorem respondCode_gvs (s : State) (a1 : Nat) (a2 : Msg) (a3 : Nat) :
    gvs (respondCode s a1 a2 a3).groups = gvs s.groups := by
  simp [respondCode]

@[simp] theorem answerWaiter_gvs (s : State) (a1 : Nat) (a2 : Waiter) (a3 : Nat) (a4 : BitVec 64) :
    gvs (answerWaiter s a1 a2 a3 a4).groups = gvs s.groups := by
  unfold answerWaiter
  split <;> simp

@[simp] theorem latchArrive_gvs (s : State) (a1 : Nat) (a2 : Nat) :
    gvs (latchArrive s a1 a2).groups = gvs s.groups := by
  simp [latchArrive]

@[simp] theorem arriveRef_gvs (s : State) (a1 : Group) (a2 : Nat) :
    gvs (arriveRef s a1 a2).groups = gvs s.groups := by
  unfold arriveRef
  split <;> simp

@[simp] theorem scrambleColl_gvs (s : State) (a1 : Group) (a2 : List Byte) (a3 : Nat) :
    gvs (scrambleColl s a1 a2 a3).groups = gvs s.groups := by
  simp [scrambleColl]

@[simp] theorem enterAbort_gvs (s : State) (a1 : AbortEntry) :
    gvs (enterAbort s a1).groups = gvs s.groups := by
  simp [enterAbort]

@[simp] theorem detectAbort_gvs (s : State) (a1 : BitVec 32) (a2 : Nat) (a3 : Nat) :
    gvs (detectAbort s a1 a2 a3).groups = gvs s.groups := by
  simp [detectAbort]

@[simp] theorem abortGroup_gvs (s : State) (a1 : Group) (a2 : Nat) (a3 : Nat) :
    gvs (abortGroup s a1 a2 a3).groups = gvs s.groups := by
  simp [abortGroup]

@[simp] theorem haltPane_gvs (s : State) (a1 : Nat) :
    gvs (haltPane s a1).groups = gvs s.groups := by
  simp [haltPane]

@[simp] theorem dropFwd_gvs (s : State) (lead : Nat) :
    gvs (dropFwd s lead).groups = gvs s.groups := by
  simp [dropFwd]

@[simp] theorem setCollStatus_gvs (s : State) (a1 : Nat) (a2 : AbortEntry) :
    gvs (setCollStatus s a1 a2).groups = gvs s.groups := by
  simp [setCollStatus]

@[simp] theorem recordAbort_gvs (s : State) (a1 : Nat) (a2 : AbortEntry) :
    gvs (recordAbort s a1 a2).groups = gvs s.groups := by
  simp [recordAbort]

@[simp] theorem drainLate_gvs (s : State) (a1 : Nat) (a2 : BitVec 32) (a3 : Nat) (a4 : Nat) :
    gvs (drainLate s a1 a2 a3 a4).groups = gvs s.groups := by
  simp [drainLate]

@[simp] theorem checkDrain_gvs (s : State) (a1 : Group) (a2 : Nat) :
    gvs (checkDrain s a1 a2).groups = gvs s.groups := by
  unfold checkDrain
  dsimp only
  repeat' split
  all_goals simp

@[simp] theorem beginDrain_gvs (s : State) (a1 : Group) (a2 : Nat) (a3 : List Byte) :
    gvs (beginDrain s a1 a2 a3).1.groups = gvs s.groups := by
  unfold beginDrain
  dsimp only
  repeat' split
  all_goals simp

@[simp] theorem countAbandoned_gvs (s : State) (a1 : Nat) :
    gvs (countAbandoned s a1).groups = gvs s.groups := by
  simp [countAbandoned]

@[simp] theorem stormBoundary_gvs (s : State) (a1 : Nat) (a2 : Nat) :
    gvs (stormBoundary s a1 a2).groups = gvs s.groups := by
  unfold stormBoundary
  dsimp only
  repeat' split
  all_goals simp

@[simp] theorem recordSkip_gvs (s : State) (a1 : Group) (a2 : Nat) :
    gvs (recordSkip s a1 a2).groups = gvs s.groups := by
  simp [recordSkip]

@[simp] theorem done_gvs (s : State) :
    gvs (done s).1.groups = gvs s.groups := by
  simp [done]

/-! ### What the panes count and show -/

/-- What a pane's controller counts and shows of its runs and its context. -/
def paneKey (x : Pane) : PaneRegs × CollStatus × BitVec 32 × BitVec 16 := (x.regs, x.coll, x.jobTag, x.epoch)

/-- The panes by what they count and show. -/
def pks (t : Tbl Pane) (p : Nat) : PaneRegs × CollStatus × BitVec 32 × BitVec 16 := paneKey (tblGet Pane.reset t p)

@[simp] theorem pks_ite (c : Prop) [Decidable c] (a b : Tbl Pane) :
    pks (if c then a else b) = if c then pks a else pks b := apply_ite pks c a b

theorem paneKey_of_keeps {f : Pane → Pane}
    (hf : ∀ x, (f x).regs = x.regs ∧ (f x).coll = x.coll ∧ (f x).jobTag = x.jobTag ∧ (f x).epoch = x.epoch) (x : Pane) : paneKey (f x) = paneKey x := by
  obtain ⟨h1, h2, h3, h4⟩ := hf x
  rw [paneKey, h1, h2, h3, h4]
  rfl

@[simp] theorem pks_modPane (s : State) (p : Nat) (f : Pane → Pane)
    (hf : ∀ x, (f x).regs = x.regs ∧ (f x).coll = x.coll ∧ (f x).jobTag = x.jobTag ∧ (f x).epoch = x.epoch) :
    pks (modPane s p f).panes = pks s.panes := by
  funext q
  show paneKey (pane (modPane s p f) q) = _
  rw [pane_modPane]
  split
  next h => rw [paneKey_of_keeps hf, h]; rfl
  next => rfl

@[simp] theorem pks_setPane (s : State) (p : Nat) (v : Pane) (hv : v.regs = (pane s p).regs ∧ v.coll = (pane s p).coll ∧
    v.jobTag = (pane s p).jobTag ∧ v.epoch = (pane s p).epoch) :
    pks (setPane s p v).panes = pks s.panes := by
  funext q
  show paneKey (tblGet Pane.reset (tblSet s.panes p v) q) = _
  rw [tblGet_tblSet]
  split
  next h =>
    obtain ⟨h1, h2, h3, h4⟩ := hv
    rw [paneKey, h1, h2, h3, h4, h]
    rfl
  next => rfl

@[simp] theorem modNear_pks (s : State) (p : Nat) (f : NearTier → NearTier) :
    pks (modNear s p f).panes = pks s.panes := pks_modPane _ _ _ fun _ => ⟨rfl, rfl, rfl, rfl⟩

@[simp] theorem modRmo_pks (s : State) (p : Nat) (f : RmoUnit → RmoUnit) :
    pks (modRmo s p f).panes = pks s.panes := pks_modPane _ _ _ fun _ => ⟨rfl, rfl, rfl, rfl⟩

@[simp] theorem askTeardown_pks (s : State) (a1 a2 : Nat) (a3 : Bool) :
    pks (askTeardown s a1 a2 a3).panes = pks s.panes :=
  pks_modPane _ _ _ fun x => by
    split
    · exact ⟨rfl, rfl, rfl, rfl⟩
    · exact ⟨rfl, rfl, rfl, rfl⟩

@[simp] theorem setPhysCell_pks (s : State) (p : Nat) (c : Nat) (v : Cell) :
    pks (setPhysCell s p c v).panes = pks s.panes := by rfl

@[simp] theorem setCell_pks (s : State) (p : Nat) (l : Nat) (v : Cell) :
    pks (setCell s p l v).panes = pks s.panes := by rfl

@[simp] theorem modCell_pks (s : State) (p : Nat) (l : Nat) (f : Cell → Cell) :
    pks (modCell s p l f).panes = pks s.panes := by rfl

@[simp] theorem modGroup_pks (s : State) (lead : Nat) (f : Group → Group) :
    pks (modGroup s lead f).panes = pks s.panes := by rfl

@[simp] theorem modRun_pks (s : State) (lead : Nat) (f : Run → Run) :
    pks (modRun s lead f).panes = pks s.panes := by rfl

@[simp] theorem tookFree_pks (s : State) :
    pks (tookFree s).panes = pks s.panes := by rfl

@[simp] theorem modTraf_pks (s : State) (p : Nat) (f : PortTraffic → PortTraffic) :
    pks (modTraf s p f).panes = pks s.panes := by rfl

@[simp] theorem modMbx_pks (s : State) (r : Nat) (f : Mailbox → Mailbox) :
    pks (modMbx s r f).panes = pks s.panes := by rfl

@[simp] theorem modLatch_pks (s : State) (i : Nat) (f : Latch → Latch) :
    pks (modLatch s i f).panes = pks s.panes := by rfl

@[simp] theorem modStore_pks (s : State) (f : StoreUnit → StoreUnit) :
    pks (modStore s f).panes = pks s.panes := by rfl

@[simp] theorem setMsixByte_pks (s : State) (fn : Nat) (o : Nat) (b : Byte) :
    pks (setMsixByte s fn o b).panes = pks s.panes := by rfl

@[simp] theorem foldl_pks {α : Type} (f : State → α → State) (hf : ∀ s a, pks (f s a).panes = pks s.panes) (l : List α)
    (s : State) : pks (l.foldl f s).panes = pks s.panes := by
  induction l generalizing s with
  | nil => rfl
  | cons a l ih => rw [List.foldl_cons, ih, hf]

@[simp] theorem ite_pks (c : Prop) [Decidable c] (a b : State) : pks (if c then a else b).panes = if c then pks a.panes else pks b.panes := by
  split <;> rfl

@[simp] theorem modCells_pks (s : State) (a1 : Nat) (a2 : Cell → Cell) :
    pks (modCells s a1 a2).panes = pks s.panes := by
  simp [modCells]

@[simp] theorem scramble_pks (s : State) (a1 : Nat) (a2 : Nat) (a3 : Nat) :
    pks (scramble s a1 a2 a3).panes = pks s.panes := by
  simp [scramble]

@[simp] theorem deliver_pks (s : State) (a1 : Event) :
    pks (deliver s a1).panes = pks s.panes := by
  simp [deliver]

@[simp] theorem record_pks (s : State) (a1 : Nat) (a2 : Nat) (a3 : Nat) (a4 : List Byte) :
    pks (record s a1 a2 a3 a4).panes = pks s.panes := by
  simp [record]

@[simp] theorem msix_pks (s : State) (a1 : Nat) (a2 : Nat) :
    pks (msix s a1 a2).panes = pks s.panes := by
  simp [msix]

@[simp] theorem queueParcel_pks (s : State) (p : Parcel) :
    pks (queueParcel s p).panes = pks s.panes := by
  unfold queueParcel
  split <;> simp

@[simp] theorem sendParcel_pks (s : State) (a1 : Parcel) :
    pks (sendParcel s a1).panes = pks s.panes := by
  unfold sendParcel
  split <;> simp

@[simp] theorem sendMgmt_pks (s : State) (a1 : BitVec 16) (a2 : List Byte) :
    pks (sendMgmt s a1 a2).panes = pks s.panes := by
  simp [sendMgmt]

@[simp] theorem pushSb_pks (s : State) (a1 : SbReply) :
    pks (pushSb s a1).panes = pks s.panes := by
  simp [pushSb]

@[simp] theorem sbReply_pks (s : State) (a1 : BitVec 16) (a2 : FmFragment) :
    pks (sbReply s a1 a2).panes = pks s.panes := by
  simp [sbReply]

@[simp] theorem fmReplyTo_pks (s : State) (a1 : Option (BitVec 16)) (a2 : BitVec 32) (a3 : List Byte) :
    pks (fmReplyTo s a1 a2 a3).panes = pks s.panes := by
  unfold fmReplyTo
  split <;> simp

@[simp] theorem finish_pks (s : State) (a1 : Nat) (a2 : Reply) :
    pks (finish s a1 a2).panes = pks s.panes := by
  unfold finish
  dsimp only
  repeat' split
  all_goals simp

@[simp] theorem orphanWork_pks (s : State) (a1 : Nat) :
    pks (orphanWork s a1).panes = pks s.panes := by
  simp [orphanWork]

@[simp] theorem spoilFar_pks (s : State) (o ofs n : Nat) :
    pks (spoilFar s o ofs n).panes = pks s.panes := by
  simp [spoilFar]

@[simp] theorem leaveUndefined_pks (s : State) (j : Job) :
    pks (leaveUndefined s j).panes = pks s.panes := by
  unfold leaveUndefined
  dsimp only
  repeat' split
  all_goals simp

@[simp] theorem endNow_pks (s : State) (a1 : Nat) (a2 : Ans) :
    pks (endNow s a1 a2).panes = pks s.panes := by
  unfold endNow
  split <;> simp

@[simp] theorem abortLocked_pks (s : State) (a1 : BitVec 16) (a2 : Nat) (a3 : Job → Bool) :
    pks (abortLocked s a1 a2 a3).panes = pks s.panes := by
  simp [abortLocked]

@[simp] theorem endEscape_pks (s : State) (a1 : Ans) :
    pks (endEscape s a1).panes = pks s.panes := by
  unfold endEscape
  split <;> simp

@[simp] theorem endEscapeIf_pks (s : State) (a1 : Job → Bool) (a2 : Ans) :
    pks (endEscapeIf s a1 a2).panes = pks s.panes := by
  unfold endEscapeIf
  split <;> simp

@[simp] theorem abortForEvent_pks (s : State) (a1 : Nat) :
    pks (abortForEvent s a1).panes = pks s.panes := by
  simp [abortForEvent]

@[simp] theorem goOutOfService_pks (s : State) (a1 : Nat) :
    pks (goOutOfService s a1).panes = pks s.panes := by
  simp [goOutOfService]

@[simp] theorem dropCount_pks (s : State) (a1 : Nat) (a2 : Nat) :
    pks (dropCount s a1 a2).panes = pks s.panes := by
  simp [dropCount]

@[simp] theorem substCell_pks (s : State) (a1 : Nat) (a2 : Nat) :
    pks (substCell s a1 a2).panes = pks s.panes := by
  unfold substCell
  dsimp only
  repeat' split
  all_goals simp

@[simp] theorem losePc_pks (s : State) (p l pc : Nat) :
    pks (losePc s p l pc).panes = pks s.panes := by
  simp [losePc]

@[simp] theorem substPc_pks (s : State) (a1 : Nat) (a2 : Nat) (a3 : Bool) :
    pks (substPc s a1 a2 a3).panes = pks s.panes := by
  unfold substPc
  dsimp only
  repeat' split
  all_goals simp

@[simp] theorem releaseDue_pks (s : State) (a1 : Nat) :
    pks (releaseDue s a1).panes = pks s.panes := by
  simp [releaseDue]

@[simp] theorem sendResponse_pks (s : State) (a1 : Nat) (a2 : Msg) :
    pks (sendResponse s a1 a2).panes = pks s.panes := by
  simp [sendResponse]

@[simp] theorem respond_pks (s : State) (a1 : Nat) (a2 : Msg) (a3 : Nat) (a4 : List Byte) (a5 : Option (BitVec 64)) :
    pks (respond s a1 a2 a3 a4 a5).panes = pks s.panes := by
  simp [respond]

@[simp] theorem countNack_pks (s : State) (p code : Nat) :
    pks (countNack s p code).panes = pks s.panes := by
  simp [countNack]

@[simp] theorem respondCode_pks (s : State) (a1 : Nat) (a2 : Msg) (a3 : Nat) :
    pks (respondCode s a1 a2 a3).panes = pks s.panes := by
  simp [respondCode]

@[simp] theorem answerWaiter_pks (s : State) (a1 : Nat) (a2 : Waiter) (a3 : Nat) (a4 : BitVec 64) :
    pks (answerWaiter s a1 a2 a3 a4).panes = pks s.panes := by
  unfold answerWaiter
  split <;> simp

@[simp] theorem latchArrive_pks (s : State) (a1 : Nat) (a2 : Nat) :
    pks (latchArrive s a1 a2).panes = pks s.panes := by
  simp [latchArrive]

@[simp] theorem arriveRef_pks (s : State) (a1 : Group) (a2 : Nat) :
    pks (arriveRef s a1 a2).panes = pks s.panes := by
  unfold arriveRef
  split <;> simp

@[simp] theorem scrambleColl_pks (s : State) (a1 : Group) (a2 : List Byte) (a3 : Nat) :
    pks (scrambleColl s a1 a2 a3).panes = pks s.panes := by
  simp [scrambleColl]

@[simp] theorem enterAbort_pks (s : State) (a1 : AbortEntry) :
    pks (enterAbort s a1).panes = pks s.panes := by
  simp [enterAbort]

@[simp] theorem dueAbort_pks (s : State) (a1 : AbortEntry) :
    pks (dueAbort s a1).panes = pks s.panes := by
  simp [dueAbort]

@[simp] theorem detectAbort_pks (s : State) (a1 : BitVec 32) (a2 : Nat) (a3 : Nat) :
    pks (detectAbort s a1 a2 a3).panes = pks s.panes := by
  simp [detectAbort]

@[simp] theorem abortGroup_pks (s : State) (a1 : Group) (a2 : Nat) (a3 : Nat) :
    pks (abortGroup s a1 a2 a3).panes = pks s.panes := by
  simp [abortGroup]

@[simp] theorem haltPane_pks (s : State) (a1 : Nat) :
    pks (haltPane s a1).panes = pks s.panes := by
  simp [haltPane]

@[simp] theorem dropFwd_pks (s : State) (lead : Nat) :
    pks (dropFwd s lead).panes = pks s.panes := by
  simp [dropFwd]

@[simp] theorem stopColls_pks (s : State) (a1 : Group) :
    pks (stopColls s a1).panes = pks s.panes := by
  unfold stopColls
  split <;> simp

@[simp] theorem recordAbort_pks (s : State) (a1 : Nat) (a2 : AbortEntry) :
    pks (recordAbort s a1 a2).panes = pks s.panes := by
  simp [recordAbort]

@[simp] theorem drainLate_pks (s : State) (a1 : Nat) (a2 : BitVec 32) (a3 : Nat) (a4 : Nat) :
    pks (drainLate s a1 a2 a3 a4).panes = pks s.panes := by
  simp [drainLate]

@[simp] theorem checkDrain_pks (s : State) (a1 : Group) (a2 : Nat) :
    pks (checkDrain s a1 a2).panes = pks s.panes := by
  unfold checkDrain
  dsimp only
  repeat' split
  all_goals simp

@[simp] theorem beginDrain_pks (s : State) (a1 : Group) (a2 : Nat) (a3 : List Byte) :
    pks (beginDrain s a1 a2 a3).1.panes = pks s.panes := by
  unfold beginDrain
  dsimp only
  repeat' split
  all_goals simp

@[simp] theorem countAbandoned_pks (s : State) (a1 : Nat) :
    pks (countAbandoned s a1).panes = pks s.panes := by
  simp [countAbandoned]

@[simp] theorem stormBoundary_pks (s : State) (a1 : Nat) (a2 : Nat) :
    pks (stormBoundary s a1 a2).panes = pks s.panes := by
  unfold stormBoundary
  dsimp only
  repeat' split
  all_goals simp

@[simp] theorem recordSkip_pks (s : State) (a1 : Group) (a2 : Nat) :
    pks (recordSkip s a1 a2).panes = pks s.panes := by
  simp [recordSkip]

@[simp] theorem done_pks (s : State) :
    pks (done s).1.panes = pks s.panes := by
  simp [done]

/-! ### `cells` -/

@[simp] theorem foldl_cells {α : Type} (f : State → α → State) (hf : ∀ s a, (f s a).cells = s.cells) (l : List α)
    (s : State) : (l.foldl f s).cells = s.cells := by
  induction l generalizing s with
  | nil => rfl
  | cons a l ih => rw [List.foldl_cons, ih, hf]

@[simp] theorem ite_cells (c : Prop) [Decidable c] (a b : State) : (if c then a else b).cells = if c then a.cells else b.cells := by
  split <;> rfl

@[simp] theorem deliver_cells (s : State) (a1 : Event) :
    (deliver s a1).cells = s.cells := by
  simp [deliver]

@[simp] theorem record_cells (s : State) (a1 : Nat) (a2 : Nat) (a3 : Nat) (a4 : List Byte) :
    (record s a1 a2 a3 a4).cells = s.cells := by
  simp [record]

@[simp] theorem msix_cells (s : State) (a1 : Nat) (a2 : Nat) :
    (msix s a1 a2).cells = s.cells := by
  simp [msix]

@[simp] theorem queueNotice_cells (s : State) (a1 : Nat) (a2 : Nat) (a3 : BitVec 32) (a4 : BitVec 16) (a5 : Nat) (a6 : Nat) (a7 : Nat) :
    (queueNotice s a1 a2 a3 a4 a5 a6 a7).cells = s.cells := by
  simp [queueNotice]

@[simp] theorem enterAbort_cells (s : State) (a1 : AbortEntry) :
    (enterAbort s a1).cells = s.cells := by
  simp [enterAbort]

@[simp] theorem dueAbort_cells (s : State) (a1 : AbortEntry) :
    (dueAbort s a1).cells = s.cells := by
  simp [dueAbort]

@[simp] theorem detectAbort_cells (s : State) (a1 : BitVec 32) (a2 : Nat) (a3 : Nat) :
    (detectAbort s a1 a2 a3).cells = s.cells := by
  simp [detectAbort]

@[simp] theorem abortGroup_cells (s : State) (a1 : Group) (a2 : Nat) (a3 : Nat) :
    (abortGroup s a1 a2 a3).cells = s.cells := by
  simp [abortGroup]

@[simp] theorem drainLate_cells (s : State) (a1 : Nat) (a2 : BitVec 32) (a3 : Nat) (a4 : Nat) :
    (drainLate s a1 a2 a3 a4).cells = s.cells := by
  simp [drainLate]

@[simp] theorem checkDrain_cells (s : State) (a1 : Group) (a2 : Nat) :
    (checkDrain s a1 a2).cells = s.cells := by
  unfold checkDrain
  dsimp only
  repeat' split
  all_goals simp

@[simp] theorem beginDrain_cells (s : State) (a1 : Group) (a2 : Nat) (a3 : List Byte) :
    (beginDrain s a1 a2 a3).1.cells = s.cells := by
  unfold beginDrain
  dsimp only
  repeat' split
  all_goals simp

@[simp] theorem countAbandoned_cells (s : State) (a1 : Nat) :
    (countAbandoned s a1).cells = s.cells := by
  simp [countAbandoned]

@[simp] theorem stormBoundary_cells (s : State) (a1 : Nat) (a2 : Nat) :
    (stormBoundary s a1 a2).cells = s.cells := by
  unfold stormBoundary
  dsimp only
  repeat' split
  all_goals simp

@[simp] theorem resetDone_cells (s : State) (a1 : Nat) (a2 : Nat) (a3 : Nat) (a4 : BitVec 32) (a5 : BitVec 16) (a6 : Nat) :
    (resetDone s a1 a2 a3 a4 a5 a6).cells = s.cells := by
  simp [resetDone]

/-! ### `panes` -/

@[simp] theorem foldl_panes {α : Type} (f : State → α → State) (hf : ∀ s a, (f s a).panes = s.panes) (l : List α)
    (s : State) : (l.foldl f s).panes = s.panes := by
  induction l generalizing s with
  | nil => rfl
  | cons a l ih => rw [List.foldl_cons, ih, hf]

@[simp] theorem ite_panes (c : Prop) [Decidable c] (a b : State) : (if c then a else b).panes = if c then a.panes else b.panes := by
  split <;> rfl

@[simp] theorem deliver_panes (s : State) (a1 : Event) :
    (deliver s a1).panes = s.panes := by
  simp [deliver]

@[simp] theorem record_panes (s : State) (a1 : Nat) (a2 : Nat) (a3 : Nat) (a4 : List Byte) :
    (record s a1 a2 a3 a4).panes = s.panes := by
  simp [record]

@[simp] theorem msix_panes (s : State) (a1 : Nat) (a2 : Nat) :
    (msix s a1 a2).panes = s.panes := by
  simp [msix]

@[simp] theorem queueNotice_panes (s : State) (a1 : Nat) (a2 : Nat) (a3 : BitVec 32) (a4 : BitVec 16) (a5 : Nat) (a6 : Nat) (a7 : Nat) :
    (queueNotice s a1 a2 a3 a4 a5 a6 a7).panes = s.panes := by
  simp [queueNotice]

@[simp] theorem modMeter_panes (s : State) (a1 : Nat) (a2 : Meter → Meter) :
    (modMeter s a1 a2).panes = s.panes := by
  unfold modMeter
  dsimp only
  repeat' split
  all_goals simp

@[simp] theorem meterRefusal_panes (s : State) (a1 : Nat) :
    (meterRefusal s a1).panes = s.panes := by
  simp [meterRefusal]

@[simp] theorem meterTorus_panes (s : State) (a1 : Nat) (a2 : Nat) :
    (meterTorus s a1 a2).panes = s.panes := by
  simp [meterTorus]

@[simp] theorem meterEth_panes (s : State) (a1 : Nat) (a2 : Nat) :
    (meterEth s a1 a2).panes = s.panes := by
  simp [meterEth]

@[simp] theorem queueParcel_panes (s : State) (p : Parcel) :
    (queueParcel s p).panes = s.panes := by
  unfold queueParcel
  split <;> simp

@[simp] theorem orphanWork_panes (s : State) (a1 : Nat) :
    (orphanWork s a1).panes = s.panes := by
  simp [orphanWork]

@[simp] theorem decideJob_panes (s : State) (a1 : Nat) (a2 : Ans) :
    (decideJob s a1 a2).panes = s.panes := by
  simp [decideJob]

@[simp] theorem chargeRefusal_panes (s : State) (a1 : Nat) :
    (chargeRefusal s a1).panes = s.panes := by
  simp [chargeRefusal]

@[simp] theorem warnGroups_panes (s : State) (a1 : Nat) (a2 : Nat) :
    (warnGroups s a1 a2).panes = s.panes := by
  simp [warnGroups]

@[simp] theorem raiseWarning_panes (s : State) (a1 : Nat) (a2 : Nat) :
    (raiseWarning s a1 a2).panes = s.panes := by
  simp [raiseWarning]

@[simp] theorem noteDeclared_panes (s : State) (a1 : Nat) (a2 : Nat) :
    (noteDeclared s a1 a2).panes = s.panes := by
  simp [noteDeclared]

@[simp] theorem tellDeclared_panes (s : State) (a1 : Nat) (a2 : Nat) :
    (tellDeclared s a1 a2).panes = s.panes := by
  simp [tellDeclared]

@[simp] theorem declareFaulty_panes (s : State) (a1 : Nat) (a2 : Nat) :
    (declareFaulty s a1 a2).panes = s.panes := by
  simp [declareFaulty]

@[simp] theorem countError_panes (s : State) (a1 : Nat) (a2 : Nat) (a3 : Nat) :
    (countError s a1 a2 a3).1.panes = s.panes := by
  unfold countError
  dsimp only
  repeat' split
  all_goals simp

@[simp] theorem enterAbort_panes (s : State) (a1 : AbortEntry) :
    (enterAbort s a1).panes = s.panes := by
  simp [enterAbort]

@[simp] theorem dueAbort_panes (s : State) (a1 : AbortEntry) :
    (dueAbort s a1).panes = s.panes := by
  simp [dueAbort]

@[simp] theorem detectAbort_panes (s : State) (a1 : BitVec 32) (a2 : Nat) (a3 : Nat) :
    (detectAbort s a1 a2 a3).panes = s.panes := by
  simp [detectAbort]

@[simp] theorem abortGroup_panes (s : State) (a1 : Group) (a2 : Nat) (a3 : Nat) :
    (abortGroup s a1 a2 a3).panes = s.panes := by
  simp [abortGroup]

@[simp] theorem appendRec_panes (s : State) (r : JRec) :
    (appendRec s r).panes = s.panes := by
  simp [appendRec]

@[simp] theorem checkpoint_panes (s : State) :
    (checkpoint s).panes = s.panes := by
  simp [checkpoint]

@[simp] theorem checkpointIfDue_panes (s : State) :
    (checkpointIfDue s).panes = s.panes := by
  simp [checkpointIfDue]

@[simp] theorem journal_panes (s : State) (a1 : Nat) (a2 : Nat) (a3 : BitVec 32) (a4 : Nat) (a5 : Nat) (a6 : BitVec 32) (a7 : BitVec 32) (a8 : BitVec 32) :
    (journal s a1 a2 a3 a4 a5 a6 a7 a8).panes = s.panes := by
  simp [journal]

@[simp] theorem journalBlk_panes (s : State) (a1 : Nat) (a2 : Nat) (a3 : Nat) :
    (journalBlk s a1 a2 a3).panes = s.panes := by
  simp [journalBlk]

@[simp] theorem openBlk_panes (s : State) (a1 : Nat) (a2 : Nat) (a3 : BlockState) :
    (openBlk s a1 a2 a3).panes = s.panes := by
  simp [openBlk]

@[simp] theorem takeUnit_panes (s : State) (a1 : Nat) (a2 : Nat) :
    (takeUnit s a1 a2).1.panes = s.panes := by
  simp [takeUnit]

theorem placeUnit_panes (s : State) (ch : Nat) (st : BlockState) (r : State × BitVec 32)
    (e : placeUnit s ch st = some r) : r.1.panes = s.panes := by
  unfold placeUnit at e
  split at e
  · obtain rfl := Option.some.inj e
    simp
  · simp only [Option.map_eq_some_iff] at e
    obtain ⟨k, -, rfl⟩ := e
    simp

@[simp] theorem countBlkRead_panes (s : State) (k : Nat) :
    (countBlkRead s k).panes = s.panes := by
  simp [countBlkRead]

@[simp] theorem countRead_panes (s : State) (a1 : Nat) (a2 : Nat) :
    (countRead s a1 a2).panes = s.panes := by
  unfold countRead
  split <;> simp

@[simp] theorem addProg_panes (s : State) (g : FarProg) : (addProg s g).panes = s.panes := by
  unfold addProg
  split
  · rename_i h
    simpa using placeUnit_panes _ _ _ _ h
  · simp

@[simp] theorem progUnit_panes (s : State) (a1 : Nat) (a2 : Nat) (a3 : Nat) (a4 : List Byte) (a5 : Nat) :
    (progUnit s a1 a2 a3 a4 a5).panes = s.panes := by
  unfold progUnit
  dsimp only
  split
  · rename_i h
    simpa using placeUnit_panes _ _ _ _ h
  · simp

@[simp] theorem farWrite_panes (s : State) (a1 : Nat) (a2 : Nat) (a3 : List Byte) (a4 : FarSink) :
    (farWrite s a1 a2 a3 a4).panes = s.panes := by
  simp [farWrite]

@[simp] theorem meterEvent_panes (s : State) (a1 : Nat) (a2 : Nat) :
    (meterEvent s a1 a2).panes = s.panes := by
  simp [meterEvent]

@[simp] theorem storeRec_panes (s : State) (a1 : MeterRec) :
    (storeRec s a1).panes = s.panes := by
  simp [storeRec]

@[simp] theorem holdRec_panes (s : State) (a1 : MeterRec) :
    (holdRec s a1).panes = s.panes := by
  simp [holdRec]

@[simp] theorem writeRec_panes (s : State) (a1 : Nat) (a2 : Nat) (a3 : Nat) (a4 : Nat) (a5 : Nat) (a6 : List Byte) :
    (writeRec s a1 a2 a3 a4 a5 a6).panes = s.panes := by
  simp [writeRec]

@[simp] theorem keptRec_panes (s : State) (a1 : Nat) (a2 : Meter) (a3 : Nat) :
    (keptRec s a1 a2 a3).panes = s.panes := by
  simp [keptRec]

@[simp] theorem openOccupancy_panes (s : State) (a1 : Nat) :
    (openOccupancy s a1).panes = s.panes := by
  simp [openOccupancy]

@[simp] theorem closeKept_panes (s : State) (a1 : Nat) (a2 : Nat) :
    (closeKept s a1 a2).panes = s.panes := by
  unfold closeKept
  split <;> simp

@[simp] theorem sendStore_panes (s : State) (a1 : StoreTxn) (a2 : Nat) :
    (sendStore s a1 a2).panes = s.panes := by
  simp [sendStore]

@[simp] theorem dropTxns_panes (s : State) (a1 : StoreOwner) :
    (dropTxns s a1).panes = s.panes := by
  simp [dropTxns]

@[simp] theorem openTxn_panes (s : State) (a1 : StoreOwner) (a2 : List Byte) (a3 : BitVec 16) (a4 : Nat) (a5 : Nat) :
    (openTxn s a1 a2 a3 a4 a5).panes = s.panes := by
  simp [openTxn]

@[simp] theorem drainLate_panes (s : State) (a1 : Nat) (a2 : BitVec 32) (a3 : Nat) (a4 : Nat) :
    (drainLate s a1 a2 a3 a4).panes = s.panes := by
  simp [drainLate]

@[simp] theorem checkDrain_panes (s : State) (a1 : Group) (a2 : Nat) :
    (checkDrain s a1 a2).panes = s.panes := by
  unfold checkDrain
  dsimp only
  repeat' split
  all_goals simp

@[simp] theorem beginDrain_panes (s : State) (a1 : Group) (a2 : Nat) (a3 : List Byte) :
    (beginDrain s a1 a2 a3).1.panes = s.panes := by
  unfold beginDrain
  dsimp only
  repeat' split
  all_goals simp

@[simp] theorem countAbandoned_panes (s : State) (a1 : Nat) :
    (countAbandoned s a1).panes = s.panes := by
  simp [countAbandoned]

@[simp] theorem stormBoundary_panes (s : State) (a1 : Nat) (a2 : Nat) :
    (stormBoundary s a1 a2).panes = s.panes := by
  unfold stormBoundary
  dsimp only
  repeat' split
  all_goals simp

@[simp] theorem stageDrain_panes (s : State) (a1 : Nat) (a2 : DrainRun) :
    (stageDrain s a1 a2).panes = s.panes := by
  simp [stageDrain]

@[simp] theorem suspendTest_panes (s : State) (a1 : Nat) :
    (suspendTest s a1).panes = s.panes := by
  simp [suspendTest]

@[simp] theorem suspendToBudget_panes (s : State) (n : Nat) : (suspendToBudget s n).panes = s.panes := by
  induction n generalizing s with
  | zero => rfl
  | succ n ih =>
    unfold suspendToBudget
    dsimp only
    (repeat' split) <;> simp [ih]

/-! ### `links` -/

@[simp] theorem foldl_links {α : Type} (f : State → α → State) (hf : ∀ s a, (f s a).links = s.links) (l : List α)
    (s : State) : (l.foldl f s).links = s.links := by
  induction l generalizing s with
  | nil => rfl
  | cons a l ih => rw [List.foldl_cons, ih, hf]

@[simp] theorem ite_links (c : Prop) [Decidable c] (a b : State) : (if c then a else b).links = if c then a.links else b.links := by
  split <;> rfl

@[simp] theorem deliver_links (s : State) (a1 : Event) :
    (deliver s a1).links = s.links := by
  simp [deliver]

@[simp] theorem record_links (s : State) (a1 : Nat) (a2 : Nat) (a3 : Nat) (a4 : List Byte) :
    (record s a1 a2 a3 a4).links = s.links := by
  simp [record]

@[simp] theorem msix_links (s : State) (a1 : Nat) (a2 : Nat) :
    (msix s a1 a2).links = s.links := by
  simp [msix]

@[simp] theorem queueNotice_links (s : State) (a1 : Nat) (a2 : Nat) (a3 : BitVec 32) (a4 : BitVec 16) (a5 : Nat) (a6 : Nat) (a7 : Nat) :
    (queueNotice s a1 a2 a3 a4 a5 a6 a7).links = s.links := by
  simp [queueNotice]

@[simp] theorem modMeter_links (s : State) (a1 : Nat) (a2 : Meter → Meter) :
    (modMeter s a1 a2).links = s.links := by
  unfold modMeter
  dsimp only
  repeat' split
  all_goals simp

@[simp] theorem meterTorus_links (s : State) (a1 : Nat) (a2 : Nat) :
    (meterTorus s a1 a2).links = s.links := by
  simp [meterTorus]

@[simp] theorem nearWrite_links (s : State) (a1 : Nat) (a2 : Nat) (a3 : List Byte) :
    (nearWrite s a1 a2 a3).links = s.links := by
  simp [nearWrite]

@[simp] theorem enterAbort_links (s : State) (a1 : AbortEntry) :
    (enterAbort s a1).links = s.links := by
  simp [enterAbort]

@[simp] theorem dueAbort_links (s : State) (a1 : AbortEntry) :
    (dueAbort s a1).links = s.links := by
  simp [dueAbort]

@[simp] theorem detectAbort_links (s : State) (a1 : BitVec 32) (a2 : Nat) (a3 : Nat) :
    (detectAbort s a1 a2 a3).links = s.links := by
  simp [detectAbort]

@[simp] theorem abortGroup_links (s : State) (a1 : Group) (a2 : Nat) (a3 : Nat) :
    (abortGroup s a1 a2 a3).links = s.links := by
  simp [abortGroup]

@[simp] theorem appendRec_links (s : State) (r : JRec) :
    (appendRec s r).links = s.links := by
  simp [appendRec]

@[simp] theorem checkpoint_links (s : State) :
    (checkpoint s).links = s.links := by
  simp [checkpoint]

@[simp] theorem checkpointIfDue_links (s : State) :
    (checkpointIfDue s).links = s.links := by
  simp [checkpointIfDue]

@[simp] theorem journal_links (s : State) (a1 : Nat) (a2 : Nat) (a3 : BitVec 32) (a4 : Nat) (a5 : Nat) (a6 : BitVec 32) (a7 : BitVec 32) (a8 : BitVec 32) :
    (journal s a1 a2 a3 a4 a5 a6 a7 a8).links = s.links := by
  simp [journal]

@[simp] theorem journalBlk_links (s : State) (a1 : Nat) (a2 : Nat) (a3 : Nat) :
    (journalBlk s a1 a2 a3).links = s.links := by
  simp [journalBlk]

@[simp] theorem openBlk_links (s : State) (a1 : Nat) (a2 : Nat) (a3 : BlockState) :
    (openBlk s a1 a2 a3).links = s.links := by
  simp [openBlk]

@[simp] theorem takeUnit_links (s : State) (a1 : Nat) (a2 : Nat) :
    (takeUnit s a1 a2).1.links = s.links := by
  simp [takeUnit]

theorem placeUnit_links (s : State) (ch : Nat) (st : BlockState) (r : State × BitVec 32)
    (e : placeUnit s ch st = some r) : r.1.links = s.links := by
  unfold placeUnit at e
  split at e
  · obtain rfl := Option.some.inj e
    simp
  · simp only [Option.map_eq_some_iff] at e
    obtain ⟨k, -, rfl⟩ := e
    simp

@[simp] theorem countBlkRead_links (s : State) (k : Nat) :
    (countBlkRead s k).links = s.links := by
  simp [countBlkRead]

@[simp] theorem countRead_links (s : State) (a1 : Nat) (a2 : Nat) :
    (countRead s a1 a2).links = s.links := by
  unfold countRead
  split <;> simp

@[simp] theorem addProg_links (s : State) (g : FarProg) : (addProg s g).links = s.links := by
  unfold addProg
  split
  · rename_i h
    simpa using placeUnit_links _ _ _ _ h
  · simp

@[simp] theorem progUnit_links (s : State) (a1 : Nat) (a2 : Nat) (a3 : Nat) (a4 : List Byte) (a5 : Nat) :
    (progUnit s a1 a2 a3 a4 a5).links = s.links := by
  unfold progUnit
  dsimp only
  split
  · rename_i h
    simpa using placeUnit_links _ _ _ _ h
  · simp

@[simp] theorem farWrite_links (s : State) (a1 : Nat) (a2 : Nat) (a3 : List Byte) (a4 : FarSink) :
    (farWrite s a1 a2 a3 a4).links = s.links := by
  simp [farWrite]

@[simp] theorem noteHeld_links (s : State) (a1 : Nat) (a2 : Option Nat) (a3 : List Byte) :
    (noteHeld s a1 a2 a3).links = s.links := by
  unfold noteHeld
  dsimp only
  repeat' split
  all_goals simp

@[simp] theorem writeFrame_links (s : State) (a1 : Option Nat) (a2 : List Byte) :
    (writeFrame s a1 a2).links = s.links := by
  simp [writeFrame]

@[simp] theorem countAbandoned_links (s : State) (a1 : Nat) :
    (countAbandoned s a1).links = s.links := by
  simp [countAbandoned]

@[simp] theorem abandonCopy_links (s : State) (a1 : Nat) (a2 : CopyRun) :
    (abandonCopy s a1 a2).links = s.links := by
  unfold abandonCopy
  split <;> simp

@[simp] theorem abandonFailed_links (s : State) :
    (abandonFailed s).links = s.links := by
  unfold abandonFailed
  refine foldl_links _ (fun s a => ?_) _ _
  (repeat' split) <;> simp

@[simp] theorem stageDrain_links (s : State) (a1 : Nat) (a2 : DrainRun) :
    (stageDrain s a1 a2).links = s.links := by
  simp [stageDrain]

@[simp] theorem abortUsers_links (s : State) (a1 : Nat) :
    (abortUsers s a1).links = s.links := by
  unfold abortUsers
  refine foldl_links _ (fun s a => ?_) _ _
  (repeat' split) <;> simp

@[simp] theorem portEvent_links (s : State) (a1 : Nat) (a2 : BitVec 4) (a3 : BitVec 4) (a4 : Nat) :
    (portEvent s a1 a2 a3 a4).links = s.links := by
  simp [portEvent]

@[simp] theorem resetDone_links (s : State) (a1 : Nat) (a2 : Nat) (a3 : Nat) (a4 : BitVec 32) (a5 : BitVec 16) (a6 : Nat) :
    (resetDone s a1 a2 a3 a4 a5 a6).links = s.links := by
  simp [resetDone]

/-! ### `tks` -/

/-- What a port sends under: its check-value mode and its place in the beat. -/
def tks (l : LinkUnit) (p : Nat) : Bool × Nat :=
  ((tblGet Port.reset l.ports p).cvMode, (tblGet PortTraffic.reset l.traffic p).txNext)

@[simp] theorem tks_ite (c : Prop) [Decidable c] (a b : LinkUnit) :
    tks (if c then a else b) = if c then tks a else tks b := apply_ite tks c a b

@[simp] theorem tks_modTraf (s : State) (p : Nat) (f : PortTraffic → PortTraffic)
    (hf : ∀ t, (f t).txNext = t.txNext) : tks (modTraf s p f).links = tks s.links := by
  funext q
  show (_, (tblGet PortTraffic.reset (tblSet s.links.traffic p _) q).txNext) = _
  rw [tblGet_tblSet]
  split
  next h => rw [hf, h]; rfl
  next => rfl

@[simp] theorem setPane_tks (s : State) (p : Nat) (v : Pane) :
    tks (setPane s p v).links = tks s.links := by rfl

@[simp] theorem modPane_tks (s : State) (p : Nat) (f : Pane → Pane) :
    tks (modPane s p f).links = tks s.links := by rfl

@[simp] theorem modGroup_tks (s : State) (lead : Nat) (f : Group → Group) :
    tks (modGroup s lead f).links = tks s.links := by rfl

@[simp] theorem modCv_tks (s : State) (u : Nat) (f : CvUnit → CvUnit) :
    tks (modCv s u f).links = tks s.links := by rfl

@[simp] theorem modRmo_tks (s : State) (p : Nat) (f : RmoUnit → RmoUnit) :
    tks (modRmo s p f).links = tks s.links := by rfl

@[simp] theorem foldl_tks {α : Type} (f : State → α → State) (hf : ∀ s a, tks (f s a).links = tks s.links) (l : List α)
    (s : State) : tks (l.foldl f s).links = tks s.links := by
  induction l generalizing s with
  | nil => rfl
  | cons a l ih => rw [List.foldl_cons, ih, hf]

@[simp] theorem ite_tks (c : Prop) [Decidable c] (a b : State) : tks (if c then a else b).links = if c then tks a.links else tks b.links := by
  split <;> rfl

@[simp] theorem modMeter_tks (s : State) (a1 : Nat) (a2 : Meter → Meter) :
    tks (modMeter s a1 a2).links = tks s.links := by
  unfold modMeter
  dsimp only
  repeat' split
  all_goals simp

@[simp] theorem meterTorus_tks (s : State) (a1 : Nat) (a2 : Nat) :
    tks (meterTorus s a1 a2).links = tks s.links := by
  simp [meterTorus]

theorem sealFrame_tks (s : State) (p : Nat) (h : SlotHdr) (d : List Byte) (r : State × List Byte)
    (e : sealFrame s p h d = some r) : tks r.1.links = tks s.links := by
  simp only [sealFrame, Option.map_eq_some_iff] at e
  obtain ⟨k, -, rfl⟩ := e
  simp

@[simp] theorem queueParcel_tks (s : State) (p : Parcel) :
    tks (queueParcel s p).links = tks s.links := by
  unfold queueParcel
  split <;> simp

@[simp] theorem enterAbort_tks (s : State) (a1 : AbortEntry) :
    tks (enterAbort s a1).links = tks s.links := by
  simp [enterAbort]

@[simp] theorem dueAbort_tks (s : State) (a1 : AbortEntry) :
    tks (dueAbort s a1).links = tks s.links := by
  simp [dueAbort]

@[simp] theorem detectAbort_tks (s : State) (a1 : BitVec 32) (a2 : Nat) (a3 : Nat) :
    tks (detectAbort s a1 a2 a3).links = tks s.links := by
  simp [detectAbort]

@[simp] theorem abortGroup_tks (s : State) (a1 : Group) (a2 : Nat) (a3 : Nat) :
    tks (abortGroup s a1 a2 a3).links = tks s.links := by
  simp [abortGroup]

@[simp] theorem cvSlot_tks (s : State) (a1 : Nat) (a2 : Bool) (a3 : Group) (a4 : List Byte) (a5 : SlotRun) (a6 : Nat) (a7 : Nat) (a8 : BitVec 64) (a9 : List Byte) :
    tks (cvSlot s a1 a2 a3 a4 a5 a6 a7 a8 a9).links = tks s.links := by
  unfold cvSlot
  dsimp only
  split_ifs <;> simp

@[simp] theorem freeSlots_tks (s : State) (a1 : Nat) (a2 : List Parcel) :
    tks (freeSlots s a1 a2).links = tks s.links := by
  simp [freeSlots]

@[simp] theorem fillBulk_tks (s : State) (via : Nat) :
    tks (fillBulk s via).links = tks s.links := by
  simp [fillBulk]

@[simp] theorem takeLoad_tks (s : State) (a1 : Nat) (a2 : Nat) (a3 : Nat) :
    tks (takeLoad s a1 a2 a3).1.links = tks s.links := by
  unfold takeLoad
  dsimp only
  repeat' split
  all_goals simp

@[simp] theorem noteCommit_tks (s : State) (a1 : Nat) (a2 : List Byte) :
    tks (noteCommit s a1 a2).links = tks s.links := by
  simp [noteCommit]

/-! ### `power` -/

@[simp] theorem foldl_power {α : Type} (f : State → α → State) (hf : ∀ s a, (f s a).power = s.power) (l : List α)
    (s : State) : (l.foldl f s).power = s.power := by
  induction l generalizing s with
  | nil => rfl
  | cons a l ih => rw [List.foldl_cons, ih, hf]

@[simp] theorem ite_power (c : Prop) [Decidable c] (a b : State) : (if c then a else b).power = if c then a.power else b.power := by
  split <;> rfl

@[simp] theorem scramble_power (s : State) (a1 : Nat) (a2 : Nat) (a3 : Nat) :
    (scramble s a1 a2 a3).power = s.power := by
  simp [scramble]

@[simp] theorem deliver_power (s : State) (a1 : Event) :
    (deliver s a1).power = s.power := by
  simp [deliver]

@[simp] theorem record_power (s : State) (a1 : Nat) (a2 : Nat) (a3 : Nat) (a4 : List Byte) :
    (record s a1 a2 a3 a4).power = s.power := by
  simp [record]

@[simp] theorem msix_power (s : State) (a1 : Nat) (a2 : Nat) :
    (msix s a1 a2).power = s.power := by
  simp [msix]

@[simp] theorem queueNotice_power (s : State) (a1 : Nat) (a2 : Nat) (a3 : BitVec 32) (a4 : BitVec 16) (a5 : Nat) (a6 : Nat) (a7 : Nat) :
    (queueNotice s a1 a2 a3 a4 a5 a6 a7).power = s.power := by
  simp [queueNotice]

@[simp] theorem modMeter_power (s : State) (a1 : Nat) (a2 : Meter → Meter) :
    (modMeter s a1 a2).power = s.power := by
  unfold modMeter
  dsimp only
  repeat' split
  all_goals simp

@[simp] theorem meterTorus_power (s : State) (a1 : Nat) (a2 : Nat) :
    (meterTorus s a1 a2).power = s.power := by
  simp [meterTorus]

theorem sealFrame_power (s : State) (p : Nat) (h : SlotHdr) (d : List Byte) (r : State × List Byte)
    (e : sealFrame s p h d = some r) : r.1.power = s.power := by
  simp only [sealFrame, Option.map_eq_some_iff] at e
  obtain ⟨k, -, rfl⟩ := e
  simp

@[simp] theorem queueParcel_power (s : State) (p : Parcel) :
    (queueParcel s p).power = s.power := by
  unfold queueParcel
  split <;> simp

@[simp] theorem sendParcel_power (s : State) (a1 : Parcel) :
    (sendParcel s a1).power = s.power := by
  unfold sendParcel
  split <;> simp

@[simp] theorem sendMgmt_power (s : State) (a1 : BitVec 16) (a2 : List Byte) :
    (sendMgmt s a1 a2).power = s.power := by
  simp [sendMgmt]

@[simp] theorem pushSb_power (s : State) (a1 : SbReply) :
    (pushSb s a1).power = s.power := by
  simp [pushSb]

@[simp] theorem sbReply_power (s : State) (a1 : BitVec 16) (a2 : FmFragment) :
    (sbReply s a1 a2).power = s.power := by
  simp [sbReply]

@[simp] theorem fmReplyTo_power (s : State) (a1 : Option (BitVec 16)) (a2 : BitVec 32) (a3 : List Byte) :
    (fmReplyTo s a1 a2 a3).power = s.power := by
  unfold fmReplyTo
  split <;> simp

@[simp] theorem finish_power (s : State) (a1 : Nat) (a2 : Reply) :
    (finish s a1 a2).power = s.power := by
  unfold finish
  dsimp only
  repeat' split
  all_goals simp

@[simp] theorem orphanWork_power (s : State) (a1 : Nat) :
    (orphanWork s a1).power = s.power := by
  simp [orphanWork]

@[simp] theorem spoilFar_power (s : State) (o ofs n : Nat) :
    (spoilFar s o ofs n).power = s.power := by
  simp [spoilFar]

@[simp] theorem leaveUndefined_power (s : State) (j : Job) :
    (leaveUndefined s j).power = s.power := by
  unfold leaveUndefined
  dsimp only
  repeat' split
  all_goals simp

@[simp] theorem endNow_power (s : State) (a1 : Nat) (a2 : Ans) :
    (endNow s a1 a2).power = s.power := by
  unfold endNow
  split <;> simp

@[simp] theorem abortLocked_power (s : State) (a1 : BitVec 16) (a2 : Nat) (a3 : Job → Bool) :
    (abortLocked s a1 a2 a3).power = s.power := by
  simp [abortLocked]

@[simp] theorem endEscape_power (s : State) (a1 : Ans) :
    (endEscape s a1).power = s.power := by
  unfold endEscape
  split <;> simp

@[simp] theorem endEscapeIf_power (s : State) (a1 : Job → Bool) (a2 : Ans) :
    (endEscapeIf s a1 a2).power = s.power := by
  unfold endEscapeIf
  split <;> simp

@[simp] theorem abortForEvent_power (s : State) (a1 : Nat) :
    (abortForEvent s a1).power = s.power := by
  simp [abortForEvent]

@[simp] theorem askTeardown_power (s : State) (a1 : Nat) (a2 : Nat) (a3 : Bool) :
    (askTeardown s a1 a2 a3).power = s.power := by
  simp [askTeardown]

@[simp] theorem nearWrite_power (s : State) (a1 : Nat) (a2 : Nat) (a3 : List Byte) :
    (nearWrite s a1 a2 a3).power = s.power := by
  simp [nearWrite]

@[simp] theorem goOutOfService_power (s : State) (a1 : Nat) :
    (goOutOfService s a1).power = s.power := by
  simp [goOutOfService]

@[simp] theorem dropCount_power (s : State) (a1 : Nat) (a2 : Nat) :
    (dropCount s a1 a2).power = s.power := by
  simp [dropCount]

@[simp] theorem substCell_power (s : State) (a1 : Nat) (a2 : Nat) :
    (substCell s a1 a2).power = s.power := by
  unfold substCell
  dsimp only
  repeat' split
  all_goals simp

@[simp] theorem losePc_power (s : State) (p l pc : Nat) :
    (losePc s p l pc).power = s.power := by
  simp [losePc]

@[simp] theorem substPc_power (s : State) (a1 : Nat) (a2 : Nat) (a3 : Bool) :
    (substPc s a1 a2 a3).power = s.power := by
  unfold substPc
  dsimp only
  repeat' split
  all_goals simp

@[simp] theorem releaseDue_power (s : State) (a1 : Nat) :
    (releaseDue s a1).power = s.power := by
  simp [releaseDue]

@[simp] theorem enterAbort_power (s : State) (a1 : AbortEntry) :
    (enterAbort s a1).power = s.power := by
  simp [enterAbort]

@[simp] theorem dueAbort_power (s : State) (a1 : AbortEntry) :
    (dueAbort s a1).power = s.power := by
  simp [dueAbort]

@[simp] theorem detectAbort_power (s : State) (a1 : BitVec 32) (a2 : Nat) (a3 : Nat) :
    (detectAbort s a1 a2 a3).power = s.power := by
  simp [detectAbort]

@[simp] theorem abortGroup_power (s : State) (a1 : Group) (a2 : Nat) (a3 : Nat) :
    (abortGroup s a1 a2 a3).power = s.power := by
  simp [abortGroup]

@[simp] theorem dropFwd_power (s : State) (lead : Nat) :
    (dropFwd s lead).power = s.power := by
  simp [dropFwd]

@[simp] theorem dropRun_power (s : State) (a1 : Group) :
    (dropRun s a1).power = s.power := by
  simp [dropRun]

@[simp] theorem appendRec_power (s : State) (r : JRec) :
    (appendRec s r).power = s.power := by
  simp [appendRec]

@[simp] theorem checkpoint_power (s : State) :
    (checkpoint s).power = s.power := by
  simp [checkpoint]

@[simp] theorem checkpointIfDue_power (s : State) :
    (checkpointIfDue s).power = s.power := by
  simp [checkpointIfDue]

@[simp] theorem journal_power (s : State) (a1 : Nat) (a2 : Nat) (a3 : BitVec 32) (a4 : Nat) (a5 : Nat) (a6 : BitVec 32) (a7 : BitVec 32) (a8 : BitVec 32) :
    (journal s a1 a2 a3 a4 a5 a6 a7 a8).power = s.power := by
  simp [journal]

@[simp] theorem journalBlk_power (s : State) (a1 : Nat) (a2 : Nat) (a3 : Nat) :
    (journalBlk s a1 a2 a3).power = s.power := by
  simp [journalBlk]

@[simp] theorem openBlk_power (s : State) (a1 : Nat) (a2 : Nat) (a3 : BlockState) :
    (openBlk s a1 a2 a3).power = s.power := by
  simp [openBlk]

@[simp] theorem takeUnit_power (s : State) (a1 : Nat) (a2 : Nat) :
    (takeUnit s a1 a2).1.power = s.power := by
  simp [takeUnit]

theorem placeUnit_power (s : State) (ch : Nat) (st : BlockState) (r : State × BitVec 32)
    (e : placeUnit s ch st = some r) : r.1.power = s.power := by
  unfold placeUnit at e
  split at e
  · obtain rfl := Option.some.inj e
    simp
  · simp only [Option.map_eq_some_iff] at e
    obtain ⟨k, -, rfl⟩ := e
    simp

@[simp] theorem countBlkRead_power (s : State) (k : Nat) :
    (countBlkRead s k).power = s.power := by
  simp [countBlkRead]

@[simp] theorem countRead_power (s : State) (a1 : Nat) (a2 : Nat) :
    (countRead s a1 a2).power = s.power := by
  unfold countRead
  split <;> simp

@[simp] theorem addProg_power (s : State) (g : FarProg) : (addProg s g).power = s.power := by
  unfold addProg
  split
  · rename_i h
    simpa using placeUnit_power _ _ _ _ h
  · simp

@[simp] theorem progUnit_power (s : State) (a1 : Nat) (a2 : Nat) (a3 : Nat) (a4 : List Byte) (a5 : Nat) :
    (progUnit s a1 a2 a3 a4 a5).power = s.power := by
  unfold progUnit
  dsimp only
  split
  · rename_i h
    simpa using placeUnit_power _ _ _ _ h
  · simp

@[simp] theorem farWrite_power (s : State) (a1 : Nat) (a2 : Nat) (a3 : List Byte) (a4 : FarSink) :
    (farWrite s a1 a2 a3 a4).power = s.power := by
  simp [farWrite]

@[simp] theorem putRec_power (s : State) (a1 : Nat) (a2 : Nat) (a3 : Nat) (a4 : List Byte) (a5 : Nat) (a6 : List Byte) :
    (putRec s a1 a2 a3 a4 a5 a6).power = s.power := by
  simp [putRec]

@[simp] theorem countLost_power (s : State) (a1 : Nat) :
    (countLost s a1).power = s.power := by
  simp [countLost]

@[simp] theorem newSegment_power (s : State) :
    (newSegment s).power = s.power := by
  simp [newSegment]

@[simp] theorem recorderLost_power (s : State) :
    (recorderLost s).power = s.power := by
  simp [recorderLost]

@[simp] theorem zeroCells_power (s : State) (a1 : Nat) :
    (zeroCells s a1).power = s.power := by
  simp [zeroCells]

@[simp] theorem noteHeld_power (s : State) (a1 : Nat) (a2 : Option Nat) (a3 : List Byte) :
    (noteHeld s a1 a2 a3).power = s.power := by
  unfold noteHeld
  dsimp only
  repeat' split
  all_goals simp

@[simp] theorem writeFrame_power (s : State) (a1 : Option Nat) (a2 : List Byte) :
    (writeFrame s a1 a2).power = s.power := by
  simp [writeFrame]

@[simp] theorem sendStore_power (s : State) (a1 : StoreTxn) (a2 : Nat) :
    (sendStore s a1 a2).power = s.power := by
  simp [sendStore]

@[simp] theorem dropTxns_power (s : State) (a1 : StoreOwner) :
    (dropTxns s a1).power = s.power := by
  simp [dropTxns]

@[simp] theorem openTxn_power (s : State) (a1 : StoreOwner) (a2 : List Byte) (a3 : BitVec 16) (a4 : Nat) (a5 : Nat) :
    (openTxn s a1 a2 a3 a4 a5).power = s.power := by
  simp [openTxn]

@[simp] theorem startDrain_power (s : State) (a1 : Nat) :
    (startDrain s a1).power = s.power := by
  unfold startDrain
  split <;> simp

@[simp] theorem stageDrain_power (s : State) (a1 : Nat) (a2 : DrainRun) :
    (stageDrain s a1 a2).power = s.power := by
  simp [stageDrain]

@[simp] theorem suspendTest_power (s : State) (a1 : Nat) :
    (suspendTest s a1).power = s.power := by
  simp [suspendTest]

@[simp] theorem suspendToBudget_power (s : State) (n : Nat) : (suspendToBudget s n).power = s.power := by
  induction n generalizing s with
  | zero => rfl
  | succ n ih =>
    unfold suspendToBudget
    dsimp only
    (repeat' split) <;> simp [ih]

@[simp] theorem suspendAll_power (s : State) :
    (suspendAll s).power = s.power := by
  simp [suspendAll]

@[simp] theorem abortUsers_power (s : State) (a1 : Nat) :
    (abortUsers s a1).power = s.power := by
  unfold abortUsers
  refine foldl_power _ (fun s a => ?_) _ _
  (repeat' split) <;> simp

@[simp] theorem enterLink_power (s : State) (a1 : Nat) (a2 : BitVec 4) :
    (enterLink s a1 a2).power = s.power := by
  simp [enterLink]

@[simp] theorem leaveActive_power (s : State) (a1 : Nat) (a2 : BitVec 4) :
    (leaveActive s a1 a2).power = s.power := by
  simp [leaveActive]

@[simp] theorem portsDown_power (s : State) :
    (portsDown s).power = s.power := by
  simp [portsDown]

@[simp] theorem startHubTest_power (s : State) :
    (startHubTest s).power = s.power := by
  simp [startHubTest]

@[simp] theorem cvSlot_power (s : State) (a1 : Nat) (a2 : Bool) (a3 : Group) (a4 : List Byte) (a5 : SlotRun) (a6 : Nat) (a7 : Nat) (a8 : BitVec 64) (a9 : List Byte) :
    (cvSlot s a1 a2 a3 a4 a5 a6 a7 a8 a9).power = s.power := by
  unfold cvSlot
  dsimp only
  split_ifs <;> simp

@[simp] theorem freeSlots_power (s : State) (a1 : Nat) (a2 : List Parcel) :
    (freeSlots s a1 a2).power = s.power := by
  simp [freeSlots]

@[simp] theorem fillBulk_power (s : State) (via : Nat) :
    (fillBulk s via).power = s.power := by
  simp [fillBulk]

@[simp] theorem takeLoad_power (s : State) (a1 : Nat) (a2 : Nat) (a3 : Nat) :
    (takeLoad s a1 a2 a3).1.power = s.power := by
  unfold takeLoad
  dsimp only
  repeat' split
  all_goals simp

@[simp] theorem noteCommit_power (s : State) (a1 : Nat) (a2 : List Byte) :
    (noteCommit s a1 a2).power = s.power := by
  simp [noteCommit]

@[simp] theorem zeroNear_power (s : State) (a1 : Nat) :
    (zeroNear s a1).power = s.power := by
  simp [zeroNear]

@[simp] theorem shutterSpares_power (s : State) (a1 : Nat) :
    (shutterSpares s a1).power = s.power := by
  simp [shutterSpares]

@[simp] theorem resetDone_power (s : State) (a1 : Nat) (a2 : Nat) (a3 : Nat) (a4 : BitVec 32) (a5 : BitVec 16) (a6 : Nat) :
    (resetDone s a1 a2 a3 a4 a5 a6).power = s.power := by
  simp [resetDone]

@[simp] theorem selfResetOver_power (s : State) (a1 : Nat) (a2 : Nat) :
    (selfResetOver s a1 a2).power = s.power := by
  simp [selfResetOver]

@[simp] theorem done_power (s : State) :
    (done s).1.power = s.power := by
  simp [done]

@[simp] theorem renegotiate_power (s : State) :
    (renegotiate s).power = s.power := by
  simp [renegotiate]

@[simp] theorem startupShutter_power (s : State) (a1 : Nat) :
    (startupShutter s a1).power = s.power := by
  simp [startupShutter]

@[simp] theorem stopForCap_power (s : State) (a1 : Group) :
    (stopForCap s a1).power = s.power := by
  unfold stopForCap
  split <;> simp

/-! ### `faults` -/

@[simp] theorem foldl_faults {α : Type} (f : State → α → State) (hf : ∀ s a, (f s a).faults = s.faults) (l : List α)
    (s : State) : (l.foldl f s).faults = s.faults := by
  induction l generalizing s with
  | nil => rfl
  | cons a l ih => rw [List.foldl_cons, ih, hf]

@[simp] theorem ite_faults (c : Prop) [Decidable c] (a b : State) : (if c then a else b).faults = if c then a.faults else b.faults := by
  split <;> rfl

@[simp] theorem scramble_faults (s : State) (a1 : Nat) (a2 : Nat) (a3 : Nat) :
    (scramble s a1 a2 a3).faults = s.faults := by
  simp [scramble]

@[simp] theorem deliver_faults (s : State) (a1 : Event) :
    (deliver s a1).faults = s.faults := by
  simp [deliver]

@[simp] theorem record_faults (s : State) (a1 : Nat) (a2 : Nat) (a3 : Nat) (a4 : List Byte) :
    (record s a1 a2 a3 a4).faults = s.faults := by
  simp [record]

@[simp] theorem msix_faults (s : State) (a1 : Nat) (a2 : Nat) :
    (msix s a1 a2).faults = s.faults := by
  simp [msix]

@[simp] theorem queueParcel_faults (s : State) (p : Parcel) :
    (queueParcel s p).faults = s.faults := by
  unfold queueParcel
  split <;> simp

@[simp] theorem sendParcel_faults (s : State) (a1 : Parcel) :
    (sendParcel s a1).faults = s.faults := by
  unfold sendParcel
  split <;> simp

@[simp] theorem sendMgmt_faults (s : State) (a1 : BitVec 16) (a2 : List Byte) :
    (sendMgmt s a1 a2).faults = s.faults := by
  simp [sendMgmt]

@[simp] theorem pushSb_faults (s : State) (a1 : SbReply) :
    (pushSb s a1).faults = s.faults := by
  simp [pushSb]

@[simp] theorem sbReply_faults (s : State) (a1 : BitVec 16) (a2 : FmFragment) :
    (sbReply s a1 a2).faults = s.faults := by
  simp [sbReply]

@[simp] theorem fmReplyTo_faults (s : State) (a1 : Option (BitVec 16)) (a2 : BitVec 32) (a3 : List Byte) :
    (fmReplyTo s a1 a2 a3).faults = s.faults := by
  unfold fmReplyTo
  split <;> simp

@[simp] theorem finish_faults (s : State) (a1 : Nat) (a2 : Reply) :
    (finish s a1 a2).faults = s.faults := by
  unfold finish
  dsimp only
  repeat' split
  all_goals simp

@[simp] theorem orphanWork_faults (s : State) (a1 : Nat) :
    (orphanWork s a1).faults = s.faults := by
  simp [orphanWork]

@[simp] theorem spoilFar_faults (s : State) (o ofs n : Nat) :
    (spoilFar s o ofs n).faults = s.faults := by
  simp [spoilFar]

@[simp] theorem leaveUndefined_faults (s : State) (j : Job) :
    (leaveUndefined s j).faults = s.faults := by
  unfold leaveUndefined
  dsimp only
  repeat' split
  all_goals simp

@[simp] theorem endNow_faults (s : State) (a1 : Nat) (a2 : Ans) :
    (endNow s a1 a2).faults = s.faults := by
  unfold endNow
  split <;> simp

@[simp] theorem abortLocked_faults (s : State) (a1 : BitVec 16) (a2 : Nat) (a3 : Job → Bool) :
    (abortLocked s a1 a2 a3).faults = s.faults := by
  simp [abortLocked]

@[simp] theorem endEscape_faults (s : State) (a1 : Ans) :
    (endEscape s a1).faults = s.faults := by
  unfold endEscape
  split <;> simp

@[simp] theorem endEscapeIf_faults (s : State) (a1 : Job → Bool) (a2 : Ans) :
    (endEscapeIf s a1 a2).faults = s.faults := by
  unfold endEscapeIf
  split <;> simp

@[simp] theorem abortForEvent_faults (s : State) (a1 : Nat) :
    (abortForEvent s a1).faults = s.faults := by
  simp [abortForEvent]

@[simp] theorem warnGroups_faults (s : State) (a1 : Nat) (a2 : Nat) :
    (warnGroups s a1 a2).faults = s.faults := by
  simp [warnGroups]

@[simp] theorem done_faults (s : State) :
    (done s).1.faults = s.faults := by
  simp [done]

/-! ### `far` -/

@[simp] theorem foldl_far {α : Type} (f : State → α → State) (hf : ∀ s a, (f s a).far = s.far) (l : List α)
    (s : State) : (l.foldl f s).far = s.far := by
  induction l generalizing s with
  | nil => rfl
  | cons a l ih => rw [List.foldl_cons, ih, hf]

@[simp] theorem ite_far (c : Prop) [Decidable c] (a b : State) : (if c then a else b).far = if c then a.far else b.far := by
  split <;> rfl

@[simp] theorem deliver_far (s : State) (a1 : Event) :
    (deliver s a1).far = s.far := by
  simp [deliver]

@[simp] theorem record_far (s : State) (a1 : Nat) (a2 : Nat) (a3 : Nat) (a4 : List Byte) :
    (record s a1 a2 a3 a4).far = s.far := by
  simp [record]

@[simp] theorem msix_far (s : State) (a1 : Nat) (a2 : Nat) :
    (msix s a1 a2).far = s.far := by
  simp [msix]

@[simp] theorem queueNotice_far (s : State) (a1 : Nat) (a2 : Nat) (a3 : BitVec 32) (a4 : BitVec 16) (a5 : Nat) (a6 : Nat) (a7 : Nat) :
    (queueNotice s a1 a2 a3 a4 a5 a6 a7).far = s.far := by
  simp [queueNotice]

@[simp] theorem modMeter_far (s : State) (a1 : Nat) (a2 : Meter → Meter) :
    (modMeter s a1 a2).far = s.far := by
  unfold modMeter
  dsimp only
  repeat' split
  all_goals simp

@[simp] theorem meterEth_far (s : State) (a1 : Nat) (a2 : Nat) :
    (meterEth s a1 a2).far = s.far := by
  simp [meterEth]

@[simp] theorem decideJob_far (s : State) (a1 : Nat) (a2 : Ans) :
    (decideJob s a1 a2).far = s.far := by
  simp [decideJob]

@[simp] theorem warnGroups_far (s : State) (a1 : Nat) (a2 : Nat) :
    (warnGroups s a1 a2).far = s.far := by
  simp [warnGroups]

@[simp] theorem raiseWarning_far (s : State) (a1 : Nat) (a2 : Nat) :
    (raiseWarning s a1 a2).far = s.far := by
  simp [raiseWarning]

@[simp] theorem noteDeclared_far (s : State) (a1 : Nat) (a2 : Nat) :
    (noteDeclared s a1 a2).far = s.far := by
  simp [noteDeclared]

@[simp] theorem tellDeclared_far (s : State) (a1 : Nat) (a2 : Nat) :
    (tellDeclared s a1 a2).far = s.far := by
  simp [tellDeclared]

@[simp] theorem declareFaulty_far (s : State) (a1 : Nat) (a2 : Nat) :
    (declareFaulty s a1 a2).far = s.far := by
  simp [declareFaulty]

@[simp] theorem countError_far (s : State) (a1 : Nat) (a2 : Nat) (a3 : Nat) :
    (countError s a1 a2 a3).1.far = s.far := by
  unfold countError
  dsimp only
  repeat' split
  all_goals simp

@[simp] theorem dropCount_far (s : State) (a1 : Nat) (a2 : Nat) :
    (dropCount s a1 a2).far = s.far := by
  simp [dropCount]

@[simp] theorem enterAbort_far (s : State) (a1 : AbortEntry) :
    (enterAbort s a1).far = s.far := by
  simp [enterAbort]

@[simp] theorem dueAbort_far (s : State) (a1 : AbortEntry) :
    (dueAbort s a1).far = s.far := by
  simp [dueAbort]

@[simp] theorem detectAbort_far (s : State) (a1 : BitVec 32) (a2 : Nat) (a3 : Nat) :
    (detectAbort s a1 a2 a3).far = s.far := by
  simp [detectAbort]

@[simp] theorem abortGroup_far (s : State) (a1 : Group) (a2 : Nat) (a3 : Nat) :
    (abortGroup s a1 a2 a3).far = s.far := by
  simp [abortGroup]

@[simp] theorem putRec_far (s : State) (a1 : Nat) (a2 : Nat) (a3 : Nat) (a4 : List Byte) (a5 : Nat) (a6 : List Byte) :
    (putRec s a1 a2 a3 a4 a5 a6).far = s.far := by
  simp [putRec]

@[simp] theorem countLost_far (s : State) (a1 : Nat) :
    (countLost s a1).far = s.far := by
  simp [countLost]

@[simp] theorem newSegment_far (s : State) :
    (newSegment s).far = s.far := by
  simp [newSegment]

@[simp] theorem recorderLost_far (s : State) :
    (recorderLost s).far = s.far := by
  simp [recorderLost]

@[simp] theorem abortUsers_far (s : State) (a1 : Nat) :
    (abortUsers s a1).far = s.far := by
  unfold abortUsers
  refine foldl_far _ (fun s a => ?_) _ _
  (repeat' split) <;> simp

@[simp] theorem enterLink_far (s : State) (a1 : Nat) (a2 : BitVec 4) :
    (enterLink s a1 a2).far = s.far := by
  simp [enterLink]

@[simp] theorem leaveActive_far (s : State) (a1 : Nat) (a2 : BitVec 4) :
    (leaveActive s a1 a2).far = s.far := by
  simp [leaveActive]

@[simp] theorem portsDown_far (s : State) :
    (portsDown s).far = s.far := by
  simp [portsDown]

@[simp] theorem startHubTest_far (s : State) :
    (startHubTest s).far = s.far := by
  simp [startHubTest]

@[simp] theorem resetDone_far (s : State) (a1 : Nat) (a2 : Nat) (a3 : Nat) (a4 : BitVec 32) (a5 : BitVec 16) (a6 : Nat) :
    (resetDone s a1 a2 a3 a4 a5 a6).far = s.far := by
  simp [resetDone]

/-! ### `hubv` -/

/-- The state without its metering, its recorder, what the host sees, and the count of free values. -/
def hubv (s : State) : State := { s with island := State.reset.island, evrec := State.reset.evrec, host := State.reset.host, free := 0 }

@[simp] theorem hubv_evrec (s : State) (e : Recorder) : hubv { s with evrec := e } = hubv s := rfl

@[simp] theorem hubv_island (s : State) (i : Island) : hubv { s with island := i } = hubv s := rfl

@[simp] theorem modIsland_hubv (s : State) (f : Island → Island) : hubv (modIsland s f) = hubv s := rfl

@[simp] theorem modRec_hubv (s : State) (f : Recorder → Recorder) : hubv (modRec s f) = hubv s := rfl

@[simp] theorem hubv_host (s : State) (h : HostUnit) : hubv { s with host := h } = hubv s := rfl

@[simp] theorem tookFree_hubv (s : State) :
    hubv (tookFree s) = hubv s := by rfl

@[simp] theorem setMsixByte_hubv (s : State) (fn : Nat) (o : Nat) (b : Byte) :
    hubv (setMsixByte s fn o b) = hubv s := by rfl

@[simp] theorem foldl_hubv {α : Type} (f : State → α → State) (hf : ∀ s a, hubv (f s a) = hubv s) (l : List α)
    (s : State) : hubv (l.foldl f s) = hubv s := by
  induction l generalizing s with
  | nil => rfl
  | cons a l ih => rw [List.foldl_cons, ih, hf]

@[simp] theorem ite_hubv (c : Prop) [Decidable c] (a b : State) : hubv (if c then a else b) = if c then hubv a else hubv b := by
  split <;> rfl

@[simp] theorem deliver_hubv (s : State) (a1 : Event) :
    hubv (deliver s a1) = hubv s := by
  simp [deliver]

@[simp] theorem record_hubv (s : State) (a1 : Nat) (a2 : Nat) (a3 : Nat) (a4 : List Byte) :
    hubv (record s a1 a2 a3 a4) = hubv s := by
  simp [record]

@[simp] theorem msix_hubv (s : State) (a1 : Nat) (a2 : Nat) :
    hubv (msix s a1 a2) = hubv s := by
  simp [msix]

@[simp] theorem meterEvent_hubv (s : State) (a1 : Nat) (a2 : Nat) :
    hubv (meterEvent s a1 a2) = hubv s := by
  simp [meterEvent]

@[simp] theorem storeRec_hubv (s : State) (a1 : MeterRec) :
    hubv (storeRec s a1) = hubv s := by
  simp [storeRec]

@[simp] theorem holdRec_hubv (s : State) (a1 : MeterRec) :
    hubv (holdRec s a1) = hubv s := by
  simp [holdRec]

@[simp] theorem writeRec_hubv (s : State) (a1 : Nat) (a2 : Nat) (a3 : Nat) (a4 : Nat) (a5 : Nat) (a6 : List Byte) :
    hubv (writeRec s a1 a2 a3 a4 a5 a6) = hubv s := by
  simp [writeRec]

@[simp] theorem paneRec_hubv (s : State) (a1 : Nat) (a2 : Nat) (a3 : Meter) (a4 : Nat) :
    hubv (paneRec s a1 a2 a3 a4) = hubv s := by
  simp [paneRec]

@[simp] theorem keptRec_hubv (s : State) (a1 : Nat) (a2 : Meter) (a3 : Nat) :
    hubv (keptRec s a1 a2 a3) = hubv s := by
  simp [keptRec]

@[simp] theorem operRec_hubv (s : State) :
    hubv (operRec s) = hubv s := by
  simp [operRec]

@[simp] theorem legalRec_hubv (s : State) (a1 : Nat) (a2 : Nat) :
    hubv (legalRec s a1 a2) = hubv s := by
  simp [legalRec]

@[simp] theorem closeOccupancy_hubv (s : State) (a1 : Nat) (a2 : Nat) :
    hubv (closeOccupancy s a1 a2) = hubv s := by
  unfold closeOccupancy
  split <;> simp

@[simp] theorem openKept_hubv (s : State) (a1 : Nat) :
    hubv (openKept s a1) = hubv s := by
  simp [openKept]

@[simp] theorem endKept_hubv (s : State) (a1 : Nat) (a2 : Bool) :
    hubv (endKept s a1 a2) = hubv s := by
  unfold endKept
  refine foldl_hubv _ (fun s a => ?_) _ _
  split
  · dsimp only
    split <;> simp
  · simp

@[simp] theorem closeAll_hubv (s : State) (a1 : Nat) :
    hubv (closeAll s a1) = hubv s := by
  simp [closeAll]

@[simp] theorem islandLoss_hubv (s : State) :
    hubv (islandLoss s) = hubv s := by
  simp [islandLoss]

@[simp] theorem islandReset_hubv (s : State) :
    hubv (islandReset s) = hubv s := by
  simp [islandReset]

@[simp] theorem putRec_hubv (s : State) (a1 : Nat) (a2 : Nat) (a3 : Nat) (a4 : List Byte) (a5 : Nat) (a6 : List Byte) :
    hubv (putRec s a1 a2 a3 a4 a5 a6) = hubv s := by
  simp [putRec]

@[simp] theorem countLost_hubv (s : State) (a1 : Nat) :
    hubv (countLost s a1) = hubv s := by
  simp [countLost]

@[simp] theorem newSegment_hubv (s : State) :
    hubv (newSegment s) = hubv s := by
  simp [newSegment]

@[simp] theorem recorderReset_hubv (s : State) :
    hubv (recorderReset s) = hubv s := by
  simp [recorderReset]

@[simp] theorem recorderLost_hubv (s : State) :
    hubv (recorderLost s) = hubv s := by
  simp [recorderLost]

@[simp] theorem keepSpaces_hubv (s : State) :
    hubv (keepSpaces s) = hubv s := by
  simp [keepSpaces]

/-! ### `dk` -/

@[simp] theorem foldl_dk {α : Type} (f : State → α → State) (hf : ∀ s a, (f s a).dk = s.dk) (l : List α)
    (s : State) : (l.foldl f s).dk = s.dk := by
  induction l generalizing s with
  | nil => rfl
  | cons a l ih => rw [List.foldl_cons, ih, hf]

@[simp] theorem ite_dk (c : Prop) [Decidable c] (a b : State) : (if c then a else b).dk = if c then a.dk else b.dk := by
  split <;> rfl

@[simp] theorem scramble_dk (s : State) (a1 : Nat) (a2 : Nat) (a3 : Nat) :
    (scramble s a1 a2 a3).dk = s.dk := by
  simp [scramble]

@[simp] theorem deliver_dk (s : State) (a1 : Event) :
    (deliver s a1).dk = s.dk := by
  simp [deliver]

@[simp] theorem record_dk (s : State) (a1 : Nat) (a2 : Nat) (a3 : Nat) (a4 : List Byte) :
    (record s a1 a2 a3 a4).dk = s.dk := by
  simp [record]

@[simp] theorem msix_dk (s : State) (a1 : Nat) (a2 : Nat) :
    (msix s a1 a2).dk = s.dk := by
  simp [msix]

@[simp] theorem queueNotice_dk (s : State) (a1 : Nat) (a2 : Nat) (a3 : BitVec 32) (a4 : BitVec 16) (a5 : Nat) (a6 : Nat) (a7 : Nat) :
    (queueNotice s a1 a2 a3 a4 a5 a6 a7).dk = s.dk := by
  simp [queueNotice]

@[simp] theorem modMeter_dk (s : State) (a1 : Nat) (a2 : Meter → Meter) :
    (modMeter s a1 a2).dk = s.dk := by
  unfold modMeter
  dsimp only
  repeat' split
  all_goals simp

@[simp] theorem meterRefusal_dk (s : State) (a1 : Nat) :
    (meterRefusal s a1).dk = s.dk := by
  simp [meterRefusal]

@[simp] theorem meterEth_dk (s : State) (a1 : Nat) (a2 : Nat) :
    (meterEth s a1 a2).dk = s.dk := by
  simp [meterEth]

@[simp] theorem queueParcel_dk (s : State) (p : Parcel) :
    (queueParcel s p).dk = s.dk := by
  unfold queueParcel
  split <;> simp

@[simp] theorem sendParcel_dk (s : State) (a1 : Parcel) :
    (sendParcel s a1).dk = s.dk := by
  unfold sendParcel
  split <;> simp

@[simp] theorem sendMgmt_dk (s : State) (a1 : BitVec 16) (a2 : List Byte) :
    (sendMgmt s a1 a2).dk = s.dk := by
  simp [sendMgmt]

@[simp] theorem pushSb_dk (s : State) (a1 : SbReply) :
    (pushSb s a1).dk = s.dk := by
  simp [pushSb]

@[simp] theorem sbReply_dk (s : State) (a1 : BitVec 16) (a2 : FmFragment) :
    (sbReply s a1 a2).dk = s.dk := by
  simp [sbReply]

@[simp] theorem fmReplyTo_dk (s : State) (a1 : Option (BitVec 16)) (a2 : BitVec 32) (a3 : List Byte) :
    (fmReplyTo s a1 a2 a3).dk = s.dk := by
  unfold fmReplyTo
  split <;> simp

@[simp] theorem orphanWork_dk (s : State) (a1 : Nat) :
    (orphanWork s a1).dk = s.dk := by
  simp [orphanWork]

@[simp] theorem spoilFar_dk (s : State) (o ofs n : Nat) :
    (spoilFar s o ofs n).dk = s.dk := by
  simp [spoilFar]

@[simp] theorem leaveUndefined_dk (s : State) (j : Job) :
    (leaveUndefined s j).dk = s.dk := by
  unfold leaveUndefined
  dsimp only
  repeat' split
  all_goals simp

@[simp] theorem chargeRefusal_dk (s : State) (a1 : Nat) :
    (chargeRefusal s a1).dk = s.dk := by
  simp [chargeRefusal]

@[simp] theorem askTeardown_dk (s : State) (a1 : Nat) (a2 : Nat) (a3 : Bool) :
    (askTeardown s a1 a2 a3).dk = s.dk := by
  simp [askTeardown]

@[simp] theorem nearWrite_dk (s : State) (a1 : Nat) (a2 : Nat) (a3 : List Byte) :
    (nearWrite s a1 a2 a3).dk = s.dk := by
  simp [nearWrite]

@[simp] theorem sendResponse_dk (s : State) (a1 : Nat) (a2 : Msg) :
    (sendResponse s a1 a2).dk = s.dk := by
  simp [sendResponse]

@[simp] theorem respond_dk (s : State) (a1 : Nat) (a2 : Msg) (a3 : Nat) (a4 : List Byte) (a5 : Option (BitVec 64)) :
    (respond s a1 a2 a3 a4 a5).dk = s.dk := by
  simp [respond]

@[simp] theorem countNack_dk (s : State) (p code : Nat) :
    (countNack s p code).dk = s.dk := by
  simp [countNack]

@[simp] theorem respondCode_dk (s : State) (a1 : Nat) (a2 : Msg) (a3 : Nat) :
    (respondCode s a1 a2 a3).dk = s.dk := by
  simp [respondCode]

@[simp] theorem answerWaiter_dk (s : State) (a1 : Nat) (a2 : Waiter) (a3 : Nat) (a4 : BitVec 64) :
    (answerWaiter s a1 a2 a3 a4).dk = s.dk := by
  unfold answerWaiter
  split <;> simp

@[simp] theorem grantNext_dk (s : State) (a1 : Nat) (a2 : Nat) :
    (grantNext s a1 a2).dk = s.dk := by
  unfold grantNext
  dsimp only
  repeat' split
  all_goals simp

@[simp] theorem orphanLatch_dk (s : State) (a1 : Nat) :
    (orphanLatch s a1).dk = s.dk := by
  unfold orphanLatch
  dsimp only
  repeat' split
  all_goals simp

@[simp] theorem orphanAll_dk (s : State) (a1 : BitVec 16) (a2 : BitVec 4) (a3 : BitVec 16) :
    (orphanAll s a1 a2 a3).dk = s.dk := by
  simp [orphanAll]

@[simp] theorem enterAbort_dk (s : State) (a1 : AbortEntry) :
    (enterAbort s a1).dk = s.dk := by
  simp [enterAbort]

@[simp] theorem dueAbort_dk (s : State) (a1 : AbortEntry) :
    (dueAbort s a1).dk = s.dk := by
  simp [dueAbort]

@[simp] theorem detectAbort_dk (s : State) (a1 : BitVec 32) (a2 : Nat) (a3 : Nat) :
    (detectAbort s a1 a2 a3).dk = s.dk := by
  simp [detectAbort]

@[simp] theorem abortGroup_dk (s : State) (a1 : Group) (a2 : Nat) (a3 : Nat) :
    (abortGroup s a1 a2 a3).dk = s.dk := by
  simp [abortGroup]

@[simp] theorem appendRec_dk (s : State) (r : JRec) :
    (appendRec s r).dk = s.dk := by
  simp [appendRec]

@[simp] theorem checkpoint_dk (s : State) :
    (checkpoint s).dk = s.dk := by
  simp [checkpoint]

@[simp] theorem checkpointIfDue_dk (s : State) :
    (checkpointIfDue s).dk = s.dk := by
  simp [checkpointIfDue]

@[simp] theorem journal_dk (s : State) (a1 : Nat) (a2 : Nat) (a3 : BitVec 32) (a4 : Nat) (a5 : Nat) (a6 : BitVec 32) (a7 : BitVec 32) (a8 : BitVec 32) :
    (journal s a1 a2 a3 a4 a5 a6 a7 a8).dk = s.dk := by
  simp [journal]

@[simp] theorem journalBlk_dk (s : State) (a1 : Nat) (a2 : Nat) (a3 : Nat) :
    (journalBlk s a1 a2 a3).dk = s.dk := by
  simp [journalBlk]

@[simp] theorem openBlk_dk (s : State) (a1 : Nat) (a2 : Nat) (a3 : BlockState) :
    (openBlk s a1 a2 a3).dk = s.dk := by
  simp [openBlk]

@[simp] theorem takeUnit_dk (s : State) (a1 : Nat) (a2 : Nat) :
    (takeUnit s a1 a2).1.dk = s.dk := by
  simp [takeUnit]

theorem placeUnit_dk (s : State) (ch : Nat) (st : BlockState) (r : State × BitVec 32)
    (e : placeUnit s ch st = some r) : r.1.dk = s.dk := by
  unfold placeUnit at e
  split at e
  · obtain rfl := Option.some.inj e
    simp
  · simp only [Option.map_eq_some_iff] at e
    obtain ⟨k, -, rfl⟩ := e
    simp

@[simp] theorem countBlkRead_dk (s : State) (k : Nat) :
    (countBlkRead s k).dk = s.dk := by
  simp [countBlkRead]

@[simp] theorem countRead_dk (s : State) (a1 : Nat) (a2 : Nat) :
    (countRead s a1 a2).dk = s.dk := by
  unfold countRead
  split <;> simp

@[simp] theorem countReads_dk (s : State) (o ofs n : Nat) :
    (countReads s o ofs n).dk = s.dk := by
  simp [countReads]

@[simp] theorem poisonNear_dk (s : State) (a1 : Nat) (a2 : Nat) (a3 : Nat) :
    (poisonNear s a1 a2 a3).dk = s.dk := by
  simp [poisonNear]

@[simp] theorem farToNear_dk (s : State) (a1 : Nat) (a2 : Nat) (a3 : Nat) (a4 : List (Nat × Nat)) :
    (farToNear s a1 a2 a3 a4).dk = s.dk := by
  unfold farToNear
  refine foldl_dk _ (fun s a => ?_) _ _
  dsimp only
  rw [foldl_dk]
  · simp
  · intro s b
    split <;> simp

@[simp] theorem addProg_dk (s : State) (g : FarProg) : (addProg s g).dk = s.dk := by
  unfold addProg
  split
  · rename_i h
    simpa using placeUnit_dk _ _ _ _ h
  · simp

@[simp] theorem progUnit_dk (s : State) (a1 : Nat) (a2 : Nat) (a3 : Nat) (a4 : List Byte) (a5 : Nat) :
    (progUnit s a1 a2 a3 a4 a5).dk = s.dk := by
  unfold progUnit
  dsimp only
  split
  · rename_i h
    simpa using placeUnit_dk _ _ _ _ h
  · simp

@[simp] theorem farWrite_dk (s : State) (a1 : Nat) (a2 : Nat) (a3 : List Byte) (a4 : FarSink) :
    (farWrite s a1 a2 a3 a4).dk = s.dk := by
  simp [farWrite]

@[simp] theorem meterEvent_dk (s : State) (a1 : Nat) (a2 : Nat) :
    (meterEvent s a1 a2).dk = s.dk := by
  simp [meterEvent]

@[simp] theorem storeRec_dk (s : State) (a1 : MeterRec) :
    (storeRec s a1).dk = s.dk := by
  simp [storeRec]

@[simp] theorem holdRec_dk (s : State) (a1 : MeterRec) :
    (holdRec s a1).dk = s.dk := by
  simp [holdRec]

@[simp] theorem writeRec_dk (s : State) (a1 : Nat) (a2 : Nat) (a3 : Nat) (a4 : Nat) (a5 : Nat) (a6 : List Byte) :
    (writeRec s a1 a2 a3 a4 a5 a6).dk = s.dk := by
  simp [writeRec]

@[simp] theorem keptRec_dk (s : State) (a1 : Nat) (a2 : Meter) (a3 : Nat) :
    (keptRec s a1 a2 a3).dk = s.dk := by
  simp [keptRec]

@[simp] theorem openOccupancy_dk (s : State) (a1 : Nat) :
    (openOccupancy s a1).dk = s.dk := by
  simp [openOccupancy]

@[simp] theorem closeKept_dk (s : State) (a1 : Nat) (a2 : Nat) :
    (closeKept s a1 a2).dk = s.dk := by
  unfold closeKept
  split <;> simp

@[simp] theorem noteRead_dk (s : State) (a1 : List MeterRec) :
    (noteRead s a1).dk = s.dk := by
  simp [noteRead]

@[simp] theorem putRec_dk (s : State) (a1 : Nat) (a2 : Nat) (a3 : Nat) (a4 : List Byte) (a5 : Nat) (a6 : List Byte) :
    (putRec s a1 a2 a3 a4 a5 a6).dk = s.dk := by
  simp [putRec]

@[simp] theorem countLost_dk (s : State) (a1 : Nat) :
    (countLost s a1).dk = s.dk := by
  simp [countLost]

@[simp] theorem newSegment_dk (s : State) :
    (newSegment s).dk = s.dk := by
  simp [newSegment]

@[simp] theorem makeRoom_dk (s : State) (a1 : Nat) :
    (makeRoom s a1).dk = s.dk := by
  simp [makeRoom]

@[simp] theorem addRec_dk (s : State) (a1 : Nat) (a2 : Nat) (a3 : Nat) (a4 : List Byte) (a5 : Nat) (a6 : List Byte) :
    (addRec s a1 a2 a3 a4 a5 a6).dk = s.dk := by
  simp [addRec]

@[simp] theorem writeOwn_dk (s : State) (a1 : DueRec) :
    (writeOwn s a1).dk = s.dk := by
  simp [writeOwn]

@[simp] theorem startSpill_dk (s : State) :
    (startSpill s).dk = s.dk := by
  unfold startSpill
  dsimp only
  repeat' split
  all_goals simp

@[simp] theorem restoreFrame_dk (s : State) (a1 : Group) (a2 : List Byte) (a3 : List Byte) :
    (restoreFrame s a1 a2 a3).dk = s.dk := by
  unfold restoreFrame
  dsimp only
  repeat' split
  all_goals simp

@[simp] theorem sendStore_dk (s : State) (a1 : StoreTxn) (a2 : Nat) :
    (sendStore s a1 a2).dk = s.dk := by
  simp [sendStore]

@[simp] theorem dropTxns_dk (s : State) (a1 : StoreOwner) :
    (dropTxns s a1).dk = s.dk := by
  simp [dropTxns]

@[simp] theorem openTxn_dk (s : State) (a1 : StoreOwner) (a2 : List Byte) (a3 : BitVec 16) (a4 : Nat) (a5 : Nat) :
    (openTxn s a1 a2 a3 a4 a5).dk = s.dk := by
  simp [openTxn]

@[simp] theorem startDrain_dk (s : State) (a1 : Nat) :
    (startDrain s a1).dk = s.dk := by
  unfold startDrain
  split <;> simp

@[simp] theorem enterTesting_dk (s : State) (a1 : Nat) :
    (enterTesting s a1).dk = s.dk := by
  simp [enterTesting]

@[simp] theorem suspendTest_dk (s : State) (a1 : Nat) :
    (suspendTest s a1).dk = s.dk := by
  simp [suspendTest]

@[simp] theorem suspendToBudget_dk (s : State) (n : Nat) : (suspendToBudget s n).dk = s.dk := by
  induction n generalizing s with
  | zero => rfl
  | succ n ih =>
    unfold suspendToBudget
    dsimp only
    (repeat' split) <;> simp [ih]

@[simp] theorem applyCap_dk (s : State) (a1 : BitVec 2) :
    (applyCap s a1).dk = s.dk := by
  simp [applyCap]

@[simp] theorem abortUsers_dk (s : State) (a1 : Nat) :
    (abortUsers s a1).dk = s.dk := by
  unfold abortUsers
  refine foldl_dk _ (fun s a => ?_) _ _
  (repeat' split) <;> simp

@[simp] theorem enterLink_dk (s : State) (a1 : Nat) (a2 : BitVec 4) :
    (enterLink s a1 a2).dk = s.dk := by
  simp [enterLink]

@[simp] theorem leaveActive_dk (s : State) (a1 : Nat) (a2 : BitVec 4) :
    (leaveActive s a1 a2).dk = s.dk := by
  simp [leaveActive]

@[simp] theorem portsDown_dk (s : State) :
    (portsDown s).dk = s.dk := by
  simp [portsDown]

@[simp] theorem park_dk (s : State) :
    (park s).dk = s.dk := by
  simp [park]

@[simp] theorem startHubTest_dk (s : State) :
    (startHubTest s).dk = s.dk := by
  simp [startHubTest]

@[simp] theorem parkNext_dk (s : State) :
    (parkNext s).dk = s.dk := by
  unfold parkNext
  split <;> simp

@[simp] theorem beginPark_dk (s : State) :
    (beginPark s).dk = s.dk := by
  simp [beginPark]

@[simp] theorem resetDone_dk (s : State) (a1 : Nat) (a2 : Nat) (a3 : Nat) (a4 : BitVec 32) (a5 : BitVec 16) (a6 : Nat) :
    (resetDone s a1 a2 a3 a4 a5 a6).dk = s.dk := by
  simp [resetDone]

@[simp] theorem resetRing_dk (s : State) (a1 : Nat) :
    (resetRing s a1).dk = s.dk := by
  simp [resetRing]

@[simp] theorem resetCv_dk (s : State) (a1 : Nat) :
    (resetCv s a1).dk = s.dk := by
  simp [resetCv]

@[simp] theorem renegotiate_dk (s : State) :
    (renegotiate s).dk = s.dk := by
  simp [renegotiate]

/-! ### `latches` -/

@[simp] theorem foldl_latches {α : Type} (f : State → α → State) (hf : ∀ s a, (f s a).latches = s.latches) (l : List α)
    (s : State) : (l.foldl f s).latches = s.latches := by
  induction l generalizing s with
  | nil => rfl
  | cons a l ih => rw [List.foldl_cons, ih, hf]

@[simp] theorem ite_latches (c : Prop) [Decidable c] (a b : State) : (if c then a else b).latches = if c then a.latches else b.latches := by
  split <;> rfl

@[simp] theorem deliver_latches (s : State) (a1 : Event) :
    (deliver s a1).latches = s.latches := by
  simp [deliver]

@[simp] theorem record_latches (s : State) (a1 : Nat) (a2 : Nat) (a3 : Nat) (a4 : List Byte) :
    (record s a1 a2 a3 a4).latches = s.latches := by
  simp [record]

@[simp] theorem msix_latches (s : State) (a1 : Nat) (a2 : Nat) :
    (msix s a1 a2).latches = s.latches := by
  simp [msix]

@[simp] theorem queueNotice_latches (s : State) (a1 : Nat) (a2 : Nat) (a3 : BitVec 32) (a4 : BitVec 16) (a5 : Nat) (a6 : Nat) (a7 : Nat) :
    (queueNotice s a1 a2 a3 a4 a5 a6 a7).latches = s.latches := by
  simp [queueNotice]

@[simp] theorem resetDone_latches (s : State) (a1 : Nat) (a2 : Nat) (a3 : Nat) (a4 : BitVec 32) (a5 : BitVec 16) (a6 : Nat) :
    (resetDone s a1 a2 a3 a4 a5 a6).latches = s.latches := by
  simp [resetDone]

/-! ### `bks` -/

/-- A pane without its near tier and its remote operations: what an aborted command leaves of it. -/
def bare (x : Pane) : Pane := { x with near := NearTier.reset, rmo := RmoUnit.reset }

/-- The panes without their near tiers and remote operations. -/
def bks (t : Tbl Pane) (p : Nat) : Pane := bare (tblGet Pane.reset t p)

@[simp] theorem bks_ite (c : Prop) [Decidable c] (a b : Tbl Pane) :
    bks (if c then a else b) = if c then bks a else bks b := apply_ite bks c a b

@[simp] theorem bks_modPane (s : State) (p : Nat) (f : Pane → Pane) (hf : ∀ x, f x = { x with near := (f x).near, rmo := (f x).rmo }) :
    bks (modPane s p f).panes = bks s.panes := by
  funext q
  show bare (pane (modPane s p f) q) = _
  rw [pane_modPane]
  split
  next h => rw [hf (pane s p), h]; rfl
  next => rfl

@[simp] theorem modNear_bks (s : State) (p : Nat) (f : NearTier → NearTier) :
    bks (modNear s p f).panes = bks s.panes := bks_modPane _ _ _ fun _ => rfl

@[simp] theorem modRmo_bks (s : State) (p : Nat) (f : RmoUnit → RmoUnit) :
    bks (modRmo s p f).panes = bks s.panes := bks_modPane _ _ _ fun _ => rfl

@[simp] theorem modGroup_bks (s : State) (lead : Nat) (f : Group → Group) :
    bks (modGroup s lead f).panes = bks s.panes := by rfl

@[simp] theorem tookFree_bks (s : State) :
    bks (tookFree s).panes = bks s.panes := by rfl

@[simp] theorem modPort_bks (s : State) (p : Nat) (f : Port → Port) :
    bks (modPort s p f).panes = bks s.panes := by rfl

@[simp] theorem modTraf_bks (s : State) (p : Nat) (f : PortTraffic → PortTraffic) :
    bks (modTraf s p f).panes = bks s.panes := by rfl

@[simp] theorem modMbx_bks (s : State) (r : Nat) (f : Mailbox → Mailbox) :
    bks (modMbx s r f).panes = bks s.panes := by rfl

@[simp] theorem modFar_bks (s : State) (f : FarTier → FarTier) :
    bks (modFar s f).panes = bks s.panes := by rfl

@[simp] theorem modBlk_bks (s : State) (k : Nat) (f : Block → Block) :
    bks (modBlk s k f).panes = bks s.panes := by rfl

@[simp] theorem modRec_bks (s : State) (f : Recorder → Recorder) :
    bks (modRec s f).panes = bks s.panes := by rfl

@[simp] theorem modLedger_bks (s : State) (e : Nat) (f : TestEntry → TestEntry) :
    bks (modLedger s e f).panes = bks s.panes := by rfl

@[simp] theorem setMsixByte_bks (s : State) (fn : Nat) (o : Nat) (b : Byte) :
    bks (setMsixByte s fn o b).panes = bks s.panes := by rfl

@[simp] theorem foldl_bks {α : Type} (f : State → α → State) (hf : ∀ s a, bks (f s a).panes = bks s.panes) (l : List α)
    (s : State) : bks (l.foldl f s).panes = bks s.panes := by
  induction l generalizing s with
  | nil => rfl
  | cons a l ih => rw [List.foldl_cons, ih, hf]

@[simp] theorem ite_bks (c : Prop) [Decidable c] (a b : State) : bks (if c then a else b).panes = if c then bks a.panes else bks b.panes := by
  split <;> rfl

@[simp] theorem scramble_bks (s : State) (a1 : Nat) (a2 : Nat) (a3 : Nat) :
    bks (scramble s a1 a2 a3).panes = bks s.panes := by
  simp [scramble]

@[simp] theorem deliver_bks (s : State) (a1 : Event) :
    bks (deliver s a1).panes = bks s.panes := by
  simp [deliver]

@[simp] theorem record_bks (s : State) (a1 : Nat) (a2 : Nat) (a3 : Nat) (a4 : List Byte) :
    bks (record s a1 a2 a3 a4).panes = bks s.panes := by
  simp [record]

@[simp] theorem msix_bks (s : State) (a1 : Nat) (a2 : Nat) :
    bks (msix s a1 a2).panes = bks s.panes := by
  simp [msix]

@[simp] theorem queueNotice_bks (s : State) (a1 : Nat) (a2 : Nat) (a3 : BitVec 32) (a4 : BitVec 16) (a5 : Nat) (a6 : Nat) (a7 : Nat) :
    bks (queueNotice s a1 a2 a3 a4 a5 a6 a7).panes = bks s.panes := by
  simp [queueNotice]

@[simp] theorem queueParcel_bks (s : State) (p : Parcel) :
    bks (queueParcel s p).panes = bks s.panes := by
  unfold queueParcel
  split <;> simp

@[simp] theorem sendParcel_bks (s : State) (a1 : Parcel) :
    bks (sendParcel s a1).panes = bks s.panes := by
  unfold sendParcel
  split <;> simp

@[simp] theorem sendMgmt_bks (s : State) (a1 : BitVec 16) (a2 : List Byte) :
    bks (sendMgmt s a1 a2).panes = bks s.panes := by
  simp [sendMgmt]

@[simp] theorem pushSb_bks (s : State) (a1 : SbReply) :
    bks (pushSb s a1).panes = bks s.panes := by
  simp [pushSb]

@[simp] theorem sbReply_bks (s : State) (a1 : BitVec 16) (a2 : FmFragment) :
    bks (sbReply s a1 a2).panes = bks s.panes := by
  simp [sbReply]

@[simp] theorem fmReplyTo_bks (s : State) (a1 : Option (BitVec 16)) (a2 : BitVec 32) (a3 : List Byte) :
    bks (fmReplyTo s a1 a2 a3).panes = bks s.panes := by
  unfold fmReplyTo
  split <;> simp

@[simp] theorem finish_bks (s : State) (a1 : Nat) (a2 : Reply) :
    bks (finish s a1 a2).panes = bks s.panes := by
  unfold finish
  dsimp only
  repeat' split
  all_goals simp

@[simp] theorem orphanWork_bks (s : State) (a1 : Nat) :
    bks (orphanWork s a1).panes = bks s.panes := by
  simp [orphanWork]

@[simp] theorem spoilFar_bks (s : State) (o ofs n : Nat) :
    bks (spoilFar s o ofs n).panes = bks s.panes := by
  simp [spoilFar]

@[simp] theorem leaveUndefined_bks (s : State) (j : Job) :
    bks (leaveUndefined s j).panes = bks s.panes := by
  unfold leaveUndefined
  dsimp only
  repeat' split
  all_goals simp

@[simp] theorem endNow_bks (s : State) (a1 : Nat) (a2 : Ans) :
    bks (endNow s a1 a2).panes = bks s.panes := by
  unfold endNow
  split <;> simp

@[simp] theorem abortLocked_bks (s : State) (a1 : BitVec 16) (a2 : Nat) (a3 : Job → Bool) :
    bks (abortLocked s a1 a2 a3).panes = bks s.panes := by
  simp [abortLocked]

@[simp] theorem endEscape_bks (s : State) (a1 : Ans) :
    bks (endEscape s a1).panes = bks s.panes := by
  unfold endEscape
  split <;> simp

@[simp] theorem endEscapeIf_bks (s : State) (a1 : Job → Bool) (a2 : Ans) :
    bks (endEscapeIf s a1 a2).panes = bks s.panes := by
  unfold endEscapeIf
  split <;> simp

@[simp] theorem abortForEvent_bks (s : State) (a1 : Nat) :
    bks (abortForEvent s a1).panes = bks s.panes := by
  simp [abortForEvent]

@[simp] theorem enterAbort_bks (s : State) (a1 : AbortEntry) :
    bks (enterAbort s a1).panes = bks s.panes := by
  simp [enterAbort]

@[simp] theorem dueAbort_bks (s : State) (a1 : AbortEntry) :
    bks (dueAbort s a1).panes = bks s.panes := by
  simp [dueAbort]

@[simp] theorem detectAbort_bks (s : State) (a1 : BitVec 32) (a2 : Nat) (a3 : Nat) :
    bks (detectAbort s a1 a2 a3).panes = bks s.panes := by
  simp [detectAbort]

@[simp] theorem abortGroup_bks (s : State) (a1 : Group) (a2 : Nat) (a3 : Nat) :
    bks (abortGroup s a1 a2 a3).panes = bks s.panes := by
  simp [abortGroup]

@[simp] theorem appendRec_bks (s : State) (r : JRec) :
    bks (appendRec s r).panes = bks s.panes := by
  simp [appendRec]

@[simp] theorem checkpoint_bks (s : State) :
    bks (checkpoint s).panes = bks s.panes := by
  simp [checkpoint]

@[simp] theorem checkpointIfDue_bks (s : State) :
    bks (checkpointIfDue s).panes = bks s.panes := by
  simp [checkpointIfDue]

@[simp] theorem journal_bks (s : State) (a1 : Nat) (a2 : Nat) (a3 : BitVec 32) (a4 : Nat) (a5 : Nat) (a6 : BitVec 32) (a7 : BitVec 32) (a8 : BitVec 32) :
    bks (journal s a1 a2 a3 a4 a5 a6 a7 a8).panes = bks s.panes := by
  simp [journal]

@[simp] theorem journalBlk_bks (s : State) (a1 : Nat) (a2 : Nat) (a3 : Nat) :
    bks (journalBlk s a1 a2 a3).panes = bks s.panes := by
  simp [journalBlk]

@[simp] theorem openBlk_bks (s : State) (a1 : Nat) (a2 : Nat) (a3 : BlockState) :
    bks (openBlk s a1 a2 a3).panes = bks s.panes := by
  simp [openBlk]

@[simp] theorem takeUnit_bks (s : State) (a1 : Nat) (a2 : Nat) :
    bks (takeUnit s a1 a2).1.panes = bks s.panes := by
  simp [takeUnit]

theorem placeUnit_bks (s : State) (ch : Nat) (st : BlockState) (r : State × BitVec 32)
    (e : placeUnit s ch st = some r) : bks r.1.panes = bks s.panes := by
  unfold placeUnit at e
  split at e
  · obtain rfl := Option.some.inj e
    simp
  · simp only [Option.map_eq_some_iff] at e
    obtain ⟨k, -, rfl⟩ := e
    simp

@[simp] theorem countBlkRead_bks (s : State) (k : Nat) :
    bks (countBlkRead s k).panes = bks s.panes := by
  simp [countBlkRead]

@[simp] theorem countRead_bks (s : State) (a1 : Nat) (a2 : Nat) :
    bks (countRead s a1 a2).panes = bks s.panes := by
  unfold countRead
  split <;> simp

@[simp] theorem addProg_bks (s : State) (g : FarProg) : bks (addProg s g).panes = bks s.panes := by
  unfold addProg
  split
  · rename_i h
    simpa using placeUnit_bks _ _ _ _ h
  · simp

@[simp] theorem progUnit_bks (s : State) (a1 : Nat) (a2 : Nat) (a3 : Nat) (a4 : List Byte) (a5 : Nat) :
    bks (progUnit s a1 a2 a3 a4 a5).panes = bks s.panes := by
  unfold progUnit
  dsimp only
  split
  · rename_i h
    simpa using placeUnit_bks _ _ _ _ h
  · simp

@[simp] theorem farWrite_bks (s : State) (a1 : Nat) (a2 : Nat) (a3 : List Byte) (a4 : FarSink) :
    bks (farWrite s a1 a2 a3 a4).panes = bks s.panes := by
  simp [farWrite]

@[simp] theorem startSpill_bks (s : State) :
    bks (startSpill s).panes = bks s.panes := by
  unfold startSpill
  dsimp only
  repeat' split
  all_goals simp

@[simp] theorem abortUsers_bks (s : State) (a1 : Nat) :
    bks (abortUsers s a1).panes = bks s.panes := by
  unfold abortUsers
  refine foldl_bks _ (fun s a => ?_) _ _
  (repeat' split) <;> simp

@[simp] theorem enterLink_bks (s : State) (a1 : Nat) (a2 : BitVec 4) :
    bks (enterLink s a1 a2).panes = bks s.panes := by
  simp [enterLink]

@[simp] theorem leaveActive_bks (s : State) (a1 : Nat) (a2 : BitVec 4) :
    bks (leaveActive s a1 a2).panes = bks s.panes := by
  simp [leaveActive]

@[simp] theorem portsDown_bks (s : State) :
    bks (portsDown s).panes = bks s.panes := by
  simp [portsDown]

@[simp] theorem park_bks (s : State) :
    bks (park s).panes = bks s.panes := by
  simp [park]

@[simp] theorem startHubTest_bks (s : State) :
    bks (startHubTest s).panes = bks s.panes := by
  simp [startHubTest]

@[simp] theorem parkNext_bks (s : State) :
    bks (parkNext s).panes = bks s.panes := by
  unfold parkNext
  split <;> simp

@[simp] theorem beginPark_bks (s : State) :
    bks (beginPark s).panes = bks s.panes := by
  simp [beginPark]

@[simp] theorem done_bks (s : State) :
    bks (done s).1.panes = bks s.panes := by
  simp [done]

/-! ### `test` -/

@[simp] theorem foldl_test {α : Type} (f : State → α → State) (hf : ∀ s a, (f s a).test = s.test) (l : List α)
    (s : State) : (l.foldl f s).test = s.test := by
  induction l generalizing s with
  | nil => rfl
  | cons a l ih => rw [List.foldl_cons, ih, hf]

@[simp] theorem ite_test (c : Prop) [Decidable c] (a b : State) : (if c then a else b).test = if c then a.test else b.test := by
  split <;> rfl

@[simp] theorem scramble_test (s : State) (a1 : Nat) (a2 : Nat) (a3 : Nat) :
    (scramble s a1 a2 a3).test = s.test := by
  simp [scramble]

@[simp] theorem deliver_test (s : State) (a1 : Event) :
    (deliver s a1).test = s.test := by
  simp [deliver]

@[simp] theorem record_test (s : State) (a1 : Nat) (a2 : Nat) (a3 : Nat) (a4 : List Byte) :
    (record s a1 a2 a3 a4).test = s.test := by
  simp [record]

@[simp] theorem msix_test (s : State) (a1 : Nat) (a2 : Nat) :
    (msix s a1 a2).test = s.test := by
  simp [msix]

@[simp] theorem queueParcel_test (s : State) (p : Parcel) :
    (queueParcel s p).test = s.test := by
  unfold queueParcel
  split <;> simp

@[simp] theorem sendParcel_test (s : State) (a1 : Parcel) :
    (sendParcel s a1).test = s.test := by
  unfold sendParcel
  split <;> simp

@[simp] theorem sendMgmt_test (s : State) (a1 : BitVec 16) (a2 : List Byte) :
    (sendMgmt s a1 a2).test = s.test := by
  simp [sendMgmt]

@[simp] theorem pushSb_test (s : State) (a1 : SbReply) :
    (pushSb s a1).test = s.test := by
  simp [pushSb]

@[simp] theorem sbReply_test (s : State) (a1 : BitVec 16) (a2 : FmFragment) :
    (sbReply s a1 a2).test = s.test := by
  simp [sbReply]

@[simp] theorem fmReplyTo_test (s : State) (a1 : Option (BitVec 16)) (a2 : BitVec 32) (a3 : List Byte) :
    (fmReplyTo s a1 a2 a3).test = s.test := by
  unfold fmReplyTo
  split <;> simp

@[simp] theorem finish_test (s : State) (a1 : Nat) (a2 : Reply) :
    (finish s a1 a2).test = s.test := by
  unfold finish
  dsimp only
  repeat' split
  all_goals simp

@[simp] theorem orphanWork_test (s : State) (a1 : Nat) :
    (orphanWork s a1).test = s.test := by
  simp [orphanWork]

@[simp] theorem spoilFar_test (s : State) (o ofs n : Nat) :
    (spoilFar s o ofs n).test = s.test := by
  simp [spoilFar]

@[simp] theorem leaveUndefined_test (s : State) (j : Job) :
    (leaveUndefined s j).test = s.test := by
  unfold leaveUndefined
  dsimp only
  repeat' split
  all_goals simp

@[simp] theorem endNow_test (s : State) (a1 : Nat) (a2 : Ans) :
    (endNow s a1 a2).test = s.test := by
  unfold endNow
  split <;> simp

@[simp] theorem abortLocked_test (s : State) (a1 : BitVec 16) (a2 : Nat) (a3 : Job → Bool) :
    (abortLocked s a1 a2 a3).test = s.test := by
  simp [abortLocked]

@[simp] theorem endEscape_test (s : State) (a1 : Ans) :
    (endEscape s a1).test = s.test := by
  unfold endEscape
  split <;> simp

@[simp] theorem endEscapeIf_test (s : State) (a1 : Job → Bool) (a2 : Ans) :
    (endEscapeIf s a1 a2).test = s.test := by
  unfold endEscapeIf
  split <;> simp

@[simp] theorem abortForEvent_test (s : State) (a1 : Nat) :
    (abortForEvent s a1).test = s.test := by
  simp [abortForEvent]

@[simp] theorem askTeardown_test (s : State) (a1 : Nat) (a2 : Nat) (a3 : Bool) :
    (askTeardown s a1 a2 a3).test = s.test := by
  simp [askTeardown]

@[simp] theorem goOutOfService_test (s : State) (a1 : Nat) :
    (goOutOfService s a1).test = s.test := by
  simp [goOutOfService]

@[simp] theorem dropCount_test (s : State) (a1 : Nat) (a2 : Nat) :
    (dropCount s a1 a2).test = s.test := by
  simp [dropCount]

@[simp] theorem substCell_test (s : State) (a1 : Nat) (a2 : Nat) :
    (substCell s a1 a2).test = s.test := by
  unfold substCell
  dsimp only
  repeat' split
  all_goals simp

@[simp] theorem losePc_test (s : State) (p l pc : Nat) :
    (losePc s p l pc).test = s.test := by
  simp [losePc]

@[simp] theorem substPc_test (s : State) (a1 : Nat) (a2 : Nat) (a3 : Bool) :
    (substPc s a1 a2 a3).test = s.test := by
  unfold substPc
  dsimp only
  repeat' split
  all_goals simp

@[simp] theorem enterAbort_test (s : State) (a1 : AbortEntry) :
    (enterAbort s a1).test = s.test := by
  simp [enterAbort]

@[simp] theorem dueAbort_test (s : State) (a1 : AbortEntry) :
    (dueAbort s a1).test = s.test := by
  simp [dueAbort]

@[simp] theorem detectAbort_test (s : State) (a1 : BitVec 32) (a2 : Nat) (a3 : Nat) :
    (detectAbort s a1 a2 a3).test = s.test := by
  simp [detectAbort]

@[simp] theorem abortGroup_test (s : State) (a1 : Group) (a2 : Nat) (a3 : Nat) :
    (abortGroup s a1 a2 a3).test = s.test := by
  simp [abortGroup]

@[simp] theorem appendRec_test (s : State) (r : JRec) :
    (appendRec s r).test = s.test := by
  simp [appendRec]

@[simp] theorem checkpoint_test (s : State) :
    (checkpoint s).test = s.test := by
  simp [checkpoint]

@[simp] theorem checkpointIfDue_test (s : State) :
    (checkpointIfDue s).test = s.test := by
  simp [checkpointIfDue]

@[simp] theorem journal_test (s : State) (a1 : Nat) (a2 : Nat) (a3 : BitVec 32) (a4 : Nat) (a5 : Nat) (a6 : BitVec 32) (a7 : BitVec 32) (a8 : BitVec 32) :
    (journal s a1 a2 a3 a4 a5 a6 a7 a8).test = s.test := by
  simp [journal]

@[simp] theorem journalBlk_test (s : State) (a1 : Nat) (a2 : Nat) (a3 : Nat) :
    (journalBlk s a1 a2 a3).test = s.test := by
  simp [journalBlk]

@[simp] theorem openBlk_test (s : State) (a1 : Nat) (a2 : Nat) (a3 : BlockState) :
    (openBlk s a1 a2 a3).test = s.test := by
  simp [openBlk]

@[simp] theorem takeUnit_test (s : State) (a1 : Nat) (a2 : Nat) :
    (takeUnit s a1 a2).1.test = s.test := by
  simp [takeUnit]

theorem placeUnit_test (s : State) (ch : Nat) (st : BlockState) (r : State × BitVec 32)
    (e : placeUnit s ch st = some r) : r.1.test = s.test := by
  unfold placeUnit at e
  split at e
  · obtain rfl := Option.some.inj e
    simp
  · simp only [Option.map_eq_some_iff] at e
    obtain ⟨k, -, rfl⟩ := e
    simp

@[simp] theorem countBlkRead_test (s : State) (k : Nat) :
    (countBlkRead s k).test = s.test := by
  simp [countBlkRead]

@[simp] theorem countRead_test (s : State) (a1 : Nat) (a2 : Nat) :
    (countRead s a1 a2).test = s.test := by
  unfold countRead
  split <;> simp

@[simp] theorem addProg_test (s : State) (g : FarProg) : (addProg s g).test = s.test := by
  unfold addProg
  split
  · rename_i h
    simpa using placeUnit_test _ _ _ _ h
  · simp

@[simp] theorem progUnit_test (s : State) (a1 : Nat) (a2 : Nat) (a3 : Nat) (a4 : List Byte) (a5 : Nat) :
    (progUnit s a1 a2 a3 a4 a5).test = s.test := by
  unfold progUnit
  dsimp only
  split
  · rename_i h
    simpa using placeUnit_test _ _ _ _ h
  · simp

@[simp] theorem farWrite_test (s : State) (a1 : Nat) (a2 : Nat) (a3 : List Byte) (a4 : FarSink) :
    (farWrite s a1 a2 a3 a4).test = s.test := by
  simp [farWrite]

@[simp] theorem startSpill_test (s : State) :
    (startSpill s).test = s.test := by
  unfold startSpill
  dsimp only
  repeat' split
  all_goals simp

@[simp] theorem zeroCells_test (s : State) (a1 : Nat) :
    (zeroCells s a1).test = s.test := by
  simp [zeroCells]

@[simp] theorem abortUsers_test (s : State) (a1 : Nat) :
    (abortUsers s a1).test = s.test := by
  unfold abortUsers
  refine foldl_test _ (fun s a => ?_) _ _
  (repeat' split) <;> simp

@[simp] theorem enterLink_test (s : State) (a1 : Nat) (a2 : BitVec 4) :
    (enterLink s a1 a2).test = s.test := by
  simp [enterLink]

@[simp] theorem leaveActive_test (s : State) (a1 : Nat) (a2 : BitVec 4) :
    (leaveActive s a1 a2).test = s.test := by
  simp [leaveActive]

@[simp] theorem portsDown_test (s : State) :
    (portsDown s).test = s.test := by
  simp [portsDown]

@[simp] theorem zeroNear_test (s : State) (a1 : Nat) :
    (zeroNear s a1).test = s.test := by
  simp [zeroNear]

@[simp] theorem retireCells_test (s : State) (a1 : Nat) (a2 : BitVec 34) :
    (retireCells s a1 a2).test = s.test := by
  simp [retireCells]

@[simp] theorem retirePcs_test (s : State) (a1 : Nat) (a2 : BitVec 68) :
    (retirePcs s a1 a2).test = s.test := by
  simp [retirePcs]

@[simp] theorem reinitPane_test (s : State) (a1 : Nat) :
    (reinitPane s a1).test = s.test := by
  simp [reinitPane]

@[simp] theorem done_test (s : State) :
    (done s).1.test = s.test := by
  simp [done]

/-! ### `store` -/

@[simp] theorem foldl_store {α : Type} (f : State → α → State) (hf : ∀ s a, (f s a).store = s.store) (l : List α)
    (s : State) : (l.foldl f s).store = s.store := by
  induction l generalizing s with
  | nil => rfl
  | cons a l ih => rw [List.foldl_cons, ih, hf]

@[simp] theorem ite_store (c : Prop) [Decidable c] (a b : State) : (if c then a else b).store = if c then a.store else b.store := by
  split <;> rfl

@[simp] theorem scramble_store (s : State) (a1 : Nat) (a2 : Nat) (a3 : Nat) :
    (scramble s a1 a2 a3).store = s.store := by
  simp [scramble]

@[simp] theorem msix_store (s : State) (a1 : Nat) (a2 : Nat) :
    (msix s a1 a2).store = s.store := by
  simp [msix]

@[simp] theorem modMeter_store (s : State) (a1 : Nat) (a2 : Meter → Meter) :
    (modMeter s a1 a2).store = s.store := by
  unfold modMeter
  dsimp only
  repeat' split
  all_goals simp

@[simp] theorem meterEth_store (s : State) (a1 : Nat) (a2 : Nat) :
    (meterEth s a1 a2).store = s.store := by
  simp [meterEth]

@[simp] theorem queueParcel_store (s : State) (p : Parcel) :
    (queueParcel s p).store = s.store := by
  unfold queueParcel
  split <;> simp

@[simp] theorem sendParcel_store (s : State) (a1 : Parcel) :
    (sendParcel s a1).store = s.store := by
  unfold sendParcel
  split <;> simp

@[simp] theorem sendMgmt_store (s : State) (a1 : BitVec 16) (a2 : List Byte) :
    (sendMgmt s a1 a2).store = s.store := by
  simp [sendMgmt]

@[simp] theorem pushSb_store (s : State) (a1 : SbReply) :
    (pushSb s a1).store = s.store := by
  simp [pushSb]

@[simp] theorem sbReply_store (s : State) (a1 : BitVec 16) (a2 : FmFragment) :
    (sbReply s a1 a2).store = s.store := by
  simp [sbReply]

@[simp] theorem fmReplyTo_store (s : State) (a1 : Option (BitVec 16)) (a2 : BitVec 32) (a3 : List Byte) :
    (fmReplyTo s a1 a2 a3).store = s.store := by
  unfold fmReplyTo
  split <;> simp

@[simp] theorem finish_store (s : State) (a1 : Nat) (a2 : Reply) :
    (finish s a1 a2).store = s.store := by
  unfold finish
  dsimp only
  repeat' split
  all_goals simp

@[simp] theorem spoilFar_store (s : State) (o ofs n : Nat) :
    (spoilFar s o ofs n).store = s.store := by
  simp [spoilFar]

@[simp] theorem leaveUndefined_store (s : State) (j : Job) :
    (leaveUndefined s j).store = s.store := by
  unfold leaveUndefined
  dsimp only
  repeat' split
  all_goals simp

@[simp] theorem nearWrite_store (s : State) (a1 : Nat) (a2 : Nat) (a3 : List Byte) :
    (nearWrite s a1 a2 a3).store = s.store := by
  simp [nearWrite]

@[simp] theorem appendRec_store (s : State) (r : JRec) :
    (appendRec s r).store = s.store := by
  simp [appendRec]

@[simp] theorem checkpoint_store (s : State) :
    (checkpoint s).store = s.store := by
  simp [checkpoint]

@[simp] theorem checkpointIfDue_store (s : State) :
    (checkpointIfDue s).store = s.store := by
  simp [checkpointIfDue]

@[simp] theorem journal_store (s : State) (a1 : Nat) (a2 : Nat) (a3 : BitVec 32) (a4 : Nat) (a5 : Nat) (a6 : BitVec 32) (a7 : BitVec 32) (a8 : BitVec 32) :
    (journal s a1 a2 a3 a4 a5 a6 a7 a8).store = s.store := by
  simp [journal]

@[simp] theorem journalBlk_store (s : State) (a1 : Nat) (a2 : Nat) (a3 : Nat) :
    (journalBlk s a1 a2 a3).store = s.store := by
  simp [journalBlk]

@[simp] theorem openBlk_store (s : State) (a1 : Nat) (a2 : Nat) (a3 : BlockState) :
    (openBlk s a1 a2 a3).store = s.store := by
  simp [openBlk]

@[simp] theorem takeUnit_store (s : State) (a1 : Nat) (a2 : Nat) :
    (takeUnit s a1 a2).1.store = s.store := by
  simp [takeUnit]

theorem placeUnit_store (s : State) (ch : Nat) (st : BlockState) (r : State × BitVec 32)
    (e : placeUnit s ch st = some r) : r.1.store = s.store := by
  unfold placeUnit at e
  split at e
  · obtain rfl := Option.some.inj e
    simp
  · simp only [Option.map_eq_some_iff] at e
    obtain ⟨k, -, rfl⟩ := e
    simp

@[simp] theorem countBlkRead_store (s : State) (k : Nat) :
    (countBlkRead s k).store = s.store := by
  simp [countBlkRead]

@[simp] theorem countRead_store (s : State) (a1 : Nat) (a2 : Nat) :
    (countRead s a1 a2).store = s.store := by
  unfold countRead
  split <;> simp

@[simp] theorem addProg_store (s : State) (g : FarProg) : (addProg s g).store = s.store := by
  unfold addProg
  split
  · rename_i h
    simpa using placeUnit_store _ _ _ _ h
  · simp

@[simp] theorem progUnit_store (s : State) (a1 : Nat) (a2 : Nat) (a3 : Nat) (a4 : List Byte) (a5 : Nat) :
    (progUnit s a1 a2 a3 a4 a5).store = s.store := by
  unfold progUnit
  dsimp only
  split
  · rename_i h
    simpa using placeUnit_store _ _ _ _ h
  · simp

@[simp] theorem farWrite_store (s : State) (a1 : Nat) (a2 : Nat) (a3 : List Byte) (a4 : FarSink) :
    (farWrite s a1 a2 a3 a4).store = s.store := by
  simp [farWrite]

@[simp] theorem noteHeld_store (s : State) (a1 : Nat) (a2 : Option Nat) (a3 : List Byte) :
    (noteHeld s a1 a2 a3).store = s.store := by
  unfold noteHeld
  dsimp only
  repeat' split
  all_goals simp

@[simp] theorem writeFrame_store (s : State) (a1 : Option Nat) (a2 : List Byte) :
    (writeFrame s a1 a2).store = s.store := by
  simp [writeFrame]

@[simp] theorem restoreFrame_store (s : State) (a1 : Group) (a2 : List Byte) (a3 : List Byte) :
    (restoreFrame s a1 a2 a3).store = s.store := by
  unfold restoreFrame
  dsimp only
  repeat' split
  all_goals simp

@[simp] theorem done_store (s : State) :
    (done s).1.store = s.store := by
  simp [done]

/-! ### `host` -/

@[simp] theorem foldl_host {α : Type} (f : State → α → State) (hf : ∀ s a, (f s a).host = s.host) (l : List α)
    (s : State) : (l.foldl f s).host = s.host := by
  induction l generalizing s with
  | nil => rfl
  | cons a l ih => rw [List.foldl_cons, ih, hf]

@[simp] theorem ite_host (c : Prop) [Decidable c] (a b : State) : (if c then a else b).host = if c then a.host else b.host := by
  split <;> rfl

@[simp] theorem scramble_host (s : State) (a1 : Nat) (a2 : Nat) (a3 : Nat) :
    (scramble s a1 a2 a3).host = s.host := by
  simp [scramble]

@[simp] theorem deliver_host (s : State) (a1 : Event) :
    (deliver s a1).host = s.host := by
  simp [deliver]

@[simp] theorem record_host (s : State) (a1 : Nat) (a2 : Nat) (a3 : Nat) (a4 : List Byte) :
    (record s a1 a2 a3 a4).host = s.host := by
  simp [record]

@[simp] theorem modMeter_host (s : State) (a1 : Nat) (a2 : Meter → Meter) :
    (modMeter s a1 a2).host = s.host := by
  unfold modMeter
  dsimp only
  repeat' split
  all_goals simp

@[simp] theorem meterEth_host (s : State) (a1 : Nat) (a2 : Nat) :
    (meterEth s a1 a2).host = s.host := by
  simp [meterEth]

@[simp] theorem orphanWork_host (s : State) (a1 : Nat) :
    (orphanWork s a1).host = s.host := by
  simp [orphanWork]

@[simp] theorem spoilFar_host (s : State) (o ofs n : Nat) :
    (spoilFar s o ofs n).host = s.host := by
  simp [spoilFar]

@[simp] theorem leaveUndefined_host (s : State) (j : Job) :
    (leaveUndefined s j).host = s.host := by
  unfold leaveUndefined
  dsimp only
  repeat' split
  all_goals simp

/-! ### `evrec` -/

@[simp] theorem foldl_evrec {α : Type} (f : State → α → State) (hf : ∀ s a, (f s a).evrec = s.evrec) (l : List α)
    (s : State) : (l.foldl f s).evrec = s.evrec := by
  induction l generalizing s with
  | nil => rfl
  | cons a l ih => rw [List.foldl_cons, ih, hf]

@[simp] theorem ite_evrec (c : Prop) [Decidable c] (a b : State) : (if c then a else b).evrec = if c then a.evrec else b.evrec := by
  split <;> rfl

@[simp] theorem appendRec_evrec (s : State) (r : JRec) :
    (appendRec s r).evrec = s.evrec := by
  simp [appendRec]

@[simp] theorem checkpoint_evrec (s : State) :
    (checkpoint s).evrec = s.evrec := by
  simp [checkpoint]

@[simp] theorem checkpointIfDue_evrec (s : State) :
    (checkpointIfDue s).evrec = s.evrec := by
  simp [checkpointIfDue]

@[simp] theorem journal_evrec (s : State) (a1 : Nat) (a2 : Nat) (a3 : BitVec 32) (a4 : Nat) (a5 : Nat) (a6 : BitVec 32) (a7 : BitVec 32) (a8 : BitVec 32) :
    (journal s a1 a2 a3 a4 a5 a6 a7 a8).evrec = s.evrec := by
  simp [journal]

@[simp] theorem journalBlk_evrec (s : State) (a1 : Nat) (a2 : Nat) (a3 : Nat) :
    (journalBlk s a1 a2 a3).evrec = s.evrec := by
  simp [journalBlk]

@[simp] theorem openBlk_evrec (s : State) (a1 : Nat) (a2 : Nat) (a3 : BlockState) :
    (openBlk s a1 a2 a3).evrec = s.evrec := by
  simp [openBlk]

@[simp] theorem takeUnit_evrec (s : State) (a1 : Nat) (a2 : Nat) :
    (takeUnit s a1 a2).1.evrec = s.evrec := by
  simp [takeUnit]

theorem placeUnit_evrec (s : State) (ch : Nat) (st : BlockState) (r : State × BitVec 32)
    (e : placeUnit s ch st = some r) : r.1.evrec = s.evrec := by
  unfold placeUnit at e
  split at e
  · obtain rfl := Option.some.inj e
    simp
  · simp only [Option.map_eq_some_iff] at e
    obtain ⟨k, -, rfl⟩ := e
    simp

@[simp] theorem countBlkRead_evrec (s : State) (k : Nat) :
    (countBlkRead s k).evrec = s.evrec := by
  simp [countBlkRead]

@[simp] theorem countRead_evrec (s : State) (a1 : Nat) (a2 : Nat) :
    (countRead s a1 a2).evrec = s.evrec := by
  unfold countRead
  split <;> simp

@[simp] theorem countReads_evrec (s : State) (o ofs n : Nat) :
    (countReads s o ofs n).evrec = s.evrec := by
  simp [countReads]

@[simp] theorem addProg_evrec (s : State) (g : FarProg) : (addProg s g).evrec = s.evrec := by
  unfold addProg
  split
  · rename_i h
    simpa using placeUnit_evrec _ _ _ _ h
  · simp

@[simp] theorem progUnit_evrec (s : State) (a1 : Nat) (a2 : Nat) (a3 : Nat) (a4 : List Byte) (a5 : Nat) :
    (progUnit s a1 a2 a3 a4 a5).evrec = s.evrec := by
  unfold progUnit
  dsimp only
  split
  · rename_i h
    simpa using placeUnit_evrec _ _ _ _ h
  · simp

@[simp] theorem farWrite_evrec (s : State) (a1 : Nat) (a2 : Nat) (a3 : List Byte) (a4 : FarSink) :
    (farWrite s a1 a2 a3 a4).evrec = s.evrec := by
  simp [farWrite]

/-! ### The freeze of the recorder and what it owes -/

/-- The recorder's freeze, and the records of its own that it owes. -/
def thw (q : Recorder) : Bool × List DueRec := (q.frozen, q.due)

@[simp] theorem thw_ite (c : Prop) [Decidable c] (a b : Recorder) :
    thw (if c then a else b) = if c then thw a else thw b := apply_ite thw c a b

@[simp] theorem thw_mk (q : Recorder) (ring : Mem) (wr : Nat) (segNo : Option Nat) (segRecs : Tbl Nat) (nextRseq : Nat)
    (queue : List (Nat × Event)) (lastAccept : Option (Nat × Nat)) (lost : BitVec 24) (lostSince : Nat) (drops : BitVec 16)
    (stamps : Option ((BitVec 16 × Nat × Nat) × (BitVec 16 × Nat × Nat))) (spilled : Option Nat) (spillQueue : List Nat)
    (spilling : Bool) (limit : Nat) (written suppressed fresh : Tbl Nat) (lastRec : Tbl LastRec) (summed : Nat) :
    thw { ring := ring, wr := wr, segNo := segNo, segRecs := segRecs, nextRseq := nextRseq, queue := queue
          lastAccept := lastAccept, lost := lost, lostSince := lostSince, frozen := q.frozen, drops := drops
          dropStamps := stamps, spilled := spilled, spillQueue := spillQueue, spilling := spilling, limit := limit
          written := written, suppressed := suppressed, fresh := fresh, lastRec := lastRec, summed := summed
          due := q.due } = thw q := rfl

@[simp] theorem thw_modRec (s : State) (f : Recorder → Recorder) : thw (modRec s f).evrec = thw (f s.evrec) := rfl

@[simp] theorem thw_deliver (s : State) (e : Event) : thw (deliver s e).evrec = thw s.evrec := by
  unfold deliver
  dsimp only
  split
  · rfl
  · split
    · rfl
    · rfl

@[simp] theorem tookFree_thw (s : State) :
    thw (tookFree s).evrec = thw s.evrec := by rfl

@[simp] theorem modFar_thw (s : State) (f : FarTier → FarTier) :
    thw (modFar s f).evrec = thw s.evrec := by rfl

@[simp] theorem modBlk_thw (s : State) (k : Nat) (f : Block → Block) :
    thw (modBlk s k f).evrec = thw s.evrec := by rfl

@[simp] theorem foldl_thw {α : Type} (f : State → α → State) (hf : ∀ s a, thw (f s a).evrec = thw s.evrec) (l : List α)
    (s : State) : thw (l.foldl f s).evrec = thw s.evrec := by
  induction l generalizing s with
  | nil => rfl
  | cons a l ih => rw [List.foldl_cons, ih, hf]

@[simp] theorem ite_thw (c : Prop) [Decidable c] (a b : State) : thw (if c then a else b).evrec = if c then thw a.evrec else thw b.evrec := by
  split <;> rfl

@[simp] theorem appendRec_thw (s : State) (r : JRec) :
    thw (appendRec s r).evrec = thw s.evrec := by
  simp [appendRec]

@[simp] theorem checkpoint_thw (s : State) :
    thw (checkpoint s).evrec = thw s.evrec := by
  simp [checkpoint]

@[simp] theorem checkpointIfDue_thw (s : State) :
    thw (checkpointIfDue s).evrec = thw s.evrec := by
  simp [checkpointIfDue]

@[simp] theorem journal_thw (s : State) (a1 : Nat) (a2 : Nat) (a3 : BitVec 32) (a4 : Nat) (a5 : Nat) (a6 : BitVec 32) (a7 : BitVec 32) (a8 : BitVec 32) :
    thw (journal s a1 a2 a3 a4 a5 a6 a7 a8).evrec = thw s.evrec := by
  simp [journal]

@[simp] theorem journalBlk_thw (s : State) (a1 : Nat) (a2 : Nat) (a3 : Nat) :
    thw (journalBlk s a1 a2 a3).evrec = thw s.evrec := by
  simp [journalBlk]

@[simp] theorem openBlk_thw (s : State) (a1 : Nat) (a2 : Nat) (a3 : BlockState) :
    thw (openBlk s a1 a2 a3).evrec = thw s.evrec := by
  simp [openBlk]

@[simp] theorem takeUnit_thw (s : State) (a1 : Nat) (a2 : Nat) :
    thw (takeUnit s a1 a2).1.evrec = thw s.evrec := by
  simp [takeUnit]

theorem placeUnit_thw (s : State) (ch : Nat) (st : BlockState) (r : State × BitVec 32)
    (e : placeUnit s ch st = some r) : thw r.1.evrec = thw s.evrec := by
  unfold placeUnit at e
  split at e
  · obtain rfl := Option.some.inj e
    simp
  · simp only [Option.map_eq_some_iff] at e
    obtain ⟨k, -, rfl⟩ := e
    simp

@[simp] theorem countBlkRead_thw (s : State) (k : Nat) :
    thw (countBlkRead s k).evrec = thw s.evrec := by
  simp [countBlkRead]

@[simp] theorem countRead_thw (s : State) (a1 : Nat) (a2 : Nat) :
    thw (countRead s a1 a2).evrec = thw s.evrec := by
  unfold countRead
  split <;> simp

@[simp] theorem addProg_thw (s : State) (g : FarProg) : thw (addProg s g).evrec = thw s.evrec := by
  unfold addProg
  split
  · rename_i h
    simpa using placeUnit_thw _ _ _ _ h
  · simp

@[simp] theorem progUnit_thw (s : State) (a1 : Nat) (a2 : Nat) (a3 : Nat) (a4 : List Byte) (a5 : Nat) :
    thw (progUnit s a1 a2 a3 a4 a5).evrec = thw s.evrec := by
  unfold progUnit
  dsimp only
  split
  · rename_i h
    simpa using placeUnit_thw _ _ _ _ h
  · simp

@[simp] theorem farWrite_thw (s : State) (a1 : Nat) (a2 : Nat) (a3 : List Byte) (a4 : FarSink) :
    thw (farWrite s a1 a2 a3 a4).evrec = thw s.evrec := by
  simp [farWrite]

@[simp] theorem putRec_thw (s : State) (a1 : Nat) (a2 : Nat) (a3 : Nat) (a4 : List Byte) (a5 : Nat) (a6 : List Byte) :
    thw (putRec s a1 a2 a3 a4 a5 a6).evrec = thw s.evrec := by
  simp [putRec]

@[simp] theorem countLost_thw (s : State) (a1 : Nat) :
    thw (countLost s a1).evrec = thw s.evrec := by
  simp [countLost]

@[simp] theorem newSegment_thw (s : State) :
    thw (newSegment s).evrec = thw s.evrec := by
  simp [newSegment]

@[simp] theorem makeRoom_thw (s : State) (a1 : Nat) :
    thw (makeRoom s a1).evrec = thw s.evrec := by
  simp [makeRoom]

@[simp] theorem addRec_thw (s : State) (a1 : Nat) (a2 : Nat) (a3 : Nat) (a4 : List Byte) (a5 : Nat) (a6 : List Byte) :
    thw (addRec s a1 a2 a3 a4 a5 a6).evrec = thw s.evrec := by
  simp [addRec]

@[simp] theorem writeOwn_thw (s : State) (a1 : DueRec) :
    thw (writeOwn s a1).evrec = thw s.evrec := by
  simp [writeOwn]

@[simp] theorem startSpill_thw (s : State) :
    thw (startSpill s).evrec = thw s.evrec := by
  unfold startSpill
  dsimp only
  repeat' split
  all_goals simp

/-! ### `island` -/

@[simp] theorem foldl_island {α : Type} (f : State → α → State) (hf : ∀ s a, (f s a).island = s.island) (l : List α)
    (s : State) : (l.foldl f s).island = s.island := by
  induction l generalizing s with
  | nil => rfl
  | cons a l ih => rw [List.foldl_cons, ih, hf]

@[simp] theorem ite_island (c : Prop) [Decidable c] (a b : State) : (if c then a else b).island = if c then a.island else b.island := by
  split <;> rfl

@[simp] theorem deliver_island (s : State) (a1 : Event) :
    (deliver s a1).island = s.island := by
  simp [deliver]

@[simp] theorem record_island (s : State) (a1 : Nat) (a2 : Nat) (a3 : Nat) (a4 : List Byte) :
    (record s a1 a2 a3 a4).island = s.island := by
  simp [record]

@[simp] theorem msix_island (s : State) (a1 : Nat) (a2 : Nat) :
    (msix s a1 a2).island = s.island := by
  simp [msix]

/-! ### What the recorder has spilled and has to spill -/

/-- The segment that the recorder spilled last, and those that it has to spill. -/
def spl (q : Recorder) : Option Nat × List Nat := (q.spilled, q.spillQueue)

@[simp] theorem spl_ite (c : Prop) [Decidable c] (a b : Recorder) :
    spl (if c then a else b) = if c then spl a else spl b := apply_ite spl c a b

@[simp] theorem spl_mk (q : Recorder) (ring : Mem) (wr : Nat) (segNo : Option Nat) (segRecs : Tbl Nat) (nextRseq : Nat)
    (queue : List (Nat × Event)) (lastAccept : Option (Nat × Nat)) (lost : BitVec 24) (lostSince : Nat) (drops : BitVec 16)
    (stamps : Option ((BitVec 16 × Nat × Nat) × (BitVec 16 × Nat × Nat))) (frozen : Bool) (due : List DueRec)
    (spilling : Bool) (limit : Nat) (written suppressed fresh : Tbl Nat) (lastRec : Tbl LastRec) (summed : Nat) :
    spl { ring := ring, wr := wr, segNo := segNo, segRecs := segRecs, nextRseq := nextRseq, queue := queue
          lastAccept := lastAccept, lost := lost, lostSince := lostSince, frozen := frozen, drops := drops
          dropStamps := stamps, spilled := q.spilled, spillQueue := q.spillQueue, spilling := spilling, limit := limit
          written := written, suppressed := suppressed, fresh := fresh, lastRec := lastRec, summed := summed
          due := due } = spl q := rfl

@[simp] theorem spl_modRec (s : State) (f : Recorder → Recorder) : spl (modRec s f).evrec = spl (f s.evrec) := rfl

@[simp] theorem spl_deliver (s : State) (e : Event) : spl (deliver s e).evrec = spl s.evrec := by
  unfold deliver
  dsimp only
  split
  · rfl
  · split
    · rfl
    · rfl

@[simp] theorem tookFree_spl (s : State) :
    spl (tookFree s).evrec = spl s.evrec := by rfl

@[simp] theorem modPort_spl (s : State) (p : Nat) (f : Port → Port) :
    spl (modPort s p f).evrec = spl s.evrec := by rfl

@[simp] theorem modTraf_spl (s : State) (p : Nat) (f : PortTraffic → PortTraffic) :
    spl (modTraf s p f).evrec = spl s.evrec := by rfl

@[simp] theorem modFar_spl (s : State) (f : FarTier → FarTier) :
    spl (modFar s f).evrec = spl s.evrec := by rfl

@[simp] theorem modBlk_spl (s : State) (k : Nat) (f : Block → Block) :
    spl (modBlk s k f).evrec = spl s.evrec := by rfl

@[simp] theorem modLedger_spl (s : State) (e : Nat) (f : TestEntry → TestEntry) :
    spl (modLedger s e f).evrec = spl s.evrec := by rfl

@[simp] theorem foldl_spl {α : Type} (f : State → α → State) (hf : ∀ s a, spl (f s a).evrec = spl s.evrec) (l : List α)
    (s : State) : spl (l.foldl f s).evrec = spl s.evrec := by
  induction l generalizing s with
  | nil => rfl
  | cons a l ih => rw [List.foldl_cons, ih, hf]

@[simp] theorem ite_spl (c : Prop) [Decidable c] (a b : State) : spl (if c then a else b).evrec = if c then spl a.evrec else spl b.evrec := by
  split <;> rfl

@[simp] theorem enterAbort_spl (s : State) (a1 : AbortEntry) :
    spl (enterAbort s a1).evrec = spl s.evrec := by
  simp [enterAbort]

@[simp] theorem dueAbort_spl (s : State) (a1 : AbortEntry) :
    spl (dueAbort s a1).evrec = spl s.evrec := by
  simp [dueAbort]

@[simp] theorem detectAbort_spl (s : State) (a1 : BitVec 32) (a2 : Nat) (a3 : Nat) :
    spl (detectAbort s a1 a2 a3).evrec = spl s.evrec := by
  simp [detectAbort]

@[simp] theorem abortGroup_spl (s : State) (a1 : Group) (a2 : Nat) (a3 : Nat) :
    spl (abortGroup s a1 a2 a3).evrec = spl s.evrec := by
  simp [abortGroup]

@[simp] theorem appendRec_spl (s : State) (r : JRec) :
    spl (appendRec s r).evrec = spl s.evrec := by
  simp [appendRec]

@[simp] theorem checkpoint_spl (s : State) :
    spl (checkpoint s).evrec = spl s.evrec := by
  simp [checkpoint]

@[simp] theorem checkpointIfDue_spl (s : State) :
    spl (checkpointIfDue s).evrec = spl s.evrec := by
  simp [checkpointIfDue]

@[simp] theorem journal_spl (s : State) (a1 : Nat) (a2 : Nat) (a3 : BitVec 32) (a4 : Nat) (a5 : Nat) (a6 : BitVec 32) (a7 : BitVec 32) (a8 : BitVec 32) :
    spl (journal s a1 a2 a3 a4 a5 a6 a7 a8).evrec = spl s.evrec := by
  simp [journal]

@[simp] theorem journalBlk_spl (s : State) (a1 : Nat) (a2 : Nat) (a3 : Nat) :
    spl (journalBlk s a1 a2 a3).evrec = spl s.evrec := by
  simp [journalBlk]

@[simp] theorem openBlk_spl (s : State) (a1 : Nat) (a2 : Nat) (a3 : BlockState) :
    spl (openBlk s a1 a2 a3).evrec = spl s.evrec := by
  simp [openBlk]

@[simp] theorem takeUnit_spl (s : State) (a1 : Nat) (a2 : Nat) :
    spl (takeUnit s a1 a2).1.evrec = spl s.evrec := by
  simp [takeUnit]

theorem placeUnit_spl (s : State) (ch : Nat) (st : BlockState) (r : State × BitVec 32)
    (e : placeUnit s ch st = some r) : spl r.1.evrec = spl s.evrec := by
  unfold placeUnit at e
  split at e
  · obtain rfl := Option.some.inj e
    simp
  · simp only [Option.map_eq_some_iff] at e
    obtain ⟨k, -, rfl⟩ := e
    simp

@[simp] theorem countBlkRead_spl (s : State) (k : Nat) :
    spl (countBlkRead s k).evrec = spl s.evrec := by
  simp [countBlkRead]

@[simp] theorem countRead_spl (s : State) (a1 : Nat) (a2 : Nat) :
    spl (countRead s a1 a2).evrec = spl s.evrec := by
  unfold countRead
  split <;> simp

@[simp] theorem addProg_spl (s : State) (g : FarProg) : spl (addProg s g).evrec = spl s.evrec := by
  unfold addProg
  split
  · rename_i h
    simpa using placeUnit_spl _ _ _ _ h
  · simp

@[simp] theorem progUnit_spl (s : State) (a1 : Nat) (a2 : Nat) (a3 : Nat) (a4 : List Byte) (a5 : Nat) :
    spl (progUnit s a1 a2 a3 a4 a5).evrec = spl s.evrec := by
  unfold progUnit
  dsimp only
  split
  · rename_i h
    simpa using placeUnit_spl _ _ _ _ h
  · simp

@[simp] theorem farWrite_spl (s : State) (a1 : Nat) (a2 : Nat) (a3 : List Byte) (a4 : FarSink) :
    spl (farWrite s a1 a2 a3 a4).evrec = spl s.evrec := by
  simp [farWrite]

@[simp] theorem startSpill_spl (s : State) :
    spl (startSpill s).evrec = spl s.evrec := by
  unfold startSpill
  dsimp only
  repeat' split
  all_goals simp

@[simp] theorem abortUsers_spl (s : State) (a1 : Nat) :
    spl (abortUsers s a1).evrec = spl s.evrec := by
  unfold abortUsers
  refine foldl_spl _ (fun s a => ?_) _ _
  (repeat' split) <;> simp

@[simp] theorem enterLink_spl (s : State) (a1 : Nat) (a2 : BitVec 4) :
    spl (enterLink s a1 a2).evrec = spl s.evrec := by
  simp [enterLink]

@[simp] theorem leaveActive_spl (s : State) (a1 : Nat) (a2 : BitVec 4) :
    spl (leaveActive s a1 a2).evrec = spl s.evrec := by
  simp [leaveActive]

@[simp] theorem portsDown_spl (s : State) :
    spl (portsDown s).evrec = spl s.evrec := by
  simp [portsDown]

@[simp] theorem park_spl (s : State) :
    spl (park s).evrec = spl s.evrec := by
  simp [park]

@[simp] theorem startHubTest_spl (s : State) :
    spl (startHubTest s).evrec = spl s.evrec := by
  simp [startHubTest]

@[simp] theorem parkNext_spl (s : State) :
    spl (parkNext s).evrec = spl s.evrec := by
  unfold parkNext
  split <;> simp

end Sys2Proof.Machine
end

end

section
/-! PROOFS. The beat unit (02_beat_and_time.md): markers and lock, the end of a holdover, the beat boundary and the trim. -/

namespace Sys2Proof.Machine

/-! ### Markers (R16, R17, R25, R33) -/

theorem plansRun_loose {s : State} (h : s.time.mode = .unsync ∨ s.time.mode = .freeRun) : plansRun s = false := by
  unfold plansRun
  rcases h with h | h <;> rw [h] <;> rfl

theorem plansRun_bound {s : State} (h : s.time.mode = .locked ∨ s.time.mode = .holdover) : plansRun s = true := by
  unfold plansRun
  rcases h with h | h <;> rw [h] <;> rfl

theorem execBeatMarker_loose {s : State} (h : s.time.mode = .unsync ∨ s.time.mode = .freeRun) (word : BitVec 48)
    (crc : BitVec 8) (whole : Bool) : exec (.beatMarker word crc whole) s =
      .next (looseMarker s word.toNat (whole && beatCrc word.toNat == crc.toNat)) :=
  congrArg Host.Outcome.next (if_neg (ne_true_of_eq_false (plansRun_loose h)))

theorem execBeatMarker_bound {s : State} (h : s.time.mode = .locked ∨ s.time.mode = .holdover) (word : BitVec 48)
    (crc : BitVec 8) (whole : Bool) : exec (.beatMarker word crc whole) s =
      .next (boundMarker s word.toNat (whole && beatCrc word.toNat == crc.toNat)) :=
  congrArg Host.Outcome.next (if_pos (plansRun_bound h))

/-- R25, R19: the counters step to the reference, and the stored trim is in force. -/
theorem enterLocked_time (s : State) (num : Nat) :
    (enterLocked s num).time = { s.time with
      mode := .locked, beat := num, tick := 0, lead := s.time.trim.toNat, trimActive := s.time.trim, lockBeat := some num
      goodMarkers := 0, lastMarker := some (num, (num * 8192 : Nat) - (s.time.trim.toNat : Int)), markerFor := some num
      phaseError := 0, phaseStep := num, stretch := false, runOut := none } := by
  unfold enterLocked
  dsimp only
  split
  · rw [record_time, enterTime_time]
    rfl
  · rw [enterTime_time]
    rfl

/-- The fourth good marker in a row, on time and numbered one above the last, locks the module. -/
theorem looseMarker_locks {s : State} {num n : Nat} {w : Int} (hlast : s.time.lastMarker = some (n, w)) (hnum : num = n + 1)
    (htimely : (nowTicks s - w - 8192).natAbs ≤ 16) (hgood : s.time.goodMarkers = 3) :
    looseMarker s num true =
      enterLocked (modTime s fun t => { t with lastMarker := some (num, nowTicks s) }) num := by
  unfold looseMarker
  simp [hlast, hnum, htimely, hgood]

theorem looseMarker_first {s : State} (hlast : s.time.lastMarker = none) (num : Nat) :
    looseMarker s num true = modTime s fun v => { v with lastMarker := some (num, nowTicks s), goodMarkers := 1 } := by
  unfold looseMarker
  simp [hlast]
  rfl

theorem looseMarker_bad (s : State) (num : Nat) :
    looseMarker s num false = modTime (phaseHit s) fun t => { t with goodMarkers := 0 } := rfl

/-- The fourth valid marker in a row ends a holdover without a step of the counters (R33). -/
theorem boundMarker_locks {s : State} {num : Nat} (hmode : s.time.mode = .holdover) (hon : onTime s num = true) (hpos : 0 < num)
    (hfor : s.time.markerFor = some (num - 1)) (hgood : s.time.goodMarkers = 3) :
    (boundMarker s num true).time = { s.time with
      mode := .locked, lastMarker := some (num, nowTicks s), markerFor := some num, goodMarkers := 0
      phaseError := nowTicks s - ((num * 8192 : Nat) - (s.time.trimActive.toNat : Int)), phaseStep := s.time.beat } := by
  have hne : num - 1 ≠ num := by omega
  unfold boundMarker
  simp [hmode, hon, hfor, hgood, hne]

theorem boundMarker_valid {s : State} {num : Nat} (hmode : s.time.mode = .locked) (hon : onTime s num = true)
    (hfor : s.time.markerFor ≠ some num) : ∃ n, (boundMarker s num true).time =
      { s.time with lastMarker := some (num, nowTicks s), markerFor := some num, goodMarkers := n } := by
  unfold boundMarker
  simp [hmode, hon, hfor]

theorem boundMarker_bad (s : State) (num : Nat) :
    boundMarker s num false = beatHit (modTime s fun t => { t with goodMarkers := 0 }) (markerBeat s) := rfl

/-! ### The end of a holdover (R31) -/

/-- What the end of a holdover looks at in a group: its lead, whether its Plan runs, and how it has ended. -/
def groupKey (g : Group) : Nat × Bool × Option PlanEnd := (leadOf g.members, planRunning g, g.ended)

theorem map_groupKey_of {s t : State} (f : Group → Group) (ht : t.groups = s.groups.map f)
    (hf : ∀ g, groupKey (f g) = groupKey g) : t.groups.map groupKey = s.groups.map groupKey := by
  rw [ht, List.map_map]
  exact List.map_congr_left fun g _ => hf g

theorem groupKey_detectAbort (s : State) (job : BitVec 32) (coll trigger : Nat) :
    (detectAbort s job coll trigger).groups.map groupKey = s.groups.map groupKey := by
  refine map_groupKey_of _ rfl fun g => ?_
  split <;> rfl

theorem groupKey_stopColls (s : State) (g : Group) : (stopColls s g).groups.map groupKey = s.groups.map groupKey := by
  unfold stopColls
  split
  next d r _ _ =>
    refine (map_groupKey_of (s := r.colls.foldl (fun s c => scrambleColl s g d c.index) s) _ rfl fun x => ?_).trans
      (by rw [foldl_groups _ fun s c => scrambleColl_groups ..])
    split
    · cases h : x.run <;> simp [groupKey, planRunning, h]
    · rfl
  next => rfl

/-- R31: a group's Plan is marked as ended by loss of time; nothing else in the groups' keys moves. -/
theorem groupKey_loseTime (s : State) (g : Group) : (loseTime s g).groups.map groupKey =
    (s.groups.map groupKey).map fun k => if k.1 = leadOf g.members then (k.1, k.2.1, some .lostTime) else k := by
  have hfold : (loseTime s g).groups =
      (modGroup (stopColls s g) (leadOf g.members) fun g => { g with ended := some .lostTime }).groups := by
    unfold loseTime
    exact foldl_groups _ (fun s p => by rw [recordAbort_groups, record_groups, setCollStatus_groups]) _ _
  rw [hfold, ← groupKey_stopColls s g, modGroup]
  simp only [List.map_map]
  refine List.map_congr_left fun x _ => ?_
  by_cases h : leadOf x.members = leadOf g.members <;> simp [h, groupKey, planRunning]

/-- Every running Plan whose group is still to come, or has come, ends marked. -/
theorem lostTime_of_loseTimes (l : List Group) (s : State)
    (h : ∀ k ∈ s.groups.map groupKey, k.2.1 = true → k.2.2 = some .lostTime ∨ ∃ g ∈ l, leadOf g.members = k.1) :
    ∀ k ∈ (l.foldl loseTime s).groups.map groupKey, k.2.1 = true → k.2.2 = some .lostTime := by
  induction l generalizing s with
  | nil => exact fun k hk hr => (h k hk hr).resolve_right fun ⟨_, hg, _⟩ => absurd hg List.not_mem_nil
  | cons g l ih =>
    refine ih (loseTime s g) fun k hk hr => ?_
    rw [groupKey_loseTime] at hk
    obtain ⟨k', hk', rfl⟩ := List.mem_map.mp hk
    by_cases hl : k'.1 = leadOf g.members
    · rw [if_pos hl]
      exact .inl rfl
    · rw [if_neg hl] at hr ⊢
      refine (h k' hk' hr).imp_right fun ⟨x, hx, hxl⟩ => ⟨x, (List.mem_cons.mp hx).resolve_left fun e => ?_, hxl⟩
      exact hl (hxl.symm.trans (by rw [e]))

theorem foldl_groupKey_detectAbort (l : List (BitVec 32)) (s : State) :
    (l.foldl (fun s t => detectAbort s t noColl 4) s).groups.map groupKey = s.groups.map groupKey := by
  induction l generalizing s with
  | nil => rfl
  | cons a l ih => exact (ih _).trans (groupKey_detectAbort ..)

/-- The beat unit once the holdover limit has run out. -/
def outOfTime (s : State) : State :=
  let s1 := enterTime (modTime s fun t => { t with goodMarkers := 0, runOut := some t.beat }) .freeRun
  let tags := ((s.groups.filter fun g => g.plan.isSome).map (groupTag s)).eraseDups
  (s.groups.filter planRunning).foldl loseTime (tags.foldl (fun s t => detectAbort s t noColl 4) s1)

theorem outOfTime_time (s : State) : (outOfTime s).time =
    { s.time with mode := .freeRun, goodMarkers := 0, runOut := some s.time.beat } := by
  unfold outOfTime
  rw [foldl_time _ fun s g => loseTime_time .., foldl_time _ fun s t => detectAbort_time .., enterTime_time]
  rfl

theorem outOfTime_groups (s : State) : ∀ g ∈ (outOfTime s).groups, planRunning g = true → g.ended = some .lostTime := by
  intro g hg hrun
  refine lostTime_of_loseTimes (s.groups.filter planRunning) _ (fun k hk hr => .inr ?_) (groupKey g)
    (List.mem_map_of_mem hg) hrun
  rw [foldl_groupKey_detectAbort, enterTime_groups] at hk
  obtain ⟨x, hx, rfl⟩ := List.mem_map.mp hk
  exact ⟨x, List.mem_filter.mpr ⟨hx, hr⟩, rfl⟩

theorem execHoldoverBeat_counts {s : State} (hmode : s.time.mode = .holdover) (hnew : s.time.holdFor ≠ some s.time.beat)
    (hlim : s.time.holdoverBeats.toNat < s.time.episodeLimit) : exec .holdoverBeat s =
      .next (if markerMissed s then beatHit (countHoldover s) s.time.beat else countHoldover s) := by
  refine if_pos ?_
  simp [hmode, hnew, hlim]

theorem execHoldoverBeat_counted {s : State} (h : s.time.holdFor = some s.time.beat) : exec .holdoverBeat s = .next s := by
  refine if_neg ?_
  simp [h]

theorem execHoldoverLimit_counted {s : State} (h : s.time.holdFor = some s.time.beat) :
    exec .holdoverLimitReached s = .next s := by
  refine if_neg ?_
  simp [h]

theorem execHoldoverLimit_reached {s : State} (hmode : s.time.mode = .holdover) (hnew : s.time.holdFor ≠ some s.time.beat)
    (hlim : s.time.episodeLimit ≤ s.time.holdoverBeats.toNat) : exec .holdoverLimitReached s = .next (outOfTime s) := by
  refine if_pos ?_
  simp [hmode, hnew, hlim]

/-! ### The beat boundary (R33, R54) and the trim (R19, R41) -/

theorem correctPhase_keeps (t : BeatUnit) : (correctPhase t).beat = t.beat ∧ (correctPhase t).mode = t.mode ∧
    (correctPhase t).trim = t.trim ∧ (t.phaseError = 0 → correctPhase t = t) := by
  unfold correctPhase
  split
  · exact ⟨rfl, rfl, rfl, fun _ => rfl⟩
  next h =>
    have hne : t.phaseError ≠ 0 := fun e => h (by simp [e])
    split <;> exact ⟨rfl, rfl, rfl, fun e => absurd e hne⟩

/-- The state after a beat boundary of a module that is up. -/
def afterBoundary (s : State) : State :=
  let left := if 0 < s.time.lead then s.time.lead else 8192 - s.time.tick + (if s.time.stretch then 1 else 0)
  let s1 := modTime (islandPass s left) nextBeatCount
  let s2 := checkpointIfDue (powerBoundary (freshBeat (meterBeat s1)))
  let s3 := (List.range 16).foldl contextResetDue s2
  (List.range 16).foldl groupBeat (countPeriods s3)

theorem execBeatBoundary_up {s : State} (h : s.power.hubUp = true) : exec .beatBoundary s = .next (afterBoundary s) := by
  show execBeatBoundary s = _
  unfold execBeatBoundary
  rw [h]
  rfl

theorem execBeatBoundary_down {s : State} (h : s.power.hubUp = false) : exec .beatBoundary s = .next s := by
  show execBeatBoundary s = _
  unfold execBeatBoundary
  rw [h]
  rfl

theorem afterBoundary_time (s : State) : (afterBoundary s).time = nextBeatCount s.time := by
  simp [afterBoundary]

theorem nextBeatCount_keeps (t : BeatUnit) : (nextBeatCount t).mode = t.mode ∧ (nextBeatCount t).trim = t.trim := by
  unfold nextBeatCount
  split
  · exact ⟨rfl, rfl⟩
  · obtain ⟨_, hmode, htrim, _⟩ := correctPhase_keeps { t with beat := t.beat + 1, tick := 0, stretch := false }
    exact ⟨hmode, htrim⟩

theorem nextBeatCount_counts {t : BeatUnit} (h : t.lead = 0) : (nextBeatCount t).beat = t.beat + 1 ∧
    (t.phaseError = 0 → (nextBeatCount t).tick = 0) := by
  have hn : nextBeatCount t = correctPhase { t with beat := t.beat + 1, tick := 0, stretch := false } :=
    if_neg (by omega)
  obtain ⟨hbeat, _, _, hsame⟩ := correctPhase_keeps { t with beat := t.beat + 1, tick := 0, stretch := false }
  rw [hn]
  exact ⟨hbeat, fun he => by rw [hsame he]⟩

/-- A write of `BEAT_TRIM` by an accessor that reaches it. -/
def trimWritten (s : State) (v : BitVec 32) : State :=
  let s1 := modTime s fun t => { t with trim := v.setWidth 12 }
  if plansRun s then
    record s1 0x0102 srcBeat noPane (natLe 2 (v.setWidth 12).toNat ++ natLe 2 s.time.trimActive.toNat)
  else s1

theorem trimWritten_time (s : State) (v : BitVec 32) : (trimWritten s v).time = { s.time with trim := v.setWidth 12 } := by
  unfold trimWritten
  dsimp only
  split
  · exact record_time ..
  · rfl

/-- What the recorder makes of an event turns on the recorder and the instant alone. -/
theorem deliver_evrec_congr {s t : State} (h : t.evrec = s.evrec) (hn : now t = now s) (e : Event) :
    (deliver t e).evrec = (deliver s e).evrec := by
  unfold deliver
  simp only [h, hn]
  split
  · rfl
  · split <;> rfl

theorem record_modTime_trim (s : State) (v : BitVec 12) (code source pane : Nat) (payload : List Byte) :
    (record (modTime s fun t => { t with trim := v }) code source pane payload).evrec =
      (record s code source pane payload).evrec := by
  let t := modTime s fun t => { t with trim := v }
  have hev : t.evrec = s.evrec := rfl
  have hnow : now t = now s := rfl
  exact deliver_evrec_congr hev hnow _

end Sys2Proof.Machine

open Sys2Proof Sys2Proof.Machine

/-- Settles O26: by what a marker is worth in each time state. -/
theorem markersLockTheModule : Obligations.MarkersLockTheModule := by
  unfold Obligations.MarkersLockTheModule
  intro s word crc whole good e u loose
  have hyes (h : good) : (whole && beatCrc word.toNat == crc.toNat) = true := by
    obtain ⟨hw, hc⟩ := h
    rw [hw, hc, beq_self_eq_true, Bool.and_self]
  have hno (h : ¬good) : (whole && beatCrc word.toNat == crc.toNat) = false := by
    refine Bool.eq_false_iff.mpr fun hb => h ?_
    obtain ⟨hw, hc⟩ := Bool.and_eq_true_iff.mp hb
    exact ⟨hw, beq_iff_eq.mp hc⟩
  have hloose (h : loose) {b : Bool} (hb : (whole && beatCrc word.toNat == crc.toNat) = b) :
      e = .next (looseMarker s word.toNat b) := hb ▸ execBeatMarker_loose h word crc whole
  have hbound (h : u.mode = .locked ∨ u.mode = .holdover) {b : Bool} (hb : (whole && beatCrc word.toNat == crc.toNat) = b) :
      e = .next (boundMarker s word.toNat b) := hb ▸ execBeatMarker_bound h word crc whole
  refine ⟨fun hl hg n w hlast hnum htimely hthree => ?_, fun hl hg hlast => ?_, fun hl hb => ?_,
    fun hmode hg hon hpos hfor hthree => ?_, fun hmode hg hon hfor => ?_, fun hmode hb => ?_⟩
  · refine ⟨_, (hloose hl (hyes hg)).trans (congrArg _ (looseMarker_locks hlast hnum htimely hthree)), ?_⟩
    rw [enterLocked_time]
    exact ⟨rfl, rfl, rfl, rfl, rfl⟩
  · exact (hloose hl (hyes hg)).trans (congrArg _ (looseMarker_first hlast _))
  · refine ⟨_, hloose hl (hno hb), ?_⟩
    rw [looseMarker_bad, modTime_time, phaseHit_time]
  · refine ⟨_, hbound (.inr hmode) (hyes hg), ?_⟩
    rw [boundMarker_locks hmode hon hpos hfor hthree]
    exact ⟨rfl, rfl, rfl, rfl⟩
  · obtain ⟨n, htime⟩ := boundMarker_valid hmode hon hfor
    refine ⟨_, hbound (.inl hmode) (hyes hg), ?_⟩
    rw [htime]
    exact ⟨hmode, rfl, rfl⟩
  · refine ⟨_, hbound hmode (hno hb), ?_⟩
    rw [boundMarker_bad, beatHit_time, phaseHit_time]
    split
    next hcount => 
      refine ⟨rfl, rfl, rfl, fun _ => rfl, fun hm hh => ?_⟩
      rcases Bool.or_eq_true_iff.mp hcount with h | h
      · exact absurd (of_decide_eq_true h) hm
      · exact absurd (of_decide_eq_true h) hh
    next hcount =>
      refine ⟨rfl, rfl, rfl, fun h => absurd ?_ hcount, fun _ _ => ⟨rfl, rfl⟩⟩
      rcases h with h | h
      · exact Bool.or_eq_true_iff.mpr (.inl (decide_eq_true h))
      · exact Bool.or_eq_true_iff.mpr (.inr (decide_eq_true h))

/-- Settles O28: by the count of a holdover's beats, and by the marks that the end of the limit leaves. -/
theorem holdoverBeatsAndLimit : Obligations.HoldoverBeatsAndLimit := by
  unfold Obligations.HoldoverBeatsAndLimit
  intro s hmode
  refine ⟨fun hnew hlim => ⟨_, execHoldoverBeat_counts hmode hnew hlim, ?_⟩,
    fun hold => ⟨execHoldoverBeat_counted hold, execHoldoverLimit_counted hold⟩,
    fun hnew hlim => ⟨_, execHoldoverLimit_reached hmode hnew hlim, ?_, ?_, outOfTime_groups s⟩⟩
  · split
    · rw [beatHit_time]
      split
      · rw [countHoldover_time]
        exact ⟨rfl, hmode, rfl⟩
      · rw [phaseHit_time, countHoldover_time]
        exact ⟨rfl, hmode, rfl⟩
    · rw [countHoldover_time]
      exact ⟨rfl, hmode, rfl⟩
  · rw [outOfTime_time]
  · rw [outOfTime_time]

/-- Settles O29: by the beat counter's next number, which nothing else of a boundary touches, and by the write of the trim. -/
theorem beatBoundaryAndTrim : Obligations.BeatBoundaryAndTrim := by
  unfold Obligations.BeatBoundaryAndTrim
  constructor
  · intro s
    refine ⟨execBeatBoundary_down, fun hup => ⟨_, execBeatBoundary_up hup, ?_⟩⟩
    obtain ⟨hmode, htrim⟩ := nextBeatCount_keeps s.time
    rw [afterBoundary_time]
    exact ⟨fun h => (nextBeatCount_counts h).1, fun h => (nextBeatCount_counts h).2, fun h => if_pos h, hmode, htrim⟩
  · intro s v
    refine ⟨fun a ha => ⟨trimWritten s v, ?_, trimWritten_time s v, fun hno => ?_, fun hyes => ?_⟩, rfl, fun n => rfl⟩
    · rcases ha with rfl | rfl <;> rfl
    · exact (congrArg State.evrec (if_neg (ne_true_of_eq_false hno))).trans rfl
    · exact (congrArg State.evrec (if_pos hyes)).trans (record_modTime_trim ..)

end

section
/-! PROOFS. The running of Plans (R21, R54 to R58, R130, R273, R276, R351). -/

namespace Sys2Proof.Machine

/-! ### A group, by its lead -/

theorem groupLed_lead {s : State} {l : Nat} {g : Group} (h : groupLed s l = some g) : leadOf g.members = l :=
  beq_iff_eq.mp (List.find?_some (p := fun g : Group => leadOf g.members == l) h)

theorem map_groupLed (s : State) (l : Nat) :
    (groupLed s l).map groupView = (gvs s.groups).find? fun v => leadOf v.1 == l := by
  rw [gvs, List.find?_map]
  rfl

/-- Where the groups look the same, so does the group of a lead. -/
theorem groupLed_of_gvs {s t : State} (h : gvs t.groups = gvs s.groups) {l : Nat} {g : Group} (hg : groupLed s l = some g) :
    ∃ g', groupLed t l = some g' ∧ groupView g' = groupView g := by
  have hm : (groupLed t l).map groupView = some (groupView g) := by
    rw [map_groupLed, h, ← map_groupLed, hg]
    rfl
  exact Option.map_eq_some_iff.mp hm

theorem groupLed_modRun {s : State} {l : Nat} {g : Group} (hg : groupLed s l = some g) (f : Run → Run) :
    groupLed (modRun s l f) l = some { g with run := g.run.map f } := by
  have h := groupLed_modGroup s l l (fun g => { g with run := g.run.map f }) fun _ => rfl
  rw [if_pos rfl, hg] at h
  exact h

theorem gvs_modRun_congr {s t : State} (h : gvs t.groups = gvs s.groups) (l : Nat) (f : Run → Run) :
    gvs (modRun t l f).groups = gvs (modRun s l f).groups := by
  have key (u : State) : gvs (modRun u l f).groups = (gvs u.groups).map fun v =>
      if leadOf v.1 == l then (v.1, v.2.1, v.2.2.1.map f, v.2.2.2) else v := by
    simp only [gvs, modRun, modGroup, List.map_map]
    refine List.map_congr_left fun g _ => ?_
    by_cases hl : leadOf g.members = l <;> simp [groupView, hl]
  rw [key, key, h]

/-! ### Cells changed together -/

theorem cell_modCell (s : State) (p l q j : Nat) (f : Cell → Cell) : cell (modCell s p l f) q j =
    if cellKey q (physOf s q j) = cellKey p (physOf s p l) then f (cell s p l) else cell s q j :=
  cell_setPhysCell s p (physOf s p l) q (physOf s q j) (f (cell s p l))

/-- What every change makes hold, holds of each cell changed, and goes on to hold of the others. -/
theorem cell_foldl_modCell_of {P : Cell → Prop} {f : Cell → Cell} (hf : ∀ c, P (f c)) (p : Nat) (ls : List Nat) (s : State) :
    (∀ l ∈ ls, P (cell (ls.foldl (fun s l => modCell s p l f) s) p l)) ∧
    ∀ q l, P (cell s q l) → P (cell (ls.foldl (fun s l => modCell s p l f) s) q l) := by
  induction ls generalizing s with
  | nil => exact ⟨fun l hl => absurd hl List.not_mem_nil, fun _ _ h => h⟩
  | cons a ls ih =>
    obtain ⟨hdone, hkept⟩ := ih (modCell s p a f)
    refine ⟨fun l hl => ?_, fun q l h => hkept q l ?_⟩
    · rcases List.mem_cons.mp hl with rfl | hl
      · exact hkept p l (by rw [cell_modCell_self]; exact hf _)
      · exact hdone l hl
    · rw [cell_modCell]
      split
      · exact hf _
      · exact h

theorem cell_modCells_of {P : Cell → Prop} {f : Cell → Cell} (hf : ∀ c, P (f c)) (s : State) (p : Nat) :
    (∀ l, l < 32 → P (cell (modCells s p f) p l)) ∧ ∀ q l, P (cell s q l) → P (cell (modCells s p f) q l) := by
  obtain ⟨hdone, hkept⟩ := cell_foldl_modCell_of (P := P) hf p (List.range 32) s
  exact ⟨fun l hl => hdone l (List.mem_range.mpr hl), hkept⟩

/-- The same, of the panes of a list. -/
theorem cell_foldl_modCells_of {P : Cell → Prop} {f : State → Nat → Cell → Cell} (hf : ∀ s p c, P (f s p c)) (ps : List Nat)
    (s : State) : (∀ p ∈ ps, ∀ l, l < 32 → P (cell (ps.foldl (fun s p => modCells s p (f s p)) s) p l)) ∧
      ∀ q l, P (cell s q l) → P (cell (ps.foldl (fun s p => modCells s p (f s p)) s) q l) := by
  induction ps generalizing s with
  | nil => exact ⟨fun p hp => absurd hp List.not_mem_nil, fun _ _ h => h⟩
  | cons p ps ih =>
    obtain ⟨hdone, hkept⟩ := ih (modCells s p (f s p))
    obtain ⟨hpane, hothers⟩ := cell_modCells_of (P := P) (f := f s p) (hf s p) s p
    rw [List.foldl_cons]
    refine ⟨fun q hq l hl => ?_, fun q l h => hkept q l (hothers q l h)⟩
    rcases List.mem_cons.mp hq with rfl | hq
    · exact hkept q l (hpane l hl)
    · exact hdone q hq l hl

/-! ### A module beat of a run (R54, R57, R58) -/

/-- What a beat may change of a run: it goes on by at most one plan beat, in the same step. -/
def BeatOf (r r' : Run) : Prop :=
  r'.started = r.started ∧ r'.planStep = r.planStep ∧ r'.stepStart = r.stepStart ∧ r'.firstStep = r.firstStep ∧
    r'.nextBeat ≤ r.nextBeat + 1

theorem modPanes_groups (s : State) (m : BitVec 16) (f : Nat → Pane → Pane) : (modPanes s m f).groups = s.groups :=
  foldl_groups _ (fun _ _ => by split <;> rfl) _ _

theorem modPanes_cellView (s : State) (m : BitVec 16) {f : Nat → Pane → Pane}
    (hf : ∀ p x, (f p x).cellSub = x.cellSub ∧ (f p x).ctxFault = x.ctxFault) : cellView (modPanes s m f) = cellView s := by
  refine foldl_cellView (fun s p => ?_) _ _
  split
  · exact modPane_cellView (hf p)
  · rfl

theorem chargeHold_keeps (c : HoldCause) (x : Pane) :
    (chargeHold c x).cellSub = x.cellSub ∧ (chargeHold c x).ctxFault = x.ctxFault := ⟨rfl, rfl⟩

theorem cellView_of_frames {s t : State} (hc : t.cells = s.cells) (hp : t.panes = s.panes) : cellView t = cellView s := by
  unfold cellView pane
  rw [hc, hp]

/-- A run in a held beat. -/
def heldRun (g : Group) (c : HoldCause) (r : Run) : Run :=
  { r with held := some c, holdLog := logHold r.holdLog r.nextBeat
           wantHold := if planModules (g.plan.getD []) = 1 then none else r.wantHold }

theorem holdBeat_effect (s : State) (g : Group) (c : HoldCause) : ∃ f : Run → Run,
    gvs (holdBeat s g c).groups = gvs (modRun s (leadOf g.members) f).groups ∧ (∀ r, BeatOf r (f r)) ∧
    cellView (holdBeat s g c) = cellView s :=
  have hcells : cellView (modPanes s g.members fun _ => chargeHold c) = cellView s :=
    modPanes_cellView s _ fun _ => chargeHold_keeps c
  ⟨heldRun g c, gvs_modRun_congr (congrArg gvs (modPanes_groups s g.members fun _ => chargeHold c)) _ _,
    fun _ => ⟨rfl, rfl, rfl, rfl, Nat.le_succ _⟩, hcells⟩

theorem planBeat_effect (s : State) (g : Group) (d : List Byte) (r : Run) : ∃ f : Run → Run,
    gvs (planBeat s g d r).groups = gvs (modRun s (leadOf g.members) f).groups ∧ (∀ r, BeatOf r (f r)) ∧
    cellView (planBeat s g d r) = cellView s := by
  unfold planBeat
  dsimp only
  split
  · exact ⟨_, abortGroup_gvs .., fun r => ⟨rfl, rfl, rfl, rfl, le_rfl⟩,
      cellView_of_frames (abortGroup_cells ..) (abortGroup_panes ..)⟩
  · exact ⟨_, rfl, fun r => ⟨rfl, rfl, rfl, rfl, le_rfl⟩, rfl⟩

theorem beginBeat_effect (s : State) (g : Group) (d : List Byte) (r : Run) : ∃ f : Run → Run,
    gvs (beginBeat s g d r).groups = gvs (modRun s (leadOf g.members) f).groups ∧ (∀ r, BeatOf r (f r)) ∧
    cellView (beginBeat s g d r) = cellView s := by
  unfold beginBeat
  split
  · split
    · exact planBeat_effect s g d r
    · split
      · exact holdBeat_effect s g .notReady
      · split
        · exact holdBeat_effect ..
        · exact holdBeat_effect ..
        · exact planBeat_effect s g d r
  · split
    · exact holdBeat_effect ..
    · exact planBeat_effect s g d r

/-! ### The start of a Plan (R21, R55) -/

theorem startCells_groups (s : State) (g : Group) : (startCells s g).groups = s.groups :=
  foldl_groups _ (fun _ _ => modCells_groups ..) _ _

/-- The state after an accepted start has reached its epoch. -/
def planStarted (s : State) (lead : Nat) (g : Group) (r : Run) : State :=
  stormBoundary (modRun (startCells s g) lead fun r =>
    { r with started := true, nextBeat := 0, planStep := 0, stormStep := 0, stepStart := s.time.beat }) lead r.firstStep

theorem execPlanEpochStart_starts {s : State} {lead : Pane16} {g : Group} {d : List Byte} {r : Run}
    (hg : groupLed s lead.val = some g) (hp : g.plan = some d) (hr : g.run = some r) (hns : r.started = false)
    (he : g.ended = none) (ha : g.abortDue = none) (hrun : plansRun s = true) (hb : s.time.beat = r.epoch * 4096) :
    exec (.planEpochStart lead) s =
      let s2 := planStarted s lead.val g r
      match groupLed s2 lead.val with
      | some g2 => match g2.run with
        | some r2 => .next (beginBeat s2 g2 d r2)
        | none => .next s2
      | none => .next s2 := by
  show execPlanEpochStart lead s = _
  unfold execPlanEpochStart
  rw [hg]
  dsimp only
  rw [hp, hr]
  dsimp only
  refine if_pos ?_
  simp [hns, he, ha, hrun, hb]

/-- The group as its Plan starts. -/
theorem groupLed_planStarted {s : State} {lead : Nat} {g : Group} {r : Run} (hg : groupLed s lead = some g)
    (hr : g.run = some r) : ∃ g', groupLed (planStarted s lead g r) lead = some g' ∧ g'.members = g.members ∧
      g'.run = some { r with started := true, nextBeat := 0, planStep := 0, stormStep := 0, stepStart := s.time.beat } := by
  have h0 : groupLed (startCells s g) lead = some g := by
    rw [groupLed, startCells_groups]
    exact hg
  obtain ⟨g', hg', hv⟩ := groupLed_of_gvs (t := planStarted s lead g r) (stormBoundary_gvs ..) (groupLed_modRun h0 _)
  obtain ⟨hm, -, hrun, -⟩ := Prod.mk.inj (hv.trans rfl) |>.imp_right fun h => (Prod.mk.inj h).imp_right Prod.mk.inj
  exact ⟨g', hg', hm, hrun.trans (by rw [hr]; rfl)⟩

theorem planStarted_cellView (s : State) (lead : Nat) (g : Group) (r : Run) :
    cellView (planStarted s lead g r) = cellView (startCells s g) :=
  cellView_of_frames (stormBoundary_cells ..) (stormBoundary_panes ..)

theorem startCells_cell (s : State) (g : Group) : ∀ p ∈ maskPanes g.members, ∀ l, l < 32 →
    (cell (startCells s g) p l).halted = false ∧ (cell (startCells s g) p l).running = false ∧
    (cell (startCells s g) p l).seqIdx = 0 ∧ (cell (startCells s g) p l).seqStep = 0 :=
  (cell_foldl_modCells_of (P := fun c => c.halted = false ∧ c.running = false ∧ c.seqIdx = 0 ∧ c.seqStep = 0)
    (fun _ _ _ => ⟨rfl, rfl, rfl, rfl⟩) (maskPanes g.members) s).1

end Sys2Proof.Machine

open Sys2Proof Sys2Proof.Machine

/-- Settles O30: by the start of the run, the copy of its first boundary, and its first beat. -/
theorem planStartsAtItsEpoch : Obligations.PlanStartsAtItsEpoch := by
  unfold Obligations.PlanStartsAtItsEpoch
  intro s lead g d r hg hp hr hns he ha hrun hb
  obtain ⟨g2, hg2, hm2, hr2⟩ := groupLed_planStarted hg hr
  have hexec := execPlanEpochStart_starts hg hp hr hns he ha hrun hb
  dsimp only at hexec
  rw [hg2] at hexec
  dsimp only at hexec
  rw [hr2] at hexec
  obtain ⟨f, hgv, hf, hcells⟩ := beginBeat_effect (planStarted s lead.val g r) g2 d
    { r with started := true, nextBeat := 0, planStep := 0, stormStep := 0, stepStart := s.time.beat }
  rw [groupLed_lead hg2] at hgv
  obtain ⟨g3, hg3, hv3⟩ := groupLed_of_gvs hgv (groupLed_modRun hg2 f)
  have hr3 : g3.run = g2.run.map f := congrArg (fun v => v.2.2.1) hv3
  obtain ⟨hst, hstep, hss, hfs, hnb⟩ := hf { r with
    started := true, nextBeat := 0, planStep := 0, stormStep := 0, stepStart := s.time.beat }
  refine ⟨_, _, hexec, ?_, hst, hstep, hss, hfs, hnb, fun p hpm l hl => ?_⟩
  · rw [hg3, Option.bind_some, hr3, hr2]
    rfl
  · rw [cell_eq_of_cellView (hcells.trans (planStarted_cellView ..))]
    exact startCells_cell s g p hpm l hl

end

section
/-! PROOFS. The end of a plan step (R55, R130, R351), and blocks, slack and the grid beat (R56 to R58, R273, R276). -/

namespace Sys2Proof.Machine

/-! ### Panes and groups changed together -/

theorem pane_modPanes (s : State) (m : BitVec 16) (f : Nat → Pane → Pane) (p : Nat) :
    pane (modPanes s m f) p = if p ∈ maskPanes m then f p (pane s p) else pane s p := by
  have key (n : Nat) : pane ((List.range n).foldl (fun s p => if m.getLsbD p then modPane s p (f p) else s) s) p =
      if p < n ∧ m.getLsbD p = true then f p (pane s p) else pane s p := by
    induction n with
    | zero => simp
    | succ n ih =>
      rw [List.range_succ, List.foldl_append, List.foldl_cons, List.foldl_nil]
      by_cases hn : m.getLsbD n = true
      · rw [if_pos hn, pane_modPane]
        by_cases hp : p = n
        · subst hp
          rw [ih]
          simp [hn]
        · rw [if_neg hp, ih]
          refine if_congr ?_ rfl rfl
          constructor
          · exact fun ⟨h, hb⟩ => ⟨by omega, hb⟩
          · exact fun ⟨h, hb⟩ => ⟨by omega, hb⟩
      · rw [if_neg hn, ih]
        refine if_congr ?_ rfl rfl
        constructor
        · exact fun ⟨h, hb⟩ => ⟨by omega, hb⟩
        · exact fun ⟨h, hb⟩ => ⟨Nat.lt_of_le_of_ne (by omega) fun e => hn (e ▸ hb), hb⟩
  refine (key 16).trans (if_congr ?_ rfl rfl)
  simp [maskPanes]

theorem groupLed_of_modGroup {s t : State} {l : Nat} {g : Group} {f : Group → Group} (hg : groupLed s l = some g)
    (ht : gvs t.groups = gvs (modGroup s l f).groups) (hf : ∀ g, (f g).members = g.members) :
    ∃ g', groupLed t l = some g' ∧ groupView g' = groupView (f g) := by
  have h := groupLed_modGroup s l l f hf
  rw [if_pos rfl, hg] at h
  exact groupLed_of_gvs ht h

theorem paneKey_of_pks {s t : State} (h : pks t.panes = pks s.panes) (p : Nat) : paneKey (pane t p) = paneKey (pane s p) :=
  congrFun h p

/-! ### The end of a Plan (R130) -/

theorem dropRun_gvs (s : State) (g : Group) : gvs (dropRun s g).groups =
    gvs (modGroup (dropFwd s (leadOf g.members)) (leadOf g.members) fun g => { g with run := none, abortDue := none }).groups :=
  foldl_gvs _ (fun _ _ => releaseDue_gvs ..) _ _

theorem dropRun_pks (s : State) (g : Group) : pks (dropRun s g).panes = pks s.panes :=
  foldl_pks _ (fun _ _ => releaseDue_pks ..) _ _

theorem groupLed_dropRun {s : State} {g x : Group} (hx : groupLed s (leadOf g.members) = some x) :
    ∃ g', groupLed (dropRun s g) (leadOf g.members) = some g' ∧ g'.members = x.members ∧ g'.plan = x.plan ∧ g'.run = none ∧
      g'.ended = x.ended := by
  have hfwd : groupLed (dropFwd s (leadOf g.members)) (leadOf g.members) = some x := hx
  obtain ⟨g', hg', hv⟩ := groupLed_of_modGroup hfwd (dropRun_gvs s g) fun _ => rfl
  exact ⟨g', hg', congrArg (·.1) hv, congrArg (·.2.1) hv, congrArg (·.2.2.1) hv, congrArg (·.2.2.2) hv⟩

theorem groupLed_endPlan {s : State} {g x : Group} (hx : groupLed s (leadOf g.members) = some x) (d : List Byte) :
    ∃ g', groupLed (endPlan s g d) (leadOf g.members) = some g' ∧ g'.run = none ∧ g'.ended = some .stopped := by
  obtain ⟨y, hy, hv⟩ := groupLed_of_modGroup
    (t := arriveRef (modGroup s (leadOf g.members) fun g => { g with ended := some .stopped }) g (planDoneLatch d)) hx
    (arriveRef_gvs ..) fun _ => rfl
  obtain ⟨g', hg', -, -, hr, he⟩ := groupLed_dropRun hy
  exact ⟨g', hg', hr, he.trans (congrArg (·.2.2.2) hv)⟩

theorem endPlan_pks (s : State) (g : Group) (d : List Byte) : pks (endPlan s g d).panes = pks s.panes :=
  (dropRun_pks ..).trans (arriveRef_pks ..)

/-! ### The end of a step -/

/-- What a pane counts at the end of a step of `len` beats. -/
def stepCounted (len : Nat) (slow : BitVec 24) (x : Pane) : Pane :=
  { x with regs := { x.regs with
    lastStepBeats := BitVec.ofNat 24 (min (2 ^ 24 - 1) len), slowdown := slow, stepsDone := inc16 x.regs.stepsDone } }

/-- The run in the next step. -/
def nextStep (beat : Nat) (r : Run) : Run :=
  { r with planStep := r.planStep + 1, stormStep := r.planStep + 1, stepStart := beat
           received := r.received.filter fun e => r.planStep ≤ e.1 / 65536
           chunks := r.chunks.filter fun e => r.planStep ≤ e.1 / 2 ^ 48
           extentsDone := [], collsDone := [], normSum := 0, normNan := false }

/-- The state after a step of a group has been counted. -/
def stepEnded (s : State) (lead : Nat) (g : Group) (d : List Byte) (r : Run) : State :=
  let len := s.time.beat - r.stepStart
  let lengths := (len :: g.lengths).take 64
  let s1 := modPanes s g.members fun _ => stepCounted len (slowdownOf lengths (planStepBeats d))
  let s2 := if normBad r then recordSkip s1 g (r.firstStep + r.planStep) else s1
  modGroup s2 lead fun g => { g with lengths := lengths, run := g.run.map (nextStep s.time.beat) }

theorem execStepBoundary_ends {s : State} {lead : Pane16} {g : Group} {d : List Byte} {r : Run}
    (hg : groupLed s lead.val = some g) (hp : g.plan = some d) (hr : g.run = some r) (hst : r.started = true)
    (he : g.ended = none) (hrun : plansRun s = true) (hh : r.held = none)
    (hend : (r.planStep + 1) * planStepBeats d < r.nextBeat) : exec (.stepBoundary lead) s =
      let s3 := stepEnded s lead.val g d r
      if r.stopping || r.stepCount = r.planStep + 1 then .next (endPlan s3 g d)
      else if r.stormStep = r.planStep + 1 then .next s3
      else .next (stormBoundary s3 lead.val (r.firstStep + r.planStep + 1)) := by
  have hcopy : heldForCopy g d r = false := by simp [heldForCopy, hh]
  show execStepBoundary lead s = _
  unfold execStepBoundary
  rw [hg]
  dsimp only
  rw [hp, hr]
  dsimp only
  refine (if_neg ?_).trans ((if_neg (ne_true_of_eq_false hcopy)).trans ((if_pos ?_).trans rfl))
  · simp [hst, he, hrun]
  · simp [hh, hend]

theorem gvs_modGroup_run (s : State) (l : Nat) (lengths : List Nat) (f : Run → Run) :
    gvs (modGroup s l fun g => { g with lengths := lengths, run := g.run.map f }).groups = gvs (modRun s l f).groups := by
  simp only [gvs, modRun, modGroup, List.map_map]
  refine List.map_congr_left fun g _ => ?_
  by_cases hl : leadOf g.members = l <;> simp [groupView, hl]

/-- The panes of a group whose step is counted, with the record of a step that is skipped. -/
theorem recordSkip_if_frame (b : Bool) (s : State) (g : Group) (n : Nat) :
    gvs (if b then recordSkip s g n else s).groups = gvs s.groups ∧
    pks (if b then recordSkip s g n else s).panes = pks s.panes := by
  cases b with
  | true => exact ⟨recordSkip_gvs .., recordSkip_pks ..⟩
  | false => exact ⟨rfl, rfl⟩

theorem stepEnded_gvs (s : State) (lead : Nat) (g : Group) (d : List Byte) (r : Run) :
    gvs (stepEnded s lead g d r).groups = gvs (modRun s lead (nextStep s.time.beat)).groups := by
  unfold stepEnded
  dsimp only
  generalize hs1 : modPanes s g.members _ = s1
  have h1 : s1.groups = s.groups := hs1 ▸ modPanes_groups ..
  obtain ⟨h2, -⟩ := recordSkip_if_frame (normBad r) s1 g (r.firstStep + r.planStep)
  exact (gvs_modGroup_run ..).trans (gvs_modRun_congr (h2.trans (congrArg gvs h1)) _ _)

theorem stepEnded_regs (s : State) (lead : Nat) (g : Group) (d : List Byte) (r : Run) :
    ∀ p ∈ maskPanes g.members, ∃ slow, paneKey (pane (stepEnded s lead g d r) p) =
      paneKey (stepCounted (s.time.beat - r.stepStart) slow (pane s p)) := by
  intro p hp
  unfold stepEnded
  dsimp only
  generalize hslow : slowdownOf _ _ = slow
  generalize hs1 : modPanes s g.members _ = s1
  obtain ⟨-, h2⟩ := recordSkip_if_frame (normBad r) s1 g (r.firstStep + r.planStep)
  refine ⟨slow, (paneKey_of_pks h2 p).trans ?_⟩
  rw [← hs1, pane_modPanes, if_pos hp]

end Sys2Proof.Machine

open Sys2Proof Sys2Proof.Machine

/-- Settles O31: by the step counted in every pane, and the next step of the run or the end of the Plan. -/
theorem stepBoundaryEndsTheStep : Obligations.StepBoundaryEndsTheStep := by
  unfold Obligations.StepBoundaryEndsTheStep
  intro s lead g d r hg hp hr hst he hrun hh hend
  have hexec := execStepBoundary_ends hg hp hr hst he hrun hh hend
  have hlead : leadOf g.members = lead.val := groupLed_lead hg
  obtain ⟨g3, hg3, hv3⟩ := groupLed_of_gvs (stepEnded_gvs s lead.val g d r) (groupLed_modRun hg _)
  have hr3 : g3.run = some (nextStep s.time.beat r) := (congrArg (·.2.2.1) hv3).trans (by rw [groupView, hr]; rfl)
  have he3 : g3.ended = none := (congrArg (·.2.2.2) hv3).trans he
  have hregs {t : State} (ht : pks t.panes = pks (stepEnded s lead.val g d r).panes) : ∀ p ∈ maskPanes g.members,
      (pane t p).regs.stepsDone = inc16 (pane s p).regs.stepsDone ∧
      (pane t p).regs.lastStepBeats = BitVec.ofNat 24 (min (2 ^ 24 - 1) (s.time.beat - r.stepStart)) := by
    intro p hp
    obtain ⟨slow, hkey⟩ := stepEnded_regs s lead.val g d r p hp
    have hreg : (pane t p).regs = _ := congrArg Prod.fst ((paneKey_of_pks ht p).trans hkey)
    rw [hreg]
    exact ⟨rfl, rfl⟩
  by_cases hstop : r.stopping = true ∨ r.stepCount = r.planStep + 1
  · rw [← hlead] at hg3
    obtain ⟨g', hg', hrun', hend'⟩ := groupLed_endPlan hg3 d
    refine ⟨_, g', hexec.trans (if_pos ?_), hlead ▸ hg', hregs (endPlan_pks ..), fun _ => ⟨hrun', hend'⟩,
      fun hns hnc => absurd hstop (by simp [hns, hnc])⟩
    simpa using hstop
  · obtain ⟨hns, hnc⟩ := not_or.mp hstop
    have hgo : exec (.stepBoundary lead) s = if r.stormStep = r.planStep + 1 then .next (stepEnded s lead.val g d r)
        else .next (stormBoundary (stepEnded s lead.val g d r) lead.val (r.firstStep + r.planStep + 1)) :=
      hexec.trans (if_neg (by simpa using hstop))
    obtain ⟨t, ht, hgv, hpk⟩ : ∃ t, exec (.stepBoundary lead) s = .next t ∧
        gvs t.groups = gvs (stepEnded s lead.val g d r).groups ∧ pks t.panes = pks (stepEnded s lead.val g d r).panes := by
      by_cases hstorm : r.stormStep = r.planStep + 1
      · exact ⟨_, hgo.trans (if_pos hstorm), rfl, rfl⟩
      · exact ⟨_, hgo.trans (if_neg hstorm), stormBoundary_gvs .., stormBoundary_pks ..⟩
    obtain ⟨g', hg', hv'⟩ := groupLed_of_gvs hgv hg3
    refine ⟨t, g', ht, hg', hregs hpk, fun h => absurd h hstop, fun _ _ => ⟨nextStep s.time.beat r, (congrArg (·.2.2.1) hv').trans hr3, rfl, rfl, rfl,
      (congrArg (·.2.2.2) hv').trans he3⟩⟩

end

section
/-! PROOFS. Blocks, slack and the grid beat (R56 to R58, R273, R276). -/

namespace Sys2Proof.Machine

section
variable {s : State} {p : Pane16} {l : LCell} {g : Group} {d : List Byte} {r : Run}

/-! ### Blocks (R56, R58) -/

theorem execBlockStart_eq {at' : Nat} (hg : groupOf s p.val = some g) (hp : g.plan = some d) (hr : g.run = some r)
    (hst : r.started = true) (hi : issuesStill s g = true) (hs : slotsRun s = true)
    (hreset : (pane s p.val).resetUntil = none) (hn : nextBlock d r (cell s p.val l.val) = some at') :
    exec (.blockStart p l) s =
      if blockReady s d r (cell s p.val l.val) at' then
        .next (modPane (setCell s p.val l.val (startBlock r (cell s p.val l.val))) p.val fun x => { x with regs :=
          { x.regs with lateMax :=
            BitVec.ofNat 32 (max x.regs.lateMax.toNat (min (2 ^ 32 - 1) (latenessAt s r at'))) } })
      else .next s := by
  show execBlockStart p l s = _
  unfold execBlockStart
  rw [hg]
  dsimp only
  rw [hp, hr]
  dsimp only
  rw [hn]
  simp only [hst, hi, hs, hreset, Option.isNone_none, Bool.and_self, Bool.true_and]

/-- A block begins at its first instruction; the sequencer goes on to the next entry, or to the next step's first. -/
theorem startBlock_eq (r : Run) (c : Cell) : startBlock r c = { c with
    running := true, pc := seqPc (nextEntry c), loops := [], jobStep := r.firstStep + c.seqStep, k0 := r.k0, k1 := r.k1
    seqIdx := if seqLast (nextEntry c) = true then 0 else c.seqIdx + 1
    seqStep := if seqLast (nextEntry c) = true then c.seqStep + 1 else c.seqStep } := by
  unfold startBlock
  by_cases h : seqLast (nextEntry c) = true <;> simp [h]

theorem execSlackExpired_eq (hg : groupOf s p.val = some g) (hp : g.plan = some d) (hr : g.run = some r)
    (hst : r.started = true) (he : g.ended = none) (hrun : plansRun s = true) : exec (.slackExpired p l) s =
      if overdueAt d r (planNow s r) (cell s p.val l.val) then
        .next (modRun s (leadOf g.members) fun r =>
          { r with wantHold := some (r.wantHold.getD (lateCause g d r p.val, s.time.beat)) })
      else .next s := by
  show execSlackExpired p l s = _
  unfold execSlackExpired
  rw [hg]
  dsimp only
  rw [hp, hr]
  simp only [hst, he, hrun, Option.isNone_none, Bool.and_self, Bool.true_and]

/-! ### The grid beat (R57, R273, R276) -/

/-- What a group raises HOLD for at a grid beat. -/
def gridCause (s : State) (g : Group) (d : List Byte) (r : Run) : Option HoldCause :=
  if soonUnready s g d r (2 * holdGrid d) then some .notReady
  else match r.wantHold.filter fun q => q.2 < s.time.beat with
    | some c => some c.1
    | none => overdueCause s g d (atStart r)

theorem execGridBeat_eq (hg : groupOf s p.val = some g) (hp : g.plan = some d) (hr : g.run = some r)
    (hst : r.started = true) (he : g.ended = none) (hrun : plansRun s = true) (hm : planModules d ≠ 1)
    (hb : s.time.beat % holdGrid d = 0) : exec (.gridBeat p) s =
      match gridCause s g d r with
      | some c => .next (raiseHold s g d c)
      | none => .next s := by
  show execGridBeat p s = _
  unfold execGridBeat gridCause
  rw [hg]
  dsimp only
  rw [hp, hr]
  simp only [hst, he, hrun, hm, hb, Option.isNone_none, Bool.and_self, ne_eq, not_false_eq_true, decide_true,
    if_true]
  cases soonUnready s g d r (2 * holdGrid d) with
  | true => rfl
  | false =>
    cases r.wantHold.filter fun q => q.2 < s.time.beat with
    | some c => rfl
    | none => cases overdueCause s g d (atStart r) <;> rfl

theorem gridCause_ne_none_iff : gridCause s g d r ≠ none ↔
    soonUnready s g d r (2 * holdGrid d) = true ∨ (∃ w, r.wantHold = some w ∧ w.2 < s.time.beat) ∨
      overdueCause s g d (atStart r) ≠ none := by
  unfold gridCause
  cases hu : soonUnready s g d r (2 * holdGrid d) with
  | true => simp
  | false =>
    cases hw : r.wantHold with
    | none => simp
    | some w => by_cases hb : w.2 < s.time.beat <;> simp [Option.filter, hb]

end

/-! ### HOLD is raised -/

theorem addPeriod_any (l : List (Nat × HoldCause)) (q : Nat) (c : HoldCause) :
    (addPeriod l q c).any (·.1 == q) = true := by
  unfold addPeriod
  split
  next h =>
    obtain ⟨e, he, hq⟩ := List.any_eq_true.mp h
    refine List.any_eq_true.mpr ⟨_, List.mem_map_of_mem he, ?_⟩
    split
    · exact beq_self_eq_true q
    · exact hq
  next => simp

theorem countGrid_periods (beat grid : Nat) (r : Run) : (countGrid beat grid r).periods = r.periods := by
  unfold countGrid
  split <;> rfl

theorem abortGroup_holds (s : State) (g : Group) (coll trigger : Nat) :
    (abortGroup s g coll trigger).collU.holds = s.collU.holds := by
  unfold abortGroup
  split <;> rfl

/-- A group of a list in which those that pass a test have been changed, its name and its end aside. -/
theorem mem_map_ite {l : List Group} {c : Group → Bool} {f : Group → Group} {x : Group}
    (h : x ∈ l.map fun g => if c g then f g else g) (hf : ∀ g, (f g).members = g.members ∧ (f g).ended = g.ended) :
    ∃ y ∈ l, y.members = x.members ∧ y.ended = x.ended ∧ (c y = true → x = f y) := by
  obtain ⟨y, hy, rfl⟩ := List.mem_map.mp h
  refine ⟨y, hy, ?_⟩
  by_cases hc : c y = true <;> simp [hc, hf]

/-- The state in which HOLD has been raised, before the count of R277 is looked at. -/
def heldJob (s : State) (g : Group) (d : List Byte) (c : HoldCause) : State :=
  let job := groupTag s g
  let beat := s.time.beat
  let u := s.collU
  let s1 := holdJob s job (beat + holdGrid d) (leadOf g.members) c
  let s2 := { s1 with
    collU := { u with
      holds := u.holds ++ [{ job := job, beat := beat, raised := true }]
      holdsRaised := if u.holds.any fun h => h.raised && h.beat == beat then u.holdsRaised else inc16 u.holdsRaised }
    groups := s1.groups.map fun x =>
      if groupTag s x == job then { x with run := x.run.map (countGrid beat (holdGrid d)) } else x }
  modRun s2 (leadOf g.members) fun r => { r with wantHold := r.wantHold.filter fun q => q.2 == beat }

theorem raiseHold_cases (s : State) (g : Group) (d : List Byte) (c : HoldCause) :
    raiseHold s g d c = heldJob s g d c ∨ raiseHold s g d c = abortGroup (heldJob s g d c) g noColl 7 := by
  unfold raiseHold
  dsimp only
  split
  · split
    · exact .inr rfl
    · exact .inl rfl
  · exact .inl rfl

theorem raiseHold_holds (s : State) (g : Group) (d : List Byte) (c : HoldCause) :
    { job := groupTag s g, beat := s.time.beat, raised := true } ∈ (raiseHold s g d c).collU.holds := by
  have h : (raiseHold s g d c).collU.holds = (heldJob s g d c).collU.holds := by
    rcases raiseHold_cases s g d c with h | h
    · rw [h]
    · rw [h, abortGroup_holds]
  rw [h]
  exact List.mem_append_right _ (List.mem_singleton_self _)

theorem raiseHold_gvs (s : State) (g : Group) (d : List Byte) (c : HoldCause) :
    gvs (raiseHold s g d c).groups = gvs (heldJob s g d c).groups := by
  rcases raiseHold_cases s g d c with h | h
  · rw [h]
  · rw [h, abortGroup_gvs]

/-- A run of the job's group is to hold the next period, and a hold asked for earlier has been answered. -/
theorem heldJob_run {s : State} {g : Group} {d : List Byte} {c : HoldCause} {x : Group} {q : Run}
    (hx : x ∈ (heldJob s g d c).groups) (hlead : leadOf x.members = leadOf g.members) (htag : groupTag s x = groupTag s g)
    (he : x.ended = none) (hq : x.run = some q) : q.periods.any (·.1 == s.time.beat + holdGrid d) = true ∧
      ∀ w, q.wantHold = some w → w.2 = s.time.beat := by
  obtain ⟨z, hz, hzm, hze, hzx⟩ := mem_map_ite hx fun _ => ⟨rfl, rfl⟩
  obtain ⟨y, hy, hym, hye, hyz⟩ := mem_map_ite hz fun _ => ⟨rfl, rfl⟩
  obtain ⟨g0, -, h0m, h0e, h0y⟩ := mem_map_ite hy fun _ => ⟨rfl, rfl⟩
  have htag_of {u : Group} (hu : u.members = x.members) : groupTag s u = groupTag s g := by
    rw [← htag, groupTag, groupTag, hu]
  have h3 := hzx (by rw [hzm, hlead, beq_self_eq_true])
  have h2 := hyz (by rw [htag_of (hym.trans hzm), beq_self_eq_true])
  have h1 := h0y (by rw [htag_of (h0m.trans (hym.trans hzm)), h0e, hye, hze, he, beq_self_eq_true]; rfl)
  subst h3 h2 h1
  obtain ⟨r2, hr2, rfl⟩ := Option.map_eq_some_iff.mp hq
  obtain ⟨r1, hr1, rfl⟩ := Option.map_eq_some_iff.mp hr2
  obtain ⟨r0, -, rfl⟩ := Option.map_eq_some_iff.mp hr1
  refine ⟨?_, fun w hw => ?_⟩
  · dsimp only
    rw [countGrid_periods]
    exact addPeriod_any ..
  · obtain ⟨-, hb⟩ := Option.filter_eq_some_iff.mp hw
    exact beq_iff_eq.mp hb

end Sys2Proof.Machine

open Sys2Proof Sys2Proof.Machine

/-- Settles O32: by the block that starts, the hold that a late one asks for, and what a grid beat finds. -/
theorem blocksStartAndLatenessHolds : Obligations.BlocksStartAndLatenessHolds := by
  unfold Obligations.BlocksStartAndLatenessHolds
  constructor
  · intro s p l g d r at' hg hp hr hst hi hs hreset hn c e
    have hexec := execBlockStart_eq hg hp hr hst hi hs hreset hn
    rw [startBlock_eq] at hexec
    exact ⟨fun h => hexec.trans (if_pos h), fun h => hexec.trans (if_neg (ne_true_of_eq_false h))⟩
  · intro s p l g d r hg hp hr hst he hrun must
    have hexec := execSlackExpired_eq (l := l) hg hp hr hst he hrun
    refine ⟨fun h => hexec.trans (if_pos h), fun h => hexec.trans (if_neg (ne_true_of_eq_false h)), fun hm hb => ?_⟩
    have hgrid := execGridBeat_eq hg hp hr hst he hrun hm hb
    refine ⟨fun hmust => ?_, fun hnot => ?_⟩
    · obtain ⟨c, hc⟩ := Option.ne_none_iff_exists'.mp (gridCause_ne_none_iff.mpr hmust)
      rw [hc] at hgrid
      refine ⟨_, hgrid, raiseHold_holds s g d c, fun x hx hl ht hend q hq => ?_⟩
      have hmem : groupView x ∈ gvs (heldJob s g d c).groups := raiseHold_gvs s g d c ▸ List.mem_map_of_mem hx
      obtain ⟨y, hy, hv⟩ := List.mem_map.mp hmem
      have hmem : y.members = x.members := congrArg (·.1) hv
      refine heldJob_run hy (by rw [hmem, hl]) ?_ ((congrArg (·.2.2.2) hv).trans hend) ((congrArg (·.2.2.1) hv).trans hq)
      rw [groupTag, hmem]
      exact ht
    · have hc : gridCause s g d r = none := not_not.mp (mt gridCause_ne_none_iff.mp hnot)
      rw [hc] at hgrid
      exact hgrid

end

section
/-! PROOFS. The ports as links (R224 to R232, R245): training, negotiation, sills, lanes and replays. -/

namespace Sys2Proof.Machine

/-! ### A port and its traffic -/

@[simp] theorem portOf_modPort (s : State) (p q : Nat) (f : Port → Port) :
    portOf (modPort s p f) q = if q = p then f (portOf s p) else portOf s q := tblGet_tblSet _ _ _ _ _

@[simp] theorem portOf_modTraf (s : State) (p q : Nat) (f : PortTraffic → PortTraffic) :
    portOf (modTraf s p f) q = portOf s q := rfl

@[simp] theorem trafOf_modPort (s : State) (p q : Nat) (f : Port → Port) : trafOf (modPort s p f) q = trafOf s q := rfl

@[simp] theorem trafOf_enterLink (s : State) (p q : Nat) (st : BitVec 4) : trafOf (enterLink s p st) q = trafOf s q := rfl

theorem portOf_eq_of_links {s t : State} (h : t.links = s.links) (p : Nat) : portOf t p = portOf s p := by
  rw [portOf, portOf, h]

theorem trafOf_eq_of_links {s t : State} (h : t.links = s.links) (p : Nat) : trafOf t p = trafOf s p := by
  rw [trafOf, trafOf, h]

theorem portOf_enterLink (s : State) (p : Nat) (st : BitVec 4) :
    portOf (enterLink s p st) p = { portOf s p with state := st, since := s.time.beat } :=
  (portOf_modPort ..).trans (if_pos rfl)

theorem leaveActive_links (s : State) (p : Nat) (st : BitVec 4) :
    (leaveActive s p st).links = (modTraf (enterLink s p st) p dropTraffic).links := by
  unfold leaveActive
  dsimp only
  split
  · exact abortUsers_links ..
  · rfl

theorem portOf_leaveActive (s : State) (p : Nat) (st : BitVec 4) : (portOf (leaveActive s p st) p).state = st := by
  rw [portOf_eq_of_links (leaveActive_links ..), portOf_modTraf, portOf_enterLink]

theorem trafOf_leaveActive (s : State) (p : Nat) (st : BitVec 4) :
    trafOf (leaveActive s p st) p = dropTraffic (trafOf s p) := by
  rw [trafOf_eq_of_links (leaveActive_links ..), trafOf_modTraf, if_pos rfl, trafOf_enterLink]

theorem failPort_failed {s : State} {p : Nat} (h : (portOf s p).state = lsFailed) (cause : Nat) :
    failPort s p cause = s := if_pos h

theorem failPort_links {s : State} {p : Nat} (h : (portOf s p).state ≠ lsFailed) (cause : Nat) :
    (failPort s p cause).links = (leaveActive s p lsFailed).links := by
  have hf : failPort s p cause = abandonFailed (portEvent (leaveActive s p lsFailed) p (portOf s p).state lsFailed cause) :=
    if_neg h
  rw [hf, abandonFailed_links, portEvent_links]

/-- R227, R245: a port that fails is in `FAILED`. -/
theorem portOf_failPort (s : State) (p cause : Nat) : (portOf (failPort s p cause) p).state = lsFailed := by
  by_cases h : (portOf s p).state = lsFailed
  · rw [failPort_failed h, h]
  · rw [portOf_eq_of_links (failPort_links h cause), portOf_leaveActive]

/-- What it held of its link goes, unless it has gone before. -/
theorem trafOf_failPort (s : State) (p cause : Nat) : trafOf (failPort s p cause) p =
    if (portOf s p).state = lsFailed then trafOf s p else dropTraffic (trafOf s p) := by
  split
  next h => rw [failPort_failed h]
  next h => rw [trafOf_eq_of_links (failPort_links h cause), trafOf_leaveActive]

theorem portOf_portEvent (s : State) (p q : Nat) (a b : BitVec 4) (cause : Nat) :
    portOf (portEvent s p a b cause) q = portOf s q := portOf_eq_of_links (portEvent_links ..) q

theorem trafOf_record (s : State) (code source pn : Nat) (d : List Byte) (p : Nat) :
    trafOf (record s code source pn d) p = trafOf s p := trafOf_eq_of_links (record_links ..) p

theorem portOf_record (s : State) (code source pn : Nat) (d : List Byte) (p : Nat) :
    portOf (record s code source pn d) p = portOf s p := portOf_eq_of_links (record_links ..) p

theorem portActive_iff (s : State) (p : Nat) : portActive s p = true ↔ (portOf s p).state = 5 := beq_iff_eq

/-! ### Training (R228, Table 09-1) -/

section
variable {s : State} {q : PortId}

theorem execAlignDone_eq (n : Nat) : exec (.alignDone q n) s =
    if (portOf s q.val).state = 3 ∧ n ≤ 4095 then .next (modPort (enterLink s q.val 4) q.val fun x =>
      { x with linkDelay := BitVec.ofNat 12 n }) else .next s := by
  show execAlignDone q n s = _
  unfold execAlignDone
  simp only [Bool.and_eq_true, decide_eq_true_eq]
  rfl

/-- The back-off of a port after one more failed attempt (R228). -/
def backoffBeats (s : State) (x : Port) : Nat :=
  64 * 2 ^ min 6 (x.attempts + 1) + (Config.freeWord s.free).toNat % (64 * 2 ^ min 6 (x.attempts + 1))

theorem backoffBeats_bounds (s : State) (x : Port) : 64 * 2 ^ min 6 (x.attempts + 1) ≤ backoffBeats s x ∧
    backoffBeats s x < 64 * 2 ^ (min 6 (x.attempts + 1) + 1) := by
  have hpos : 0 < 2 ^ min 6 (x.attempts + 1) := Nat.two_pow_pos _
  have hmod := Nat.mod_lt (Config.freeWord s.free).toNat (show 0 < 64 * 2 ^ min 6 (x.attempts + 1) by omega)
  unfold backoffBeats
  rw [Nat.pow_succ]
  omega

theorem execTrainingTimeout_out {b : Nat} (hb : linkBound (portOf s q.val).state = some b)
    (hs : (portOf s q.val).since + b ≤ s.time.beat) (ht : (portOf s q.val).state = 4 → tablesLoaded s = true) :
    exec (.trainingTimeout q) s = .next (modPort (enterLink (tookFree s) q.val lsDown) q.val fun x =>
      { x with attempts := x.attempts + 1, backoff := some (s.time.beat + backoffBeats s (portOf s q.val)) }) := by
  show execTrainingTimeout q s = _
  unfold execTrainingTimeout
  simp only [hb]
  refine if_pos ?_
  rw [decide_eq_true hs, Bool.true_and]
  by_cases hn : (portOf s q.val).state = 4
  · rw [ht hn, Bool.or_true]
  · rw [Bool.or_eq_true]
    exact .inl (bne_iff_ne.mpr hn)

theorem execTrainingTimeout_early {b : Nat} (hb : linkBound (portOf s q.val).state = some b)
    (hs : s.time.beat < (portOf s q.val).since + b) : exec (.trainingTimeout q) s = .next s := by
  show execTrainingTimeout q s = _
  unfold execTrainingTimeout
  simp only [hb]
  refine if_neg ?_
  simp [Nat.not_le.mpr hs]

theorem execTrainingBackoff_over (hu : s.power.hubUp = true) (hp : s.test.parked = false) (ht : s.test.hub ≠ tsActive)
    (hx : (portOf s q.val).state = 0) (hn : portUnused s q.val = false) (hb : retrainBeat s (portOf s q.val) ≤ s.time.beat) :
    exec (.trainingBackoffExpired q) s = .next (enterLink s q.val 1) := by
  refine if_pos ?_
  have hd : (portOf s q.val).state = lsDown := hx
  simp [hu, hp, ht, hd, hn, hb]

theorem execTrainingBackoff_early (hb : s.time.beat < retrainBeat s (portOf s q.val)) :
    exec (.trainingBackoffExpired q) s = .next s := by
  refine if_neg ?_
  simp [Nat.not_le.mpr hb]

/-! ### Negotiation (R227, R229 to R231) -/

variable {peer : Sill}

/-- The state in which a port has noted what its peer offers. -/
def offerNoted (s : State) (p : Nat) (peer : Sill) : State :=
  modTraf s p fun t => { t with peerOffer := BitVec.ofNat 16 (peer.llMajor.toNat + 256 * peer.llMinor.toNat) }

theorem execNegotiateDone_waits (h : (portOf s q.val).state ≠ 4 ∨ tablesLoaded s = false) :
    exec (.negotiateDone q peer) s = .next s := by
  refine if_pos ?_
  rcases h with h | h
  · have hn : (portOf s q.val).state ≠ lsNegotiate := h
    simp [hn]
  · simp [h]

theorem execNegotiateDone_eq (hx : (portOf s q.val).state = 4) (ht : tablesLoaded s = true) :
    exec (.negotiateDone q peer) s =
      let p := q.val
      let s1 := offerNoted s p peer
      let t := trafOf s p
      if peer.llMajor.toNat ≠ ownMajor then .next (portEvent (enterLink s1 p lsCableFault) p lsNegotiate lsCableFault pcVersion)
      else if !cablingOk s p peer then .next (portEvent (enterLink s1 p lsCableFault) p lsNegotiate lsCableFault pcCabling)
      else if !lanesEnough t.lanesRx || !lanesEnough t.lanesTx then
        .next (failPort (modPort s1 p fun x => { x with idleLane := 7 }) p pcLanes)
      else .next (modPort (becomeActive s1 p peer) p (agreed s peer (if t.lanesRx = 0 then t.lanesTx else t.lanesRx))) := by
  have hn : (portOf s q.val).state = lsNegotiate := hx
  refine if_neg ?_
  simp [hn, ht]

theorem majorOk_iff (peer : Sill) : peer.llMajor.toNat = ownMajor ↔ peer.llMajor = 1 := BitVec.toNat_inj (y := 1)

theorem portOf_becomeActive (s : State) (p : Nat) (peer : Sill) : (portOf (becomeActive s p peer) p).state = 5 := by
  rw [becomeActive, portOf_modTraf, portOf_enterLink]
  rfl

theorem trafOf_becomeActive (s : State) (p : Nat) (peer : Sill) : (trafOf (becomeActive s p peer) p).sent = [] ∧
    (trafOf (becomeActive s p peer) p).returned = [] ∧ (trafOf (becomeActive s p peer) p).freed = [] := by
  rw [becomeActive, trafOf_modTraf, if_pos rfl]
  exact ⟨rfl, rfl, rfl⟩

/-! ### The fabric manager's order -/

/-- The state from which a port that is ordered to retrain begins: a failed one has its lanes repaired. -/
def lanesRepaired (s : State) (p : Nat) : State :=
  if (portOf s p).state = lsFailed then modTraf s p fun t => { t with lanesRx := 0, lanesTx := 0, switchAsk := none } else s

theorem portOf_lanesRepaired (s : State) (p : Nat) : portOf (lanesRepaired s p) p = portOf s p := by
  unfold lanesRepaired
  split <;> rfl

theorem lanesRepaired_time (s : State) (p : Nat) : (lanesRepaired s p).time = s.time := by
  unfold lanesRepaired
  split <;> rfl

theorem execPortRetrainingOrder_eq : exec (.portRetrainingOrder q) s =
    if (portOf s q.val).state = 6 ∨ (portOf s q.val).state = 7 then
      .next (modPort (enterLink (lanesRepaired s q.val) q.val lsDetect) q.val fun y =>
        { y with attempts := 0, idleLane := if y.state = lsFailed then 4 else y.idleLane })
    else .next s := by
  show execPortRetrainingOrder q s = _
  unfold execPortRetrainingOrder
  simp only [Bool.or_eq_true, decide_eq_true_eq]
  rfl

end

end Sys2Proof.Machine

open Sys2Proof Sys2Proof.Machine

/-- Settles O33: state by state of Table 09-1, and by what the two ends agree on. -/
theorem trainingAndNegotiation : Obligations.TrainingAndNegotiation := by
  unfold Obligations.TrainingAndNegotiation
  constructor
  · intro s q p x goes
    refine ⟨fun h => if_pos h, fun h => if_neg h, fun h => if_pos h, fun h => if_neg h, fun n h hn => ?_, fun n h => ?_,
      fun b hb hs ht => ?_, fun b hb hs => execTrainingTimeout_early hb hs, execTrainingBackoff_over,
      execTrainingBackoff_early⟩
    · refine ⟨_, (execAlignDone_eq n).trans (if_pos ⟨h, hn⟩), ?_⟩
      rw [portOf_modPort, if_pos rfl, portOf_enterLink]
    · refine (execAlignDone_eq n).trans (if_neg fun ⟨h3, hn⟩ => ?_)
      exact h.elim (fun hne => hne h3) fun hlt => Nat.not_le.mpr hlt hn
    · refine ⟨_, backoffBeats s x, execTrainingTimeout_out hb hs ht, ?_, backoffBeats_bounds s x⟩
      rw [portOf_modPort, if_pos rfl, portOf_enterLink]
      rfl
  · intro s q peer p x
    refine ⟨fun hx ht hmaj hcab => ⟨fun hrx htx => ?_, fun hlanes => ?_⟩, fun hx ht hbad => ?_, execNegotiateDone_waits,
      fun h => ?_, fun h => ?_, fun h6 h7 => ?_⟩
    · have he := execNegotiateDone_eq (peer := peer) hx ht
      refine ⟨_, he.trans ((if_neg (not_not.mpr ((majorOk_iff peer).mpr hmaj))).trans ((if_neg ?_).trans (if_neg ?_))), ?_⟩
      · rw [hcab]
        exact Bool.false_ne_true
      · rw [hrx, htx]
        exact Bool.false_ne_true
      · obtain ⟨hsent, hret, hfreed⟩ := trafOf_becomeActive (offerNoted s q.val peer) q.val peer
        rw [portOf_modPort, if_pos rfl, trafOf_modPort]
        exact ⟨portOf_becomeActive .., rfl, rfl, rfl, hsent, hret, hfreed⟩
    · have he := execNegotiateDone_eq (peer := peer) hx ht
      refine ⟨_, he.trans ((if_neg (not_not.mpr ((majorOk_iff peer).mpr hmaj))).trans ((if_neg ?_).trans (if_pos ?_))),
        portOf_failPort ..⟩
      · rw [hcab]
        exact Bool.false_ne_true
      · rcases hlanes with h | h <;> simp [p, h]
    · have he := execNegotiateDone_eq (peer := peer) hx ht
      by_cases hmaj : peer.llMajor = 1
      · refine ⟨_, he.trans ((if_neg (not_not.mpr ((majorOk_iff peer).mpr hmaj))).trans (if_pos ?_)), ?_⟩
        · rw [hbad.resolve_left (not_not.mpr hmaj)]
          rfl
        · rw [portOf_portEvent, portOf_enterLink]
          rfl
      · refine ⟨_, he.trans (if_pos (mt (majorOk_iff peer).mp hmaj)), ?_⟩
        rw [portOf_portEvent, portOf_enterLink]
        rfl
    · refine ⟨_, execPortRetrainingOrder_eq.trans (if_pos h), ?_⟩
      rw [portOf_modPort, if_pos rfl, portOf_enterLink]
      exact ⟨rfl, rfl, congrArg BeatUnit.beat (lanesRepaired_time s p)⟩
    · refine ⟨_, execPortRetrainingOrder_eq.trans (if_pos (.inr h)), ?_⟩
      have hl : lanesRepaired s p = modTraf s p fun t => { t with lanesRx := 0, lanesTx := 0, switchAsk := none } := if_pos h
      rw [trafOf_modPort, trafOf_enterLink, hl, trafOf_modTraf, if_pos rfl]
      exact ⟨rfl, rfl⟩
    · exact execPortRetrainingOrder_eq.trans (if_neg (not_or.mpr ⟨h6, h7⟩))

end

section
/-! PROOFS. Sills, lanes and replays (R224 to R227, R232, R245). -/

namespace Sys2Proof.Machine

theorem modTraf_congr {s : State} {p : Nat} {f g : PortTraffic → PortTraffic} (h : f (trafOf s p) = g (trafOf s p)) :
    modTraf s p f = modTraf s p g := by rw [modTraf, modTraf, h]

section
variable {s : State} {q : PortId}

/-! ### Sills -/

/-- The traffic of a port that has sent its sill. -/
def sillSent (s : State) (p : Nat) (t : PortTraffic) : PortTraffic :=
  { t with
    txNext := 1, lastSill := some (mkSill s p), switchAsk := none
    switches := match t.switchAsk with
      | some l => t.switches ++ [(s.time.beat + 2, 1, l)]
      | none => t.switches }

theorem execSillTransmit_sends (hu : s.power.hubUp = true) (hs : sillState (portOf s q.val).state = true)
    (hn : (trafOf s q.val).txNext = 0) :
    exec (.sillTransmit q) s = .next (modTraf s q.val (sillSent s q.val)) := by
  refine if_pos ?_
  simp [hu, hs, hn]

theorem execSillTransmit_idle (h : s.power.hubUp = false ∨ sillState (portOf s q.val).state = false ∨
    (trafOf s q.val).txNext ≠ 0) : exec (.sillTransmit q) s = .next s := by
  refine if_neg ?_
  rcases h with h | h | h <;> simp [h]

theorem mkSill_replayReq_length (s : State) (p : Nat) : (mkSill s p).replayReq.length ≤ 16 := by
  unfold mkSill
  simp

variable {m : Sill} {crc : BitVec 32}

theorem execSillReceived_down (h : portActive s q.val = false) : exec (.sillReceived q m crc) s = .next s := by
  refine if_pos ?_
  simp [h]

theorem execSillReceived_up (h : portActive s q.val = true) : exec (.sillReceived q m crc) s =
    if crc.toNat ≠ sillCrc m then
      if 1 ≤ (trafOf s q.val).badSills then .next (outOfStep s q.val)
      else .next (modTraf s q.val fun t => { t with badSills := t.badSills + 1, rxBeat := t.rxBeat + 1 })
    else if (sillResidual s q.val).1 < -128 || 128 < (sillResidual s q.val).1 then .next (outOfStep s q.val)
    else if comparable (timeCode s.time.mode) && comparable m.timeState.toNat
        && m.beat.toNat != (sillResidual s q.val).2 then .next (outOfStep s q.val)
    else .next (readSill s q.val m) := by
  refine if_neg ?_
  simp [h]

theorem comparable_iff (c : Nat) : comparable c = true ↔ c = 1 ∨ c = 2 := by
  simp [comparable, timeCode]

/-- The credits that a sill returns, class by class. -/
theorem tblGet_credits {r : Tbl Nat} (h : tblWf 0 r = true) (v : Nat → Nat) {c : Nat} (hc : c < 4) :
    tblGet 0 ((List.range 4).foldl (fun r c => tblPut 0 r c (v c)) r) c = v c := by
  have key (l : List Nat) (r : Tbl Nat) (h : tblWf 0 r = true) (hget : c ∈ l ∨ tblGet 0 r c = v c) :
      tblGet 0 (l.foldl (fun r c => tblPut 0 r c (v c)) r) c = v c := by
    induction l generalizing r with
    | nil => exact hget.resolve_left List.not_mem_nil
    | cons a l ih =>
      refine ih _ (tblWf_tblPut _ _ _ _ h) ?_
      by_cases ha : c = a
      · rw [ha, tblGet_tblPut_self _ _ _ _ h]
        exact .inr rfl
      · rw [tblGet_tblPut_ne _ _ _ _ _ ha]
        exact hget.imp_left fun hm => (List.mem_cons.mp hm).resolve_left ha
  exact key _ r h (.inl (List.mem_range.mpr hc))

theorem trafOf_readSill (s : State) (p : Nat) (x : Sill) : (trafOf (readSill s p x) p).badSills = 0 ∧
    (trafOf (readSill s p x) p).rxBeat = x.beat.toNat ∧ (trafOf (readSill s p x) p).returned =
      (List.range 4).foldl (fun r c => tblPut 0 r c (x.creditRet.getD c 0).toNat) (trafOf s p).returned := by
  rw [readSill, trafOf_modTraf, if_pos rfl]
  exact ⟨rfl, rfl, rfl⟩

theorem portOf_outOfStep (s : State) (p : Nat) : (portOf (outOfStep s p) p).state = 3 := portOf_leaveActive ..

/-! ### Lanes (R226, R227) -/

/-- The lanes of the direction that a port sends in, after a switch. -/
def lanesAfter (s : State) (p : Nat) (w : Nat × Nat × Nat) : BitVec 5 :=
  if w.2.1 = 0 then (trafOf s p).lanesTx ||| (1#5 <<< w.2.2) else (trafOf s p).lanesTx

/-- The state in which a switch has been taken off the list. -/
def switchTaken (p : Nat) (s : State) (w : Nat × Nat × Nat) : State :=
  modTraf s p fun t =>
    { t with switches := t.switches.erase w, lanesTx := if w.2.1 = 0 then t.lanesTx ||| (1#5 <<< w.2.2) else t.lanesTx }

theorem trafOf_switchTaken (p : Nat) (s : State) (w : Nat × Nat × Nat) :
    (trafOf (switchTaken p s w) p).switches = (trafOf s p).switches.erase w ∧
    (trafOf (switchTaken p s w) p).lanesTx = lanesAfter s p w := by
  rw [switchTaken, trafOf_modTraf, if_pos rfl]
  exact ⟨rfl, rfl⟩

theorem switchLane_eq (p : Nat) (s : State) (w : Nat × Nat × Nat) : switchLane p s w =
    if lanesEnough (lanesAfter s p w) = true then
      record (modPort (switchTaken p s w) p fun x => { x with idleLane := BitVec.ofNat 3 w.2.2 }) 0x0402 (srcPort p) noPane
        (natLe 1 p ++ natLe 1 w.2.1 ++ natLe 1 w.2.2)
    else failPort (modPort (switchTaken p s w) p fun x => { x with idleLane := 7 }) p pcLanes := by
  obtain ⟨-, hl⟩ := trafOf_switchTaken p s w
  unfold switchLane
  change (if (!lanesEnough (trafOf (switchTaken p s w) p).lanesTx) = true then _ else _) = _
  rw [hl]
  cases lanesEnough (lanesAfter s p w) with
  | true => rfl
  | false => rfl

/-- A port that fails keeps its lanes. -/
theorem trafOf_failPort_keeps (s : State) (p cause : Nat) :
    (trafOf (failPort s p cause) p).lanesTx = (trafOf s p).lanesTx ∧
    ((trafOf s p).switches = [] → (trafOf (failPort s p cause) p).switches = []) := by
  rw [trafOf_failPort]
  split
  · exact ⟨rfl, id⟩
  · exact ⟨rfl, fun _ => rfl⟩

theorem execLaneSwitch_none (h : ∀ w ∈ (trafOf s q.val).switches, s.time.beat < w.1) :
    exec (.laneSwitch q) s = .next s := by
  have hf : ((trafOf s q.val).switches.filter fun w => w.1 ≤ s.time.beat) = [] :=
    List.filter_eq_nil_iff.mpr fun w hw => by simpa using h w hw
  show execLaneSwitch q s = _
  unfold execLaneSwitch
  rw [hf]
  rfl

theorem execLaneSwitch_one {w : Nat × Nat × Nat} (h : (trafOf s q.val).switches = [w]) (hb : w.1 ≤ s.time.beat) :
    exec (.laneSwitch q) s = .next (switchLane q.val s w) := by
  show execLaneSwitch q s = _
  unfold execLaneSwitch
  rw [h, List.filter_cons_of_pos (by simpa using hb)]
  rfl

/-! ### Replays (R245) -/

theorem execReplayTimeout_due (hp : portActive s q.val = true) (h : ∃ w ∈ (trafOf s q.val).wanted, w.since + 8 < s.time.beat) :
    exec (.replayTimeout q) s = .next (failPort s q.val pcReplay) := by
  refine if_pos ?_
  obtain ⟨w, hw, hb⟩ := h
  rw [hp, Bool.true_and]
  exact List.any_eq_true.mpr ⟨w, hw, decide_eq_true hb⟩

theorem execReplayTimeout_idle (h : portActive s q.val = false ∨
    ∀ w ∈ (trafOf s q.val).wanted, s.time.beat ≤ w.since + 8) : exec (.replayTimeout q) s = .next s := by
  refine if_neg ?_
  rcases h with h | h
  · simp [h]
  · simpa using fun _ => h

end

end Sys2Proof.Machine

open Sys2Proof Sys2Proof.Machine

/-- Settles O34: by the sill that a port sends and what one that arrives is worth, by the lane switch that is due, and by
the request that has waited too long. -/
theorem sillsLanesAndReplays : Obligations.SillsLanesAndReplays := by
  unfold Obligations.SillsLanesAndReplays
  constructor
  · intro s q m crc p recv due intact timely locked agrees
    refine ⟨fun hu hs hn => ?_, execSillTransmit_idle, execSillReceived_down, fun hact => ?_⟩
    · refine ⟨_, mkSill s p, execSillTransmit_sends hu hs hn, ?_⟩
      rw [trafOf_modTraf, if_pos rfl]
      exact ⟨rfl, rfl, rfl, rfl, rfl, mkSill_replayReq_length s p, rfl⟩
    · have he : recv = _ := execSillReceived_up hact
      have htimely : (decide (due.1 < -128) || decide (128 < due.1)) = true ↔ ¬timely := by
        simp only [Bool.or_eq_true, decide_eq_true_eq]
        omega
      have hagrees : (comparable (timeCode s.time.mode) && comparable m.timeState.toNat && m.beat.toNat != due.2) = true ↔
          ¬agrees := by
        simp only [Bool.and_eq_true, comparable_iff, bne_iff_ne]
        exact ⟨fun ⟨⟨h1, h2⟩, h3⟩ h => h3 (h h1 h2), fun h => by
          by_cases h1 : locked (timeCode s.time.mode)
          · by_cases h2 : locked m.timeState.toNat
            · exact ⟨⟨h1, h2⟩, fun h3 => h fun _ _ => h3⟩
            · exact absurd (fun _ h' => absurd h' h2) h
          · exact absurd (fun h' => absurd h' h1) h⟩
      refine ⟨fun hi ht ha => ?_, fun hi hbad => ?_, fun hi h0 => ?_, fun hi h1 => ?_⟩
      · refine ⟨readSill s p m, he.trans ((if_neg (not_not.mpr hi)).trans ((if_neg ?_).trans (if_neg ?_))), hact, ?_⟩
        · exact fun h => htimely.mp h ht
        · exact fun h => hagrees.mp h ha
        · obtain ⟨hbad, hrx, hret⟩ := trafOf_readSill s p m
          refine ⟨hbad, hrx, fun c hc hwf => ?_⟩
          rw [hret]
          exact tblGet_credits hwf (fun c => (m.creditRet.getD c 0).toNat) hc
      · refine ⟨outOfStep s p, he.trans ((if_neg (not_not.mpr hi)).trans ?_), portOf_outOfStep s p⟩
        by_cases ht : timely
        · exact (if_neg fun h => htimely.mp h ht).trans (if_pos (hagrees.mpr fun ha => hbad ⟨ht, ha⟩))
        · exact if_pos (htimely.mpr ht)
      · refine he.trans ((if_pos hi).trans ((if_neg ?_).trans ?_))
        · rw [h0]
          decide
        · exact congrArg _ (modTraf_congr (by rw [h0]))
      · exact ⟨outOfStep s p, he.trans ((if_pos hi).trans (if_pos h1)), portOf_outOfStep s p⟩
  · intro s q p sw
    refine ⟨execLaneSwitch_none, fun w hw hb => ?_, fun hact hlate => ?_,
      execReplayTimeout_idle⟩
    · intro tx
      refine ⟨_, execLaneSwitch_one hw hb, ?_⟩
      obtain ⟨hsw, hlanes⟩ := trafOf_switchTaken p s w
      have hsw : (trafOf (switchTaken p s w) p).switches = [] := hsw.trans ((congrArg (List.erase · w) hw).trans (List.erase_cons_head ..))
      rw [switchLane_eq]
      split
      next hl =>
        rw [trafOf_record, portOf_record, trafOf_modPort, portOf_modPort, if_pos rfl]
        exact ⟨hsw, hlanes, fun _ => ⟨rfl, rfl⟩, fun hf => absurd (hf.symm.trans hl) Bool.false_ne_true⟩
      next hl =>
        obtain ⟨hkeep, hnone⟩ := trafOf_failPort_keeps
          (modPort (switchTaken p s w) p fun x => { x with idleLane := 7 }) p pcLanes
        exact ⟨hnone hsw, hkeep.trans hlanes, fun hf => absurd hf hl, fun _ => portOf_failPort ..⟩
    · refine ⟨_, execReplayTimeout_due hact hlate, portOf_failPort .., ?_⟩
      have hne : (portOf s p).state ≠ lsFailed := by
        rw [(portActive_iff s p).mp hact]
        decide
      rw [trafOf_failPort, if_neg hne]
      rfl

end


section
/-! PROOFS. The slots that a port sends and receives (R224, R233, R238, R242, R243). -/

namespace Sys2Proof.Machine

/-! ### What leaves a port -/

/-- What a slot's header takes from its sender, and the sender's place in the beat. -/
def sender (s : State) (p : Nat) : BeatUnit × PowerUnit × Bool × Nat := (s.time, s.power, tks s.links p)

/-- Port `p` has sent a block for slot `n` of the present beat; its place in the beat stays. -/
def Sent (s t : State) (p n : Nat) : Prop :=
  ∃ z h payload, (trafOf t p).lastSlot = some (mkSlot z p n h payload) ∧ sender z p = sender s p ∧
    (trafOf t p).txNext = (trafOf s p).txNext

theorem sender_of_frames {s t : State} (p : Nat) (h1 : t.time = s.time) (h2 : t.power = s.power)
    (h3 : tks t.links = tks s.links) : sender t p = sender s p := by rw [sender, sender, h1, h2, h3]

theorem Sent.of_sender {s t u : State} {p n : Nat} (h : Sent t u p n) (hs : sender t p = sender s p) : Sent s u p n := by
  obtain ⟨z, hd, pl, hl, hz, hn⟩ := h
  have htx : (trafOf t p).txNext = (trafOf s p).txNext := congrArg (fun x => x.2.2.2) hs
  exact ⟨z, hd, pl, hl, hz.trans hs, hn.trans htx⟩

/-- The flags of a header leave what the slot is, and whose it is. -/
theorem withFlags_keeps (s : State) (n : Nat) (h : SlotHdr) :
    (withFlags s n h).slotNo = h.slotNo ∧ (withFlags s n h).beat = h.beat ∧ (withFlags s n h).srcDevice = h.srcDevice ∧
      (withFlags s n h).cvPresent = h.cvPresent ∧ (withFlags s n h).kind = h.kind := by
  unfold withFlags
  dsimp only
  split <;> split <;> exact ⟨rfl, rfl, rfl, rfl, rfl⟩

theorem mkSlot_hdr (s : State) (p n : Nat) (h : SlotHdr) (payload : List Byte) :
    (mkSlot s p n h payload).hdr.slotNo = BitVec.ofNat 8 n ∧
      (mkSlot s p n h payload).hdr.beat = BitVec.ofNat 48 s.time.beat ∧
      (mkSlot s p n h payload).hdr.srcDevice = moduleId s ∧
      (mkSlot s p n h payload).hdr.cvPresent = (portOf s p).cvMode ∧ (mkSlot s p n h payload).hdr.kind = h.kind :=
  withFlags_keeps s n _

theorem mkSlot_payload (s : State) (p n : Nat) (h : SlotHdr) (payload : List Byte) :
    (mkSlot s p n h payload).payload = payload := rfl

theorem trafOf_emit (s : State) (p n : Nat) (h : SlotHdr) (payload : List Byte) : trafOf (emit s p n h payload) p =
    { trafOf s p with
      lastSlot := some (mkSlot s p n h payload)
      store := ((trafOf s p).store.filter fun y => s.time.beat ≤ y.beat + 3) ++
        [{ beat := s.time.beat, img := mkSlot s p n h payload }] } :=
  (trafOf_modTraf ..).trans (if_pos rfl)

theorem trafOf_meterTorus (s : State) (a b p : Nat) : trafOf (meterTorus s a b) p = trafOf s p :=
  trafOf_eq_of_links (meterTorus_links ..) p

theorem sent_emit (s : State) (p n : Nat) (h : SlotHdr) (payload : List Byte) (a b : Nat) :
    Sent s (meterTorus (emit s p n h payload) a b) p n := by
  refine ⟨s, h, payload, ?_, rfl, ?_⟩
  · rw [trafOf_meterTorus, trafOf_emit]
  · rw [trafOf_meterTorus, trafOf_emit]

theorem sent_emitIdle (s : State) (p n : Nat) : Sent s (emitIdle s p n) p n := sent_emit ..

theorem sender_modTraf (s : State) (p : Nat) (f : PortTraffic → PortTraffic) (hf : ∀ t, (f t).txNext = t.txNext) :
    sender (modTraf s p f) p = sender s p := sender_of_frames p rfl rfl (tks_modTraf _ _ _ hf)

theorem sender_sealFrame {s : State} {p q : Nat} {h : SlotHdr} {d : List Byte} {r : State × List Byte}
    (e : sealFrame s q h d = some r) : sender r.1 p = sender s p :=
  sender_of_frames p (sealFrame_time _ _ _ _ _ e) (sealFrame_power _ _ _ _ _ e) (sealFrame_tks _ _ _ _ _ e)

theorem sender_cvSlot (s : State) (p : Nat) (rx : Bool) (g : Group) (d : List Byte) (run : SlotRun) (rel idx : Nat)
    (dest : BitVec 64) (payload : List Byte) (q : Nat) :
    sender (cvSlot s p rx g d run rel idx dest payload) q = sender s q :=
  sender_of_frames q (cvSlot_time ..) (cvSlot_power ..) (cvSlot_tks ..)

theorem sent_sendStream (s : State) (p n : Nat) (g : Group) (d : List Byte) (run : SlotRun) (pb idx : Nat) :
    Sent s (sendStream s p n g d run pb idx) p n := by
  unfold sendStream
  extract_lets x pn rel at' k lead data h sl
  have hs : ∀ r : State × List Byte, sl = some r → sender r.1 p = sender s p := by
    intro r e
    change (if g.isSealed = true then sealFrame s pn h data else some (s, data)) = some r at e
    split at e
    · exact sender_sealFrame e
    · rw [← Option.some.inj e]
  clear_value sl
  split
  · exact sent_emitIdle ..
  split
  · exact (sent_emitIdle ..).of_sender (sender_of_frames p (abortGroup_time ..) (abortGroup_power ..) (abortGroup_tks ..))
  split
  · exact sent_emitIdle ..
  · next s1 payload hsl =>
    refine (sent_emit ..).of_sender ?_
    split
    · exact hs _ rfl
    · exact (sender_cvSlot ..).trans (hs _ rfl)

theorem sent_sendScheduled (s : State) (p n : Nat) : Sent s (sendScheduled s p n) p n := by
  unfold sendScheduled
  split
  · exact sent_emitIdle ..
  split
  · split
    · exact sent_emitIdle ..
    dsimp only
    split
    · exact (sent_emit ..).of_sender (sender_modTraf _ _ _ fun _ => rfl)
    split
    · exact sent_emitIdle ..
    split
    · split
      · exact sent_sendStream ..
      · exact sent_emitIdle ..
    · exact sent_emitIdle ..
  · exact sent_emitIdle ..

theorem sender_noteCommit (s : State) (v : Nat) (d : List Byte) (p : Nat) : sender (noteCommit s v d) p = sender s p :=
  sender_of_frames p (noteCommit_time ..) (noteCommit_power ..) (noteCommit_tks ..)

theorem sent_sendLoad (s : State) (p n c : Nat) (x : Load) : Sent s (sendLoad s p n c x) p n := by
  unfold sendLoad
  dsimp only
  split
  · exact sent_emit ..
  split
  · next v _ =>
    have hz : sender (if c = 3 then noteCommit s v x.bytes else s) p = sender s p := by
      split
      · exact sender_noteCommit ..
      · rfl
    generalize (if c = 3 then noteCommit s v x.bytes else s) = z at hz ⊢
    split
    · split
      · next hsl => exact (sent_emit ..).of_sender ((sender_sealFrame hsl).trans hz)
      · exact (sent_emitIdle ..).of_sender hz
    · exact (sent_emit ..).of_sender hz
  · exact sent_emit ..

theorem sender_takeLoad (s : State) (p c via q : Nat) : sender (takeLoad s p c via).1 q = sender s q :=
  sender_of_frames q (takeLoad_time ..) (takeLoad_power ..) (takeLoad_tks ..)

/-- With no stored slot due again, a forwarded replay uses the slot, or none does. -/
theorem takeReplay_nil (s : State) (p n : Nat) :
    (∃ t, takeReplay p n [] s = (t, true) ∧ Sent s t p n) ∨ takeReplay p n [] s = (s, false) := by
  unfold takeReplay
  split
  · exact .inl ⟨_, rfl, (sent_emit ..).of_sender (sender_modTraf _ _ _ fun _ => rfl)⟩
  · exact .inr rfl

theorem sent_sendUnscheduled {s : State} {p : Nat} (n : Nat) (hr : (trafOf s p).replayDue = []) :
    Sent s (sendUnscheduled s p n) p n := by
  unfold sendUnscheduled
  rw [hr]
  obtain ⟨t, ht, hsent⟩ | ht := takeReplay_nil s p n <;> rw [ht] <;> dsimp only
  · exact hsent
  split
  · exact sent_emitIdle ..
  split
  · exact sent_emitIdle ..
  · exact (sent_sendLoad ..).of_sender ((sender_modTraf _ _ _ (by exact fun _ => rfl)).trans (sender_takeLoad ..))

/-- The block that `RECAL` puts into slot 255 (R242). -/
def recalSent (s : State) (p n : Nat) : State :=
  meterTorus (emit s p n { hdrZero with kind := BitVec.ofNat 8 kRecal } recalPattern) 16 3072

theorem sendSlot_recal {s : State} {p n : Nat} (hn : n = 255) (hb : s.time.beat % 64 = 0) :
    sendSlot s p n = recalSent s p n := if_pos (by simp [hn, hb])

theorem sent_sendSlot {s : State} {p : Nat} (n : Nat) (hr : (trafOf s p).replayDue = []) :
    Sent s (sendSlot s p n) p n := by
  unfold sendSlot
  split
  · exact sent_emit ..
  split
  · exact sent_sendScheduled ..
  split
  · exact sent_emitIdle ..
  · exact sent_sendUnscheduled n hr

/-! ### `SLOT_TRANSMIT` -/

section
variable {s : State} {q : PortId} {n : BitVec 8}

/-- The port goes on to the next slot of the beat. -/
def slotTaken (s : State) (p n : Nat) : State := modTraf s p fun t => { t with txNext := n + 2 }

theorem execSlotTransmit_idle (h : s.power.hubUp = false ∨ portActive s q.val = false ∨
    (trafOf s q.val).txNext ≠ n.toNat + 1) : exec (.slotTransmit q n) s = .next s := by
  refine if_pos ?_
  rcases h with h | h | h <;> simp [h]

theorem execSlotTransmit_sends (hu : s.power.hubUp = true) (ha : portActive s q.val = true)
    (hn : (trafOf s q.val).txNext = n.toNat + 1) :
    exec (.slotTransmit q n) s = .next (sendSlot (slotTaken s q.val n.toNat) q.val n.toNat) := by
  refine if_neg ?_
  simp [hu, ha, hn]

theorem trafOf_slotTaken (s : State) (p n : Nat) : trafOf (slotTaken s p n) p = { trafOf s p with txNext := n + 2 } :=
  (trafOf_modTraf ..).trans (if_pos rfl)

/-- The slot that has left carries its number, its beat and its sender (R233, R238). -/
theorem lastSlot_of_sent {t : State} (h : Sent (slotTaken s q.val n.toNat) t q.val n.toNat) :
    ∃ x, (trafOf t q.val).lastSlot = some x ∧ x.hdr.slotNo = n ∧ x.hdr.beat = BitVec.ofNat 48 s.time.beat ∧
      x.hdr.srcDevice = moduleId s ∧ x.hdr.cvPresent = (portOf s q.val).cvMode ∧ (trafOf t q.val).txNext = n.toNat + 2 := by
  obtain ⟨z, hd, pl, hl, hz, hn⟩ := h
  have ht : z.time = s.time := congrArg Prod.fst hz
  have hp : z.power = s.power := congrArg (·.2.1) hz
  have hc : (portOf z q.val).cvMode = (portOf s q.val).cvMode := congrArg (·.2.2.1) hz
  obtain ⟨hno, hbeat, hdev, hcv, -⟩ := mkSlot_hdr z q.val n.toNat hd pl
  refine ⟨_, hl, hno.trans (BitVec.eq_of_toNat_eq (by simp)), ?_, ?_, hcv.trans hc, ?_⟩
  · rw [hbeat, ht]
  · rw [hdev, moduleId, moduleId, hp]
  · rw [hn, trafOf_slotTaken]

theorem lastSlot_recal (s : State) (p n : Nat) : ∃ x, (trafOf (recalSent s p n) p).lastSlot = some x ∧ x.hdr.kind = 7 ∧
    x.payload = recalPattern := by
  obtain ⟨-, -, -, -, hk⟩ := mkSlot_hdr s p n { hdrZero with kind := BitVec.ofNat 8 kRecal } recalPattern
  refine ⟨_, ?_, hk, mkSlot_payload ..⟩
  rw [recalSent, trafOf_meterTorus, trafOf_emit]

theorem recalSent_beside (s : State) (p n : Nat) : (recalSent s p n).groups = s.groups ∧ (recalSent s p n).panes = s.panes ∧
    (trafOf (recalSent s p n) p).out = (trafOf s p).out := by
  refine ⟨meterTorus_groups .., meterTorus_panes .., ?_⟩
  rw [recalSent, trafOf_meterTorus, trafOf_emit]

end

/-! ### `SLOT_RECEIVED` -/

/-- Slot `n` of beat `b` is on the list of those asked for again. -/
def askedAgain (t : State) (p b n : Nat) : Prop := ((trafOf t p).wanted.any fun w => w.beat == b && w.slot == n) = true

theorem askedAgain_askReplay (s : State) (p b n : Nat) : askedAgain (askReplay s p b n) p b n := by
  unfold askedAgain askReplay
  rw [trafOf_modTraf, if_pos rfl]
  split
  · next h => exact h
  · simp

theorem readFlags_none {h : SlotHdr} (hh : h.hold = false) (ha : h.abort = false) (s : State) : readFlags s h = s := by
  simp [readFlags, hh, ha]

theorem askedAgain_or_failed_failCheck (s : State) (p n : Nat) :
    askedAgain (failCheck s p n) p (trafOf s p).rxBeat n ∨ (portOf (failCheck s p n) p).state = 7 := by
  unfold failCheck
  dsimp only
  split
  · exact .inr (portOf_failPort ..)
  · exact .inl (askedAgain_askReplay ..)

theorem takeSlot_reserved {x : SlotImg} (h : 8 ≤ x.hdr.kind.toNat) (s : State) (p : Nat) (dest : BitVec 16) :
    takeSlot s p x dest = askReplay (readFlags s x.hdr) p (trafOf s p).rxBeat x.hdr.slotNo.toNat := if_pos h

theorem takeSlot_empty {x : SlotImg} (h : x.hdr.kind = 0 ∨ x.hdr.kind = 7) (s : State) (p : Nat) (dest : BitVec 16) :
    takeSlot s p x dest = readFlags s x.hdr := by
  rcases h with h | h
  · exact (if_neg (by rw [h]; decide)).trans (if_pos (by rw [h]; decide))
  · exact (if_neg (by rw [h]; decide)).trans (if_pos (by rw [h]; decide))

section
variable {s : State} {q : PortId} {rx : RxSlot}

theorem execSlotReceived_idle (h : s.power.hubUp = false ∨ portActive s q.val = false) :
    exec (.slotReceived q rx) s = .next s := by
  refine if_pos ?_
  rcases h with h | h <;> simp [h]

theorem execSlotReceived_up (hu : s.power.hubUp = true) (ha : portActive s q.val = true) :
    exec (.slotReceived q rx) s =
      if rx.uncorrectable then .next (askReplay (countFec s q.val rx) q.val (trafOf s q.val).rxBeat rx.img.hdr.slotNo.toNat)
      else if !checkHolds (countFec s q.val rx) q.val rx.img then
        .next (failCheck (countFec s q.val rx) q.val rx.img.hdr.slotNo.toNat)
      else .next (takeSlot (countFec s q.val rx) q.val rx.img rx.dest) := by
  refine if_neg ?_
  simp [hu, ha]

/-- The error counts of a slot whose lanes report no symbol (Table 09-9). -/
def fecCounted (s : State) (p : Nat) (rx : RxSlot) : State := modErrs s p fun c => { c with
  fecCorrected := BitVec.ofNat 24 (satAdd 24 c.fecCorrected.toNat rx.correctedCodewords)
  fecUncorr := BitVec.ofNat 16 (satAdd 16 c.fecUncorr.toNat 0) }

theorem countFec_whole (h : rx.uncorrectable = false) (hl : rx.laneSymbols = []) :
    countFec s q.val rx = fecCounted s q.val rx := by
  unfold countFec
  rw [h, hl]
  rfl

theorem execSlotReceived_whole (hu : s.power.hubUp = true) (ha : portActive s q.val = true)
    (h : rx.uncorrectable = false) (hl : rx.laneSymbols = []) :
    exec (.slotReceived q rx) s =
      if checkHolds s q.val rx.img then .next (takeSlot (fecCounted s q.val rx) q.val rx.img rx.dest)
      else .next (failCheck (fecCounted s q.val rx) q.val rx.img.hdr.slotNo.toNat) := by
  rw [execSlotReceived_up hu ha, countFec_whole h hl, h]
  have hc : checkHolds (fecCounted s q.val rx) q.val rx.img = checkHolds s q.val rx.img := rfl
  rw [hc]
  cases checkHolds s q.val rx.img <;> rfl

end
end Sys2Proof.Machine

open Sys2Proof Sys2Proof.Machine

/-- Settles O35: every way a port fills a slot ends in `emit` under the sender it began with; a received slot is asked
for again, fails its check, or acts by its kind. -/
theorem slotsAreSentAndReceived : Obligations.SlotsAreSentAndReceived := by
  unfold Obligations.SlotsAreSentAndReceived
  refine ⟨fun s q n => ?_, fun s q rx => ?_⟩
  · intro p
    refine ⟨execSlotTransmit_idle, fun hu ha hn hr => ?_, fun hu ha hn h255 hb => ?_⟩
    · have hr' : (trafOf (slotTaken s p n.toNat) p).replayDue = [] := by rw [trafOf_slotTaken]; exact hr
      obtain ⟨x, hx⟩ := lastSlot_of_sent (sent_sendSlot n.toNat hr')
      exact ⟨_, x, execSlotTransmit_sends hu ha hn, hx⟩
    · obtain ⟨x, hx, hk, hpl⟩ := lastSlot_recal (slotTaken s p n.toNat) p n.toNat
      obtain ⟨hg, hp, ho⟩ := recalSent_beside (slotTaken s p n.toNat) p n.toNat
      have hn255 : n.toNat = 255 := by rw [h255]; rfl
      refine ⟨_, x, (execSlotTransmit_sends hu ha hn).trans (congrArg _ (sendSlot_recal hn255 hb)), hx, hk, hpl, hg, hp, ?_⟩
      exact ho.trans ((congrArg PortTraffic.out (trafOf_slotTaken s p n.toNat)).trans rfl)
  · intro p n asked e counted
    refine ⟨execSlotReceived_idle, fun hu ha => ⟨fun h => ?_, fun h hl => ⟨fun hc => ?_, fun hc => ?_, fun hc hk => ?_,
      fun hc hk hh hab => ?_⟩⟩⟩
    · exact ⟨_, (execSlotReceived_up hu ha).trans (if_pos h), askedAgain_askReplay ..⟩
    · exact ⟨_, (execSlotReceived_whole hu ha h hl).trans (if_neg (ne_true_of_eq_false hc)),
        askedAgain_or_failed_failCheck (fecCounted s p rx) p n⟩
    · exact (execSlotReceived_whole hu ha h hl).trans (if_pos hc)
    · exact ⟨_, ((execSlotReceived_whole hu ha h hl).trans (if_pos hc)).trans (congrArg _ (takeSlot_reserved hk ..)),
        askedAgain_askReplay ..⟩
    · exact ((execSlotReceived_whole hu ha h hl).trans (if_pos hc)).trans
        (congrArg _ ((takeSlot_empty hk ..).trans (readFlags_none hh hab _)))

end


section
/-! PROOFS. Block-float reductions do not depend on the order of their rows (R263 to R266). -/

namespace Sys2Proof.Machine

/-- How two items of a block-float reduction, or of its pre-pass, are put together. -/
def blockAdd (pass : ChunkPass) (a b : Nat) : Nat := if pass = .reduce then (a + b) % 2 ^ 64 else max a b

theorem combine_blockFloat {x : CollEnv} {pass : ChunkPass} (h : pass = .reduce → x.c.wire = 0) (hop elem a b : Nat) :
    x.combine pass hop elem a b = blockAdd pass a b := by
  unfold CollEnv.combine blockAdd
  split
  next hp => rw [if_pos (h hp)]
  next => rfl

theorem blockAdd_comm (pass : ChunkPass) (a b : Nat) : blockAdd pass a b = blockAdd pass b a := by
  unfold blockAdd
  rw [Nat.add_comm, Nat.max_comm]

theorem blockAdd_assoc (pass : ChunkPass) (a b c : Nat) :
    blockAdd pass (blockAdd pass a b) c = blockAdd pass a (blockAdd pass b c) := by
  unfold blockAdd
  split
  · rw [Nat.mod_add_mod, Nat.add_mod_mod, Nat.add_assoc]
  · exact Nat.max_assoc ..

theorem zipWith_blockAdd_comm (pass : ChunkPass) (l m : List Nat) :
    l.zipWith (blockAdd pass) m = m.zipWith (blockAdd pass) l := List.zipWith_comm_of_comm (blockAdd_comm pass)

theorem zipWith_blockAdd_assoc (pass : ChunkPass) (l m n : List Nat) :
    (l.zipWith (blockAdd pass) m).zipWith (blockAdd pass) n = l.zipWith (blockAdd pass) (m.zipWith (blockAdd pass) n) := by
  induction l generalizing m n with
  | nil => rfl
  | cons a l ih =>
    cases m with
    | nil => rfl
    | cons b m =>
      cases n with
      | nil => rfl
      | cons c n => rw [List.zipWith, List.zipWith, List.zipWith, List.zipWith, blockAdd_assoc, ih]

theorem map_zipIdx_fst {α β : Type} (f : α → β) (l : List α) : (l.zipIdx.map fun e => f e.1) = l.map f := by
  rw [← List.zipIdx_map_fst 0 l, List.map_map, List.zipIdx_map_fst]
  rfl

/-- Rows added: the first, and the others one after the other. -/
theorem addRows_blockFloat {x : CollEnv} {pass : ChunkPass} (h : pass = .reduce → x.c.wire = 0) (hop elem : Nat)
    (l : List Nat) (rest : List (List Nat)) :
    x.addRows pass hop elem (l :: rest) = rest.foldl (List.zipWith (blockAdd pass)) l := by
  have hrow : (fun acc m : List Nat => (acc.zip m).zipIdx.map fun e => x.combine pass hop (elem + e.2) e.1.1 e.1.2) =
      List.zipWith (blockAdd pass) := by
    funext acc m
    simp only [combine_blockFloat h]
    rw [map_zipIdx_fst (fun e : Nat × Nat => blockAdd pass e.1 e.2), List.map_zip_eq_zipWith]
    rfl
  rw [CollEnv.addRows, hrow]

/-- Where the rows are added one after the other with a commutative and associative sum, their order does not matter. -/
theorem addRows_perm {x : CollEnv} {pass : ChunkPass} (h : pass = .reduce → x.c.wire = 0) (hop hop' elem elem' : Nat)
    {rows rows' : List (List Nat)} (hp : rows.Perm rows') : x.addRows pass hop elem rows = x.addRows pass hop' elem' rows' := by
  have hright : RightCommutative (List.zipWith (blockAdd pass)) := ⟨fun l m n => by
    rw [zipWith_blockAdd_assoc, zipWith_blockAdd_comm pass m n, ← zipWith_blockAdd_assoc]⟩
  induction hp generalizing hop hop' elem elem' with
  | nil => rfl
  | cons l hp _ => rw [addRows_blockFloat h, addRows_blockFloat h, hp.foldl_eq]
  | swap l m rest =>
    rw [addRows_blockFloat h, addRows_blockFloat h, List.foldl_cons, List.foldl_cons, zipWith_blockAdd_comm]
  | trans _ _ ih1 ih2 => exact (ih1 hop hop elem elem).trans (ih2 hop hop' elem elem')

end Sys2Proof.Machine

open Sys2Proof Sys2Proof.Machine

/-- Settles O36: a block-float sum of rows is a fold of a commutative and associative operation that looks at neither hop
nor element. -/
theorem blockFloatSumsAreOrderFree : Obligations.BlockFloatSumsAreOrderFree := by
  unfold Obligations.BlockFloatSumsAreOrderFree
  exact fun x pass hop hop' elem elem' rows rows' h hp => addRows_perm h hop hop' elem elem' hp

end


section
/-! PROOFS. The ring engines' steps and the end of a collective (R258 to R272). -/

namespace Sys2Proof.Machine

/-! ### A chunk of a reduce-scatter -/

section
variable {x : CollEnv} {s : State} {lead coll : Nat} {r : Run} {c : CollRun} {id : ChunkId} {inp out : Option ChunkAt}

theorem advance_noPass (h : x.hasPass id.pass = false) : x.advance s lead r coll c id inp out = s :=
  if_pos (by simp [h])

theorem advance_reduce (h : x.hasPass id.pass = true) (hp : id.pass = .exponents ∨ id.pass = .reduce) :
    x.advance s lead r coll c id inp out = x.reduceChunk s lead r coll c id inp out :=
  (if_neg (by simp [h])).trans (if_pos (by simpa using hp))

theorem advance_gather (h : x.hasPass id.pass = true) (hp : id.pass = .exponentsBack ∨ id.pass = .gather) :
    x.advance s lead r coll c id inp out = x.gatherChunk s lead r coll c id inp out :=
  (if_neg (by simp [h])).trans (if_neg (by rcases hp with hp | hp <;> simp [hp]))

theorem reduceChunk_noStep (h : x.stepOf s id = none) : x.reduceChunk s lead r coll c id inp out = s := by
  unfold CollEnv.reduceChunk
  rw [h]

/-- This member brings its contribution to the collective with the chunk (R271). -/
def Supplies (x : CollEnv) (id : ChunkId) (p : RingStep) : Prop := p.own = true ∧ (x.before id.axis.val).1 = none

/-- The state after the squares of a contribution have been counted, where the chunk brings one (R271). -/
def suppliedNoise (x : CollEnv) (s : State) (lead coll : Nat) (id : ChunkId) (p : RingStep) : State :=
  if (p.own && (x.before id.axis.val).1.isNone) && id.pass == .reduce && !id.tray then
    x.noteNoise s lead coll (x.contributions s id.elem id.count).flatten
  else s

theorem suppliedNoise_none {p : RingStep} (h : ¬Supplies x id p ∨ id.pass = .exponents ∨ id.tray = true) :
    suppliedNoise x s lead coll id p = s := by
  refine if_neg ?_
  unfold Supplies at h
  rcases h with h | h | h
  · simp_all
  · simp [h]
  · simp [h]

theorem suppliedNoise_supplies {p : RingStep} (h : Supplies x id p) (hp : id.pass = .reduce) (ht : id.tray = false) :
    suppliedNoise x s lead coll id p = x.noteNoise s lead coll (x.contributions s id.elem id.count).flatten := by
  refine if_pos ?_
  obtain ⟨ho, hb⟩ := h
  simp [ho, hb, hp, ht]

/-- The items that a chunk of a reduce-scatter comes to (R267, R268). -/
def chunkSums (x : CollEnv) (s : State) (id : ChunkId) (inp : Option ChunkAt) (p : RingStep) (own : List Nat) : List Nat :=
  x.addRows id.pass ((x.before id.axis.val).2 + p.hops) id.elem
    (inp.toList.map (x.staged s id.pass id.count) ++ (if p.own = true then [own] else []))

section
variable {p : RingStep} {own : List Nat}

theorem reduceChunk_eq (hs : x.stepOf s id = some p) (ho : x.ownItems s c id = some own) :
    x.reduceChunk s lead r coll c id inp out =
      if !x.reduceReady r coll c id inp out p then s
      else if (p.own && (x.before id.axis.val).1.isNone && x.srcPoison s id.elem id.count)
          || inp.any (x.stagedPoison s id.pass id.count) then abortGroup s x.g x.c.ident 1
      else noteChunk (x.passOn (suppliedNoise x s lead coll id p) lead coll c id p.last (chunkSums x s id inp p own) out)
        lead coll id inp out := by
  unfold CollEnv.reduceChunk
  rw [hs, ho]
  rfl

theorem reduceChunk_waits (hs : x.stepOf s id = some p) (ho : x.ownItems s c id = some own)
    (h : x.reduceReady r coll c id inp out p = false) : x.reduceChunk s lead r coll c id inp out = s :=
  (reduceChunk_eq hs ho).trans (if_pos (by simp [h]))

theorem reduceChunk_poison (hs : x.stepOf s id = some p) (ho : x.ownItems s c id = some own)
    (h : x.reduceReady r coll c id inp out p = true)
    (hp : (Supplies x id p ∧ x.srcPoison s id.elem id.count = true) ∨
      (∃ k, inp = some k ∧ x.stagedPoison s id.pass id.count k = true)) :
    x.reduceChunk s lead r coll c id inp out = abortGroup s x.g x.c.ident 1 := by
  refine (reduceChunk_eq hs ho).trans ((if_neg (by simp [h])).trans (if_pos ?_))
  rcases hp with ⟨⟨hown, hb⟩, hp⟩ | ⟨k, rfl, hp⟩
  · simp [hown, hb, hp]
  · simp [hp]

theorem reduceChunk_advances (hs : x.stepOf s id = some p) (ho : x.ownItems s c id = some own)
    (h : x.reduceReady r coll c id inp out p = true)
    (hn : ¬(Supplies x id p ∧ x.srcPoison s id.elem id.count = true))
    (hk : ∀ k, inp = some k → ¬x.stagedPoison s id.pass id.count k = true) :
    x.reduceChunk s lead r coll c id inp out = noteChunk
      (x.passOn (suppliedNoise x s lead coll id p) lead coll c id p.last (chunkSums x s id inp p own) out)
      lead coll id inp out := by
  refine (reduceChunk_eq hs ho).trans ((if_neg (by simp [h])).trans (if_neg ?_))
  have hin : inp.any (x.stagedPoison s id.pass id.count) = false := by
    cases inp with
    | none => rfl
    | some k => simpa using hk k rfl
  rw [hin]
  unfold Supplies at hn
  simp_all

end

/-! ### How a chunk of a reduce-scatter moves on -/

variable {last : Bool} {items : List Nat}

theorem passOn_hop (h : last = false) : x.passOn s lead coll c id last items out = x.sendOn s id.pass items out :=
  if_pos (by simp [h])

theorem passOn_finish (h : last = true) (ha : ∀ a ∈ x.stages, a ≤ id.axis.val) :
    x.passOn s lead coll c id last items out =
      x.finish (x.sendOn s id.pass items out) lead c id.pass coll id.elem items :=
  (if_neg (by simp [h])).trans (if_pos (by simpa using ha))

theorem passOn_stage (h : last = true) (ha : ∃ a ∈ x.stages, id.axis.val < a) :
    x.passOn s lead coll c id last items out = modColl (x.sendOn s id.pass items out) lead coll fun y =>
      { y with held := y.held ++ [{ id := id, items := items }] } :=
  (if_neg (by simp [h])).trans (if_neg (by simpa using ha))

/-! ### A chunk of an all-gather -/

theorem gatherChunk_waits (h : x.gatherReady s r coll c id inp out = false) :
    x.gatherChunk s lead r coll c id inp out = s := if_pos (by simp [h])

theorem gatherChunk_in {k : ChunkAt} (h : x.gatherReady s r coll c id (some k) out = true) :
    x.gatherChunk s lead r coll c id (some k) out =
      if x.stagedPoison s id.pass id.count k then abortGroup s x.g x.c.ident 1
      else noteChunk (if id.pass = .exponentsBack then
          CollEnv.keepExpo (x.sendOn s id.pass (x.staged s id.pass id.count k) out) lead coll id.elem
            (x.staged s id.pass id.count k)
        else x.writeOut (x.sendOn s id.pass (x.staged s id.pass id.count k) out) lead coll id.elem
            (x.staged s id.pass id.count k)) lead coll id (some k) out := if_neg (by simp [h])

theorem gatherChunk_sends {k : ChunkAt} (h : x.gatherReady s r coll c id none (some k) = true)
    (hp : x.heldPoison s c id = false) : x.gatherChunk s lead r coll c id none (some k) =
      noteChunk (x.stageOut s id.pass k (x.heldItems s c id)) lead coll id none (some k) :=
  (if_neg (by simp [h])).trans (if_neg (by simp [hp]))

theorem gatherChunk_writesOwn (h : x.gatherReady s r coll c id none none = true) (hp : x.heldPoison s c id = false)
    (hg : id.pass = .gather) : x.gatherChunk s lead r coll c id none none =
      noteChunk (x.noteNoise (x.writeOut s lead coll id.elem (x.heldItems s c id)) lead coll
        ((x.heldItems s c id).map (fmtDecode x.c.inFmt))) lead coll id none none := by
  refine (if_neg (by simp [h])).trans ((if_neg (by simp [hp])).trans ?_)
  rw [hg]
  rfl

theorem gatherChunk_ownPoison (h : x.gatherReady s r coll c id none out = true) (hp : x.heldPoison s c id = true) :
    x.gatherChunk s lead r coll c id none out = abortGroup s x.g x.c.ident 1 :=
  (if_neg (by simp [h])).trans (if_pos hp)

end

/-! ### `CHUNK_ADVANCE` -/

section
variable {s : State} {lead : Pane16} {g : Group} {d : List Byte} {r : Run} {c : CollRun} {coll : Nat} {id : ChunkId}
  {inp out : Option ChunkAt}

/-- The collective of a chunk, in the present step of the run. -/
def collNow (g : Group) (d : List Byte) (r : Run) (coll : Nat) : CollEnv :=
  { g := g, d := d, c := planColl d coll, k0 := r.k0, k1 := r.k1, step := r.firstStep + r.planStep }

theorem execChunkAdvance_idle (hl : groupLed s lead.val = some g) (hd : g.plan = some d) (hr : g.run = some r)
    (h : r.held ≠ none ∨ r.started = false ∨ g.ended ≠ none ∨ plansRun s = false) :
    exec (.chunkAdvance lead coll id inp out) s = .next s := by
  show execChunkAdvance lead coll id inp out s = _
  unfold execChunkAdvance
  simp only [hl, hd, hr]
  refine if_neg ?_
  rcases h with h | h | h | h
  · simp [h]
  · simp [h]
  · simp [h]
  · simp [h]

theorem execChunkAdvance_joined (hl : groupLed s lead.val = some g) (hd : g.plan = some d) (hr : g.run = some r)
    (hc : r.colls.find? (fun y => y.index == coll) = some c) (hj : joinAlone s (collNow g d r coll) r coll = r)
    (hs : r.started = true) (hh : r.held = none) (he : g.ended = none) (hp : plansRun s = true) (hn : coll < collCount d) :
    exec (.chunkAdvance lead coll id inp out) s = .next
      ({ collNow g d r coll with step := r.firstStep + c.step }.advance (modRun s lead.val fun _ => r) lead.val r coll c id
        inp out) := by
  show execChunkAdvance lead coll id inp out s = _
  unfold execChunkAdvance
  simp only [hl, hd, hr]
  refine (if_pos (by simp [hs, hh, he, hp, hn])).trans ?_
  have hj' : joinAlone s
      { g := g, d := d, c := planColl d coll, k0 := r.k0, k1 := r.k1, step := r.firstStep + r.planStep } r coll = r := hj
  rw [hj', hc]
  rfl

/-! ### `COLLECTIVE_DONE` -/

variable {norm noise : BitVec 640} {contrib : BitVec 32} {nan : Bool}

theorem execCollectiveDone_idle (hl : groupLed s lead.val = some g) (hd : g.plan = some d) (hr : g.run = some r)
    (h : r.held ≠ none ∨ g.ended ≠ none) : exec (.collectiveDone lead coll norm noise contrib nan) s = .next s := by
  show execCollectiveDone lead coll norm noise contrib nan s = _
  unfold execCollectiveDone
  simp only [hl, hd, hr]
  split
  · refine if_pos ?_
    rcases h with h | h <;> simp [h, Option.isSome_iff_ne_none]
  · rfl

theorem execCollectiveDone_ends (hl : groupLed s lead.val = some g) (hd : g.plan = some d) (hr : g.run = some r)
    (hc : r.colls.find? (fun y => y.index == coll && outElems (collNow g d r coll) ≤ collFinals y) = some c)
    (hh : r.held = none) (he : g.ended = none) :
    let x : CollEnv := { collNow g d r coll with step := r.firstStep + c.step }
    let useN := bitAt x.c.cflags 0 && x.c.kind != 1
    let useM := bitAt x.c.cflags 1
    let sum : BitVec 640 := if useN then c.normOwn + norm else 0
    let bad : Bool := (useN || useM) && (c.nanSeen || nan)
    exec (.collectiveDone lead coll norm noise contrib nan) s = .next (arriveRef (modRun
      (if x.c.cflags = 0 then s else nearWrite s (x.paneAt x.c.stats) (gaOfs x.c.stats)
        (statsBytes x useN useM sum (if useM then c.noiseOwn + noise else 0) (if useM then c.noiseOwn else 0)
          (BitVec.ofNat 32 x.c.contrib + contrib) bad)) lead.val fun r => { r with
        colls := r.colls.filter (·.index != coll), collsDone := r.collsDone ++ [coll]
        normSum := r.normSum + sum, normNan := r.normNan || bad }) g x.c.doneLatch) := by
  intro x useN useM sum bad
  have hc' : r.colls.find? (fun y => y.index == coll && decide (outElems
      { g := g, d := d, c := planColl d coll, k0 := r.k0, k1 := r.k1, step := r.firstStep + r.planStep } ≤ collFinals y)) =
      some c := hc
  show execCollectiveDone lead coll norm noise contrib nan s = _
  unfold execCollectiveDone
  simp only [hl, hd, hr, hc']
  exact if_neg (by simp [hh, he])

end
end Sys2Proof.Machine

open Sys2Proof Sys2Proof.Machine

/-- Settles O37: under the conditions of R258 to R260 a chunk's step is one case of `reduceChunk` or `gatherChunk`. -/
theorem collectivesAdvanceAndEnd : Obligations.CollectivesAdvanceAndEnd := by
  unfold Obligations.CollectivesAdvanceAndEnd
  refine ⟨fun s lead g d r c coll id inp out hl hd hr => ?_, fun s lead g d r c coll norm noise contrib nan hl hd hr => ?_⟩
  · intro e x0 x z poisoned
    refine ⟨fun hc hj hs hh he hp hn => ?_, execChunkAdvance_idle hl hd hr⟩
    have hx : e = .next (x.advance z lead.val r coll c id inp out) :=
      execChunkAdvance_joined hl hd hr hc hj hs hh he hp hn
    refine ⟨fun hpass => hx.trans (congrArg _ (advance_noPass hpass)), fun hpass hk => ?_, fun hpass hk => ?_⟩
    · have hx := hx.trans (congrArg _ (advance_reduce hpass hk))
      refine ⟨fun hst => hx.trans (congrArg _ (reduceChunk_noStep hst)), fun p own hst ho => ?_⟩
      refine ⟨fun hw => hx.trans (congrArg _ (reduceChunk_waits hst ho hw)), fun hrd => ⟨fun hpo =>
        hx.trans (congrArg _ (reduceChunk_poison hst ho hrd hpo)), fun hn1 hn2 => ?_⟩⟩
      have hx := hx.trans (congrArg _ (reduceChunk_advances hst ho hrd hn1 hn2))
      refine ⟨suppliedNoise x z lead.val coll id p, suppliedNoise_none, suppliedNoise_supplies, fun hlast => ?_,
        fun hlast ha => ?_, fun hlast ha => ?_⟩
      · exact hx.trans (congrArg (fun y => Host.Outcome.next (noteChunk y lead.val coll id inp out)) (passOn_hop hlast))
      · exact hx.trans (congrArg (fun y => Host.Outcome.next (noteChunk y lead.val coll id inp out)) (passOn_finish hlast ha))
      · exact hx.trans (congrArg (fun y => Host.Outcome.next (noteChunk y lead.val coll id inp out)) (passOn_stage hlast ha))
    · have hx := hx.trans (congrArg _ (advance_gather hpass hk))
      refine ⟨fun hw => hx.trans (congrArg _ (gatherChunk_waits hw)), fun hrd => ⟨fun k hin hpo => ?_, fun hin hpo => ?_,
        fun k hin hpo => ⟨fun hb => ?_, fun hg => ?_⟩, fun k hin hout hpo => ?_, fun hg hin hout hpo => ?_⟩⟩
      · subst hin
        exact hx.trans (congrArg _ ((gatherChunk_in hrd).trans (if_pos hpo)))
      · subst hin
        exact hx.trans (congrArg _ (gatherChunk_ownPoison hrd hpo))
      · subst hin
        refine hx.trans (congrArg _ ((gatherChunk_in hrd).trans ((if_neg hpo).trans ?_)))
        rw [if_pos hb]
      · subst hin
        refine hx.trans (congrArg _ ((gatherChunk_in hrd).trans ((if_neg hpo).trans ?_)))
        rw [if_neg (by rw [hg]; decide)]
      · subst hin hout
        exact hx.trans (congrArg _ (gatherChunk_sends hrd hpo))
      · subst hin hout
        exact hx.trans (congrArg _ (gatherChunk_writesOwn hrd hpo hg))
  · intro e x useN useM sum bad ends
    refine ⟨fun hc hh he => ?_, execCollectiveDone_idle hl hd hr⟩
    have hx := execCollectiveDone_ends (noise := noise) (norm := norm) (contrib := contrib) (nan := nan) hl hd hr hc hh he
    refine ⟨fun hf => hx.trans ?_, fun hf => hx.trans ?_⟩
    · exact congrArg (fun y => Host.Outcome.next (ends y)) (if_pos hf)
    · exact congrArg (fun y => Host.Outcome.next (ends y)) (if_neg hf)

end


section
/-! PROOFS. A job stops for an abort (R281, R282). -/

namespace Sys2Proof.Machine

/-- The group of a lead stays where it leads while its collectives stop. -/
theorem groupLed_stopColls {s : State} {l : Nat} {x : Group} (hx : groupLed s l = some x) (g : Group) :
    ∃ y, groupLed (stopColls s g) l = some y := by
  unfold stopColls
  split
  next d r _ _ =>
    obtain ⟨y, hy, -⟩ := groupLed_of_gvs (foldl_gvs _ (fun s c => scrambleColl_gvs s g d c.index) r.colls s) hx
    have hmod := groupLed_modGroup (r.colls.foldl (fun s c => scrambleColl s g d c.index) s) (leadOf g.members) l
      (fun g => { g with run := g.run.map fun r => { r with colls := [] } }) fun _ => rfl
    rw [hy] at hmod
    split at hmod
    · exact ⟨_, hmod⟩
    · exact ⟨_, hmod⟩
  next => exact ⟨x, hx⟩

/-- `COLL_STATUS` shows an abort, as of a beat (Table 10-7). -/
def showsAbort (e : AbortEntry) (beat : Nat) (x : CollStatus) : Prop :=
  x.aborted = true ∧ x.origin = e.origin ∧ x.coll = e.coll ∧ x.job = e.job ∧ x.abortBeat = BitVec.ofNat 48 beat

/-- A pane of the group takes the abort, and leaves its record. -/
def paneAborts (e : AbortEntry) (s : State) (p : Nat) : State := recordAbort (setCollStatus s p e) p e

theorem paneAborts_coll (e : AbortEntry) (s : State) (p q : Nat) :
    (q = p → showsAbort e s.time.beat (pane (paneAborts e s p) q).coll) ∧
      (q ≠ p → (pane (paneAborts e s p) q).coll = (pane s q).coll) := by
  have hc : (pane (paneAborts e s p) q).coll = (pane (setCollStatus s p e) q).coll :=
    congrArg (·.2.1) (paneKey_of_pks (recordAbort_pks ..) q)
  rw [hc, setCollStatus, pane_modPane]
  refine ⟨fun h => ?_, fun h => ?_⟩
  · rw [if_pos h]
    exact ⟨rfl, rfl, rfl, rfl, rfl⟩
  · rw [if_neg h]

theorem paneAborts_time (e : AbortEntry) (s : State) (p : Nat) : (paneAborts e s p).time = s.time :=
  (recordAbort_time ..).trans (setCollStatus_time ..)

theorem foldl_paneAborts_coll (e : AbortEntry) (ps : List Nat) (s : State) (q : Nat)
    (h : q ∈ ps ∨ showsAbort e s.time.beat (pane s q).coll) :
    showsAbort e s.time.beat (pane (ps.foldl (paneAborts e) s) q).coll := by
  induction ps generalizing s with
  | nil => exact h.resolve_left List.not_mem_nil
  | cons p ps ih =>
    rw [List.foldl_cons]
    have ht : (paneAborts e s p).time.beat = s.time.beat := congrArg BeatUnit.beat (paneAborts_time e s p)
    have ih := ih (paneAborts e s p)
    rw [ht] at ih
    obtain ⟨hself, hother⟩ := paneAborts_coll e s p q
    refine ih ?_
    by_cases hq : q = p
    · exact .inr (hself hq)
    · rw [hother hq]
      exact h.imp_left fun hm => (List.mem_cons.mp hm).resolve_left hq

theorem paneAborts_gvs (e : AbortEntry) (s : State) (p : Nat) : gvs (paneAborts e s p).groups = gvs s.groups :=
  (recordAbort_gvs ..).trans (setCollStatus_gvs ..)

/-- R282: the group's Plan has ended as aborted, and its run is over. -/
theorem groupLed_stopForAbort {s : State} {l : Nat} {g : Group} (hg : groupLed s l = some g) (e : AbortEntry) :
    ∃ g', groupLed (stopForAbort s g e) l = some g' ∧ g'.ended = some .aborted ∧ g'.run = none := by
  obtain rfl := groupLed_lead hg
  obtain ⟨x, hx⟩ := groupLed_stopColls hg g
  obtain ⟨y, hy, -⟩ := groupLed_of_gvs (foldl_gvs _ (fun s p => haltPane_gvs s p) (maskPanes g.members) (stopColls s g)) hx
  obtain ⟨z, hz, -⟩ := groupLed_of_gvs (foldl_gvs _ (paneAborts_gvs e) (maskPanes g.members) _) hy
  obtain ⟨w, hw, hv⟩ := groupLed_of_modGroup (f := fun g => { g with ended := some .aborted }) hz rfl fun _ => rfl
  obtain ⟨g', hg', -, -, hr, he⟩ := groupLed_dropRun hw
  exact ⟨g', hg', he.trans (congrArg (·.2.2.2) hv), hr⟩

/-- R282, Table 10-7: every pane of the group shows the abort. -/
theorem coll_stopForAbort (s : State) (g : Group) (e : AbortEntry) {p : Nat} (hp : p ∈ maskPanes g.members) :
    showsAbort e s.time.beat (pane (stopForAbort s g e) p).coll := by
  have hkey := congrArg (·.2.1) (paneKey_of_pks (dropRun_pks (modGroup
    ((maskPanes g.members).foldl (paneAborts e) ((maskPanes g.members).foldl haltPane (stopColls s g)))
    (leadOf g.members) fun g => { g with ended := some .aborted }) g) p)
  have ht : ((maskPanes g.members).foldl haltPane (stopColls s g)).time = s.time :=
    (foldl_time _ (fun s p => haltPane_time s p) _ _).trans (stopColls_time ..)
  have hshow := foldl_paneAborts_coll e (maskPanes g.members) ((maskPanes g.members).foldl haltPane (stopColls s g)) p (.inl hp)
  rw [ht] at hshow
  exact Eq.subst (motive := showsAbort e s.time.beat) hkey.symm hshow

theorem execAbortStop_of {s : State} {lead : Pane16} {g : Group} {e : AbortEntry} (hg : groupLed s lead.val = some g)
    (ha : g.abortDue = some e) : exec (.abortStop lead) s =
      if e.beat < s.time.beat && g.ended.isNone then .next (stopForAbort s g e) else .next s := by
  show execAbortStop lead s = _
  unfold execAbortStop
  rw [hg]
  dsimp only
  rw [ha]

end Sys2Proof.Machine

open Sys2Proof Sys2Proof.Machine

/-- Settles O38: what a group's stop for an abort leaves of it and of its panes; the table keeps what is not 128 beats
old. -/
theorem abortsStopTheJob : Obligations.AbortsStopTheJob := by
  unfold Obligations.AbortsStopTheJob
  refine fun s => ⟨fun lead g e hg ha he => ⟨fun hb => ?_, fun hb => ?_⟩, _, rfl, rfl, fun e => ?_⟩
  · obtain ⟨g', hg', hend, hrun⟩ := groupLed_stopForAbort hg e
    exact ⟨_, g', (execAbortStop_of hg ha).trans (if_pos (by simp [hb, he])), hg', hend, hrun,
      fun p hp => coll_stopForAbort s g e hp⟩
  · exact (execAbortStop_of hg ha).trans (if_neg (by simp [hb]))
  · simp [abortHeld]

end


section
/-! PROOFS. The near tier's own work: retries, the scrubber, spares and copies (R68, R142 to R147). -/

namespace Sys2Proof.Machine

/-! ### Counted errors -/

/-- Whether an error declares its source depends on the beat and the window counts alone. -/
theorem countError_snd_congr {s t : State} (ht : t.time = s.time) (hf : t.faults = s.faults) (row index n : Nat) :
    (countError t row index n).2 = (countError s row index n).2 := by
  unfold countError
  rw [ht, hf]
  dsimp only
  split <;> split <;> rfl

theorem nearOf_of_panes {s t : State} (h : t.panes = s.panes) (p : Nat) : nearOf t p = nearOf s p := by
  unfold nearOf pane
  rw [h]

theorem nearOf_modNear (s : State) (p q : Nat) (f : NearTier → NearTier) :
    nearOf (modNear s p f) q = if q = p then f (nearOf s p) else nearOf s q := by
  unfold nearOf modNear
  rw [pane_modPane]
  split <;> rfl

theorem nearOf_modNear_self (s : State) (p : Nat) (f : NearTier → NearTier) : nearOf (modNear s p f) p = f (nearOf s p) :=
  (nearOf_modNear ..).trans (if_pos rfl)

/-- The tier with one corrected error more (R141). -/
def oneCorrected (m : NearTier) : NearTier := { m with ceCount := BitVec.ofNat 24 (satAdd 24 m.ceCount.toNat 1) }

/-- The tier with a line poisoned (R142). -/
def onePoisoned (line : Nat) (m : NearTier) : NearTier :=
  { m with
    poison := tblPut false m.poison line true, ueCount := BitVec.ofNat 16 (satAdd 16 m.ueCount.toNat 1)
    lastUePc := BitVec.ofNat 7 (physPc m (64 * line)) }

section
variable {s : State} {p : Nat}

/-- An error that does not declare its source leaves the tier as it was before the count. -/
theorem nearOf_ite_countError {z t : State} {row index : Nat} (h : (countError s row index 1).2 = false)
    (ht : z.time = s.time) (hf : z.faults = s.faults) :
    nearOf (if (countError z row index 1).2 = true then t else (countError z row index 1).1) p = nearOf z p := by
  rw [if_neg (ne_true_of_eq_false ((countError_snd_congr ht hf ..).trans h))]
  exact nearOf_of_panes (countError_panes ..) p

/-- A corrected error at an offset is counted in the tier, and recorded. -/
def correctedNoted (s : State) (p ofs : Nat) : State :=
  record (modNear s p oneCorrected) 0x0300 (srcNear p) p
    (stampBytes s.time.beat s.time.tick (srcNear p) ++ natLe 1 0 ++ natLe 2 (physPc (nearOf s p) ofs))

theorem correctedNoted_time (s : State) (p ofs : Nat) : (correctedNoted s p ofs).time = s.time := record_time ..

theorem correctedNoted_faults (s : State) (p ofs : Nat) : (correctedNoted s p ofs).faults = s.faults := record_faults ..

theorem nearCorrected_eq (s : State) (p ofs : Nat) : nearCorrected s p ofs =
    if (countError (correctedNoted s p ofs) rowA (unitIndex p (physPc (nearOf s p) ofs)) 1).2 = true then
      retirePc (countError (correctedNoted s p ofs) rowA (unitIndex p (physPc (nearOf s p) ofs)) 1).1 p
        (physPc (nearOf s p) ofs) (errorsCounted (correctedNoted s p ofs) rowB (unitIndex p (physPc (nearOf s p) ofs)))
    else (countError (correctedNoted s p ofs) rowA (unitIndex p (physPc (nearOf s p) ofs)) 1).1 := rfl

theorem nearOf_nearCorrected {ofs : Nat}
    (h : (countError s rowA (unitIndex p (physPc (nearOf s p) ofs)) 1).2 = false) :
    nearOf (nearCorrected s p ofs) p = oneCorrected (nearOf s p) := by
  rw [nearCorrected_eq, nearOf_ite_countError h (correctedNoted_time s p ofs) (correctedNoted_faults s p ofs), correctedNoted,
    nearOf_of_panes (record_panes ..), nearOf_modNear_self]

/-- A line that stays uncorrectable is poisoned in the tier, and recorded. -/
def poisonNoted (s : State) (p line : Nat) : State :=
  record (modNear s p (onePoisoned line)) 0x0301 (srcNear p) p
    (natLe 1 (physPc (nearOf s p) (64 * line)) ++ natLe 8 (64 * line))

theorem poisonNoted_time (s : State) (p line : Nat) : (poisonNoted s p line).time = s.time := record_time ..

theorem poisonNoted_faults (s : State) (p line : Nat) : (poisonNoted s p line).faults = s.faults := record_faults ..

theorem nearUncorrectable_eq (s : State) (p line : Nat) : nearUncorrectable s p line =
    if (countError (poisonNoted s p line) rowB (unitIndex p (physPc (nearOf s p) (64 * line))) 1).2 = true then
      retirePc (countError (poisonNoted s p line) rowB (unitIndex p (physPc (nearOf s p) (64 * line))) 1).1 p
        (physPc (nearOf s p) (64 * line)) true
    else (countError (poisonNoted s p line) rowB (unitIndex p (physPc (nearOf s p) (64 * line))) 1).1 := by
  have hs : poisonNoted s p line = record (modNear s p fun m => { m with
      poison := tblPut false m.poison line true, ueCount := BitVec.ofNat 16 (satAdd 16 m.ueCount.toNat 1)
      lastUePc := BitVec.ofNat 7 (physPc (nearOf s p) (64 * line)) }) 0x0301 (srcNear p) p
      (natLe 1 (physPc (nearOf s p) (64 * line)) ++ natLe 8 (64 * line)) := rfl
  rw [hs]
  rfl

theorem nearOf_nearUncorrectable {line : Nat}
    (h : (countError s rowB (unitIndex p (physPc (nearOf s p) (64 * line))) 1).2 = false) :
    nearOf (nearUncorrectable s p line) p = onePoisoned line (nearOf s p) := by
  rw [nearUncorrectable_eq, nearOf_ite_countError h (poisonNoted_time s p line) (poisonNoted_faults s p line), poisonNoted,
    nearOf_of_panes (record_panes ..), nearOf_modNear_self]

end

theorem isPoison_onePoisoned {m : NearTier} (h : tblWf false m.poison = true) (line k : Nat) :
    isPoison (onePoisoned line m) k = if k = line then true else isPoison m k := tblGet_tblPut _ _ _ _ _ h

/-! ### Retries and the scrubber -/

section
variable {s : State} {p : Pane16} {line : BitVec 30}

theorem execNearReadRetry_idle (h : nearBytes / 64 ≤ line.toNat ∨ isPoison (nearOf s p.val) line.toNat = true) (e : Ecc) :
    exec (.nearReadRetry p line e) s = .next s := if_pos (by simpa using h)

/-- The tier without a line's retry. -/
def retryOver (line : Nat) (m : NearTier) : NearTier := { m with retries := m.retries.filter (·.1 != line) }

theorem execNearReadRetry_reads (hl : line.toNat < nearBytes / 64) (hp : isPoison (nearOf s p.val) line.toNat = false)
    (e : Ecc) : exec (.nearReadRetry p line e) s = match e with
      | .uncorrectable => .next (nearUncorrectable (modNear s p.val (retryOver line.toNat)) p.val line.toNat)
      | _ => .next (nearCorrected (modNear s p.val (retryOver line.toNat)) p.val (64 * line.toNat)) :=
  if_neg (by simp [hl, hp])

/-- A pseudo-channel that the error does not declare, is not declared with the line's retry over. -/
theorem spared_retryOver {row : Nat}
    (h : (countError s row (unitIndex p.val (physPc (nearOf s p.val) (64 * line.toNat))) 1).2 = false) :
    (countError (modNear s p.val (retryOver line.toNat)) row (unitIndex p.val
      (physPc (nearOf (modNear s p.val (retryOver line.toNat)) p.val) (64 * line.toNat))) 1).2 = false := by
  rw [nearOf_modNear_self]
  have hpc : physPc (retryOver line.toNat (nearOf s p.val)) (64 * line.toNat) = physPc (nearOf s p.val) (64 * line.toNat) := rfl
  rw [hpc, countError_snd_congr (s := s) (t := modNear s p.val (retryOver line.toNat)) rfl rfl, h]

theorem execNearReadRetry_corrects (hl : line.toNat < nearBytes / 64) (hp : isPoison (nearOf s p.val) line.toNat = false)
    {e : Ecc} (he : e ≠ .uncorrectable)
    (h : (countError s rowA (unitIndex p.val (physPc (nearOf s p.val) (64 * line.toNat))) 1).2 = false) :
    ∃ t, exec (.nearReadRetry p line e) s = .next t ∧
      nearOf t p.val = oneCorrected (retryOver line.toNat (nearOf s p.val)) := by
  refine ⟨nearCorrected (modNear s p.val (retryOver line.toNat)) p.val (64 * line.toNat), ?_, ?_⟩
  · rw [execNearReadRetry_reads hl hp]
    cases e with
    | clean => rfl
    | corrected => rfl
    | uncorrectable => exact absurd rfl he
  · rw [nearOf_nearCorrected (spared_retryOver h), nearOf_modNear_self]

theorem execNearReadRetry_poisons (hl : line.toNat < nearBytes / 64) (hp : isPoison (nearOf s p.val) line.toNat = false)
    (h : (countError s rowB (unitIndex p.val (physPc (nearOf s p.val) (64 * line.toNat))) 1).2 = false) :
    ∃ t, exec (.nearReadRetry p line .uncorrectable) s = .next t ∧
      nearOf t p.val = onePoisoned line.toNat (retryOver line.toNat (nearOf s p.val)) := by
  refine ⟨_, execNearReadRetry_reads hl hp .uncorrectable, ?_⟩
  rw [nearOf_nearUncorrectable (spared_retryOver h), nearOf_modNear_self]

theorem execScrubBurst_beyond (h : nearBytes / 64 ≤ line.toNat) (e : Ecc) : exec (.scrubBurst p line e) s = .next s :=
  if_neg (Nat.not_lt.mpr h)

theorem execScrubBurst_reads (h : line.toNat < nearBytes / 64) (e : Ecc) :
    exec (.scrubBurst p line e) s = .next (nearFirst s p.val line.toNat true e).1 := if_pos h

theorem nearFirst_poisoned (h : isPoison (nearOf s p.val) line.toNat = true) (scrub : Bool) :
    nearFirst s p.val line.toNat scrub .uncorrectable = (s, false) := if_pos h

theorem nearFirst_retries (h : isPoison (nearOf s p.val) line.toNat = false)
    (hr : (nearOf s p.val).retries.any (·.1 == line.toNat) = false) (scrub : Bool) :
    nearFirst s p.val line.toNat scrub .uncorrectable =
      (modNear s p.val fun m => { m with retries := m.retries ++ [(line.toNat, scrub)] }, true) :=
  (if_neg (ne_true_of_eq_false h)).trans (if_neg (ne_true_of_eq_false hr))

/-! ### Spares and copies -/

variable {l sp : Nat}

theorem execSpareTakeoverDone_some {r : List (Nat × Nat)} (h : (pane s p.val).takeovers = (l, sp) :: r) :
    exec (.spareTakeoverDone p) s =
      .next (modPane s p.val fun x => { x with takeovers := r, cellSub := tblSet x.cellSub l sp }) := by
  show execSpareTakeoverDone p s = _
  unfold execSpareTakeoverDone
  rw [h]

theorem execSpareTakeoverDone_none (h : (pane s p.val).takeovers = []) : exec (.spareTakeoverDone p) s = .next s := by
  show execSpareTakeoverDone p s = _
  unfold execSpareTakeoverDone
  rw [h]

/-- The tier after its oldest copy, from logical pseudo-channel `l` to `sp`. -/
def copyOver (l sp : Nat) (drop : Bool) (r : List (Nat × Nat × Bool)) (m : NearTier) : NearTier :=
  { (if drop then zeroPc l m else m) with
    copying := r, pcSub := tblSet m.pcSub l sp, pcRetired := m.pcRetired ||| (1#68 <<< tblGet l m.pcSub l) }

theorem execPcCopyDone_some {drop : Bool} {r : List (Nat × Nat × Bool)} (h : (nearOf s p.val).copying = (l, sp, drop) :: r) :
    ∃ t, exec (.pcCopyDone p) s = .next t ∧ nearOf t p.val = copyOver l sp drop r (nearOf s p.val) := by
  have he : exec (.pcCopyDone p) s = .next (dropCount (dropCount (modNear s p.val (copyOver l sp drop r)) rowA
      (unitIndex p.val (tblGet l (nearOf s p.val).pcSub l))) rowB (unitIndex p.val (tblGet l (nearOf s p.val).pcSub l))) := by
    show execPcCopyDone p s = _
    unfold execPcCopyDone
    rw [h]
    rfl
  exact ⟨_, he, nearOf_modNear_self s p.val (copyOver l sp drop r)⟩

theorem execPcCopyDone_none (h : (nearOf s p.val).copying = []) : exec (.pcCopyDone p) s = .next s := by
  show execPcCopyDone p s = _
  unfold execPcCopyDone
  rw [h]

end

theorem memGet_copyOver (l sp : Nat) (drop : Bool) (r : List (Nat × Nat × Bool)) (m : NearTier) (a : Nat) :
    memGet (copyOver l sp drop r m).mem a = if drop = true ∧ lpcOf a = l then 0 else memGet m.mem a := by
  cases drop with
  | false => exact (if_neg (by simp)).symm
  | true =>
    show tblGet 0 (dropPc 1 l m.mem) a = _
    unfold dropPc
    rw [tblGet_filter_key 0 m.mem (fun k => lpcOf (1 * k) != l), Nat.one_mul]
    by_cases hl : lpcOf a = l
    · simp [hl]
    · simp [hl, memGet]

end Sys2Proof.Machine

open Sys2Proof Sys2Proof.Machine

/-- Settles O39: what a corrected and what an uncorrectable line leave in the tier, and the spares that take their
numbers. -/
theorem nearTierMaintenance : Obligations.NearTierMaintenance := by
  unfold Obligations.NearTierMaintenance
  intro s p m after corrected spared
  refine ⟨fun q => rfl, fun line h e => execNearReadRetry_idle h e, fun line hl hp => ?_,
    fun line e h => execScrubBurst_beyond h e, fun line hl => ⟨execScrubBurst_reads hl .clean, fun h => ?_, fun h => ?_,
    fun h hr => ?_⟩, fun l sp r h => ?_, execSpareTakeoverDone_none, fun l sp drop r h => ?_, execPcCopyDone_none⟩
  · intro rest
    refine ⟨fun e he h => ?_, fun hw h => ?_⟩
    · obtain ⟨t, ht, hn⟩ := execNearReadRetry_corrects hl hp he h
      exact ⟨t, ht, ⟨congrArg NearTier.ceCount hn, (congrArg NearTier.poison hn).trans rfl, (congrArg NearTier.mem hn).trans rfl⟩,
        congrArg NearTier.retries hn⟩
    · obtain ⟨t, ht, hn⟩ := execNearReadRetry_poisons hl hp h
      have hpo (k : Nat) : isPoison (nearOf t p.val) k = if k = line.toNat then true else isPoison m k := by
        rw [hn]
        exact isPoison_onePoisoned hw ..
      exact ⟨t, ht, (hpo _).trans (if_pos rfl), fun k hk => (hpo k).trans (if_neg hk), congrArg NearTier.retries hn,
        congrArg NearTier.ueCount hn, congrArg NearTier.lastUePc hn, (congrArg NearTier.mem hn).trans rfl⟩
  · have hn := nearOf_nearCorrected h
    exact ⟨_, execScrubBurst_reads hl .corrected, ⟨congrArg NearTier.ceCount hn, (congrArg NearTier.poison hn).trans rfl,
      (congrArg NearTier.mem hn).trans rfl⟩, (congrArg NearTier.retries hn).trans rfl⟩
  · rw [execScrubBurst_reads hl, nearFirst_poisoned h]
  · rw [execScrubBurst_reads hl, nearFirst_retries h hr]
  · refine ⟨_, execSpareTakeoverDone_some h, ?_, ?_, fun k hk => ?_⟩
    · rw [physOf, pane_modPane_self]
      exact tblGet_tblSet_self ..
    · rw [pane_modPane_self]
    · rw [physOf, pane_modPane_self]
      exact tblGet_tblSet_ne _ _ _ _ _ hk
  · obtain ⟨t, ht, hn⟩ := execPcCopyDone_some h
    refine ⟨t, ht, congrArg NearTier.copying hn, ?_, congrArg NearTier.pcRetired hn, fun a => ?_⟩
    · rw [hn]
      exact tblGet_tblSet_self ..
    · rw [hn]
      exact memGet_copyOver ..

end


section
/-! PROOFS. The far tier's operations, by what they leave of its programs, maps, journal and blocks (07_far_tier_media.md). -/

namespace Sys2Proof.Machine

/-- The far tier without its blocks and the counts of what is written. -/
def unworn (t : FarTier) : FarTier := { t with blocks := [], written := 0, life := 0, lifeMark := 0 }

/-- The far tier without its maps and its journal either: what no journal record changes. -/
def farCore (t : FarTier) : FarTier := { unworn t with owners := [], nextSeq := 0, journal := [], ckptNext := none }

theorem farCore_of_unworn {t u : FarTier} (h : unworn t = unworn u) : farCore t = farCore u :=
  congrArg (fun x : FarTier => { x with owners := [], nextSeq := 0, journal := [], ckptNext := none }) h

/-! ### Wear -/

theorem modBlk_unworn (s : State) (k : Nat) (f : Block → Block) : unworn (modBlk s k f).far = unworn s.far := rfl

theorem countWritten_unworn (s : State) (n w : Nat) : unworn (countWritten s n w).far = unworn s.far := by
  unfold countWritten
  extract_lets s1 u mark
  split
  · rw [record_far]
    rfl
  · rfl

theorem blockError_unworn (s : State) (k : Nat) : unworn (blockError s k).far = unworn s.far := by
  unfold blockError
  dsimp only
  split
  · rw [modBlk_unworn, countError_far]
  · rw [countError_far]

theorem countRead_unworn (s : State) (o lun : Nat) : unworn (countRead s o lun).far = unworn s.far := by
  unfold countRead
  split
  · rfl
  · rfl

theorem ownerOf_modOwner_self (s : State) (o : Nat) (f : FarOwner → FarOwner) :
    ownerOf (modOwner s o f) o = f (ownerOf s o) := tblGet_tblSet_self ..

/-! ### The journal -/

/-- No checkpoint is due. -/
def CkptQuiet (s : State) : Prop :=
  (sinceCkpt s.far).2 < 262144 ∧ s.time.beat < (sinceCkpt s.far).1 + 1048576

theorem CkptQuiet.of_unworn {s t : State} (h : CkptQuiet s) (hf : unworn t.far = unworn s.far) (ht : t.time = s.time) :
    CkptQuiet t := by
  have hs : sinceCkpt t.far = sinceCkpt s.far := (congrArg sinceCkpt hf).trans rfl
  unfold CkptQuiet
  rw [hs, ht]
  exact h

theorem checkpointIfDue_quiet {s : State} (h : CkptQuiet s) : checkpointIfDue s = s := by
  obtain ⟨hn, hb⟩ := h
  exact if_neg (by simp [Nat.not_le.mpr hn, Nat.not_le.mpr hb])

theorem checkpointIfDue_nextSeq (s : State) : s.far.nextSeq ≤ (checkpointIfDue s).far.nextSeq := by
  unfold checkpointIfDue
  split
  · exact Nat.le_succ _
  · exact le_rfl

theorem checkpointIfDue_farCore (s : State) : farCore (checkpointIfDue s).far = farCore s.far := by
  unfold checkpointIfDue
  split <;> rfl

section
variable (s : State) (type owner : Nat) (gen : BitVec 32) (lun count : Nat) (new old aux : BitVec 32)

theorem journal_farCore : farCore (journal s type owner gen lun count new old aux).far = farCore s.far :=
  checkpointIfDue_farCore s

theorem journal_nextSeq : s.far.nextSeq < (journal s type owner gen lun count new old aux).far.nextSeq :=
  Nat.lt_succ_of_le (checkpointIfDue_nextSeq s)

theorem journal_blocks : (journal s type owner gen lun count new old aux).far.blocks = s.far.blocks := by
  show (checkpointIfDue s).far.blocks = _
  unfold checkpointIfDue
  split <;> rfl

variable {s}

theorem journal_quiet_nextSeq (h : CkptQuiet s) :
    (journal s type owner gen lun count new old aux).far.nextSeq = s.far.nextSeq + 1 := by
  rw [journal, checkpointIfDue_quiet h]
  rfl

theorem journal_quiet_owners (h : CkptQuiet s) :
    (journal s type owner gen lun count new old aux).far.owners = s.far.owners := by
  rw [journal, checkpointIfDue_quiet h]
  rfl

end

/-! ### Places -/

theorem openBlk_farCore (s : State) (ch b : Nat) (st : BlockState) : farCore (openBlk s ch b st).far = farCore s.far :=
  journal_farCore s jOpen 0 0 0 0 0 0 (mkPhys ch b 0)

theorem placeUnit_farCore {s : State} {ch : Nat} {st : BlockState} {r : State × BitVec 32}
    (h : placeUnit s ch st = some r) : farCore r.1.far = farCore s.far := by
  unfold placeUnit at h
  split at h
  · obtain rfl := Option.some.inj h
    rfl
  · obtain ⟨b, -, rfl⟩ := Option.map_eq_some_iff.mp h
    exact openBlk_farCore s ch b st

/-- The kind of destination that a program writes to. -/
def destOf (g : FarProg) : BlockState := if g.moved.isSome then .openG else .openW

/-- Where a program that joins its channel is put. -/
def placeFor (s : State) (g : FarProg) : BitVec 32 := ((placeUnit s g.channel (destOf g)).map Prod.snd).getD noPhys

theorem addProg_far (s : State) (g : FarProg) :
    farCore (addProg s g).far = farCore { s.far with progs := s.far.progs ++ [{ g with phys := placeFor s g }] } := by
  unfold addProg placeFor
  show farCore (match placeUnit s g.channel (destOf g) with
    | some (s1, p) => modFar s1 fun t => { t with progs := t.progs ++ [{ g with phys := p }] }
    | none => modFar s fun t => { t with progs := t.progs ++ [{ g with phys := noPhys }] }).far = _
  split
  next s1 p h =>
    have hc : farCore s1.far = farCore s.far := placeUnit_farCore h
    rw [h]
    exact congrArg (fun t : FarTier => { t with progs := t.progs ++ [{ g with phys := p }] }) hc
  next h => rw [h]; rfl

theorem addProg_progs (s : State) (g : FarProg) :
    (addProg s g).far.progs = s.far.progs ++ [{ g with phys := placeFor s g }] := congrArg FarTier.progs (addProg_far s g)

end Sys2Proof.Machine
end


section
/-! PROOFS. Programs of the far tier, its journal and its checkpoints (R164 to R166, R169, R172, R180). -/

namespace Sys2Proof.Machine

/-! ### A program lands -/

section
variable {α β : Type} (base : Nat) (v : Nat → α → β)

theorem tblFind_foldl_tblSet_below {a : Nat} (l : List α) (k : Nat) (ha : a < base + k) (m : Tbl β) :
    tblFind ((l.zipIdx k).foldl (fun m e => tblSet m (base + e.2) (v e.2 e.1)) m) a = tblFind m a := by
  induction l generalizing k m with
  | nil => rfl
  | cons x l ih =>
    rw [List.zipIdx_cons, List.foldl_cons, ih (k + 1) (by omega)]
    exact tblFind_tblSet_ne _ _ _ _ (Nat.ne_of_lt ha)

/-- Entries written one after the other stand at their keys. -/
theorem tblFind_foldl_tblSet_zipIdx {u : α} (l : List α) (k i : Nat) (h : l[i]? = some u) (m : Tbl β) :
    tblFind ((l.zipIdx k).foldl (fun m e => tblSet m (base + e.2) (v e.2 e.1)) m) (base + (k + i)) = some (v (k + i) u) := by
  induction l generalizing k i m with
  | nil => simp at h
  | cons x l ih =>
    rw [List.zipIdx_cons, List.foldl_cons]
    cases i with
    | zero =>
      obtain rfl : x = u := by simpa using h
      rw [tblFind_foldl_tblSet_below base v l (k + 1) (by omega)]
      exact tblFind_tblSet_self ..
    | succ i =>
      have hi := ih (k + 1) i (by simpa using h) (tblSet m (base + k) (v k x))
      rw [Nat.add_assoc, Nat.add_comm 1] at hi
      exact hi

end

/-- A program's units are on the media, and counted. -/
def programmed (s : State) (g : FarProg) : State := countWritten (putUnits s g) (g.units.length * unitBytes) g.weight

theorem programmed_unworn (s : State) (g : FarProg) : unworn (programmed s g).far = unworn (putUnits s g).far :=
  countWritten_unworn ..

section
variable {s : State} {g : FarProg}

/-- The units of a relocation move in the map, one after the other. -/
def moveUnits (g : FarProg) (old : BitVec 32) (o : FarOwner) : FarOwner :=
  (List.range g.units.length).foldl (fun o i =>
    moveMap o (g.lun + i) (old + BitVec.ofNat 32 i) (g.phys + BitVec.ofNat 32 i) g.gen) o

/-- The owner's map after a program has landed. -/
def landMap (g : FarProg) (o : FarOwner) : FarOwner := match g.moved with
  | some old => moveUnits g old o
  | none => setMap o g.lun g.phys g.gen

/-- A program's units stand on the media, and its record in the journal. -/
def journaled (s : State) (g : FarProg) : State := match g.moved with
  | some old => journal (programmed s g) jMove g.owner g.gen g.lun g.units.length g.phys old 0
  | none => journal (programmed s g) jMapSet g.owner g.gen g.lun 1 g.phys 0 0

theorem landProg_eq (s : State) (g : FarProg) : ∃ w j, landProg s g =
    { modOwner (journaled s g) g.owner (landMap g) with
      far := { (modOwner (journaled s g) g.owner (landMap g)).far with writes := w, gcs := j } } := by
  unfold landProg journaled landMap
  cases g.moved with
  | none => exact ⟨_, _, rfl⟩
  | some old => exact ⟨_, _, rfl⟩

theorem journaled_farCore : farCore (journaled s g).far = farCore (putUnits s g).far := by
  refine Eq.trans ?_ (farCore_of_unworn (programmed_unworn s g))
  unfold journaled
  split
  · exact journal_farCore ..
  · exact journal_farCore ..

theorem programmed_nextSeq : (programmed s g).far.nextSeq = s.far.nextSeq :=
  (congrArg FarTier.nextSeq (programmed_unworn s g)).trans rfl

theorem programmed_quiet (h : CkptQuiet s) : CkptQuiet (programmed s g) :=
  CkptQuiet.of_unworn (s := putUnits s g) h (programmed_unworn s g) (countWritten_time ..)

theorem journaled_nextSeq : s.far.nextSeq < (journaled s g).far.nextSeq := by
  rw [← programmed_nextSeq (s := s) (g := g)]
  unfold journaled
  split
  · exact journal_nextSeq ..
  · exact journal_nextSeq ..

theorem journaled_quiet (h : CkptQuiet s) : (journaled s g).far.nextSeq = s.far.nextSeq + 1 ∧
    ∀ o, ownerOf (journaled s g) o = ownerOf s o := by
  have hown : (programmed s g).far.owners = s.far.owners := (congrArg FarTier.owners (programmed_unworn s g)).trans rfl
  rw [← programmed_nextSeq (s := s) (g := g)]
  unfold journaled ownerOf
  rw [← hown]
  split
  · exact ⟨journal_quiet_nextSeq _ _ _ _ _ _ _ _ (programmed_quiet h),
      fun o => by rw [journal_quiet_owners _ _ _ _ _ _ _ _ (programmed_quiet h)]⟩
  · exact ⟨journal_quiet_nextSeq _ _ _ _ _ _ _ _ (programmed_quiet h),
      fun o => by rw [journal_quiet_owners _ _ _ _ _ _ _ _ (programmed_quiet h)]⟩

theorem landProg_progs : (landProg s g).far.progs = s.far.progs := by
  obtain ⟨w, j, h⟩ := landProg_eq s g
  rw [h]
  exact (congrArg FarTier.progs (journaled_farCore (s := s) (g := g))).trans rfl

theorem landProg_media : (landProg s g).far.media = (putUnits s g).far.media := by
  obtain ⟨w, j, h⟩ := landProg_eq s g
  rw [h]
  exact (congrArg FarTier.media (journaled_farCore (s := s) (g := g))).trans rfl

theorem landProg_nextSeq : (landProg s g).far.nextSeq = (journaled s g).far.nextSeq := by
  obtain ⟨w, j, h⟩ := landProg_eq s g
  rw [h]
  rfl

theorem ownerOf_landProg : ownerOf (landProg s g) g.owner = landMap g (ownerOf (journaled s g) g.owner) := by
  obtain ⟨w, j, h⟩ := landProg_eq s g
  rw [h]
  exact ownerOf_modOwner_self (journaled s g) g.owner (landMap g)

/-- A unit of a program, as it stands on the media. -/
def unitOf (g : FarProg) (i : Nat) (u : Mem × Bool) : MediaUnit :=
  { owner := g.owner, lun := g.lun + i, gen := g.gen, key := g.key, data := u.1, bad := u.2 }

theorem tblFind_putUnits {i : Nat} {u : Mem × Bool} (h : g.units[i]? = some u) :
    tblFind (putUnits s g).far.media (g.phys.toNat + i) = some (unitOf g i u) := by
  have hi := tblFind_foldl_tblSet_zipIdx g.phys.toNat (unitOf g) g.units 0 i h s.far.media
  rw [Nat.zero_add] at hi
  exact hi

theorem tblFind_setMap (o : FarOwner) (lun : Nat) (p gen : BitVec 32) :
    tblFind (setMap o lun p gen).map lun = some { phys := p, gen := gen } := tblFind_tblSet_self ..

/-- R172: the relocation of one unit moves the entry that names its source. -/
theorem tblFind_moveUnits {old : BitVec 32} {o : FarOwner} {e : MapEntry} (h1 : g.more = [])
    (he : tblFind o.map g.lun = some e) : tblFind (moveUnits g old o).map g.lun =
      some (if e.phys = old ∧ e.gen = g.gen then { phys := g.phys, gen := g.gen } else e) := by
  have hm : moveUnits g old o = moveMap o g.lun old g.phys g.gen := by
    simp [moveUnits, FarProg.units, h1]
  rw [hm, moveMap, he]
  dsimp only
  by_cases h : e.phys = old ∧ e.gen = g.gen
  · rw [if_pos h, if_pos (by simpa using h)]
    exact tblFind_setMap ..
  · rw [if_neg h, if_neg (by simpa using h), he]

end

/-! ### A program fails -/

theorem eq_some_of_orElse {α : Type} {a b : Option α} {x : α} (h : (a.orElse fun _ => b) = some x) :
    a = some x ∨ b = some x := by
  cases a with
  | none => exact .inr h
  | some y => exact .inl h

section
variable {s : State} {g : FarProg}

theorem oldestProg_channel {ch : Nat} (h : oldestProg s ch = some g) : g.channel = ch := by
  have hready {p : FarProg → Bool} (hf : s.far.progs.find? (fun g => progReady ch g && p g) = some g) : g.channel = ch := by
    have hp := List.find?_some hf
    rw [Bool.and_eq_true, progReady, Bool.and_eq_true, beq_iff_eq] at hp
    exact hp.1.1
  unfold oldestProg at h
  dsimp only at h
  split at h
  · exact (eq_some_of_orElse h).elim hready hready
  · exact (eq_some_of_orElse h).elim hready hready

theorem execPageProgramComplete_some {ch : Fin 64} (h : oldestProg s ch.val = some g) :
    exec (.pageProgramComplete ch) s = .next (landProg (modFar s fun t => { t with progs := t.progs.erase g }) g) := by
  show execPageProgramComplete ch s = _
  unfold execPageProgramComplete
  rw [h]

theorem execPageProgramComplete_none {ch : Fin 64} (h : oldestProg s ch.val = none) :
    exec (.pageProgramComplete ch) s = .next s := by
  show execPageProgramComplete ch s = _
  unfold execPageProgramComplete
  rw [h]

/-- A failed program has been dropped; what it wrote counts, and its block has an error more. -/
def progDropped (s : State) (g : FarProg) : State :=
  blockError (countWritten (modFar s fun t => { t with progs := t.progs.erase g }) (g.units.length * unitBytes) g.weight)
    (physBlk g.phys)

/-- A unit of a failed program, as a program of its own. -/
def progAgain (g : FarProg) (e : (Mem × Bool) × Nat) : FarProg :=
  { g with lun := g.lun + e.2, data := e.1.1, bad := e.1.2, more := [], moved := g.moved.map (· + BitVec.ofNat 32 e.2) }

theorem execProgramFailed_some {ch : Fin 64} (h : oldestProg s ch.val = some g) : exec (.programFailed ch) s =
    .next (g.units.zipIdx.foldl (fun s e => addProg s (progAgain g e)) (progDropped s g)) := by
  show execProgramFailed ch s = _
  unfold execProgramFailed
  rw [h]
  rfl

theorem execProgramFailed_none {ch : Fin 64} (h : oldestProg s ch.val = none) : exec (.programFailed ch) s = .next s := by
  show execProgramFailed ch s = _
  unfold execProgramFailed
  rw [h]

theorem progDropped_progs (s : State) (g : FarProg) : (progDropped s g).far.progs = s.far.progs.erase g := by
  have hp (z : State) : (unworn z.far).progs = z.far.progs := rfl
  rw [progDropped, ← hp, blockError_unworn, countWritten_unworn]
  rfl

theorem length_progs_foldl_addProg {α : Type} (f : α → FarProg) (l : List α) (s : State) :
    (l.foldl (fun s e => addProg s (f e)) s).far.progs.length = s.far.progs.length + l.length := by
  induction l generalizing s with
  | nil => rfl
  | cons e l ih =>
    rw [List.foldl_cons, ih, addProg_progs, List.length_append, List.length_singleton, List.length_cons]
    omega

theorem length_progs_again (s : State) (g : FarProg) :
    (g.units.zipIdx.foldl (fun s e => addProg s (progAgain g e)) (progDropped s g)).far.progs.length =
      (s.far.progs.erase g).length + g.units.length := by
  rw [length_progs_foldl_addProg, progDropped_progs, List.length_zipIdx]

/-- A failed program of one unit begins again as it was, but for its place. -/
theorem foldl_progAgain_single (h : g.more = []) (s : State) :
    g.units.zipIdx.foldl (fun s e => addProg s (progAgain g e)) s = addProg s g := by
  have hg : progAgain g ((g.data, g.bad), 0) = g := by
    obtain ⟨ch, phys, owner, lun, gen, key, data, bad, more, write, weight, moved⟩ := g
    obtain rfl : more = [] := h
    simp [progAgain]
  rw [FarProg.units, h]
  show addProg s (progAgain g ((g.data, g.bad), 0)) = _
  rw [hg]

theorem progs_again_single (h : g.more = []) {p : BitVec 32} (hp : placeFor (progDropped s g) g = p) :
    (g.units.zipIdx.foldl (fun s e => addProg s (progAgain g e)) (progDropped s g)).far.progs =
      s.far.progs.erase g ++ [{ g with phys := p }] := by
  rw [foldl_progAgain_single h, addProg_progs, progDropped_progs, hp]

end

/-! ### A journal page is durable -/

section
variable (s : State)

/-- The first `SEQ` that is not durable, once records below `upto` are. -/
def durableTo (s : State) (upto : Nat) : Nat := max s.far.durSeq (min upto s.far.nextSeq)

theorem unworn_commitCkpt (t : FarTier) : unworn (commitCkpt t) = commitCkpt (unworn t) := by
  have hn : (unworn t).ckptNext = t.ckptNext := rfl
  unfold commitCkpt
  rw [hn]
  cases t.ckptNext with
  | none => rfl
  | some c =>
    dsimp only
    by_cases hc : c.seq < t.durSeq
    · rw [if_pos hc]
      exact (if_pos hc).symm
    · rw [if_neg hc]
      exact (if_neg hc).symm

theorem makeDurable_unworn (upto : Nat) : unworn (makeDurable s upto).far =
    commitCkpt { unworn s.far with durSeq := durableTo s upto } := by
  have hw (n w : Nat) : unworn { (countWritten s n w).far with durSeq := durableTo s upto } =
      { unworn s.far with durSeq := durableTo s upto } :=
    congrArg (fun t : FarTier => { t with durSeq := durableTo s upto }) (countWritten_unworn s n w)
  unfold makeDurable
  extract_lets n pages
  rw [← hw (128 * (n - s.far.durSeq) + pages) (lifeWeight s)]
  exact unworn_commitCkpt _

theorem commitCkpt_keeps (t : FarTier) : (commitCkpt t).durSeq = t.durSeq ∧ (commitCkpt t).writes = t.writes ∧
    (commitCkpt t).zeroing = t.zeroing ∧ (commitCkpt t).nextSeq = t.nextSeq := by
  unfold commitCkpt
  split
  · split <;> exact ⟨rfl, rfl, rfl, rfl⟩
  · exact ⟨rfl, rfl, rfl, rfl⟩

theorem commitCkpt_durable {t : FarTier} {c : Ckpt} (h : t.ckptNext = some c) (hc : c.seq < t.durSeq) : commitCkpt t =
    { t with ckpt := c, ckptNext := none, journal := t.journal.filter fun r => c.seq < r.seq } := by
  unfold commitCkpt
  rw [h]
  exact if_pos hc

theorem ackCommand_far (r : Nat) : (ackCommand s r).far = s.far := by
  unfold ackCommand
  split
  · split
    · exact decideJob_far ..
    · rfl
  · rfl

theorem ackWrites_far : (ackWrites s).far =
    { s.far with writes := s.far.writes.filter fun w => !(w.left == 0 && w.lastSeq < s.far.durSeq) } :=
  foldl_far _ (fun s w => by
    split
    · exact ackCommand_far ..
    · rfl) _ _

theorem zeroingDone_far : (zeroingDone s).far =
    { s.far with zeroing := s.far.zeroing.filter fun z => !(z.2 < s.far.durSeq) } :=
  foldl_far _ (by exact fun _ _ => rfl) _ _

/-- The state in which records below `upto` are durable, with what that completes. -/
def durable (s : State) (upto : Nat) : State := zeroingDone (ackWrites (makeDurable s upto))

theorem durable_far (upto : Nat) : (durable s upto).far =
    { (makeDurable s upto).far with
      writes := (makeDurable s upto).far.writes.filter fun w => !(w.left == 0 && w.lastSeq < (makeDurable s upto).far.durSeq)
      zeroing := (makeDurable s upto).far.zeroing.filter fun z => !(z.2 < (makeDurable s upto).far.durSeq) } := by
  rw [durable, zeroingDone_far, ackWrites_far]

theorem makeDurable_keeps (upto : Nat) : (makeDurable s upto).far.durSeq = durableTo s upto ∧
    (makeDurable s upto).far.writes = s.far.writes ∧ (makeDurable s upto).far.zeroing = s.far.zeroing ∧
    (makeDurable s upto).far.nextSeq = s.far.nextSeq := by
  have hw := makeDurable_unworn s upto
  obtain ⟨hd, hwr, hz, hn⟩ := commitCkpt_keeps { unworn s.far with durSeq := durableTo s upto }
  exact ⟨((congrArg FarTier.durSeq hw).trans hd).trans rfl, ((congrArg FarTier.writes hw).trans hwr).trans rfl,
    ((congrArg FarTier.zeroing hw).trans hz).trans rfl, ((congrArg FarTier.nextSeq hw).trans hn).trans rfl⟩

theorem durable_durSeq (upto : Nat) : (durable s upto).far.durSeq = durableTo s upto := by
  obtain ⟨hd, -⟩ := makeDurable_keeps s upto
  rw [durable_far]
  exact hd

theorem mem_writes_durable (upto : Nat) {w : FarWrite} : w ∈ (durable s upto).far.writes ↔
    w ∈ s.far.writes ∧ ¬(w.left = 0 ∧ w.lastSeq < durableTo s upto) := by
  obtain ⟨hd, hw, -⟩ := makeDurable_keeps s upto
  rw [durable_far, hd, hw]
  dsimp only
  rw [List.mem_filter]
  simp [imp_iff_not_or]

theorem mem_zeroing_durable (upto : Nat) {z : Nat × Nat} : z ∈ (durable s upto).far.zeroing ↔
    z ∈ s.far.zeroing ∧ durableTo s upto ≤ z.2 := by
  obtain ⟨hd, -, hz, -⟩ := makeDurable_keeps s upto
  rw [durable_far, hd, hz]
  dsimp only
  rw [List.mem_filter]
  simp

variable {s} in
/-- R166: a checkpoint whose record is durable takes the place of the one before, and of the records before it. -/
theorem durable_ckpt {upto : Nat} {c : Ckpt} (hc : s.far.ckptNext = some c) (hn : c.seq < durableTo s upto) :
    (durable s upto).far.ckpt = c ∧ (durable s upto).far.ckptNext = none ∧
      ∀ r ∈ (durable s upto).far.journal, c.seq < r.seq := by
  have hd := (makeDurable_unworn s upto).trans (commitCkpt_durable (t := { unworn s.far with durSeq := durableTo s upto }) hc hn)
  rw [durable_far]
  refine ⟨(congrArg FarTier.ckpt hd).trans rfl, (congrArg FarTier.ckptNext hd).trans rfl, fun r hr => ?_⟩
  have hj : (makeDurable s upto).far.journal = s.far.journal.filter fun r => c.seq < r.seq :=
    (congrArg FarTier.journal hd).trans rfl
  have hr : r ∈ s.far.journal.filter fun r => c.seq < r.seq := hj ▸ hr
  simpa using (List.mem_filter.mp hr).2

/-! ### Checkpoints -/

theorem tblGet_map_snd {β : Type} (d : β) (f : β → β) (hf : f d = d) (t : Tbl β) (a : Nat) :
    tblGet d (t.map fun e => (e.1, f e.2)) a = f (tblGet d t a) := by
  induction t with
  | nil => exact hf.symm
  | cons e t ih =>
    obtain ⟨k, v⟩ := e
    simp only [List.map_cons, tblGet]
    split
    · rfl
    · exact ih

theorem ownerOf_checkpoint (o : Nat) : ownerOf (checkpoint s) o = dropStale (ownerOf s o) :=
  tblGet_map_snd (ownerZero o) dropStale rfl s.far.owners o

end
end Sys2Proof.Machine

open Sys2Proof Sys2Proof.Machine

/-- Settles O40: how a program lands or begins again, and what a durable journal page and a checkpoint leave. -/
theorem farTierProgramsAndJournal : Obligations.FarTierProgramsAndJournal := by
  unfold Obligations.FarTierProgramsAndJournal
  intro s ch after quiet
  refine ⟨fun h => ⟨execPageProgramComplete_none h, execProgramFailed_none h⟩, fun g hg => ⟨?_, ?_⟩, fun upto => ?_,
    fun hr hp => ?_, fun h => ?_⟩
  · refine ⟨_, execPageProgramComplete_some hg, landProg_progs, ?_, fun hq => ?_, fun i u hu => ?_, fun hm => ?_,
      fun old e hq h1 hm he => ?_⟩
    · rw [landProg_nextSeq]
      exact journaled_nextSeq (s := modFar s fun t => { t with progs := t.progs.erase g })
    · obtain ⟨hn, -⟩ := journaled_quiet (s := modFar s fun t => { t with progs := t.progs.erase g }) (g := g) hq
      exact landProg_nextSeq.trans hn
    · rw [landProg_media]
      exact tblFind_putUnits hu
    · rw [ownerOf_landProg, landMap, hm]
      exact tblFind_setMap ..
    · obtain ⟨-, ho⟩ := journaled_quiet (s := modFar s fun t => { t with progs := t.progs.erase g }) (g := g) hq
      rw [ownerOf_landProg, ho, landMap, hm]
      exact tblFind_moveUnits h1 he
  · intro s1 st
    have hplace : placeFor (progDropped s g) g = ((placeUnit s1 ch.val st).map Prod.snd).getD noPhys :=
      congrArg (fun c => ((placeUnit s1 c st).map Prod.snd).getD noPhys) (oldestProg_channel hg)
    refine ⟨⟨_, execProgramFailed_some hg, length_progs_again s g⟩,
      fun r h1 hr => ⟨_, execProgramFailed_some hg, progs_again_single h1 (hplace.trans ?_)⟩,
      fun h1 hr => ⟨_, execProgramFailed_some hg, progs_again_single h1 (hplace.trans ?_)⟩⟩
    · exact (congrArg (fun r => (r.map Prod.snd).getD noPhys) hr).trans rfl
    · exact (congrArg (fun r => (r.map Prod.snd).getD noPhys) hr).trans rfl
  · intro n
    exact ⟨durable s upto, rfl, durable_durSeq s upto, fun _ => mem_writes_durable s upto,
        fun _ => mem_zeroing_durable s upto, fun c hc hn => durable_ckpt hc hn⟩
  · refine ⟨checkpoint s, ?_, ⟨_, rfl, rfl, rfl⟩, rfl, fun o => ?_⟩
    · exact congrArg _ (if_neg (by simp [hr, hp]))
    · rw [ownerOf_checkpoint]
      exact ⟨rfl, rfl⟩
  · exact congrArg _ (if_pos (by rcases h with h | h <;> simp [h]))

end


section
/-! PROOFS. Blocks of the far tier, its recovery, and extents (R156, R158, R171, R176 to R184). -/

namespace Sys2Proof.Machine

/-- What the far tier is doing: programs, writes and collections. -/
def farJobs (t : FarTier) : List FarProg × List FarWrite × List GcJob := (t.progs, t.writes, t.gcs)

theorem farJobs_of_farCore {t u : FarTier} (h : farCore t = farCore u) : farJobs t = farJobs u := by
  show farJobs (farCore t) = farJobs (farCore u)
  rw [h]

theorem tblFind_filter_key {β : Type} (t : Tbl β) (p : Nat → Bool) (a : Nat) :
    tblFind (t.filter fun e => p e.1) a = if p a = true then tblFind t a else none := by
  induction t with
  | nil => simp [tblFind]
  | cons e t ih =>
    obtain ⟨k, v⟩ := e
    by_cases hp : p k = true
    · rw [List.filter_cons, if_pos hp, tblFind_cons, tblFind_cons, ih]
      by_cases hk : k = a
      · subst hk
        simp [hp]
      · simp [hk]
    · rw [List.filter_cons, if_neg hp, ih, tblFind_cons]
      by_cases hk : k = a
      · subst hk
        simp [hp]
      · simp [hk]

theorem tblFind_tblClear {β : Type} (t : Tbl β) {lo n a : Nat} (h1 : lo ≤ a) (h2 : a < lo + n) :
    tblFind (tblClear t lo n) a = none :=
  (tblFind_filter_key t (fun k => !(lo ≤ k && k < lo + n)) a).trans (if_neg (by simp [h1, h2]))

/-! ### Blocks that retire -/

section
variable (s : State)

theorem blkOf_modBlk_self (k : Nat) (f : Block → Block) : blkOf (modBlk s k f) k = f (blkOf s k) := tblGet_tblSet_self ..

theorem blkOf_of_blocks {s t : State} (h : t.far.blocks = s.far.blocks) (k : Nat) : blkOf t k = blkOf s k := by
  rw [blkOf, blkOf, h]

theorem journalBlk_farCore (type ch b : Nat) : farCore (journalBlk s type ch b).far = farCore s.far :=
  journal_farCore s type 0 0 0 0 0 0 (mkPhys ch b 0)

theorem journalBlk_blocks (type ch b : Nat) : (journalBlk s type ch b).far.blocks = s.far.blocks :=
  journal_blocks s type 0 0 0 0 0 0 (mkPhys ch b 0)

theorem checkReadOnly_far (ch : Nat) : ∃ b, (checkReadOnly s ch).far = { s.far with readOnly := b } := by
  unfold checkReadOnly
  dsimp only
  split
  · exact ⟨true, record_far ..⟩
  · exact ⟨s.far.readOnly, rfl⟩

/-- A retired block, before the channel looks at its pool. -/
def blockRetired (s : State) (ch b : Nat) : State :=
  modFar (dropCount (modBlk (journalBlk s jRetire ch b) (blkKey ch b) fun x => { x with state := .retired, dueRetire := false })
    rowH (blkKey ch b)) fun t => { t with media := tblClear t.media (blkKey ch b * 2048) 2048 }

theorem retireBlk_far (ch b : Nat) : ∃ r, (retireBlk s ch b).far = { (blockRetired s ch b).far with readOnly := r } :=
  checkReadOnly_far (blockRetired s ch b) ch

theorem retireBlk_jobs (ch b : Nat) : farJobs (retireBlk s ch b).far = farJobs s.far := by
  obtain ⟨r, h⟩ := retireBlk_far s ch b
  have hj := farJobs_of_farCore (journalBlk_farCore s jRetire ch b)
  rw [h]
  exact hj

theorem retireBlk_state (ch b : Nat) : (blkOf (retireBlk s ch b) (blkKey ch b)).state = .retired := by
  obtain ⟨r, h⟩ := retireBlk_far s ch b
  rw [blkOf, h]
  exact (congrArg Block.state (blkOf_modBlk_self (journalBlk s jRetire ch b) (blkKey ch b)
    fun x => { x with state := .retired, dueRetire := false })).trans rfl

theorem retireBlk_media (ch b u : Nat) (h1 : blkKey ch b * 2048 ≤ u) (h2 : u < blkKey ch b * 2048 + 2048) :
    tblFind (retireBlk s ch b).far.media u = none := by
  obtain ⟨r, h⟩ := retireBlk_far s ch b
  rw [h]
  exact tblFind_tblClear _ h1 h2

/-! ### Collection -/

theorem moveUnit_gcs (ch : Nat) (e : Nat × Nat × BitVec 32) : (moveUnit ch s e).far.gcs = s.far.gcs := by
  unfold moveUnit
  split
  next u s1 p _ hp =>
    have hc : s1.far.gcs = s.far.gcs := (congrArg FarTier.gcs (placeUnit_farCore hp)).trans rfl
    rw [← hc]
    dsimp only
    show (match s1.far.progs.getLast? with
      | some g => _
      | none => _ : FarTier).gcs = _
    split
    · split <;> rfl
    · rfl
  next => rfl

theorem moveValid_gcs (ch b : Nat) : (moveValid s ch b).far.gcs = s.far.gcs := by
  unfold moveValid
  generalize unitOrder (validUnits s ch b) = l
  induction l generalizing s with
  | nil => rfl
  | cons e l ih => rw [List.foldl_cons, ih, moveUnit_gcs]

/-- The collector's job on a block. -/
def gcJob (ch b : Nat) : GcJob := { channel := ch, block := b, lastSeq := 0 }

/-- A block taken as a victim, before its units move. -/
def victimTaken (s : State) (ch b : Nat) : State :=
  modFar (modBlk s (blkKey ch b) fun x => { x with state := .used }) fun t => { t with gcs := t.gcs ++ [gcJob ch b] }

theorem collect_eq (ch b : Nat) : collect s ch b = moveValid (victimTaken s ch b) ch b := rfl

theorem collect_gcs (ch b : Nat) : (collect s ch b).far.gcs = s.far.gcs ++ [gcJob ch b] := by
  rw [collect_eq, moveValid_gcs]
  rfl

end

section
variable {s : State} {ch : Fin 64}

theorem execGcVictim_collects {b : Nat} (hi : mediaIdle s = false) (hg : s.far.gcs.any (·.channel == ch.val) = false)
    (hv : victimOf s ch.val = some b) : exec (.gcVictim ch) s = .next (collect s ch.val b) := by
  refine (if_neg (by simp [hi, hg])).trans ?_
  rw [hv]

theorem execGcVictim_idle (h : ¬(mediaIdle s = false ∧ s.far.gcs.any (·.channel == ch.val) = false) ∨
    victimOf s ch.val = none) : exec (.gcVictim ch) s = .next s := by
  show execGcVictim ch s = _
  unfold execGcVictim
  split
  next => rfl
  next hf =>
    have hn : victimOf s ch.val = none := h.resolve_left (fun h => h (by simpa using hf))
    rw [hn]

theorem execGcErase_idle (h : mediaIdle s = true) : exec (.gcErase ch) s = .next s := by
  show execGcErase ch s = _
  unfold execGcErase
  split
  · rfl
  · exact if_pos (by simp [h])

/-- R171: a victim from which nothing moves any more, and whose moves are durable. -/
theorem execGcErase_ready {j : GcJob} (hj : s.far.gcs.find? (·.channel == ch.val) = some j) (hi : mediaIdle s = false)
    (hm : ∀ g ∈ s.far.progs, g.channel = ch.val → g.moved = none) (hd : j.lastSeq < s.far.durSeq ∨ j.lastSeq = 0) :
    exec (.gcErase ch) s =
      if !(validUnits s j.channel j.block).isEmpty then .next (moveValid s j.channel j.block)
      else if (blkOf s (blkKey j.channel j.block)).dueRetire then .next (retireBlk
        (modFar s fun t => { t with gcs := t.gcs.filter (·.channel != ch.val) }) j.channel j.block)
      else .next (modBlk (modFar s fun t => { t with gcs := t.gcs.filter (·.channel != ch.val) })
        (blkKey j.channel j.block) fun b => { b with state := .erasing }) := by
  have hmoving : (s.far.progs.any fun g => g.channel == ch.val && g.moved.isSome) = false := by
    simp only [List.any_eq_false]
    intro g hg
    by_cases hc : g.channel = ch.val
    · simp [hm g hg hc]
    · simp [hc]
  show execGcErase ch s = _
  unfold execGcErase
  rw [hj]
  dsimp only
  exact if_neg (by simp [hi, hmoving]; omega)

/-! ### Erased blocks -/

theorem execBlockEraseComplete_other {n : BitVec 15} (h : (blkOf s (blkKey ch.val n.toNat)).state ≠ .erasing) (f : Bool) :
    exec (.blockEraseComplete ch n f) s = .next s := if_pos h

/-- An erased block is free, with one erase more, and its units are gone. -/
def blockErased (s : State) (ch b : Nat) : State :=
  modFar (journalBlk (modBlk s (blkKey ch b) fun b => { blockZero with erases := b.erases + 1 }) jErase ch b) fun t =>
    { t with media := tblClear t.media (blkKey ch b * 2048) 2048 }

theorem execBlockEraseComplete_erased {n : BitVec 15} (h : (blkOf s (blkKey ch.val n.toNat)).state = .erasing) :
    exec (.blockEraseComplete ch n false) s = .next (placeWaiting (blockErased s ch.val n.toNat) ch.val) :=
  (if_neg (not_not.mpr h)).trans rfl

theorem execBlockEraseComplete_failed {n : BitVec 15} (h : (blkOf s (blkKey ch.val n.toNat)).state = .erasing) :
    exec (.blockEraseComplete ch n true) s =
      .next (retireBlk (countError s rowH (blkKey ch.val n.toNat) 1).1 ch.val n.toNat) :=
  (if_neg (not_not.mpr h)).trans (if_pos rfl)

theorem blkOf_blockErased (s : State) (ch b : Nat) : blkOf (blockErased s ch b) (blkKey ch b) =
    { blockZero with erases := (blkOf s (blkKey ch b)).erases + 1 } := by
  have hb : (blockErased s ch b).far.blocks =
      (modBlk s (blkKey ch b) fun b => { blockZero with erases := b.erases + 1 }).far.blocks :=
    journalBlk_blocks _ jErase ch b
  rw [blkOf_of_blocks hb, blkOf_modBlk_self]

theorem blockErased_media {ch b u : Nat} (h1 : blkKey ch b * 2048 ≤ u) (h2 : u < blkKey ch b * 2048 + 2048) :
    tblFind (blockErased s ch b).far.media u = none := tblFind_tblClear _ h1 h2

theorem blockErased_progs (s : State) (ch b : Nat) : (blockErased s ch b).far.progs = s.far.progs :=
  (congrArg FarTier.progs (journalBlk_farCore (modBlk s (blkKey ch b) fun b => { blockZero with erases := b.erases + 1 })
    jErase ch b)).trans rfl

theorem placeWaiting_none {z : State} {ch : Nat} (h : ∀ g ∈ z.far.progs, g.channel = ch → g.phys ≠ noPhys) :
    placeWaiting z ch = z := by
  have hf : (z.far.progs.filter fun g => g.channel == ch && g.phys == noPhys) = [] := by
    rw [List.filter_eq_nil_iff]
    intro g hg
    by_cases hc : g.channel = ch
    · simp [h g hg hc]
    · simp [hc]
  rw [placeWaiting, hf]
  rfl

/-! ### Wear levelling -/

/-- The channel's open destination is closed before the block worn most becomes it. -/
def wearClosed (s : State) (ch : Nat) : State := match openOf s ch .openG with
  | some b => modBlk s (blkKey ch b) fun x => { x with state := .used }
  | none => s

theorem wearClosed_unworn (s : State) (ch : Nat) : unworn (wearClosed s ch).far = unworn s.far := by
  unfold wearClosed
  split <;> rfl

theorem openBlk_wearClosed_gcs (s : State) (ch b : Nat) :
    (openBlk (wearClosed s ch) ch b .openG).far.gcs = s.far.gcs :=
  (congrArg FarTier.gcs ((openBlk_farCore (wearClosed s ch) ch b .openG).trans
    (farCore_of_unworn (wearClosed_unworn s ch)))).trans rfl

theorem execWearLevel_moves {v d : Nat × Nat} (hv : bestOf (fun a b : Nat × Nat => a.1 < b.1)
      (((listedBlks s ch.val).filter fun e => inUse e.2).map fun e => (e.2.erases, e.1)) = some v)
    (hd : bestOf (fun a b : Nat × Nat => b.1 < a.1) (freeCands s ch.val) = some d) (hi : mediaIdle s = false)
    (hg : s.far.gcs.any (·.channel == ch.val) = false) (hs : 256 < eraseSpread s ch.val)
    (hp : poolState (freeBlks s ch.val) < 2) (hn : s.far.progs.any (·.channel == ch.val) = false) :
    exec (.wearLevel ch) s = .next (collect (openBlk (wearClosed s ch.val) ch.val d.2 .openG) ch.val v.2) := by
  show execWearLevel ch s = _
  unfold execWearLevel
  dsimp only
  rw [hv, hd]
  dsimp only
  exact if_neg (by simp [hi, hg, hn, Nat.not_le.mpr hs, Nat.not_le.mpr hp])

theorem execWearLevel_even (h : eraseSpread s ch.val ≤ 256) : exec (.wearLevel ch) s = .next s := by
  show execWearLevel ch s = _
  unfold execWearLevel
  dsimp only
  split
  · exact if_pos (by simp [h])
  · rfl

end

/-! ### A unit that no retry reads (R179) -/

section
variable {s : State}

/-- A unit of the media is poison, and counted; its block falls due for refresh. -/
def unitLost (s : State) (o lun : Nat) (p : BitVec 32) : State :=
  modBlk (record (modFar s fun t => { t with
      uncorr := BitVec.ofNat 16 (satAdd 16 t.uncorr.toNat 1)
      media := t.media.map fun e => if e.1 = p.toNat then (e.1, { e.2 with bad := true }) else e }) 0x0303 srcFar
    (if o < 16 then o else noPane) (natLe 4 p.toNat ++ natLe 1 o ++ natLe 8 lun)) (physBlk p) fun b =>
      { b with dueRefresh := some (b.dueRefresh.getD s.time.beat) }

theorem execFarReadRetry_recovered {o : Fin 17} {n u : BitVec 32} (h : mappedAt s o.val n.toNat = some u) :
    exec (.farReadRetry o n true) s = .next s := by
  show execFarReadRetry o n true s = _
  unfold execFarReadRetry
  rw [h]
  rfl

theorem execFarReadRetry_lost {o : Fin 17} {n u : BitVec 32} (h : mappedAt s o.val n.toNat = some u) :
    exec (.farReadRetry o n false) s = .next (blockError (unitLost s o.val n.toNat u) (physBlk u)) := by
  show execFarReadRetry o n false s = _
  unfold execFarReadRetry
  rw [h]
  rfl

theorem tblFind_map_bad (t : Tbl MediaUnit) (p : Nat) {x : MediaUnit} (h : tblFind t p = some x) :
    tblFind (t.map fun e => if e.1 = p then (e.1, { e.2 with bad := true }) else e) p = some { x with bad := true } := by
  induction t with
  | nil => simp [tblFind] at h
  | cons e t ih =>
    obtain ⟨k, v⟩ := e
    rw [tblFind_cons] at h
    by_cases hk : k = p
    · rw [List.map_cons, if_pos hk, tblFind_cons, if_pos hk]
      rw [if_pos hk] at h
      rw [Option.some.inj h]
    · rw [List.map_cons, if_neg hk, tblFind_cons, if_neg hk]
      rw [if_neg hk] at h
      exact ih h

theorem unitLost_unworn (s : State) (o lun : Nat) (p : BitVec 32) : unworn (unitLost s o lun p).far = unworn { s.far with
    uncorr := BitVec.ofNat 16 (satAdd 16 s.far.uncorr.toNat 1)
    media := s.far.media.map fun e => if e.1 = p.toNat then (e.1, { e.2 with bad := true }) else e } := by
  rw [unitLost, modBlk_unworn, record_far]
  rfl

theorem unitLost_dueRefresh (s : State) (o lun : Nat) (p : BitVec 32) :
    (blkOf (unitLost s o lun p) (physBlk p)).dueRefresh ≠ none := by
  rw [unitLost, blkOf_modBlk_self]
  exact Option.some_ne_none _

theorem blockError_dueRefresh (s : State) (k j : Nat) : (blkOf (blockError s k) j).dueRefresh = (blkOf s j).dueRefresh := by
  unfold blockError
  dsimp only
  have hb : blkOf (countError s rowH k 1).1 j = blkOf s j := blkOf_of_blocks (congrArg FarTier.blocks (countError_far ..)) j
  split
  · rw [← hb, modBlk]
    show (tblGet blockZero (tblSet _ k _) j).dueRefresh = _
    rw [tblGet_tblSet]
    split
    next hj => rw [hj]; rfl
    next => rfl
  · rw [hb]

/-! ### Recovery (R184) -/

theorem foldl_farJobs {α : Type} (f : State → α → State) (hf : ∀ s a, farJobs (f s a).far = farJobs s.far) (l : List α)
    (s : State) : farJobs (l.foldl f s).far = farJobs s.far := by
  induction l generalizing s with
  | nil => rfl
  | cons a l ih => rw [List.foldl_cons, ih, hf]

theorem recoverBlk_jobs (s : State) (k : Nat) : farJobs (recoverBlk s k).far = farJobs s.far := by
  unfold recoverBlk
  dsimp only
  split
  · rfl
  split
  · exact retireBlk_jobs ..
  split
  · rfl
  · have hj := farJobs_of_farCore (journalBlk_farCore
      (modBlk s k fun b => { blockZero with erases := b.erases + 1 }) jErase (k / 32768) (k % 32768))
    exact hj

theorem commitCkpt_jobs (t : FarTier) : farJobs (commitCkpt t) = farJobs t := by
  unfold commitCkpt
  split
  · split <;> rfl
  · rfl

theorem makeDurable_jobs (s : State) (upto : Nat) : farJobs (makeDurable s upto).far = farJobs s.far := by
  show farJobs (unworn (makeDurable s upto).far) = _
  rw [makeDurable_unworn, commitCkpt_jobs]
  rfl

/-- The far tier with maps and blocks replayed, and nothing under way. -/
def replayed (s : State) : State :=
  modFar s fun t => { t with
    owners := (List.range 17).foldl (fun os o =>
      match tblFind ((durableRecs s.far).foldl replayMap s.far.ckpt.owners) o, tblFind s.far.owners o with
      | none, none => os
      | _, _ => tblSet os o { ownerOf s o with
          map := (tblGet (ownerZero o) ((durableRecs s.far).foldl replayMap s.far.ckpt.owners) o).map }) []
    progs := [], writes := [], gcs := []
    blocks := t.blocks.map fun e => (e.1, replayedBlk ((durableRecs s.far).foldl replayBlk s.far.ckpt.blocks) e.1 e.2) }

/-- The generations told and the blocks settled, before the journal is made durable. -/
def settled (s : State) : State :=
  (s.far.blocks.map Prod.fst).foldl recoverBlk ((List.range 17).foldl (fun z o =>
    if (ownerOf z o).gen = journalGen ((durableRecs s.far).foldl replayMap s.far.ckpt.owners) o then z
    else journal z jGenBump o (ownerOf z o).gen 0 0 0 0 0) (replayed s))

/-- The state after the recovery's checkpoint. -/
def recoveryCkpt (s : State) : State := checkpoint (makeDurable (settled s) (settled s).far.nextSeq)

theorem recoverFar_eq (s : State) : recoverFar s = zeroingDone (modFar
    (makeDurable (recoveryCkpt s) (recoveryCkpt s).far.nextSeq) fun t => { t with recovering := false }) := rfl

theorem settled_jobs (s : State) : farJobs (settled s).far = ([], [], []) := by
  refine (foldl_farJobs _ recoverBlk_jobs _ _).trans (foldl_farJobs _ (fun z o => ?_) _ _)
  split
  · rfl
  · exact farJobs_of_farCore (journal_farCore z jGenBump o (ownerOf z o).gen 0 0 0 0 0)

theorem checkpoint_jobs (s : State) : farJobs (checkpoint s).far = farJobs s.far := rfl

theorem recoveryCkpt_jobs (s : State) : farJobs (recoveryCkpt s).far = ([], [], []) := by
  rw [recoveryCkpt, checkpoint_jobs, makeDurable_jobs, settled_jobs]

/-- The checkpoint of a recovery is durable at once. -/
theorem makeDurable_checkpoint (z : State) : (makeDurable (checkpoint z) (checkpoint z).far.nextSeq).far.ckptNext = none ∧
    (checkpoint z).far.nextSeq ≤ (makeDurable (checkpoint z) (checkpoint z).far.nextSeq).far.durSeq := by
  have hto : (checkpoint z).far.nextSeq ≤ durableTo (checkpoint z) (checkpoint z).far.nextSeq := by
    rw [durableTo, Nat.min_self]
    exact Nat.le_max_right ..
  obtain ⟨c, hc, hseq⟩ : ∃ c, (checkpoint z).far.ckptNext = some c ∧ c.seq < (checkpoint z).far.nextSeq :=
    ⟨_, rfl, Nat.lt_succ_self _⟩
  obtain ⟨hd, -⟩ := makeDurable_keeps (checkpoint z) (checkpoint z).far.nextSeq
  refine ⟨?_, hd ▸ hto⟩
  have hdur := (makeDurable_unworn (checkpoint z) (checkpoint z).far.nextSeq).trans (commitCkpt_durable
    (t := { unworn (checkpoint z).far with durSeq := durableTo (checkpoint z) (checkpoint z).far.nextSeq }) hc
    (hseq.trans_le hto))
  exact (congrArg FarTier.ckptNext hdur).trans rfl

theorem makeDurable_recoveryCkpt (s : State) :
    (makeDurable (recoveryCkpt s) (recoveryCkpt s).far.nextSeq).far.ckptNext = none ∧
    (recoveryCkpt s).far.nextSeq ≤ (makeDurable (recoveryCkpt s) (recoveryCkpt s).far.nextSeq).far.durSeq :=
  makeDurable_checkpoint _

/-- R184: recovery ends with nothing under way and everything durable. -/
theorem recoverFar_far (s : State) : (recoverFar s).far.recovering = false ∧ farJobs (recoverFar s).far = ([], [], []) ∧
    (recoverFar s).far.ckptNext = none ∧ (recoverFar s).far.nextSeq ≤ (recoverFar s).far.durSeq := by
  obtain ⟨hnone, hdur⟩ := makeDurable_recoveryCkpt s
  obtain ⟨-, -, -, hn⟩ := makeDurable_keeps (recoveryCkpt s) (recoveryCkpt s).far.nextSeq
  have hjobs := (makeDurable_jobs (recoveryCkpt s) (recoveryCkpt s).far.nextSeq).trans (recoveryCkpt_jobs s)
  rw [recoverFar_eq, zeroingDone_far]
  generalize makeDurable (recoveryCkpt s) (recoveryCkpt s).far.nextSeq = z at hnone hdur hn hjobs ⊢
  exact ⟨rfl, hjobs, hnone, hn.trans_le hdur⟩

/-! ### Extents (R156, R158) -/

variable {lead : Pane16} {g : Group} {d : List Byte} {r : Run} {n : Nat} {e : Extent}

/-- An extent is due to begin. -/
def ExtentDue (d : List Byte) (r : Run) (n : Nat) (e : Extent) : Prop :=
  r.started = true ∧ r.held = none ∧ e.start ≤ runBeat r - r.planStep * planStepBeats d ∧
    runBeat r - r.planStep * planStepBeats d < planStepBeats d ∧ n ∉ r.extentsDone ∧ r.extents.any (fun x => x.1 == n) = false

theorem extentDue_iff : ExtentDue d r n e ↔ (r.started && r.held.isNone &&
    decide (e.start ≤ runBeat r - r.planStep * planStepBeats d) &&
    decide (runBeat r - r.planStep * planStepBeats d < planStepBeats d) && !r.extentsDone.contains n &&
    !(r.extents.any fun x => x.1 == n)) = true := by
  simp [ExtentDue, and_assoc]

theorem execExtentStart_due (hl : groupLed s lead.val = some g) (hd : g.plan = some d) (hr : g.run = some r)
    (he : (planExtents d)[n]? = some e) (h : ExtentDue d r n e) : exec (.extentStart lead n) s =
      .next (modRun s lead.val fun r =>
        { r with extents := r.extents ++ [(n, r.planStep)], extentsDone := r.extentsDone ++ [n] }) := by
  show execExtentStart lead n s = _
  unfold execExtentStart
  simp only [hl, hd, hr, he]
  exact if_pos (extentDue_iff.mp h)

theorem execExtentStart_idle (hl : groupLed s lead.val = some g) (hd : g.plan = some d) (hr : g.run = some r)
    (he : (planExtents d)[n]? = some e) (h : ¬ExtentDue d r n e) : exec (.extentStart lead n) s = .next s := by
  show execExtentStart lead n s = _
  unfold execExtentStart
  simp only [hl, hd, hr, he]
  exact if_neg (fun hb => h (extentDue_iff.mpr hb))

theorem execExtentDone_eq (hl : groupLed s lead.val = some g) (hd : g.plan = some d) (hr : g.run = some r)
    (he : (planExtents d)[n]? = some e) : exec (.extentDone lead n) s =
      if r.extents.any fun x => x.1 == n then .next (arriveRef (farToNear
        (modRun s lead.val fun r => { r with extents := r.extents.filter fun x => x.1 != n })
        (planPane g (gaPane e.far)) (gaOfs e.far) e.length ((planMaskPanes g e.paneMask).map fun p => (p, gaOfs e.near)))
        g e.doneLatch)
      else .next s := by
  show execExtentDone lead n s = _
  unfold execExtentDone
  simp only [hl, hd, hr, he]

end
end Sys2Proof.Machine

open Sys2Proof Sys2Proof.Machine

/-- Settles O41: the collector, the erase, wear levelling, the lost unit and recovery by what they leave of the far tier;
an extent begins when it is due, and its end writes its bytes. -/
theorem farTierMediaAndExtents : Obligations.FarTierMediaAndExtents := by
  unfold Obligations.FarTierMediaAndExtents
  refine ⟨fun s ch => ?_, fun s lead g d r n e hl hd hr he => ?_⟩
  · intro after free gc
    refine ⟨fun b hf hv => ⟨_, execGcVictim_collects hf.1 hf.2 hv, collect_gcs ..⟩, execGcVictim_idle,
      fun j hj hi hm hd => ⟨fun hv => ?_, fun hv => ?_⟩, execGcErase_idle, fun n => ?_, fun v d hv hd hf hs hp hn => ?_,
      execWearLevel_even, fun h => if_pos h, fun o n u hu => ⟨execFarReadRetry_recovered hu, ?_⟩, fun us => ?_,
      fun hready hrec hpow => ?_⟩
    · have hgo := (execGcErase_ready hj hi hm hd).trans (if_neg (by simp [hv]))
      by_cases hdue : (blkOf s (blkKey j.channel j.block)).dueRetire = true
      · have hjobs := retireBlk_jobs (modFar s fun t => { t with gcs := t.gcs.filter (·.channel != ch.val) }) j.channel j.block
        exact ⟨_, hgo.trans (if_pos hdue), congrArg (·.2.2) hjobs, (retireBlk_state ..).trans (if_pos hdue).symm⟩
      · refine ⟨_, hgo.trans (if_neg hdue), rfl, ?_⟩
        exact (congrArg Block.state (blkOf_modBlk_self _ _ _)).trans (if_neg hdue).symm
    · have hgo := (execGcErase_ready hj hi hm hd).trans (if_pos (by simpa using hv))
      exact ⟨_, hgo, moveValid_gcs ..⟩
    · intro k gone
      refine ⟨execBlockEraseComplete_other, fun h => ⟨⟨blockErased s ch.val n.toNat, execBlockEraseComplete_erased h,
        blkOf_blockErased .., fun u h1 h2 => blockErased_media h1 h2, fun hw => placeWaiting_none ?_⟩,
        _, execBlockEraseComplete_failed h, retireBlk_state .., retireBlk_media _ ch.val n.toNat⟩⟩
      rw [blockErased_progs]
      exact hw
    · refine ⟨_, execWearLevel_moves hv hd hf.1 hf.2 hs hp hn, (collect_gcs ..).trans (congrArg (· ++ _) ?_)⟩
      exact openBlk_wearClosed_gcs s ch.val d.2
    · have hfar := (blockError_unworn (unitLost s o.val n.toNat u) (physBlk u)).trans (unitLost_unworn ..)
      refine ⟨_, execFarReadRetry_lost hu, fun x hx => ?_, (congrArg FarTier.uncorr hfar).trans rfl, ?_⟩
      · exact (congrArg (tblFind · u.toNat) (congrArg FarTier.media hfar)).trans (tblFind_map_bad _ _ hx)
      · rw [blockError_dueRefresh]
        exact unitLost_dueRefresh s o.val n.toNat u
    · refine ⟨_, rfl, ?_⟩
      dsimp only
      split
      · rw [record_far]
        rfl
      · rfl
    · obtain ⟨hnot, hjobs, hck, hdur⟩ := recoverFar_far s
      refine ⟨recoverFar s, congrArg _ (if_pos (by simp [hready, hrec, hpow])), hnot, congrArg (·.1) hjobs,
        congrArg (·.2.1) hjobs, congrArg (·.2.2) hjobs, hck, hdur⟩
  · intro rel due
    exact ⟨execExtentStart_due hl hd hr he, execExtentStart_idle hl hd hr he,
      fun h => (execExtentDone_eq hl hd hr he).trans (if_pos h),
      fun h => (execExtentDone_eq hl hd hr he).trans (if_neg (ne_true_of_eq_false h))⟩

end


section
/-! PROOFS. What a hub reset clears, and how the hub starts (R411, R431, R432, R485). -/

namespace Sys2Proof.Machine

/-! ### What is cleared -/

/-- A state as a hub reset leaves it. -/
structure Cleared (s t : State) : Prop where
  groups : t.groups = []
  latches : t.latches = []
  ccr : t.ccr = []
  cells : t.cells = []
  ports : t.links.ports = []
  coord : t.links.coord = []
  ready : t.dk.ready = false
  mailboxes : t.dk.mbx = []
  time : t.time = { BeatUnit.reset with trim := s.time.trim }
  far : t.far = resetFar s.far
  power : t.power = resetPower s.power
  panes : t.panes = s.panes.map fun e => (e.1, resetPane e.2)
  sinceHubFault : t.faults.sinceHubFault = s.faults.sinceHubFault
  selfResets : t.faults.selfResets = []

/-- Cleared fields are not of the metering, the recorder or the host's side. -/
theorem Cleared.of_hubv {s t u : State} (h : Cleared s t) (hu : hubv u = hubv t) : Cleared s u where
  groups := (congrArg State.groups hu).trans h.groups
  latches := (congrArg State.latches hu).trans h.latches
  ccr := (congrArg State.ccr hu).trans h.ccr
  cells := (congrArg State.cells hu).trans h.cells
  ports := (congrArg (fun s : State => s.links.ports) hu).trans h.ports
  coord := (congrArg (fun s : State => s.links.coord) hu).trans h.coord
  ready := (congrArg (fun s : State => s.dk.ready) hu).trans h.ready
  mailboxes := (congrArg (fun s : State => s.dk.mbx) hu).trans h.mailboxes
  time := (congrArg State.time hu).trans h.time
  far := (congrArg State.far hu).trans h.far
  power := (congrArg State.power hu).trans h.power
  panes := (congrArg State.panes hu).trans h.panes
  sinceHubFault := (congrArg (fun s : State => s.faults.sinceHubFault) hu).trans h.sinceHubFault
  selfResets := (congrArg (fun s : State => s.faults.selfResets) hu).trans h.selfResets

theorem cleared_hubClear (s : State) : Cleared s (hubClear s) := by
  obtain ⟨z, hz, hc⟩ : ∃ z, hubClear s = keepSpaces z ∧ Cleared s z :=
    ⟨_, rfl, ⟨rfl, rfl, rfl, rfl, rfl, rfl, rfl, rfl, rfl, rfl, rfl, rfl, rfl, rfl⟩⟩
  rw [hz]
  exact hc.of_hubv (keepSpaces_hubv z)

/-- What is cleared does not depend on the metering, the recorder or the host's side of what it was. -/
theorem Cleared.of_source {s s' t : State} (h : Cleared s' t) (hs : hubv s' = hubv s) : Cleared s t :=
  { h with
    time := h.time.trans ((congrArg (fun x : State => { BeatUnit.reset with trim := x.time.trim }) hs).trans rfl)
    far := h.far.trans ((congrArg (fun x : State => resetFar x.far) hs).trans rfl)
    power := h.power.trans ((congrArg (fun x : State => resetPower x.power) hs).trans rfl)
    panes := h.panes.trans ((congrArg (fun x : State => x.panes.map fun e => (e.1, resetPane e.2)) hs).trans rfl)
    sinceHubFault := h.sinceHubFault.trans ((congrArg (fun x : State => x.faults.sinceHubFault) hs).trans rfl) }

/-! ### The hub starts -/

theorem portOf_of_ports {s : State} (h : s.links.ports = []) (p : Nat) : portOf s p = Port.reset := by
  rw [portOf, h]
  rfl

theorem portsDown_of_ports {s : State} (h : s.links.ports = []) : portsDown s = s := by
  unfold portsDown
  generalize List.range 6 = l
  induction l with
  | nil => rfl
  | cons p l ih =>
    have hd : (portOf s p).state = lsDown := by rw [portOf_of_ports h]; rfl
    rw [List.foldl_cons, if_pos hd, ih]

theorem ledgerCheck_test {s : State} (h : s.links.ports = []) (held : Bool) : ∃ t, ledgerCheck s held = { s with test := t } := by
  unfold ledgerCheck
  dsimp only
  split
  · exact ⟨_, rfl⟩
  · unfold startHubTest
    rw [portsDown_of_ports (by exact h)]
    exact ⟨_, rfl⟩

theorem hubStart_hubv {s : State} (h : s.links.ports = []) (held lost : Bool) : ∃ t, hubv (hubStart s held lost) =
    hubv { s with power := { s.power with hubUp := true, t0 := 0 }, test := t } := by
  obtain ⟨t, ht⟩ := ledgerCheck_test (s := { s with power := { s.power with hubUp := true, t0 := 0 } }) h held
  refine ⟨t, ?_⟩
  unfold hubStart
  dsimp only
  rw [ht]
  split
  · rw [recorderLost_hubv]
  · rfl

theorem ledgerCheck_power (s : State) (held : Bool) : (ledgerCheck s held).power = s.power := by
  unfold ledgerCheck
  dsimp only
  split
  · rfl
  · rw [startHubTest_power]

theorem ledgerCheck_far (s : State) (held : Bool) : (ledgerCheck s held).far = s.far := by
  unfold ledgerCheck
  dsimp only
  split
  · rfl
  · rw [startHubTest_far]

theorem hubStart_power (s : State) (held lost : Bool) : (hubStart s held lost).power = { s.power with hubUp := true, t0 := 0 } := by
  unfold hubStart
  dsimp only
  split
  · rw [recorderLost_power, ledgerCheck_power]
  · rw [ledgerCheck_power]

theorem hubStart_far (s : State) (held lost : Bool) : (hubStart s held lost).far = s.far := by
  unfold hubStart
  dsimp only
  split
  · rw [recorderLost_far, ledgerCheck_far]
  · rw [ledgerCheck_far]

/-! ### The module's reset (R411) -/

theorem queueNotice_hubv (s : State) (a1 a2 : Nat) (a3 : BitVec 32) (a4 : BitVec 16) (a5 a6 a7 : Nat) : ∃ ns k l,
    hubv (queueNotice s a1 a2 a3 a4 a5 a6 a7) =
      hubv { s with faults := { s.faults with notices := ns, nseq := k, noticesLost := l } } := by
  unfold queueNotice
  dsimp only
  split
  · exact ⟨_, _, _, msix_hubv ..⟩
  split
  · exact ⟨_, _, _, msix_hubv ..⟩
  · exact ⟨_, _, _, rfl⟩

theorem resetDone_hubv (s : State) (a1 a2 a3 : Nat) (a4 : BitVec 32) (a5 : BitVec 16) (a6 : Nat) : ∃ ns k l,
    hubv (resetDone s a1 a2 a3 a4 a5 a6) =
      hubv { s with faults := { s.faults with notices := ns, nseq := k, noticesLost := l } } := by
  obtain ⟨ns, k, l, h⟩ := queueNotice_hubv
    (record s 0x0602 a3 a2 (natLe 1 a1 ++ natLe 1 s.faults.lastReset.toNat)) 4 a2 a4 a5 a1 a6 a3
  refine ⟨ns, k, l, h.trans ?_⟩
  have hr := record_hubv s 0x0602 a3 a2 (natLe 1 a1 ++ natLe 1 s.faults.lastReset.toNat)
  exact congrArg (fun x : State => { x with faults := { x.faults with notices := ns, nseq := k, noticesLost := l } }) hr

/-- What a module reset leaves: what a hub reset clears, with the hub in use again and the cause noted. -/
theorem moduleReset_hubv (s : State) (c : BitVec 3) : ∃ z t ns k l, Cleared s z ∧ hubv (moduleReset s c) = hubv { z with
    power := { z.power with hubUp := true, t0 := 0 }, test := t
    faults := { z.faults with lastReset := c, notices := ns, nseq := k, noticesLost := l } } := by
  have hz : Cleared s (hubClear (recorderReset (islandReset s))) :=
    (cleared_hubClear _).of_source ((recorderReset_hubv _).trans (islandReset_hubv _))
  unfold moduleReset
  dsimp only
  generalize hubClear (recorderReset (islandReset s)) = z at hz ⊢
  obtain ⟨t, ht⟩ := hubStart_hubv (s := { z with faults := { z.faults with lastReset := c } }) hz.ports true (ringTested s)
  generalize hubStart { z with faults := { z.faults with lastReset := c } } true (ringTested s) = u at ht ⊢
  obtain ⟨ns, k, l, hr⟩ := resetDone_hubv u 4 noPane srcDoorkeeper 0 0 0xFF
  refine ⟨z, t, ns, k, l, hz, hr.trans ?_⟩
  exact congrArg (fun x : State => { x with faults := { x.faults with notices := ns, nseq := k, noticesLost := l } }) ht

end Sys2Proof.Machine
end


section
/-! PROOFS. The pins, the start-up, the sensors and the cap (R182, R411, R465, R485, R496 to R500, R512, R526). -/

namespace Sys2Proof.Machine

/-! ### Losing power -/

theorem foldl_powerLost {α : Type} (f : State → α → State) (hf : ∀ s a, (f s a).far.powerLost = s.far.powerLost) (l : List α)
    (s : State) : (l.foldl f s).far.powerLost = s.far.powerLost := by
  induction l generalizing s with
  | nil => rfl
  | cons a l ih => rw [List.foldl_cons, ih, hf]

theorem landProg_powerLost (s : State) (g : FarProg) : (landProg s g).far.powerLost = s.far.powerLost := by
  obtain ⟨w, j, h⟩ := landProg_eq s g
  rw [h]
  exact (congrArg FarTier.powerLost (journaled_farCore (s := s) (g := g))).trans rfl

theorem commitCkpt_powerLost (t : FarTier) : (commitCkpt t).powerLost = t.powerLost := by
  unfold commitCkpt
  split
  · split <;> rfl
  · rfl

theorem makeDurable_powerLost (s : State) (upto : Nat) : (makeDurable s upto).far.powerLost = s.far.powerLost :=
  ((congrArg FarTier.powerLost (makeDurable_unworn s upto)).trans (commitCkpt_powerLost _)).trans rfl

theorem makeDurable_all (s : State) : (makeDurable s s.far.nextSeq).far.nextSeq ≤ (makeDurable s s.far.nextSeq).far.durSeq := by
  obtain ⟨hd, -, -, hn⟩ := makeDurable_keeps s s.far.nextSeq
  rw [hd, hn, durableTo, Nat.min_self]
  exact Nat.le_max_right ..

/-- R182: after the loss of input power everything is durable. -/
theorem farPowerLoss_far (s : State) : (farPowerLoss s).far.powerLost = true ∧
    (farPowerLoss s).far.nextSeq ≤ (farPowerLoss s).far.durSeq := by
  unfold farPowerLoss
  dsimp only
  refine ⟨?_, makeDurable_all _⟩
  rw [makeDurable_powerLost, foldl_powerLost _ landProg_powerLost]
  rfl

theorem islandLoss_running (s : State) : (islandLoss s).island.running = false := by
  unfold islandLoss
  split
  next h => simpa using h
  next => rfl

theorem keepSpaces_running (s : State) : (keepSpaces s).island.running = s.island.running := by
  unfold keepSpaces
  generalize List.range 16 = l
  induction l generalizing s with
  | nil => rfl
  | cons p l ih =>
    rw [List.foldl_cons, ih]
    split <;> rfl

theorem hubClear_running (s : State) : (hubClear s).island.running = s.island.running := by
  obtain ⟨z, hz, hi⟩ : ∃ z, hubClear s = keepSpaces z ∧ z.island = s.island := ⟨_, rfl, rfl⟩
  rw [hz, keepSpaces_running, hi]

/-- What the module holds when it is on bank power: everything durable, and its records made. -/
theorem holdupActions_spec (s : State) : (holdupActions s).far.powerLost = true ∧
    (holdupActions s).far.nextSeq ≤ (holdupActions s).far.durSeq ∧ (holdupActions s).island.running = false ∧
    (holdupActions s).time = s.time := by
  obtain ⟨hp, hd⟩ := farPowerLoss_far s
  have hv : hubv (holdupActions s) = hubv (farPowerLoss s) := islandLoss_hubv _
  have hf : (holdupActions s).far = (farPowerLoss s).far := (congrArg State.far hv).trans rfl
  have ht : (holdupActions s).time = (farPowerLoss s).time := (congrArg State.time hv).trans rfl
  rw [hf, ht]
  exact ⟨hp, hd, islandLoss_running _, farPowerLoss_time s⟩

/-- What a hub that loses its power leaves cleared. -/
def offCleared (s t : State) : Prop := t.groups = [] ∧ t.latches = [] ∧ t.ccr = [] ∧ t.cells = [] ∧ t.links.coord = [] ∧
  t.dk.ready = false ∧ t.time.mode = .unsync ∧ t.time.trim = s.time.trim

theorem Cleared.off {s t : State} (h : Cleared s t) : offCleared s t :=
  ⟨h.groups, h.latches, h.ccr, h.cells, h.coord, h.ready, by rw [h.time]; rfl, by rw [h.time]⟩

theorem hubOff_spec (s : State) (c : BitVec 3) : offCleared s (hubOff s c) ∧ (hubOff s c).far = resetFar s.far ∧
    (hubOff s c).power = { resetPower s.power with hubUp := false, pwrGood := false, thermTrip := false } ∧
    (hubOff s c).faults.lastReset = c ∧ (hubOff s c).island.running = s.island.running := by
  have hc : Cleared s (hubClear (recorderReset s)) := (cleared_hubClear _).of_source (recorderReset_hubv s)
  have hr : (hubClear (recorderReset s)).island.running = s.island.running := hubClear_running (recorderReset s)
  unfold hubOff
  dsimp only
  generalize hubClear (recorderReset s) = z at hc hr ⊢
  refine ⟨hc.off, hc.far, ?_, rfl, hr⟩
  rw [hc.power]

section
variable {s : State}

theorem offCleared_of_time {s z t : State} (h : offCleared z t) (ht : z.time = s.time) : offCleared s t := by
  unfold offCleared
  rw [← ht]
  exact h

/-- R182, R465: after the loss of input power the hub is in reset, everything is durable, and what the hub holds cleared. -/
theorem exec_inputPowerLoss (h : s.power.input = true) : ∃ t, exec .inputPowerLoss s = .next t ∧ t.power.input = false ∧
    t.power.hubUp = false ∧ t.power.pwrGood = false ∧ t.power.holdupOk = false ∧ t.far.powerLost = true ∧
    t.far.nextSeq ≤ t.far.durSeq ∧ t.island.running = false ∧ offCleared s t := by
  have he : exec .inputPowerLoss s = .next (modPower (hubOff (holdupActions s) 0) fun p =>
      { p with input := false, holdupOk := false }) := if_neg (by simp [h])
  obtain ⟨hpl, hdur, hrun, htime⟩ := holdupActions_spec s
  obtain ⟨hc, hfar, hpow, -, hisl⟩ := hubOff_spec (holdupActions s) 0
  have hc := offCleared_of_time hc htime
  rw [hrun] at hisl
  rw [he]
  generalize hubOff (holdupActions s) 0 = z at hc hfar hpow hisl ⊢
  refine ⟨_, rfl, rfl, ?_, ?_, rfl, ?_, ?_, hisl, hc⟩
  · show z.power.hubUp = false
    rw [hpow]
  · show z.power.pwrGood = false
    rw [hpow]
  · show z.far.powerLost = true
    rw [hfar]
    exact hpl
  · show z.far.nextSeq ≤ z.far.durSeq
    rw [hfar]
    exact hdur

/-- R491, R532: with `PWR_EN` low the hub is in reset; a module that was not parked has done its hold-up actions. -/
theorem exec_pwrEnDeassert (h : s.power.pwrEn = true) : ∃ t, exec .pwrEnDeassert s = .next t ∧ t.power.pwrEn = false ∧
    t.power.hubUp = false ∧ t.power.pwrGood = false ∧ t.faults.lastReset = 4 ∧ offCleared s t ∧
    (s.test.parked = false → t.far.nextSeq ≤ t.far.durSeq ∧ t.island.running = false) := by
  have he : exec .pwrEnDeassert s = .next (modPower (hubOff (if s.test.parked then s else holdupActions s) 4) fun p =>
      { p with pwrEn := false }) := if_neg (by simp [h])
  obtain ⟨-, hdur, hrun, htime⟩ := holdupActions_spec s
  obtain ⟨hc, hfar, hpow, hlast, hisl⟩ := hubOff_spec (if s.test.parked then s else holdupActions s) 4
  have hc : offCleared s (hubOff (if s.test.parked then s else holdupActions s) 4) := by
    refine offCleared_of_time hc ?_
    split
    · rfl
    · exact htime
  rw [he]
  generalize hubOff (if s.test.parked then s else holdupActions s) 4 = z at hc hfar hpow hlast hisl ⊢
  refine ⟨_, rfl, rfl, ?_, ?_, hlast, hc, fun hn => ⟨?_, ?_⟩⟩
  · show z.power.hubUp = false
    rw [hpow]
  · show z.power.pwrGood = false
    rw [hpow]
  · show z.far.nextSeq ≤ z.far.durSeq
    rw [hfar, hn]
    exact hdur
  · rw [hn] at hisl
    exact hisl.trans hrun

/-! ### Start-up -/

theorem execResetNRise_starts {x : BitVec 4} (hu : s.power.hubUp = false) (hm : mayStart s = true) :
    exec (.resetNRise x) s = .next (hubStart (modFar
      (modPower s fun p => { p with resetN := true, straps := x, sbAddr := 0x30 + x.setWidth 8 })
      fun t => { t with powerLost := false }) false true) := if_neg (by simp [hu, hm])

theorem exec_resetNRise (x : BitVec 4) (hu : s.power.hubUp = false) (hm : mayStart s = true) :
    ∃ t, exec (.resetNRise x) s = .next t ∧ t.power.hubUp = true ∧ t.power.resetN = true ∧ t.power.straps = x ∧
      t.power.sbAddr = 0x30 + x.setWidth 8 ∧ t.far.powerLost = false ∧ t.power.t0 = 0 := by
  refine ⟨_, execResetNRise_starts hu hm, ?_⟩
  rw [hubStart_power, hubStart_far]
  exact ⟨rfl, rfl, rfl, rfl, rfl, rfl⟩

theorem execResetNRise_idle {x : BitVec 4} (h : s.power.hubUp = true ∨ mayStart s = false) :
    exec (.resetNRise x) s = .next s := if_pos (by rcases h with h | h <;> simp [h])

/-- R411: a pulse resets the module; the far tier keeps what it holds. -/
theorem exec_resetNPulse (hu : s.power.hubUp = true) (hm : mayStart s = true) : ∃ t, exec .resetNPulse s = .next t ∧
    offCleared s t ∧ t.power.hubUp = true ∧ t.faults.lastReset = 0 ∧ t.far.recovering = true ∧
    t.far.owners = s.far.owners ∧ t.far.media = s.far.media := by
  refine ⟨moduleReset s 0, congrArg _ (if_pos (by simp [hu, hm])), ?_⟩
  obtain ⟨z, tu, ns, k, l, hc, hv⟩ := moduleReset_hubv s 0
  generalize moduleReset s 0 = t at hv ⊢
  have hfar : t.far = resetFar s.far := ((congrArg State.far hv).trans rfl).trans hc.far
  refine ⟨?_, (congrArg (fun x : State => x.power.hubUp) hv).trans rfl,
    (congrArg (fun x : State => x.faults.lastReset) hv).trans rfl, ?_⟩
  · show offCleared s (hubv t)
    rw [hv]
    exact hc.off
  · rw [hfar]
    exact ⟨rfl, rfl, rfl⟩

/-- The staged drains of a start-up begin again. -/
def readyState (s : State) : State :=
  selfResetOver { s with dk := { s.dk with ready := true }, power := { s.power with fwRunning := s.power.firmware } } 4 0

theorem execDoorkeeperReady_ready (hu : s.power.hubUp = true) (hr : s.dk.ready = false) (ht : s.test.hub ≠ tsActive)
    (hd : s.faults.hubDead = false) : exec .doorkeeperReady s =
      .next (((s.store.drains.filter fun e => e.2.staged).map Prod.fst).foldl startDrain (readyState s)) :=
  if_pos (by simp [hu, hr, ht, hd])

/-- The firmware that runs is the one that the start-up has loaded. -/
theorem exec_doorkeeperReady (hu : s.power.hubUp = true) (hr : s.dk.ready = false) (ht : s.test.hub ≠ tsActive)
    (hd : s.faults.hubDead = false) : ∃ t, exec .doorkeeperReady s = .next t ∧ t.dk.ready = true ∧
      t.power.fwRunning = s.power.firmware := by
  refine ⟨_, execDoorkeeperReady_ready hu hr ht hd, ?_⟩
  rw [foldl_dk _ startDrain_dk, foldl_power _ startDrain_power]
  exact ⟨rfl, rfl⟩

theorem execDoorkeeperReady_idle (h : s.power.hubUp = false ∨ s.dk.ready = true) : exec .doorkeeperReady s = .next s :=
  if_neg (by rcases h with h | h <;> simp [h])

/-! ### The start-up shutter (R348) -/

/-- What the start-up looks at in a pane. -/
def bringup (s : State) (p : Nat) : PaneState × Option Shutter := ((pane s p).state, (pane s p).shutter)

theorem bringup_modPane (s : State) (p : Nat) (f : Pane → Pane) (hf : ∀ x, (f x).state = x.state ∧ (f x).shutter = x.shutter) :
    bringup (modPane s p f) = bringup s := by
  funext q
  unfold bringup
  rw [pane_modPane]
  split
  next h => rw [h, (hf _).1, (hf _).2]
  next => rfl

theorem bringup_setPane (s : State) (p : Nat) (v : Pane) (hv : v.state = (pane s p).state ∧ v.shutter = (pane s p).shutter) :
    bringup (setPane s p v) = bringup s := by
  funext q
  unfold bringup pane
  show ((tblGet Pane.reset (tblSet s.panes p v) q).state, (tblGet Pane.reset (tblSet s.panes p v) q).shutter) = _
  rw [tblGet_tblSet]
  split
  next h => rw [h, hv.1, hv.2]; rfl
  next => rfl

theorem state_of_bringup {t : State} (h : bringup t = bringup s) (p : Nat) : (pane t p).state = (pane s p).state :=
  congrArg Prod.fst (congrFun h p)

theorem goOutOfService_shuttering {p : Nat} (h : (pane s p).state = .shuttering) : goOutOfService s p = s :=
  (if_neg (by rw [h]; decide)).trans (if_neg (by rw [h]; decide))

theorem bringup_modNear (s : State) (p : Nat) (f : NearTier → NearTier) : bringup (modNear s p f) = bringup s :=
  bringup_modPane s p _ fun _ => ⟨rfl, rfl⟩

theorem bringup_losePc {p : Nat} (h : (pane s p).state = .shuttering) (l pc : Nat) :
    bringup (losePc s p l pc) = bringup s := by
  unfold losePc
  generalize hz : modNear (tookFree s) p _ = z
  have hb : bringup z = bringup s := hz ▸ bringup_modNear (tookFree s) p _
  rw [goOutOfService_shuttering ((state_of_bringup hb p).trans h), hb]

theorem bringup_substPc {p : Nat} (h : (pane s p).state = .shuttering) (pc : Nat) (drop : Bool) :
    bringup (substPc s p pc drop) = bringup s := by
  unfold substPc
  dsimp only
  split
  · split
    · exact bringup_modNear ..
    · exact bringup_losePc h ..
  split
  · exact bringup_modNear ..
  split
  · exact bringup_modNear ..
  split
  · exact bringup_modNear ..
  · exact bringup_losePc h ..

theorem takeoverReset_panes (z : State) (p : Nat) (held : Bool) (spare : Option Nat) :
    (match spare with
      | some sp => if held then setPhysCell z p sp .reset else z
      | none => z : State).panes = z.panes := by
  split
  · split <;> rfl
  · rfl

theorem bringup_substCell {p : Nat} (h : (pane s p).state = .shuttering) (c : Nat) : bringup (substCell s p c) = bringup s := by
  unfold substCell
  extract_lets x holder spare others x1 s1 s2 s3
  have hb : bringup s3 = bringup s := by
    have h2 : s3.panes = s1.panes := takeoverReset_panes s1 p holder.isSome spare
    have h1 : bringup s3 = bringup s1 := by
      unfold bringup pane
      rw [h2]
    exact h1.trans (bringup_setPane s p x1 ⟨rfl, rfl⟩)
  split
  · rfl
  split
  · rw [goOutOfService_shuttering ((state_of_bringup hb p).trans h), hb]
  · exact hb

/-- Work on a pane that shutters, each step of which keeps what the start-up looks at. -/
theorem foldl_bringup {α : Type} {p : Nat} {f : State → α → State}
    (hf : ∀ s a, (pane s p).state = .shuttering → bringup (f s a) = bringup s) (l : List α) (s : State)
    (h : (pane s p).state = .shuttering) : bringup (l.foldl f s) = bringup s := by
  induction l generalizing s with
  | nil => rfl
  | cons a l ih =>
    have ha := hf s a h
    rw [List.foldl_cons, ih (f s a) ((state_of_bringup ha p).trans h), ha]

theorem bringup_shutterSpares {p : Nat} (h : (pane s p).state = .shuttering) : bringup (shutterSpares s p) = bringup s := by
  unfold shutterSpares
  extract_lets s1 s2
  have h1 : bringup s1 = bringup s := foldl_bringup (fun s c hs => bringup_substPc hs c.1 true) _ _ h
  have hs1 := (state_of_bringup h1 p).trans h
  have h2 : bringup s2 = bringup s1 := foldl_bringup (fun s c hs => bringup_substCell hs c.1) _ _ hs1
  have hs2 := (state_of_bringup h2 p).trans hs1
  exact (foldl_bringup (fun s c _ => bringup_modNear s p _) _ _ hs2).trans (h2.trans h1)

/-- A pane in its start-up shutter (R348). -/
def startShut (x : PaneState × Option Shutter) : Prop := ∃ h, x = (.shuttering, some h) ∧ h.cause = 4 ∧ h.keepFar = true

theorem bringup_setShutter (z : State) (p q : Nat) (sh : Shutter) :
    bringup (modPane z p fun x => { x with shutter := some sh }) q =
      if q = p then ((pane z p).state, some sh) else bringup z q := by
  unfold bringup
  rw [pane_modPane]
  split <;> rfl

/-- The pane's contents are zeroed as its shutter begins. -/
def shutterZeroed (s : State) (p : Nat) : State := zeroNear (zeroCells (shutterSpares s p) p) p

theorem bringup_zeroCells (z : State) (p : Nat) : bringup (zeroCells z p) = bringup z :=
  bringup_modPane { z with cells := z.cells.filter fun e => e.1 / 64 != p } p (fun x => { x with arith := [], barriers := [] })
    fun _ => ⟨rfl, rfl⟩

theorem bringup_shutterZeroed {p : Nat} (h : (pane s p).state = .shuttering) : bringup (shutterZeroed s p) = bringup s :=
  (bringup_modNear _ p _).trans ((bringup_zeroCells _ p).trans (bringup_shutterSpares h))

theorem startupShutter_begins {p : Nat} (h : bringup s p = (.shuttering, none)) : ∃ sh : Shutter, sh.cause = 4 ∧
    sh.keepFar = true ∧ startupShutter s p = modPane (shutterZeroed s p) p fun x => { x with shutter := some sh } := by
  have hst : (pane s p).state = .shuttering := congrArg Prod.fst h
  have hsh : (pane s p).shutter = none := congrArg Prod.snd h
  refine ⟨?sh, ?hc, ?hk, (if_neg ?hn).trans ?he⟩
  case hn => simp [hst, hsh]
  case he => exact rfl
  case hc => exact rfl
  case hk => exact rfl

theorem startupShutter_other {p : Nat} (h : bringup s p ≠ (.shuttering, none)) : startupShutter s p = s := by
  refine if_pos ?_
  by_contra hn
  refine h (Prod.ext ?_ ?_)
  · show (pane s p).state = _
    simp only [Bool.or_eq_true, not_or] at hn
    simpa using hn.2
  · show (pane s p).shutter = _
    simp only [Bool.or_eq_true, not_or] at hn
    simpa using hn.1

/-- A pane's start-up shutter touches no other pane, and begins where it is due. -/
theorem bringup_startupShutter (s : State) (p q : Nat) :
    (bringup (startupShutter s p) q = bringup s q ∧ ¬(q = p ∧ bringup s p = (.shuttering, none))) ∨
      startShut (bringup (startupShutter s p) q) := by
  by_cases h : bringup s p = (.shuttering, none)
  · obtain ⟨sh, hc, hk, he⟩ := startupShutter_begins h
    have hst : (pane s p).state = .shuttering := congrArg Prod.fst h
    have hz := bringup_shutterZeroed hst
    rw [he, bringup_setShutter]
    by_cases hq : q = p
    · rw [if_pos hq]
      exact .inr ⟨sh, Prod.ext ((state_of_bringup hz p).trans hst) rfl, hc, hk⟩
    · rw [if_neg hq, hz]
      exact .inl ⟨rfl, fun hqp => hq hqp.1⟩
  · rw [startupShutter_other h]
    exact .inl ⟨rfl, fun hqp => h hqp.2⟩

theorem foldl_startupShutter (l : List Nat) (s : State) (p : Nat)
    (h : startShut (bringup s p) ∨ (p ∈ l ∧ bringup s p = (.shuttering, none))) :
    startShut (bringup (l.foldl startupShutter s) p) := by
  induction l generalizing s with
  | nil => exact h.resolve_right fun h => List.not_mem_nil h.1
  | cons a l ih =>
    rw [List.foldl_cons]
    refine ih (startupShutter s a) ?_
    obtain ⟨hkept, hnot⟩ | hshut := bringup_startupShutter s a p
    · rw [hkept]
      refine h.imp_right fun ⟨hmem, hb⟩ => ⟨?_, hb⟩
      exact (List.mem_cons.mp hmem).resolve_left fun hpa => hnot ⟨hpa, hpa ▸ hb⟩
    · exact .inl hshut

theorem execPaneBringupDone_up (hu : s.power.hubUp = true) (hr : s.dk.ready = true) (hf : s.far.recovering = false)
    (hb : s.power.broughtUp = false) : exec .paneBringupDone s =
      .next ((List.range 16).foldl startupShutter (modPower s fun p => { p with broughtUp := true })) :=
  if_pos (by simp [hu, hr, hf, hb])

/-- R348: the start-up shutter of every pane that waits for it begins. -/
theorem exec_paneBringupDone (hu : s.power.hubUp = true) (hr : s.dk.ready = true) (hf : s.far.recovering = false)
    (hb : s.power.broughtUp = false) : ∃ t, exec .paneBringupDone s = .next t ∧ t.power.broughtUp = true ∧
      ∀ p, p < 16 → (pane s p).state = .shuttering → (pane s p).shutter = none →
        ∃ h, (pane t p).shutter = some h ∧ h.cause = 4 ∧ h.keepFar = true := by
  have hpow : ((List.range 16).foldl startupShutter (modPower s fun p => { p with broughtUp := true })).power.broughtUp =
      true := by
    rw [foldl_power _ startupShutter_power]
    rfl
  have hshut (p : Nat) (hp : p < 16) (hb : bringup s p = (.shuttering, none)) := foldl_startupShutter (List.range 16)
    (modPower s fun p => { p with broughtUp := true }) p (.inr ⟨List.mem_range.mpr hp, hb⟩)
  refine ⟨_, execPaneBringupDone_up hu hr hf hb, ?_⟩
  generalize (List.range 16).foldl startupShutter (modPower s fun p => { p with broughtUp := true }) = z at hpow hshut ⊢
  refine ⟨hpow, fun p hp hst hsh => ?_⟩
  obtain ⟨h, he, hc⟩ := hshut p hp (Prod.ext hst hsh)
  exact ⟨h, congrArg Prod.snd he, hc⟩

/-! ### Sensors (R498 to R500) -/

theorem thermalEvent_power (s : State) (n k : Nat) : (thermalEvent s n k).power = s.power := record_power ..

theorem enterTrip_power (s : State) (n : Nat) : (enterTrip s n).power.trip = true ∧
    (enterTrip s n).power.temps = s.power.temps ∧ (enterTrip s n).power.thermTrip = s.power.thermTrip := by
  have hp := thermalEvent_power s n 1
  unfold enterTrip
  dsimp only
  generalize thermalEvent s n 1 = z at hp ⊢
  split
  next h => exact ⟨hp ▸ h, by rw [hp], by rw [hp]⟩
  next =>
    rw [suspendAll_power, ← hp]
    exact ⟨rfl, rfl, rfl⟩

/-- The state after a sensor's reading, with its warning and its trip. -/
def sensorRead (s : State) (n c : Nat) : State :=
  let s1 := readSensor s n c
  let s2 := if reaches s n c (thresholds n).1 then thermalEvent s1 n 0 else s1
  if reaches s n c (thresholds n).2.1 then enterTrip s2 n else s2

theorem sensorRead_power (s : State) (n c : Nat) : (sensorRead s n c).power.temps = tblSet s.power.temps n c ∧
    (sensorRead s n c).power.thermTrip = s.power.thermTrip ∧
    (sensorRead s n c).power.trip = (s.power.trip || reaches s n c (thresholds n).2.1) := by
  unfold sensorRead
  dsimp only
  generalize hz : (if reaches s n c (thresholds n).1 = true then thermalEvent (readSensor s n c) n 0 else readSensor s n c) = z
  have hp : z.power = (readSensor s n c).power := by
    rw [← hz]
    split
    · exact thermalEvent_power ..
    · rfl
  split
  next h =>
    obtain ⟨ht, htemps, htherm⟩ := enterTrip_power z n
    rw [ht, htemps, htherm, hp, h, Bool.or_true]
    exact ⟨rfl, rfl, rfl⟩
  next h =>
    rw [hp, Bool.eq_false_of_not_eq_true h, Bool.or_false]
    exact ⟨rfl, rfl, rfl⟩

theorem execThermalThreshold_reads {n : Fin 33} {c : Nat} (hu : s.power.hubUp = true) (hw : sensorWf n.val = true) :
    exec (.thermalThreshold n c) s = .next (if reaches s n.val c (thresholds n.val).2.2 then
        modPower (sensorRead s n.val c) fun p => { p with thermTrip := true, crit := true, critDue := true }
      else sensorRead s n.val c) := if_neg (by simp [hu, hw])

/-- R499, R500: the reading, and what its trip and critical thresholds bring. -/
theorem exec_thermalThreshold {n : Fin 33} {c : Nat} (hu : s.power.hubUp = true) (hw : sensorWf n.val = true) :
    ∃ t, exec (.thermalThreshold n c) s = .next t ∧ tblGet 0 t.power.temps n.val = c ∧
      (reaches s n.val c (thresholds n.val).2.1 = true → t.power.trip = true) ∧
      (reaches s n.val c (thresholds n.val).2.1 = false → t.power.trip = s.power.trip) ∧
      (reaches s n.val c (thresholds n.val).2.2 = true →
        t.power.thermTrip = true ∧ t.power.crit = true ∧ t.power.critDue = true) ∧
      (reaches s n.val c (thresholds n.val).2.2 = false → t.power.thermTrip = s.power.thermTrip) := by
  refine ⟨_, execThermalThreshold_reads hu hw, ?_⟩
  obtain ⟨htemps, htherm, htrip⟩ := sensorRead_power s n.val c
  generalize sensorRead s n.val c = z at htemps htherm htrip ⊢
  have hget : tblGet 0 z.power.temps n.val = c := by
    rw [htemps]
    exact tblGet_tblSet_self ..
  cases reaches s n.val c (thresholds n.val).2.2 with
  | true =>
    exact ⟨hget, fun h => htrip.trans (by rw [h, Bool.or_true]), fun h => htrip.trans (by rw [h, Bool.or_false]),
      fun _ => ⟨rfl, rfl, rfl⟩, fun h => absurd h (by decide)⟩
  | false =>
    exact ⟨hget, fun h => htrip.trans (by rw [h, Bool.or_true]), fun h => htrip.trans (by rw [h, Bool.or_false]),
      fun h => absurd h (by decide), fun _ => htherm⟩

theorem execThermalThreshold_idle {n : Fin 33} {c : Nat} (h : s.power.hubUp = false ∨ sensorWf n.val = false) :
    exec (.thermalThreshold n c) s = .next s := if_pos (by rcases h with h | h <;> simp [h])

/-! ### The cap (R496, R497) -/

theorem applyCap_power (s : State) (m : BitVec 2) : (applyCap s m).power.capMode = m ∧ (applyCap s m).power.capReq = m := by
  unfold applyCap
  dsimp only
  split
  · rw [suspendToBudget_power]
    exact ⟨rfl, rfl⟩
  · rw [record_power, suspendToBudget_power]
    exact ⟨rfl, rfl⟩

/-- The cap is asked for, and waits. -/
def capPending (s : State) (m : BitVec 2) : State :=
  modPower s fun p => { p with capReq := m, capThrottle := p.capThrottle && decide (p.capMode.toNat < m.toNat) }

theorem aboveCap_none {m : BitVec 2} (h : anyStart s = false) : s.groups.filter (aboveCap m) = [] := by
  rw [List.filter_eq_nil_iff]
  intro g hg
  have hn : hasStart g = false := by
    by_contra hs
    have : anyStart s = true := List.any_eq_true.mpr ⟨g, hg, by simpa using hs⟩
    rw [h] at this
    exact absurd this (by decide)
  unfold aboveCap
  split
  · simp [hn]
  · simp

theorem setCap_free {m : BitVec 2} (h : anyStart s = false) : (setCap s m).power.capMode = m ∧ (setCap s m).power.capReq = m := by
  unfold setCap
  dsimp only
  rw [aboveCap_none h]
  split
  · exact applyCap_power s m
  next h1 =>
    split
    · exact applyCap_power s m
    next h2 =>
      have hm : s.power.capMode.toNat = m.toNat := by
        have hn : ¬m.toNat < s.power.capMode.toNat := by simpa [h] using h2
        omega
      exact ⟨BitVec.eq_of_toNat_eq hm, rfl⟩

theorem setCap_lower {m : BitVec 2} (h : anyStart s = true) (hm : m.toNat < s.power.capMode.toNat) :
    setCap s m = capPending s m :=
  (if_neg (Nat.not_lt.mpr (Nat.le_of_lt hm))).trans (if_neg (by simp [h]))

theorem setCap_raise {m : BitVec 2} (h : ∃ g ∈ s.groups, aboveCap m g = true) (hm : s.power.capMode.toNat < m.toNat) :
    setCap s m = (s.groups.filter (aboveCap m)).foldl stopForCap (capPending s m) := by
  obtain ⟨g, hg, ha⟩ := h
  refine (if_pos hm).trans (if_neg ?_)
  rw [List.isEmpty_iff, List.filter_eq_nil_iff]
  exact fun hall => hall g hg ha

theorem setCap_raise_power {m : BitVec 2} (h : ∃ g ∈ s.groups, aboveCap m g = true) (hm : s.power.capMode.toNat < m.toNat) :
    (setCap s m).power.capMode = s.power.capMode ∧ (setCap s m).power.capReq = m := by
  rw [setCap_raise h hm, foldl_power _ stopForCap_power]
  exact ⟨rfl, rfl⟩

theorem execCapEffecterSet_sets {m : BitVec 2} (hu : s.power.hubUp = true) (hm : m ≠ 3) :
    exec (.capEffecterSet m) s = .next (setCap s m) := congrArg _ (if_pos (by rw [hu, Bool.true_and]; exact bne_iff_ne.mpr hm))

theorem execCapEffecterSet_idle {m : BitVec 2} (h : s.power.hubUp = false ∨ m = 3) :
    exec (.capEffecterSet m) s = .next s := congrArg _ (if_neg (by rcases h with h | h <;> simp [h]))

theorem execThermalClear_clears {b : Nat} (h : s.power.trip = true) (hc : s.power.coolSince = some b)
    (hb : b + 4096 ≤ s.time.beat) : exec .thermalClear s = .next (thermalEvent
      (tookFree (modPower s fun p => { p with trip := false })) (Config.freeByte s.free 0).toNat 2) := by
  show execThermalClear s = _
  unfold execThermalClear
  rw [h, hc]
  exact if_pos hb

theorem execThermalClear_early {b : Nat} (hc : s.power.coolSince = some b) (hb : s.time.beat < b + 4096) :
    exec .thermalClear s = .next s := by
  show execThermalClear s = _
  unfold execThermalClear
  rw [hc]
  split
  next h =>
    obtain rfl := Option.some.inj h
    exact if_neg (Nat.not_le.mpr hb)
  next => rfl

theorem execThermalClear_idle (h : s.power.trip = false ∨ s.power.coolSince = none) : exec .thermalClear s = .next s := by
  show execThermalClear s = _
  unfold execThermalClear
  rcases h with h | h
  · rw [h]
  · rw [h]
    cases s.power.trip <;> rfl

end
end Sys2Proof.Machine

open Sys2Proof Sys2Proof.Machine

/-- Settles O42: what a loss of power, a start and a reset leave of the hub; readings, trips and the cap. -/
theorem powerStartUpAndCaps : Obligations.PowerStartUpAndCaps := by
  unfold Obligations.PowerStartUpAndCaps
  refine ⟨fun s => ?_, fun s => ?_⟩
  · intro after cleared
    exact ⟨exec_inputPowerLoss, fun h => if_pos (by simp [h]), fun h => congrArg _ (if_pos h),
      fun h => congrArg _ (if_neg (ne_true_of_eq_false h)), fun h => congrArg _ (if_neg (ne_true_of_eq_false h)),
      fun h => congrArg _ (if_pos h), exec_pwrEnDeassert, fun h => if_pos (by simp [h]), exec_resetNRise,
      fun x => execResetNRise_idle, exec_resetNPulse, fun h => congrArg _ (if_neg (by simp [h])), exec_doorkeeperReady,
      execDoorkeeperReady_idle, exec_paneBringupDone, fun h => if_neg (by simp [h])⟩
  · intro after
    refine ⟨fun n c hu hw => exec_thermalThreshold hu hw, fun n c => execThermalThreshold_idle, fun b h hc hb =>
      ⟨_, execThermalClear_clears h hc hb, ?_⟩, fun b hc hb => execThermalClear_early hc hb, execThermalClear_idle,
      fun m hu hm => ⟨fun h => ⟨_, execCapEffecterSet_sets hu hm, setCap_free h⟩, fun h hl => ⟨_,
        execCapEffecterSet_sets hu hm, ?_⟩, fun h hl => ⟨_, execCapEffecterSet_sets hu hm, ?_⟩⟩,
      fun m => execCapEffecterSet_idle, fun i ok => ⟨fun hu hr ho => congrArg _ (if_pos (by simp [hu, hr, ho])),
        fun h => congrArg _ (if_neg (by rcases h with h | h | h <;> simp [h]))⟩⟩
    · exact (congrArg PowerUnit.trip (thermalEvent_power ..)).trans rfl
    · rw [setCap_lower h hl]
      exact ⟨rfl, rfl⟩
    · exact setCap_raise_power h hl

end


section
/-! PROOFS. Faults and resets (R401, R402, R406, R409 to R413). -/

namespace Sys2Proof.Machine

/-! ### The module resets itself (R411, R412) -/

/-- What a reset that the module initiates leaves, with its cause. -/
def selfReset (c : BitVec 3) (t : State) : Prop := t.faults.lastReset = c ∧ t.faults.sinceHubFault = some 0 ∧
  t.groups = [] ∧ t.latches = [] ∧ t.ccr = [] ∧ t.dk.ready = false ∧ t.power.hubUp = true ∧
  t.faults.selfResets = [{ rung := 4, index := 0, deadline := resetGrace }]

theorem selfReset_of_hubv {c : BitVec 3} {s t : State} (h : selfReset c s) (hv : hubv t = hubv s) : selfReset c t := by
  show selfReset c (hubv t)
  rw [hv]
  exact h

/-- What a hub fault leaves, but for the notice of one that recurs (R412). -/
def afterHubFault (s : State) (c : BitVec 3) : State :=
  { watchReset (moduleReset s c) with faults := { (watchReset (moduleReset s c)).faults with sinceHubFault := some 0 } }

theorem hubFault_cases (s : State) (c : BitVec 3) :
    hubFault s c = askPowerCycle (afterHubFault s c) ∨ hubFault s c = afterHubFault s c := by
  unfold hubFault
  exact ite_eq_or_eq ..

theorem selfReset_afterHubFault (s : State) (c : BitVec 3) : selfReset c (afterHubFault s c) := by
  obtain ⟨z, tu, ns, k, l, hc, hv⟩ := moduleReset_hubv s c
  unfold afterHubFault
  generalize moduleReset s c = t at hv ⊢
  show selfReset c { watchReset (hubv t) with faults := { (watchReset (hubv t)).faults with sinceHubFault := some 0 } }
  rw [hv]
  exact ⟨rfl, rfl, hc.groups, hc.latches, hc.ccr, hc.ready, rfl, rfl⟩

theorem selfReset_askPowerCycle {c : BitVec 3} {s : State} (h : selfReset c s) : selfReset c (askPowerCycle s) := by
  obtain ⟨ns, k, l, hn⟩ := queueNotice_hubv s 5 noPane 0 0 5 0xFF srcDoorkeeper
  exact selfReset_of_hubv (s := { s with faults := { s.faults with notices := ns, nseq := k, noticesLost := l } }) h hn

theorem selfReset_hubFault (s : State) (c : BitVec 3) : selfReset c (hubFault s c) := by
  rcases hubFault_cases s c with h | h
  · rw [h]
    exact selfReset_askPowerCycle (selfReset_afterHubFault s c)
  · rw [h]
    exact selfReset_afterHubFault s c

/-! ### An engine resets (R409) -/

section
variable {s : State}

/-- The groups of a state, but for the aborts that reach them. -/
def AbortsDue (s z : State) (e : Nat) (done : List Group) : Prop := z.panes = s.panes ∧
  ∀ g' ∈ z.groups, ∃ g ∈ s.groups, g' = { g with abortDue := g'.abortDue } ∧
    (g ∈ done → usesRing g e = true → g'.abortDue ≠ none)

theorem usesRing_runs {g : Group} {e : Nat} (h : usesRing g e = true) : g.run.isSome = true := by
  unfold usesRing at h
  split at h
  next hr => rw [hr]; rfl
  next => exact absurd h (by decide)

theorem abortGroup_groups {g : Group} (h : g.run.isSome = true) (z : State) (coll trigger : Nat) :
    ∃ a : AbortEntry, a.job = groupTag z g ∧ (abortGroup z g coll trigger).groups = z.groups.map fun x =>
      if groupTag z x == a.job && x.run.isSome && x.abortDue.isNone then { x with abortDue := some a } else x := by
  unfold abortGroup
  rw [if_pos h]
  exact ⟨_, rfl, rfl⟩

/-- The engine's reset reaches one group more. -/
theorem AbortsDue.step {z : State} {e : Nat} {done : List Group} (h : AbortsDue s z e done) (a : Group) :
    AbortsDue s (if usesRing a e then abortGroup z a (ringColl a e) 5 else z) e (done ++ [a]) := by
  obtain ⟨hp, hg⟩ := h
  split
  next hu =>
    obtain ⟨x, hx, hgroups⟩ := abortGroup_groups (usesRing_runs hu) z (ringColl a e) 5
    refine ⟨(abortGroup_panes ..).trans hp, fun g' hg' => ?_⟩
    rw [hgroups, List.mem_map] at hg'
    obtain ⟨g1, hg1, rfl⟩ := hg'
    obtain ⟨g, hgs, heq, hdue⟩ := hg g1 hg1
    refine ⟨g, hgs, ?_, fun hmem hug => ?_⟩
    · split
      · rw [heq]
      · exact heq
    · by_cases hnone : g1.abortDue = none
      · rcases List.mem_append.mp hmem with hm | hm
        · exact absurd hnone (hdue hm hug)
        · obtain rfl := List.mem_singleton.mp hm
          have htag : groupTag z g1 = groupTag z g := by rw [heq]; rfl
          have hrun : g1.run.isSome = true := by rw [heq]; exact usesRing_runs hug
          rw [if_pos (by simp [htag, hx, hrun, hnone])]
          exact Option.some_ne_none _
      · rw [if_neg (by simp [hnone])]
        exact hnone
  next hu =>
    refine ⟨hp, fun g' hg' => ?_⟩
    obtain ⟨g, hgs, heq, hdue⟩ := hg g' hg'
    refine ⟨g, hgs, heq, fun hmem hug => ?_⟩
    rcases List.mem_append.mp hmem with hm | hm
    · exact hdue hm hug
    · exact absurd (List.mem_singleton.mp hm ▸ hug) hu

theorem AbortsDue.foldl {z : State} {e : Nat} {done : List Group} (h : AbortsDue s z e done) (l : List Group) :
    AbortsDue s (l.foldl (fun s g => if usesRing g e then abortGroup s g (ringColl g e) 5 else s) z) e (done ++ l) := by
  induction l generalizing z done with
  | nil => simpa using h
  | cons a l ih =>
    rw [List.foldl_cons, List.append_cons]
    exact ih (h.step a)

/-- R409: every job that uses a ring engine is aborted by its reset. -/
theorem abortDue_resetRing (s : State) (e : Nat) : ∀ g ∈ (resetRing s e).groups, usesRing g e = true → g.abortDue ≠ none := by
  have h0 : AbortsDue s s e [] := ⟨rfl, fun g hg => ⟨g, hg, rfl, fun h => absurd h List.not_mem_nil⟩⟩
  obtain ⟨-, hall⟩ := h0.foldl s.groups
  intro g hg hu
  obtain ⟨x, hx, heq, hdue⟩ := hall g hg
  refine hdue hx ?_
  rw [heq] at hu
  exact hu

theorem execEngineFault_resets {e : Fin 28} (hu : s.power.hubUp = true) (ho : engineOk e.val = true) :
    exec (.engineFault e) s = .next (resetEngine s e.val) := congrArg _ (if_pos (by simp [hu, ho]))

theorem resetEngine_ring {e : Nat} (h : e ≤ 2) (s : State) :
    resetEngine s e = resetDone (resetRing s e) 2 noPane (engineSource e) 0 0 e := by
  unfold resetEngine
  rw [if_pos h]

theorem resetEngine_eth {e : Nat} (h : e = 3 ∨ e = 4) (s : State) :
    resetEngine s e = resetDone (resetEth s (e - 3)) 2 noPane (engineSource e) 0 0 e := by
  unfold resetEngine
  rw [if_neg (by omega), if_pos (by omega)]

theorem resetEngine_cv {e : Nat} (h : 16 ≤ e) (s : State) :
    resetEngine s e = resetDone (resetCv s (e - 16)) 2 noPane (engineSource e) 0 0 e := by
  unfold resetEngine
  rw [if_neg (by omega), if_neg (by omega)]

theorem exec_engineFault_ring {e : Fin 28} (hu : s.power.hubUp = true) (h : e.val ≤ 2) :
    ∃ t, exec (.engineFault e) s = .next t ∧ ∀ g ∈ t.groups, usesRing g e.val = true → g.abortDue ≠ none := by
  refine ⟨_, execEngineFault_resets hu (by simp [engineOk]; omega), ?_⟩
  obtain ⟨ns, k, l, hv⟩ := resetDone_hubv (resetRing s e.val) 2 noPane (engineSource e.val) 0 0 e.val
  have hg : (resetEngine s e.val).groups = (resetRing s e.val).groups := by
    rw [resetEngine_ring h]
    exact (congrArg State.groups hv).trans rfl
  rw [hg]
  exact abortDue_resetRing s e.val

theorem exec_engineFault_cv {e : Fin 28} (hu : s.power.hubUp = true) (h : 16 ≤ e.val) :
    ∃ t, exec (.engineFault e) s = .next t ∧ cvOf t (e.val - 16) = { cvOf s (e.val - 16) with
      uncovered := (cvOf s (e.val - 16)).uncovered || (cvOf s (e.val - 16)).lstate == 1, lstate := 0, left := 0 } := by
  refine ⟨_, execEngineFault_resets hu (by simp [engineOk]; omega), ?_⟩
  obtain ⟨ns, k, l, hv⟩ := resetDone_hubv (resetCv s (e.val - 16)) 2 noPane (engineSource e.val) 0 0 e.val
  have hl : (resetEngine s e.val).links = (resetCv s (e.val - 16)).links := by
    rw [resetEngine_cv h]
    exact (congrArg State.links hv).trans rfl
  rw [cvOf, hl]
  exact tblGet_tblSet_self ..

/-! ### A pane's hardware fault (R401, R406, R410) -/

/-- The fault is charged to the pane's context (R369). -/
def faultCharged (s : State) (p : Nat) : State :=
  queueNotice (record (setCtxFault s p fcPaneHw (srcPane p) noCell) 0x0200 (srcPane p) p
    (faultPayload fcPaneHw noCell (pane s p) 0 0)) 1 p (pane s p).jobTag (pane s p).epoch fcPaneHw 0xFF (srcPane p)

/-- The reset of a pane after its hardware fault has been asked for. -/
def faultReset (s : State) (p : Nat) (recurs : Bool) : State :=
  let s2 := askPaneReset (dropTest s p) p
  if recurs then modPane s2 p fun x => { x with failedTest := true } else s2

/-- The fault is noted, and the reset watched (R410, R412). -/
def faultWatched (s : State) (p beat : Nat) : State :=
  { s with faults := { s.faults with
    paneFaults := tblSet s.faults.paneFaults p beat
    selfResets := s.faults.selfResets ++ [{ rung := 3, index := p, deadline := beat + 1703 + 1024 }] } }

theorem execPaneHardwareFault_charges {p : Pane16} (hu : s.power.hubUp = true) (ho : (pane s p.val).state = .opened)
    (hf : (pane s p.val).ctxFault.fcode = 0) : exec (.paneHardwareFault p) s = .next (abortForEvent
      (faultWatched (faultReset (faultCharged s p.val) p.val (paneFaultRecurs s p.val)) p.val s.time.beat) p.val) := by
  refine (if_neg (by simp [hu, ho])).trans ?_
  simp only [ho, hf, decide_true, Bool.and_self, if_true]
  rfl

theorem pane_of_bks {s t : State} (h : bks t.panes = bks s.panes) (p : Nat) : bare (pane t p) = bare (pane s p) := congrFun h p

theorem faultCharged_pane (s : State) (p : Nat) : (pane (faultCharged s p) p).state = (pane s p).state ∧
    (pane (faultCharged s p) p).shutter = (pane s p).shutter ∧ (pane (faultCharged s p) p).ctxFault.fcode = 0x0A := by
  have h : bare (pane (faultCharged s p) p) = bare (pane (setCtxFault s p fcPaneHw (srcPane p) noCell) p) :=
    pane_of_bks ((queueNotice_bks _ 1 p (pane s p).jobTag (pane s p).epoch fcPaneHw 0xFF (srcPane p)).trans
      (record_bks (setCtxFault s p fcPaneHw (srcPane p) noCell) 0x0200 (srcPane p) p
        (faultPayload fcPaneHw noCell (pane s p) 0 0))) p
  have hp : pane (setCtxFault s p fcPaneHw (srcPane p) noCell) p = _ := pane_modPane_self ..
  rw [hp] at h
  exact ⟨(congrArg Pane.state h).trans rfl, (congrArg Pane.shutter h).trans rfl,
    (congrArg (fun x : Pane => x.ctxFault.fcode) h).trans rfl⟩

theorem faultCharged_time (s : State) (p : Nat) : (faultCharged s p).time = s.time :=
  (queueNotice_time _ 1 p (pane s p).jobTag (pane s p).epoch fcPaneHw 0xFF (srcPane p)).trans
    (record_time (setCtxFault s p fcPaneHw (srcPane p) noCell) 0x0200 (srcPane p) p
      (faultPayload fcPaneHw noCell (pane s p) 0 0))

theorem faultCharged_selfResets (s : State) (p : Nat) : (faultCharged s p).faults.selfResets = s.faults.selfResets := by
  obtain ⟨ns, k, l, h⟩ := queueNotice_hubv (record (setCtxFault s p fcPaneHw (srcPane p) noCell) 0x0200 (srcPane p) p
    (faultPayload fcPaneHw noCell (pane s p) 0 0)) 1 p (pane s p).jobTag (pane s p).epoch fcPaneHw 0xFF (srcPane p)
  have hr : (record (setCtxFault s p fcPaneHw (srcPane p) noCell) 0x0200 (srcPane p) p
    (faultPayload fcPaneHw noCell (pane s p) 0 0)).faults = s.faults := record_faults ..
  rw [← hr]
  exact (congrArg (fun x : State => x.faults.selfResets) h).trans rfl

/-- R408: the reset that a fault asks for begins at the next beat. -/
theorem faultReset_pane {z : State} {p : Nat} (ho : (pane z p).state = .opened) (hn : (pane z p).shutter = none) (b : Bool) :
    (pane (faultReset z p b) p).ctxFault = (pane z p).ctxFault ∧ (faultReset z p b).faults = z.faults ∧
    ∃ h, (pane (faultReset z p b) p).shutter = some h ∧ h.paneReset = true ∧ h.d = z.time.beat + 1 := by
  have hd : dropTest z p = z := if_neg (by rw [ho]; decide)
  have ha : (askPaneReset z p).faults = z.faults := rfl
  have hp : pane (askPaneReset z p) p = _ := pane_modPane_self ..
  rw [ho] at hp
  simp only [hn, Option.isSome_none, Bool.false_eq_true, if_false] at hp
  unfold faultReset
  rw [hd]
  dsimp only
  cases b with
  | true =>
    rw [if_pos rfl, pane_modPane_self, hp]
    exact ⟨rfl, rfl, _, rfl, rfl, rfl⟩
  | false =>
    rw [if_neg Bool.false_ne_true, hp]
    exact ⟨rfl, rfl, _, rfl, rfl, rfl⟩

theorem exec_paneHardwareFault {p : Pane16} (hu : s.power.hubUp = true) (ho : (pane s p.val).state = .opened)
    (hf : (pane s p.val).ctxFault.fcode = 0) (hn : (pane s p.val).shutter = none) :
    ∃ t, exec (.paneHardwareFault p) s = .next t ∧ (pane t p.val).ctxFault.fcode = 0x0A ∧
      (∃ h, (pane t p.val).shutter = some h ∧ h.paneReset = true ∧ h.d = s.time.beat + 1) ∧
      t.faults.selfResets =
        s.faults.selfResets ++ [{ rung := 3, index := p.val, deadline := s.time.beat + 1703 + 1024 }] := by
  refine ⟨_, execPaneHardwareFault_charges hu ho hf, ?_⟩
  obtain ⟨hst, hsh, hcode⟩ := faultCharged_pane s p.val
  have htime := faultCharged_time s p.val
  have hself := faultCharged_selfResets s p.val
  generalize faultCharged s p.val = z at hst hsh hcode htime hself ⊢
  obtain ⟨hctx, hfaults, h, hshut, hreset, hd⟩ :=
    faultReset_pane (hst.trans ho) (hsh.trans hn) (paneFaultRecurs s p.val)
  generalize faultReset z p.val (paneFaultRecurs s p.val) = u at hctx hfaults hshut ⊢
  have hb : bare (pane (abortForEvent (faultWatched u p.val s.time.beat) p.val) p.val) = bare (pane u p.val) :=
    pane_of_bks (abortForEvent_bks (faultWatched u p.val s.time.beat) p.val) p.val
  have hfl := abortForEvent_faults (faultWatched u p.val s.time.beat) p.val
  generalize abortForEvent (faultWatched u p.val s.time.beat) p.val = t at hb hfl ⊢
  refine ⟨?_, ⟨h, ((congrArg Pane.shutter hb).trans rfl).trans hshut, hreset, by rw [hd, htime]⟩, ?_⟩
  · have hc : (pane t p.val).ctxFault = (pane u p.val).ctxFault := (congrArg Pane.ctxFault hb).trans rfl
    rw [hc, hctx, hcode]
  · rw [hfl]
    show u.faults.selfResets ++ _ = _
    rw [hfaults, hself]

/-! ### Ethernet codewords, escalation and windows -/

theorem execEthernetUncorrectableCodeword_up {e : Fin 2} (hu : s.power.hubUp = true) :
    exec (.ethernetUncorrectableCodeword e) s =
      if (countError s rowL e.val 1).2 then
        .next { resetEngine (countError s rowL e.val 1).1 (3 + e.val) with
          faults := { (resetEngine (countError s rowL e.val 1).1 (3 + e.val)).faults with
            ethDeclared := tblSet (resetEngine (countError s rowL e.val 1).1 (3 + e.val)).faults.ethDeclared e.val s.time.beat
            ethOut := if (match tblFind s.faults.ethDeclared e.val with
                | some b => decide (s.time.beat - b < 2 ^ 27)
                | none => false) = true then
                (resetEngine (countError s rowL e.val 1).1 (3 + e.val)).faults.ethOut ||| (1#2 <<< e.val)
              else (resetEngine (countError s rowL e.val 1).1 (3 + e.val)).faults.ethOut } }
      else .next (countError s rowL e.val 1).1 := if_neg (by simp [hu])

theorem getLsbD_or_shift (x : BitVec 2) (e : Fin 2) : (x ||| (1#2 <<< e.val)).getLsbD e.val = true := by
  have he := e.isLt
  simp
  omega

theorem execResetEscalation_climbs {r : SelfReset}
    (h : s.faults.selfResets.find? (fun r => decide (r.deadline ≤ s.time.beat)) = some r) (hr : r.rung ≠ 4) :
    exec .resetEscalation s = .next (watchReset (moduleReset (tookFree s) (openCause s))) := by
  show execResetEscalation s = _
  unfold execResetEscalation
  rw [h]
  exact if_neg hr

theorem execResetEscalation_cycles {r : SelfReset}
    (h : s.faults.selfResets.find? (fun r => decide (r.deadline ≤ s.time.beat)) = some r) (hr : r.rung = 4) :
    exec .resetEscalation s = .next (askPowerCycle (selfResetOver s 4 r.index)) := by
  show execResetEscalation s = _
  unfold execResetEscalation
  rw [h]
  exact if_pos hr

theorem execResetEscalation_early (h : ∀ r ∈ s.faults.selfResets, s.time.beat < r.deadline) :
    exec .resetEscalation s = .next s := by
  have hf : s.faults.selfResets.find? (fun r => decide (r.deadline ≤ s.time.beat)) = none := by
    rw [List.find?_eq_none]
    intro r hr
    simp [Nat.not_le.mpr (h r hr)]
  show execResetEscalation s = _
  unfold execResetEscalation
  rw [hf]

theorem watchReset_moduleReset (s : State) (c : BitVec 3) : (watchReset (moduleReset s c)).groups = [] ∧
    (watchReset (moduleReset s c)).dk.ready = false ∧
    (watchReset (moduleReset s c)).faults.selfResets = [{ rung := 4, index := 0, deadline := resetGrace }] := by
  obtain ⟨z, tu, ns, k, l, hc, hv⟩ := moduleReset_hubv s c
  generalize moduleReset s c = t at hv ⊢
  exact ⟨((congrArg State.groups hv).trans rfl).trans hc.groups,
    ((congrArg (fun x : State => x.dk.ready) hv).trans rfl).trans hc.ready, rfl⟩

theorem tblFind_map_key {β γ : Type} (f : Nat → β → γ) (t : Tbl β) (k : Nat) :
    tblFind (t.map fun e => (e.1, f e.1 e.2)) k = (tblFind t k).map (f k) := by
  induction t with
  | nil => rfl
  | cons e t ih =>
    obtain ⟨a, v⟩ := e
    rw [List.map_cons, tblFind_cons, tblFind_cons, ih]
    split
    next h => rw [h]; rfl
    next => rfl

end
end Sys2Proof.Machine

open Sys2Proof Sys2Proof.Machine

/-- Settles O43: a module reset by what it clears, an engine's by what it aborts, a pane's by the fault and the reset asked
for. -/
theorem faultsAndResets : Obligations.FaultsAndResets := by
  unfold Obligations.FaultsAndResets
  intro s after reset
  refine ⟨fun hu => ⟨⟨_, congrArg Host.Outcome.next (if_pos hu), selfReset_hubFault s 2⟩,
    ⟨_, congrArg Host.Outcome.next (if_pos hu), selfReset_hubFault s 3⟩,
    fun e he => exec_engineFault_ring hu he, fun e he => ?_, fun e he => exec_engineFault_cv hu he,
    fun p ho hf hn => exec_paneHardwareFault hu ho hf hn, fun p ho => if_pos (by simp [ho]), fun e he => ?_, fun e he => ?_⟩,
    fun hu => ⟨congrArg Host.Outcome.next (if_neg (by simp [hu])), congrArg Host.Outcome.next (if_neg (by simp [hu])),
      fun e => congrArg Host.Outcome.next (if_neg (by simp [hu])), fun p => if_pos (by simp [hu]), fun e => if_pos (by simp [hu])⟩,
    fun r h => ⟨fun hr => ⟨_, execResetEscalation_climbs h hr, watchReset_moduleReset ..⟩, fun hr => ?_⟩,
    execResetEscalation_early, ⟨_, rfl, rfl, fun k c hk => ?_⟩⟩
  · rw [execEngineFault_resets hu (by simp [engineOk]; omega), resetEngine_eth he]
  · exact (execEthernetUncorrectableCodeword_up hu).trans (if_neg (ne_true_of_eq_false he))
  · refine ⟨_, (execEthernetUncorrectableCodeword_up hu).trans (if_pos he), tblFind_tblSet_self .., fun b hb hlt => ?_⟩
    dsimp only
    rw [hb]
    dsimp only
    rw [if_pos (by simpa using hlt)]
    exact getLsbD_or_shift ..
  · obtain ⟨ns, k, l, hn⟩ := queueNotice_hubv (selfResetOver s 4 r.index) 5 noPane 0 0 5 0xFF srcDoorkeeper
    refine ⟨_, execResetEscalation_cycles h hr, ?_⟩
    unfold askPowerCycle
    generalize queueNotice (selfResetOver s 4 r.index) 5 noPane 0 0 5 0xFF srcDoorkeeper = t at hn ⊢
    exact ⟨(congrArg State.groups hn).trans rfl, (congrArg (fun x : State => x.faults.selfResets) hn).trans rfl⟩
  · exact (tblFind_map_key (fun k => winRoll (k / 2 ^ 24) s.time.beat) s.faults.windows k).trans (by rw [hk]; rfl)

end


section
/-! PROOFS. Self-tests (R422, R423, R425 to R430). -/

namespace Sys2Proof.Machine

variable {s t : State}

theorem testOf_of_test (h : t.test = s.test) (p : Nat) : testOf t p = testOf s p := congrArg (fun u : TestUnit => tblGet PaneTest.reset u.panes p) h

theorem ledgerOf_of_test (h : t.test = s.test) (p : Nat) : ledgerOf t p = ledgerOf s p :=
  congrArg (fun u : TestUnit => tblGet (ledgerZero p) u.ledger p) h

/-! ### The way down leaves the panes' tests alone -/

/-- What a pane's test has left: its ledger entry, and the state of the pane. -/
def tested (s : State) (p : Nat) : TestEntry × PaneState := (ledgerOf s p, (pane s p).state)

theorem state_of_bks (h : bks t.panes = bks s.panes) (p : Nat) : (pane t p).state = (pane s p).state :=
  (congrArg Pane.state (pane_of_bks h p)).trans rfl

theorem tested_of_frames (ht : t.test = s.test) (hb : bks t.panes = bks s.panes) (p : Nat) : tested t p = tested s p :=
  Prod.ext (ledgerOf_of_test ht p) (state_of_bks hb p)

theorem ledgerOf_startHubTest (s : State) {p : Nat} (hp : p ≠ 16) : ledgerOf (startHubTest s) p = ledgerOf s p := by
  have hd := portsDown_test s
  unfold startHubTest
  generalize portsDown s = u at hd ⊢
  exact ((ledgerOf_modLedger u 16 p fun e => { e with result := 4 }).trans (if_neg hp)).trans (ledgerOf_of_test hd p)

theorem tested_parkNext (s : State) {p : Nat} (hp : p ≠ 16) : tested (parkNext s) p = tested s p := by
  refine Prod.ext ?_ (state_of_bks (parkNext_bks s) p)
  show ledgerOf (parkNext s) p = ledgerOf s p
  unfold parkNext
  split
  · split
    · rfl
    · split
      · exact ledgerOf_startHubTest s hp
      · exact (ledgerOf_of_test (portsDown_test _) p).trans rfl
  · rfl

theorem tested_beginPark (s : State) {p : Nat} (hp : p ≠ 16) : tested (beginPark s) p = tested s p := by
  unfold beginPark
  dsimp only
  rw [tested_parkNext _ hp]
  have ht := checkpoint_test s
  have hb := checkpoint_bks s
  generalize checkpoint s = u at ht hb ⊢
  refine tested_of_frames ?_ ?_ p
  · exact (startSpill_test _).trans ht
  · exact (startSpill_bks _).trans hb

/-! ### A phase ends, and the last one (R422, R423, R430) -/

theorem testOf_takeReport (s : State) (p phase : Nat) (r : TestReport) :
    (testOf (takeReport s p phase r) p).phase = (testOf s p).phase ∧
      (testOf (takeReport s p phase r) p).tstate = (testOf s p).tstate := by
  unfold takeReport
  dsimp only
  rw [testOf_modTest, if_pos rfl, testOf_of_test ((retirePcs_test ..).trans (retireCells_test ..)) p]
  exact ⟨rfl, rfl⟩

/-- The pane's state after its test. -/
def afterVerdict (s : State) (p : Nat) (failed : Bool) : State :=
  if failed then failPaneTest s p
  else
    let s2 := modPane s p fun x => { x with state := .free, failedTest := false }
    { s2 with test := { s2.test with failedMask := s2.test.failedMask &&& ~~~(paneBit p) } }

theorem tested_afterVerdict (s : State) (p : Nat) (failed : Bool) :
    tested (afterVerdict s p failed) p = (ledgerOf s p, if failed then .outOfService else .free) := by
  cases failed with
  | true =>
    refine (tested_of_frames (record_test ..) (record_bks ..) p).trans (Prod.ext rfl ?_)
    exact congrArg Pane.state (pane_modPane_self s p fun x => { x with state := .outOfService, failedTest := true })
  | false =>
    exact Prod.ext rfl (congrArg Pane.state (pane_modPane_self s p fun x => { x with state := .free, failedTest := false }))

/-- The entry that a pane's test leaves (R430). -/
def verdictEntry (g : BitVec 64) (failed retired : Bool) (e : TestEntry) : TestEntry :=
  { signature := g, steppingTag := steppingTag, count := BitVec.ofNat 16 (satAdd 16 e.count.toNat 1)
    result := if failed then 3 else if retired then 2 else 1, used := false }

theorem endPaneTest_cases (s : State) (p : Nat) (g : BitVec 64) : ∃ (u : State) (failed retired : Bool),
    ledgerOf u p = verdictEntry g failed retired (ledgerOf (reinitPane s p) p) ∧
      (endPaneTest s p g = beginPark (afterVerdict u p failed) ∨ endPaneTest s p g = afterVerdict u p failed) := by
  unfold endPaneTest
  extract_lets z t failed retired st s1
  refine ⟨s1, failed, retired, ?_, ite_eq_or_eq ..⟩
  exact (ledgerOf_modLedger z p p fun e => verdictEntry g failed retired e).trans (if_pos rfl)

theorem tested_endPaneTest (s : State) {p : Nat} (hp : p ≠ 16) (g : BitVec 64) : ∃ failed retired e,
    tested (endPaneTest s p g) p = (verdictEntry g failed retired e, if failed then .outOfService else .free) := by
  obtain ⟨u, failed, retired, hled, h⟩ := endPaneTest_cases s p g
  refine ⟨failed, retired, ledgerOf (reinitPane s p) p, ?_⟩
  rw [← hled, ← tested_afterVerdict]
  rcases h with h | h
  · rw [h, tested_beginPark _ hp]
  · rw [h]

theorem exec_testPhaseDone_last {p : Pane16} (x : TestReport) (ht : (testOf s p.val).tstate = tsActive)
    (h6 : 6 ≤ (testOf s p.val).phase) : ∃ t, exec (.testPhaseDone p x) s = .next t ∧
      (ledgerOf t p.val).signature = x.signature ∧ (ledgerOf t p.val).used = false ∧
      ((pane t p.val).state = .free ∧ ((ledgerOf t p.val).result = 1 ∨ (ledgerOf t p.val).result = 2) ∨
        (pane t p.val).state = .outOfService ∧ (ledgerOf t p.val).result = 3) := by
  refine ⟨_, (if_pos ht).trans (if_neg (Nat.not_lt.mpr h6)), ?_⟩
  obtain ⟨failed, retired, e, h⟩ := tested_endPaneTest (takeReport s p.val (testOf s p.val).phase x)
    (Nat.ne_of_lt p.isLt) x.signature
  obtain ⟨hled, hpane⟩ := Prod.ext_iff.mp h
  dsimp only [tested] at hled hpane
  rw [hled, hpane]
  refine ⟨rfl, rfl, ?_⟩
  cases failed with
  | true => exact .inr ⟨rfl, rfl⟩
  | false => cases retired with
    | true => exact .inl ⟨rfl, .inr rfl⟩
    | false => exact .inl ⟨rfl, .inl rfl⟩

theorem exec_testPhaseDone_next {p : Pane16} (x : TestReport) (ht : (testOf s p.val).tstate = tsActive)
    (h6 : (testOf s p.val).phase < 6) : ∃ t, exec (.testPhaseDone p x) s = .next t ∧
      (testOf t p.val).phase = (testOf s p.val).phase + 1 ∧ (testOf t p.val).tstate = tsActive ∧
      (testOf t p.val).since = s.time.beat := by
  refine ⟨_, (if_pos ht).trans (if_pos h6), ?_⟩
  obtain ⟨hphase, hstate⟩ := testOf_takeReport s p.val (testOf s p.val).phase x
  rw [testOf_modTest, if_pos rfl]
  exact ⟨congrArg (· + 1) hphase, hstate.trans ht, rfl⟩

/-! ### The first waiting test starts (R427, R429) -/

theorem execTestStart_room {p : Nat} {r : List Nat} (hw : waitingTests s = p :: r) (hu : s.power.hubUp = true)
    (htrip : s.power.trip = false) (hmay : mayTest s (testsIn s tsActive).length = true) :
    exec .testStart s = if (testOf s p).tstate = tsSuspended then
        .next (modTest s p fun t => { t with tstate := tsActive, since := s.time.beat })
      else .next (modTest { modLedger s p fun e => { e with result := 4 } with
          test := { (modLedger s p fun e => { e with result := 4 }).test with nextOrder := s.test.nextOrder + 1 } } p
        fun t => { t with tstate := tsActive, phase := 1, since := s.time.beat, order := s.test.nextOrder }) := by
  show execTestStart s = _
  unfold execTestStart
  rw [hw]
  exact if_pos (by simp [hu, htrip, hmay])

theorem execTestStart_none
    (h : waitingTests s = [] ∨ ¬(s.power.hubUp = true ∧ s.power.trip = false ∧ mayTest s (testsIn s tsActive).length = true)) :
    exec .testStart s = .next s := by
  show execTestStart s = _
  unfold execTestStart
  split
  next p r hw =>
    rcases h with h | h
    · rw [h] at hw
      exact absurd hw (by simp)
    · exact if_neg (by simpa [and_assoc] using h)
  next => rfl

theorem exec_testStart_first {p : Nat} {r : List Nat} (hw : waitingTests s = p :: r) (hu : s.power.hubUp = true)
    (htrip : s.power.trip = false) (hmay : mayTest s (testsIn s tsActive).length = true)
    (hn : (testOf s p).tstate ≠ tsSuspended) : ∃ t, exec .testStart s = .next t ∧ (testOf t p).tstate = tsActive ∧
      (testOf t p).phase = 1 ∧ (testOf t p).order = s.test.nextOrder ∧ t.test.nextOrder = s.test.nextOrder + 1 ∧
      (ledgerOf t p).result = 4 := by
  refine ⟨_, (execTestStart_room hw hu htrip hmay).trans (if_neg hn), ?_⟩
  rw [testOf_modTest, if_pos rfl]
  refine ⟨rfl, rfl, rfl, rfl, ?_⟩
  have hled : ledgerOf (modLedger s p fun e => { e with result := 4 }) p = { ledgerOf s p with result := 4 } :=
    (ledgerOf_modLedger ..).trans (if_pos rfl)
  exact congrArg TestEntry.result hled

/-! ### The hub's test (R425, R426) -/

/-- The hub's test has ended: its ledger entry is written (R430). -/
def hubTested (s : State) (passed : Bool) (g : BitVec 64) : State :=
  let s1 := modLedger s 16 fun e =>
    { signature := g, steppingTag := steppingTag, count := BitVec.ofNat 16 (satAdd 16 e.count.toNat 1)
      result := if passed then 1 else 3, used := passed && !s.test.shutdown.isSome }
  { s1 with test := { s1.test with
    hub := if passed then tsPassed else tsFailed, hubSpent := s.time.beat - s.test.hubSince } }

theorem ledgerOf_hubTested (s : State) (passed : Bool) (g : BitVec 64) :
    (ledgerOf (hubTested s passed g) 16).signature = g ∧
      (ledgerOf (hubTested s passed g) 16).result = if passed then 1 else 3 := by
  have h : ledgerOf (hubTested s passed g) 16 = _ := tblGet_tblSet_self ..
  rw [h]
  exact ⟨rfl, rfl⟩

theorem parked_hubTested (s : State) (passed : Bool) (g : BitVec 64) : (hubTested s passed g).test.parked = s.test.parked := rfl

theorem execHubTestDone_ends (g : BitVec 64) (h : s.test.hub = tsActive) (passed : Bool) :
    exec (.hubTestDone passed g) s = if !passed then
        .next { portsDown (hubTested s passed g) with
          power := { (hubTested s passed g).power with hubUp := false }
          dk := { (hubTested s passed g).dk with ready := false }
          faults := { (hubTested s passed g).faults with hubDead := true } }
      else if s.test.shutdown.isSome then .next (park (hubTested s passed g)) else .next (hubTested s passed g) :=
  if_pos h

theorem exec_hubTestDone_passed (g : BitVec 64) (h : s.test.hub = tsActive) :
    ∃ t, exec (.hubTestDone true g) s = .next t ∧ t.test.hub = tsPassed ∧ (ledgerOf t 16).result = 1 ∧
      (ledgerOf t 16).signature = g ∧ t.test.parked = (s.test.parked || s.test.shutdown.isSome) := by
  obtain ⟨hsig, hres⟩ := ledgerOf_hubTested s true g
  have hpark := parked_hubTested s true g
  have hhub : (hubTested s true g).test.hub = tsPassed := rfl
  have hend := (execHubTestDone_ends g h true).trans (if_neg (by decide))
  generalize hubTested s true g = u at hsig hres hpark hhub hend
  cases hd : s.test.shutdown.isSome with
  | true =>
    refine ⟨_, hend.trans (if_pos hd), ?_⟩
    unfold park
    rw [ledgerOf_of_test (portsDown_test _), portsDown_test, Bool.or_true]
    exact ⟨hhub, hres, hsig, rfl⟩
  | false =>
    refine ⟨_, hend.trans (if_neg (ne_true_of_eq_false hd)), hhub, hres, hsig, ?_⟩
    rw [hpark, Bool.or_false]

theorem exec_hubTestDone_failed (g : BitVec 64) (h : s.test.hub = tsActive) :
    ∃ t, exec (.hubTestDone false g) s = .next t ∧ t.test.hub = tsFailed ∧ (ledgerOf t 16).result = 3 ∧
      t.power.hubUp = false ∧ t.dk.ready = false ∧ t.faults.hubDead = true := by
  refine ⟨_, (execHubTestDone_ends g h false).trans (if_pos rfl), ?_⟩
  obtain ⟨-, hres⟩ := ledgerOf_hubTested s false g
  have hhub : (hubTested s false g).test.hub = tsFailed := rfl
  generalize hubTested s false g = u at hres hhub ⊢
  have ht := portsDown_test u
  generalize portsDown u = v at ht ⊢
  exact ⟨(congrArg TestUnit.hub ht).trans hhub, (congrArg TestEntry.result (ledgerOf_of_test ht 16)).trans hres, rfl, rfl, rfl⟩

end Sys2Proof.Machine

open Sys2Proof Sys2Proof.Machine

/-- Settles O44: the first waiting test by the budget, a phase's end by the report, the last one's by the pane's verdict. -/
theorem selfTestsRun : Obligations.SelfTestsRun := by
  unfold Obligations.SelfTestsRun
  intro s after room
  refine ⟨fun p r hw ⟨hu, htrip, hmay⟩ => ⟨fun hs => ⟨_, (execTestStart_room hw hu htrip hmay).trans (if_pos hs),
      (testOf_modTest ..).trans (if_pos rfl)⟩, exec_testStart_first hw hu htrip hmay⟩, execTestStart_none,
    fun p x => exec_testPhaseDone_next x, fun p x => exec_testPhaseDone_last x, fun p x h => if_neg h,
    fun g h => ⟨exec_hubTestDone_passed g h, exec_hubTestDone_failed g h⟩, fun ok g h => if_neg h⟩

end


section
/-! PROOFS. The end of a context (R408): a reset that meets the end of a Plan. -/

namespace Sys2Proof.Machine

/-- A window grant on pane 0 in hand, which has started. -/
def grantInHand : Job :=
  { opcode := 0x0040
    packet :=
      { protoMajor := 1, rsvd3 := 0, seq := 1, paramBytes := 32, rsvd10 := 0, bulkAddr := 0, bulkLen := 0, params := []
        bulk := none }
    order := 0, start := some 0, bound := 16, locks := 1, wholeModule := false, outcome := none, writing := [], got := 0
    need := none, lastBeat := 0 }

/-- Pane 0 has its reset ordered, two cells retired and a third one's retirement due; the Plan of its group has ended, and
its run goes at the boundary; a grant is in hand. -/
def resetMeetsGrant : State :=
  { State.reset with
    panes := [(0, { Pane.reset with state := .opened, resetFrom := some 0, retired := 3, dueCells := [(2, false)] })]
    groups := [{ Group.alone 0 with
      plan := some [], ended := some .stopped, run := some { freshRun 0 0 0 0 0 with started := true } }]
    dk := { State.reset.dk with mbx := [(0, { Mailbox.reset with mstate := .running, job := some grantInHand })] } }

/-- A next state in which pane 0 has no window. -/
def windowless : Host.Outcome State Fault Refusal → Bool
  | .next t => (rmoOf t 0).windows.isEmpty
  | _ => false

/-- The boundary begins the reset, then drops the run: the due retirement puts the pane out of service, which aborts the
grant, whose window entry is left undefined (R378). -/
theorem windowless_resetMeetsGrant : windowless (exec .beatBoundary resetMeetsGrant) = false := by decide +kernel

end Sys2Proof.Machine

open Sys2Proof Sys2Proof.Machine

/-- Refutes O45: a context reset empties the pane's windows, but the groups' beats come after it in the boundary, and a
retirement that a Plan's end brings may abort a window grant, which leaves an undefined entry in the pane's table. -/
theorem not_contextsEnd : ¬ Obligations.ContextsEnd := by
  unfold Obligations.ContextsEnd
  intro h
  obtain ⟨-, -, -, -, -, -, hreset, -⟩ := h resetMeetsGrant 0
  obtain ⟨t, ht, -, -, -, -, hwin⟩ := hreset 0 rfl (by decide) rfl rfl rfl
  have hempty : windowless (exec .beatBoundary resetMeetsGrant) = true := by
    rw [ht]
    show (rmoOf t 0).windows.isEmpty = true
    rw [show (rmoOf t 0).windows = [] from hwin]
    rfl
  rw [windowless_resetMeetsGrant] at hempty
  exact absurd hempty (by decide)

end


section
/-! PROOFS. The Doorkeeper's desk: how a command ends at once (R358, R378), and the writes that the far tier has in hand. -/

namespace Sys2Proof.Machine

variable {s t : State}

/-! ### The far tier's writes in hand -/

/-- The writes in hand and the number of the next one. -/
def farDesk (t : FarTier) : Nat × List FarWrite := (t.nextWrite, t.writes)

theorem farDesk_of_farCore {t u : FarTier} (h : farCore t = farCore u) : farDesk t = farDesk u :=
  (congrArg farDesk h).trans rfl

theorem addProg_farDesk (s : State) (g : FarProg) : farDesk (addProg s g).far = farDesk s.far :=
  (farDesk_of_farCore (addProg_far s g)).trans rfl

theorem progUnit_farDesk (s : State) (o lun ofs : Nat) (d : List Byte) (write : Nat) :
    farDesk (progUnit s o lun ofs d write).far = farDesk s.far := by
  unfold progUnit
  dsimp only
  rw [addProg_farDesk]
  show farDesk (State.far (if _ then _ else s)) = _
  split
  · exact farDesk_of_farCore (farCore_of_unworn (countRead_unworn s o lun))
  · rfl

theorem foldl_farDesk {α : Type} {f : State → α → State} (hf : ∀ s x, farDesk (f s x).far = farDesk s.far) (l : List α)
    (s : State) : farDesk (l.foldl f s).far = farDesk s.far := by
  induction l generalizing s with
  | nil => rfl
  | cons x l ih => exact (ih _).trans (hf s x)

/-- R164: a write takes its number and stands in hand. -/
theorem farWrite_farDesk (s : State) (o ofs : Nat) (d : List Byte) (sink : FarSink) :
    farDesk (farWrite s o ofs d sink).far = (s.far.nextWrite + 1, s.far.writes ++
      [{ ident := s.far.nextWrite, owner := o, left := (farUnits ofs d.length).length, lastSeq := 0, sink := sink }]) := by
  unfold farWrite
  dsimp only
  rw [foldl_farDesk (fun s x => progUnit_farDesk ..)]
  rfl

/-! ### A command ends at once -/

theorem replyLost_congr (hd : t.dk = s.dk) (hh : t.host = s.host) (r : Nat) : replyLost t r = replyLost s r := by
  unfold replyLost mbx
  rw [hd, hh]

theorem mbx_of_dk (hd : t.dk = s.dk) (r : Nat) : mbx t r = mbx s r := congrArg (fun d : Doorkeeper => tblGet Mailbox.reset d.mbx r) hd

theorem finish_lost {r : Nat} {rep : Reply} (h : replyLost s r = true) : (mbx (finish s r rep) r).job = none := by
  unfold finish
  rw [if_pos h, mbx_modMbx, if_pos rfl]

theorem finish_mbx {r : Nat} {rep : Reply} (h : replyLost s r = false) :
    mbx (finish s r rep) r = { setMState s .done (mbx s r) with job := none, reply := some rep } := by
  have hm : mbx (modMbx s r fun m => { setMState s .done m with job := none, reply := some rep }) r = _ :=
    (mbx_modMbx ..).trans (if_pos rfl)
  unfold finish
  rw [if_neg (by simp [h])]
  dsimp only
  generalize modMbx s r _ = u at hm ⊢
  rw [← hm]
  refine mbx_of_dk ?_ r
  split
  · split
    · exact fmReplyTo_dk ..
    · rfl
  · split
    · exact msix_dk ..
    · rfl

theorem finish_job (s : State) (r : Nat) (rep : Reply) : (mbx (finish s r rep) r).job = none := by
  cases h : replyLost s r with
  | true => exact finish_lost h
  | false => rw [finish_mbx h]

/-- A management packet waits in no pane. -/
theorem sendMgmt_panes (s : State) (device : BitVec 16) (bytes : List Byte) : (sendMgmt s device bytes).panes = s.panes := by
  unfold sendMgmt sendParcel
  rw [if_neg (by simp [viaHub])]
  exact queueParcel_panes ..

theorem fmReplyTo_panes (s : State) (entry : Option (BitVec 16)) (xid : BitVec 32) (d : List Byte) :
    (fmReplyTo s entry xid d).panes = s.panes := by
  unfold fmReplyTo
  cases entry with
  | none => exact foldl_panes (fun z f => sbReply z f.device f) (fun _ _ => rfl) _ s
  | some e => exact foldl_panes (fun z f => sendMgmt z e (fragBytes f)) (fun _ _ => sendMgmt_panes ..) _ s

theorem finish_panes (s : State) (r : Nat) (rep : Reply) : (finish s r rep).panes = s.panes := by
  unfold finish
  split
  · rfl
  · dsimp only
    split
    · split
      · exact fmReplyTo_panes ..
      · rfl
    · split
      · exact msix_panes ..
      · rfl

/-- What the command leaves behind before its mailbox is done. -/
def leftBehind (s : State) (r : Nat) (j : Job) (a : Ans) : State := orphanWork (if a.status = stOk then s else leaveUndefined s j) r

theorem leftBehind_dk (s : State) (r : Nat) (j : Job) (a : Ans) : (leftBehind s r j a).dk = s.dk := by
  unfold leftBehind
  split
  · exact orphanWork_dk ..
  · exact (orphanWork_dk ..).trans (leaveUndefined_dk ..)

theorem leftBehind_host (s : State) (r : Nat) (j : Job) (a : Ans) : (leftBehind s r j a).host = s.host := by
  unfold leftBehind
  split
  · exact orphanWork_host ..
  · exact (orphanWork_host ..).trans (leaveUndefined_host ..)

theorem endNow_some {r : Nat} {j : Job} (a : Ans) (h : (mbx s r).job = some j) : endNow s r a =
    finish (leftBehind s r j a) r (mkReply (leftBehind s r j a) j.opcode.toNat j.packet.seq.toNat a) := by
  unfold endNow leftBehind
  rw [h]

/-- A command that ends at once leaves its mailbox, with its status where its reply is not lost. -/
theorem endNow_mbx {r : Nat} {j : Job} (a : Ans) (h : (mbx s r).job = some j) : (mbx (endNow s r a) r).job = none ∧
    (replyLost s r = false → ∃ rep, (mbx (endNow s r a) r).reply = some rep ∧ rep.status = BitVec.ofNat 16 a.status) := by
  have hlost := replyLost_congr (leftBehind_dk s r j a) (leftBehind_host s r j a) r
  rw [endNow_some a h]
  cases hl : replyLost s r with
  | true => exact ⟨finish_lost (hlost.trans hl), fun h => absurd h (by decide)⟩
  | false =>
    rw [finish_mbx (hlost.trans hl)]
    exact ⟨rfl, fun _ => ⟨_, rfl, rfl⟩⟩

end Sys2Proof.Machine
end


section
/-! PROOFS. Transactions with the shared store (R518 to R520, R374, R397). -/

namespace Sys2Proof.Machine

variable {s t : State} {xid : BitVec 32} {x : StoreTxn}

/-! ### Transactions by their numbers -/

theorem xid_of_txnOf (h : txnOf s xid = some x) : x.xid = xid := by
  have hx := List.find?_some h
  simpa using hx

theorem find?_map_setXid {l : List StoreTxn} {y : StoreTxn} (h : l.find? (·.xid == xid) = some x) (hy : y.xid = xid) :
    (l.map fun z => if z.xid == y.xid then y else z).find? (·.xid == xid) = some y := by
  induction l with
  | nil => simp at h
  | cons a l ih =>
    by_cases ha : a.xid = xid
    · rw [List.map_cons, List.find?_cons_of_pos (by simp [ha, hy])]
      simp [ha, hy]
    · rw [List.find?_cons_of_neg (by simpa using ha)] at h
      rw [List.map_cons, List.find?_cons_of_neg (by simp [ha, hy])]
      exact ih h

theorem txnOf_setTxn {y : StoreTxn} (h : txnOf s xid = some x) (hy : y.xid = xid) : txnOf (setTxn s y) xid = some y :=
  find?_map_setXid h hy

theorem txnOf_of_txns (h : t.store.txns = s.store.txns) (xid : BitVec 32) : txnOf t xid = txnOf s xid := by
  rw [txnOf, txnOf, h]

theorem owner_ne_of_mem_dropTxns {o : StoreOwner} {y : StoreTxn} (h : y ∈ (dropTxns s o).store.txns) : y.owner ≠ o := by
  have hy := (List.mem_filter.mp h).2
  simpa using hy

/-! ### A transaction opens -/

/-- The transaction that opens. -/
def openedTxn (s : State) (o : StoreOwner) (desc : List Byte) (device : BitVec 16) (step length : Nat) : StoreTxn :=
  { xid := s.store.nextXid, owner := o, phase := .opening, desc := desc, moduleId := device
    step := BitVec.ofNat 48 step, length := length, rkey := 0, addr := 0, objCrc := 0 }

theorem openTxn_txns (s : State) (o : StoreOwner) (desc : List Byte) (device : BitVec 16) (step length : Nat) :
    (openTxn s o desc device step length).store.txns =
      (s.store.txns.filter (·.owner != o)) ++ [openedTxn s o desc device step length] := rfl

/-- R519: a drain begins again from step 1. -/
theorem startDrain_opens {lead : Nat} {d : DrainRun} (h : tblFind s.store.drains lead = some d) :
    (startDrain s lead).store.nextXid = s.store.nextXid + 1 ∧
    ∃ y ∈ (startDrain s lead).store.txns, y.owner = .drain lead ∧ y.phase = .opening ∧ y.xid = s.store.nextXid ∧
      y.step = BitVec.ofNat 48 d.step ∧ (startDrain s lead).store.sent.head? = some (storeMsg y 1) := by
  unfold startDrain
  rw [h]
  exact ⟨rfl, openedTxn s (.drain lead) d.desc (moduleId s) d.step (d.image.length * frameSize),
    List.mem_append_right _ (List.mem_singleton_self _), rfl, rfl, rfl, rfl, rfl⟩

/-! ### Commands that wait for the store -/

theorem storeJob_fetch {r r' : Nat} {j : Job} (h : storeJob s (.fetch r') = some (r, j)) : r' = r ∧ (mbx s r).job = some j := by
  unfold storeJob at h
  dsimp only at h
  split at h
  next k hk =>
    split at h
    · obtain ⟨rfl, rfl⟩ := Prod.mk.inj (Option.some.inj h)
      exact ⟨rfl, hk⟩
    · simp at h
  next => simp at h

theorem storeJob_restore {r r' : Nat} {j : Job} (h : storeJob s (.restore r') = some (r, j)) :
    r' = r ∧ (mbx s r).job = some j := by
  unfold storeJob at h
  dsimp only at h
  split at h
  next k hk =>
    split at h
    · obtain ⟨rfl, rfl⟩ := Prod.mk.inj (Option.some.inj h)
      exact ⟨rfl, hk⟩
    · simp at h
  next => simp at h

theorem storeJob_job {o : StoreOwner} {r : Nat} {j : Job} (h : storeJob s o = some (r, j)) : (mbx s r).job = some j := by
  cases o with
  | drain lead => simp [storeJob] at h
  | fetch r' => exact (storeJob_fetch h).2
  | restore r' => exact (storeJob_restore h).2

/-- R520: the command of a transaction that fails ends with `ST_IO_ERROR`. -/
theorem endStoreJob_fails {o : StoreOwner} {r : Nat} {j : Job} (h : storeJob s o = some (r, j)) :
    (mbx (endStoreJob s o storeFailure) r).job = none ∧
    (replyLost s r = false → ∃ a, (mbx (endStoreJob s o storeFailure) r).reply = some a ∧ a.status = 0x0402) := by
  have hj : (mbx (dropTxns s o) r).job = some j := storeJob_job h
  unfold endStoreJob
  rw [h]
  exact endNow_mbx storeFailure hj

theorem storeJob_of_starved {r op : Nat} (h : starved s r op = true) : ∃ j : Job, (mbx s r).job = some j ∧
    (j.opcode.toNat = op && j.start.isSome && j.outcome.isNone) = true := by
  unfold starved at h
  split at h
  next j hj =>
    simp only [Bool.and_eq_true, beq_iff_eq, decide_eq_true_eq] at h
    obtain ⟨⟨⟨⟨hop, hst⟩, hout⟩, -⟩, -⟩ := h
    exact ⟨j, hj, by simp [hop, hst, hout]⟩
  next => exact absurd h (by decide)

theorem storeJob_fetch_of_starved {r : Nat} (h : starved s r opShardFetch = true) : ∃ j, storeJob s (.fetch r) = some (r, j) := by
  obtain ⟨j, hj, hc⟩ := storeJob_of_starved h
  refine ⟨j, ?_⟩
  unfold storeJob
  dsimp only
  rw [hj]
  exact if_pos hc

theorem storeJob_restore_of_starved {r : Nat} (h : starved s r opRestore = true) : ∃ j, storeJob s (.restore r) = some (r, j) := by
  obtain ⟨j, hj, hc⟩ := storeJob_of_starved h
  refine ⟨j, ?_⟩
  unfold storeJob
  dsimp only
  rw [hj]
  exact if_pos hc

/-! ### What was read lands (R520) -/

theorem nearOf_foldl_nearWrite {ps : List Nat} (hn : ps.Nodup) (ofs : Nat) (d : List Byte) (s : State) (q : Nat) :
    nearOf (ps.foldl (fun s p => nearWrite s p ofs d) s) q = if q ∈ ps then nearPut (nearOf s q) ofs d else nearOf s q := by
  induction ps generalizing s with
  | nil => rfl
  | cons p ps ih =>
    obtain ⟨hp, hn⟩ := List.nodup_cons.mp hn
    rw [List.foldl_cons, ih hn]
    by_cases hq : q = p
    · rw [if_neg (hq ▸ hp), if_pos (hq ▸ List.mem_cons_self), hq]
      exact nearOf_modNear_self ..
    · have hne : nearOf (nearWrite s p ofs d) q = nearOf s q := (nearOf_modNear ..).trans (if_neg hq)
      rw [hne]
      simp [hq]

theorem nodup_maskPanes (m : BitVec 16) : (maskPanes m).Nodup := List.nodup_range.filter _

theorem mem_maskPanes_ofNat {n q : Nat} : q ∈ maskPanes (BitVec.ofNat 16 n) ↔ q < 16 ∧ bitAt n q = true := by
  simp only [maskPanes, List.mem_filter, List.mem_range, BitVec.getLsbD_ofNat, bitAt, Bool.and_eq_true, decide_eq_true_eq]
  tauto

theorem foldl_spread (m : BitVec 16) (a : BitVec 64) (d : List Byte) (s : State) :
    (spread m a).foldl (fun s q => nearWrite s q.1 q.2 d) s = (maskPanes m).foldl (fun s p => nearWrite s p (gaOfs a) d) s := by
  rw [spread, List.foldl_map]

/-- The bytes of a command are noted, and its transaction is closed. -/
def readOver (s : State) (x : StoreTxn) (r : Nat) (j : Job) (n : Nat) : State :=
  sendStore (meterEth (noteBytes (dropTxns s x.owner) r n) (prm j.packet 0 1) n) x skClose

theorem readOver_job {r : Nat} {j : Job} (h : (mbx s r).job = some j) (x : StoreTxn) (n : Nat) :
    (mbx (readOver s x r j n) r).job = some { j with lastBeat := s.time.beat, got := j.got + n } := by
  have hm : (mbx (noteBytes (dropTxns s x.owner) r n) r).job =
      (mbx s r).job.map fun j => { j with lastBeat := s.time.beat, got := j.got + n } :=
    congrArg Mailbox.job ((mbx_modMbx (dropTxns s x.owner) r r fun m =>
      { m with job := m.job.map fun j => { j with lastBeat := s.time.beat, got := j.got + n } }).trans (if_pos rfl))
  have hd : mbx (readOver s x r j n) r = mbx (noteBytes (dropTxns s x.owner) r n) r := mbx_of_dk (meterEth_dk ..) r
  rw [hd, hm, h]
  rfl

theorem readOver_txns (s : State) (x : StoreTxn) (r : Nat) (j : Job) (n : Nat) :
    (readOver s x r j n).store.txns = (dropTxns s x.owner).store.txns :=
  (congrArg StoreUnit.txns (meterEth_store (noteBytes (dropTxns s x.owner) r n) (prm j.packet 0 1) n)).trans rfl

theorem readOver_panes (s : State) (x : StoreTxn) (r : Nat) (j : Job) (n : Nat) : (readOver s x r j n).panes = s.panes :=
  meterEth_panes (noteBytes (dropTxns s x.owner) r n) ..

theorem readOver_far (s : State) (x : StoreTxn) (r : Nat) (j : Job) (n : Nat) : (readOver s x r j n).far = s.far :=
  meterEth_far (noteBytes (dropTxns s x.owner) r n) ..

theorem execRdmaReadsComplete_fetch {r r' : Nat} {j : Job} (h : txnOf s xid = some x) (hp : x.phase = .moving)
    (ho : x.owner = .fetch r') (hj : storeJob s x.owner = some (r, j)) (d : List Byte) :
    exec (.rdmaReadsComplete xid d) s =
      .next (landFetch (readOver s x r j (bytesAt d 0 x.length).length) r j (bytesAt d 0 x.length)) := by
  rw [ho] at hj
  show execRdmaReadsComplete xid d s = _
  unfold execRdmaReadsComplete readOver
  rw [h]
  dsimp only
  rw [if_neg (by simp [hp]), ho, hj]

theorem execRdmaReadsComplete_restore {r : Nat} {j : Job} (h : txnOf s xid = some x) (hp : x.phase = .moving)
    (ho : x.owner = .restore r) (hj : storeJob s x.owner = some (r, j)) (d : List Byte) :
    exec (.rdmaReadsComplete xid d) s = .next (landObject (readOver s x r j d.length) r j x d) := by
  rw [ho] at hj
  show execRdmaReadsComplete xid d s = _
  unfold execRdmaReadsComplete readOver
  rw [h]
  dsimp only
  rw [if_neg (by simp [hp]), ho, hj]

theorem landFetch_near {r : Nat} {j k : Job} (hk : (mbx s r).job = some k)
    (ht : gaTier (BitVec.ofNat 64 (prm j.packet 8 8)) = 0) (d : List Byte) :
    (∃ k a, (mbx (landFetch s r j d) r).job = some k ∧ k.outcome = some a ∧ a.status = 0) ∧
    (landFetch s r j d).store = s.store ∧
    ∀ q, q < 16 → nearOf (landFetch s r j d) q = if bitAt (prm j.packet 6 2) q then
      nearPut (nearOf s q) (gaOfs (BitVec.ofNat 64 (prm j.packet 8 8))) d else nearOf s q := by
  unfold landFetch
  dsimp only
  rw [if_pos ht, foldl_spread]
  have hdk := foldl_dk _ (fun s p => nearWrite_dk s p (gaOfs (BitVec.ofNat 64 (prm j.packet 8 8))) d)
    (maskPanes (BitVec.ofNat 16 (prm j.packet 6 2))) s
  have hst := foldl_store _ (fun s p => nearWrite_store s p (gaOfs (BitVec.ofNat 64 (prm j.packet 8 8))) d)
    (maskPanes (BitVec.ofNat 16 (prm j.packet 6 2))) s
  refine ⟨⟨_, _, decideJob_job ansOk ((congrArg Mailbox.job (mbx_of_dk hdk r)).trans hk), rfl, rfl⟩, hst, fun q hq => ?_⟩
  refine (nearOf_of_panes (decideJob_panes ..) q).trans ?_
  rw [nearOf_foldl_nearWrite (nodup_maskPanes _)]
  exact if_congr (mem_maskPanes_ofNat.trans (and_iff_right hq)) rfl rfl

theorem landFetch_far {r : Nat} {j : Job} (ht : gaTier (BitVec.ofNat 64 (prm j.packet 8 8)) ≠ 0) (d : List Byte) :
    (landFetch s r j d).far.nextWrite = s.far.nextWrite + 1 := by
  unfold landFetch
  dsimp only
  rw [if_neg ht]
  exact congrArg Prod.fst (farWrite_farDesk ..)

theorem mem_txns_endNow {r : Nat} {a : Ans} {y : StoreTxn} (h : y ∈ (endNow s r a).store.txns) : y ∈ s.store.txns := by
  cases hj : (mbx s r).job with
  | none => rwa [endNow_none a hj] at h
  | some j =>
    have hsub : (leftBehind s r j a).store.txns = s.store.txns.filter fun x => x.owner != .fetch r && x.owner != .restore r := by
      unfold leftBehind
      split
      · rfl
      · show List.filter _ (leaveUndefined s j).store.txns = _
        rw [leaveUndefined_store]
    rw [endNow_some a hj, finish_store, hsub] at h
    exact (List.mem_filter.mp h).1

/-- The next object's transaction is opened, or there is none left. -/
theorem opening_of_mem_landObject {r : Nat} {j : Job} {d : List Byte} {y : StoreTxn}
    (hs : ∀ y ∈ s.store.txns, y.owner ≠ .restore r) (hy : y ∈ (landObject s r j x d).store.txns)
    (ho : y.owner = .restore r) : y.phase = .opening := by
  unfold landObject at hy
  dsimp only at hy
  split at hy
  next g fs _ _ =>
    split at hy
    next pl _ =>
      have hst := foldl_store (fun s f => if (frameHdr f).ftype = ftData then restoreFrame s g pl f else s)
        (fun s f => by
          split
          · exact restoreFrame_store ..
          · rfl) fs s
      generalize List.foldl (fun s f => if (frameHdr f).ftype = ftData then restoreFrame s g pl f else s) s fs = u at hst hy
      split at hy
      · rw [openTxn_txns, List.mem_append] at hy
        rcases hy with hy | hy
        · exact absurd ho (by simpa using (List.mem_filter.mp hy).2)
        · rw [List.mem_singleton.mp hy]
          rfl
      · have hy' : y ∈ u.store.txns := hy
        exact absurd ho (hs y (hst ▸ hy'))
    next => exact absurd ho (hs y (mem_txns_endNow hy))
  next => exact absurd ho (hs y (mem_txns_endNow hy))

/-! ### The transaction's own commands -/

theorem exec_storeGrantReceived_moves (h : txnOf s xid = some x) (hp : x.phase = .opening) (k : BitVec 32) (a : BitVec 64) :
    exec (.storeGrantReceived xid k a) s = .next (setTxn s { x with phase := .moving, rkey := k, addr := a }) := by
  show execStoreGrantReceived xid k a s = _
  unfold execStoreGrantReceived
  rw [h]
  exact congrArg Host.Outcome.next (if_pos hp)

theorem exec_storeGrantReceived (h : txnOf s xid = some x) (hp : x.phase = .opening) (k a : BitVec _) :
    ∃ t, exec (.storeGrantReceived xid k a) s = .next t ∧ txnOf t xid = some { x with phase := .moving, rkey := k, addr := a } :=
  ⟨_, exec_storeGrantReceived_moves h hp k a, txnOf_setTxn h (show x.xid = xid from xid_of_txnOf h)⟩

/-- The transaction after its writes, closed over its object. -/
def closedTxn (x : StoreTxn) (d : DrainRun) : StoreTxn :=
  { x with phase := .closed, objCrc := BitVec.ofNat 64 (crc64 (drainObject d)) }

theorem exec_rdmaWritesComplete_closes {lead : Nat} {d : DrainRun} (h : txnOf s xid = some x) (ho : x.owner = .drain lead)
    (hd : tblFind s.store.drains lead = some d) (hp : x.phase = .moving) : exec (.rdmaWritesComplete xid) s =
      .next (sendStore (meterEth (setTxn s (closedTxn x d)) lead (drainObject d).length) (closedTxn x d) skClose) := by
  show execRdmaWritesComplete xid s = _
  unfold execRdmaWritesComplete
  rw [h]
  dsimp only
  rw [ho]
  dsimp only
  rw [hd]
  dsimp only
  rw [if_pos hp, closedTxn, ho]

theorem exec_rdmaWritesComplete {lead : Nat} {d : DrainRun} (h : txnOf s xid = some x) (ho : x.owner = .drain lead)
    (hd : tblFind s.store.drains lead = some d) (hp : x.phase = .moving) :
    ∃ t, exec (.rdmaWritesComplete xid) s = .next t ∧
      ∃ y, txnOf t xid = some y ∧ y = { x with phase := .closed, objCrc := BitVec.ofNat 64 (crc64 (drainObject d)) } ∧
        t.store.sent.head? = some (storeMsg y 4) := by
  refine ⟨_, exec_rdmaWritesComplete_closes h ho hd hp, closedTxn x d, ?_, rfl, rfl⟩
  have hm := meterEth_store (setTxn s (closedTxn x d)) lead (drainObject d).length
  generalize meterEth (setTxn s (closedTxn x d)) lead (drainObject d).length = u at hm ⊢
  exact (txnOf_of_txns (s := setTxn s (closedTxn x d)) (congrArg StoreUnit.txns hm) xid).trans
    (txnOf_setTxn h (show x.xid = xid from xid_of_txnOf h))

theorem execStoreDoneReceived_closed {lead : Nat} (h : txnOf s xid = some x) (ho : x.owner = .drain lead)
    (hp : x.phase = .closed) (v : BitVec 8) (c : BitVec 64) : exec (.storeDoneReceived xid v c) s =
      if v = 0 && c = x.objCrc then .next (endDrain s lead x.step) else .next (startDrain s lead) := by
  show execStoreDoneReceived xid v c s = _
  unfold execStoreDoneReceived
  rw [h]
  dsimp only
  rw [ho]
  exact if_neg (by simp [hp])

theorem endDrain_ends (s : State) (lead : Nat) (step : BitVec 48) : tblFind (endDrain s lead step).store.drains lead = none ∧
    (∀ y ∈ (endDrain s lead step).store.txns, y.owner ≠ .drain lead) ∧
    ∀ g, groupLed s lead = some g → groupLed (endDrain s lead step) lead = some { g with
      status := { g.status with drainedStep := step, drainState := 0 } } := by
  refine ⟨tblFind_tblDel_self .., fun y hy => owner_ne_of_mem_dropTxns hy, fun g hg => ?_⟩
  have h := groupLed_modGroup s lead lead (fun g => { g with status := { g.status with drainedStep := step, drainState := 0 } })
    fun _ => rfl
  rw [if_pos rfl, hg] at h
  exact h

theorem execStoreRefuseReceived_busy (h : txnOf s xid = some x) (hp : x.phase = .opening) (m : BitVec 32) :
    exec (.storeRefuseReceived xid 3 m) s = .next (setTxn s { x with phase := .waiting (s.time.beat + msBeats m.toNat) }) := by
  show execStoreRefuseReceived xid 3 m s = _
  unfold execStoreRefuseReceived
  rw [h]
  exact (if_neg (by simp [hp])).trans (if_pos rfl)

theorem execStoreRefuseReceived_drain {lead : Nat} {v : BitVec 8} (h : txnOf s xid = some x) (hp : x.phase = .opening)
    (hv : v ≠ 3) (ho : x.owner = .drain lead) (m : BitVec 32) :
    exec (.storeRefuseReceived xid v m) s = .next (startDrain s lead) := by
  show execStoreRefuseReceived xid v m s = _
  unfold execStoreRefuseReceived
  rw [h]
  dsimp only
  rw [if_neg (by simp [hp]), if_neg hv, ho]

theorem execStoreRefuseReceived_command {v : BitVec 8} (h : txnOf s xid = some x) (hp : x.phase = .opening)
    (hv : v ≠ 3) (ho : ∀ lead, x.owner ≠ .drain lead) (m : BitVec 32) :
    exec (.storeRefuseReceived xid v m) s = .next (endStoreJob s x.owner storeFailure) := by
  show execStoreRefuseReceived xid v m s = _
  unfold execStoreRefuseReceived
  rw [h]
  dsimp only
  rw [if_neg (by simp [hp]), if_neg hv]
  cases hx : x.owner with
  | drain lead => exact absurd hx (ho lead)
  | fetch r => rfl
  | restore r => rfl

theorem execStoreRetryExpiry_waiting {b : Nat} (h : txnOf s xid = some x) (hp : x.phase = .waiting b) :
    exec (.storeRetryExpiry xid) s = if b ≤ s.time.beat then
        .next (sendStore (setTxn s { x with phase := .opening }) { x with phase := .opening } (openKind x.owner))
      else .next s := by
  show execStoreRetryExpiry xid s = _
  unfold execStoreRetryExpiry
  rw [h]
  dsimp only
  rw [hp]

theorem execStoreConnectionLost_drain {lead : Nat} (h : txnOf s xid = some x) (ho : x.owner = .drain lead) :
    exec (.storeConnectionLost xid) s = .next (startDrain s lead) := by
  show execStoreConnectionLost xid s = _
  unfold execStoreConnectionLost
  rw [h]
  dsimp only
  rw [ho]

theorem execStoreConnectionLost_command (h : txnOf s xid = some x) (ho : ∀ lead, x.owner ≠ .drain lead) :
    exec (.storeConnectionLost xid) s = .next (dropTxns s x.owner) := by
  show execStoreConnectionLost xid s = _
  unfold execStoreConnectionLost
  rw [h]
  dsimp only
  cases hx : x.owner with
  | drain lead => exact absurd hx (ho lead)
  | fetch r => rfl
  | restore r => rfl

theorem execRdmaReadsComplete_notMoving (h : txnOf s xid = some x) (hp : x.phase ≠ .moving) (d : List Byte) :
    exec (.rdmaReadsComplete xid d) s = .next s := by
  show execRdmaReadsComplete xid d s = _
  unfold execRdmaReadsComplete
  rw [h]
  exact if_pos hp

theorem exec_noTxn (h : txnOf s xid = none) : ∀ i ∈ [Instr.rdmaWritesComplete xid, .storeRetryExpiry xid,
    .storeConnectionLost xid], exec i s = .next s := by
  intro i hi
  simp only [List.mem_cons, List.not_mem_nil, or_false] at hi
  rcases hi with rfl | rfl | rfl
  · show execRdmaWritesComplete xid s = _
    rw [execRdmaWritesComplete, h]
  · show execStoreRetryExpiry xid s = _
    rw [execStoreRetryExpiry, h]
  · show execStoreConnectionLost xid s = _
    rw [execStoreConnectionLost, h]

theorem exec_rdmaReadsComplete_fetchNear {r r' : Nat} {j : Job} (h : txnOf s xid = some x) (ho : x.owner = .fetch r')
    (hj : storeJob s x.owner = some (r, j)) (hp : x.phase = .moving)
    (ht : gaTier (BitVec.ofNat 64 (prm j.packet 8 8)) = 0) (d : List Byte) :
    ∃ t, exec (.rdmaReadsComplete xid d) s = .next t ∧
      (∃ k a, (mbx t r).job = some k ∧ k.outcome = some a ∧ a.status = 0) ∧ (∀ y ∈ t.store.txns, y.owner ≠ x.owner) ∧
      ∀ q, q < 16 → nearOf t q = if bitAt (prm j.packet 6 2) q then
        nearPut (nearOf s q) (gaOfs (BitVec.ofNat 64 (prm j.packet 8 8))) (bytesAt d 0 x.length) else nearOf s q := by
  obtain ⟨rfl, hmbx⟩ := storeJob_fetch (ho ▸ hj)
  refine ⟨_, execRdmaReadsComplete_fetch h hp ho hj d, ?_⟩
  have hpanes := readOver_panes s x r' j (bytesAt d 0 x.length).length
  have htx := readOver_txns s x r' j (bytesAt d 0 x.length).length
  have hjob := readOver_job hmbx x (bytesAt d 0 x.length).length
  generalize readOver s x r' j (bytesAt d 0 x.length).length = u at hpanes htx hjob ⊢
  obtain ⟨hdone, hstore, hnear⟩ := landFetch_near hjob ht (bytesAt d 0 x.length)
  refine ⟨hdone, fun y hy => ?_, fun q hq => ?_⟩
  · rw [hstore, htx] at hy
    exact owner_ne_of_mem_dropTxns hy
  · rw [hnear q hq, nearOf_of_panes hpanes]

theorem exec_rdmaReadsComplete_fetchFar {r r' : Nat} {j : Job} (h : txnOf s xid = some x) (ho : x.owner = .fetch r')
    (hj : storeJob s x.owner = some (r, j)) (hp : x.phase = .moving)
    (ht : gaTier (BitVec.ofNat 64 (prm j.packet 8 8)) ≠ 0) (d : List Byte) :
    ∃ t, exec (.rdmaReadsComplete xid d) s = .next t ∧ t.far.nextWrite = s.far.nextWrite + 1 := by
  obtain ⟨rfl, -⟩ := storeJob_fetch (ho ▸ hj)
  refine ⟨_, execRdmaReadsComplete_fetch h hp ho hj d, ?_⟩
  rw [landFetch_far ht, readOver_far]

theorem exec_rdmaReadsComplete_restore {r r' : Nat} {j : Job} (h : txnOf s xid = some x) (ho : x.owner = .restore r')
    (hj : storeJob s x.owner = some (r, j)) (hp : x.phase = .moving) (d : List Byte) :
    ∃ t, exec (.rdmaReadsComplete xid d) s = .next t ∧ ∀ y ∈ t.store.txns, y.owner = x.owner → y.phase = .opening := by
  obtain ⟨rfl, -⟩ := storeJob_restore (ho ▸ hj)
  refine ⟨_, execRdmaReadsComplete_restore h hp ho hj d, fun y hy hyo => ?_⟩
  refine opening_of_mem_landObject (fun z hz => ?_) hy (hyo.trans ho)
  rw [readOver_txns, ho] at hz
  exact owner_ne_of_mem_dropTxns hz

end Sys2Proof.Machine

open Sys2Proof Sys2Proof.Machine

/-- Settles O46: each message by the transaction that its number names, and the command or the drain that it serves. -/
theorem storeTransactions : Obligations.StoreTransactions := by
  unfold Obligations.StoreTransactions
  intro s xid after again failed
  refine ⟨fun x hx => ⟨fun k a hp => exec_storeGrantReceived hx hp k a, fun lead d ho hd hp => exec_rdmaWritesComplete hx ho hd hp,
      fun lead v c ho hp => ⟨fun hv hc => ?_, fun hvc => ?_⟩, fun v m hp => ⟨fun hv => ?_, fun hv => ⟨fun lead ho => ?_, fun r j hj => ?_⟩⟩,
      fun b hp => ⟨fun hb => ?_, fun hb => ?_⟩, fun lead ho => ?_, fun ho => ?_,
      fun d r r' j ho hj hp ht => exec_rdmaReadsComplete_fetchNear hx ho hj hp ht d,
      fun d r r' j ho hj hp ht => exec_rdmaReadsComplete_fetchFar hx ho hj hp ht d,
      fun d r r' j ho hj hp => exec_rdmaReadsComplete_restore hx ho hj hp d,
      fun d hp => execRdmaReadsComplete_notMoving hx hp d⟩,
    fun r h => ?_, fun r h => congrArg Host.Outcome.next (if_neg (ne_true_of_eq_false h)), fun r h => ?_,
    fun r h => congrArg Host.Outcome.next (if_neg (ne_true_of_eq_false h)), exec_noTxn⟩
  · exact ⟨_, (execStoreDoneReceived_closed hx ho hp v c).trans (if_pos (by simp [hv, hc])), endDrain_ends s lead x.step⟩
  · refine ⟨_, (execStoreDoneReceived_closed hx ho hp v c).trans (if_neg ?_), fun d hd => startDrain_opens hd⟩
    simpa [-not_and, not_and_or] using hvc
  · exact ⟨_, hv ▸ execStoreRefuseReceived_busy hx hp m, txnOf_setTxn hx (show x.xid = xid from xid_of_txnOf hx)⟩
  · exact ⟨_, execStoreRefuseReceived_drain hx hp hv ho m, fun d hd => startDrain_opens hd⟩
  · refine ⟨_, execStoreRefuseReceived_command hx hp hv (fun lead ho => ?_) m, endStoreJob_fails hj⟩
    rw [ho] at hj
    simp [storeJob] at hj
  · exact ⟨_, (execStoreRetryExpiry_waiting hx hp).trans (if_pos hb), txnOf_setTxn hx (show x.xid = xid from xid_of_txnOf hx), rfl⟩
  · exact (execStoreRetryExpiry_waiting hx hp).trans (if_neg (Nat.not_le.mpr hb))
  · exact ⟨_, execStoreConnectionLost_drain hx ho, fun d hd => startDrain_opens hd⟩
  · exact ⟨_, execStoreConnectionLost_command hx ho, fun y hy => owner_ne_of_mem_dropTxns hy⟩
  · obtain ⟨j, hj⟩ := storeJob_fetch_of_starved h
    exact ⟨_, congrArg Host.Outcome.next (if_pos h), endStoreJob_fails hj⟩
  · obtain ⟨j, hj⟩ := storeJob_restore_of_starved h
    exact ⟨_, congrArg Host.Outcome.next (if_pos h), endStoreJob_fails hj⟩

end


section
/-! PROOFS. Storm copies and drains (R387, R389, R391, R393). -/

namespace Sys2Proof.Machine

variable {s t : State}

/-! ### Frames are written (R387) -/

theorem pane_noteHeld (s : State) (p : Nat) (srcPane : Option Nat) (f : List Byte) (q : Nat) :
    nearOf (noteHeld s p srcPane f) q = nearOf s q ∧ rmoOf (noteHeld s p srcPane f) q = rmoOf s q := by
  unfold noteHeld
  dsimp only
  split
  · exact ⟨rfl, rfl⟩
  · rw [nearOf, rmoOf, pane_modPane]
    split
    next h =>
      rw [h]
      exact ⟨rfl, rfl⟩
    next => exact ⟨rfl, rfl⟩

theorem rmoOf_of_panes (h : t.panes = s.panes) (p : Nat) : rmoOf t p = rmoOf s p :=
  congrArg (fun x : Tbl Pane => (tblGet Pane.reset x p).rmo) h

theorem rmoOf_nearWrite (s : State) (p ofs : Nat) (d : List Byte) (q : Nat) : rmoOf (nearWrite s p ofs d) q = rmoOf s q := by
  have h : pane (nearWrite s p ofs d) q = _ := pane_modPane ..
  rw [rmoOf, h]
  split
  next he => rw [he]; rfl
  next => rfl

theorem rmoOf_writeFrame (s : State) (x : Option Nat) (f : List Byte) (q : Nat) : rmoOf (writeFrame s x f) q = rmoOf s q := by
  unfold writeFrame
  dsimp only
  split
  · exact ((pane_noteHeld ..).2).trans (rmoOf_nearWrite ..)
  · rfl

theorem nearOf_writeFrame {f : List Byte} (h : frameMay s f = true) (x : Option Nat) (q : Nat) :
    nearOf (writeFrame s x f) q = if q = gaPane (frameDest f) then
      nearPut (nearOf s q) (gaOfs (frameDest f)) f else nearOf s q := by
  unfold writeFrame
  dsimp only
  rw [if_pos h, (pane_noteHeld ..).1]
  have hn := nearOf_modNear s (gaPane (frameDest f)) q fun m => nearPut m (gaOfs (frameDest f)) f
  refine Eq.trans hn ?_
  split
  next he => rw [he]
  next => rfl

/-! ### Frames are sent, as far as there is room (R249) -/

theorem routePort_congr (hl : t.links = s.links) (hp : t.power = s.power) (device : BitVec 16) :
    routePort t device = routePort s device := by
  unfold routePort coordOf axisLen moduleId
  rw [hl, hp]

theorem routePort_lt {device : BitVec 16} {port : Nat} (h : routePort s device = some port) : port < 6 := by
  unfold routePort at h
  split at h
  next a b _ _ =>
    obtain ⟨axis, hax, hw⟩ := List.exists_of_findSome?_eq_some h
    rw [List.mem_range] at hax
    dsimp only at hw
    split at hw
    · simp at hw
    · obtain rfl := Option.some.inj hw
      have hb : ∀ b, b2n b ≤ 1 := by decide
      have := hb (ringWay (axisLen s axis) (coordAxis a axis) (coordAxis b axis)).2
      omega
  next => simp at h

theorem parcelsOf_of_links (h : t.links = s.links) (via c : Nat) : parcelsOf t via c = parcelsOf s via c := by
  simp only [parcelsOf, trafOf, h]

/-- A parcel that joins a port's queue is one more of its pane's. -/
theorem parcelsOf_joins {x : Parcel} {port : Nat} (h : port < 6) :
    parcelsOf (modTraf s port fun t => { t with out := t.out ++ [x] }) x.via x.klass = parcelsOf s x.via x.klass + 1 := by
  simp only [parcelsOf, trafOf_modTraf]
  interval_cases port <;> simp [List.range_succ] <;> omega

/-- What a run of parcels leaves: some in the port's queue, the rest waiting in the pane. -/
structure Queued (s t : State) (port via : Nat) (l : List Parcel) (n : Nat) : Prop where
  out : (trafOf t port).out = (trafOf s port).out ++ l.take n
  late : (rmoOf t via).late = (rmoOf s via).late ++ l.drop n
  fits : parcelsOf s via 3 + l.length ≤ 64 → n = l.length
  full : 64 ≤ parcelsOf s via 3 → n = 0

theorem queued_sendParcels {via port : Nat} {device : BitVec 16} (hv : via < 16) (l : List Parcel)
    (hl : ∀ x ∈ l, x.klass = 3 ∧ x.device = device ∧ x.via = via) (s : State) (hr : routePort s device = some port) :
    ∃ n, Queued s (l.foldl sendParcel s) port via l n := by
  induction l generalizing s with
  | nil => exact ⟨0, by simp, by simp, fun _ => rfl, fun _ => rfl⟩
  | cons x l ih =>
    have ⟨hx, hrest⟩ := List.forall_mem_cons.mp hl
    obtain ⟨hk, hd, hvia⟩ := hx
    rw [List.foldl_cons]
    by_cases hfull : 64 ≤ parcelsOf s via 3
    · have hstep : sendParcel s x = modPane s via fun y => { y with rmo := { y.rmo with late := y.rmo.late ++ [x] } } := by
        unfold sendParcel
        rw [hvia, hk, if_pos (by simp [hv, hfull])]
      obtain ⟨n, hq⟩ := ih hrest (sendParcel s x) (by rw [hstep]; exact hr)
      have hpc : parcelsOf (sendParcel s x) via 3 = parcelsOf s via 3 := parcelsOf_of_links (by rw [hstep]; rfl) ..
      have hn : n = 0 := hq.full (by rw [hpc]; exact hfull)
      have hlate : (rmoOf (sendParcel s x) via).late = (rmoOf s via).late ++ [x] := by
        rw [hstep, rmoOf, pane_modPane_self]
        rfl
      refine ⟨0, ?_, ?_, fun h => ?_, fun _ => rfl⟩
      · have hout : (trafOf (sendParcel s x) port).out = (trafOf s port).out := by
          rw [hstep]
          rfl
        rw [hq.out, hn, hout]
        simp
      · rw [hq.late, hn, hlate]
        simp
      · rw [List.length_cons] at h
        omega
    · have hstep : sendParcel s x = modTraf s port fun t => { t with out := t.out ++ [x] } := by
        unfold sendParcel queueParcel
        rw [hvia, hk, hd, if_neg (by simp [hfull]), hr]
      obtain ⟨n, hq⟩ := ih hrest (sendParcel s x) (by rw [hstep]; exact hr)
      have hpc : parcelsOf (sendParcel s x) via 3 = parcelsOf s via 3 + 1 := by
        have := parcelsOf_joins (s := s) (x := x) (routePort_lt hr)
        rw [hvia, hk] at this
        rw [hstep, this]
      have hout : (trafOf (sendParcel s x) port).out = (trafOf s port).out ++ [x] := by
        rw [hstep, trafOf_modTraf, if_pos rfl]
      refine ⟨n + 1, ?_, ?_, fun h => ?_, fun h => absurd h hfull⟩
      · rw [hq.out, hout]
        simp
      · rw [hq.late, hstep]
        rfl
      · rw [List.length_cons] at h ⊢
        rw [hq.fits (by omega)]

/-! ### A snapshot is taken (R389) -/

/-- R393: a drain of the copy stages its frames. -/
def snapStaged (s : State) (lead : Nat) (c : CopyRun) (own : List (List Byte)) : State :=
  (tblFind s.store.drains lead).elim s fun dr =>
    if c.drain && dr.step == c.step then
      let dr1 := { dr with image := (own.drop own.length.pred) ++ (own.drop 1).dropLast }
      stageDrain (modStore s fun t => { t with drains := tblSet t.drains lead dr1 }) lead dr1
    else s

/-- What the sending of a copy looks at, and the groups. -/
def sendsFrom (s : State) : LinkUnit × PowerUnit × List Group := (s.links, s.power, s.groups)

theorem snapStaged_sendsFrom (s : State) (lead : Nat) (c : CopyRun) (own : List (List Byte)) :
    sendsFrom (snapStaged s lead c own) = sendsFrom s ∧ (snapStaged s lead c own).panes = s.panes := by
  unfold snapStaged
  cases tblFind s.store.drains lead with
  | some dr =>
    rw [Option.elim_some]
    split
    · dsimp only
      refine ⟨?_, stageDrain_panes ..⟩
      rw [sendsFrom, stageDrain_links, stageDrain_power, stageDrain_groups]
      rfl
    · exact ⟨rfl, rfl⟩
  | none => exact ⟨rfl, rfl⟩

theorem foldl_writeFrame (x : Option Nat) (l : List (List Byte)) (s : State) (q : Nat) :
    sendsFrom (l.foldl (fun s f => writeFrame s x f) s) = sendsFrom s ∧
      rmoOf (l.foldl (fun s f => writeFrame s x f) s) q = rmoOf s q := by
  induction l generalizing s with
  | nil => exact ⟨rfl, rfl⟩
  | cons f l ih =>
    obtain ⟨hs, hr⟩ := ih (writeFrame s x f)
    refine ⟨hs.trans ?_, hr.trans (rmoOf_writeFrame ..)⟩
    rw [sendsFrom, writeFrame_links, writeFrame_power, writeFrame_groups]
    rfl

/-- The snapshot is written, and staged where it is a drain's. -/
def snapWritten (s : State) (lead : Nat) (c : CopyRun) (own : List (List Byte)) : State :=
  snapStaged (own.foldl (fun s f => writeFrame s (some lead) f) s) lead c own

theorem snapWritten_spec (s : State) (lead : Nat) (c : CopyRun) (own : List (List Byte)) :
    sendsFrom (snapWritten s lead c own) = sendsFrom s ∧ rmoOf (snapWritten s lead c own) lead = rmoOf s lead := by
  obtain ⟨h1, h2⟩ := foldl_writeFrame (some lead) own s lead
  obtain ⟨h3, h4⟩ := snapStaged_sendsFrom (own.foldl (fun s f => writeFrame s (some lead) f) s) lead c own
  exact ⟨h3.trans h1, (rmoOf_of_panes h4 lead).trans h2⟩

/-- The copy is marked as taken in its group. -/
def copyTaken (c : CopyRun) (g : Group) : Group :=
  { g with copies := g.copies.map fun x => if x == c then { c with taken := true } else x }

theorem takeSnapshot_eq {g : Group} {d : List Byte} {c : CopyRun} {device : BitVec 16} {p : BitVec 8} {ofs len lead : Nat}
    (hb : g.storm.buddy = some (device, p, ofs, len)) (hlead : leadOf g.members = lead) (own : List (List Byte))
    (hown : own = placeFrames (moduleId s) lead (ofs + len) len c.buf (copySequence s g d c)) :
    takeSnapshot s g d c =
      if pathFailed (modGroup (snapWritten s lead c own) lead (copyTaken c)) device then
        abandonCopy (modGroup (snapWritten s lead c own) lead (copyTaken c)) lead { c with taken := true }
      else (placeFrames device p.toNat ofs len c.buf (copySequence s g d c)).foldl
        (fun s f => sendParcel s (framePart lead device f)) (modGroup (snapWritten s lead c own) lead (copyTaken c)) := by
  subst hown hlead
  unfold takeSnapshot snapWritten snapStaged copyTaken
  rw [hb]
  dsimp only
  generalize List.foldl (fun s f => writeFrame s (some (leadOf g.members)) f) s _ = z
  cases tblFind z.store.drains (leadOf g.members) with
  | none => rfl
  | some dr => rfl

theorem groupLed_of_groups (h : t.groups = s.groups) (l : Nat) : groupLed t l = groupLed s l := by
  rw [groupLed, groupLed, h]

theorem exec_snapshotDone {lead : Pane16} {g : Group} {d : List Byte} {c : CopyRun} {device : BitVec 16} {p : BitVec 8}
    {ofs len port : Nat} (hg : groupLed s lead.val = some g) (hd : g.plan = some d)
    (hc : g.copies.find? (fun c => !c.taken) = some c) (hb : g.storm.buddy = some (device, p, ofs, len))
    (hr : routePort s device = some port) (hf : pathFailed s device = false) (parts : List Parcel)
    (hparts : parts = (placeFrames device p.toNat ofs len c.buf (copySequence s g d c)).map (framePart lead.val device)) :
    ∃ t, exec (.snapshotDone lead) s = .next t ∧
      (∃ n, (trafOf t port).out = (trafOf s port).out ++ parts.take n ∧
        (rmoOf t lead.val).late = (rmoOf s lead.val).late ++ parts.drop n ∧
        (parcelsOf s lead.val 3 + parts.length ≤ 64 → n = parts.length)) ∧
      ∃ g', groupLed t lead.val = some g' ∧ g'.copies = g.copies.map fun x => if x = c then { c with taken := true } else x := by
  refine ⟨takeSnapshot s g d c, ?_, ?_⟩
  · show execSnapshotDone lead s = _
    unfold execSnapshotDone
    rw [hg]
    dsimp only
    rw [hd, hc]
  · obtain ⟨hsends, hrmo⟩ := snapWritten_spec s lead.val c
      (placeFrames (moduleId s) lead.val (ofs + len) len c.buf (copySequence s g d c))
    rw [takeSnapshot_eq hb (groupLed_lead hg) _ rfl]
    generalize snapWritten s lead.val c _ = z at hsends hrmo ⊢
    obtain ⟨hlinks, hrest⟩ := Prod.ext_iff.mp hsends
    obtain ⟨hpower, hgroups⟩ := Prod.ext_iff.mp hrest
    dsimp only [sendsFrom] at hlinks hpower hgroups
    have hpath : pathFailed (modGroup z lead.val (copyTaken c)) device = pathFailed s device := by
      unfold pathFailed
      rw [routePort_congr (s := s) (t := modGroup z lead.val (copyTaken c)) hlinks hpower]
      simp only [portOf, modGroup_links, hlinks]
    rw [hpath, hf, if_neg (by decide), ← List.foldl_map (f := framePart lead.val device) (g := sendParcel), ← hparts]
    obtain ⟨n, hq⟩ := queued_sendParcels (port := port) lead.isLt parts (device := device) (fun x hx => by
      rw [hparts] at hx
      obtain ⟨f, -, rfl⟩ := List.mem_map.mp hx
      exact ⟨rfl, rfl, rfl⟩) (modGroup z lead.val (copyTaken c)) ((routePort_congr (s := s) hlinks hpower device).trans hr)
    have hout : trafOf (modGroup z lead.val (copyTaken c)) port = trafOf s port := trafOf_eq_of_links hlinks port
    have hpc : parcelsOf (modGroup z lead.val (copyTaken c)) lead.val 3 = parcelsOf s lead.val 3 := parcelsOf_of_links hlinks ..
    have hrm : rmoOf (modGroup z lead.val (copyTaken c)) lead.val = rmoOf s lead.val := hrmo
    refine ⟨⟨n, hout ▸ hq.out, hrm ▸ hq.late, fun h => hq.fits (by rw [hpc]; exact h)⟩, copyTaken c g, ?_, ?_⟩
    · rw [groupLed_of_groups (s := modGroup z lead.val (copyTaken c)) (foldl_groups _ (fun s x => sendParcel_groups s x) parts _)]
      have h := groupLed_modGroup z lead.val lead.val (copyTaken c) fun _ => rfl
      rw [if_pos rfl, groupLed_of_groups hgroups, hg] at h
      exact h
    · simp [copyTaken]

/-! ### Acknowledged and abandoned (R389, R391) -/

theorem groupLed_abandonCopy {lead : Nat} {g : Group} (hg : groupLed s lead = some g) (c : CopyRun) :
    groupLed (abandonCopy s lead c) lead = some { g with
      copies := g.copies.erase c
      status := { g.status with buddyLost := true, abandoned := BitVec.ofNat 16 (satAdd 16 g.status.abandoned.toNat 1) } } := by
  have h1 := groupLed_modGroup s lead lead (fun g =>
    { g with status := { g.status with abandoned := BitVec.ofNat 16 (satAdd 16 g.status.abandoned.toNat 1) } }) fun _ => rfl
  rw [if_pos rfl, hg] at h1
  have h2 := groupLed_modGroup (countAbandoned s lead) lead lead (fun g =>
    { g with status := { g.status with buddyLost := true }, copies := g.copies.erase c }) fun _ => rfl
  rw [if_pos rfl, show groupLed (countAbandoned s lead) lead = _ from h1] at h2
  unfold abandonCopy
  rw [hg]
  dsimp only
  rw [groupLed_of_groups (record_groups ..)]
  exact h2

theorem execStormAckReceived_commits {lead : Pane16} {g : Group} {c : CopyRun} (hg : groupLed s lead.val = some g)
    (hc : g.copies.find? (fun c => c.commitBeat.isSome) = some c) :
    exec (.stormAckReceived lead) s = .next (modGroup s lead.val fun g =>
      { g with copies := g.copies.erase c
               status := { g.status with commitStep := BitVec.ofNat 48 c.step, lastBuf := BitVec.ofNat 2 c.buf } }) := by
  show execStormAckReceived lead s = _
  unfold execStormAckReceived
  rw [hg]
  dsimp only
  rw [hc]

theorem execCopyAbandonTimeout_overdue {lead : Pane16} {g : Group} {c : CopyRun} (hg : groupLed s lead.val = some g)
    (hc : g.copies.find? (copyOverdue s) = some c) :
    exec (.copyAbandonTimeout lead) s = .next (abandonCopy s lead.val c) := by
  show execCopyAbandonTimeout lead s = _
  unfold execCopyAbandonTimeout
  rw [hg]
  dsimp only
  rw [hc]

theorem execCopyAbandonTimeout_early {lead : Pane16} {g : Group} (hg : groupLed s lead.val = some g)
    (hc : g.copies.find? (copyOverdue s) = none) : exec (.copyAbandonTimeout lead) s = .next s := by
  show execCopyAbandonTimeout lead s = _
  unfold execCopyAbandonTimeout
  rw [hg]
  dsimp only
  rw [hc]

/-! ### Frames arrive (R387, R396) -/

theorem sendAck_near (s : State) (device : BitVec 16) (q : Nat) : nearOf (sendAck s device) q = nearOf s q := by
  have hsend : ∀ (z : State) (x : Parcel), nearOf (sendParcel z x) q = nearOf z q := fun z x => by
    unfold sendParcel
    split
    · rw [nearOf, pane_modPane]
      split
      next h => rw [h]; rfl
      next => rfl
    · unfold queueParcel
      split
      · rfl
      · rfl
  exact hsend (tookFree s) _

theorem exec_stormFrameReceived_written {f : List Byte} (h : restoreFor s (frameHdr f) = none) (hok : frameMay s f = true) :
    ∃ t, exec (.stormFrameReceived f) s = .next t ∧
      nearOf t (gaPane (frameDest f)) = nearPut (nearOf s (gaPane (frameDest f))) (gaOfs (frameDest f)) f ∧
      ∀ p, p ≠ gaPane (frameDest f) → nearOf t p = nearOf s p := by
  have hnear : ∀ q, nearOf (receiveFrame s f) q = nearOf (writeFrame s none f) q := fun q => by
    unfold receiveFrame
    dsimp only
    rw [h]
    dsimp only
    rw [if_pos hok]
    split
    · exact sendAck_near ..
    · rfl
  refine ⟨receiveFrame s f, rfl, ?_, fun p hp => ?_⟩
  · rw [hnear, nearOf_writeFrame hok, if_pos rfl]
  · rw [hnear, nearOf_writeFrame hok, if_neg hp]

theorem execStormFrameReceived_refused {f : List Byte} (h : restoreFor s (frameHdr f) = none) (hok : frameMay s f = false) :
    exec (.stormFrameReceived f) s = .next s := by
  show Host.Outcome.next (receiveFrame s f) = _
  unfold receiveFrame
  dsimp only
  rw [h]
  dsimp only
  rw [if_neg (by simp [hok])]

theorem receiveFrame_restore {f : List Byte} {r : Nat} {j : Job} (h : restoreFor s (frameHdr f) = some (r, j)) :
    receiveFrame s f = takeRestoreFrame s r j f := by
  unfold receiveFrame
  dsimp only
  rw [h]

/-- A restore that a frame is for runs in its mailbox. -/
theorem job_of_restoreFor {h : FrameHdr} {r : Nat} {j : Job} (hr : restoreFor s h = some (r, j)) : (mbx s r).job = some j := by
  unfold restoreFor at hr
  have hmem := List.mem_of_find?_eq_some hr
  have hstart : j.start.isSome = true := by
    have hp := List.find?_some hr
    simp only [Bool.and_eq_true] at hp
    exact hp.1.1.1.1.2
  obtain ⟨q, -, hq⟩ := List.mem_filterMap.mp hmem
  obtain ⟨k, hk, hkj⟩ := Option.map_eq_some_iff.mp hq
  obtain ⟨rfl, rfl⟩ := Prod.mk.inj hkj
  cases hks : k.start with
  | none => simp [hks, withLocks] at hstart
  | some b => simpa [hks] using hk

/-- R396, R397: a frame is noted in the command that it is for. -/
theorem job_takeRestoreFrame {f : List Byte} {r : Nat} {j : Job} (hj : (mbx s r).job = some j) (hok : frameOk f = true)
    (ht : t = takeRestoreFrame s r j f) : ∃ k, (mbx t r).job = some k ∧
      k.lastBeat = s.time.beat ∧ k.got = j.got + if (frameHdr f).ftype = ftData then 1 else 0 := by
  unfold takeRestoreFrame at ht
  extract_lets hd s1 got need s2 at ht
  rw [if_neg (by simp [hok])] at ht
  have hs1 : s1.dk = s.dk := by
    dsimp only [s1]
    split
    · split
      · split
        · exact restoreFrame_dk ..
        · rfl
      · rfl
    · rfl
  have hs2 : (mbx s2 r).job = some { j with got := got, need := need, lastBeat := s.time.beat } := by
    refine (congrArg Mailbox.job ((mbx_modMbx s1 r r fun m => { m with job := m.job.map fun j =>
      { j with got := got, need := need, lastBeat := s.time.beat } }).trans (if_pos rfl))).trans ?_
    rw [mbx_of_dk hs1, hj]
    rfl
  clear_value s2 need
  cases need with
  | none => exact ht ▸ ⟨_, hs2, rfl, rfl⟩
  | some n =>
    rcases ite_eq_or_eq (n ≤ got) (decideJob s2 r ansOk) s2 with h | h
    · exact (ht.trans h) ▸ ⟨_, decideJob_job ansOk hs2, rfl, rfl⟩
    · exact (ht.trans h) ▸ ⟨_, hs2, rfl, rfl⟩

/-! ### A staged drain goes on (R393) -/

theorem exec_drainStaged {lead : Pane16} {d : DrainRun} (hd : tblFind s.store.drains lead.val = some d)
    (hst : d.staged = false) (him : d.image ≠ []) (hw : d.wrote = true)
    (hall : (s.far.writes.all fun w => w.sink != .staging lead.val) = true) :
    ∃ t, exec (.drainStaged lead) s = .next t ∧ tblFind t.store.drains lead.val = some { d with staged := true } ∧
      ∃ y ∈ t.store.txns, y.owner = .drain lead.val ∧ y.phase = .opening := by
  have hset : tblFind (modStore s fun t =>
      { t with drains := tblSet t.drains lead.val { d with staged := true } }).store.drains lead.val =
    some { d with staged := true } := tblFind_tblSet_self ..
  have hany : (s.far.writes.any fun w => w.sink == .staging lead.val) = false := by
    simpa [List.any_eq_false, List.all_eq_true] using hall
  refine ⟨startDrain (modStore s fun t => { t with drains := tblSet t.drains lead.val { d with staged := true } }) lead.val,
    ?_, ?_, ?_⟩
  · show execDrainStaged lead s = _
    unfold execDrainStaged
    rw [hd]
    dsimp only
    rw [if_neg (by simp [hst, him]), if_neg (by simp [hw]), if_neg (by simp [hany])]
  · unfold startDrain
    rw [hset]
    exact hset
  · obtain ⟨-, y, hy, ho, hp, -⟩ := startDrain_opens hset
    exact ⟨y, hy, ho, hp⟩

end Sys2Proof.Machine

open Sys2Proof Sys2Proof.Machine

/-- Settles O47: a snapshot by the room in its queue, an arriving frame by what it may write, a drain by its staging. -/
theorem stormCopiesAndDrains : Obligations.StormCopiesAndDrains := by
  unfold Obligations.StormCopiesAndDrains
  intro s lead after
  refine ⟨fun g d c device p ofs len port hg hd hc hb hr hf => exec_snapshotDone hg hd hc hb hr hf _ rfl, fun hg => ?_,
    fun g c hg hc => execStormAckReceived_commits hg hc, fun g c hg hc => ?_, fun g hg hc => ?_,
    fun f hf => ⟨exec_stormFrameReceived_written hf, execStormFrameReceived_refused hf⟩, fun f r j hf hok => ?_,
    fun f r j hf hok => ⟨_, congrArg Host.Outcome.next (receiveFrame_restore hf),
      job_takeRestoreFrame (job_of_restoreFor hf) hok rfl⟩, fun d hd hst him hw hall => exec_drainStaged hd hst him hw hall,
    fun hd => ?_⟩
  · show execSnapshotDone lead s = _
    rw [execSnapshotDone, hg]
  · exact ⟨_, execCopyAbandonTimeout_overdue hg hc, groupLed_abandonCopy hg c⟩
  · exact execCopyAbandonTimeout_early hg (List.find?_eq_none.mpr fun c h => by simp [hc c h])
  · refine congrArg Host.Outcome.next ((receiveFrame_restore hf).trans ?_)
    unfold takeRestoreFrame
    exact if_pos (by simp [hok])
  · show execDrainStaged lead s = _
    rw [execDrainStaged, hd]

end


section
/-! PROOFS. How a doorbell is answered (R358, R359, R364, R367). -/

namespace Sys2Proof.Machine

variable {s t : State} {r op : Nat} {k : Packet}

/-! ### What a look at the packet leaves -/

theorem earlyRefusal_heard (s : State) (r : Nat) (k : Packet) (fm : Bool) (op : Nat) :
    earlyRefusal (heard s r k) r fm op k = earlyRefusal s r fm op k := by
  unfold heard
  split
  · rfl
  · rfl

theorem newJob_heard (s : State) (r : Nat) (k : Packet) (op : Nat) : newJob (heard s r k) r op k = newJob s r op k := by
  unfold heard
  split
  · rfl
  · rfl

theorem replyLost_heard (s : State) (r : Nat) (k : Packet) : replyLost (heard s r k) r = replyLost s r := by
  unfold heard
  split
  · rfl
  · rfl

theorem heard_groups (s : State) (r : Nat) (k : Packet) : (heard s r k).groups = s.groups := by
  unfold heard
  split
  · rfl
  · rfl

theorem heard_panes (s : State) (r : Nat) (k : Packet) : (heard s r k).panes = s.panes := by
  unfold heard
  split
  · rfl
  · rfl

/-! ### The answer of a packet that is done at once -/

theorem exec_doorbell_early {a : Ans} (hr : reachable s r = true) (hj : (mbx s r).job = none)
    (he : earlyRefusal s r (r == 17) op k = some a) : ∃ t, doorbell s r op k = t ∧ (mbx t r).job = none ∧
      t.groups = s.groups ∧ t.panes = s.panes ∧ (replyLost s r = false → (mbx t r).mstate = .done ∧
        ∃ b, (mbx t r).reply = some b ∧ b.status = BitVec.ofNat 16 a.status ∧ b.seq = k.seq) := by
  refine ⟨_, doorbell_early hr hj ((earlyRefusal_heard ..).trans he), finish_job .., (finish_groups ..).trans (heard_groups ..),
    (finish_panes ..).trans (heard_panes ..), fun hl => ?_⟩
  rw [finish_mbx ((replyLost_heard ..).trans hl)]
  refine ⟨rfl, _, rfl, rfl, ?_⟩
  show BitVec.ofNat 32 k.seq.toNat = k.seq
  exact BitVec.ofNat_toNat .. |>.trans (BitVec.setWidth_eq _)

/-! ### A busy mailbox (R359) -/

/-- The mailbox counts the refusal, and tells when its command is expected to end. -/
def refusalNoted (s : State) (r : Nat) (j : Job) : State :=
  chargeRefusal (modMbx s r fun m =>
    { m with refusals := BitVec.ofNat 16 (satAdd 16 m.refusals.toNat 1), atBeat := expectedEnd s r j }) r

theorem mbx_refusalNoted (s : State) (r : Nat) (j : Job) : mbx (refusalNoted s r j) r = { mbx s r with
    refusals := BitVec.ofNat 16 (satAdd 16 (mbx s r).refusals.toNat 1), atBeat := expectedEnd s r j } := by
  have hm := mbx_modMbx s r r fun m =>
    { m with refusals := BitVec.ofNat 16 (satAdd 16 m.refusals.toNat 1), atBeat := expectedEnd s r j }
  exact (mbx_of_dk (chargeRefusal_dk ..) r).trans (hm.trans (if_pos rfl))

theorem refusalNoted_groups (s : State) (r : Nat) (j : Job) : (refusalNoted s r j).groups = s.groups := chargeRefusal_groups ..

theorem refusalNoted_panes (s : State) (r : Nat) (j : Job) : (refusalNoted s r j).panes = s.panes := chargeRefusal_panes ..

theorem doorbell_refuses {j : Job} (h : reachable s r = true) (hj : (mbx s r).job = some j) :
    doorbell s r op k = refusalNoted s r j ∨
      ∃ xid d, doorbell s r op k = fmReplyTo (refusalNoted s r j) none xid d := by
  unfold doorbell fmPacket
  rw [if_neg (by simp [h])]
  by_cases hr : r = 17
  · subst hr
    rw [if_pos rfl, hj]
    exact .inr ⟨_, _, rfl⟩
  · rw [if_neg hr, hj]
    exact .inl rfl

theorem exec_doorbell_busy {j : Job} (h : reachable s r = true) (hj : (mbx s r).job = some j) :
    ∃ t, doorbell s r op k = t ∧ (mbx t r).job = some j ∧ (mbx t r).refusals.toNat = satAdd 16 (mbx s r).refusals.toNat 1 ∧
      (mbx t r).atBeat = expectedEnd s r j ∧ t.groups = s.groups ∧ t.panes = s.panes := by
  refine ⟨_, rfl, ?_⟩
  have hspec : mbx (doorbell s r op k) r = mbx (refusalNoted s r j) r ∧ (doorbell s r op k).groups = s.groups ∧
      (doorbell s r op k).panes = s.panes := by
    rcases doorbell_refuses (op := op) (k := k) h hj with hd | ⟨xid, d, hd⟩
    · rw [hd]
      exact ⟨rfl, refusalNoted_groups .., refusalNoted_panes ..⟩
    · rw [hd]
      exact ⟨mbx_of_dk (fmReplyTo_dk ..) r, (fmReplyTo_groups ..).trans (refusalNoted_groups ..),
        (fmReplyTo_panes ..).trans (refusalNoted_panes ..)⟩
  obtain ⟨hm, hg, hp⟩ := hspec
  rw [hm, mbx_refusalNoted]
  refine ⟨hj, ?_, rfl, hg, hp⟩
  show (BitVec.ofNat 16 (satAdd 16 (mbx s r).refusals.toNat 1)).toNat = _
  rw [BitVec.toNat_ofNat]
  exact Nat.mod_eq_of_lt (by unfold satAdd; omega)

/-! ### A packet that waits, or is refused at its start (R366, R367) -/

theorem doorbell_accepted (h : reachable s r = true) (hj : (mbx s r).job = none)
    (he : earlyRefusal s r (r == 17) op k = none) : doorbell s r op k =
      if canStart (rung s r op k) r (newJob s r op k) then startJob (rung s r op k) r else rung s r op k := by
  rw [doorbell_heard h hj, ← newJob_heard]
  unfold acceptPacket
  rw [earlyRefusal_heard, he]
  rfl

/-- A command that is refused at its start is decided at once. -/
theorem startJob_refused {j : Job} {a : Ans} (hj : (mbx s r).job = some j)
    (ha : startRefused s r j.opcode.toNat j.packet = some a) : Decides (startJob s r) r a.status ∧
      (mbx (startJob s r) r).mstate = (if (mbx s r).mstate = .idle then .idle else .running) ∧
      (startJob s r).groups = s.groups ∧ (startJob s r).panes = s.panes := by
  unfold startJob
  rw [hj]
  dsimp only
  rw [ha]
  dsimp only
  have hm := mbx_modMbx s r r fun m => { setMState s (if m.mstate = .idle then .idle else .running) m with
    job := some { withLocks s r j with
      start := some s.time.beat, bound := boundOf s j.opcode.toNat j.packet, lastBeat := s.time.beat } }
  rw [if_pos rfl] at hm
  generalize hz : modMbx s r _ = z at hm ⊢
  have hg : z.groups = s.groups := hz ▸ rfl
  have hp : z.panes = s.panes := hz ▸ rfl
  have hjob : (mbx z r).job = some { withLocks s r j with
      start := some s.time.beat, bound := boundOf s j.opcode.toNat j.packet, lastBeat := s.time.beat } := by rw [hm]
  have hstate : (mbx z r).mstate = if (mbx s r).mstate = .idle then .idle else .running := by
    rw [hm]
    rfl
  refine ⟨decides_decideJob a hjob rfl, ?_, hg, hp⟩
  unfold decideJob
  rw [mbx_modMbx, if_pos rfl]
  exact hstate

theorem rung_beside (s : State) (r op : Nat) (k : Packet) : (rung s r op k).groups = s.groups ∧ (rung s r op k).panes = s.panes :=
  ⟨heard_groups .., heard_panes ..⟩

theorem exec_doorbell_refused (ho : op < 65536) {a : Ans} (h : reachable s r = true) (hj : (mbx s r).job = none)
    (he : earlyRefusal s r (r == 17) op k = none) (hc : canStart (rung s r op k) r (newJob s r op k) = true)
    (ha : startRefused (rung s r op k) r op k = some a) :
    ∃ t, doorbell s r op k = t ∧ Decides t r a.status ∧ t.groups = s.groups ∧ t.panes = s.panes := by
  refine ⟨_, (doorbell_accepted h hj he).trans (if_pos hc), ?_⟩
  have hjob : (mbx (rung s r op k) r).job = some (newJob (heard s r k) r op k) := by rw [rung_job]
  have hop : (newJob (heard s r k) r op k).opcode.toNat = op := by
    show (BitVec.ofNat 16 op).toNat = op
    rw [BitVec.toNat_ofNat]
    exact Nat.mod_eq_of_lt ho
  have ha' : startRefused (rung s r op k) r (newJob (heard s r k) r op k).opcode.toNat k = some a := by rw [hop, ha]
  obtain ⟨hd, -, hg, hp⟩ := startJob_refused hjob ha'
  obtain ⟨hg', hp'⟩ := rung_beside s r op k
  exact ⟨hd, hg.trans hg', hp.trans hp'⟩

end Sys2Proof.Machine

open Sys2Proof Sys2Proof.Machine

/-- Settles O48: every row rings a doorbell, and each doorbell is answered by the mailbox, the checks and the locks. -/
theorem doorbellsAreAnswered : Obligations.DoorbellsAreAnswered := by
  unfold Obligations.DoorbellsAreAnswered
  intro s r k q rings
  have answered : ∀ (op : Nat) (i : Instr), op < 65536 → exec i s = .next (doorbell s q op k) → rings op i := by
    intro op i ho hi
    refine ⟨fun hr => ?_, fun j hr hj => ?_, fun a hr hj he => ?_, fun hr hj he => ⟨fun hc => ?_, fun hc a ha => ?_⟩,
      fun hst => ⟨fun a ha => ?_, fun ha => ?_⟩⟩
    · rw [hi, doorbell_unreachable hr]
    · obtain ⟨t, ht, h⟩ := exec_doorbell_busy (op := op) (k := k) hr hj
      exact ⟨t, by rw [hi, ht], h⟩
    · obtain ⟨t, ht, h⟩ := exec_doorbell_early hr hj he
      exact ⟨t, by rw [hi, ht], h⟩
    · rw [hi, doorbell_accepted hr hj he, if_neg (by simp [hc])]
    · obtain ⟨t, ht, h⟩ := exec_doorbell_refused ho hr hj he hc ha
      exact ⟨t, by rw [hi, ht], h⟩
    · rw [hi, doorbell_starts hst ho, ha]
    · rw [hi, doorbell_starts hst ho, ha]
  refine ⟨fun e he => ?_, fun e he => ?_, ?_⟩
  · have hrow : e.1 < 65536 ∧ exec e.2 s = .next (doorbell s q e.1 k) := by
      fin_cases he <;> exact ⟨by norm_num, rfl⟩
    exact answered _ _ hrow.1 hrow.2
  · have hrow : exec e.2 s = .next (modeBell s q e.1 k) := by
      fin_cases he <;> rfl
    split
    next h => exact answered _ _ (by decide) (hrow.trans (congrArg Host.Outcome.next (if_pos h)))
    next h => exact hrow.trans (congrArg Host.Outcome.next (if_neg h))
  · split
    next h => exact answered _ _ (by decide) (congrArg Host.Outcome.next (if_pos (by simpa using h)))
    next h => exact congrArg Host.Outcome.next (if_neg (by simpa using h))

end


section
/-! PROOFS. The rest of a command's life (R358, R363, R367, R374, R378, R379) and the escape (R376, R377). -/

namespace Sys2Proof.Machine

variable {s t : State} {r : Req} {j : Job}

/-! ### A waiting command starts -/

theorem execCommandStart_starts (hj : (mbx s r.val).job = some j) (hs : j.start = none)
    (hc : canStart s r.val (withLocks s r.val j) = true) : exec (.commandStart r) s = .next (startJob s r.val) := by
  show execCommandStart r s = _
  unfold execCommandStart
  rw [hj]
  exact if_pos (by simp [hs, hc])

theorem execCommandStart_waits (hj : (mbx s r.val).job = some j)
    (h : j.start ≠ none ∨ canStart s r.val (withLocks s r.val j) = false) : exec (.commandStart r) s = .next s := by
  show execCommandStart r s = _
  unfold execCommandStart
  rw [hj]
  refine if_neg ?_
  rcases h with h | h
  · simp [h]
  · simp [h]

/-- A mailbox whose command starts to run. -/
def startedMbx (s : State) (r : Nat) (j : Job) : State :=
  modMbx s r fun m => { setMState s (if m.mstate = .idle then .idle else .running) m with
    job := some { withLocks s r j with
      start := some s.time.beat, bound := boundOf s j.opcode.toNat j.packet, lastBeat := s.time.beat } }

theorem noteAts_beside (s : State) (r op : Nat) (k : Packet) : (noteAts s r op k).dk = s.dk ∧ (noteAts s r op k).island = s.island := by
  unfold noteAts
  split
  · exact ⟨rfl, rfl⟩
  · exact ⟨rfl, rfl⟩

theorem meterIdent_congr (h : t.island = s.island) : meterIdent t = meterIdent s := by
  unfold meterIdent islandMs
  rw [h]

theorem startJob_meterIdent (hj : (mbx s r.val).job = some j) (ho : j.opcode = 0x0091)
    (hn : startRefused s r.val 0x0091 j.packet = none) :
    Decides (startJob s r.val) r.val stOk ∧ Returns (startJob s r.val) r.val (meterIdent s) := by
  obtain ⟨hdk, hisl⟩ := noteAts_beside (startedMbx s r.val j) r.val 0x0091 j.packet
  have hm : mbx (startedMbx s r.val j) r.val = _ := (mbx_modMbx ..).trans (if_pos rfl)
  have hjob : (mbx (noteAts (startedMbx s r.val j) r.val 0x0091 j.packet) r.val).job = some { withLocks s r.val j with
      start := some s.time.beat, bound := boundOf s j.opcode.toNat j.packet, lastBeat := s.time.beat } := by
    rw [mbx_of_dk hdk, hm]
  have hid : meterIdent (noteAts (startedMbx s r.val j) r.val 0x0091 j.packet) = meterIdent s := meterIdent_congr hisl
  have hstart : startJob s r.val = decideJob (noteAts (startedMbx s r.val j) r.val 0x0091 j.packet) r.val
      { status := stOk, result := meterIdent (noteAts (startedMbx s r.val j) r.val 0x0091 j.packet) } := by
    have hop : j.opcode.toNat = 0x0091 := by rw [ho]; rfl
    unfold startJob startedMbx
    rw [hj]
    dsimp only
    rw [hop, hn]
    rfl
  rw [hstart]
  exact ⟨decides_decideJob _ hjob rfl, _, _, decideJob_job _ hjob, rfl, hid⟩

/-! ### A command replies -/

theorem execCommandReply_decided {a : Reply} (hj : (mbx s r.val).job = some j) (ha : j.outcome = some a) :
    exec (.commandReply r) s = .next (finish s r.val (stampReply s a)) := by
  show execCommandReply r s = _
  unfold execCommandReply
  rw [hj]
  dsimp only
  rw [ha]

/-- What a delivery leaves is in place with its reply. -/
theorem execCommandReply_delivers {a : Ans} {u : State} (hj : (mbx s r.val).job = some j) (hn : j.outcome = none)
    (hs : j.start ≠ none) (he : replyEffect j.opcode.toNat s r.val j.packet = (u, some a)) :
    exec (.commandReply r) s = .next (finish u r.val (mkReply u j.opcode.toNat j.packet.seq.toNat a)) := by
  show execCommandReply r s = _
  unfold execCommandReply
  rw [hj]
  dsimp only
  rw [hn]
  dsimp only
  rw [if_neg (by simpa using hs), he]

theorem badPane_lt {p : Nat} (h : p < 16) : badPane p = false := by simp [badPane, h]

theorem doJobMapLoad_loads {k : Packet} {g : Group} {b : List Byte} (hp : prm k 0 1 < 16)
    (hg : groupLed s (prm k 0 1) = some g) (hb : bulkData k = some b) (hs : hasStart g = false)
    (hl : b.length = 32 + 2 * leAt b 24 4) (hm : mapRefusal s (parseMap b) = none) (q : Nat) :
    doJobMapLoad s q k = done (modGroup s (prm k 0 1) fun g => { g with jobMap := some (parseMap b) }) := by
  unfold doJobMapLoad
  dsimp only
  rw [if_neg (by simp [badPane_lt hp]), hg, hb]
  dsimp only
  rw [if_neg (by simp [hs]), if_neg (by simp [hl]), hm]

theorem onIdleGroup_idle {lead : Nat} {g : Group} (hp : lead < 16) (hg : groupLed s lead = some g)
    (hs : hasStart g = false) (f : Group → Effect) : onIdleGroup s lead f = f g := by
  unfold onIdleGroup
  rw [if_neg (by simp [badPane_lt hp]), hg]
  exact if_neg (by simp [hs])

theorem doPlanLoad_loads {k : Packet} {g : Group} {d : List Byte} (hp : prm k 0 1 < 16)
    (hg : groupLed s (prm k 0 1) = some g) (hb : bulkData k = some d) (hs : hasStart g = false)
    (hsh : groupShort s g = false) (hc : loadCheck s g d k.bulkLen.toNat = none) (q : Nat) :
    doPlanLoad s q k = done (installPlan s g d) := by
  unfold doPlanLoad
  dsimp only
  rw [onIdleGroup_idle hp hg hs, hb]
  dsimp only
  rw [if_neg (by simp [hsh]), hc]

theorem groupLed_installPlan {lead : Nat} {g : Group} (hg : groupLed s lead = some g) (d : List Byte) :
    groupLed (installPlan s g d) lead = some { g with
      plan := some d, ended := none, lengths := [], abortDue := none, misplaced := 0 } := by
  have h1 : ((planLatches d).foldl (loadLatch g) ((maskPanes g.members).foldl (loadPane d g) s)).groups = s.groups :=
    (foldl_groups _ (fun _ _ => loadLatch_groups ..) _ _).trans (foldl_groups _ (fun _ _ => loadPane_groups ..) _ _)
  unfold installPlan
  dsimp only
  generalize List.foldl (loadLatch g) _ (planLatches d) = u at h1 ⊢
  rw [groupLed_lead hg]
  have h := groupLed_modGroup u lead lead (fun g =>
    { g with plan := some d, ended := none, lengths := [], abortDue := none, misplaced := 0 }) fun _ => rfl
  rw [if_pos rfl, groupLed_of_groups h1, hg] at h
  exact h

theorem doWindowGrant_grants {k : Packet} {i : Nat} (hp : prm k 0 1 < 16) (ho : (pane s (prm k 0 1)).state = .opened)
    (hg : grantRefusal s (prm k 0 1) k = none) (hc : closedEntry s (prm k 0 1) = some i) (q : Nat) :
    doWindowGrant s q k = (modRmo s (prm k 0 1) fun u => { u with windows := tblSet u.windows i (grantEntry k) },
      some { status := stOk, result := natLe 1 i }) := by
  unfold doWindowGrant
  dsimp only
  rw [if_neg (by simp [badPane_lt hp]), if_neg (by simp [ho]), hg, hc]

theorem exec_commandReply_map {g : Group} {b : List Byte} (hj : (mbx s r.val).job = some j) (hn : j.outcome = none)
    (hs : j.start ≠ none) (ho : j.opcode = 0x0024) (hp : prm j.packet 0 1 < 16)
    (hg : groupLed s (prm j.packet 0 1) = some g) (hb : bulkData j.packet = some b) (hst : hasStart g = false)
    (hl : b.length = 32 + 2 * leAt b 24 4) (hm : mapRefusal s (parseMap b) = none) :
    ∃ t, exec (.commandReply r) s = .next t ∧
      groupLed t (prm j.packet 0 1) = some { g with jobMap := some (parseMap b) } ∧ (mbx t r.val).job = none := by
  have he : replyEffect j.opcode.toNat s r.val j.packet = doJobMapLoad s r.val j.packet := by rw [ho]; rfl
  rw [doJobMapLoad_loads hp hg hb hst hl hm] at he
  refine ⟨_, execCommandReply_delivers hj hn hs he, ?_, finish_job ..⟩
  rw [groupLed_of_groups (finish_groups ..)]
  have h := groupLed_modGroup s (prm j.packet 0 1) (prm j.packet 0 1) (fun g => { g with jobMap := some (parseMap b) })
    fun _ => rfl
  rw [if_pos rfl, hg] at h
  exact h

theorem exec_commandReply_plan {g : Group} {d : List Byte} (hj : (mbx s r.val).job = some j) (hn : j.outcome = none)
    (hs : j.start ≠ none) (ho : j.opcode = 0x0030) (hp : prm j.packet 0 1 < 16)
    (hg : groupLed s (prm j.packet 0 1) = some g) (hb : bulkData j.packet = some d) (hst : hasStart g = false)
    (hsh : groupShort s g = false) (hc : loadCheck s g d j.packet.bulkLen.toNat = none) :
    ∃ t, exec (.commandReply r) s = .next t ∧ groupLed t (prm j.packet 0 1) = some { g with
      plan := some d, ended := none, lengths := [], abortDue := none, misplaced := 0 } ∧ (mbx t r.val).job = none := by
  have he : replyEffect j.opcode.toNat s r.val j.packet = doPlanLoad s r.val j.packet := by rw [ho]; rfl
  rw [doPlanLoad_loads hp hg hb hst hsh hc] at he
  refine ⟨_, execCommandReply_delivers hj hn hs he, ?_, finish_job ..⟩
  rw [groupLed_of_groups (finish_groups ..)]
  exact groupLed_installPlan hg d

theorem exec_commandReply_grant {i : Nat} (hj : (mbx s r.val).job = some j) (hn : j.outcome = none)
    (hs : j.start ≠ none) (ho : j.opcode = 0x0040) (hp : prm j.packet 0 1 < 16)
    (hop : (pane s (prm j.packet 0 1)).state = .opened) (hg : grantRefusal s (prm j.packet 0 1) j.packet = none)
    (hc : closedEntry s (prm j.packet 0 1) = some i) : ∃ t, exec (.commandReply r) s = .next t ∧
      tblGet windowZero (rmoOf t (prm j.packet 0 1)).windows i = grantEntry j.packet ∧
      (∀ n, n ≠ i → tblGet windowZero (rmoOf t (prm j.packet 0 1)).windows n =
        tblGet windowZero (rmoOf s (prm j.packet 0 1)).windows n) ∧ (mbx t r.val).job = none := by
  have he : replyEffect j.opcode.toNat s r.val j.packet = doWindowGrant s r.val j.packet := by rw [ho]; rfl
  rw [doWindowGrant_grants hp hop hg hc] at he
  refine ⟨_, execCommandReply_delivers hj hn hs he, ?_⟩
  have hw : (rmoOf (modRmo s (prm j.packet 0 1) fun u =>
      { u with windows := tblSet u.windows i (grantEntry j.packet) }) (prm j.packet 0 1)).windows =
      tblSet (rmoOf s (prm j.packet 0 1)).windows i (grantEntry j.packet) :=
    congrArg (fun x : Pane => x.rmo.windows) (pane_modPane_self ..)
  rw [rmoOf_of_panes (finish_panes ..), hw]
  refine ⟨tblGet_tblSet_self .., fun n hne => ?_, finish_job ..⟩
  rw [tblGet_tblSet, if_neg hne]

/-! ### A command overruns its bound (R379) -/

/-- The command's bound has run out by 1,024 beats. -/
def Late (s : State) (j : Job) : Prop := j.outcome = none ∧ ∃ b, boundFrom s j = some b ∧ b + j.bound + 1024 ≤ s.time.beat

theorem outlived_iff : outlived s j = true ↔ Late s j := by
  unfold outlived Late
  cases boundFrom s j with
  | none => simp
  | some b => simp

theorem filter_outlived_none {o : Option Job} (h : ∀ j, o = some j → ¬Late s j) : o.filter (outlived s) = none := by
  cases o with
  | none => rfl
  | some j => simp [outlived_iff, h j rfl]

theorem filter_outlived_some {o : Option Job} (h : o = some j) (hl : Late s j) : o.filter (outlived s) = some j := by
  simp [h, outlived_iff, hl]

theorem exec_commandOverrun_tells {j : Job} (hj : (mbx s r.val).job = some j) (hl : outlived s j = true) :
    exec (.commandOverrun r) s = .next (endNow (tellOverrun s r.val j) r.val { status := stInternal }) := by
  show execCommandOverrun r s = _
  unfold execCommandOverrun
  dsimp only
  rw [filter_outlived_some hj ((outlived_iff ..).mp hl)]

theorem exec_commandOverrun_late (hj : (mbx s r.val).job = some j) (hl : Late s j) :
    ∃ t, exec (.commandOverrun r) s = .next t ∧ (mbx t r.val).job = none ∧
      (replyLost s r.val = false → ∃ a, (mbx t r.val).reply = some a ∧ a.status = 0x0404) := by
  refine ⟨_, exec_commandOverrun_tells hj ((outlived_iff ..).mpr hl), ?_⟩
  have hlost : replyLost (tellOverrun s r.val j) r.val = replyLost s r.val :=
    replyLost_congr (record_dk ..) (record_host ..) r.val
  have hj' : (mbx (tellOverrun s r.val j) r.val).job = some j :=
    (congrArg Mailbox.job (mbx_of_dk (record_dk ..) r.val)).trans hj
  rw [← hlost]
  exact endNow_mbx { status := stInternal } hj'

theorem escapeReply_esc (s : State) (op : Nat) (k : Packet) (a : Ans) : (escapeReply s op k a).dk.esc = { s.dk.esc with
    estate := .done, job := none, reply := some (mkReply s op k.seq.toNat a) } := by
  unfold escapeReply
  dsimp only
  split
  · rw [msix_dk]
  · rfl

theorem escapeReply_beside (s : State) (op : Nat) (k : Packet) (a : Ans) :
    (escapeReply s op k a).panes = s.panes ∧ (escapeReply s op k a).groups = s.groups := by
  unfold escapeReply
  dsimp only
  split
  · exact ⟨msix_panes .., msix_groups ..⟩
  · exact ⟨rfl, rfl⟩

theorem exec_commandOverrun_escape {e : Job} (hn : ∀ j, (mbx s r.val).job = some j → ¬Late s j) (hr : r.val = 0)
    (he : s.dk.esc.job = some e) (hl : Late s e) : ∃ t, exec (.commandOverrun r) s = .next t ∧ t.dk.esc.job = none ∧
      ∃ a, t.dk.esc.reply = some a ∧ a.status = 0x0404 := by
  refine ⟨escapeReply (tellOverrun s r.val e) e.opcode.toNat e.packet { status := stInternal }, ?_, ?_⟩
  · show execCommandOverrun r s = _
    unfold execCommandOverrun
    dsimp only
    rw [filter_outlived_none hn, if_pos hr, filter_outlived_some he hl]
  · rw [escapeReply_esc]
    exact ⟨rfl, _, rfl, rfl⟩

theorem execCommandOverrun_none (hn : ∀ j, (mbx s r.val).job = some j → ¬Late s j)
    (he : ∀ e, r.val = 0 → s.dk.esc.job = some e → ¬Late s e) : exec (.commandOverrun r) s = .next s := by
  have hesc : (if r.val = 0 then s.dk.esc.job else none).filter (outlived s) = none := by
    refine filter_outlived_none fun j hj => ?_
    split at hj
    next hr => exact he j hr hj
    next => simp at hj
  show execCommandOverrun r s = _
  unfold execCommandOverrun
  dsimp only
  rw [filter_outlived_none hn, hesc]

/-! ### The escape (R376, R377) -/

variable {op : BitVec 16} {k : Packet}

theorem execEscape_deaf (h : hubAnswers s = false) : exec (.escape op k) s = .next s :=
  congrArg Host.Outcome.next (if_pos (by simp [h]))

theorem escapeBell_busy {e : Job} (h : hubAnswers s = true) (he : s.dk.esc.job = some e) :
    escapeBell s op.toNat k = escapeBusy s op.toNat k e := by
  unfold escapeBell
  rw [if_neg (by simp [h]), he]

theorem escapeBell_refused (h : hubAnswers s = true) (he : s.dk.esc.job = none)
    (hearly : earlyRefusal s 0 false op.toNat k = none) (ho : escapeOp op.toNat = false) :
    escapeBell s op.toNat k = escapeReply s op.toNat k { status := stNoRights } := by
  unfold escapeBell
  rw [if_neg (by simp [h]), he]
  dsimp only
  rw [hearly]
  exact if_neg (by simp [ho])

theorem escapeBell_runs (h : hubAnswers s = true) (he : s.dk.esc.job = none)
    (hearly : earlyRefusal s 0 false op.toNat k = none) (ho : escapeOp op.toNat = true) :
    escapeBell s op.toNat k = runEscape s op.toNat k := by
  unfold escapeBell
  rw [if_neg (by simp [h]), he]
  dsimp only
  rw [hearly]
  exact if_pos ho

theorem escapeBusy_spec (e : Job) (he : s.dk.esc.job = some e) (op : Nat) (k : Packet) :
    (escapeBusy s op k e).dk.esc.job = some e ∧
      (∃ a, (escapeBusy s op k e).dk.esc.reply = some a ∧ a.status = 0x0101) ∧
      (escapeBusy s op k e).panes = s.panes ∧ (escapeBusy s op k e).groups = s.groups := by
  have hdk : (refusalNoted s 0 e).dk.esc = s.dk.esc := by
    unfold refusalNoted
    rw [chargeRefusal_dk]
    rfl
  have hp := refusalNoted_panes s 0 e
  have hg := refusalNoted_groups s 0 e
  show (State.dk { refusalNoted s 0 e with dk := _ }).esc.job = _ ∧ _
  refine ⟨(congrArg Escape.job hdk).trans he, ⟨_, rfl, rfl⟩, hp, hg⟩

theorem escapeTesting_moduleReset (s : State) (k : Packet) : escapeTesting s 0x0016 k = none := by
  have hnone : maskPanes (namedPanes s 0 0x0016 k) = [] := by
    show maskPanes 0 = []
    decide
  unfold escapeTesting
  rw [if_neg (by decide), hnone]
  rfl

/-- R376: the escape of a module reset resets the module. -/
theorem runEscape_moduleReset (s : State) (k : Packet) : ∃ z, runEscape s 0x0016 k = watchReset (moduleReset z 1) := by
  unfold runEscape
  dsimp only
  rw [escapeTesting_moduleReset]
  exact ⟨_, rfl⟩

theorem watchReset_moduleReset_clears (s : State) : (watchReset (moduleReset s 1)).faults.lastReset = 1 ∧
    (watchReset (moduleReset s 1)).groups = [] ∧ (watchReset (moduleReset s 1)).latches = [] ∧
    (watchReset (moduleReset s 1)).dk.ready = false ∧ (watchReset (moduleReset s 1)).dk.mbx = [] := by
  obtain ⟨z, tu, ns, n, l, hc, hv⟩ := moduleReset_hubv s 1
  generalize moduleReset s 1 = t at hv ⊢
  exact ⟨(congrArg (fun x : State => x.faults.lastReset) hv).trans rfl,
    ((congrArg State.groups hv).trans rfl).trans hc.groups, ((congrArg State.latches hv).trans rfl).trans hc.latches,
    ((congrArg (fun x : State => x.dk.ready) hv).trans rfl).trans hc.ready,
    ((congrArg (fun x : State => x.dk.mbx) hv).trans rfl).trans hc.mailboxes⟩

end Sys2Proof.Machine

open Sys2Proof Sys2Proof.Machine

/-- Settles O49: a command's start, reply and overrun by its mailbox, an escape by the one that runs and its opcode. -/
theorem commandsEndWithTheirReply : Obligations.CommandsEndWithTheirReply := by
  unfold Obligations.CommandsEndWithTheirReply
  intro s r q after
  refine ⟨fun j hj hs hc hm a ha => ?_, fun j hj hs hc hm ho hn => ?_, fun j hj h => execCommandStart_waits hj h,
    fun hn i hi => ?_, fun j a hj ha => ?_, fun j g b hj hn hs ho hp hg hb hst hl hm =>
      exec_commandReply_map hj hn hs ho hp hg hb hst hl hm,
    fun j g d hj hn hs ho hp hg hb hst hsh hc => exec_commandReply_plan hj hn hs ho hp hg hb hst hsh hc,
    fun j i hj hn hs ho hp hop hg hc => exec_commandReply_grant hj hn hs ho hp hop hg hc, ?_,
    fun op k => ⟨execEscape_deaf, fun h => ⟨fun e he => ?_, fun he hearly ho => ?_, fun he hearly ho => ?_⟩⟩⟩
  · obtain ⟨hd, hst, hg, hp⟩ := startJob_refused hj ha
    refine ⟨_, execCommandStart_starts hj hs hc, hd, hst.trans ?_, hg, hp⟩
    rw [hm]
    rfl
  · exact ⟨_, execCommandStart_starts hj hs hc, startJob_meterIdent hj ho hn⟩
  · simp only [List.mem_cons, List.not_mem_nil, or_false] at hi
    rcases hi with rfl | rfl
    · show execCommandStart r s = _
      rw [execCommandStart, hn]
    · show execCommandReply r s = _
      rw [execCommandReply, hn]
  · refine ⟨_, execCommandReply_decided hj ha, finish_job .., finish_groups .., finish_panes .., fun hl => ?_⟩
    rw [finish_mbx hl]
    exact ⟨rfl, rfl⟩
  · intro late
    exact ⟨fun j hj hl => exec_commandOverrun_late hj hl, fun e hn hr he hl => exec_commandOverrun_escape hn hr he hl,
      fun hn he => execCommandOverrun_none hn he⟩
  · exact ⟨_, congrArg Host.Outcome.next (escapeBell_busy h he), escapeBusy_spec e he op.toNat k⟩
  · refine ⟨_, congrArg Host.Outcome.next (escapeBell_refused h he hearly ho), ?_⟩
    obtain ⟨hp, hg⟩ := escapeReply_beside s op.toNat k { status := stNoRights }
    rw [escapeReply_esc]
    exact ⟨rfl, ⟨_, rfl, rfl⟩, hp, hg⟩
  · subst ho
    obtain ⟨z, hz⟩ := runEscape_moduleReset s k
    refine ⟨_, congrArg Host.Outcome.next ((escapeBell_runs h he hearly rfl).trans hz), watchReset_moduleReset_clears z⟩

end


section
/-! PROOFS. A command that starts at once (R358, R366, R367): the state in which it has its effect, and what its effect
leaves of its mailbox. -/

namespace Sys2Proof.Machine

variable {s z u : State} {q op : Nat} {k : Packet}

/-- The state `z` in which the command of requester `q` has its effect: the module of `s`, with the command running. -/
structure Handed (s z : State) (q : Nat) : Prop where
  same : ∃ fm dk host, z = { s with fm := fm, dk := dk, host := host }
  running : RunsOn z q
  hello : (mbx z q).hello = (mbx s q).hello

/-- What does not look at the mailboxes, the host's side or the sideband is as it was. -/
theorem Handed.keeps {α : Type} (h : Handed s z q) (F : State → α)
    (hF : ∀ fm dk host, F { s with fm := fm, dk := dk, host := host } = F s) : F z = F s := by
  obtain ⟨fm, dk, host, hz⟩ := h.same
  rw [hz]
  exact hF fm dk host

theorem Handed.panes (h : Handed s z q) : z.panes = s.panes := h.keeps State.panes fun _ _ _ => rfl

theorem Handed.pane (h : Handed s z q) (p : Nat) : pane z p = pane s p := h.keeps (fun x => Machine.pane x p) fun _ _ _ => rfl

theorem Handed.groups (h : Handed s z q) : z.groups = s.groups := h.keeps State.groups fun _ _ _ => rfl

theorem Handed.time (h : Handed s z q) : z.time = s.time := h.keeps State.time fun _ _ _ => rfl

/-- What an effect leaves: an answer decides its command. -/
def effectLeft (q : Nat) : Effect → State
  | (t, some a) => decideJob t q a
  | (t, none) => t

theorem heard_same (s : State) (r : Nat) (k : Packet) : ∃ fm, heard s r k = { s with fm := fm } := by
  unfold heard
  split
  · exact ⟨_, rfl⟩
  · exact ⟨s.fm, rfl⟩

theorem noteAts_same (s : State) (r op : Nat) (k : Packet) : ∃ host, noteAts s r op k = { s with host := host } := by
  unfold noteAts
  split
  · exact ⟨_, rfl⟩
  · exact ⟨s.host, rfl⟩

/-- The mailbox of a command that starts, in the state that its doorbell has left. -/
def runningMbx (s1 : State) (r op : Nat) (k : Packet) (j : Job) (m : Mailbox) : Mailbox :=
  { setMState s1 .running m with
    job := some { withLocks s1 r j with start := some s1.time.beat, bound := boundOf s1 op k, lastBeat := s1.time.beat } }

theorem mbx_begun (s : State) (r op : Nat) (k : Packet) : mbx (begun s r op k) r =
    runningMbx (rung s r op k) r op k (newJob (heard s r k) r op k) (mbx (rung s r op k) r) := by
  have hb : begun s r op k =
      noteAts (modMbx (rung s r op k) r (runningMbx (rung s r op k) r op k (newJob (heard s r k) r op k))) r op k := rfl
  obtain ⟨host, h⟩ := noteAts_same
    (modMbx (rung s r op k) r (runningMbx (rung s r op k) r op k (newJob (heard s r k) r op k))) r op k
  rw [hb, h]
  have hm := mbx_modMbx (rung s r op k) r r (runningMbx (rung s r op k) r op k (newJob (heard s r k) r op k))
  rw [if_pos rfl] at hm
  exact hm

theorem handed_begun (s : State) (r op : Nat) (k : Packet) : Handed s (begun s r op k) r where
  same := by
    obtain ⟨fm, hfm⟩ := heard_same s r k
    unfold begun rung
    dsimp only
    rw [hfm]
    exact ⟨_, _, _, (noteAts_same ..).choose_spec⟩
  running := ⟨_, congrArg Mailbox.job (mbx_begun ..), rfl, rfl⟩
  hello := by
    rw [mbx_begun, rung_job]
    rfl

/-- A command that starts at once leaves what its effect gives. -/
theorem starts_effectLeft {i : Instr} (hs : StartsAtOnce s q op k) (hi : exec i s = .next (doorbell s q op k))
    (ho : op < 65536) : ∃ z, Handed s z q ∧ exec i s = .next (effectLeft q (startEffect op z q k)) := by
  refine ⟨begun s q op k, handed_begun .., hi.trans (congrArg Host.Outcome.next ?_)⟩
  rw [doorbell_starts hs ho]
  rcases startEffect op (begun s q op k) q k with ⟨t, _ | a⟩
  · rfl
  · rfl

/-! ### The effect leaves the command in its mailbox -/

theorem Handed.runsOn (h : Handed s z q) (hd : u.dk = z.dk) : RunsOn u q := by
  obtain ⟨j, hj, hs, ho⟩ := h.running
  exact ⟨j, (congrArg Mailbox.job (mbx_of_dk hd q)).trans hj, hs, ho⟩

theorem Handed.decides (h : Handed s z q) (hd : u.dk = z.dk) (a : Ans) : Decides (decideJob u q a) q a.status := by
  obtain ⟨j, hj, hs, -⟩ := h.running
  exact decides_decideJob a ((congrArg Mailbox.job (mbx_of_dk hd q)).trans hj) hs

theorem Handed.returns (h : Handed s z q) (hd : u.dk = z.dk) (a : Ans) : Returns (decideJob u q a) q a.result := by
  obtain ⟨j, hj, hs, -⟩ := h.running
  exact ⟨_, _, decideJob_job a ((congrArg Mailbox.job (mbx_of_dk hd q)).trans hj), rfl, rfl⟩

/-- A command that answers, and leaves the module as it was. -/
theorem Handed.answers (h : Handed s z q) (a : Ans) : Decides (effectLeft q (answer z a)) q a.status := h.decides rfl a

theorem mbx_decideJob_hello (s : State) (r : Nat) (a : Ans) : (mbx (decideJob s r a) r).hello = (mbx s r).hello := by
  unfold decideJob
  rw [mbx_modMbx, if_pos rfl]

/-! ### What each kind of effect leaves -/

theorem Handed.groupLed (h : Handed s z q) (p : Nat) : groupLed z p = Machine.groupLed s p :=
  h.keeps (fun x => Machine.groupLed x p) fun _ _ _ => rfl

/-- A refusal leaves groups and panes as they were. -/
theorem Handed.refused (h : Handed s z q) {e : Effect} {a : Ans} (he : e = answer z a) :
    Decides (effectLeft q e) q a.status ∧ (effectLeft q e).groups = s.groups ∧ (effectLeft q e).panes = s.panes := by
  rw [he]
  exact ⟨h.answers a, h.groups, h.panes⟩

theorem Handed.done (h : Handed s z q) (hd : u.dk = z.dk) : Decides (effectLeft q (Machine.done u)) q stOk :=
  h.decides hd ansOk

/-- A command whose effect is the same refusal in whatever state it is handed. -/
theorem starts_refused {i : Instr} {a : Ans} (hs : StartsAtOnce s q op k) (hi : exec i s = .next (doorbell s q op k))
    (ho : op < 65536) (ha : ∀ z, Handed s z q → startEffect op z q k = answer z a) :
    ∃ t, exec i s = .next t ∧ Decides t q a.status ∧ t.groups = s.groups ∧ t.panes = s.panes := by
  obtain ⟨z, hz, ht⟩ := starts_effectLeft hs hi ho
  exact ⟨_, ht, hz.refused (ha z hz)⟩

/-- R363: what a command delivers with its reply is not yet there when it is decided. -/
theorem startEffect_delivered {a : Ans} (hd : delivers op = true) (he : effectOf op z q k = (u, some a)) (ha : a.status = stOk) :
    startEffect op z q k = goesOn z := by
  unfold startEffect
  rw [he, if_pos hd]
  exact if_pos ha

theorem startEffect_refused {a : Ans} (he : effectOf op z q k = answer z a) (ha : a.status ≠ stOk) :
    startEffect op z q k = answer z a := by
  unfold startEffect
  rw [he]
  rcases Bool.eq_false_or_eq_true (delivers op) with hd | hd
  · rw [if_pos hd]
    exact if_neg ha
  · rw [if_neg (by simp [hd])]

theorem groupLed_modGroup_self {l : Nat} {g : Group} (hg : groupLed s l = some g) (f : Group → Group)
    (hf : ∀ g, (f g).members = g.members) : groupLed (modGroup s l f) l = some (f g) := by
  rw [groupLed_modGroup s l l f hf, if_pos rfl, hg]
  rfl

/-- A command whose effect is a change of one group. -/
theorem Handed.groupTakes (h : Handed s z q) {p : Nat} {g : Group} (hg : Machine.groupLed s p = some g) {f : Group → Group}
    {e : Effect} (he : e = Machine.done (modGroup z p f)) (hf : ∀ g, (f g).members = g.members) :
    Decides (effectLeft q e) q stOk ∧ Machine.groupLed (effectLeft q e) p = some (f g) ∧ (effectLeft q e).panes = s.panes := by
  rw [he]
  exact ⟨h.done rfl, groupLed_modGroup_self ((h.groupLed p).trans hg) f hf, h.panes⟩

end Sys2Proof.Machine
end


section
/-! PROOFS. The commands on contexts and resets (Table 14-11, R333, R334, R341, R345, R347, R349, R370, R371, R408 to
R411). -/

namespace Sys2Proof.Machine

variable {s z : State} {r : Req} {k : Packet}

/-! ### `HELLO` (R370) -/

theorem exec_hello (hs : StartsAtOnce s r.val 0x0001 k) : ∃ t, exec (.hello r k) s = .next t ∧
    (prm k 0 1 ≤ 1 ∧ 1 ≤ prm k 1 1 →
      Decides t r.val stOk ∧ (mbx t r.val).hello = true ∧ Returns t r.val (helloResult s r.val)) ∧
    (¬(prm k 0 1 ≤ 1 ∧ 1 ≤ prm k 1 1) → Decides t r.val stBadVersion ∧ (mbx t r.val).hello = (mbx s r.val).hello) := by
  obtain ⟨z, hz, ht⟩ := starts_effectLeft (i := .hello r k) hs rfl (by norm_num)
  refine ⟨_, ht, fun h => ?_, fun h => ?_⟩
  · have he : startEffect 0x0001 z r.val k = (modMbx z r.val fun m => { m with hello := true },
        some { status := stOk, result := helloResult z r.val }) := if_pos (by simpa using h)
    have hm := mbx_modMbx z r.val r.val fun m => { m with hello := true }
    rw [if_pos rfl] at hm
    obtain ⟨j, hj, hst, -⟩ := hz.running
    have hj' : (mbx (modMbx z r.val fun m => { m with hello := true }) r.val).job = some j := by rw [hm]; exact hj
    have hres : helloResult z r.val = helloResult s r.val := hz.keeps (helloResult · r.val) fun _ _ _ => rfl
    rw [he]
    refine ⟨decides_decideJob _ hj' hst, ?_, _, _, decideJob_job _ hj', rfl, hres⟩
    refine (mbx_decideJob_hello ..).trans ?_
    rw [hm]
  · have he : startEffect 0x0001 z r.val k = answer z { status := stBadVersion, result := [1, 1] } :=
      if_neg (by simpa using h)
    rw [he]
    exact ⟨hz.answers _, (mbx_decideJob_hello ..).trans hz.hello⟩

/-! ### `CTX_CREATE` and `CTX_TEARDOWN` (R333, R341, R347, R349) -/

theorem createContext_spec (s : State) (p : Nat) (tag : BitVec 32) : (createContext s p tag).dk = s.dk ∧
    (createContext s p tag).groups = s.groups ++ [Group.alone p] ∧ (pane (createContext s p tag) p).state = .opened ∧
    (pane (createContext s p tag) p).jobTag = tag ∧ (pane (createContext s p tag) p).ownerTag = tag := by
  have hpane : pane (createContext s p tag) p =
      { pane s p with state := .opened, jobTag := tag, ownerTag := tag, kept := false, ctxFault := .reset } := by
    unfold createContext pane
    dsimp only
    rw [suspendToBudget_panes]
    exact (congrArg (fun x => tblGet Pane.reset x p) (openOccupancy_panes ..)).trans (pane_modPane_self s p fun x =>
      { x with state := .opened, jobTag := tag, ownerTag := tag, kept := false, ctxFault := .reset })
  refine ⟨?_, ?_, ?_⟩
  · unfold createContext
    dsimp only
    rw [suspendToBudget_dk]
    exact (openOccupancy_dk ..).trans rfl
  · unfold createContext
    dsimp only
    rw [suspendToBudget_groups]
    exact (openOccupancy_groups ..).trans rfl
  · rw [hpane]
    exact ⟨rfl, rfl, rfl⟩

theorem leNat_lt (l : List Byte) : leNat l < 256 ^ l.length := by
  induction l with
  | nil => simp [leNat]
  | cons b l ih =>
    have hb := b.isLt
    rw [leNat, List.length_cons, Nat.pow_succ]
    omega

theorem prm_lt (k : Packet) (o n : Nat) : prm k o n < 256 ^ n := by
  refine (leNat_lt _).trans_le (Nat.pow_le_pow_right (by norm_num) ?_)
  exact List.length_take_le ..

theorem doCtxCreate_creates (hp : prm k 0 1 < 16) (hf : (pane z (prm k 0 1)).state = .free)
    (ht : prm k 4 4 ≠ 0) (hk : (pane z (prm k 0 1)).kept = false) (q : Nat) : doCtxCreate z q k =
      done (createContext (closeKept z (prm k 0 1) 0) (prm k 0 1) (BitVec.ofNat 32 (prm k 4 4))) := by
  have htag : BitVec.ofNat 32 (prm k 4 4) ≠ 0 := by
    have hlt := prm_lt k 4 4
    intro h
    have := congrArg BitVec.toNat h
    rw [BitVec.toNat_ofNat, Nat.mod_eq_of_lt (by omega)] at this
    exact ht this
  unfold doCtxCreate
  dsimp only
  rw [if_neg (by simp [badPane_lt hp]), if_neg (by simpa [hf] using htag), if_neg (by simp [hk])]

theorem doCtxCreate_refused (hp : prm k 0 1 < 16) (h : (pane z (prm k 0 1)).state ≠ .free ∨ prm k 4 4 = 0)
    (q : Nat) : doCtxCreate z q k = answer z (badState z (prm k 0 1)) := by
  unfold doCtxCreate
  dsimp only
  rw [if_neg (by simp [badPane_lt hp])]
  refine if_pos ?_
  rcases h with h | h
  · simp [h]
  · simp [h]

theorem exec_ctxCreate (hs : StartsAtOnce s r.val 0x0010 k) : ∃ t, exec (.ctxCreate r k) s = .next t ∧
    (prm k 0 1 < 16 → (pane s (prm k 0 1)).state = .free → prm k 4 4 ≠ 0 → (pane s (prm k 0 1)).kept = false →
      Decides t r.val stOk ∧ (pane t (prm k 0 1)).state = .opened ∧
      (pane t (prm k 0 1)).jobTag = BitVec.ofNat 32 (prm k 4 4) ∧
      (pane t (prm k 0 1)).ownerTag = (pane t (prm k 0 1)).jobTag ∧
      t.groups = s.groups ++ [Group.alone (prm k 0 1)]) ∧
    (prm k 0 1 < 16 → (pane s (prm k 0 1)).state ≠ .free ∨ prm k 4 4 = 0 →
      Decides t r.val stBadState ∧ t.panes = s.panes) := by
  obtain ⟨z, hz, ht⟩ := starts_effectLeft (i := .ctxCreate r k) hs rfl (by norm_num)
  refine ⟨_, ht, ?_⟩
  rw [← hz.pane, ← hz.groups, ← hz.panes]
  refine ⟨fun hp hf htag hk => ?_, fun hp h => ?_⟩
  · have he : startEffect 0x0010 z r.val k = _ := doCtxCreate_creates hp hf htag hk r.val
    rw [he]
    obtain ⟨hdk, hg, hst, hjt, hot⟩ :=
      createContext_spec (closeKept z (prm k 0 1) 0) (prm k 0 1) (BitVec.ofNat 32 (prm k 4 4))
    rw [closeKept_dk] at hdk
    rw [closeKept_groups] at hg
    generalize createContext (closeKept z (prm k 0 1) 0) (prm k 0 1) (BitVec.ofNat 32 (prm k 4 4)) = u at hdk hg hst hjt hot ⊢
    exact ⟨hz.decides hdk ansOk, hst, hjt, hot.trans hjt.symm, hg⟩
  · have he : startEffect 0x0010 z r.val k = _ := doCtxCreate_refused hp h r.val
    rw [he]
    exact ⟨hz.answers _, rfl⟩

theorem doCtxTeardown_asks (hp : prm k 0 1 < 16) (ho : (pane z (prm k 0 1)).state = .opened)
    (hn : (pane z (prm k 0 1)).shutter = none) (q : Nat) : doCtxTeardown z q k =
      goesOn (askTeardown z (prm k 0 1) (if q = 0 then 0 else 1) (q == 0 && bitAt (prm k 1 1) 0)) := by
  unfold doCtxTeardown
  dsimp only
  rw [if_neg (by simp [badPane_lt hp]), ho]
  exact if_neg (by simp [hn])

theorem doCtxTeardown_refused (hp : prm k 0 1 < 16) (h : (pane z (prm k 0 1)).state = .free ∨
    (pane z (prm k 0 1)).state = .testing ∨ (pane z (prm k 0 1)).state = .outOfService) (q : Nat) :
    doCtxTeardown z q k = answer z (badState z (prm k 0 1)) := by
  unfold doCtxTeardown
  dsimp only
  rw [if_neg (by simp [badPane_lt hp])]
  rcases h with h | h | h
  · rw [h]
  · rw [h]
  · rw [h]

theorem pane_askTeardown {p : Nat} (ho : (pane z p).state = .opened) (hn : (pane z p).shutter = none) (cause : Nat)
    (keep : Bool) : (pane (askTeardown z p cause keep) p).shutter = some
      { cause := BitVec.ofNat 8 cause, keepFar := keep, d := z.time.beat + 1, oldTag := (pane z p).jobTag
        oldEpoch := (pane z p).epoch, farSeq := 0, farZeroed := false, latchesFreed := 0, paneReset := false } := by
  unfold askTeardown
  rw [pane_modPane_self, if_pos (by simp [ho, hn])]

theorem exec_ctxTeardown (hs : StartsAtOnce s r.val 0x0011 k) : ∃ t, exec (.ctxTeardown r k) s = .next t ∧
    (prm k 0 1 < 16 → (pane s (prm k 0 1)).state = .opened → (pane s (prm k 0 1)).shutter = none →
      RunsOn t r.val ∧ ∃ h, (pane t (prm k 0 1)).shutter = some h ∧ h.d = s.time.beat + 1 ∧
        h.oldTag = (pane s (prm k 0 1)).jobTag ∧ h.oldEpoch = (pane s (prm k 0 1)).epoch ∧
        h.keepFar = (r.val == 0 && bitAt (prm k 1 1) 0) ∧ h.cause = if r.val = 0 then 0 else 1) ∧
    (prm k 0 1 < 16 → (pane s (prm k 0 1)).state = .free ∨ (pane s (prm k 0 1)).state = .testing ∨
      (pane s (prm k 0 1)).state = .outOfService → Decides t r.val stBadState ∧ t.panes = s.panes) := by
  obtain ⟨z, hz, ht⟩ := starts_effectLeft (i := .ctxTeardown r k) hs rfl (by norm_num)
  refine ⟨_, ht, ?_⟩
  rw [← hz.pane, ← hz.time, ← hz.panes]
  refine ⟨fun hp ho hn => ?_, fun hp h => ?_⟩
  · have he : startEffect 0x0011 z r.val k = _ := doCtxTeardown_asks hp ho hn r.val
    rw [he]
    refine ⟨hz.runsOn rfl, _, pane_askTeardown ho hn .., rfl, rfl, rfl, rfl, ?_⟩
    show BitVec.ofNat 8 (if r.val = 0 then 0 else 1) = _
    exact apply_ite (BitVec.ofNat 8) ..
  · have he : startEffect 0x0011 z r.val k = _ := doCtxTeardown_refused hp h r.val
    rw [he]
    exact ⟨hz.answers _, rfl⟩

/-! ### `GROUP_BIND` (R334) -/

theorem leadOf_mem {m : BitVec 16} (h : m ≠ 0) : leadOf m < 16 ∧ m.getLsbD (leadOf m) = true := by
  unfold leadOf
  cases hf : (List.range 16).find? (m.getLsbD ·) with
  | some p => exact ⟨List.mem_range.mp (List.mem_of_find?_eq_some hf), List.find?_some hf⟩
  | none =>
    refine absurd ?_ h
    refine BitVec.eq_of_getLsbD_eq fun i hi => ?_
    simpa using List.find?_eq_none.mp hf i (List.mem_range.mpr hi)

theorem leadOf_le {m : BitVec 16} {p : Nat} (hp : p < 16) (h : m.getLsbD p = true) : leadOf m ≤ p := by
  unfold leadOf
  cases hf : (List.range 16).find? (m.getLsbD ·) with
  | some l =>
    obtain ⟨-, as, bs, hsplit, has⟩ := List.find?_eq_some_iff_append.mp hf
    by_contra hlt
    have hlt : p < l := Nat.not_le.mp hlt
    have hsorted : (as ++ l :: bs).Pairwise (· < ·) := hsplit ▸ List.pairwise_lt_range
    have hmem : p ∈ as ++ l :: bs := hsplit ▸ List.mem_range.mpr hp
    rcases List.mem_append.mp hmem with hm | hm
    · exact absurd h (by simpa using has p hm)
    · rcases List.mem_cons.mp hm with rfl | hm
      · exact absurd hlt (Nat.lt_irrefl _)
      · have := List.rel_of_pairwise_cons (List.pairwise_append.mp hsorted).2.1 hm
        omega
  | none => exact absurd h (List.find?_eq_none.mp hf p (List.mem_range.mpr hp))

theorem getLsbD_of_subset {a b : BitVec 16} (h : a &&& ~~~b = 0) {p : Nat} (ha : a.getLsbD p = true) : b.getLsbD p = true := by
  have hp : p < 16 := BitVec.lt_of_getLsbD ha
  have := congrArg (·.getLsbD p) h
  simpa [ha, hp] using this

/-- A part of a mask that holds its lead pane has the same lead. -/
theorem leadOf_of_subset {a b : BitVec 16} (hb : b ≠ 0) (hsub : a &&& ~~~b = 0) (hl : a.getLsbD (leadOf b) = true) :
    leadOf a = leadOf b := by
  have ha : a ≠ 0 := fun h => by simp [h] at hl
  obtain ⟨hlt, hmem⟩ := leadOf_mem ha
  exact Nat.le_antisymm (leadOf_le (leadOf_mem hb).1 hl) (leadOf_le hlt (getLsbD_of_subset hsub hmem))

/-- R334: the lead pane's own group is among the parts that are bound. -/
theorem bound_lead {mask : BitVec 16} (hm : mask ≠ 0) (hb : bindRefusal z mask = none) :
    ((z.groups.filter fun g => (g.members &&& mask) != 0).find? fun g => leadOf g.members == leadOf mask).isSome = true := by
  obtain ⟨hlt, hmem⟩ := leadOf_mem hm
  have hlead : leadOf mask ∈ maskPanes mask := List.mem_filter.mpr ⟨List.mem_range.mpr hlt, hmem⟩
  have hok := List.find?_eq_none.mp hb _ hlead
  rw [Bool.not_eq_true, Bool.or_eq_false_iff] at hok
  obtain ⟨-, hgroup⟩ := hok
  cases hg : groupOf z (leadOf mask) with
  | none => simp [hg] at hgroup
  | some g =>
    have hmg : g.members.getLsbD (leadOf mask) = true := List.find?_some (p := fun g : Group => g.members.getLsbD (leadOf mask)) hg
    have hsub : g.members &&& ~~~mask = 0 := by
      simp only [hg, Bool.or_eq_false_iff] at hgroup
      simpa using hgroup.1
    rw [List.find?_isSome]
    refine ⟨g, List.mem_filter.mpr ⟨List.mem_of_find?_eq_some hg, ?_⟩, by simp [leadOf_of_subset hm hsub hmg]⟩
    have hne : g.members &&& mask ≠ 0 := fun h => by
      have := congrArg (·.getLsbD (leadOf mask)) h
      simp [hmg, hmem] at this
    simpa using hne

theorem doGroupBind_zero (hm : BitVec.ofNat 16 (prm k 0 2) = 0) (q : Nat) : doGroupBind z q k = answer z (badParam 0) :=
  if_pos hm

theorem doGroupBind_refused {b : Nat} (hm : BitVec.ofNat 16 (prm k 0 2) ≠ 0)
    (hb : bindRefusal z (BitVec.ofNat 16 (prm k 0 2)) = some b) (q : Nat) : doGroupBind z q k = answer z (badState z b) := by
  unfold doGroupBind
  dsimp only
  rw [if_neg hm, hb]

theorem doGroupBind_binds (hm : BitVec.ofNat 16 (prm k 0 2) ≠ 0)
    (hb : bindRefusal z (BitVec.ofNat 16 (prm k 0 2)) = none) (q : Nat) :
    ∃ g : Group, g.members = BitVec.ofNat 16 (prm k 0 2) ∧ g.jobMap = none ∧ doGroupBind z q k =
      done { z with groups := z.groups.filter (fun g => (g.members &&& BitVec.ofNat 16 (prm k 0 2)) == 0) ++ [g] } := by
  obtain ⟨l, hl⟩ := Option.isSome_iff_exists.mp (bound_lead hm hb)
  unfold doGroupBind
  dsimp only
  rw [if_neg hm, hb]
  dsimp only
  rw [hl]
  exact ⟨_, rfl, rfl, rfl⟩

theorem exec_groupBind (hs : StartsAtOnce s r.val 0x0012 k) : ∃ t, exec (.groupBind r k) s = .next t ∧
    (BitVec.ofNat 16 (prm k 0 2) ≠ 0 → bindRefusal s (BitVec.ofNat 16 (prm k 0 2)) = none →
      Decides t r.val stOk ∧ t.panes = s.panes ∧
      (∃ g ∈ t.groups, g.members = BitVec.ofNat 16 (prm k 0 2) ∧ g.jobMap = none) ∧
      ∀ g ∈ t.groups, g.members = BitVec.ofNat 16 (prm k 0 2) ∨
        (g ∈ s.groups ∧ g.members &&& BitVec.ofNat 16 (prm k 0 2) = 0)) ∧
    (BitVec.ofNat 16 (prm k 0 2) ≠ 0 → ∀ b, bindRefusal s (BitVec.ofNat 16 (prm k 0 2)) = some b →
      Decides t r.val stBadState ∧ t.groups = s.groups) ∧
    (BitVec.ofNat 16 (prm k 0 2) = 0 → Decides t r.val stBadParam ∧ t.groups = s.groups) := by
  obtain ⟨z, hz, ht⟩ := starts_effectLeft (i := .groupBind r k) hs rfl (by norm_num)
  refine ⟨_, ht, ?_⟩
  have hbind : bindRefusal z (BitVec.ofNat 16 (prm k 0 2)) = bindRefusal s (BitVec.ofNat 16 (prm k 0 2)) :=
    hz.keeps (bindRefusal · _) fun _ _ _ => rfl
  rw [← hbind, ← hz.groups, ← hz.panes]
  refine ⟨fun hm hb => ?_, fun hm b hb => ?_, fun hm => ?_⟩
  · obtain ⟨g, hg, hj, hd⟩ := doGroupBind_binds hm hb r.val
    have he : startEffect 0x0012 z r.val k = _ := hd
    rw [he]
    refine ⟨hz.decides rfl ansOk, rfl, ⟨g, List.mem_append_right _ (List.mem_singleton_self _), hg, hj⟩, fun x hx => ?_⟩
    rcases List.mem_append.mp hx with hx | hx
    · obtain ⟨hmem, h0⟩ := List.mem_filter.mp hx
      exact .inr ⟨hmem, by simpa using h0⟩
    · exact .inl (List.mem_singleton.mp hx ▸ hg)
  · have he : startEffect 0x0012 z r.val k = _ := doGroupBind_refused hm hb r.val
    rw [he]
    exact ⟨hz.answers _, rfl⟩
  · have he : startEffect 0x0012 z r.val k = _ := doGroupBind_zero hm r.val
    rw [he]
    exact ⟨hz.answers _, rfl⟩

/-! ### Resets (R407 to R411) -/

theorem doCtxReset_asks (hp : prm k 0 1 < 16) (ho : (pane z (prm k 0 1)).state = .opened) (q : Nat) :
    doCtxReset z q k = goesOn (askContextReset z (prm k 0 1)) := by
  unfold doCtxReset
  dsimp only
  rw [if_neg (by simp [badPane_lt hp]), if_neg (by simp [ho])]

theorem doCtxReset_refused (hp : prm k 0 1 < 16) (ho : (pane z (prm k 0 1)).state ≠ .opened) (q : Nat) :
    doCtxReset z q k = answer z (badState z (prm k 0 1)) := by
  unfold doCtxReset
  dsimp only
  rw [if_neg (by simp [badPane_lt hp]), if_pos ho]

theorem exec_ctxReset (hs : StartsAtOnce s r.val 0x0013 k) : ∃ t, exec (.ctxReset r k) s = .next t ∧
    (prm k 0 1 < 16 → (pane s (prm k 0 1)).state = .opened → RunsOn t r.val ∧
      pane t (prm k 0 1) = { pane s (prm k 0 1) with resetFrom := some (s.time.beat + 1) }) ∧
    (prm k 0 1 < 16 → (pane s (prm k 0 1)).state ≠ .opened → Decides t r.val stBadState ∧ t.panes = s.panes) := by
  obtain ⟨z, hz, ht⟩ := starts_effectLeft (i := .ctxReset r k) hs rfl (by norm_num)
  refine ⟨_, ht, ?_⟩
  rw [← hz.pane, ← hz.time, ← hz.panes]
  refine ⟨fun hp ho => ?_, fun hp ho => ?_⟩
  · have he : startEffect 0x0013 z r.val k = _ := doCtxReset_asks hp ho r.val
    rw [he]
    exact ⟨hz.runsOn rfl, pane_modPane_self ..⟩
  · have he : startEffect 0x0013 z r.val k = _ := doCtxReset_refused hp ho r.val
    rw [he]
    exact ⟨hz.answers _, rfl⟩

theorem doEngineReset_resets (h : engineOk (prm k 0 1) = true) (q : Nat) :
    doEngineReset z q k = done (resetEngine z (prm k 0 1)) := if_pos h

theorem exec_engineReset (hs : StartsAtOnce s r.val 0x0014 k) : ∃ t, exec (.engineReset r k) s = .next t ∧
    (prm k 0 1 ≤ 2 → Decides t r.val stOk ∧ ∀ g ∈ t.groups, usesRing g (prm k 0 1) = true → g.abortDue ≠ none) ∧
    (16 ≤ prm k 0 1 → prm k 0 1 ≤ 27 → Decides t r.val stOk ∧ cvOf t (prm k 0 1 - 16) =
      { cvOf s (prm k 0 1 - 16) with
        uncovered := (cvOf s (prm k 0 1 - 16)).uncovered || (cvOf s (prm k 0 1 - 16)).lstate == 1, lstate := 0, left := 0 }) ∧
    (engineOk (prm k 0 1) = false → Decides t r.val stBadParam) := by
  obtain ⟨z, hz, ht⟩ := starts_effectLeft (i := .engineReset r k) hs rfl (by norm_num)
  refine ⟨_, ht, fun h => ?_, fun h16 h27 => ?_, fun h => ?_⟩
  · have he : startEffect 0x0014 z r.val k = _ := doEngineReset_resets (by simp [engineOk]; omega) r.val
    rw [he, resetEngine_ring h]
    obtain ⟨ns, n, l, hv⟩ := resetDone_hubv (resetRing z (prm k 0 1)) 2 noPane (engineSource (prm k 0 1)) 0 0 (prm k 0 1)
    have hdk : (resetDone (resetRing z (prm k 0 1)) 2 noPane (engineSource (prm k 0 1)) 0 0 (prm k 0 1)).dk = z.dk :=
      (resetDone_dk ..).trans (resetRing_dk ..)
    generalize resetDone (resetRing z (prm k 0 1)) 2 noPane (engineSource (prm k 0 1)) 0 0 (prm k 0 1) = u at hv hdk ⊢
    have hg : u.groups = (resetRing z (prm k 0 1)).groups := (congrArg State.groups hv).trans rfl
    refine ⟨hz.decides hdk ansOk, fun g hmem => abortDue_resetRing z (prm k 0 1) g ?_⟩
    rw [← hg]
    exact hmem
  · have he : startEffect 0x0014 z r.val k = _ := doEngineReset_resets (by simp [engineOk]; omega) r.val
    rw [he, resetEngine_cv h16]
    obtain ⟨ns, n, l, hv⟩ := resetDone_hubv (resetCv z (prm k 0 1 - 16)) 2 noPane (engineSource (prm k 0 1)) 0 0 (prm k 0 1)
    have hdk : (resetDone (resetCv z (prm k 0 1 - 16)) 2 noPane (engineSource (prm k 0 1)) 0 0 (prm k 0 1)).dk = z.dk :=
      (resetDone_dk ..).trans (resetCv_dk ..)
    have hcv : cvOf z (prm k 0 1 - 16) = cvOf s (prm k 0 1 - 16) := hz.keeps (cvOf · _) fun _ _ _ => rfl
    generalize resetDone (resetCv z (prm k 0 1 - 16)) 2 noPane (engineSource (prm k 0 1)) 0 0 (prm k 0 1) = u at hv hdk ⊢
    have hl : u.links = (resetCv z (prm k 0 1 - 16)).links := (congrArg State.links hv).trans rfl
    refine ⟨hz.decides hdk ansOk, ?_⟩
    rw [← hcv]
    show cvOf u (prm k 0 1 - 16) = _
    rw [cvOf, hl]
    exact tblGet_tblSet_self ..
  · have he : startEffect 0x0014 z r.val k = answer z (badParam 0) := if_neg (by simp [h])
    rw [he]
    exact hz.answers _

theorem doPaneReset_asks (hp : prm k 0 1 < 16) (ho : (pane z (prm k 0 1)).state = .opened ∨ (pane z (prm k 0 1)).state = .free)
    (q : Nat) : doPaneReset z q k = goesOn (askPaneReset z (prm k 0 1)) := by
  have hd : dropTest z (prm k 0 1) = z := by
    unfold dropTest
    refine if_neg ?_
    rcases ho with h | h
    · simp [h]
    · simp [h]
  unfold doPaneReset
  dsimp only
  rw [if_neg (by simp [badPane_lt hp]), if_neg (by rcases ho with h | h <;> simp [h]), hd]

theorem pane_askPaneReset {p : Nat} (ho : (pane z p).state = .opened ∨ (pane z p).state = .free)
    (hn : (pane z p).shutter = none) : ∃ h, (pane (askPaneReset z p) p).shutter = some h ∧ h.d = z.time.beat + 1 ∧
      h.paneReset = true ∧ h.keepFar = true := by
  have hp : pane (askPaneReset z p) p = _ := pane_modPane_self ..
  rcases ho with h | h
  · simp only [h, hn, Option.isSome_none, Bool.false_eq_true, if_false] at hp
    exact ⟨_, congrArg Pane.shutter hp, rfl, rfl, rfl⟩
  · simp only [h, hn, Option.isSome_none, Bool.false_eq_true, if_false] at hp
    exact ⟨_, congrArg Pane.shutter hp, rfl, rfl, rfl⟩

theorem doPaneReset_refused (hp : prm k 0 1 < 16) (ho : (pane z (prm k 0 1)).state = .outOfService) (q : Nat) :
    doPaneReset z q k = answer z (badState z (prm k 0 1)) := by
  unfold doPaneReset
  dsimp only
  rw [if_neg (by simp [badPane_lt hp]), if_pos ho]

theorem exec_paneReset (hs : StartsAtOnce s r.val 0x0015 k) : ∃ t, exec (.paneReset r k) s = .next t ∧
    (prm k 0 1 < 16 → (pane s (prm k 0 1)).state = .opened ∨ (pane s (prm k 0 1)).state = .free →
      (pane s (prm k 0 1)).shutter = none → RunsOn t r.val ∧ ∃ h, (pane t (prm k 0 1)).shutter = some h ∧
        h.d = s.time.beat + 1 ∧ h.paneReset = true ∧ h.keepFar = true) ∧
    (prm k 0 1 < 16 → (pane s (prm k 0 1)).state = .outOfService → Decides t r.val stBadState ∧ t.panes = s.panes) := by
  obtain ⟨z, hz, ht⟩ := starts_effectLeft (i := .paneReset r k) hs rfl (by norm_num)
  refine ⟨_, ht, ?_⟩
  rw [← hz.pane, ← hz.time, ← hz.panes]
  refine ⟨fun hp ho hn => ?_, fun hp ho => ?_⟩
  · have he : startEffect 0x0015 z r.val k = _ := doPaneReset_asks hp ho r.val
    rw [he]
    exact ⟨hz.runsOn rfl, pane_askPaneReset ho hn⟩
  · have he : startEffect 0x0015 z r.val k = _ := doPaneReset_refused hp ho r.val
    rw [he]
    exact ⟨hz.answers _, rfl⟩

theorem exec_moduleReset (hs : StartsAtOnce s r.val 0x0016 k) : ∃ t, exec (.moduleReset r k) s = .next t ∧
    t.faults.lastReset = 1 ∧ t.groups = [] ∧ t.latches = [] ∧ t.ccr = [] ∧ t.dk.ready = false ∧ t.dk.mbx = [] ∧
    t.power.hubUp = true := by
  obtain ⟨z, hz, ht⟩ := starts_effectLeft (i := .moduleReset r k) hs rfl (by norm_num)
  have he : startEffect 0x0016 z r.val k = goesOn (watchReset (moduleReset z 1)) := rfl
  rw [he] at ht
  refine ⟨_, ht, ?_⟩
  obtain ⟨y, tu, ns, n, l, hc, hv⟩ := moduleReset_hubv z 1
  show (watchReset (moduleReset z 1)).faults.lastReset = 1 ∧ _
  generalize moduleReset z 1 = t at hv ⊢
  exact ⟨(congrArg (fun x : State => x.faults.lastReset) hv).trans rfl,
    ((congrArg State.groups hv).trans rfl).trans hc.groups, ((congrArg State.latches hv).trans rfl).trans hc.latches,
    ((congrArg State.ccr hv).trans rfl).trans hc.ccr,
    ((congrArg (fun x : State => x.dk.ready) hv).trans rfl).trans hc.ready,
    ((congrArg (fun x : State => x.dk.mbx) hv).trans rfl).trans hc.mailboxes,
    (congrArg (fun x : State => x.power.hubUp) hv).trans rfl⟩

end Sys2Proof.Machine

open Sys2Proof Sys2Proof.Machine

/-- Settles O50: each command by its effect on the state in which it starts. -/
theorem contextCommands : Obligations.ContextCommands := by
  unfold Obligations.ContextCommands
  intro s r k q p x starts
  exact ⟨exec_hello, exec_ctxCreate, exec_ctxTeardown, exec_groupBind, exec_ctxReset, exec_engineReset, exec_paneReset,
    exec_moduleReset⟩

end


section
/-! PROOFS. The commands that equip a context (Table 14-11, R22, R129, R130, R136, R150, R151, R208, R231, R337, R338). -/

namespace Sys2Proof.Machine

variable {s z : State} {r : Req} {k : Packet} {g : Group}

/-! ### A group whose Plan runs (R130) -/

theorem onIdleGroup_active {lead : Nat} (hp : lead < 16) (hg : groupLed s lead = some g) (hh : hasStart g = true)
    (f : Group → Effect) : onIdleGroup s lead f = answer s (planActive lead) := by
  unfold onIdleGroup
  rw [if_neg (by simp [badPane_lt hp]), hg]
  exact if_pos hh

theorem planActive_status {lead : Nat} : (planActive lead).status ≠ stOk := by
  show stPlanActive ≠ stOk
  decide

/-- A command on a group that has an accepted start is refused. -/
theorem starts_active {i : Instr} {op q : Nat} {f : State → Group → Effect} (hs : StartsAtOnce s q op k)
    (hi : exec i s = .next (doorbell s q op k)) (ho : op < 65536) (hp : prm k 0 1 < 16)
    (hg : groupLed s (prm k 0 1) = some g) (hh : hasStart g = true)
    (he : ∀ z, effectOf op z q k = onIdleGroup z (prm k 0 1) (f z)) :
    ∃ t, exec i s = .next t ∧ Decides t q stPlanActive ∧ t.groups = s.groups ∧ t.panes = s.panes := by
  refine starts_refused (a := planActive (prm k 0 1)) hs hi ho fun z hz => startEffect_refused ?_ planActive_status
  exact (he z).trans (onIdleGroup_active hp ((hz.groupLed _).trans hg) hh _)

/-! ### `SLOT_ALLOC` and `STREAM_SHARE` (R151, R337, R338) -/

/-- The slots that a `SLOT_ALLOC` gives to a group. -/
def slotTable (masks : Nat → BitVec 256) (n : Nat) : Tbl (BitVec 256) :=
  (List.range n).foldl (fun t u => tblPut 0 t u (masks u)) []

theorem slotTable_succ (masks : Nat → BitVec 256) (n : Nat) :
    slotTable masks (n + 1) = tblPut 0 (slotTable masks n) n (masks n) := by
  unfold slotTable
  rw [List.range_succ, List.foldl_concat]

theorem tblWf_slotTable (masks : Nat → BitVec 256) (n : Nat) : tblWf 0 (slotTable masks n) = true := by
  induction n with
  | zero => rfl
  | succ n ih => exact slotTable_succ masks n ▸ tblWf_tblPut 0 _ n _ ih

theorem tblGet_slotTable (masks : Nat → BitVec 256) {n u : Nat} (h : u < n) : tblGet 0 (slotTable masks n) u = masks u := by
  induction n with
  | zero => exact absurd h (Nat.not_lt_zero u)
  | succ n ih =>
    rw [slotTable_succ, tblGet_tblPut _ _ _ _ _ (tblWf_slotTable masks n)]
    rcases Nat.lt_succ_iff_lt_or_eq.mp h with h | rfl
    · rw [if_neg (by omega), ih h]
    · rw [if_pos rfl]

theorem exec_slotAlloc (hp : prm k 0 1 < 16) (hg : groupLed s (prm k 0 1) = some g) (hh : hasStart g = false)
    (hs : StartsAtOnce s r.val 0x0020 k) : ∃ t, exec (.slotAlloc r k) s = .next t ∧
    (slotConflict s (prm k 0 1) (fun u => BitVec.ofNat 256 (prm k (4 + 32 * u) 32)) = none → Decides t r.val stOk ∧
      ∃ g', groupLed t (prm k 0 1) = some g' ∧ g' = { g with slots := g'.slots } ∧
        ∀ u, u < 12 → tblGet 0 g'.slots u = BitVec.ofNat 256 (prm k (4 + 32 * u) 32)) ∧
    (slotConflict s (prm k 0 1) (fun u => BitVec.ofNat 256 (prm k (4 + 32 * u) 32)) ≠ none →
      Decides t r.val stConflict ∧ t.groups = s.groups ∧ t.panes = s.panes) := by
  obtain ⟨z, hz, ht⟩ := starts_effectLeft (i := .slotAlloc r k) hs rfl (by norm_num)
  have he : startEffect 0x0020 z r.val k = _ := onIdleGroup_idle hp ((hz.groupLed _).trans hg) hh _
  have hc (m : Nat → BitVec 256) : slotConflict z (prm k 0 1) m = slotConflict s (prm k 0 1) m :=
    hz.keeps (slotConflict · _ _) fun _ _ _ => rfl
  dsimp only at he
  rw [hc] at he
  refine ⟨_, ht, fun h => ?_, fun h => ?_⟩
  · rw [h] at he
    obtain ⟨hd, hl, -⟩ := hz.groupTakes (f := fun g =>
      { g with slots := slotTable (fun u => BitVec.ofNat 256 (prm k (4 + 32 * u) 32)) 12 }) hg he fun _ => rfl
    have hget := fun u (hu : u < 12) => tblGet_slotTable (fun u => BitVec.ofNat 256 (prm k (4 + 32 * u) 32)) hu
    generalize slotTable (fun u => BitVec.ofNat 256 (prm k (4 + 32 * u) 32)) 12 = m at hl hget
    exact ⟨hd, { g with slots := m }, hl, rfl, hget⟩
  · obtain ⟨u, hu⟩ := Option.ne_none_iff_exists'.mp h
    rw [hu] at he
    exact hz.refused he

theorem exec_streamShare (hp : prm k 0 1 < 16) (hg : groupLed s (prm k 0 1) = some g) (hh : hasStart g = false)
    (hs : StartsAtOnce s r.val 0x0021 k) : ∃ t, exec (.streamShare r k) s = .next t ∧
    ((s.groups.filter fun g => leadOf g.members != prm k 0 1).foldl (fun n g => n + g.streamShare) 0 + prm k 4 4 ≤ 1835008 →
      Decides t r.val stOk ∧ groupLed t (prm k 0 1) = some { g with streamShare := prm k 4 4 }) ∧
    (1835008 < (s.groups.filter fun g => leadOf g.members != prm k 0 1).foldl (fun n g => n + g.streamShare) 0 + prm k 4 4 →
      Decides t r.val stConflict ∧ t.groups = s.groups ∧ t.panes = s.panes) := by
  obtain ⟨z, hz, ht⟩ := starts_effectLeft (i := .streamShare r k) hs rfl (by norm_num)
  have he : startEffect 0x0021 z r.val k = _ := onIdleGroup_idle hp ((hz.groupLed _).trans hg) hh _
  dsimp only at he
  rw [hz.groups] at he
  refine ⟨_, ht, fun h => ?_, fun h => ?_⟩
  · rw [if_neg (by exact Nat.not_lt.mpr h)] at he
    obtain ⟨hd, hl, -⟩ := hz.groupTakes hg he fun _ => rfl
    exact ⟨hd, hl⟩
  · rw [if_pos (by exact h)] at he
    exact hz.refused he

/-! ### `JOB_MAP_LOAD` and `PLAN_LOAD` (R71, R128, R148, R313, R314) -/

theorem doJobMapLoad_refused {b : List Byte} {d : Nat} (hp : prm k 0 1 < 16) (hg : groupLed s (prm k 0 1) = some g)
    (hb : bulkData k = some b) (hh : hasStart g = false) (hl : b.length = 32 + 2 * leAt b 24 4)
    (hm : mapRefusal s (parseMap b) = some d) (q : Nat) :
    doJobMapLoad s q k = answer s { status := stMapRejected, detail := d } := by
  unfold doJobMapLoad
  dsimp only
  rw [if_neg (by simp [badPane_lt hp]), hg, hb]
  dsimp only
  rw [if_neg (by simp [hh]), if_neg (by simp [hl]), hm]

theorem exec_jobMapLoad (hp : prm k 0 1 < 16) (hg : groupLed s (prm k 0 1) = some g) (hh : hasStart g = false)
    (hs : StartsAtOnce s r.val 0x0024 k) : ∃ t, exec (.jobMapLoad r k) s = .next t ∧
    ∀ b, bulkData k = some b → b.length = 32 + 2 * leAt b 24 4 →
      (mapRefusal s (parseMap b) = none → RunsOn t r.val ∧ t.groups = s.groups) ∧
      (mapRefusal s (parseMap b) ≠ none → Decides t r.val stMapRejected ∧ t.groups = s.groups ∧ t.panes = s.panes) := by
  obtain ⟨z, hz, ht⟩ := starts_effectLeft (i := .jobMapLoad r k) hs rfl (by norm_num)
  have hgz := (hz.groupLed _).trans hg
  refine ⟨_, ht, fun b hb hl => ?_⟩
  have hm : mapRefusal z (parseMap b) = mapRefusal s (parseMap b) := hz.keeps (mapRefusal · _) fun _ _ _ => rfl
  rw [← hm]
  refine ⟨fun h => ?_, fun h => ?_⟩
  · rw [startEffect_delivered (op := 0x0024) (k := k) rfl (doJobMapLoad_loads hp hgz hb hh hl h r.val) rfl]
    exact ⟨hz.running, hz.groups⟩
  · obtain ⟨d, hd⟩ := Option.ne_none_iff_exists'.mp h
    exact hz.refused (startEffect_refused (op := 0x0024) (k := k) (doJobMapLoad_refused hp hgz hb hh hl hd r.val) (by show stMapRejected ≠ stOk; decide))

theorem doPlanLoad_short {d : List Byte} (hp : prm k 0 1 < 16) (hg : groupLed s (prm k 0 1) = some g)
    (hb : bulkData k = some d) (hh : hasStart g = false) (hsh : groupShort s g = true) (q : Nat) :
    doPlanLoad s q k = answer s (badState s (prm k 0 1)) := by
  unfold doPlanLoad
  dsimp only
  rw [onIdleGroup_idle hp hg hh, hb]
  exact if_pos hsh

theorem doPlanLoad_refused {d : List Byte} {n : Nat} (hp : prm k 0 1 < 16) (hg : groupLed s (prm k 0 1) = some g)
    (hb : bulkData k = some d) (hh : hasStart g = false) (hsh : groupShort s g = false)
    (hc : loadCheck s g d k.bulkLen.toNat = some n) (q : Nat) :
    doPlanLoad s q k = answer s { status := stPlanRejected, detail := n } := by
  unfold doPlanLoad
  dsimp only
  rw [onIdleGroup_idle hp hg hh, hb]
  dsimp only
  rw [if_neg (by simp [hsh]), hc]

theorem exec_planLoad (hp : prm k 0 1 < 16) (hg : groupLed s (prm k 0 1) = some g) (hh : hasStart g = false)
    (hs : StartsAtOnce s r.val 0x0030 k) : ∃ t, exec (.planLoad r k) s = .next t ∧ ∀ d, bulkData k = some d →
    (groupShort s g = true → Decides t r.val stBadState ∧ t.groups = s.groups ∧ t.panes = s.panes) ∧
    (groupShort s g = false → loadCheck s g d k.bulkLen.toNat = none → RunsOn t r.val ∧ t.groups = s.groups) ∧
    (groupShort s g = false → loadCheck s g d k.bulkLen.toNat ≠ none →
      Decides t r.val stPlanRejected ∧ t.groups = s.groups ∧ t.panes = s.panes) := by
  obtain ⟨z, hz, ht⟩ := starts_effectLeft (i := .planLoad r k) hs rfl (by norm_num)
  have hgz := (hz.groupLed _).trans hg
  refine ⟨_, ht, fun d hb => ?_⟩
  have hsz : groupShort z g = groupShort s g := hz.keeps (groupShort · g) fun _ _ _ => rfl
  have hcz : loadCheck z g d k.bulkLen.toNat = loadCheck s g d k.bulkLen.toNat := hz.keeps (loadCheck · g d _) fun _ _ _ => rfl
  rw [← hsz, ← hcz]
  refine ⟨fun hsh => ?_, fun hsh hc => ?_, fun hsh hc => ?_⟩
  · exact hz.refused (startEffect_refused (op := 0x0030) (k := k) (doPlanLoad_short hp hgz hb hh hsh r.val) (by show stBadState ≠ stOk; decide))
  · rw [startEffect_delivered (op := 0x0030) (k := k) rfl (doPlanLoad_loads hp hgz hb hh hsh hc r.val) rfl]
    exact ⟨hz.running, hz.groups⟩
  · obtain ⟨n, hn⟩ := Option.ne_none_iff_exists'.mp hc
    exact hz.refused (startEffect_refused (op := 0x0030) (k := k) (doPlanLoad_refused hp hgz hb hh hsh hn r.val)
      (by show stPlanRejected ≠ stOk; decide))

/-! ### `PLAN_START` and `PLAN_STOP` (R22, R129, R130) -/

theorem doPlanStart_short (hp : prm k 0 1 < 16) (hg : groupLed s (prm k 0 1) = some g) (hsh : groupShort s g = true)
    (q : Nat) : doPlanStart s q k = answer s (badState s (prm k 0 1)) := by
  unfold doPlanStart
  dsimp only
  rw [if_neg (by simp [badPane_lt hp]), hg]
  exact if_pos hsh

theorem doPlanStart_refused {n : Nat} (hp : prm k 0 1 < 16) (hg : groupLed s (prm k 0 1) = some g)
    (hsh : groupShort s g = false) (hr : startRefusal s g (prm k 2 6) (prm k 8 6) (prm k 14 4) = some n) (q : Nat) :
    doPlanStart s q k = answer s { status := stStartRefused, detail := n } := by
  unfold doPlanStart
  dsimp only
  rw [if_neg (by simp [badPane_lt hp]), hg]
  dsimp only
  rw [if_neg (by simp [hsh]), hr]

theorem doPlanStart_accepted (hp : prm k 0 1 < 16) (hg : groupLed s (prm k 0 1) = some g)
    (hsh : groupShort s g = false) (hr : startRefusal s g (prm k 2 6) (prm k 8 6) (prm k 14 4) = none) (q : Nat) :
    doPlanStart s q k = done (modGroup s (prm k 0 1) fun g => { g with
      ended := none, abortDue := none
      run := some (freshRun (prm k 2 6) (prm k 8 6) (prm k 14 4) (BitVec.ofNat 64 (prm k 18 8))
        (BitVec.ofNat 64 (prm k 26 8))) }) := by
  unfold doPlanStart
  dsimp only
  rw [if_neg (by simp [badPane_lt hp]), hg]
  dsimp only
  rw [if_neg (by simp [hsh]), hr]

theorem exec_planStart (hp : prm k 0 1 < 16) (hg : groupLed s (prm k 0 1) = some g) (hs : StartsAtOnce s r.val 0x0031 k) :
    ∃ t, exec (.planStart r k) s = .next t ∧
    (groupShort s g = true → Decides t r.val stBadState ∧ t.groups = s.groups ∧ t.panes = s.panes) ∧
    (groupShort s g = false → startRefusal s g (prm k 2 6) (prm k 8 6) (prm k 14 4) = none →
      Decides t r.val stOk ∧ t.panes = s.panes ∧ groupLed t (prm k 0 1) = some { g with
        ended := none, abortDue := none
        run := some (freshRun (prm k 2 6) (prm k 8 6) (prm k 14 4) (BitVec.ofNat 64 (prm k 18 8))
          (BitVec.ofNat 64 (prm k 26 8))) }) ∧
    (groupShort s g = false → startRefusal s g (prm k 2 6) (prm k 8 6) (prm k 14 4) ≠ none →
      Decides t r.val stStartRefused ∧ t.groups = s.groups ∧ t.panes = s.panes) := by
  obtain ⟨z, hz, ht⟩ := starts_effectLeft (i := .planStart r k) hs rfl (by norm_num)
  have hgz := (hz.groupLed _).trans hg
  refine ⟨_, ht, ?_⟩
  have hsz : groupShort z g = groupShort s g := hz.keeps (groupShort · g) fun _ _ _ => rfl
  have hrz : startRefusal z g (prm k 2 6) (prm k 8 6) (prm k 14 4) = startRefusal s g (prm k 2 6) (prm k 8 6) (prm k 14 4) :=
    hz.keeps (startRefusal · g _ _ _) fun _ _ _ => rfl
  rw [← hsz, ← hrz]
  refine ⟨fun hsh => hz.refused (doPlanStart_short hp hgz hsh r.val), fun hsh hr => ?_, fun hsh hr => ?_⟩
  · have he : startEffect 0x0031 z r.val k = _ := doPlanStart_accepted hp hgz hsh hr r.val
    obtain ⟨hd, hl, hpn⟩ := hz.groupTakes hg he fun _ => rfl
    exact ⟨hd, hpn, hl⟩
  · obtain ⟨n, hn⟩ := Option.ne_none_iff_exists'.mp hr
    exact hz.refused (doPlanStart_refused hp hgz hsh hn r.val)

theorem doPlanStop_unforced {d : List Byte} {u : Run} (hp : prm k 0 1 < 16) (hg : groupLed s (prm k 0 1) = some g)
    (hd : g.plan = some d) (hu : g.run = some u) (hf : bitAt (prm k 1 1) 0 = false) (q : Nat) :
    doPlanStop s q k = if u.started then done (modRun s (prm k 0 1) fun r => { r with stopping := true })
      else done (endPlan s g d) := by
  unfold doPlanStop
  dsimp only
  rw [if_neg (by simp [badPane_lt hp]), hg]
  dsimp only
  rw [hd, hu]
  exact if_neg (by simp [hf])

theorem exec_planStop {d : List Byte} {u : Run} (hp : prm k 0 1 < 16) (hg : groupLed s (prm k 0 1) = some g)
    (hd : g.plan = some d) (hu : g.run = some u) (hf : bitAt (prm k 1 1) 0 = false)
    (hs : StartsAtOnce s r.val 0x0032 k) : ∃ t, exec (.planStop r k) s = .next t ∧
    (u.started = true → Decides t r.val stOk ∧
      groupLed t (prm k 0 1) = some { g with run := some { u with stopping := true } }) ∧
    (u.started = false → ∃ g', groupLed t (prm k 0 1) = some g' ∧ g'.run = none ∧ g'.ended = some .stopped) := by
  obtain ⟨z, hz, ht⟩ := starts_effectLeft (i := .planStop r k) hs rfl (by norm_num)
  have hgz := (hz.groupLed _).trans hg
  have he : startEffect 0x0032 z r.val k = _ := doPlanStop_unforced hp hgz hd hu hf r.val
  refine ⟨_, ht, fun h => ?_, fun h => ?_⟩
  · rw [if_pos h] at he
    obtain ⟨hd, hl, -⟩ := hz.groupTakes hg he fun _ => rfl
    rw [hu] at hl
    exact ⟨hd, hl⟩
  · rw [he, if_neg (by simp [h])]
    have hl := groupLed_lead hg
    obtain ⟨g', hg', hrun, hend⟩ := groupLed_endPlan (g := g) (hl.symm ▸ hgz) d
    exact ⟨g', hl ▸ hg', hrun, hend⟩

/-! ### `FAR_QUOTA` (R150) -/

theorem map_ownerOf_checkpointIfDue {s : State} {o : Nat} {e : Nat × MapEntry}
    (h : e ∈ (ownerOf (checkpointIfDue s) o).map) : e ∈ (ownerOf s o).map := by
  unfold checkpointIfDue at h
  split at h
  · rw [ownerOf_checkpoint] at h
    exact List.mem_of_mem_filter h
  · exact h

/-- The step of `FAR_QUOTA` for one unit. -/
def trimUnit (p : Nat) (s : State) (lun : Nat) : State :=
  modOwner (journal s jTrim p (ownerOf s p).gen lun 1 0 0 0) p fun o => { o with map := tblDel o.map lun }

theorem map_trimUnit {p lun : Nat} {e : Nat × MapEntry} (h : e ∈ (ownerOf (trimUnit p s lun) p).map) :
    e ∈ (ownerOf s p).map ∧ e.1 ≠ lun := by
  rw [trimUnit, ownerOf_modOwner_self] at h
  obtain ⟨hmem, hne⟩ := List.mem_filter.mp h
  exact ⟨map_ownerOf_checkpointIfDue hmem, by simpa using hne⟩

theorem map_foldl_trimUnit {p : Nat} {e : Nat × MapEntry} (l : List Nat) (s : State)
    (h : e ∈ (ownerOf (l.foldl (trimUnit p) s) p).map) : e ∈ (ownerOf s p).map ∧ e.1 ∉ l := by
  induction l generalizing s with
  | nil => exact ⟨h, List.not_mem_nil⟩
  | cons lun l ih =>
    obtain ⟨hmem, hl⟩ := ih _ h
    obtain ⟨hmem, hlun⟩ := map_trimUnit hmem
    exact ⟨hmem, List.not_mem_cons_of_ne_of_not_mem hlun hl⟩

/-- R150: what stands in a pane's map after a trim lies within the quota, or in the storm staging. -/
theorem map_trimBeyond {p gib : Nat} {e : Nat × MapEntry} (h : e ∈ (ownerOf (trimBeyond s p gib) p).map) :
    e.1 < gib * 65536 ∨ stagingOfs / unitBytes ≤ e.1 := by
  obtain ⟨hmem, hout⟩ := map_foldl_trimUnit _ s h
  by_contra hc
  rw [not_or, Nat.not_lt, Nat.not_le] at hc
  refine hout (List.mem_filter.mpr ⟨List.mem_map_of_mem hmem, ?_⟩)
  simp only [Bool.and_eq_true, decide_eq_true_eq]
  exact hc

theorem trimUnit_beside (p : Nat) (s : State) (lun : Nat) : (trimUnit p s lun).panes = s.panes ∧ (trimUnit p s lun).dk = s.dk ∧
    farCore (trimUnit p s lun).far = farCore s.far :=
  ⟨journal_panes s jTrim p (ownerOf s p).gen lun 1 0 0 0, journal_dk s jTrim p (ownerOf s p).gen lun 1 0 0 0,
    journal_farCore s jTrim p (ownerOf s p).gen lun 1 0 0 0⟩

theorem trimBeyond_beside (s : State) (p gib : Nat) : (trimBeyond s p gib).panes = s.panes ∧ (trimBeyond s p gib).dk = s.dk ∧
    farCore (trimBeyond s p gib).far = farCore s.far := by
  have key (l : List Nat) (s : State) : (l.foldl (trimUnit p) s).panes = s.panes ∧ (l.foldl (trimUnit p) s).dk = s.dk ∧
      farCore (l.foldl (trimUnit p) s).far = farCore s.far := by
    induction l generalizing s with
    | nil => exact ⟨rfl, rfl, rfl⟩
    | cons lun l ih =>
      obtain ⟨h1, h2, h3⟩ := ih (trimUnit p s lun)
      obtain ⟨g1, g2, g3⟩ := trimUnit_beside p s lun
      exact ⟨h1.trans g1, h2.trans g2, h3.trans g3⟩
  exact key _ s

theorem doFarQuota_idle (hp : prm k 0 1 < 16) (hi : ((groupOf s (prm k 0 1)).all fun g => !hasStart g) = true) (q : Nat) :
    doFarQuota s q k = if fitsFar (farClaims s (prm k 0 1) 16 + prm k 2 2) then
      done (modFar (trimBeyond s (prm k 0 1) (prm k 2 2)) fun t =>
        { t with quotas := tblPut 0 t.quotas (prm k 0 1) (prm k 2 2) })
      else answer s { status := stNoResource } := by
  unfold doFarQuota
  dsimp only
  rw [if_neg (by simp [badPane_lt hp])]
  cases hg : groupOf s (prm k 0 1) with
  | none => rfl
  | some g =>
    have hh : hasStart g = false := by simpa [hg] using hi
    simp only [hh, Bool.false_eq_true, if_false]

theorem exec_farQuota (hp : prm k 0 1 < 16) (hi : ((groupOf s (prm k 0 1)).all fun g => !hasStart g) = true)
    (hs : StartsAtOnce s r.val 0x0022 k) : ∃ t, exec (.farQuota r k) s = .next t ∧
    (fitsFar (farClaims s (prm k 0 1) 16 + prm k 2 2) = true → Decides t r.val stOk ∧
      t.far.quotas = tblPut 0 s.far.quotas (prm k 0 1) (prm k 2 2) ∧ t.panes = s.panes ∧
      ∀ e ∈ (ownerOf t (prm k 0 1)).map, e.1 < prm k 2 2 * 65536 ∨ stagingOfs / unitBytes ≤ e.1) ∧
    (fitsFar (farClaims s (prm k 0 1) 16 + prm k 2 2) = false →
      Decides t r.val stNoResource ∧ t.groups = s.groups ∧ t.panes = s.panes) := by
  obtain ⟨z, hz, ht⟩ := starts_effectLeft (i := .farQuota r k) hs rfl (by norm_num)
  have hgz : groupOf z (prm k 0 1) = groupOf s (prm k 0 1) := hz.keeps (groupOf · _) fun _ _ _ => rfl
  have hcz : farClaims z (prm k 0 1) 16 = farClaims s (prm k 0 1) 16 := hz.keeps (farClaims · _ _) fun _ _ _ => rfl
  have hfz : z.far.quotas = s.far.quotas := hz.keeps (fun x => x.far.quotas) fun _ _ _ => rfl
  have he : startEffect 0x0022 z r.val k = _ := doFarQuota_idle hp (hgz ▸ hi) r.val
  rw [hcz] at he
  refine ⟨_, ht, fun h => ?_, fun h => ?_⟩
  · rw [he, if_pos h]
    obtain ⟨hpn, hdk, hfar⟩ := trimBeyond_beside z (prm k 0 1) (prm k 2 2)
    have hq : (trimBeyond z (prm k 0 1) (prm k 2 2)).far.quotas = z.far.quotas := (congrArg FarTier.quotas hfar).trans rfl
    have hmap := fun e => map_trimBeyond (s := z) (p := prm k 0 1) (gib := prm k 2 2) (e := e)
    generalize trimBeyond z (prm k 0 1) (prm k 2 2) = u at hpn hdk hq hmap ⊢
    refine ⟨hz.done hdk, ?_, hpn.trans hz.panes, hmap⟩
    show tblPut 0 u.far.quotas _ _ = _
    rw [hq, hfz]
  · rw [if_neg (by simp [h])] at he
    exact hz.refused he

/-! ### `LATCH_ALLOC` (R208) -/

theorem latchList_allocBlock (s : State) (p b : Nat) : (pane (allocBlock s p b) p).latchList =
    (pane s p).latchList ++ (List.range 256).map (256 * b + ·) := by
  unfold allocBlock
  dsimp only
  generalize List.range 256 = l
  rw [pane_modPane_self]
  rfl

theorem latchList_foldl_allocBlock (p : Nat) (l : List Nat) (s : State) :
    (pane (l.foldl (fun s b => allocBlock s p b) s) p).latchList =
      (pane s p).latchList ++ l.flatMap fun b => (List.range 256).map (256 * b + ·) := by
  induction l generalizing s with
  | nil => exact (List.append_nil _).symm
  | cons b l ih => rw [List.foldl_cons, ih, latchList_allocBlock, List.flatMap_cons, List.append_assoc]

theorem doLatchAlloc_idle (hp : prm k 0 1 < 16) (ho : (pane s (prm k 0 1)).state = .opened)
    (hg : groupOf s (prm k 0 1) = some g) (hh : hasStart g = false) (q : Nat) : doLatchAlloc s q k =
      if ((List.range 256).filter (blockFree s)).length < prm k 2 2 then answer s { status := stNoResource }
      else done ((((List.range 256).filter (blockFree s)).take (prm k 2 2)).foldl (fun s b => allocBlock s (prm k 0 1) b) s) := by
  unfold doLatchAlloc
  dsimp only
  rw [if_neg (by simp [badPane_lt hp]), if_neg (by simp [ho]), hg]
  exact if_neg (by simp [hh])

theorem exec_latchAlloc (hp : prm k 0 1 < 16) (ho : (pane s (prm k 0 1)).state = .opened)
    (hg : groupOf s (prm k 0 1) = some g) (hh : hasStart g = false)
    (hs : StartsAtOnce s r.val 0x0023 k) : ∃ t, exec (.latchAlloc r k) s = .next t ∧
    (prm k 2 2 ≤ ((List.range 256).filter (blockFree s)).length → Decides t r.val stOk ∧
      (pane t (prm k 0 1)).latchList = (pane s (prm k 0 1)).latchList ++
        (((List.range 256).filter (blockFree s)).take (prm k 2 2)).flatMap fun b => (List.range 256).map (256 * b + ·)) ∧
    (((List.range 256).filter (blockFree s)).length < prm k 2 2 →
      Decides t r.val stNoResource ∧ t.groups = s.groups ∧ t.panes = s.panes) := by
  obtain ⟨z, hz, ht⟩ := starts_effectLeft (i := .latchAlloc r k) hs rfl (by norm_num)
  have hgz : groupOf z (prm k 0 1) = groupOf s (prm k 0 1) := hz.keeps (groupOf · _) fun _ _ _ => rfl
  have hbz : blockFree z = blockFree s := hz.keeps blockFree fun _ _ _ => rfl
  have he : startEffect 0x0023 z r.val k = _ := doLatchAlloc_idle hp (hz.pane _ ▸ ho) (hgz.trans hg) hh r.val
  rw [hbz] at he
  refine ⟨_, ht, fun h => ?_, fun h => ?_⟩
  · rw [he, if_neg (Nat.not_lt.mpr h), ← hz.pane]
    generalize ((List.range 256).filter (blockFree s)).take (prm k 2 2) = l
    have hl := latchList_foldl_allocBlock (prm k 0 1) l z
    have hdk := foldl_dk (fun s b => allocBlock s (prm k 0 1) b) (fun _ _ => rfl) l z
    generalize List.foldl (fun s b => allocBlock s (prm k 0 1) b) z l = u at hl hdk ⊢
    exact ⟨hz.done hdk, hl⟩
  · rw [if_pos h] at he
    exact hz.refused he

/-! ### `COORD_LOAD` and `IDENTITY_SET` (R136, R231, R487) -/

theorem endWait_beside (s : State) : (endWait s).dk = s.dk ∧ (endWait s).power = s.power ∧ (endWait s).panes = s.panes ∧
    (endWait s).links.coord = s.links.coord := by
  unfold endWait
  split
  · exact ⟨rfl, rfl, rfl, rfl⟩
  · exact ⟨rfl, rfl, rfl, rfl⟩

theorem doCoordLoad_idle {b : List Byte} (hi : ∀ g ∈ s.groups, hasStart g = false) (hb : bulkData k = some b) (q : Nat) :
    doCoordLoad s q k = if b.length ≠ 4 + 8 * leAt b 0 4 then answer s badBulkLen
      else done (endWait { s with
        links := { s.links with coord := parseCoord b }, power := { s.power with coordLoaded := true } }) := by
  unfold doCoordLoad
  dsimp only
  rw [List.find?_eq_none.mpr fun g hg => by simp [hi g hg], hb]

theorem exec_coordLoad {b : List Byte} (hi : ∀ g ∈ s.groups, hasStart g = false) (hb : bulkData k = some b)
    (hs : StartsAtOnce s r.val 0x0025 k) : ∃ t, exec (.coordLoad r k) s = .next t ∧
    (b.length = 4 + 8 * leAt b 0 4 → Decides t r.val stOk ∧ t.links.coord = parseCoord b ∧ t.power.coordLoaded = true ∧
      t.panes = s.panes) ∧
    (b.length ≠ 4 + 8 * leAt b 0 4 → Decides t r.val stBadParam ∧ t.links.coord = s.links.coord) := by
  obtain ⟨z, hz, ht⟩ := starts_effectLeft (i := .coordLoad r k) hs rfl (by norm_num)
  have he : startEffect 0x0025 z r.val k = _ := doCoordLoad_idle (hz.groups ▸ hi) hb r.val
  refine ⟨_, ht, fun h => ?_, fun h => ?_⟩
  · rw [he, if_neg (not_not.mpr h)]
    obtain ⟨hdk, hpw, hpn, hc⟩ := endWait_beside { z with
      links := { z.links with coord := parseCoord b }, power := { z.power with coordLoaded := true } }
    generalize endWait { z with
      links := { z.links with coord := parseCoord b }, power := { z.power with coordLoaded := true } } = u at hdk hpw hpn hc ⊢
    exact ⟨hz.done hdk, hc, congrArg PowerUnit.coordLoaded hpw, hpn.trans hz.panes⟩
  · rw [he, if_pos h]
    exact ⟨hz.answers _, hz.keeps (fun x => x.links.coord) fun _ _ _ => rfl⟩

theorem doIdentitySet_free (h : ∀ n, n < 16 → holdsContext s n = false) (q : Nat) : doIdentitySet s q k =
    done (endWait { s with power := { s.power with
      identity := some (BitVec.ofNat 16 (prm k 0 2)), startId := some (BitVec.ofNat 16 (prm k 0 2))
      idConfig := BitVec.ofNat 8 (prm k 2 1) } }) := by
  unfold doIdentitySet
  rw [List.find?_eq_none.mpr fun n hn => by simp [h n (List.mem_range.mp hn)]]

theorem doIdentitySet_held {n : Nat} (hn : n < 16) (h : holdsContext s n = true) (q : Nat) :
    ∃ p, doIdentitySet s q k = answer s (badState s p) := by
  obtain ⟨p, hp⟩ := Option.isSome_iff_exists.mp (List.find?_isSome.mpr ⟨n, List.mem_range.mpr hn, h⟩)
  refine ⟨p, ?_⟩
  unfold doIdentitySet
  rw [hp]

theorem exec_identitySet (hs : StartsAtOnce s r.val 0x0026 k) : ∃ t, exec (.identitySet r k) s = .next t ∧
    ((∀ n, n < 16 → holdsContext s n = false) → Decides t r.val stOk ∧
      t.power.identity = some (BitVec.ofNat 16 (prm k 0 2)) ∧ t.power.idConfig = BitVec.ofNat 8 (prm k 2 1) ∧
      t.panes = s.panes) ∧
    (∀ n, n < 16 → holdsContext s n = true → Decides t r.val stBadState ∧ t.power.identity = s.power.identity) := by
  obtain ⟨z, hz, ht⟩ := starts_effectLeft (i := .identitySet r k) hs rfl (by norm_num)
  have hc : holdsContext z = holdsContext s := hz.keeps holdsContext fun _ _ _ => rfl
  refine ⟨_, ht, fun h => ?_, fun n hn h => ?_⟩
  · have he : startEffect 0x0026 z r.val k = _ := doIdentitySet_free (hc ▸ h) r.val
    rw [he]
    obtain ⟨hdk, hpw, hpn, -⟩ := endWait_beside { z with power := { z.power with
      identity := some (BitVec.ofNat 16 (prm k 0 2)), startId := some (BitVec.ofNat 16 (prm k 0 2))
      idConfig := BitVec.ofNat 8 (prm k 2 1) } }
    generalize endWait { z with power := { z.power with
      identity := some (BitVec.ofNat 16 (prm k 0 2)), startId := some (BitVec.ofNat 16 (prm k 0 2))
      idConfig := BitVec.ofNat 8 (prm k 2 1) } } = u at hdk hpw hpn ⊢
    exact ⟨hz.done hdk, congrArg PowerUnit.identity hpw, congrArg PowerUnit.idConfig hpw, hpn.trans hz.panes⟩
  · obtain ⟨p, hp⟩ := doIdentitySet_held hn (hc ▸ h) r.val
    have he : startEffect 0x0026 z r.val k = _ := hp
    rw [he]
    exact ⟨hz.answers _, hz.keeps (fun x => x.power.identity) fun _ _ _ => rfl⟩

end Sys2Proof.Machine

open Sys2Proof Sys2Proof.Machine

/-- Settles O51: each command by its effect on the state in which it starts; a trim leaves what lies within the quota. -/
theorem allocationAndPlanCommands : Obligations.AllocationAndPlanCommands := by
  unfold Obligations.AllocationAndPlanCommands
  intro s r k q p starts refused
  refine ⟨fun g hp hg hh => ?_, fun g hp hg hh => ?_, ?_⟩
  · exact ⟨fun hs => starts_active (f := fun z _ => _) hs rfl (by norm_num) hp hg hh fun _ => rfl,
      fun hs => starts_active (f := fun z _ => _) hs rfl (by norm_num) hp hg hh fun _ => rfl,
      fun hs => starts_active (f := fun z _ => _) hs rfl (by norm_num) hp hg hh fun _ => rfl⟩
  · exact ⟨exec_slotAlloc hp hg hh, exec_streamShare hp hg hh, exec_jobMapLoad hp hg hh, exec_planLoad hp hg hh,
      exec_planStart hp hg⟩
  · exact ⟨fun g d u hp hg hd hu hf => exec_planStop hp hg hd hu hf, fun hp hi => exec_farQuota hp hi,
      fun g hp ho hg hh => exec_latchAlloc hp ho hg hh, fun hi b hb => exec_coordLoad hi hb, exec_identitySet⟩

end


section
/-! PROOFS. The commands on windows, keys and latches (Table 14-11, R199, R200, R203, R205, R216). -/

namespace Sys2Proof.Machine

variable {s z : State} {r : Req} {k : Packet}

/-! ### `WINDOW_GRANT` and `WINDOW_REVOKE` (R199, R200, R203) -/

theorem doWindowGrant_unopened (hp : prm k 0 1 < 16) (ho : (pane s (prm k 0 1)).state ≠ .opened) (q : Nat) :
    doWindowGrant s q k = answer s (badState s (prm k 0 1)) := by
  unfold doWindowGrant
  dsimp only
  rw [if_neg (by simp [badPane_lt hp]), if_pos ho]

theorem doWindowGrant_refused {o : Nat} (hp : prm k 0 1 < 16) (ho : (pane s (prm k 0 1)).state = .opened)
    (hg : grantRefusal s (prm k 0 1) k = some o) (q : Nat) : doWindowGrant s q k = answer s (badParam o) := by
  unfold doWindowGrant
  dsimp only
  rw [if_neg (by simp [badPane_lt hp]), if_neg (not_not.mpr ho), hg]

theorem doWindowGrant_full (hp : prm k 0 1 < 16) (ho : (pane s (prm k 0 1)).state = .opened)
    (hg : grantRefusal s (prm k 0 1) k = none) (hc : closedEntry s (prm k 0 1) = none) (q : Nat) :
    doWindowGrant s q k = answer s { status := stNoResource } := by
  unfold doWindowGrant
  dsimp only
  rw [if_neg (by simp [badPane_lt hp]), if_neg (not_not.mpr ho), hg, hc]

theorem exec_windowGrant (hs : StartsAtOnce s r.val 0x0040 k) : ∃ t, exec (.windowGrant r k) s = .next t ∧
    (prm k 0 1 < 16 → (pane s (prm k 0 1)).state = .opened → grantRefusal s (prm k 0 1) k = none →
      closedEntry s (prm k 0 1) ≠ none → RunsOn t r.val ∧ t.panes = s.panes) ∧
    (prm k 0 1 < 16 → (pane s (prm k 0 1)).state = .opened → grantRefusal s (prm k 0 1) k ≠ none →
      Decides t r.val stBadParam ∧ t.panes = s.panes) ∧
    (prm k 0 1 < 16 → (pane s (prm k 0 1)).state = .opened → grantRefusal s (prm k 0 1) k = none →
      closedEntry s (prm k 0 1) = none → Decides t r.val stNoResource ∧ t.panes = s.panes) ∧
    (prm k 0 1 < 16 → (pane s (prm k 0 1)).state ≠ .opened → Decides t r.val stBadState ∧ t.panes = s.panes) := by
  obtain ⟨z, hz, ht⟩ := starts_effectLeft (i := .windowGrant r k) hs rfl (by norm_num)
  have hgz : grantRefusal z = grantRefusal s := hz.keeps grantRefusal fun _ _ _ => rfl
  have hcz : closedEntry z = closedEntry s := hz.keeps closedEntry fun _ _ _ => rfl
  refine ⟨_, ht, ?_⟩
  rw [← hz.pane, ← hgz, ← hcz]
  refine ⟨fun hp ho hg hc => ?_, fun hp ho hg => ?_, fun hp ho hg hc => ?_, fun hp ho => ?_⟩
  · obtain ⟨i, hi⟩ := Option.ne_none_iff_exists'.mp hc
    rw [startEffect_delivered (op := 0x0040) (k := k) rfl (doWindowGrant_grants hp ho hg hi r.val) rfl]
    exact ⟨hz.running, hz.panes⟩
  · obtain ⟨o, hog⟩ := Option.ne_none_iff_exists'.mp hg
    obtain ⟨hd, -, hpn⟩ := hz.refused (startEffect_refused (op := 0x0040) (k := k) (doWindowGrant_refused hp ho hog r.val)
      (by show stBadParam ≠ stOk; decide))
    exact ⟨hd, hpn⟩
  · obtain ⟨hd, -, hpn⟩ := hz.refused (startEffect_refused (op := 0x0040) (k := k) (doWindowGrant_full hp ho hg hc r.val)
      (by show stNoResource ≠ stOk; decide))
    exact ⟨hd, hpn⟩
  · obtain ⟨hd, -, hpn⟩ := hz.refused (startEffect_refused (op := 0x0040) (k := k) (doWindowGrant_unopened hp ho r.val)
      (by show stBadState ≠ stOk; decide))
    exact ⟨hd, hpn⟩

/-- A window table with an entry that is being revoked. -/
def revoking (i : Nat) (u : RmoUnit) : RmoUnit :=
  { u with windows := tblSet u.windows i { tblGet windowZero u.windows i with wstate := 2 } }

theorem doWindowRevoke_opened (hp : prm k 0 1 < 16)
    (hw : (tblGet windowZero (rmoOf s (prm k 0 1)).windows (prm k 1 1)).wstate = 1) (q : Nat) :
    doWindowRevoke s q k = goesOn (modRmo s (prm k 0 1) (revoking (prm k 1 1))) := by
  unfold doWindowRevoke
  dsimp only
  rw [if_neg (by simp [badPane_lt hp]), if_neg (not_not.mpr hw)]
  rfl

theorem doWindowRevoke_closed (hp : prm k 0 1 < 16)
    (hw : (tblGet windowZero (rmoOf s (prm k 0 1)).windows (prm k 1 1)).wstate ≠ 1) (q : Nat) :
    doWindowRevoke s q k = answer s (badState s (prm k 0 1)) := by
  unfold doWindowRevoke
  dsimp only
  rw [if_neg (by simp [badPane_lt hp]), if_pos hw]

theorem pane_modRmo_ne {p m : Nat} (h : m ≠ p) (s : State) (f : RmoUnit → RmoUnit) : pane (modRmo s p f) m = pane s m :=
  (pane_modPane s p m _).trans (if_neg h)

theorem exec_windowRevoke (hs : StartsAtOnce s r.val 0x0041 k) : ∃ t, exec (.windowRevoke r k) s = .next t ∧
    (prm k 0 1 < 16 →
      ((tblGet windowZero (rmoOf s (prm k 0 1)).windows (prm k 1 1)).wstate = 1 → RunsOn t r.val ∧
        tblGet windowZero (rmoOf t (prm k 0 1)).windows (prm k 1 1) =
          { tblGet windowZero (rmoOf s (prm k 0 1)).windows (prm k 1 1) with wstate := 2 } ∧
        (∀ n, n ≠ prm k 1 1 → tblGet windowZero (rmoOf t (prm k 0 1)).windows n =
          tblGet windowZero (rmoOf s (prm k 0 1)).windows n) ∧
        ∀ m, m ≠ prm k 0 1 → pane t m = pane s m) ∧
      ((tblGet windowZero (rmoOf s (prm k 0 1)).windows (prm k 1 1)).wstate ≠ 1 →
        Decides t r.val stBadState ∧ t.panes = s.panes)) := by
  obtain ⟨z, hz, ht⟩ := starts_effectLeft (i := .windowRevoke r k) hs rfl (by norm_num)
  have hrz : rmoOf s (prm k 0 1) = rmoOf z (prm k 0 1) := (hz.keeps (rmoOf · _) fun _ _ _ => rfl).symm
  refine ⟨_, ht, fun hp => ?_⟩
  rw [hrz]
  refine ⟨fun hw => ?_, fun hw => ?_⟩
  · have he : startEffect 0x0041 z r.val k = _ := doWindowRevoke_opened hp hw r.val
    rw [he]
    refine ⟨hz.runsOn rfl, ?_, fun n hn => ?_, fun m hm => (pane_modRmo_ne hm ..).trans (hz.pane m)⟩
    · refine (congrArg (fun u : RmoUnit => tblGet windowZero u.windows (prm k 1 1)) (rmoOf_modRmo_self z _ _)).trans ?_
      exact tblGet_tblSet_self ..
    · refine (congrArg (fun u : RmoUnit => tblGet windowZero u.windows n) (rmoOf_modRmo_self z _ _)).trans ?_
      exact tblGet_tblSet_ne _ _ _ _ _ hn
  · have he : startEffect 0x0041 z r.val k = _ := doWindowRevoke_closed hp hw r.val
    rw [he]
    exact ⟨hz.answers _, hz.panes⟩

/-! ### `SEAL_KEY` (R205) -/

/-- A pane's keys with a new one in a slot, that is in use from now on. -/
def sealedWith (slot : Nat) (key : BitVec 256) (u : RmoUnit) : RmoUnit :=
  { u with keys := tblSet u.keys slot { key := some key, counter := 0 }, keySel := slot }

theorem doSealKey_opened {q : Nat} (hp : prm k 0 1 ≤ 1) (ho : (pane s (q - 1)).state = .opened) :
    doSealKey s q k = done (modRmo s (q - 1) (sealedWith (prm k 0 1) (BitVec.ofNat 256 (prm k 8 32)))) := by
  unfold doSealKey
  dsimp only
  rw [if_neg (Nat.not_lt.mpr hp), if_neg (not_not.mpr ho)]
  rfl

theorem exec_sealKey (hs : StartsAtOnce s r.val 0x0042 k) : ∃ t, exec (.sealKey r k) s = .next t ∧
    (prm k 0 1 ≤ 1 → (pane s (r.val - 1)).state = .opened → Decides t r.val stOk ∧
      (rmoOf t (r.val - 1)).keySel = prm k 0 1 ∧ tblFind (rmoOf t (r.val - 1)).keys (prm k 0 1) =
        some { key := some (BitVec.ofNat 256 (prm k 8 32)), counter := 0 } ∧
      ∀ m, m ≠ r.val - 1 → pane t m = pane s m) ∧
    (1 < prm k 0 1 → Decides t r.val stBadParam ∧ t.panes = s.panes) := by
  obtain ⟨z, hz, ht⟩ := starts_effectLeft (i := .sealKey r k) hs rfl (by norm_num)
  refine ⟨_, ht, fun hp ho => ?_, fun hp => ?_⟩
  · have he : startEffect 0x0042 z r.val k = _ := doSealKey_opened hp (hz.pane _ ▸ ho)
    rw [he]
    refine ⟨hz.done rfl, ?_, ?_, fun m hm => (pane_modRmo_ne hm ..).trans (hz.pane m)⟩
    · exact congrArg RmoUnit.keySel (rmoOf_modRmo_self z (r.val - 1) (sealedWith _ _))
    · refine (congrArg (fun u : RmoUnit => tblFind u.keys (prm k 0 1)) (rmoOf_modRmo_self z (r.val - 1) (sealedWith _ _))).trans ?_
      exact tblFind_tblSet_self ..
  · have he : startEffect 0x0042 z r.val k = answer z (badParam 0) := if_pos hp
    rw [he]
    exact ⟨hz.answers _, hz.panes⟩

/-! ### `LATCH_ORPHAN` (R216) -/

/-- A latch whose holder is lost. -/
def orphaned (l : Latch) : Latch :=
  match l.queue with
  | w :: u => grantTo { l with queue := u } w
  | [] => { l with state := laOrphaned }

theorem orphaned_idle {l : Latch} (h : l.queue = []) : orphaned l = { l with state := laOrphaned } := by
  unfold orphaned
  rw [h]

theorem orphaned_awaited {l : Latch} {w : Waiter} {u : List Waiter} (h : l.queue = w :: u) :
    orphaned l = grantTo { l with queue := u } w := by
  unfold orphaned
  rw [h]

theorem latches_orphanLatch (s : State) (i : Nat) :
    (orphanLatch s i).latches = tblPut latchZero s.latches i (orphaned (latchOf s i)) := by
  unfold orphanLatch
  dsimp only
  cases hq : (latchOf s i).queue with
  | nil => rw [orphaned_idle hq]; rfl
  | cons w u =>
    dsimp only
    unfold grantNext
    dsimp only
    rw [hq]
    dsimp only
    rw [latches_eq_of_besidePanes (besidePanes_answerWaiter _ _ _ _ _), orphaned_awaited hq]
    rfl

theorem latchOf_orphanLatch {s : State} (h : tblWf latchZero s.latches = true) (i j : Nat) :
    latchOf (orphanLatch s i) j = if j = i then orphaned (latchOf s i) else latchOf s j := by
  rw [latchOf, latches_orphanLatch, tblGet_tblPut _ _ _ _ _ h]
  rfl

theorem latchOf_foldl_orphanLatch {l : List Nat} (hn : l.Nodup) {s : State} (h : tblWf latchZero s.latches = true)
    (j : Nat) : latchOf (l.foldl orphanLatch s) j = if j ∈ l then orphaned (latchOf s j) else latchOf s j := by
  induction l generalizing s with
  | nil => rfl
  | cons i l ih =>
    obtain ⟨hi, hl⟩ := List.nodup_cons.mp hn
    have hw : tblWf latchZero (orphanLatch s i).latches = true := by
      rw [latches_orphanLatch]
      exact tblWf_tblPut _ _ _ _ h
    rw [List.foldl_cons, ih hl hw, latchOf_orphanLatch h]
    by_cases hj : j = i
    · subst hj
      simp [hi]
    · simp [hj]

/-- A table in canonical form names each key once. -/
theorem nodup_keys {β : Type} [DecidableEq β] {d : β} {t : Tbl β} (h : tblWf d t = true) : (t.map Prod.fst).Nodup := by
  have key (lo : Option Nat) (t : Tbl β) (h : tblWfFrom d lo t = true) : (t.map Prod.fst).Nodup := by
    induction t generalizing lo with
    | nil => exact List.nodup_nil
    | cons e t ih =>
      obtain ⟨a, v⟩ := e
      have hr : tblWfFrom d (some a) t = true := by
        cases lo with
        | none =>
          simp only [tblWfFrom, Bool.and_eq_true] at h
          exact h.2
        | some _ =>
          simp only [tblWfFrom, Bool.and_eq_true] at h
          exact h.2
      refine List.nodup_cons.mpr ⟨fun hm => ?_, ih _ hr⟩
      obtain ⟨x, hx, hax⟩ := List.mem_map.mp hm
      have := lt_of_mem hr hx
      omega
  exact key none t h

/-- R216: every latch that the lost holder holds is given up, and no other changes. -/
theorem latchOf_orphanAll {s : State} (h : tblWf latchZero s.latches = true) (device : BitVec 16) (p : BitVec 4)
    (epoch : BitVec 16) (j : Nat) : latchOf (orphanAll s device p epoch) j =
      if latchHolder (latchOf s j) device p epoch = true then orphaned (latchOf s j) else latchOf s j := by
  have hmem : j ∈ ((s.latches.filter fun e => latchHolder e.2 device p epoch).map Prod.fst) ↔
      latchHolder (latchOf s j) device p epoch = true := by
    constructor
    · intro hm
      obtain ⟨⟨a, l⟩, hx, rfl⟩ := List.mem_map.mp hm
      obtain ⟨hx, hh⟩ := List.mem_filter.mp hx
      have hl : latchOf s a = l := ((mem_iff_tblGet h a l).mp hx).1
      rw [hl]
      exact hh
    · intro hh
      have hne : latchOf s j ≠ latchZero := fun he => by
        rw [he] at hh
        simp [latchHolder, latchZero, laHeld] at hh
      exact List.mem_map.mpr ⟨(j, latchOf s j), List.mem_filter.mpr ⟨(mem_iff_tblGet h j _).mpr ⟨rfl, hne⟩, hh⟩, rfl⟩
  have hnodup : ((s.latches.filter fun e => latchHolder e.2 device p epoch).map Prod.fst).Nodup :=
    nodup_keys (tblWf_filter latchZero s.latches _ h)
  refine (latchOf_foldl_orphanLatch hnodup h j).trans ?_
  rw [if_congr hmem rfl rfl]

theorem exec_latchOrphan (hw : tblWf latchZero s.latches = true) (hp : prm k 2 1 < 16)
    (hs : StartsAtOnce s r.val 0x0043 k) : ∃ t, exec (.latchOrphan r k) s = .next t ∧ Decides t r.val stOk ∧ ∀ i,
      latchOf t i = if latchHolder (latchOf s i) (BitVec.ofNat 16 (prm k 0 2)) (BitVec.ofNat 4 (prm k 2 1))
        (BitVec.ofNat 16 (prm k 4 2)) = true then orphaned (latchOf s i) else latchOf s i := by
  obtain ⟨z, hz, ht⟩ := starts_effectLeft (i := .latchOrphan r k) hs rfl (by norm_num)
  have he : startEffect 0x0043 z r.val k = done (orphanAll z (BitVec.ofNat 16 (prm k 0 2)) (BitVec.ofNat 4 (prm k 2 1))
      (BitVec.ofNat 16 (prm k 4 2))) := if_neg (by simp [badPane_lt hp])
  have hl : z.latches = s.latches := hz.keeps State.latches fun _ _ _ => rfl
  have hlz (i : Nat) : latchOf z i = latchOf s i := hz.keeps (latchOf · i) fun _ _ _ => rfl
  refine ⟨_, ht, ?_⟩
  rw [he]
  have hdk := orphanAll_dk z (BitVec.ofNat 16 (prm k 0 2)) (BitVec.ofNat 4 (prm k 2 1)) (BitVec.ofNat 16 (prm k 4 2))
  have hall := latchOf_orphanAll (hl ▸ hw) (BitVec.ofNat 16 (prm k 0 2)) (BitVec.ofNat 4 (prm k 2 1))
    (BitVec.ofNat 16 (prm k 4 2))
  generalize orphanAll z (BitVec.ofNat 16 (prm k 0 2)) (BitVec.ofNat 4 (prm k 2 1)) (BitVec.ofNat 16 (prm k 4 2)) = u
    at hdk hall ⊢
  refine ⟨hz.done hdk, fun i => (hall i).trans ?_⟩
  rw [hlz]

end Sys2Proof.Machine

open Sys2Proof Sys2Proof.Machine

/-- Settles O52: each command by its effect on the state in which it starts; the latches of a lost holder one after the
other. -/
theorem windowKeyAndLatchCommands : Obligations.WindowKeyAndLatchCommands := by
  unfold Obligations.WindowKeyAndLatchCommands
  intro s r k q p starts
  refine ⟨exec_windowGrant, exec_windowRevoke, exec_sealKey, fun hw hp hs => ?_⟩
  obtain ⟨t, ht, hd, hall⟩ := exec_latchOrphan hw hp hs
  refine ⟨t, ht, hd, fun i => ⟨fun hh => ?_, fun hh hq => ?_, fun w u hh hq => ?_⟩⟩
  · rw [hall, if_neg (by simp [show _ = false from hh])]
  · rw [hall, if_pos hh, orphaned_idle hq]
    rfl
  · rw [hall, if_pos hh, orphaned_awaited hq]
    rfl

end


section
/-! PROOFS. The far-tier and storm commands (Table 14-11, R150, R155, R175, R181, R183, R386, R388, R393, R396, R520). -/

namespace Sys2Proof.Machine

variable {s z u : State} {r : Req} {k : Packet} {g : Group} {q : Nat}

/-! ### A running command notes what it writes (R378) -/

theorem runsOn_setWriting (h : RunsOn u q) (l : List (Nat × Nat × Nat)) : RunsOn (setWriting u q l) q := by
  obtain ⟨j, hj, hs, ho⟩ := h
  refine ⟨{ j with writing := l }, ?_, hs, ho⟩
  unfold setWriting
  rw [mbx_modMbx, if_pos rfl]
  show (mbx u q).job.map _ = _
  rw [hj]
  rfl

theorem decides_of_runsOn (h : RunsOn u q) (a : Ans) : Decides (decideJob u q a) q a.status := by
  obtain ⟨j, hj, hs, -⟩ := h
  exact decides_decideJob a hj hs

/-! ### What a copy from the far tier does not look at -/

/-- A state at another desk: with other mailboxes, another host's side and another sideband. -/
def atDesk (fm : FmUnit) (dk : Doorkeeper) (host : HostUnit) (s : State) : State := { s with fm := fm, dk := dk, host := host }

section
variable (fm : FmUnit) (dk : Doorkeeper) (host : HostUnit)

theorem foldl_atDesk {α : Type} {f : State → α → State} (hf : ∀ s x, f (atDesk fm dk host s) x = atDesk fm dk host (f s x))
    (l : List α) (s : State) : l.foldl f (atDesk fm dk host s) = atDesk fm dk host (l.foldl f s) := by
  induction l generalizing s with
  | nil => rfl
  | cons x l ih => rw [List.foldl_cons, List.foldl_cons, hf, ih]

theorem countRead_atDesk (s : State) (o lun : Nat) :
    countRead (atDesk fm dk host s) o lun = atDesk fm dk host (countRead s o lun) := by
  have hm : mappedAt (atDesk fm dk host s) o lun = mappedAt s o lun := rfl
  unfold countRead
  rw [hm]
  cases mappedAt s o lun with
  | none => rfl
  | some p => rfl

theorem farToNear_atDesk (s : State) (o ofs n : Nat) (dests : List (Nat × Nat)) :
    farToNear (atDesk fm dk host s) o ofs n dests = atDesk fm dk host (farToNear s o ofs n dests) := by
  refine foldl_atDesk fm dk host (fun s e => ?_) _ s
  have hr : readUnit (atDesk fm dk host s) o e.1 e.2.1 e.2.2 = readUnit s o e.1 e.2.1 e.2.2 := rfl
  dsimp only
  rw [hr, countRead_atDesk]
  refine foldl_atDesk fm dk host (fun s x => ?_) _ _
  cases readUnit _ o e.1 e.2.1 e.2.2 with
  | none => rfl
  | some b => rfl

end

theorem farToNear_groups (s : State) (o ofs n : Nat) (dests : List (Nat × Nat)) :
    (farToNear s o ofs n dests).groups = s.groups := by
  refine foldl_groups _ (fun s e => ?_) _ s
  dsimp only
  refine (foldl_groups _ (fun s x => ?_) _ _).trans (countRead_groups ..)
  cases readUnit _ o e.1 e.2.1 e.2.2 with
  | none => rfl
  | some b => rfl

theorem farToNear_handed (h : Handed s z q) (o ofs n : Nat) (dests : List (Nat × Nat)) :
    (farToNear z o ofs n dests).panes = (farToNear s o ofs n dests).panes := by
  obtain ⟨fm, dk, host, hz⟩ := h.same
  have hz : z = atDesk fm dk host s := hz
  rw [hz, farToNear_atDesk]
  rfl

/-! ### `SWAP_IN` and `SWAP_OUT` (R155, R175, R181, R183) -/

theorem doSwapIn_copies (hp : prm k 0 1 < 16) (hm : BitVec.ofNat 16 (prm k 6 2) ≠ 0)
    (hsub : BitVec.ofNat 16 (prm k 6 2) &&& ~~~(callerGroup s (prm k 0 1)) = 0)
    (hfar : adrOk s (callerGroup s (prm k 0 1)) 1 (BitVec.ofNat 64 (prm k 8 8)) = true)
    (hquota : inQuota s (BitVec.ofNat 64 (prm k 8 8)) (prm k 24 8) = true)
    (hdev : BitVec.ofNat 16 (gaDevice (BitVec.ofNat 64 (prm k 16 8))) = moduleId s)
    (htier : gaTier (BitVec.ofNat 64 (prm k 16 8)) = 0) (hnear : nearOk (gaOfs (BitVec.ofNat 64 (prm k 16 8))) (prm k 24 8) = true)
    (hlead : startedLead s (prm k 0 1) = none) (q : Nat) : ∃ l, doSwapIn s q k =
      (setWriting (farToNear s (gaPane (BitVec.ofNat 64 (prm k 8 8))) (gaOfs (BitVec.ofNat 64 (prm k 8 8))) (prm k 24 8)
          (spread (BitVec.ofNat 16 (prm k 6 2)) (BitVec.ofNat 64 (prm k 16 8)))) q l,
        some (if farPoison s (gaPane (BitVec.ofNat 64 (prm k 8 8))) (gaOfs (BitVec.ofNat 64 (prm k 8 8))) (prm k 24 8)
          then { status := stMediaError } else ansOk)) := by
  unfold doSwapIn
  dsimp only
  rw [if_neg (by simp [badPane_lt hp]), if_neg (by simpa [hsub] using hm), if_neg (by simp [hfar, hquota]),
    if_neg (by simp [hdev, htier, hnear]), hlead]
  exact ⟨_, rfl⟩

theorem exec_swapIn (hp : prm k 0 1 < 16) (hm : BitVec.ofNat 16 (prm k 6 2) ≠ 0)
    (hsub : BitVec.ofNat 16 (prm k 6 2) &&& ~~~(callerGroup s (prm k 0 1)) = 0)
    (hfar : adrOk s (callerGroup s (prm k 0 1)) 1 (BitVec.ofNat 64 (prm k 8 8)) = true ∧
      inQuota s (BitVec.ofNat 64 (prm k 8 8)) (prm k 24 8) = true)
    (hlocal : BitVec.ofNat 16 (gaDevice (BitVec.ofNat 64 (prm k 16 8))) = moduleId s ∧
      gaTier (BitVec.ofNat 64 (prm k 16 8)) = 0 ∧ nearOk (gaOfs (BitVec.ofNat 64 (prm k 16 8))) (prm k 24 8) = true)
    (hlead : startedLead s (prm k 0 1) = none) (hs : StartsAtOnce s r.val 0x0050 k) :
    ∃ t, exec (.swapIn r k) s = .next t ∧
      Decides t r.val (if farPoison s (gaPane (BitVec.ofNat 64 (prm k 8 8))) (gaOfs (BitVec.ofNat 64 (prm k 8 8)))
        (prm k 24 8) then stMediaError else stOk) ∧
      t.panes = (farToNear s (gaPane (BitVec.ofNat 64 (prm k 8 8))) (gaOfs (BitVec.ofNat 64 (prm k 8 8))) (prm k 24 8)
        (spread (BitVec.ofNat 16 (prm k 6 2)) (BitVec.ofNat 64 (prm k 16 8)))).panes ∧ t.groups = s.groups := by
  obtain ⟨z, hz, ht⟩ := starts_effectLeft (i := .swapIn r k) hs rfl (by norm_num)
  have hcg : callerGroup z (prm k 0 1) = callerGroup s (prm k 0 1) := hz.keeps (callerGroup · _) fun _ _ _ => rfl
  have hadr : adrOk z = adrOk s := hz.keeps adrOk fun _ _ _ => rfl
  have hin : inQuota z = inQuota s := hz.keeps inQuota fun _ _ _ => rfl
  have hid : moduleId z = moduleId s := hz.keeps moduleId fun _ _ _ => rfl
  have hl : startedLead z = startedLead s := hz.keeps startedLead fun _ _ _ => rfl
  have hps : farPoison z = farPoison s := hz.keeps farPoison fun _ _ _ => rfl
  obtain ⟨hdev, htier, hnear⟩ := hlocal
  obtain ⟨l, hd⟩ := doSwapIn_copies (s := z) hp hm (by rw [hcg]; exact hsub) (by rw [hadr, hcg]; exact hfar.1)
    (by rw [hin]; exact hfar.2) (hdev.trans hid.symm) htier hnear (by rw [hl]; exact hlead) r.val
  have he : startEffect 0x0050 z r.val k = _ := hd
  refine ⟨_, ht, ?_⟩
  rw [he, hps, ← farToNear_handed hz]
  generalize spread (BitVec.ofNat 16 (prm k 6 2)) (BitVec.ofNat 64 (prm k 16 8)) = dests
  have hdk := farToNear_dk z (gaPane (BitVec.ofNat 64 (prm k 8 8))) (gaOfs (BitVec.ofNat 64 (prm k 8 8))) (prm k 24 8) dests
  have hgr := farToNear_groups z (gaPane (BitVec.ofNat 64 (prm k 8 8))) (gaOfs (BitVec.ofNat 64 (prm k 8 8))) (prm k 24 8) dests
  generalize farToNear z (gaPane (BitVec.ofNat 64 (prm k 8 8))) (gaOfs (BitVec.ofNat 64 (prm k 8 8))) (prm k 24 8) dests = u
    at hdk hgr ⊢
  refine ⟨?_, rfl, hgr.trans hz.groups⟩
  have hrun := runsOn_setWriting (hz.runsOn hdk) l
  cases farPoison s (gaPane (BitVec.ofNat 64 (prm k 8 8))) (gaOfs (BitVec.ofNat 64 (prm k 8 8))) (prm k 24 8) with
  | true => exact decides_of_runsOn hrun _
  | false => exact decides_of_runsOn hrun _

theorem doSwapOut_checked (hp : prm k 0 1 < 16)
    (hadr : adrOk s (callerGroup s (prm k 0 1)) 0 (BitVec.ofNat 64 (prm k 8 8)) = true)
    (hnear : nearOk (gaOfs (BitVec.ofNat 64 (prm k 8 8))) (prm k 24 8) = true)
    (hfar : adrOk s (callerGroup s (prm k 0 1)) 1 (BitVec.ofNat 64 (prm k 16 8)) = true)
    (hquota : inQuota s (BitVec.ofNat 64 (prm k 16 8)) (prm k 24 8) = true) (q : Nat) : doSwapOut s q k =
      (writeRefusal s (gaOfs (BitVec.ofNat 64 (prm k 16 8))) (prm k 24 8)).elim
        (if prm k 24 8 = 0 then done s
          else goesOn (farWrite (tookFree s) (gaPane (BitVec.ofNat 64 (prm k 16 8))) (gaOfs (BitVec.ofNat 64 (prm k 16 8)))
            (nearReadOpen s (gaPane (BitVec.ofNat 64 (prm k 8 8))) (gaOfs (BitVec.ofNat 64 (prm k 8 8))) (prm k 24 8))
            (.command q)))
        (refuseWrite s q) := by
  unfold doSwapOut
  dsimp only
  rw [if_neg (by simp [badPane_lt hp]), if_neg (by simp [hadr, hnear]), if_neg (by simp [hfar, hquota])]
  cases writeRefusal s (gaOfs (BitVec.ofNat 64 (prm k 16 8))) (prm k 24 8) with
  | none => rfl
  | some a => rfl

theorem chargeRefusal_beside (s : State) (q : Nat) : (chargeRefusal s q).panes = s.panes ∧ (chargeRefusal s q).far = s.far ∧
    (chargeRefusal s q).dk = s.dk := by
  obtain ⟨isl, h⟩ := meterRefusal_eq s (if 1 ≤ q && q ≤ 16 then q - 1 else 16)
  rw [chargeRefusal, h]
  exact ⟨rfl, rfl, rfl⟩

/-- R175, R181: a refused write leaves the tiers as they were. -/
theorem refuseWrite_spec (h : Handed s z q) (a : Ans) : Decides (effectLeft q (refuseWrite z q a)) q a.status ∧
    (effectLeft q (refuseWrite z q a)).panes = s.panes ∧ (effectLeft q (refuseWrite z q a)).far = s.far := by
  have hf : z.far = s.far := h.keeps State.far fun _ _ _ => rfl
  unfold refuseWrite
  split
  · obtain ⟨hpn, hfar, hdk⟩ := chargeRefusal_beside (tookFree z) q
    generalize chargeRefusal (tookFree z) q = u at hpn hfar hdk ⊢
    exact ⟨h.decides hdk a, hpn.trans h.panes, hfar.trans hf⟩
  · exact ⟨h.answers a, h.panes, hf⟩

theorem exec_swapOut (hp : prm k 0 1 < 16)
    (hadr : adrOk s (callerGroup s (prm k 0 1)) 0 (BitVec.ofNat 64 (prm k 8 8)) = true)
    (hnear : nearOk (gaOfs (BitVec.ofNat 64 (prm k 8 8))) (prm k 24 8) = true)
    (hfar : adrOk s (callerGroup s (prm k 0 1)) 1 (BitVec.ofNat 64 (prm k 16 8)) = true ∧
      inQuota s (BitVec.ofNat 64 (prm k 16 8)) (prm k 24 8) = true)
    (hs : StartsAtOnce s r.val 0x0051 k) : ∃ t, exec (.swapOut r k) s = .next t ∧
    (writeRefusal s (gaOfs (BitVec.ofNat 64 (prm k 16 8))) (prm k 24 8) = none → prm k 24 8 ≠ 0 →
      RunsOn t r.val ∧ t.panes = s.panes ∧ t.far.nextWrite = s.far.nextWrite + 1 ∧
      ∃ w ∈ t.far.writes, w.ident = s.far.nextWrite ∧ w.owner = gaPane (BitVec.ofNat 64 (prm k 16 8)) ∧
        w.sink = .command r.val) ∧
    ∀ a, writeRefusal s (gaOfs (BitVec.ofNat 64 (prm k 16 8))) (prm k 24 8) = some a →
      Decides t r.val a.status ∧ t.panes = s.panes ∧ t.far = s.far := by
  obtain ⟨z, hz, ht⟩ := starts_effectLeft (i := .swapOut r k) hs rfl (by norm_num)
  have hcg : callerGroup z (prm k 0 1) = callerGroup s (prm k 0 1) := hz.keeps (callerGroup · _) fun _ _ _ => rfl
  have hadrz : adrOk z = adrOk s := hz.keeps adrOk fun _ _ _ => rfl
  have hin : inQuota z = inQuota s := hz.keeps inQuota fun _ _ _ => rfl
  have hwr : writeRefusal z = writeRefusal s := hz.keeps writeRefusal fun _ _ _ => rfl
  have hfz : z.far = s.far := hz.keeps State.far fun _ _ _ => rfl
  have he : startEffect 0x0051 z r.val k = _ := doSwapOut_checked hp (by rw [hadrz, hcg]; exact hadr) hnear
    (by rw [hadrz, hcg]; exact hfar.1) (by rw [hin]; exact hfar.2) r.val
  rw [hwr] at he
  refine ⟨_, ht, fun h hn => ?_, fun a ha => ?_⟩
  · rw [he, h, Option.elim_none, if_neg hn]
    generalize nearReadOpen z (gaPane (BitVec.ofNat 64 (prm k 8 8))) (gaOfs (BitVec.ofNat 64 (prm k 8 8))) (prm k 24 8) = d
    have hpn := farWrite_panes (tookFree z) (gaPane (BitVec.ofNat 64 (prm k 16 8))) (gaOfs (BitVec.ofNat 64 (prm k 16 8))) d
      (.command r.val)
    have hdk := farWrite_dk (tookFree z) (gaPane (BitVec.ofNat 64 (prm k 16 8))) (gaOfs (BitVec.ofNat 64 (prm k 16 8))) d
      (.command r.val)
    have hfd := farWrite_farDesk (tookFree z) (gaPane (BitVec.ofNat 64 (prm k 16 8))) (gaOfs (BitVec.ofNat 64 (prm k 16 8))) d
      (.command r.val)
    generalize farWrite (tookFree z) (gaPane (BitVec.ofNat 64 (prm k 16 8))) (gaOfs (BitVec.ofNat 64 (prm k 16 8))) d
      (.command r.val) = u at hpn hdk hfd ⊢
    obtain ⟨hnext, hwrites⟩ := Prod.mk.inj hfd
    rw [← hfz]
    have hmem := List.mem_append_right z.far.writes (List.mem_singleton_self ({
      ident := z.far.nextWrite, owner := gaPane (BitVec.ofNat 64 (prm k 16 8))
      left := (farUnits (gaOfs (BitVec.ofNat 64 (prm k 16 8))) d.length).length, lastSeq := 0
      sink := .command r.val } : FarWrite))
    exact ⟨hz.runsOn hdk, hpn.trans hz.panes, hnext, _, hwrites ▸ hmem, rfl, rfl, rfl⟩
  · rw [he, ha]
    exact refuseWrite_spec hz a

/-! ### `SHARD_FETCH` and `RESTORE` (R396, R520) -/

/-- A command that opens a transaction with the store goes on, and leaves the panes as they were. -/
theorem openTxn_spec (h : Handed s z q) (l : List (Nat × Nat × Nat)) (o : StoreOwner) (desc : List Byte) (device : BitVec 16)
    (step n : Nat) : RunsOn (openTxn (setWriting z q l) o desc device step n) q ∧
      (openTxn (setWriting z q l) o desc device step n).panes = s.panes ∧
      ∃ y ∈ (openTxn (setWriting z q l) o desc device step n).store.txns, y.owner = o ∧ y.phase = .opening ∧
        y.length = n ∧ y.moduleId = device ∧ y.xid = s.store.nextXid := by
  have hx : z.store.nextXid = s.store.nextXid := h.keeps (fun x => x.store.nextXid) fun _ _ _ => rfl
  refine ⟨runsOn_setWriting h.running l, h.panes, openedTxn (setWriting z q l) o desc device step n, ?_, rfl, rfl, rfl, rfl, hx⟩
  rw [openTxn_txns]
  exact List.mem_append_right _ (List.mem_singleton_self _)

theorem doShardFetch_fetches (hp : prm k 0 1 < 16) (hd : badDesc k 24 = none) (hm : BitVec.ofNat 16 (prm k 6 2) ≠ 0)
    (hsub : BitVec.ofNat 16 (prm k 6 2) &&& ~~~(callerGroup s (prm k 0 1)) = 0)
    (hdev : BitVec.ofNat 16 (gaDevice (BitVec.ofNat 64 (prm k 8 8))) = moduleId s)
    (htier : gaTier (BitVec.ofNat 64 (prm k 8 8)) = 0) (hnear : nearOk (gaOfs (BitVec.ofNat 64 (prm k 8 8))) (prm k 16 8) = true)
    (hlead : startedLead s (prm k 0 1) = none) (hout : enginesOut s k 24 = false) (q : Nat) : ∃ l, doShardFetch s q k =
      goesOn (openTxn (setWriting s q l) (.fetch q) (bytesAt k.params 24 64) (moduleId s) 0 (prm k 16 8)) := by
  unfold doShardFetch
  dsimp only
  rw [if_neg (by simp [badPane_lt hp]), hd]
  dsimp only
  rw [if_pos htier, if_neg (by simpa [hsub] using hm), if_neg (by simp [hdev, hnear]), hlead]
  dsimp only
  rw [if_neg (by simp [hout])]
  exact ⟨_, rfl⟩

theorem exec_shardFetch (hp : prm k 0 1 < 16) (hd : badDesc k 24 = none) (hm : BitVec.ofNat 16 (prm k 6 2) ≠ 0)
    (hsub : BitVec.ofNat 16 (prm k 6 2) &&& ~~~(callerGroup s (prm k 0 1)) = 0)
    (hlocal : BitVec.ofNat 16 (gaDevice (BitVec.ofNat 64 (prm k 8 8))) = moduleId s ∧
      gaTier (BitVec.ofNat 64 (prm k 8 8)) = 0 ∧ nearOk (gaOfs (BitVec.ofNat 64 (prm k 8 8))) (prm k 16 8) = true)
    (hlead : startedLead s (prm k 0 1) = none) (hout : enginesOut s k 24 = false) (hs : StartsAtOnce s r.val 0x0052 k) :
    ∃ t, exec (.shardFetch r k) s = .next t ∧ RunsOn t r.val ∧ t.panes = s.panes ∧ ∃ y ∈ t.store.txns,
      y.owner = .fetch r.val ∧ y.phase = .opening ∧ y.length = prm k 16 8 ∧ y.xid = s.store.nextXid := by
  obtain ⟨z, hz, ht⟩ := starts_effectLeft (i := .shardFetch r k) hs rfl (by norm_num)
  have hcg : callerGroup z (prm k 0 1) = callerGroup s (prm k 0 1) := hz.keeps (callerGroup · _) fun _ _ _ => rfl
  have hid : moduleId z = moduleId s := hz.keeps moduleId fun _ _ _ => rfl
  have hl : startedLead z = startedLead s := hz.keeps startedLead fun _ _ _ => rfl
  have ho : enginesOut z = enginesOut s := hz.keeps enginesOut fun _ _ _ => rfl
  obtain ⟨hdev, htier, hnear⟩ := hlocal
  obtain ⟨l, he⟩ := doShardFetch_fetches (s := z) hp hd hm (by rw [hcg]; exact hsub) (hdev.trans hid.symm) htier hnear
    (by rw [hl]; exact hlead) (by rw [ho]; exact hout) r.val
  have he : startEffect 0x0052 z r.val k = _ := he
  refine ⟨_, ht, ?_⟩
  rw [he]
  obtain ⟨hrun, hpn, y, hy, howner, hphase, hlen, -, hxid⟩ :=
    openTxn_spec hz l (.fetch r.val) (bytesAt k.params 24 64) (moduleId z) 0 (prm k 16 8)
  exact ⟨hrun, hpn, y, hy, howner, hphase, hlen, hxid⟩

theorem doRestore_store {d : List Byte} (hp : prm k 0 1 < 16) (hg : groupLed s (prm k 0 1) = some g) (hh : hasStart g = false)
    (hd : g.plan = some d) (h1 : prm k 1 1 = 1) (hb : badDesc k 16 = none) (hid : prm k 52 2 ≤ prm k 54 2)
    (hout : enginesOut s k 16 = false) (q : Nat) : doRestore s q k =
      goesOn (openTxn (setWriting s q (restoreRanges g d)) (.restore q) (bytesAt k.params 16 64)
        (BitVec.ofNat 16 (prm k 52 2)) (prm k 4 6) 0) := by
  unfold doRestore
  dsimp only
  rw [onIdleGroup_idle hp hg hh, hd]
  dsimp only
  rw [if_neg (by omega), if_neg (by omega), hb]
  dsimp only
  rw [if_neg (by omega), if_neg (by simp [hout])]

theorem doRestore_buddy {d : List Byte} (hp : prm k 0 1 < 16) (hg : groupLed s (prm k 0 1) = some g) (hh : hasStart g = false)
    (hd : g.plan = some d) (h0 : prm k 1 1 = 0) (q : Nat) : doRestore s q k = restoreBuddy s q g d (prm k 4 6) := by
  unfold doRestore
  dsimp only
  rw [onIdleGroup_idle hp hg hh, hd]
  dsimp only
  rw [if_neg (by omega), if_pos h0]

theorem restoreBuddy_elsewhere {b : BitVec 16 × BitVec 8 × Nat × Nat} (hb : g.storm.buddy = some b) (hne : b.1 ≠ moduleId s)
    (q : Nat) (d : List Byte) (step : Nat) : restoreBuddy s q g d step = goesOn (setWriting s q (restoreRanges g d)) := by
  unfold restoreBuddy
  dsimp only
  rw [hb]
  exact if_pos hne

theorem restoreBuddy_none (hb : g.storm.buddy = none) (q : Nat) (d : List Byte) (step : Nat) :
    restoreBuddy s q g d step = answer s (badState s (leadOf g.members)) := by
  unfold restoreBuddy
  dsimp only
  rw [hb]

theorem exec_restore_store {d : List Byte} (hp : prm k 0 1 < 16) (hg : groupLed s (prm k 0 1) = some g)
    (hh : hasStart g = false) (hd : g.plan = some d) (h1 : prm k 1 1 = 1) (hb : badDesc k 16 = none)
    (hid : prm k 52 2 ≤ prm k 54 2) (hout : enginesOut s k 16 = false) (hs : StartsAtOnce s r.val 0x0063 k) :
    ∃ t, exec (.restore r k) s = .next t ∧ RunsOn t r.val ∧ t.panes = s.panes ∧ ∃ y ∈ t.store.txns,
      y.owner = .restore r.val ∧ y.phase = .opening ∧ y.moduleId = BitVec.ofNat 16 (prm k 52 2) := by
  obtain ⟨z, hz, ht⟩ := starts_effectLeft (i := .restore r k) hs rfl (by norm_num)
  have ho : enginesOut z = enginesOut s := hz.keeps enginesOut fun _ _ _ => rfl
  have he : startEffect 0x0063 z r.val k = _ := doRestore_store hp ((hz.groupLed _).trans hg) hh hd h1 hb hid
    (by rw [ho]; exact hout) r.val
  refine ⟨_, ht, ?_⟩
  rw [he]
  obtain ⟨hrun, hpn, y, hy, howner, hphase, -, hdev, -⟩ := openTxn_spec hz (restoreRanges g d) (.restore r.val)
    (bytesAt k.params 16 64) (BitVec.ofNat 16 (prm k 52 2)) (prm k 4 6) 0
  exact ⟨hrun, hpn, y, hy, howner, hphase, hdev⟩

theorem exec_restore_elsewhere {d : List Byte} {b : BitVec 16 × BitVec 8 × Nat × Nat} (hp : prm k 0 1 < 16)
    (hg : groupLed s (prm k 0 1) = some g) (hh : hasStart g = false) (hd : g.plan = some d) (hb : g.storm.buddy = some b)
    (hne : b.1 ≠ moduleId s) (h0 : prm k 1 1 = 0) (hs : StartsAtOnce s r.val 0x0063 k) :
    ∃ t, exec (.restore r k) s = .next t ∧ RunsOn t r.val ∧ t.panes = s.panes := by
  obtain ⟨z, hz, ht⟩ := starts_effectLeft (i := .restore r k) hs rfl (by norm_num)
  have hid : moduleId z = moduleId s := hz.keeps moduleId fun _ _ _ => rfl
  have he : startEffect 0x0063 z r.val k = _ := (doRestore_buddy hp ((hz.groupLed _).trans hg) hh hd h0 r.val).trans
    (restoreBuddy_elsewhere hb (by rw [hid]; exact hne) ..)
  refine ⟨_, ht, ?_⟩
  rw [he]
  exact ⟨runsOn_setWriting hz.running _, hz.panes⟩

theorem exec_restore_none {d : List Byte} (hp : prm k 0 1 < 16) (hg : groupLed s (prm k 0 1) = some g)
    (hh : hasStart g = false) (hd : g.plan = some d) (hb : g.storm.buddy = none) (h0 : prm k 1 1 = 0)
    (hs : StartsAtOnce s r.val 0x0063 k) :
    ∃ t, exec (.restore r k) s = .next t ∧ Decides t r.val stBadState ∧ t.panes = s.panes := by
  obtain ⟨t, ht, hd, -, hpn⟩ := starts_refused (i := .restore r k) (a := badState s (leadOf g.members)) hs rfl (by norm_num)
    fun z hz => ((doRestore_buddy hp ((hz.groupLed _).trans hg) hh hd h0 r.val).trans (restoreBuddy_none hb ..)).trans
      (congrArg (answer z) (hz.keeps (badState · _) fun _ _ _ => rfl))
  exact ⟨t, ht, hd, hpn⟩

/-! ### `BUDDY_SET`, `STORM_NOW` and `DRAIN_SET` (R386, R388, R393) -/

theorem exec_buddySet (hp : prm k 0 1 < 16) (hg : groupLed s (prm k 0 1) = some g) (hh : hasStart g = false)
    (hb : prm k 4 1 < 16) (hf : fitsFar (farClaims s 16 (prm k 0 1) + stagingFor (prm k 16 8)) = true)
    (hs : StartsAtOnce s r.val 0x0060 k) : ∃ t, exec (.buddySet r k) s = .next t ∧ Decides t r.val stOk ∧
      groupLed t (prm k 0 1) = some { g with
        status := { g.status with buddyLost := false }, storm := { g.storm with
        buddy := some (BitVec.ofNat 16 (prm k 2 2), BitVec.ofNat 8 (prm k 4 1), prm k 8 8, prm k 16 8)
        stagingGib := stagingFor (prm k 16 8) } } := by
  obtain ⟨z, hz, ht⟩ := starts_effectLeft (i := .buddySet r k) hs rfl (by norm_num)
  have hc : farClaims z = farClaims s := hz.keeps farClaims fun _ _ _ => rfl
  have he : startEffect 0x0060 z r.val k = _ := onIdleGroup_idle hp ((hz.groupLed _).trans hg) hh _
  dsimp only at he
  rw [if_neg (by simp [badPane_lt hb]), if_neg (by simp [hc, hf])] at he
  obtain ⟨hd, hl, -⟩ := hz.groupTakes hg he fun _ => rfl
  exact ⟨_, ht, hd, hl⟩

theorem doStormNow_idle (hp : prm k 0 1 < 16) (hg : groupLed s (prm k 0 1) = some g) (hr : planRunning g = false)
    (q : Nat) : doStormNow s q k = answer s (badState s (prm k 0 1)) := by
  unfold doStormNow
  dsimp only
  rw [if_neg (by simp [badPane_lt hp]), hg]
  exact if_neg (by simp [hr])

theorem doStormNow_running (hp : prm k 0 1 < 16) (hg : groupLed s (prm k 0 1) = some g) (hr : planRunning g = true)
    (q : Nat) : doStormNow s q k =
      done (modGroup s (prm k 0 1) fun g => { g with storm := { g.storm with now := true } }) := by
  unfold doStormNow
  dsimp only
  rw [if_neg (by simp [badPane_lt hp]), hg]
  exact if_pos hr

theorem planRunning_of_idle (h : hasStart g = false) : planRunning g = false := by
  have hr : g.run = none := by simpa [hasStart] using h
  unfold planRunning
  rw [hr]

theorem exec_drainSet (hp : prm k 0 1 < 16) (hg : groupLed s (prm k 0 1) = some g) (hh : hasStart g = false)
    (hn : prm k 2 2 ≠ 0) (hi : prm k 2 2 % g.storm.interval = 0) (hb : badDesc k 8 = none)
    (hs : StartsAtOnce s r.val 0x0062 k) : ∃ t, exec (.drainSet r k) s = .next t ∧ Decides t r.val stOk ∧
      groupLed t (prm k 0 1) = some { g with
        storm := { g.storm with drain := some (prm k 2 2, bytesAt k.params 8 64) } } := by
  obtain ⟨z, hz, ht⟩ := starts_effectLeft (i := .drainSet r k) hs rfl (by norm_num)
  have he : startEffect 0x0062 z r.val k = _ := onIdleGroup_idle hp ((hz.groupLed _).trans hg) hh _
  dsimp only at he
  rw [if_neg (by simp [hn, hi]), hb] at he
  obtain ⟨hd, hl, -⟩ := hz.groupTakes hg he fun _ => rfl
  exact ⟨_, ht, hd, hl⟩

theorem exec_stormNow_idle (hp : prm k 0 1 < 16) (hg : groupLed s (prm k 0 1) = some g) (hh : hasStart g = false)
    (hs : StartsAtOnce s r.val 0x0061 k) :
    ∃ t, exec (.stormNow r k) s = .next t ∧ Decides t r.val stBadState ∧ t.groups = s.groups := by
  obtain ⟨t, ht, hd, hgr, -⟩ := starts_refused (i := .stormNow r k) (a := badState s (prm k 0 1)) hs rfl (by norm_num)
    fun z hz => (doStormNow_idle hp ((hz.groupLed _).trans hg) (planRunning_of_idle hh) r.val).trans
      (congrArg (answer z) (hz.keeps (badState · _) fun _ _ _ => rfl))
  exact ⟨t, ht, hd, hgr⟩

theorem exec_stormNow_running (hp : prm k 0 1 < 16) (hg : groupLed s (prm k 0 1) = some g) (hr : planRunning g = true)
    (hs : StartsAtOnce s r.val 0x0061 k) : ∃ t, exec (.stormNow r k) s = .next t ∧ Decides t r.val stOk ∧
      groupLed t (prm k 0 1) = some { g with storm := { g.storm with now := true } } := by
  obtain ⟨z, hz, ht⟩ := starts_effectLeft (i := .stormNow r k) hs rfl (by norm_num)
  have he : startEffect 0x0061 z r.val k = _ := doStormNow_running hp ((hz.groupLed _).trans hg) hr r.val
  obtain ⟨hd, hl, -⟩ := hz.groupTakes hg he fun _ => rfl
  exact ⟨_, ht, hd, hl⟩

end Sys2Proof.Machine

open Sys2Proof Sys2Proof.Machine

/-- Settles O53: each command by its effect on the state in which it starts; a copy does not look at the mailboxes. -/
theorem farTierAndStormCommands : Obligations.FarTierAndStormCommands := by
  unfold Obligations.FarTierAndStormCommands
  intro s r k q p mine a1 a2 mask local' far starts
  refine ⟨fun hp hm hsub hfar hloc hlead => exec_swapIn hp hm hsub hfar hloc hlead,
    fun hp hadr hnear hfar => exec_swapOut hp hadr hnear hfar,
    fun hp hd hm hsub hloc hlead hout => exec_shardFetch hp hd hm hsub hloc hlead hout, fun g hp hg hh => ?_,
    fun g hp hg hr => exec_stormNow_running hp hg hr⟩
  refine ⟨fun hb hf => exec_buddySet hp hg hh hb hf, exec_stormNow_idle hp hg hh,
    fun hn hi hb => exec_drainSet hp hg hh hn hi hb, fun d hd => ⟨fun h1 hb hid hout => ?_, fun hb h0 => ?_, fun hb h0 => ?_⟩⟩
  · exact exec_restore_store hp hg hh hd h1 hb hid hout
  · obtain ⟨b, hb, hne⟩ := hb
    exact exec_restore_elsewhere hp hg hh hd hb hne h0
  · exact exec_restore_none hp hg hh hd hb h0

end


section
/-! PROOFS. `MODE_SET` and `MODE_GET` (R501, Table 20-5). -/

namespace Sys2Proof.Machine

variable {s z : State} {r : Req} {k : Packet} {g : Group} {m n v : Nat}

/-! ### The mode registers -/

theorem modeValue_congr {t u : State} (hp : t.power = u.power) (ht : t.time = u.time) (n : Nat) (g : Option Group) :
    modeValue t n g = modeValue u n g := by
  unfold modeValue
  rw [hp, ht]

/-- A module mode holds a value. -/
def modeTaken (s : State) (m v : Nat) : State :=
  match m with
  | 1 => { s with power := { s.power with capMode := BitVec.ofNat 2 v } }
  | 2 => { s with power := { s.power with slotSplit := BitVec.ofNat 2 v } }
  | 3 => { s with time := { s.time with limitSel := BitVec.ofNat 2 v } }
  | 4 => { s with power := { s.power with cvFrame := v == 1 } }
  | 5 => { s with power := { s.power with cvPoly := BitVec.ofNat 2 v } }
  | 6 => { s with power := { s.power with farEndurance := v == 1 } }
  | _ => s

theorem modeValue_modeTaken_ne (s : State) (v : Nat) (h : n ≠ m) :
    modeValue (modeTaken s m v) n none = modeValue s n none := by
  unfold modeTaken
  split
  all_goals unfold modeValue
  all_goals split
  all_goals trivial

theorem toNat_ofNat_two (hv : v ≤ 2) : (BitVec.ofNat 2 v).toNat = v := Nat.mod_eq_of_lt (by omega)

theorem b2n_beq_one (hv : v ≤ 1) : b2n (v == 1) = v := by
  rcases Nat.le_one_iff_eq_zero_or_eq_one.mp hv with rfl | rfl
  · rfl
  · rfl

/-- Table 20-5: what it allows for a module mode is at most 2. -/
theorem le_two_of_moduleValueOk (h : moduleValueOk s m v = true) : v ≤ 2 := by
  unfold moduleValueOk at h
  split at h
  · simp only [Bool.or_eq_true, beq_iff_eq, Bool.and_eq_true] at h
    omega
  · have := of_decide_eq_true h
    omega
  · exact of_decide_eq_true h

theorem modeValue_modeTaken_self (hm : moduleMode m = true) (hv : moduleValueOk s m v = true) :
    modeValue (modeTaken s m v) m none = v := by
  have h2 := le_two_of_moduleValueOk hv
  obtain ⟨h1, h6⟩ : 1 ≤ m ∧ m ≤ 6 := by simpa [moduleMode] using hm
  interval_cases m
  · exact toNat_ofNat_two h2
  · exact toNat_ofNat_two h2
  · exact toNat_ofNat_two h2
  · exact b2n_beq_one (by simp [moduleValueOk] at hv; omega)
  · exact toNat_ofNat_two h2
  · exact b2n_beq_one (by simpa [moduleValueOk] using hv)

/-! ### A mode takes a value -/

theorem modeValue_applyCap (s : State) (v n : Nat) :
    modeValue (applyCap s (BitVec.ofNat 2 v)) n none = modeValue (modeTaken s 1 v) n none := by
  have hp : (applyCap s (BitVec.ofNat 2 v)).power =
      let p := { s.power with capMode := BitVec.ofNat 2 v, capReq := BitVec.ofNat 2 v, capThrottle := false }
      { p with mhz := clockMhz p } := by
    unfold applyCap
    dsimp only
    split
    · rw [suspendToBudget_power]
    · rw [record_power, suspendToBudget_power]
  unfold modeValue
  rw [hp, applyCap_time]
  split
  all_goals rfl

theorem modeValue_renegotiate (s : State) (n : Nat) : modeValue (renegotiate s) n none = modeValue s n none :=
  modeValue_congr (renegotiate_power s) (renegotiate_time s) n none

/-- A register written with the value that it holds. -/
theorem modeTaken_split (h : s.power.slotSplit.toNat = v) : modeTaken s 2 v = s := by
  subst h
  show { s with power := { s.power with slotSplit := BitVec.ofNat 2 s.power.slotSplit.toNat } } = s
  rw [BitVec.ofNat_toNat, BitVec.setWidth_eq]

theorem modeTaken_poly (h : s.power.cvPoly.toNat = v) : modeTaken s 5 v = s := by
  subst h
  show { s with power := { s.power with cvPoly := BitVec.ofNat 2 s.power.cvPoly.toNat } } = s
  rw [BitVec.ofNat_toNat, BitVec.setWidth_eq]

theorem modeTaken_frame (h : s.power.cvFrame = (v == 1)) : modeTaken s 4 v = s := by
  show { s with power := { s.power with cvFrame := v == 1 } } = s
  rw [← h]

theorem modeValue_setModuleMode (s : State) (m v n : Nat) :
    modeValue (setModuleMode s m v) n none = modeValue (modeTaken s m v) n none := by
  unfold setModuleMode
  split
  · exact modeValue_applyCap ..
  · split
    next h => rw [modeTaken_split h]
    next => exact (modeValue_renegotiate ..).trans (modeValue_congr rfl rfl n none)
  · rfl
  · split
    next h => rw [modeTaken_frame h]
    next => exact modeValue_renegotiate ..
  · split
    next h => rw [modeTaken_poly h]
    next => exact modeValue_renegotiate ..
  · rfl
  · next h1 h2 h3 h4 h5 h6 =>
    unfold modeTaken
    split
    all_goals trivial

theorem setModuleMode_dk (s : State) (m v : Nat) : (setModuleMode s m v).dk = s.dk := by
  unfold setModuleMode
  split
  · exact applyCap_dk ..
  · split
    · rfl
    · exact (renegotiate_dk ..).trans rfl
  · rfl
  · split
    · rfl
    · exact (renegotiate_dk ..).trans rfl
  · split
    · rfl
    · exact (renegotiate_dk ..).trans rfl
  · rfl
  · rfl

/-! ### `MODE_SET` of module scope -/

theorem doModeSet_scope (hm : moduleMode (prm k 0 2) = true) (hsc : prm k 2 1 ≠ 0xFF) (q : Nat) :
    doModeSet s q k = answer s (badParam 2) := by
  unfold doModeSet
  dsimp only
  rw [if_pos hm, if_pos hsc]

theorem doModeSet_active {l : Nat} (hm : moduleMode (prm k 0 2) = true) (hsc : prm k 2 1 = 0xFF)
    (hn : modeNoStart (prm k 0 2) = true) (hl : firstStart s = some l) (q : Nat) :
    doModeSet s q k = answer s (planActive l) := by
  unfold doModeSet
  dsimp only
  rw [if_pos hm, if_neg (not_not.mpr hsc), if_pos hn, hl]

theorem doModeSet_module (hm : moduleMode (prm k 0 2) = true) (hsc : prm k 2 1 = 0xFF)
    (hfree : modeNoStart (prm k 0 2) = true → firstStart s = none) (q : Nat) : doModeSet s q k =
      if moduleValueOk s (prm k 0 2) (prm k 4 4) then done (setModuleMode s (prm k 0 2) (prm k 4 4))
      else answer s (badParam 4) := by
  have hn : (if modeNoStart (prm k 0 2) then firstStart s else none) = none := by
    split
    next h => exact hfree h
    next => rfl
  unfold doModeSet
  dsimp only
  rw [if_pos hm, if_neg (not_not.mpr hsc), hn]

theorem firstStart_none (h : ∀ g ∈ s.groups, hasStart g = false) : firstStart s = none := by
  unfold firstStart
  rw [List.find?_eq_none.mpr fun g hg => by simp [h g hg]]
  rfl

theorem firstStart_some (h : ∃ g ∈ s.groups, hasStart g = true) : ∃ l, firstStart s = some l := by
  obtain ⟨g, hg⟩ := Option.isSome_iff_exists.mp (List.find?_isSome.mpr h)
  refine ⟨leadOf g.members, ?_⟩
  unfold firstStart
  rw [hg]
  rfl

theorem exec_modeSet_module {i : Instr} (hi : exec i s = .next (modeBell s r.val m k)) (hmm : moduleMode m = true)
    (hk : prm k 0 2 = m) (hs : StartsAtOnce s r.val 0x0070 k) : ∃ t, exec i s = .next t ∧
    (prm k 2 1 = 0xFF → (∀ g ∈ s.groups, hasStart g = false) ∨ m = 3 ∨ m = 6 → moduleValueOk s m (prm k 4 4) = true →
      Decides t r.val stOk ∧ modeValue t m none = prm k 4 4 ∧
      ∀ n, moduleMode n = true → n ≠ m → modeValue t n none = modeValue s n none) ∧
    (prm k 2 1 = 0xFF → (∀ g ∈ s.groups, hasStart g = false) → moduleValueOk s m (prm k 4 4) = false →
      Decides t r.val stBadParam ∧ t.power = s.power ∧ t.time = s.time) ∧
    (prm k 2 1 = 0xFF → (∃ g ∈ s.groups, hasStart g = true) → m ≠ 3 → m ≠ 6 →
      Decides t r.val stPlanActive ∧ t.power = s.power) ∧
    (prm k 2 1 ≠ 0xFF → Decides t r.val stBadParam ∧ t.power = s.power ∧ t.time = s.time) := by
  subst hk
  have hb : modeBell s r.val (prm k 0 2) k = doorbell s r.val 0x0070 k := if_pos rfl
  obtain ⟨z, hz, ht⟩ := starts_effectLeft hs (hi.trans (congrArg Host.Outcome.next hb)) (by norm_num)
  have hok : moduleValueOk z = moduleValueOk s := hz.keeps moduleValueOk fun _ _ _ => rfl
  have hpw : z.power = s.power := hz.keeps State.power fun _ _ _ => rfl
  refine ⟨_, ht, fun hsc hfree hv => ?_, fun hsc hfree hv => ?_, fun hsc hact h3 h6 => ?_, fun hsc => ?_⟩
  · have hfz : modeNoStart (prm k 0 2) = true → firstStart z = none := fun hn => by
      rcases hfree with h | h | h
      · exact firstStart_none (hz.groups ▸ h)
      · simp [modeNoStart, h] at hn
      · simp [modeNoStart, h] at hn
    have he : startEffect 0x0070 z r.val k = _ := doModeSet_module hmm hsc hfz r.val
    rw [he, if_pos (hok ▸ hv)]
    have hdk := setModuleMode_dk z (prm k 0 2) (prm k 4 4)
    have hval (n : Nat) := modeValue_setModuleMode z (prm k 0 2) (prm k 4 4) n
    generalize setModuleMode z (prm k 0 2) (prm k 4 4) = u at hdk hval ⊢
    refine ⟨hz.done hdk, (hval _).trans (modeValue_modeTaken_self hmm (hok ▸ hv)), fun n _ hne => ?_⟩
    exact ((hval n).trans (modeValue_modeTaken_ne z _ hne)).trans (modeValue_congr hpw hz.time n none)
  · have he : startEffect 0x0070 z r.val k = _ :=
      doModeSet_module hmm hsc (fun _ => firstStart_none (hz.groups ▸ hfree)) r.val
    rw [he, if_neg (by simp [hok, hv])]
    exact ⟨hz.answers _, hpw, hz.time⟩
  · obtain ⟨l, hl⟩ := firstStart_some hact
    have hlz : firstStart z = some l := (hz.keeps firstStart fun _ _ _ => rfl).trans hl
    have he : startEffect 0x0070 z r.val k = _ := doModeSet_active hmm hsc (by simp [modeNoStart, h3, h6]) hlz r.val
    rw [he]
    exact ⟨hz.answers _, hpw⟩
  · have he : startEffect 0x0070 z r.val k = _ := doModeSet_scope hmm hsc r.val
    rw [he]
    exact ⟨hz.answers _, hpw, hz.time⟩

/-! ### `MODE_SET` of group scope -/

theorem doModeSet_group (hm : 7 ≤ prm k 0 2 ∧ prm k 0 2 ≤ 9) (hp : prm k 2 1 < 16)
    (hg : groupLed s (prm k 2 1) = some g) (q : Nat) : doModeSet s q k =
      if hasStart g then answer s (planActive (prm k 2 1))
      else if groupValueOk g (prm k 0 2) (prm k 4 4) then done (modGroup s (prm k 2 1) (setGroupMode (prm k 0 2) (prm k 4 4)))
      else answer s (badParam 4) := by
  unfold doModeSet
  dsimp only
  rw [if_neg (by simp [moduleMode]; omega), if_pos (by simp [groupMode]; omega), if_neg (by simp [badPane_lt hp]), hg]
  dsimp only
  rw [if_neg (by omega)]

theorem setGroupMode_members (m v : Nat) (g : Group) : (setGroupMode m v g).members = g.members := by
  unfold setGroupMode
  split
  all_goals rfl

/-- A group mode reads the value that it took. -/
theorem modeValue_setGroupMode (s : State) (hm : 7 ≤ m ∧ m ≤ 9) (hv : groupValueOk g m v = true) :
    modeValue s m (some (setGroupMode m v g)) = v := by
  obtain ⟨h7, h9⟩ := hm
  interval_cases m
  · exact b2n_beq_one (by simpa [groupValueOk] using hv)
  · exact b2n_beq_one (by simpa [groupValueOk] using hv)
  · rfl

theorem exec_modeSet_group {i : Instr} (hp : prm k 2 1 < 16) (hg : groupLed s (prm k 2 1) = some g)
    (hi : exec i s = .next (modeBell s r.val m k)) (hmm : 7 ≤ m ∧ m ≤ 9) (hk : prm k 0 2 = m)
    (hs : StartsAtOnce s r.val 0x0070 k) : ∃ t, exec i s = .next t ∧
    (hasStart g = false → groupValueOk g m (prm k 4 4) = true → Decides t r.val stOk ∧
      groupLed t (prm k 2 1) = some (setGroupMode m (prm k 4 4) g) ∧ modeValue t m (groupLed t (prm k 2 1)) = prm k 4 4) ∧
    (hasStart g = false → groupValueOk g m (prm k 4 4) = false → Decides t r.val stBadParam ∧ t.groups = s.groups) ∧
    (hasStart g = true → Decides t r.val stPlanActive ∧ t.groups = s.groups) := by
  subst hk
  have hb : modeBell s r.val (prm k 0 2) k = doorbell s r.val 0x0070 k := if_pos rfl
  obtain ⟨z, hz, ht⟩ := starts_effectLeft hs (hi.trans (congrArg Host.Outcome.next hb)) (by norm_num)
  have he : startEffect 0x0070 z r.val k = _ := doModeSet_group hmm hp ((hz.groupLed _).trans hg) r.val
  refine ⟨_, ht, fun hh hv => ?_, fun hh hv => ?_, fun hh => ?_⟩
  · rw [if_neg (by simp [hh]), if_pos hv] at he
    obtain ⟨hd, hl, -⟩ := hz.groupTakes hg he fun _ => setGroupMode_members ..
    exact ⟨hd, hl, by rw [hl, modeValue_setGroupMode _ hmm hv]⟩
  · rw [if_neg (by simp [hh]), if_neg (by simp [hv])] at he
    obtain ⟨hd, hgr, -⟩ := hz.refused he
    exact ⟨hd, hgr⟩
  · rw [if_pos hh] at he
    obtain ⟨hd, hgr, -⟩ := hz.refused he
    exact ⟨hd, hgr⟩

/-! ### The other rows of `MODE_SET`, and `MODE_GET` -/

/-- No other mode takes a value. -/
theorem doModeSet_other (hm : prm k 0 2 = 0 ∨ 9 < prm k 0 2) (q : Nat) : ∃ o, doModeSet s q k = answer s (badParam o) := by
  have h1 : moduleMode (prm k 0 2) = false := by
    simp [moduleMode]
    omega
  unfold doModeSet
  dsimp only
  rw [if_neg (by simp [h1])]
  by_cases h10 : prm k 0 2 = 10
  · rw [if_pos (by simp [groupMode, h10])]
    cases hp : badPane (prm k 2 1) with
    | true => exact ⟨2, if_pos rfl⟩
    | false =>
      rw [if_neg Bool.false_ne_true]
      cases hg : groupLed s (prm k 2 1) with
      | none => exact ⟨2, rfl⟩
      | some g => exact ⟨0, if_pos h10⟩
  · rw [if_neg (by simp [groupMode]; omega)]
    exact ⟨0, rfl⟩

theorem exec_modeSetDrainInterval (hm : prm k 0 2 = 0 ∨ 9 < prm k 0 2) (hs : StartsAtOnce s r.val 0x0070 k) :
    ∃ t, exec (.modeSetDrainInterval r k) s = .next t ∧ Decides t r.val stBadParam ∧ t.groups = s.groups ∧
      t.power = s.power := by
  have hi : exec (.modeSetDrainInterval r k) s = .next (doorbell s r.val 0x0070 k) :=
    congrArg Host.Outcome.next (if_pos (by simpa using hm))
  obtain ⟨z, hz, ht⟩ := starts_effectLeft hs hi (by norm_num)
  obtain ⟨o, ho⟩ := doModeSet_other (s := z) hm r.val
  have he : startEffect 0x0070 z r.val k = _ := ho
  refine ⟨_, ht, ?_⟩
  rw [he]
  exact ⟨hz.answers _, hz.groups, hz.keeps State.power fun _ _ _ => rfl⟩

/-- The group that a `MODE_GET` names. -/
def askedGroup (s : State) (k : Packet) : Option Group := if badPane (prm k 2 1) then none else groupLed s (prm k 2 1)

/-- A scope does for a mode. -/
def scopeFits (s : State) (k : Packet) : Prop := (moduleMode (prm k 0 2) || groupMode (prm k 0 2)) = true ∧
  ((moduleMode (prm k 0 2) && prm k 2 1 ≠ 0xFF) || (groupMode (prm k 0 2) && (askedGroup s k).isNone)) = false

theorem doModeGet_fits (h : scopeFits s k) (q : Nat) : doModeGet s q k =
    answer s { status := stOk, result := natLe 4 (modeValue s (prm k 0 2) (askedGroup s k)) } := by
  obtain ⟨hm, hs⟩ := h
  unfold doModeGet
  dsimp only
  rw [if_neg (by simp only [hm]; decide)]
  exact if_neg (by rw [Bool.not_eq_true]; exact hs)

theorem doModeGet_answers (s : State) (q : Nat) (k : Packet) : ∃ a, doModeGet s q k = answer s a := by
  unfold doModeGet
  dsimp only
  rw [← apply_ite (answer s), ← apply_ite (answer s)]
  exact ⟨_, rfl⟩

theorem exec_modeGet (hs : StartsAtOnce s r.val 0x0071 k) : ∃ t, exec (.modeGet r k) s = .next t ∧ t.groups = s.groups ∧
    t.power = s.power ∧ (scopeFits s k → Decides t r.val stOk ∧
      Returns t r.val (natLe 4 (modeValue s (prm k 0 2) (askedGroup s k)))) := by
  obtain ⟨z, hz, ht⟩ := starts_effectLeft (i := .modeGet r k) hs rfl (by norm_num)
  obtain ⟨a, ha⟩ := doModeGet_answers z r.val k
  have he : startEffect 0x0071 z r.val k = _ := ha
  have hpw : z.power = s.power := hz.keeps State.power fun _ _ _ => rfl
  refine ⟨_, ht, ?_⟩
  rw [he]
  refine ⟨hz.groups, hpw, fun h => ?_⟩
  have hfz : scopeFits z k := by
    obtain ⟨fm, dk, host, hz⟩ := hz.same
    rw [hz]
    exact h
  have hask : askedGroup z k = askedGroup s k := hz.keeps (askedGroup · k) fun _ _ _ => rfl
  rw [show a = _ from Option.some.inj (congrArg Prod.snd (ha.symm.trans (doModeGet_fits hfz r.val))), hask,
    modeValue_congr hpw hz.time]
  exact ⟨hz.answers _, hz.returns rfl _⟩

theorem scopeFits_module (hm : moduleMode (prm k 0 2) = true) (hsc : prm k 2 1 = 0xFF) : scopeFits s k := by
  have hg : groupMode (prm k 0 2) = false := by
    simp [moduleMode, groupMode] at hm ⊢
    omega
  simp [scopeFits, hm, hg, hsc]

theorem askedGroup_led (hp : prm k 2 1 < 16) (hg : groupLed s (prm k 2 1) = some g) : askedGroup s k = some g :=
  (if_neg (by simp [badPane_lt hp])).trans hg

theorem scopeFits_group (hm : groupMode (prm k 0 2) = true) (hp : prm k 2 1 < 16)
    (hg : groupLed s (prm k 2 1) = some g) : scopeFits s k := by
  have hmod : moduleMode (prm k 0 2) = false := by
    simp [moduleMode, groupMode] at hm ⊢
    omega
  simp [scopeFits, hm, hmod, askedGroup_led hp hg]

theorem modeValue_module (hm : moduleMode m = true) (s : State) (g : Option Group) : modeValue s m g = modeValue s m none := by
  obtain ⟨h1, h6⟩ : 1 ≤ m ∧ m ≤ 6 := by simpa [moduleMode] using hm
  unfold modeValue
  interval_cases m
  all_goals rfl

end Sys2Proof.Machine

open Sys2Proof Sys2Proof.Machine

/-- Settles O54: module modes by the registers that they stand in, group modes by the group that they name. -/
theorem modeCommands : Obligations.ModeCommands := by
  unfold Obligations.ModeCommands
  intro s r k q scope v starts
  refine ⟨fun e he hk => ?_, fun g hp hg e he hk => ?_, exec_modeSetDrainInterval, fun hs => ?_⟩
  · have hrow : exec e.2 s = .next (modeBell s r.val e.1 k) ∧ moduleMode e.1 = true := by
      simp only [List.mem_cons, List.not_mem_nil, or_false] at he
      rcases he with rfl | rfl | rfl | rfl | rfl | rfl
      all_goals exact ⟨rfl, rfl⟩
    exact exec_modeSet_module hrow.1 hrow.2 hk
  · have hrow : exec e.2 s = .next (modeBell s r.val e.1 k) ∧ 7 ≤ e.1 ∧ e.1 ≤ 9 := by
      simp only [List.mem_cons, List.not_mem_nil, or_false] at he
      rcases he with rfl | rfl | rfl
      all_goals exact ⟨rfl, by norm_num, by norm_num⟩
    exact exec_modeSet_group hp hg hrow.1 hrow.2 hk
  · obtain ⟨t, ht, hgr, hpw, h⟩ := exec_modeGet hs
    refine ⟨t, ht, hgr, hpw, fun hm hsc => ?_, fun g hm hp hg => ?_⟩
    · have := h (scopeFits_module hm hsc)
      rwa [modeValue_module hm] at this
    · have := h (scopeFits_group hm hp hg)
      rwa [askedGroup_led hp hg] at this

end


section
/-! PROOFS. The services (Table 14-11, R345, R427, R433, R455, R459, R479 to R481, R491). -/

namespace Sys2Proof.Machine

variable {s z u : State} {r : Req} {k : Packet} {q : Nat}

/-- A command's answer brings its bytes. -/
theorem Handed.brings (h : Handed s z q) (hd : u.dk = z.dk) (a : Ans) :
    ∃ j b, (mbx (decideJob u q a) q).job = some j ∧ j.outcome = some b ∧ b.bulk = a.bulk := by
  obtain ⟨j, hj, -, -⟩ := h.runsOn hd
  exact ⟨_, _, decideJob_job a hj, rfl, rfl⟩

/-! ### `SELF_TEST` (R427) -/

theorem pane_enterTesting (s : State) (p n : Nat) :
    pane (enterTesting s p) n = if n = p then { pane s p with state := .testing } else pane s n :=
  pane_modPane s p n fun x => { x with state := .testing }

theorem testOf_enterTesting (s : State) (p n : Nat) :
    testOf (enterTesting s p) n = if n = p then { PaneTest.reset with tstate := tsQueued } else testOf s n :=
  testOf_modTest (modPane s p fun x => { x with state := .testing }) p n fun _ => { PaneTest.reset with tstate := tsQueued }

theorem foldl_enterTesting (l : List Nat) (s : State) (n : Nat) :
    (n ∈ l → (pane (l.foldl enterTesting s) n).state = .testing ∧ (testOf (l.foldl enterTesting s) n).tstate = tsQueued) ∧
    (n ∉ l → pane (l.foldl enterTesting s) n = pane s n ∧ testOf (l.foldl enterTesting s) n = testOf s n) := by
  induction l generalizing s with
  | nil => exact ⟨fun h => absurd h List.not_mem_nil, fun _ => ⟨rfl, rfl⟩⟩
  | cons p l ih =>
    obtain ⟨hin, hout⟩ := ih (enterTesting s p)
    refine ⟨fun h => ?_, fun h => ?_⟩
    · by_cases hl : n ∈ l
      · exact hin hl
      · obtain rfl : n = p := (List.mem_cons.mp h).resolve_right hl
        obtain ⟨hp, ht⟩ := hout hl
        rw [List.foldl_cons, hp, ht, pane_enterTesting, testOf_enterTesting, if_pos rfl, if_pos rfl]
        exact ⟨rfl, rfl⟩
    · obtain ⟨hne, hl⟩ := List.ne_and_not_mem_of_not_mem_cons h
      obtain ⟨hp, ht⟩ := hout hl
      rw [List.foldl_cons, hp, ht, pane_enterTesting, testOf_enterTesting, if_neg hne, if_neg hne]
      exact ⟨rfl, rfl⟩

theorem doSelfTest_free (h : ∀ p ∈ maskPanes (BitVec.ofNat 16 (prm k 0 2)), (pane s p).state = .free) (q : Nat) :
    ∃ a : Ans, a.status = stOk ∧ doSelfTest s q k =
      ((maskPanes (BitVec.ofNat 16 (prm k 0 2))).foldl enterTesting s, some a) := by
  have hfree : (maskPanes (BitVec.ofNat 16 (prm k 0 2))).filter (fun p => (pane s p).state == .free) =
      maskPanes (BitVec.ofNat 16 (prm k 0 2)) := List.filter_eq_self.mpr fun p hp => by simp [h p hp]
  have hlater : (maskPanes (BitVec.ofNat 16 (prm k 0 2))).filter (fun p => (pane s p).state != .free) = [] :=
    List.filter_eq_nil_iff.mpr fun p hp => by simp [h p hp]
  unfold doSelfTest
  dsimp only
  rw [List.find?_eq_none.mpr fun p hp => by simp [h p hp]]
  dsimp only
  rw [hfree, hlater]
  exact ⟨_, rfl, rfl⟩

theorem doSelfTest_refused (h : ∃ p ∈ maskPanes (BitVec.ofNat 16 (prm k 0 2)),
    (pane s p).state = .opened ∨ (pane s p).state = .outOfService) (q : Nat) :
    ∃ p, doSelfTest s q k = answer s (badState s p) := by
  obtain ⟨n, hn, ho⟩ := h
  have hsome : ((maskPanes (BitVec.ofNat 16 (prm k 0 2))).find? fun p =>
      (pane s p).state == .opened || (pane s p).state == .outOfService).isSome = true :=
    List.find?_isSome.mpr ⟨n, hn, by simpa using ho⟩
  obtain ⟨p, hp⟩ := Option.isSome_iff_exists.mp hsome
  refine ⟨p, ?_⟩
  unfold doSelfTest
  dsimp only
  rw [hp]

theorem exec_selfTest (hs : StartsAtOnce s r.val 0x0080 k) : ∃ t, exec (.selfTest r k) s = .next t ∧
    ((∀ p ∈ maskPanes (BitVec.ofNat 16 (prm k 0 2)), (pane s p).state = .free) → Decides t r.val stOk ∧
      (∀ p ∈ maskPanes (BitVec.ofNat 16 (prm k 0 2)), (pane t p).state = .testing ∧ (testOf t p).tstate = tsQueued) ∧
      ∀ p, (BitVec.ofNat 16 (prm k 0 2)).getLsbD p = false → pane t p = pane s p) ∧
    ((∃ p ∈ maskPanes (BitVec.ofNat 16 (prm k 0 2)), (pane s p).state = .opened ∨ (pane s p).state = .outOfService) →
      Decides t r.val stBadState ∧ t.panes = s.panes) := by
  obtain ⟨z, hz, ht⟩ := starts_effectLeft (i := .selfTest r k) hs rfl (by norm_num)
  have hpz : pane z = pane s := funext hz.pane
  refine ⟨_, ht, fun h => ?_, fun h => ?_⟩
  · obtain ⟨a, ha, hd⟩ := doSelfTest_free (s := z) (k := k) (by rw [hpz]; exact h) r.val
    have he : startEffect 0x0080 z r.val k = _ := hd
    rw [he]
    have hdk := foldl_dk enterTesting enterTesting_dk (maskPanes (BitVec.ofNat 16 (prm k 0 2))) z
    have hall := foldl_enterTesting (maskPanes (BitVec.ofNat 16 (prm k 0 2))) z
    generalize (maskPanes (BitVec.ofNat 16 (prm k 0 2))).foldl enterTesting z = u at hdk hall ⊢
    refine ⟨ha ▸ hz.decides hdk a, fun p hp => (hall p).1 hp, fun p hp => ((hall p).2 fun hm => ?_).1.trans (hz.pane p)⟩
    exact Bool.false_ne_true (hp.symm.trans (List.mem_filter.mp hm).2)
  · obtain ⟨p, hd⟩ := doSelfTest_refused (s := z) (k := k) (by rw [hpz]; exact h) r.val
    have he : startEffect 0x0080 z r.val k = _ := hd
    rw [he]
    exact ⟨hz.answers _, hz.panes⟩

/-! ### `SHUTDOWN` (R345, R433, R491) -/

/-- A pane whose context a shutdown ends. -/
def shutDown (beat : Nat) (x : Pane) : Pane :=
  if x.state = .opened ∧ x.shutter = none then
    { x with shutter := some { cause := 0, keepFar := true, d := beat + 1, oldTag := x.jobTag, oldEpoch := x.epoch, farSeq := 0
                               farZeroed := false, latchesFreed := 0, paneReset := false } }
  else x

theorem joinTeardown_kept (s : State) (p : Nat) : joinTeardown s p true = s := by
  unfold joinTeardown
  dsimp only
  split
  · exact if_pos rfl
  · rfl

theorem shutdownPane_unopened {p : Nat} (h : (pane s p).state ≠ .opened) : shutdownPane s p = s := if_neg h

theorem shutdownPane_beside (s : State) (p : Nat) : (shutdownPane s p).dk = s.dk ∧ (shutdownPane s p).time = s.time := by
  unfold shutdownPane
  split
  · rw [joinTeardown_kept]
    split
    · exact ⟨rfl, rfl⟩
    · exact ⟨rfl, rfl⟩
  · exact ⟨rfl, rfl⟩

theorem pane_shutdownPane (s : State) (p n : Nat) :
    pane (shutdownPane s p) n = if n = p then shutDown s.time.beat (pane s p) else pane s n := by
  have hsame (h : shutDown s.time.beat (pane s p) = pane s p) :
      pane s n = if n = p then shutDown s.time.beat (pane s p) else pane s n := by
    rw [h]
    split
    next hn => rw [hn]
    next => rfl
  by_cases ho : (pane s p).state = .opened
  · cases hs : (pane s p).shutter with
    | some sh =>
      have hp : shutdownPane s p = s := (if_pos ho).trans ((if_pos (by rw [hs]; rfl)).trans (joinTeardown_kept s p))
      rw [hp]
      exact hsame (if_neg (by simp [hs]))
    | none =>
      have hp : shutdownPane s p = askTeardown s p 0 true := (if_pos ho).trans (if_neg (by rw [hs]; exact Bool.false_ne_true))
      rw [hp, askTeardown, pane_modPane]
      exact if_congr Iff.rfl ((if_pos (by simp [ho, hs])).trans (if_pos ⟨ho, hs⟩).symm) rfl
  · rw [shutdownPane_unopened ho]
    exact hsame (if_neg fun h => ho h.1)

theorem foldl_shutdownPane (s : State) (m : Nat) :
    ((List.range m).foldl shutdownPane s).dk = s.dk ∧ ((List.range m).foldl shutdownPane s).time = s.time ∧
    ∀ n, pane ((List.range m).foldl shutdownPane s) n = if n < m then shutDown s.time.beat (pane s n) else pane s n := by
  induction m with
  | zero => exact ⟨rfl, rfl, fun n => (if_neg (Nat.not_lt_zero n)).symm⟩
  | succ m ih =>
    obtain ⟨hd, ht, hp⟩ := ih
    rw [List.range_succ, List.foldl_concat]
    obtain ⟨hd', ht'⟩ := shutdownPane_beside ((List.range m).foldl shutdownPane s) m
    refine ⟨hd'.trans hd, ht'.trans ht, fun n => ?_⟩
    rw [pane_shutdownPane, ht, hp, hp, if_neg (Nat.lt_irrefl m)]
    by_cases hn : n = m
    · rw [if_pos hn, if_pos (by omega), hn]
    · rw [if_neg hn]
      exact if_congr (by omega) rfl rfl

theorem foldl_shutdownPane_idle (h : ∀ p, p < 16 → (pane s p).state = .free ∨ (pane s p).state = .outOfService) :
    (List.range 16).foldl shutdownPane s = s := by
  have key (l : List Nat) (hl : ∀ p ∈ l, p < 16) : l.foldl shutdownPane s = s := by
    induction l with
    | nil => rfl
    | cons p l ih =>
      have hp : (pane s p).state ≠ .opened := by
        rcases h p (hl p List.mem_cons_self) with hs | hs
        · simp [hs]
        · simp [hs]
      rw [List.foldl_cons, shutdownPane_unopened hp]
      exact ih fun x hx => hl x (List.mem_cons_of_mem p hx)
  exact key _ fun p hp => List.mem_range.mp hp

theorem shutdown_park (s : State) : (park s).test.shutdown = s.test.shutdown := by
  unfold park
  rw [portsDown_test]

theorem shutdown_startHubTest (s : State) : (startHubTest s).test.shutdown = s.test.shutdown := by
  have h := portsDown_test s
  unfold startHubTest
  generalize portsDown s = u at h ⊢
  show u.test.shutdown = _
  rw [h]

theorem shutdown_parkNext (s : State) : (parkNext s).test.shutdown = s.test.shutdown := by
  unfold parkNext
  split
  · split
    · rfl
    · split
      · exact shutdown_startHubTest s
      · exact shutdown_park s
  · rfl

theorem shutdown_beginPark (s : State) : (beginPark s).test.shutdown = s.test.shutdown := by
  unfold beginPark
  dsimp only
  rw [shutdown_parkNext, startSpill_test]
  exact congrArg TestUnit.shutdown (checkpoint_test s)

theorem afterShutdown_spec (s : State) (b : Bool) :
    (afterShutdown s b).dk = s.dk ∧ (afterShutdown s b).test.shutdown = some b := by
  have hpark := shutdown_beginPark { s with test := { s.test with shutdown := some b } }
  have hdk := beginPark_dk { s with test := { s.test with shutdown := some b } }
  unfold afterShutdown
  dsimp only
  split
  · split
    · exact ⟨hdk, hpark⟩
    · have key (l : List Nat) (u : State) : (l.foldl enterTesting u).test.shutdown = u.test.shutdown := by
        induction l generalizing u with
        | nil => rfl
        | cons p l ih => exact (ih _).trans rfl
      exact ⟨foldl_dk enterTesting enterTesting_dk _ _, key _ _⟩
  · exact ⟨hdk, hpark⟩

theorem doShutdown_idle (h : ∀ p, p < 16 → (pane s p).state = .free ∨ (pane s p).state = .outOfService) (q : Nat) :
    doShutdown s q k = done (afterShutdown s (bitAt (prm k 0 1) 0)) := by
  unfold doShutdown
  dsimp only
  rw [foldl_shutdownPane_idle h]
  exact if_pos (List.all_eq_true.mpr fun p hp => by simpa using h p (List.mem_range.mp hp))

theorem doShutdown_busy {n : Nat} (hn : n < 16) (h : (pane s n).state = .opened) (q : Nat) :
    doShutdown s q k = goesOn ((List.range 16).foldl shutdownPane s) := by
  unfold doShutdown
  dsimp only
  refine if_neg fun hall => ?_
  have := List.all_eq_true.mp hall n (List.mem_range.mpr hn)
  simp [h] at this

theorem exec_shutdown (hs : StartsAtOnce s r.val 0x0081 k) : ∃ t, exec (.shutdown r k) s = .next t ∧
    ((∀ p, p < 16 → (pane s p).state = .free ∨ (pane s p).state = .outOfService) → Decides t r.val stOk ∧
      t.test.shutdown = some (bitAt (prm k 0 1) 0)) ∧
    ((∃ p, p < 16 ∧ (pane s p).state = .opened) → RunsOn t r.val ∧
      ∀ p, p < 16 → (pane s p).state = .opened → (pane s p).shutter = none →
        ∃ h, (pane t p).shutter = some h ∧ h.keepFar = true ∧ h.d = s.time.beat + 1) := by
  obtain ⟨z, hz, ht⟩ := starts_effectLeft (i := .shutdown r k) hs rfl (by norm_num)
  refine ⟨_, ht, ?_⟩
  rw [← hz.time, ← (funext hz.pane : pane z = pane s)]
  refine ⟨fun h => ?_, fun h => ?_⟩
  · have he : startEffect 0x0081 z r.val k = _ := doShutdown_idle h r.val
    rw [he]
    obtain ⟨hdk, hsd⟩ := afterShutdown_spec z (bitAt (prm k 0 1) 0)
    generalize afterShutdown z (bitAt (prm k 0 1) 0) = u at hdk hsd ⊢
    exact ⟨hz.done hdk, hsd⟩
  · obtain ⟨n, hn, ho⟩ := h
    have he : startEffect 0x0081 z r.val k = _ := doShutdown_busy hn ho r.val
    rw [he]
    obtain ⟨hdk, -, hpane⟩ := foldl_shutdownPane z 16
    generalize (List.range 16).foldl shutdownPane z = u at hdk hpane ⊢
    refine ⟨hz.runsOn hdk, fun p hp hpo hps => ?_⟩
    have hsd : shutDown z.time.beat (pane z p) = _ := if_pos ⟨hpo, hps⟩
    exact ⟨_, congrArg Pane.shutter ((hpane p).trans ((if_pos hp).trans hsd)), rfl, rfl⟩

/-! ### `METER_READ` and `METER_IDENT` (R455, R459) -/

theorem doMeterRead_refused (h : prm k 8 4 = 0 ∨ 65536 < prm k 8 4) (q : Nat) :
    doMeterRead s q k = answer s (badParam 8) := if_pos (by simpa using h)

/-- The records that a `METER_READ` gets. -/
def meterGot (s : State) (q : Nat) (k : Packet) : List MeterRec :=
  (meterRead s (if q = 0 then none else some (q - 1)) (prm k 0 8) (prm k 8 4)).1

theorem doMeterRead_reads (h1 : 1 ≤ prm k 8 4) (h2 : prm k 8 4 ≤ 65536) (hl : 128 * prm k 8 4 ≤ k.bulkLen.toNat)
    (hb : k.bulk ≠ none) (q : Nat) : ∃ a : Ans, a.status = stOk ∧
    a.bulk = ((meterGot s q k).flatMap fun x => x.body ++ x.sig) ∧
    doMeterRead s q k = (if q = 0 then noteRead s (meterGot s q k) else s, some a) := by
  unfold doMeterRead
  dsimp only
  rw [if_neg (by simp; omega), if_neg (Nat.not_lt.mpr hl), if_neg (by simpa using hb)]
  exact ⟨_, rfl, rfl, rfl⟩

/-- R455: the reads of the physical function are noted. -/
theorem noteRead_if (s : State) (q : Nat) (l : List MeterRec) :
    ((if q = 0 then noteRead s l else s).dk = s.dk) ∧ ((if q = 0 then noteRead s l else s).island.store = s.island.store) ∧
    (if q = 0 then noteRead s l else s).island.readSeq =
      if q = 0 then l.foldl (fun m x => max m x.seq) s.island.readSeq else s.island.readSeq := by
  split
  · exact ⟨rfl, rfl, rfl⟩
  · exact ⟨rfl, rfl, rfl⟩

theorem exec_meterRead (hs : StartsAtOnce s r.val 0x0090 k) : ∃ t, exec (.meterRead r k) s = .next t ∧
    (1 ≤ prm k 8 4 → prm k 8 4 ≤ 65536 → 128 * prm k 8 4 ≤ k.bulkLen.toNat → k.bulk ≠ none → Decides t r.val stOk ∧
      (∃ j a, (mbx t r.val).job = some j ∧ j.outcome = some a ∧
        a.bulk = ((meterGot s r.val k).flatMap fun x => x.body ++ x.sig)) ∧ t.island.store = s.island.store ∧
      t.island.readSeq = if r.val = 0 then (meterGot s r.val k).foldl (fun m x => max m x.seq) s.island.readSeq
        else s.island.readSeq) ∧
    (prm k 8 4 = 0 ∨ 65536 < prm k 8 4 → Decides t r.val stBadParam ∧ t.island = s.island) := by
  obtain ⟨z, hz, ht⟩ := starts_effectLeft (i := .meterRead r k) hs rfl (by norm_num)
  have hg : meterGot z r.val k = meterGot s r.val k := hz.keeps (meterGot · r.val k) fun _ _ _ => rfl
  have hi : z.island = s.island := hz.keeps State.island fun _ _ _ => rfl
  refine ⟨_, ht, ?_⟩
  rw [← hg, ← hi]
  refine ⟨fun h1 h2 hl hb => ?_, fun h => ?_⟩
  · obtain ⟨a, ha, hbulk, hd⟩ := doMeterRead_reads (s := z) h1 h2 hl hb r.val
    have he : startEffect 0x0090 z r.val k = _ := hd
    rw [he]
    obtain ⟨hdk, hst, hrs⟩ := noteRead_if z r.val (meterGot z r.val k)
    generalize (if r.val = 0 then noteRead z (meterGot z r.val k) else z) = u at hdk hst hrs ⊢
    exact ⟨ha ▸ hz.decides hdk a, hbulk ▸ hz.brings hdk a, hst, hrs⟩
  · have he : startEffect 0x0090 z r.val k = _ := doMeterRead_refused h r.val
    rw [he]
    exact ⟨hz.answers _, rfl⟩

theorem exec_meterIdent (hs : StartsAtOnce s r.val 0x0091 k) : ∃ t, exec (.meterIdent r k) s = .next t ∧
    Decides t r.val stOk ∧ Returns t r.val (meterIdent s) ∧ t.island = s.island := by
  obtain ⟨z, hz, ht⟩ := starts_effectLeft (i := .meterIdent r k) hs rfl (by norm_num)
  have he : startEffect 0x0091 z r.val k = answer z { status := stOk, result := meterIdent s } :=
    congrArg (fun l => answer z { status := stOk, result := l }) (hz.keeps meterIdent fun _ _ _ => rfl)
  refine ⟨_, ht, ?_⟩
  rw [he]
  exact ⟨hz.answers _, hz.returns rfl _, hz.keeps State.island fun _ _ _ => rfl⟩

/-! ### `EVENT_FREEZE`, `EVENT_READ` and `EVENT_THAW` (R479 to R481) -/

theorem exec_eventFreeze (hs : StartsAtOnce s r.val 0x00A0 k) : ∃ t, exec (.eventFreeze r k) s = .next t ∧
    (s.evrec.frozen = false → t.evrec = { s.evrec with frozen := true, drops := 0, dropStamps := none } ∧
      (s.evrec.queue = [] → Decides t r.val stOk) ∧ (s.evrec.queue ≠ [] → RunsOn t r.val)) ∧
    (s.evrec.frozen = true → Decides t r.val stBadState ∧ t.evrec = s.evrec) := by
  obtain ⟨z, hz, ht⟩ := starts_effectLeft (i := .eventFreeze r k) hs rfl (by norm_num)
  refine ⟨_, ht, ?_⟩
  rw [← (hz.keeps State.evrec fun _ _ _ => rfl : z.evrec = s.evrec)]
  have he : startEffect 0x00A0 z r.val k = if z.evrec.frozen then answer z recorderState
      else if z.evrec.queue.isEmpty then done (freezeRec z) else goesOn (freezeRec z) := rfl
  rw [he]
  refine ⟨fun h => ?_, fun h => ?_⟩
  · rw [if_neg (by simp [h])]
    refine ⟨?_, fun hq => ?_, fun hq => ?_⟩
    · split
      · rfl
      · rfl
    · rw [if_pos (by simp [hq])]
      exact hz.done rfl
    · rw [if_neg (by simpa using hq)]
      exact hz.runsOn rfl
  · rw [if_pos h]
    exact ⟨hz.answers _, rfl⟩

theorem doEventRead_reads (hf : s.evrec.frozen = true) (hr : eventRangeOk (prm k 0 8) (prm k 8 4) = true)
    (hl : prm k 8 4 ≤ k.bulkLen.toNat) (hb : k.bulk ≠ none) (q : Nat) : ∃ t : State, t.dk = s.dk ∧
    doEventRead s q k = (t, some { status := stOk, bulk := eventBytes s (prm k 0 8) (prm k 8 4) }) := by
  refine ⟨if bitAt (prm k 0 8) 63 then countReads (tookFree s) 16 (prm k 0 8 % 2 ^ 32) (prm k 8 4) else s, ?_, ?_⟩
  · split
    · exact countReads_dk ..
    · rfl
  · unfold doEventRead
    dsimp only
    rw [if_neg (by simp [hf]), if_neg (by simp [hr]), if_neg (Nat.not_lt.mpr hl), if_neg (by simpa using hb)]

theorem doEventRead_thawed (hf : s.evrec.frozen = false) (q : Nat) : doEventRead s q k = answer s recorderState :=
  if_pos (by simp [hf])

/-- A read leaves the recorder as it was. -/
theorem evrec_doEventRead (s : State) (q : Nat) (k : Packet) : (doEventRead s q k).1.evrec = s.evrec := by
  unfold doEventRead
  dsimp only
  split
  · rfl
  · split
    · rfl
    · split
      · rfl
      · split
        · rfl
        · split
          · exact countReads_evrec ..
          · rfl

theorem evrec_effectLeft (q : Nat) (e : Effect) : (effectLeft q e).evrec = e.1.evrec := by
  obtain ⟨t, a⟩ := e
  cases a with
  | none => rfl
  | some a => rfl

theorem exec_eventRead (hs : StartsAtOnce s r.val 0x00A1 k) : ∃ t, exec (.eventRead r k) s = .next t ∧
    t.evrec = s.evrec ∧
    (s.evrec.frozen = true → eventRangeOk (prm k 0 8) (prm k 8 4) = true → prm k 8 4 ≤ k.bulkLen.toNat → k.bulk ≠ none →
      Decides t r.val stOk ∧ ∃ j a, (mbx t r.val).job = some j ∧ j.outcome = some a ∧
        a.bulk = eventBytes s (prm k 0 8) (prm k 8 4)) ∧
    (s.evrec.frozen = false → Decides t r.val stBadState) := by
  obtain ⟨z, hz, ht⟩ := starts_effectLeft (i := .eventRead r k) hs rfl (by norm_num)
  have hr : z.evrec = s.evrec := hz.keeps State.evrec fun _ _ _ => rfl
  have hb : eventBytes z (prm k 0 8) (prm k 8 4) = eventBytes s (prm k 0 8) (prm k 8 4) :=
    hz.keeps (eventBytes · _ _) fun _ _ _ => rfl
  refine ⟨_, ht, ?_⟩
  rw [← hb, ← hr]
  refine ⟨(evrec_effectLeft ..).trans (evrec_doEventRead z r.val k), fun hf hrg hl hbk => ?_, fun hf => ?_⟩
  · obtain ⟨u, hdk, hd⟩ := doEventRead_reads (s := z) hf hrg hl hbk r.val
    have he : startEffect 0x00A1 z r.val k = _ := hd
    rw [he]
    exact ⟨hz.decides hdk _, hz.brings hdk _⟩
  · have he : startEffect 0x00A1 z r.val k = _ := doEventRead_thawed hf r.val
    rw [he]
    exact hz.answers _

theorem thawRec_spec (s : State) : (thawRec s).dk = s.dk ∧ (thawRec s).evrec.frozen = false ∧ (thawRec s).evrec.due = [] := by
  have hdk : (thawRec s).dk = s.dk := by
    unfold thawRec
    dsimp only
    rw [startSpill_dk, foldl_dk writeOwn writeOwn_dk, writeOwn_dk]
    rfl
  have hth : thw (thawRec s).evrec = (false, []) := by
    unfold thawRec
    dsimp only
    rw [startSpill_thw, foldl_thw writeOwn writeOwn_thw, writeOwn_thw]
    rfl
  exact ⟨hdk, congrArg Prod.fst hth, congrArg Prod.snd hth⟩

theorem exec_eventThaw (hs : StartsAtOnce s r.val 0x00A2 k) : ∃ t, exec (.eventThaw r k) s = .next t ∧
    (s.evrec.frozen = true → Decides t r.val stOk ∧ t.evrec.frozen = false ∧ t.evrec.due = []) ∧
    (s.evrec.frozen = false → Decides t r.val stBadState ∧ t.evrec = s.evrec) := by
  obtain ⟨z, hz, ht⟩ := starts_effectLeft (i := .eventThaw r k) hs rfl (by norm_num)
  refine ⟨_, ht, ?_⟩
  rw [← (hz.keeps State.evrec fun _ _ _ => rfl : z.evrec = s.evrec)]
  have he : startEffect 0x00A2 z r.val k = if z.evrec.frozen then done (thawRec z) else answer z recorderState := rfl
  rw [he]
  refine ⟨fun h => ?_, fun h => ?_⟩
  · rw [if_pos h]
    obtain ⟨hdk, hf, hd⟩ := thawRec_spec z
    generalize thawRec z = u at hdk hf hd ⊢
    exact ⟨hz.done hdk, hf, hd⟩
  · rw [if_neg (by simp [h])]
    exact ⟨hz.answers _, rfl⟩

end Sys2Proof.Machine

open Sys2Proof Sys2Proof.Machine

/-- Settles O55: each service by its effect on the state in which it starts; a shutdown pane by pane. -/
theorem serviceCommands : Obligations.ServiceCommands := by
  unfold Obligations.ServiceCommands
  intro s r k q starts bulk
  exact ⟨exec_selfTest, exec_shutdown, exec_meterRead, exec_meterIdent, exec_eventFreeze, exec_eventRead, exec_eventThaw⟩

end


section
/-! PROOFS. The Metrology Island (R449 to R451, R461, R462, R465 to R467). -/

namespace Sys2Proof.Machine

variable {s : State}

/-! ### What a record changes -/

theorem meterEvent_beside (s : State) (cause n : Nat) :
    (meterEvent s cause n).island = s.island ∧ (meterEvent s cause n).power = s.power := by
  unfold meterEvent
  dsimp only
  split
  · exact ⟨record_island .., record_power ..⟩
  · exact ⟨(msix_island ..).trans (record_island ..), (msix_power ..).trans (record_power ..)⟩

/-- R462: a durable record stands in the store, with what the store then says of itself. -/
theorem storeRec_beside (s : State) (r : MeterRec) : (storeRec s r).power = s.power ∧ ∃ st l w,
    (storeRec s r).island = { s.island with store := st, lostUnread := l, storeWarn := w } := by
  unfold storeRec
  extract_lets lost s1 s2
  have h1 : s1.power = s.power ∧ ∃ st l, s1.island = { s.island with store := st, lostUnread := l } := ⟨rfl, _, _, rfl⟩
  have h2 : s2.power = s.power ∧ ∃ st l, s2.island = { s.island with store := st, lostUnread := l } := by
    obtain ⟨hi, hp⟩ := meterEvent_beside s1 0 s1.island.lostUnread.toNat
    rcases ite_eq_or_eq (lost = true) (meterEvent s1 0 s1.island.lostUnread.toNat) s1 with h | h
    · rw [show s2 = _ from h, hi, hp]
      exact h1
    · rw [show s2 = _ from h]
      exact h1
  clear_value s2
  obtain ⟨hp, st, l, hi⟩ := h2
  split
  · obtain ⟨hi', hp'⟩ := meterEvent_beside (modIsland s2 fun i => { i with storeWarn := true }) 1 (unreadCount s2.island)
    refine ⟨hp'.trans hp, st, l, true, hi'.trans ?_⟩
    show { s2.island with storeWarn := true } = _
    rw [hi]
  · exact ⟨hp, st, l, s.island.storeWarn, hi⟩

/-- The island writes: it runs, and its records become durable. -/
structure Writes (i : Island) : Prop where
  runs : i.running = true
  unstopped : i.stopped = false
  sound : i.fault = false

section
variable (rtype p flags tag epoch : Nat) (rest : List Byte)

theorem writeRec_closed (h : s.island.running = false ∨ s.island.stopped = true) :
    writeRec s rtype p flags tag epoch rest = s := by
  refine if_pos ?_
  rcases h with h | h
  · simp [h]
  · simp [h]

/-- R465: a record takes its number; it stands in the store, or waits. -/
theorem writeRec_open (hr : s.island.running = true) (ho : s.island.stopped = false) : ∃ r,
    writeRec s rtype p flags tag epoch rest =
      if s.island.fault then holdRec (modIsland s fun i => { i with newestSeq := s.island.newestSeq + 1 }) r
      else storeRec (modIsland s fun i => { i with newestSeq := s.island.newestSeq + 1 }) r := by
  unfold writeRec
  dsimp only
  rw [if_neg (by simp [hr, ho])]
  exact ⟨_, rfl⟩

theorem writeRec_writes (h : Writes s.island) : (writeRec s rtype p flags tag epoch rest).power = s.power ∧ ∃ st l w,
    (writeRec s rtype p flags tag epoch rest).island = { s.island with
      newestSeq := s.island.newestSeq + 1, store := st, lostUnread := l, storeWarn := w } := by
  obtain ⟨r, hr⟩ := writeRec_open rtype p flags tag epoch rest h.runs h.unstopped
  rw [hr, if_neg (by simp [h.sound])]
  exact storeRec_beside (modIsland s fun i => { i with newestSeq := s.island.newestSeq + 1 }) r

/-- The island without what a record may change. -/
def beyondRecords (i : Island) : Island :=
  { i with newestSeq := 0, store := [], lostUnread := 0, storeWarn := false, held := [], stopped := false, fault := false }

theorem storeRec_beyond (s : State) (r : MeterRec) : beyondRecords (storeRec s r).island = beyondRecords s.island := by
  obtain ⟨-, st, l, w, h⟩ := storeRec_beside s r
  rw [h]
  rfl

theorem holdRec_beyond (s : State) (r : MeterRec) : beyondRecords (holdRec s r).island = beyondRecords s.island := by
  show beyondRecords (if _ then _ else _) = _
  split
  · rfl
  · rfl

theorem writeRec_beyond : beyondRecords (writeRec s rtype p flags tag epoch rest).island = beyondRecords s.island := by
  unfold writeRec
  dsimp only
  split
  · rfl
  · split
    · exact (holdRec_beyond ..).trans rfl
    · exact (storeRec_beyond ..).trans rfl

/-- A record takes the next number, even where it has to wait. -/
theorem writeRec_newestSeq (hr : s.island.running = true) (ho : s.island.stopped = false) :
    (writeRec s rtype p flags tag epoch rest).island.newestSeq = s.island.newestSeq + 1 := by
  obtain ⟨r, h⟩ := writeRec_open rtype p flags tag epoch rest hr ho
  rw [h]
  split
  · show (if _ then _ else _ : Island).newestSeq = _
    split
    · rfl
    · rfl
  · obtain ⟨-, st, l, w, h⟩ := storeRec_beside (modIsland s fun i => { i with newestSeq := s.island.newestSeq + 1 }) r
    rw [h]
    rfl

end

/-! ### The interval boundary (R450, R451) -/

/-- What the records of an interval leave alone, and the number that the next one will bear. -/
def intervalPart (i : Island) : Bool × Bool × Bool × Nat × Nat := (i.running, i.stopped, i.fault, i.ns, i.intervalMs)

theorem writes_iff (i : Island) : Writes i ↔ (intervalPart i).1 = true ∧ (intervalPart i).2.1 = false ∧ (intervalPart i).2.2.1 = false :=
  ⟨fun h => ⟨h.runs, h.unstopped, h.sound⟩, fun h => ⟨h.1, h.2.1, h.2.2⟩⟩

theorem Writes.of_intervalPart {i j : Island} (h : Writes i) (e : intervalPart j = intervalPart i) : Writes j := by
  rw [writes_iff, e]
  exact (writes_iff i).mp h

/-- One record more: what the records of an interval change of the island besides their store. -/
structure OneMore (i j : Island) : Prop where
  part : intervalPart j = intervalPart i
  meters : j.meters = i.meters
  kept : j.kept = i.kept
  next : j.newestSeq = i.newestSeq + 1

theorem writeRec_oneMore (h : Writes s.island) (rtype p flags tag epoch : Nat) (rest : List Byte) :
    OneMore s.island (writeRec s rtype p flags tag epoch rest).island := by
  obtain ⟨-, st, l, w, hi⟩ := writeRec_writes rtype p flags tag epoch rest h
  rw [hi]
  exact ⟨rfl, rfl, rfl, rfl⟩

theorem keptRec_oneMore (h : Writes s.island) (p : Nat) (m : Meter) (extra : Nat) :
    OneMore s.island (keptRec s p m extra).island := writeRec_oneMore h ..

theorem paneRec_oneMore (h : Writes s.island) (rtype p : Nat) (m : Meter) (extra : Nat) :
    OneMore s.island (paneRec s rtype p m extra).island := writeRec_oneMore (s := tookFree s) h ..

/-- The pane has a meter whose occupancy is older than the present millisecond. -/
def recordsAt (ms : Nat) (i : Island) (p : Nat) : Bool := (tblFind i.meters p).any fun m => m.sinceMs < ms

/-- The pane's space is kept. -/
def keepsAt (i : Island) (p : Nat) : Bool := (tblFind i.kept p).isSome

/-- The step of `endKept` for one pane. -/
def keptPane (extra : Nat) (resume : Bool) (s : State) (p : Nat) : State :=
  match tblFind s.island.kept p with
  | some m =>
    let s1 := keptRec s p m extra
    if resume then modIsland s1 fun i => { i with kept := tblSet i.kept p (afterRecord s m) }
    else modIsland s1 fun i => { i with kept := tblSet i.kept p { afterRecord s m with farAcc := 0 } }
  | none => s

theorem endKept_eq (s : State) : endKept s 0 true = (List.range 16).foldl (keptPane 0 true) s := rfl

theorem tblFind_tblSet {β : Type} (t : Tbl β) (a b : Nat) (v : β) :
    tblFind (tblSet t a v) b = if b = a then some v else tblFind t b := by
  split
  next h => rw [h, tblFind_tblSet_self]
  next h => exact tblFind_tblSet_ne t a b v h

/-- R451: the record of a kept space. -/
theorem keptPane_writes (h : Writes s.island) (extra p : Nat) : ∃ t, keptPane extra true s p = t ∧
    intervalPart t.island = intervalPart s.island ∧ t.island.meters = s.island.meters ∧ keepsAt t.island = keepsAt s.island ∧
    t.island.newestSeq = s.island.newestSeq + if keepsAt s.island p then 1 else 0 := by
  refine ⟨_, rfl, ?_⟩
  unfold keptPane
  cases hk : tblFind s.island.kept p with
  | none => exact ⟨rfl, rfl, rfl, by simp [keepsAt, hk]⟩
  | some m =>
    have hc := keptRec_oneMore h p m extra
    dsimp only
    rw [if_pos rfl]
    generalize keptRec s p m extra = u at hc ⊢
    refine ⟨hc.part, hc.meters, funext fun q => ?_, hc.next.trans (by simp [keepsAt, hk])⟩
    show (tblFind (tblSet u.island.kept p _) q).isSome = (tblFind s.island.kept q).isSome
    rw [hc.kept, tblFind_tblSet]
    split
    next hq => rw [hq, hk]; rfl
    next => rfl

theorem foldl_keptPane (extra : Nat) (l : List Nat) (s : State) (h : Writes s.island) : ∃ t,
    l.foldl (keptPane extra true) s = t ∧ intervalPart t.island = intervalPart s.island ∧ t.island.meters = s.island.meters ∧
    t.island.newestSeq = s.island.newestSeq + (l.filter (keepsAt s.island)).length := by
  induction l generalizing s with
  | nil => exact ⟨s, rfl, rfl, rfl, rfl⟩
  | cons p l ih =>
    obtain ⟨u, hu, hip, hm, hk, hn⟩ := keptPane_writes h extra p
    obtain ⟨t, ht, hip', hm', hn'⟩ := ih u (h.of_intervalPart hip)
    refine ⟨t, by rw [List.foldl_cons, hu, ht], hip'.trans hip, hm'.trans hm, ?_⟩
    rw [hn', hn, hk, List.filter_cons]
    split
    · rw [List.length_cons]
      omega
    · rfl

/-- R450: the record of an occupancy. -/
theorem boundaryRec_writes (h : Writes s.island) (p : Nat) : ∃ t, boundaryRec s p = t ∧
    intervalPart t.island = intervalPart s.island ∧
    (∀ q, q ≠ p → recordsAt (islandMs s) t.island q = recordsAt (islandMs s) s.island q) ∧
    t.island.newestSeq = s.island.newestSeq + if recordsAt (islandMs s) s.island p then 1 else 0 := by
  refine ⟨_, rfl, ?_⟩
  unfold boundaryRec
  cases hm : tblFind s.island.meters p with
  | none => exact ⟨rfl, fun q hq => rfl, by simp [recordsAt, hm]⟩
  | some m =>
    dsimp only
    split
    next hle => exact ⟨rfl, fun q hq => rfl, by simp [recordsAt, hm, hle]⟩
    next hlt =>
      have hc := paneRec_oneMore h rtInterval p m 0
      generalize paneRec s rtInterval p m 0 = u at hc ⊢
      refine ⟨hc.part, fun q hq => ?_, hc.next.trans (by rw [if_pos (by simpa [recordsAt, hm] using hlt)])⟩
      show (tblFind (tblSet u.island.meters p _) q).any _ = (tblFind s.island.meters q).any _
      rw [hc.meters, tblFind_tblSet, if_neg hq]

theorem foldl_boundaryRec (l : List Nat) (hl : l.Nodup) (s : State) (h : Writes s.island) : ∃ t,
    l.foldl boundaryRec s = t ∧ intervalPart t.island = intervalPart s.island ∧
    t.island.newestSeq = s.island.newestSeq + (l.filter (recordsAt (islandMs s) s.island)).length := by
  induction l generalizing s with
  | nil => exact ⟨s, rfl, rfl, rfl⟩
  | cons p l ih =>
    obtain ⟨hp, hl⟩ := List.nodup_cons.mp hl
    obtain ⟨u, hu, hip, hr, hn⟩ := boundaryRec_writes h p
    obtain ⟨t, ht, hip', hn'⟩ := ih hl u (h.of_intervalPart hip)
    have hms : islandMs u = islandMs s := congrArg (· / 1000000) (congrArg (fun x => x.2.2.2.1) hip : u.island.ns = s.island.ns)
    have hf : l.filter (recordsAt (islandMs u) u.island) = l.filter (recordsAt (islandMs s) s.island) := by
      rw [hms]
      exact List.filter_congr fun q hq => hr q fun e => hp (e ▸ hq)
    refine ⟨t, by rw [List.foldl_cons, hu, ht], hip'.trans hip, ?_⟩
    rw [hn', hn, hf, List.filter_cons]
    split
    · rw [List.length_cons]
      omega
    · rfl

theorem operRec_writes (h : Writes s.island) : intervalPart (operRec s).island = intervalPart s.island ∧
    (operRec s).island.newestSeq = s.island.newestSeq + 1 := by
  have hc := writeRec_oneMore (s := tookFree s) h rtOperator modulePane
    (b2n s.island.oper.notLocked + 16 * b2n (decide (2 ^ 32 - 1 ≤ s.island.oper.refusals))) 0 0
    (measurands s s.island.oper (Config.energy s.free 16) (Config.energy s.free 17) (Config.energy s.free 18))
  exact ⟨hc.part, hc.next⟩

theorem exec_meterIntervalBoundary (hr : s.island.running = true) (ho : s.island.stopped = false) (hf : s.island.fault = false)
    (hb : s.island.lastBoundary + s.island.intervalMs ≤ islandMs s) : ∃ t, exec .meterIntervalBoundary s = .next t ∧
    t.island.lastBoundary = islandMs s - islandMs s % s.island.intervalMs ∧
    t.island.newestSeq = s.island.newestSeq + 1 + ((List.range 16).filter fun p => (tblFind s.island.kept p).isSome).length +
      ((List.range 16).filter fun p => (tblFind s.island.meters p).any fun m => m.sinceMs < islandMs s).length := by
  obtain ⟨t1, h1, hip1, hm1, hn1⟩ := foldl_keptPane 0 (List.range 16) s ⟨hr, ho, hf⟩
  have hw1 : Writes t1.island := Writes.of_intervalPart ⟨hr, ho, hf⟩ hip1
  obtain ⟨t2, h2, hip2, hn2⟩ := foldl_boundaryRec (List.range 16) List.nodup_range t1 hw1
  obtain ⟨hip3, hn3⟩ := operRec_writes (hw1.of_intervalPart hip2)
  have hip : intervalPart (operRec t2).island = intervalPart s.island := hip3.trans (hip2.trans hip1)
  have hms : islandMs t1 = islandMs s := congrArg (· / 1000000) (congrArg (fun x => x.2.2.2.1) hip1 : t1.island.ns = s.island.ns)
  have hrec : recordsAt (islandMs t1) t1.island = recordsAt (islandMs s) s.island := by
    unfold recordsAt
    rw [hms, hm1]
  have hkept : endKept s 0 true = t1 := (endKept_eq s).trans h1
  refine ⟨modIsland (operRec t2) fun i => { i with lastBoundary := islandMs s - islandMs s % i.intervalMs }, ?_, ?_, ?_⟩
  · show execMeterIntervalBoundary s = _
    unfold execMeterIntervalBoundary
    dsimp only
    rw [if_neg (by simp [hr, ho]; omega), hkept, h2]
  · exact congrArg (fun n => islandMs s - islandMs s % n) (congrArg (fun x => x.2.2.2.2) hip)
  · show (operRec t2).island.newestSeq = _
    rw [hn3, hn2, hn1, hrec]
    unfold recordsAt keepsAt
    omega

/-! ### Records that wait (R465, R466) -/

theorem foldl_storeRec (l : List MeterRec) (s : State) : ∃ st n w,
    (l.foldl storeRec s).island = { s.island with store := st, lostUnread := n, storeWarn := w } := by
  induction l generalizing s with
  | nil => exact ⟨_, _, _, rfl⟩
  | cons r l ih =>
    obtain ⟨st, n, w, h⟩ := ih (storeRec s r)
    obtain ⟨-, st', n', w', h'⟩ := storeRec_beside s r
    exact ⟨st, n, w, by rw [List.foldl_cons, h, h']⟩

theorem exec_meterRecordRetry_stores (hr : s.island.running = true) (ho : s.island.stopped = false) :
    exec (.meterRecordRetry true) s =
      .next (s.island.held.foldl storeRec (modIsland s fun i => { i with held := [], fault := false })) := by
  show execMeterRecordRetry true s = _
  unfold execMeterRecordRetry
  dsimp only
  rw [if_neg (by simp [hr]), if_pos rfl]
  exact if_neg (by simp [ho])

theorem exec_meterRecordRetry_durable (hr : s.island.running = true) (ho : s.island.stopped = false) :
    ∃ t, exec (.meterRecordRetry true) s = .next t ∧ t.island.fault = false ∧ t.island.held = [] ∧
      t.island.newestSeq = s.island.newestSeq := by
  obtain ⟨st, n, w, h⟩ := foldl_storeRec s.island.held (modIsland s fun i => { i with held := [], fault := false })
  exact ⟨_, exec_meterRecordRetry_stores hr ho, by rw [h]; rfl, by rw [h]; rfl, by rw [h]; rfl⟩

theorem exec_meterRecordRetry_failed (hr : s.island.running = true) (hf : s.island.fault = false) :
    ∃ t, exec (.meterRecordRetry false) s = .next t ∧ t.island.fault = true ∧ t.island.newestSeq = s.island.newestSeq := by
  have he : execMeterRecordRetry false s = _ := (if_neg (by simp [hr])).trans
    ((if_neg Bool.false_ne_true).trans (if_neg (by simp [hf])))
  cases hst : tblFind s.island.store (s.island.newestSeq % 65536) with
  | some r =>
    obtain ⟨hi, -⟩ := meterEvent_beside (modIsland s fun i => { i with
      fault := true, held := [r], store := tblDel i.store (i.newestSeq % 65536) }) 2 1
    rw [hst] at he
    exact ⟨_, he, (congrArg Island.fault hi).trans rfl, (congrArg Island.newestSeq hi).trans rfl⟩
  | none =>
    obtain ⟨hi, -⟩ := meterEvent_beside (modIsland s fun i => { i with fault := true }) 2 0
    rw [hst] at he
    exact ⟨_, he, (congrArg Island.fault hi).trans rfl, (congrArg Island.newestSeq hi).trans rfl⟩

/-! ### The seal (R461) -/

/-- R461: the seal count rises once, and what no record changes is as it was. -/
theorem sealEvent_rises (cause : Nat) (h : s.island.sealCount ≠ 0xFFFF) :
    beyondRecords (sealEvent s cause).island = beyondRecords { s.island with sealCount := s.island.sealCount + 1 } ∧
    (s.island.running = true → s.island.stopped = false → (sealEvent s cause).island.newestSeq = s.island.newestSeq + 1) := by
  have hb : beyondRecords (legalRec (modIsland s fun i => { i with sealCount := i.sealCount + 1 }) rtSeal cause).island =
      beyondRecords { s.island with sealCount := s.island.sealCount + 1 } := writeRec_beyond ..
  have hn : s.island.running = true → s.island.stopped = false →
      (legalRec (modIsland s fun i => { i with sealCount := i.sealCount + 1 }) rtSeal cause).island.newestSeq =
        s.island.newestSeq + 1 := fun hr ho =>
    writeRec_newestSeq (s := modIsland s fun i => { i with sealCount := i.sealCount + 1 }) _ _ _ _ _ _ hr ho
  unfold sealEvent
  dsimp only
  rw [if_neg h]
  generalize legalRec (modIsland s fun i => { i with sealCount := i.sealCount + 1 }) rtSeal cause = u at hb hn ⊢
  split
  · exact ⟨hb, hn⟩
  · exact ⟨hb, hn⟩

theorem exec_debugPadsEnabled (s : State) : ∃ t, exec .debugPadsEnabled s = .next t ∧ t.island.debugOpen = true ∧
    (s.island.sealCount = 0xFFFF → t.island.sealCount = 0xFFFF ∧ t.island.newestSeq = s.island.newestSeq) ∧
    (s.island.sealCount ≠ 0xFFFF → t.island.sealCount = s.island.sealCount + 1 ∧
      (s.island.running = true → s.island.stopped = false → t.island.newestSeq = s.island.newestSeq + 1)) := by
  refine ⟨_, rfl, ?_⟩
  by_cases h : s.island.sealCount = 0xFFFF
  · rw [show sealEvent (modIsland s fun i => { i with debugOpen := true }) 3 = _ from if_pos h]
    exact ⟨rfl, fun _ => ⟨h, rfl⟩, fun hn => absurd h hn⟩
  · obtain ⟨hb, hn⟩ := sealEvent_rises (s := modIsland s fun i => { i with debugOpen := true }) 3 h
    generalize sealEvent (modIsland s fun i => { i with debugOpen := true }) 3 = u at hb hn ⊢
    exact ⟨congrArg Island.debugOpen hb, fun he => absurd he h, fun _ => ⟨congrArg Island.sealCount hb, hn⟩⟩

theorem sealCount_writeRec (s : State) (rtype p flags tag epoch : Nat) (rest : List Byte) :
    (writeRec s rtype p flags tag epoch rest).island.sealCount = s.island.sealCount := by
  have h := congrArg Island.sealCount (writeRec_beyond (s := s) rtype p flags tag epoch rest)
  exact h

theorem sealCount_keptPane (s : State) (extra p : Nat) : (keptPane extra true s p).island.sealCount = s.island.sealCount := by
  unfold keptPane
  split
  · dsimp only
    rw [if_pos rfl]
    exact sealCount_writeRec ..
  · rfl

theorem sealCount_endKept (s : State) : (endKept s 0 true).island.sealCount = s.island.sealCount := by
  have key (l : List Nat) (s : State) : (l.foldl (keptPane 0 true) s).island.sealCount = s.island.sealCount := by
    induction l generalizing s with
    | nil => rfl
    | cons p l ih => exact (ih _).trans (sealCount_keptPane ..)
  rw [endKept_eq, key]

theorem sealCount_operRec (s : State) : (operRec s).island.sealCount = s.island.sealCount :=
  sealCount_writeRec (tookFree s) ..

/-- The state in which an admitted update leaves its seal. -/
def updated (s : State) (u : MeterUpdate) : State :=
  modIsland (operRec (endKept s 0 true)) fun i =>
    { i with legalVersion := u.legalVersion, legalSha := bytesAt u.legalSha 0 32, intervalMs := u.intervalMs }

theorem sealCount_updated (s : State) (u : MeterUpdate) : (updated s u).island.sealCount = s.island.sealCount := by
  have h := (sealCount_operRec (endKept s 0 true)).trans (sealCount_endKept s)
  unfold updated
  generalize operRec (endKept s 0 true) = t at h ⊢
  exact h

theorem exec_meterUpdatePackage {u : MeterUpdate} (hu : updateOk s u = true) (h : s.island.sealCount ≠ 0xFFFF) :
    ∃ t, exec (.meterUpdatePackage u) s = .next t ∧ t.island.legalVersion = u.legalVersion ∧
      t.island.intervalMs = u.intervalMs ∧ t.island.sealCount = s.island.sealCount + 1 := by
  have he : exec (.meterUpdatePackage u) s = .next (sealEvent (updated s u) (if u.firmware then 1 else 2)) := if_pos hu
  have hs := sealCount_updated s u
  have hl : (updated s u).island.legalVersion = u.legalVersion := rfl
  have hi : (updated s u).island.intervalMs = u.intervalMs := rfl
  rw [he, ← hs, ← hl, ← hi]
  rw [← hs] at h
  generalize updated s u = t at h ⊢
  obtain ⟨hb, -⟩ := sealEvent_rises (if u.firmware then 1 else 2) h
  exact ⟨_, rfl, (congrArg Island.legalVersion hb).trans rfl, (congrArg Island.intervalMs hb).trans rfl,
    (congrArg Island.sealCount hb).trans rfl⟩

/-- The island as a start finds it. -/
def islandUp (s : State) : State :=
  modIsland { s with power := { s.power with input := true, pwrGood := s.power.pwrEn } } fun i =>
    { i with running := true, fault := false, stopped := i.sealCount == 0xFFFF
             oper := { Meter.reset with sinceMs := islandMs s } }

theorem exec_islandStart (h : s.island.running = false) : ∃ t, exec .islandStart s = .next t ∧ t.power.input = true ∧
    t.island.running = true ∧ t.island.fault = false ∧ t.island.ns = s.island.ns ∧
    t.island.newestSeq = if s.island.sealCount = 0xFFFF then s.island.newestSeq else s.island.newestSeq + 1 := by
  refine ⟨legalRec (islandUp s) rtPower 2, if_neg (by simp [h]), ?_⟩
  unfold legalRec
  dsimp only
  by_cases hc : s.island.sealCount = 0xFFFF
  · rw [writeRec_closed _ _ _ _ _ _ (.inr (by simp [islandUp, modIsland, hc])), if_pos hc]
    exact ⟨rfl, rfl, rfl, rfl, rfl⟩
  · have hw : Writes (islandUp s).island := ⟨rfl, beq_eq_false_iff_ne.mpr hc, rfl⟩
    rw [if_neg hc]
    obtain ⟨hp, st, l, w, hi⟩ := writeRec_writes rtPower modulePane 0 0 0
      (natLe 1 2 ++ zeros 4 ++ natLe 4 (islandUp s).island.legalVersion.toNat ++
        bytesAt (if (islandUp s).island.legalSha.isEmpty then Config.legalSha else (islandUp s).island.legalSha) 0 32) hw
    generalize writeRec (islandUp s) _ _ _ _ _ _ = u at hp hi ⊢
    rw [hp, hi]
    exact ⟨rfl, rfl, rfl, rfl, rfl⟩

end Sys2Proof.Machine

open Sys2Proof Sys2Proof.Machine

/-- Settles O56: the records of an interval one pane after the other, each with the next number; a seal by its record. -/
theorem islandRecords : Obligations.IslandRecords := by
  unfold Obligations.IslandRecords
  intro s i after
  refine ⟨exec_meterIntervalBoundary, fun h => if_pos ?_, exec_meterRecordRetry_durable, exec_meterRecordRetry_failed,
    fun hr d => if_pos (by simpa using hr), exec_debugPadsEnabled s, fun u hu hc => exec_meterUpdatePackage hu hc,
    fun u hu => if_neg (by simp [hu]), exec_islandStart, fun hr => if_pos hr⟩
  rcases h with h | h | h
  · simp [show s.island.running = false from h]
  · simp [show s.island.stopped = true from h]
  · simp [show islandMs s < s.island.lastBoundary + s.island.intervalMs from h]

end


section
/-! PROOFS. The event recorder (R36, R37, R39, R473 to R475, R477, R479). -/

namespace Sys2Proof.Machine

variable {s : State}

/-! ### Delivery (R36, R37, R39) -/

theorem length_queueInsert (n : Nat) (e : Event) (l : List (Nat × Event)) : (queueInsert n e l).length = l.length + 1 := by
  induction l with
  | nil => rfl
  | cons x l ih =>
    rw [queueInsert]
    split
    · rfl
    · rw [List.length_cons, ih, List.length_cons]

theorem mem_queueInsert (n : Nat) (e : Event) (l : List (Nat × Event)) (y : Nat × Event) :
    y ∈ queueInsert n e l ↔ y = (n, e) ∨ y ∈ l := by
  induction l with
  | nil => exact List.mem_singleton.trans (by simp)
  | cons x l ih =>
    rw [queueInsert]
    split
    · exact List.mem_cons
    · rw [List.mem_cons, ih, List.mem_cons]
      tauto

theorem satAdd_lt (w a b : Nat) : satAdd w a b < 2 ^ w :=
  (Nat.min_le_left _ _).trans_lt (Nat.sub_lt (Nat.two_pow_pos w) Nat.one_pos)

theorem toNat_ofNat_satAdd (w a b : Nat) : (BitVec.ofNat w (satAdd w a b)).toNat = satAdd w a b :=
  Nat.mod_eq_of_lt (satAdd_lt w a b)

theorem deliver_evrec (s : State) (e : Event) : deliver s e = { s with evrec := (deliver s e).evrec } := by
  unfold deliver
  dsimp only
  split
  · rfl
  · split
    · rfl
    · rfl

theorem exec_eventDelivery {e : Event} (hl : srcListed e.source.toNat = true) (hd : declaresBank e = false) :
    exec (.eventDelivery e) s = .next (deliver s e) :=
  (if_neg (by simp [hl])).trans (if_neg (by simp [hd]))

theorem declarations_queueNotice (s : State) (ntype pane : Nat) (tag : BitVec 32) (epoch : BitVec 16)
    (code index source : Nat) :
    (queueNotice s ntype pane tag epoch code index source).faults.declarations = s.faults.declarations := by
  unfold queueNotice
  dsimp only
  split
  · rw [msix_faults]
  · split
    · rw [msix_faults]
    · rfl

theorem declarations_tellDeclared (s : State) (row index : Nat) :
    (tellDeclared s row index).faults.declarations = s.faults.declarations := by
  unfold tellDeclared raiseWarning
  dsimp only
  rw [declarations_queueNotice, warnGroups_faults, declarations_queueNotice, record_faults]

theorem declarations_deliver (s : State) (e : Event) : (deliver s e).faults = s.faults := by
  rw [deliver_evrec]

theorem exec_eventDelivery_declared {e : Event} (hl : srcListed e.source.toNat = true) (hd : declaresBank e = true) :
    ∃ t, exec (.eventDelivery e) s = .next t ∧ t.faults.hubDegraded = true ∧
      t.faults.declarations.toNat = satAdd 24 s.faults.declarations.toNat 1 := by
  have hdecl : (tellDeclared (deliver (noteDeclared s rowJ (leAt e.payload 1 2)) e) rowJ (leAt e.payload 1 2)).faults.declarations =
      BitVec.ofNat 24 (satAdd 24 s.faults.declarations.toNat 1) := by
    rw [declarations_tellDeclared, declarations_deliver]
    rfl
  refine ⟨_, (if_neg (by simp [hl])).trans (if_pos hd), rfl, ?_⟩
  generalize tellDeclared (deliver (noteDeclared s rowJ (leAt e.payload 1 2)) e) rowJ (leAt e.payload 1 2) = u at hdecl ⊢
  show u.faults.declarations.toNat = _
  rw [hdecl]
  exact toNat_ofNat_satAdd ..

/-! ### Spills (R477) -/

/-- R477: a spill that begins changes nothing else of the recorder. -/
theorem startSpill_evrec (s : State) : ∃ b, (startSpill s).evrec = { s.evrec with spilling := b } := by
  unfold startSpill
  dsimp only
  split
  · split
    · exact ⟨s.evrec.spilling, rfl⟩
    · exact ⟨true, farWrite_evrec ..⟩
  · exact ⟨s.evrec.spilling, rfl⟩

theorem exec_spillDone {n : Nat} {rest : List Nat} (hq : s.evrec.spillQueue = n :: rest) (hs : s.evrec.spilling = true)
    (ha : spillAcked s n = true) : ∃ t, exec .spillDone s = .next t ∧ t.evrec.spilled = some n ∧
      t.evrec.spillQueue = rest := by
  have ho : spl (spillOver s).evrec = (some n, rest) := by
    unfold spillOver
    rw [hq]
    dsimp only
    rw [if_pos (by simp [hs, ha]), startSpill_spl]
    rfl
  have hp := (parkNext_spl (spillOver s)).trans ho
  exact ⟨parkNext (spillOver s), rfl, congrArg Prod.fst hp, congrArg Prod.snd hp⟩

theorem exec_spillDone_idle (hs : s.evrec.spilling = false) (hd : s.test.shutdown = none) :
    exec .spillDone s = .next s := by
  have ho : spillOver s = s := by
    unfold spillOver
    split
    · exact if_neg (by simp [hs])
    · rfl
  have hp : parkNext s = s := by
    unfold parkNext
    rw [hd]
  exact congrArg Host.Outcome.next ((congrArg parkNext ho).trans hp)

/-! ### Acceptance (R473, R474) -/

/-- The queue, the events lost that are not yet told, the last acceptance, and the suppressed events: what a record leaves
alone. -/
def besideRing (q : Recorder) : List (Nat × Event) × Nat × Option (Nat × Nat) × Tbl Nat :=
  (q.queue, q.lostSince, q.lastAccept, q.suppressed)

theorem putRec_record (s : State) (len flags code : Nat) (stamp : List Byte) (pane : Nat) (payload : List Byte) :
    besideRing (putRec s len flags code stamp pane payload).evrec = besideRing s.evrec ∧
    (putRec s len flags code stamp pane payload).evrec.nextRseq = s.evrec.nextRseq + 1 := ⟨rfl, rfl⟩

theorem newSegment_record (s : State) : besideRing (newSegment s).evrec = besideRing s.evrec ∧
    s.evrec.nextRseq < (newSegment s).evrec.nextRseq := by
  unfold newSegment
  extract_lets q seg lost s1 s2
  have h1 : besideRing s1.evrec = besideRing s.evrec ∧ s1.evrec.nextRseq = s.evrec.nextRseq := ⟨rfl, rfl⟩
  clear_value s1
  obtain ⟨hb1, hn1⟩ := h1
  have h2 : besideRing s2.evrec = besideRing s1.evrec ∧ s2.evrec.nextRseq = s1.evrec.nextRseq + 1 := putRec_record ..
  clear_value s2
  obtain ⟨hb2, hn2⟩ := h2
  split
  · obtain ⟨hb3, hn3⟩ := putRec_record (countLost s2 lost) 32 (localFlag s) 0x0004 (ownStamp s) noPane (natLe 4 lost ++ [1])
    have hl : besideRing (countLost s2 lost).evrec = besideRing s2.evrec ∧
        (countLost s2 lost).evrec.nextRseq = s2.evrec.nextRseq := ⟨rfl, rfl⟩
    exact ⟨hb3.trans (hl.1.trans (hb2.trans hb1)), by omega⟩
  · exact ⟨hb2.trans hb1, by omega⟩

theorem makeRoom_record (s : State) (len : Nat) : besideRing (makeRoom s len).evrec = besideRing s.evrec ∧
    s.evrec.nextRseq ≤ (makeRoom s len).evrec.nextRseq := by
  unfold makeRoom
  dsimp only
  split
  · obtain ⟨hb, hn⟩ := newSegment_record s
    exact ⟨hb, hn.le⟩
  · split
    · obtain ⟨hb, hn⟩ := newSegment_record (modRec s fun q =>
        { q with ring := memWrite q.ring q.wr (bytesAt (natLe 1 ((segBytes - s.evrec.wr % segBytes) / 8 - 1)) 0
          (segBytes - s.evrec.wr % segBytes)) })
      exact ⟨hb, hn.le⟩
    · exact ⟨rfl, le_rfl⟩

theorem addRec_record (s : State) (len flags code : Nat) (stamp : List Byte) (pane : Nat) (payload : List Byte) :
    besideRing (addRec s len flags code stamp pane payload).evrec = besideRing s.evrec ∧
    s.evrec.nextRseq < (addRec s len flags code stamp pane payload).evrec.nextRseq := by
  obtain ⟨hb, hn⟩ := makeRoom_record s len
  obtain ⟨hb', hn'⟩ := putRec_record (makeRoom s len) len flags code stamp pane payload
  exact ⟨hb'.trans hb, hn'.symm ▸ Nat.lt_succ_of_le hn⟩

theorem writeOwn_record (s : State) (d : DueRec) : besideRing (writeOwn s d).evrec = besideRing s.evrec ∧
    s.evrec.nextRseq < (writeOwn s d).evrec.nextRseq := addRec_record ..

/-- R474: an event that is written takes a number. -/
theorem newRec_record (s : State) (e : Event) (len : Nat) : besideRing (newRec s e len).evrec = besideRing s.evrec ∧
    s.evrec.nextRseq < (newRec s e len).evrec.nextRseq := by
  obtain ⟨hb, hn⟩ := makeRoom_record s len
  unfold newRec
  dsimp only
  generalize makeRoom s len = u at hb hn ⊢
  exact ⟨hb, Nat.lt_succ_of_le hn⟩

theorem writePriv_besideRing (s : State) (e : Event) (len : Nat) :
    besideRing (writePriv s e len).evrec = besideRing s.evrec := by
  have hf : besideRing (newRec (modRec s fun q => { q with
      fresh := tblSet q.fresh (epochKey e.beat e.code.toNat) (tblGet 0 q.fresh (epochKey e.beat e.code.toNat) + 1) }) e len).evrec =
      besideRing s.evrec := (newRec_record ..).1
  unfold writePriv
  dsimp only
  split
  · split
    · split
      · rfl
      · split
        · rfl
        · exact hf
    · exact hf
  · exact hf

/-- R474: within its code's limit an event of a limited code is written. -/
theorem writeLimited_written {e : Event} (len : Nat)
    (h : tblGet 0 s.evrec.written (epochKey e.beat e.code.toNat) < s.evrec.limit) :
    besideRing (writeLimited s e len).evrec = besideRing s.evrec ∧
    s.evrec.nextRseq < (writeLimited s e len).evrec.nextRseq := by
  unfold writeLimited
  dsimp only
  rw [if_pos h]
  generalize epochKey e.beat e.code.toNat = k
  exact newRec_record (modRec s fun q => { q with written := tblSet q.written k (tblGet 0 q.written k + 1) }) e len

/-- R474: beyond it the event is suppressed, and counted as such. -/
theorem writeLimited_suppressed {e : Event} (len : Nat)
    (h : s.evrec.limit ≤ tblGet 0 s.evrec.written (epochKey e.beat e.code.toNat)) : (writeLimited s e len).evrec =
      { s.evrec with
        suppressed := tblSet s.evrec.suppressed (epochKey e.beat e.code.toNat)
          (tblGet 0 s.evrec.suppressed (epochKey e.beat e.code.toNat) + 1) } := by
  unfold writeLimited
  dsimp only
  rw [if_neg (Nat.not_lt.mpr h)]
  rfl

theorem writeLimited_queue (s : State) (e : Event) (len : Nat) :
    (writeLimited s e len).evrec.queue = s.evrec.queue ∧ (writeLimited s e len).evrec.lostSince = s.evrec.lostSince ∧
    (writeLimited s e len).evrec.lastAccept = s.evrec.lastAccept := by
  rcases Nat.lt_or_ge (tblGet 0 s.evrec.written (epochKey e.beat e.code.toNat)) s.evrec.limit with h | h
  · obtain ⟨hb, -⟩ := writeLimited_written len h
    exact ⟨congrArg (·.1) hb, congrArg (·.2.1) hb, congrArg (·.2.2.1) hb⟩
  · rw [writeLimited_suppressed len h]
    exact ⟨rfl, rfl, rfl⟩

theorem writeEvent_limited {e : Event} {len : Nat} (h : codeInfo e.code.toNat = some (len, 1)) :
    writeEvent s e = writeLimited s e len := by
  unfold writeEvent
  rw [h]
  exact (if_neg (by decide)).trans (if_pos rfl)

theorem writeEvent_queue (s : State) (e : Event) :
    (writeEvent s e).evrec.queue = s.evrec.queue ∧ (writeEvent s e).evrec.lostSince = s.evrec.lostSince ∧
    (writeEvent s e).evrec.lastAccept = s.evrec.lastAccept := by
  have hb {t : State} (h : besideRing t.evrec = besideRing s.evrec) : t.evrec.queue = s.evrec.queue ∧
      t.evrec.lostSince = s.evrec.lostSince ∧ t.evrec.lastAccept = s.evrec.lastAccept :=
    ⟨congrArg (·.1) h, congrArg (·.2.1) h, congrArg (·.2.2.1) h⟩
  unfold writeEvent
  split
  · split
    · exact hb (writePriv_besideRing ..)
    · split
      · exact writeLimited_queue ..
      · exact hb (newRec_record ..).1
  · exact ⟨rfl, rfl, rfl⟩

theorem freezeDone_evrec (s : State) : (freezeDone s).evrec = s.evrec := by
  unfold freezeDone
  split
  · exact foldl_evrec (fun s r => decideJob s r ansOk) (fun _ _ => rfl) _ s
  · rfl

/-- With no event lost since, what follows a write leaves the ring alone. -/
theorem accepted_evrec {t : State} (h : t.evrec.lostSince = 0) :
    ∃ b, (freezeDone (startSpill (tellLost t))).evrec = { t.evrec with spilling := b } := by
  have hl : tellLost t = t := if_pos h
  obtain ⟨b, hb⟩ := startSpill_evrec t
  exact ⟨b, by rw [freezeDone_evrec, hl, hb]⟩

/-- The recorder without the event that it accepts. -/
def taken (s : State) (rest : List (Nat × Event)) : State :=
  modRec s fun q => { q with queue := rest, lastAccept := some (s.time.beat, s.time.tick) }

theorem exec_eventAccept {d : Nat} {e : Event} {rest : List (Nat × Event)} (hq : s.evrec.queue = (d, e) :: rest)
    (hm : mayAccept s = true) :
    exec .eventAccept s = .next (freezeDone (startSpill (tellLost (writeEvent (taken s rest) e)))) := by
  show execEventAccept s = _
  unfold execEventAccept
  rw [hq]
  exact if_pos hm

theorem exec_eventAccept_early {d : Nat} {e : Event} {rest : List (Nat × Event)} (hq : s.evrec.queue = (d, e) :: rest)
    (hm : mayAccept s = false) : exec .eventAccept s = .next s := by
  show execEventAccept s = _
  unfold execEventAccept
  rw [hq]
  exact if_neg (by simp [hm])

theorem exec_eventAccept_accepts {d : Nat} {e : Event} {rest : List (Nat × Event)} (hq : s.evrec.queue = (d, e) :: rest)
    (hl : s.evrec.lostSince = 0) (hm : mayAccept s = true) : ∃ t, exec .eventAccept s = .next t ∧ t.evrec.queue = rest ∧
    t.evrec.lastAccept = some (s.time.beat, s.time.tick) ∧ ∀ len, codeInfo e.code.toNat = some (len, 1) →
      (tblGet 0 s.evrec.written (epochKey e.beat e.code.toNat) < s.evrec.limit → s.evrec.nextRseq < t.evrec.nextRseq) ∧
      (s.evrec.limit ≤ tblGet 0 s.evrec.written (epochKey e.beat e.code.toNat) →
        t.evrec.nextRseq = s.evrec.nextRseq ∧ t.evrec.ring = s.evrec.ring ∧
        tblGet 0 t.evrec.suppressed (epochKey e.beat e.code.toNat) =
          tblGet 0 s.evrec.suppressed (epochKey e.beat e.code.toNat) + 1) := by
  obtain ⟨hqu, hlo, hla⟩ := writeEvent_queue (taken s rest) e
  obtain ⟨b, hb⟩ := accepted_evrec (hlo.trans hl)
  refine ⟨_, exec_eventAccept hq hm, ?_⟩
  rw [hb]
  refine ⟨hqu, hla, fun len hlen => ?_⟩
  rw [writeEvent_limited hlen]
  refine ⟨fun h => (writeLimited_written (s := taken s rest) len h).2, fun h => ?_⟩
  rw [writeLimited_suppressed (s := taken s rest) len h]
  exact ⟨rfl, rfl, tblGet_tblSet_self ..⟩

/-! ### Summaries of suppressed events (R475) -/

/-- The epochs whose suppressed events are told now. -/
def toldEpochs (s : State) : List Nat :=
  ((s.evrec.suppressed.map fun e => e.1 / 65536).eraseDups).filter fun e => (e + 1) * 4096 + 8 ≤ s.time.beat

theorem mem_toldEpochs (s : State) (n : Nat) :
    n ∈ toldEpochs s ↔ (∃ x ∈ s.evrec.suppressed, x.1 / 65536 = n) ∧ (n + 1) * 4096 + 8 ≤ s.time.beat := by
  rw [toldEpochs, List.mem_filter, List.mem_eraseDups, List.mem_map, decide_eq_true_eq]

theorem dueOwn_suppressed (s : State) (d : DueRec) : (dueOwn s d).evrec.suppressed = s.evrec.suppressed := by
  unfold dueOwn
  split
  · rfl
  · exact congrArg (·.2.2.2) (writeOwn_record s d).1

theorem foldl_dueOwn_suppressed (f : Nat → DueRec) (l : List Nat) (s : State) :
    (l.foldl (fun s e => dueOwn s (f e)) s).evrec.suppressed = s.evrec.suppressed := by
  induction l generalizing s with
  | nil => rfl
  | cons e l ih => exact (ih _).trans (dueOwn_suppressed ..)

/-- Outside a freeze each summary is written at once. -/
theorem foldl_dueOwn_written (f : Nat → DueRec) (l : List Nat) (s : State) (h : s.evrec.frozen = false) :
    s.evrec.nextRseq + l.length ≤ (l.foldl (fun s e => dueOwn s (f e)) s).evrec.nextRseq := by
  induction l generalizing s with
  | nil => exact le_rfl
  | cons e l ih =>
    have hw : dueOwn s (f e) = writeOwn s (f e) := if_neg (by simp [h])
    have hf : (writeOwn s (f e)).evrec.frozen = false := (congrArg Prod.fst (writeOwn_thw s (f e))).trans h
    have hn := (writeOwn_record s (f e)).2
    have := ih (writeOwn s (f e)) hf
    rw [List.foldl_cons, hw, List.length_cons]
    omega

theorem exec_suppressedSummary (s : State) : ∃ t, exec .suppressedSummary s = .next t ∧
    (∀ x ∈ t.evrec.suppressed, s.time.beat < (x.1 / 65536 + 1) * 4096 + 8) ∧
    (∀ x ∈ s.evrec.suppressed, s.time.beat < (x.1 / 65536 + 1) * 4096 + 8 → x ∈ t.evrec.suppressed) ∧
    ((∃ x ∈ s.evrec.suppressed, (x.1 / 65536 + 1) * 4096 + 8 ≤ s.time.beat) → s.evrec.frozen = false →
      s.evrec.nextRseq < t.evrec.nextRseq) := by
  have hs := foldl_dueOwn_suppressed (summaryRec s.evrec) (toldEpochs s) s
  have hn := foldl_dueOwn_written (summaryRec s.evrec) (toldEpochs s) s
  refine ⟨_, rfl, ?_⟩
  show (∀ x ∈ ((toldEpochs s).foldl (fun t e => dueOwn t (summaryRec s.evrec e)) s).evrec.suppressed.filter
      (fun e => !(toldEpochs s).contains (e.1 / 65536)), _) ∧
    (∀ x ∈ s.evrec.suppressed, _ → x ∈ ((toldEpochs s).foldl (fun t e => dueOwn t (summaryRec s.evrec e)) s).evrec.suppressed.filter
      (fun e => !(toldEpochs s).contains (e.1 / 65536))) ∧
    (_ → _ → _ < ((toldEpochs s).foldl (fun t e => dueOwn t (summaryRec s.evrec e)) s).evrec.nextRseq)
  rw [hs]
  refine ⟨fun x hx => ?_, fun x hx hb => ?_, fun ⟨x, hx, hb⟩ hf => ?_⟩
  · obtain ⟨hmem, hout⟩ := List.mem_filter.mp hx
    have hout : x.1 / 65536 ∉ toldEpochs s := by simpa using hout
    rw [mem_toldEpochs, not_and] at hout
    exact Nat.not_le.mp (hout ⟨x, hmem, rfl⟩)
  · refine List.mem_filter.mpr ⟨hx, ?_⟩
    have hout : x.1 / 65536 ∉ toldEpochs s := fun h => Nat.not_le.mpr hb ((mem_toldEpochs ..).mp h).2
    simpa using hout
  · have hpos : 0 < (toldEpochs s).length := List.length_pos_of_mem ((mem_toldEpochs s _).mpr ⟨⟨x, hx, rfl⟩, hb⟩)
    have := hn hf
    omega

end Sys2Proof.Machine

open Sys2Proof Sys2Proof.Machine

/-- Settles O57: what a delivery, an acceptance, a summary and a spill each change of the recorder. -/
theorem recorderKeepsEvents : Obligations.RecorderKeepsEvents := by
  unfold Obligations.RecorderKeepsEvents
  intro s q after
  refine ⟨fun e hl => if_pos (by simp [hl]), fun e hl hd => ?_, fun e hl hd => exec_eventDelivery_declared hl hd,
    fun d e rest hq hl => ⟨exec_eventAccept_early hq, exec_eventAccept_accepts hq hl⟩, exec_suppressedSummary s,
    fun n rest hq hs ha => exec_spillDone hq hs ha, exec_spillDone_idle⟩
  refine ⟨_, exec_eventDelivery hl hd, deliver_evrec s e, fun hf => ?_, fun hf hlen => ?_, fun hf hlen => ?_⟩
  · obtain ⟨hq, hd⟩ := deliver_frozen e hf
    exact ⟨hq, hd ▸ toNat_ofNat_satAdd ..⟩
  · rw [deliver_full e hf hlen]
    exact ⟨rfl, toNat_ofNat_satAdd ..⟩
  · rw [deliver_queued e hf hlen]
    exact ⟨length_queueInsert .., (mem_queueInsert ..).mpr (.inl rfl), fun x hx => (mem_queueInsert ..).mpr (.inr hx)⟩

end


section
/-! PROOFS. The host's accesses and function resets (R503, R506, R507, R509 to R511). -/

namespace Sys2Proof.Machine

variable {s : State} {a : Accessor} {fn n : Nat} {ofs : BitVec 21}

/-! ### Reads (R503, R506, R507) -/

theorem exec_wideRegisterRead (ha : accessFn a = some fn) (hh : hubAnswers s = true) (hok : accessOk s fn ofs.toNat n = true) :
    exec (.wideRegisterRead a ofs n) s = .next (complete (setSnap s fn (readWord s fn ofs.toNat).2)
      (.data (BitVec.ofNat 64 (readWord s fn ofs.toNat).1))) := by
  show execWideRegisterRead a ofs n s = _
  unfold execWideRegisterRead
  rw [ha]
  dsimp only
  rw [if_neg (by simp [hh]), if_neg (by simp [hok])]

theorem exec_wideRegisterRead_unsupported (ha : accessFn a = some fn) (hh : hubAnswers s = true)
    (hok : accessOk s fn ofs.toNat n = false) :
    exec (.wideRegisterRead a ofs n) s = .next (complete s .unsupported) := by
  show execWideRegisterRead a ofs n s = _
  unfold execWideRegisterRead
  rw [ha]
  dsimp only
  rw [if_neg (by simp [hh]), if_pos (by simp [hok])]

theorem readWord_one {o b v : Nat} (h : seenReg s fn o = some (b, 1, v)) : readWord s fn o = (v, none) := by
  unfold readWord
  rw [h]
  exact if_pos rfl

theorem ofNat_wordOf (v k : Nat) : BitVec.ofNat 64 (wordOf v k) = BitVec.ofNat 64 (v / 2 ^ (64 * k)) := by
  refine BitVec.eq_of_toNat_eq ?_
  have hw : 64 * k + 63 + 1 - 64 * k = 64 := by omega
  rw [BitVec.toNat_ofNat, BitVec.toNat_ofNat, wordOf, fld, hw, Nat.shiftRight_eq_div_pow, Nat.mod_mod]

/-- R507: the first half of a wide register takes the snapshot of it. -/
theorem readWord_first {b v : Nat} (h : seenReg s fn b = some (b, 2, v)) : readWord s fn b =
    (wordOf v 0, some (b, [BitVec.ofNat 64 v, BitVec.ofNat 64 (v / 2 ^ 64)])) := by
  have h0 : BitVec.ofNat 64 (wordOf v 0) = BitVec.ofNat 64 v := by simpa using ofNat_wordOf v 0
  have h1 : BitVec.ofNat 64 (wordOf v 1) = BitVec.ofNat 64 (v / 2 ^ 64) := ofNat_wordOf v 1
  unfold readWord
  rw [h]
  dsimp only
  rw [if_neg (by norm_num), if_pos (by simp), ← h0, ← h1]
  rfl

/-- R507: the second half comes from the snapshot. -/
theorem readWord_second {b v : Nat} {w0 w1 : BitVec 64} (h : seenReg s fn (b + 8) = some (b, 2, v))
    (hs : tblFind s.host.snaps fn = some (b, [w0, w1])) : (readWord s fn (b + 8)).1 = w1.toNat := by
  have hk : (b + 8 - b) / 8 = 1 := by omega
  unfold readWord
  rw [h]
  dsimp only
  rw [if_neg (by norm_num), hk, if_neg (by norm_num), hs]
  dsimp only
  rw [if_pos rfl]
  rfl

theorem wideRegisterRead_seen (ha : accessFn a = some fn) (hh : hubAnswers s = true)
    (hok : accessOk s fn ofs.toNat n = true) : ∃ t, exec (.wideRegisterRead a ofs n) s = .next t ∧
    t = { s with host := t.host } ∧
    (∀ b v, seenReg s fn ofs.toNat = some (b, 1, v) → t.host.last = .data (BitVec.ofNat 64 v)) ∧
    (∀ b v, seenReg s fn ofs.toNat = some (b, 2, v) → ofs.toNat = b → t.host.last = .data (BitVec.ofNat 64 v) ∧
      tblFind t.host.snaps fn = some (b, [BitVec.ofNat 64 v, BitVec.ofNat 64 (v / 2 ^ 64)])) ∧
    ∀ b v w0 w1, seenReg s fn ofs.toNat = some (b, 2, v) → ofs.toNat = b + 8 →
      tblFind s.host.snaps fn = some (b, [w0, w1]) → t.host.last = .data w1 := by
  refine ⟨_, exec_wideRegisterRead ha hh hok, rfl, fun b v h => ?_, fun b v h hb => ?_, fun b v w0 w1 h hb hs => ?_⟩
  · rw [readWord_one h]
    rfl
  · subst hb
    rw [readWord_first h]
    refine ⟨congrArg Completion.data (by simpa using ofNat_wordOf v 0), ?_⟩
    exact tblFind_tblSet_self s.host.snaps fn (ofs.toNat, _)
  · rw [hb] at h ⊢
    show Completion.data (BitVec.ofNat 64 (readWord s fn (b + 8)).1) = _
    rw [readWord_second h hs, BitVec.ofNat_toNat, BitVec.setWidth_eq]

/-! ### Writes -/

section
variable (v : BitVec 64)

theorem exec_registerWrite (ha : accessFn a = some fn) (hh : hubAnswers s = true) (hok : accessOk s fn ofs.toNat n = true) :
    exec (.registerWrite a ofs n v) s = .next (complete (writeWord s fn ofs.toNat v.toNat) .written) := by
  show execRegisterWrite a ofs n v s = _
  unfold execRegisterWrite
  rw [ha]
  dsimp only
  rw [if_neg (by simp [hh]), if_neg (by simp [hok])]

theorem exec_registerWrite_unsupported (ha : accessFn a = some fn) (hh : hubAnswers s = true)
    (hok : accessOk s fn ofs.toNat n = false) : exec (.registerWrite a ofs n v) s = .next (complete s .unsupported) := by
  show execRegisterWrite a ofs n v s = _
  unfold execRegisterWrite
  rw [ha]
  dsimp only
  rw [if_neg (by simp [hh]), if_pos (by simp [hok])]

/-- A virtual function writes no register of its pane's block. -/
theorem writeWord_paneBlock {o m x w : Nat} (hp : placeOf fn o = .paneBlock m x) (hf : fn ≠ 0) : writeWord s fn o w = s := by
  unfold writeWord
  rw [hp]
  exact if_neg hf

theorem writeWord_moduleRegs {o x w : Nat} (hp : placeOf 0 o = .moduleRegs x) : writeWord s 0 o w = writeModule s x w := by
  unfold writeWord
  rw [hp]
  exact if_pos rfl

theorem writeWord_mailbox {o m x w : Nat} (hp : placeOf fn o = .mailbox m x) : writeWord s fn o w = writeMailbox s m x w := by
  unfold writeWord
  rw [hp]

theorem writeModule_limit {w : Nat} (h1 : 1 ≤ fld w 8 0) (h2 : fld w 8 0 ≤ 256) :
    writeModule s 0x058 w = modRec s fun q => { q with limit := fld w 8 0 } := if_pos (by simp [h1, h2])

/-- R41: a write of `BEAT_TRIM` stores the trim and changes nothing else of the beat unit. -/
theorem time_writeTrim (s : State) (w : BitVec 32) : (writeTrim s .pf w).time = { s.time with trim := w.setWidth 12 } := by
  show State.time (if _ then _ else _) = _
  split
  · exact (record_time ..).trans rfl
  · rfl

theorem writeMailbox_enables (s : State) (m w : Nat) : mbx (writeMailbox s m 0x020 w) m =
    { mbx s m with escIe := bitAt w 1 && m == 0, doneIe := bitAt w 0 } := by
  have he : writeMailbox s m 0x020 w = modMbx s m fun x => { x with escIe := bitAt w 1 && m == 0, doneIe := bitAt w 0 } := rfl
  rw [he, mbx_modMbx, if_pos rfl]

end

theorem registerWrite_written (ha : accessFn a = some fn) (hh : hubAnswers s = true)
    (hok : accessOk s fn ofs.toNat n = true) (v : BitVec 64) :
    (∃ t, exec (.registerWrite a ofs n v) s = .next t ∧ t.host.last = .written) ∧
    (∀ m o, placeOf fn ofs.toNat = .paneBlock m o → fn ≠ 0 →
      exec (.registerWrite a ofs n v) s = .next (complete s .written)) ∧
    (fn = 0 → ofs.toNat = 0x20058 → 1 ≤ fld v.toNat 8 0 → fld v.toNat 8 0 ≤ 256 →
      ∃ t, exec (.registerWrite a ofs n v) s = .next t ∧ t.evrec = { s.evrec with limit := fld v.toNat 8 0 }) ∧
    (fn = 0 → ofs.toNat = 0x20008 → ∃ t, exec (.registerWrite a ofs n v) s = .next t ∧
      t.time = { s.time with trim := v.setWidth 12 }) ∧
    ∀ m, placeOf fn ofs.toNat = .mailbox m 0x020 → ∃ t, exec (.registerWrite a ofs n v) s = .next t ∧
      mbx t m = { mbx s m with escIe := bitAt v.toNat 1 && m == 0, doneIe := bitAt v.toNat 0 } := by
  rw [exec_registerWrite v ha hh hok]
  refine ⟨⟨_, rfl, rfl⟩, fun m o hp hf => ?_, fun hf ho h1 h2 => ⟨_, rfl, ?_⟩, fun hf ho => ⟨_, rfl, ?_⟩, fun m hp => ⟨_, rfl, ?_⟩⟩
  · rw [writeWord_paneBlock hp hf]
  · subst hf
    have hp : placeOf 0 ofs.toNat = .moduleRegs 0x058 := by
      rw [ho]
      decide
    rw [writeWord_moduleRegs hp, writeModule_limit h1 h2]
    rfl
  · subst hf
    have hp : placeOf 0 ofs.toNat = .moduleRegs 0x008 := by
      rw [ho]
      decide
    rw [writeWord_moduleRegs hp]
    refine (time_writeTrim s (BitVec.ofNat 32 v.toNat)).trans ?_
    have hv : (BitVec.ofNat 32 v.toNat).setWidth 12 = v.setWidth 12 := by
      refine BitVec.eq_of_toNat_eq ?_
      simp only [BitVec.toNat_setWidth, BitVec.toNat_ofNat]
      omega
    rw [hv]
  · rw [writeWord_mailbox hp]
    exact writeMailbox_enables ..

/-! ### Function resets (R408, R509 to R511) -/

theorem endNow_job (s : State) (r : Nat) (a : Ans) : (mbx (endNow s r a) r).job = none := by
  cases h : (mbx s r).job with
  | none => rw [endNow_none a h, h]
  | some j => exact (endNow_mbx a h).1

theorem mbx_idleMailbox (s : State) (r q : Nat) : mbx (idleMailbox s r) q =
    if q = r then { setMState s .idle (mbx s r) with doneIe := false, escIe := false, hello := false } else mbx s q :=
  mbx_modMbx ..

/-- R510: a mailbox that a function reset ends. -/
theorem resetMailbox_mbx (s : State) (r : Nat) : (mbx (resetMailbox s r) r).mstate = .idle ∧
    (mbx (resetMailbox s r) r).job = none ∧ (mbx (resetMailbox s r) r).hello = false ∧
    (mbx (resetMailbox s r) r).doneIe = false := by
  have hj := endNow_job (modMbx s r fun m => { m with doneIe := false, escIe := false }) r { status := stAborted, detail := 1 }
  unfold resetMailbox
  dsimp only
  rw [mbx_idleMailbox, if_pos rfl]
  exact ⟨rfl, hj, rfl, rfl⟩

theorem resetMailbox_beside (s : State) (r : Nat) : (resetMailbox s r).time = s.time ∧
    bks (resetMailbox s r).panes = bks s.panes :=
  ⟨(endNow_time (modMbx s r fun m => { m with doneIe := false, escIe := false }) r { status := stAborted, detail := 1 }).trans rfl,
    (endNow_bks (modMbx s r fun m => { m with doneIe := false, escIe := false }) r { status := stAborted, detail := 1 }).trans rfl⟩

/-- What a function reset leaves of a context. -/
theorem context_of_bks {s t : State} (h : bks t.panes = bks s.panes) (p : Nat) : (pane t p).state = (pane s p).state ∧
    (pane t p).jobTag = (pane s p).jobTag ∧ (pane t p).epoch = (pane s p).epoch := by
  have hb := pane_of_bks h p
  exact ⟨(congrArg Pane.state hb).trans rfl, (congrArg Pane.jobTag hb).trans rfl, (congrArg Pane.epoch hb).trans rfl⟩

theorem exec_vfFlr (p : Pane16) (hu : s.power.hubUp = true) (hv : vfExists s (p.val + 1) = true) :
    ∃ t, exec (.vfFlr p) s = .next t ∧ (mbx t (p.val + 1)).mstate = .idle ∧ (mbx t (p.val + 1)).job = none ∧
      (mbx t (p.val + 1)).hello = false ∧ (mbx t (p.val + 1)).doneIe = false ∧
      (pane t p.val).epoch = (pane s p.val).epoch ∧
      ((pane s p.val).state = .opened → (pane t p.val).resetFrom = some (s.time.beat + 1)) := by
  have he : exec (.vfFlr p) s = .next (if (pane (resetMailbox s (p.val + 1)) p.val).state = .opened
      then askContextReset (resetMailbox s (p.val + 1)) p.val else resetMailbox s (p.val + 1)) :=
    if_neg (by simp [hu, hv])
  obtain ⟨hm, hj, hh, hd⟩ := resetMailbox_mbx s (p.val + 1)
  obtain ⟨ht, hb⟩ := resetMailbox_beside s (p.val + 1)
  obtain ⟨hst, -, hep⟩ := context_of_bks hb p.val
  refine ⟨_, he, ?_⟩
  generalize resetMailbox s (p.val + 1) = u at hm hj hh hd ht hst hep ⊢
  by_cases ho : (pane u p.val).state = .opened
  · rw [if_pos ho]
    have hp : pane (askContextReset u p.val) p.val = { pane u p.val with resetFrom := some (u.time.beat + 1) } :=
      pane_modPane_self ..
    refine ⟨hm, hj, hh, hd, ?_, fun _ => ?_⟩
    · rw [hp]
      exact hep
    · rw [hp, ht]
  · rw [if_neg ho]
    exact ⟨hm, hj, hh, hd, hep, fun h => absurd (hst.trans h) ho⟩

/-- R376: an escape that ends leaves its own side of the Doorkeeper without a command. -/
theorem endEscape_beside (s : State) (a : Ans) : (endEscape s a).dk.mbx = s.dk.mbx ∧ (endEscape s a).dk.esc.job = none ∧
    (endEscape s a).panes = s.panes := by
  unfold endEscape
  cases h : s.dk.esc.job with
  | none => exact ⟨rfl, h, rfl⟩
  | some j =>
    dsimp only
    split
    · rw [msix_dk, msix_panes]
      exact ⟨rfl, rfl, rfl⟩
    · exact ⟨rfl, rfl, rfl⟩

theorem exec_pfFlr (hu : s.power.hubUp = true) : ∃ t, exec .pfFlr s = .next t ∧ t.host.vfEnable = false ∧
    (mbx t 0).mstate = .idle ∧ (mbx t 0).job = none ∧ t.dk.esc.job = none ∧ t.dk.esc.estate = .idle ∧
    ∀ p, (pane t p).state = (pane s p).state ∧ (pane t p).jobTag = (pane s p).jobTag ∧
      (pane t p).epoch = (pane s p).epoch := by
  obtain ⟨hm, hj, -, -⟩ := resetMailbox_mbx s 0
  obtain ⟨-, hb⟩ := resetMailbox_beside s 0
  obtain ⟨hem, hej, hep⟩ := endEscape_beside (resetMailbox s 0) { status := stAborted, detail := 1 }
  have hmx : tblGet Mailbox.reset (endEscape (resetMailbox s 0) { status := stAborted, detail := 1 }).dk.mbx 0 =
      mbx (resetMailbox s 0) 0 := by
    rw [hem]
    rfl
  have hctx := context_of_bks ((congrArg bks hep).trans hb)
  refine ⟨_, if_neg (by simp [hu]), rfl, ?_, ?_, ?_, rfl, ?_⟩
  · exact (congrArg Mailbox.mstate hmx).trans hm
  · exact (congrArg Mailbox.job hmx).trans hj
  · exact hej
  · exact hctx

theorem exec_vfEnableChange_off (hu : s.power.hubUp = true) :
    exec (.vfEnableChange 0) s = .next { s with host := { s.host with vfEnable := false } } :=
  (if_neg (by simp [hu])).trans (if_pos rfl)

theorem foldl_idleMailbox (m : Nat) (s : State) {r : Nat} (h1 : 1 ≤ r) (hm : r ≤ m) :
    (mbx ((List.range m).foldl (fun s i => idleMailbox s (i + 1)) s) r).mstate = .idle := by
  induction m with
  | zero => omega
  | succ m ih =>
    rw [List.range_succ, List.foldl_concat, mbx_idleMailbox]
    split
    · rfl
    · exact ih (by omega)

theorem exec_vfEnableChange_on {m : Nat} (hu : s.power.hubUp = true) (hm : 0 < m) (hv : s.host.vfEnable = false) :
    ∃ t, exec (.vfEnableChange m) s = .next t ∧ t.host.vfEnable = true ∧ t.host.numVfs = min 16 m ∧
      ∀ r, 1 ≤ r → r ≤ 16 → (mbx t r).mstate = .idle :=
  ⟨_, (if_neg (by simp [hu])).trans ((if_neg (Nat.pos_iff_ne_zero.mp hm)).trans (if_neg (by simp [hv]))), rfl, rfl,
    fun _ h1 h16 => foldl_idleMailbox 16 s h1 h16⟩

/-! ### The translation cache (R504) -/

theorem exec_atsInvalidation (addr : BitVec 64) (f : Fin 17) (h : usesPage s f.val (addr.toNat / 4096) = false) :
    ∃ t, exec (.atsInvalidation addr f) s = .next t ∧ t = { s with host := { s.host with ats := t.host.ats } } ∧
      ∀ e, e ∈ t.host.ats ↔ e ∈ s.host.ats ∧ e ≠ (f.val, addr.toNat / 4096) := by
  refine ⟨_, congrArg Host.Outcome.next (if_neg (by simp [h])), rfl, fun e => ?_⟩
  rw [List.mem_filter, bne_iff_ne]

end Sys2Proof.Machine

open Sys2Proof Sys2Proof.Machine

/-- Settles O58: reads by the word that a function sees, writes by the place that an offset names, resets by the mailbox
that they end. -/
theorem hostAccesses : Obligations.HostAccesses := by
  unfold Obligations.HostAccesses
  intro s after
  refine ⟨fun a fn ofs n ha hh hok => ⟨wideRegisterRead_seen ha hh hok, registerWrite_written ha hh hok⟩,
    fun a fn ofs n ha hh hok => ⟨exec_wideRegisterRead_unsupported ha hh hok, fun v => exec_registerWrite_unsupported v ha hh hok⟩,
    fun hu n => ⟨if_pos (by simp [hu]), if_pos (by simp [hu]), fun m => if_pos (by simp [hu])⟩, exec_vfFlr, exec_pfFlr,
    exec_vfEnableChange_off, fun n hu hn hv => exec_vfEnableChange_on hu hn hv,
    fun a f => ⟨fun h => congrArg Host.Outcome.next (if_pos h), exec_atsInvalidation a f⟩⟩

end


section
/-! PROOFS. The sideband and the fabric-manager channel (R41, R459, R512 to R514). -/

namespace Sys2Proof.Machine

variable {s : State} {xid ofs : BitVec 32} {n : BitVec 16} {f : FmFragment}

/-! ### What the sideband is told -/

/-- The latest word on the sideband. -/
def Tells (t : State) (kind st : BitVec 8) (device : BitVec 16) (xid : BitVec 32) : Prop :=
  ∃ x, t.fm.replies.head? = some x ∧ x.kind = kind ∧ x.sstatus = st ∧ x.device = device ∧ x.xid = xid

theorem tells_sbAnswer (s : State) (kind st : Nat) (xid ofs : BitVec 32) (d : List Byte) :
    Tells (sbAnswer s kind st xid ofs d) (BitVec.ofNat 8 kind) (BitVec.ofNat 8 st) 0 xid := ⟨_, rfl, rfl, rfl, rfl, rfl⟩

theorem tells_sbFragStatus (s : State) (st : Nat) (device : BitVec 16) (xid : BitVec 32) :
    Tells (sbFragStatus s st device xid) 4 (BitVec.ofNat 8 st) device xid := ⟨_, rfl, rfl, rfl, rfl, rfl⟩

/-! ### Register accesses (R41, R513) -/

theorem exec_sbRegisterRead (hu : hubAnswers s = true) : exec (.sbRegisterRead xid ofs n) s =
    .next (sbAnswer s 1 (sbRead s ofs n).1 xid ofs (sbRead s ofs n).2) := if_neg (by simp [hu])

theorem sbRead_bad (h : sbRange ofs n = false) : sbRead s ofs n = (2, []) := if_pos (by simp [h])

/-- An offset below the mailboxes' end is a mailbox's. -/
theorem sbWord_mailbox {o : Nat} (h : o < 0x1000) : sbWord s o = some none := by
  have hp : placeOf 0 o = .mailbox 0 o := by
    have hb : bitAt o 20 = false := Nat.testBit_lt_two_pow (by omega)
    unfold placeOf
    dsimp only
    rw [if_neg (by simp [hb]), Nat.mod_eq_of_lt (by omega), if_pos h]
  unfold sbWord
  rw [hp]

theorem sbRead_mailbox (hr : sbRange ofs n = true) (hl : ofs.toNat + n.toNat ≤ 0x1000) : sbRead s ofs n = (1, []) := by
  have hn : 1 ≤ n.toNat / 8 := by
    simp only [sbRange, Bool.and_eq_true, Bool.or_eq_true, beq_iff_eq] at hr
    rcases hr.1.1 with h | h
    · simp [h]
    · simp [h]
  have hw : ((List.range (n.toNat / 8)).map fun i => sbWord s (ofs.toNat + 8 * i)) = List.replicate (n.toNat / 8) (some none) := by
    refine List.eq_replicate_iff.mpr ⟨by simp, fun w hw => ?_⟩
    obtain ⟨i, hi, rfl⟩ := List.mem_map.mp hw
    have := List.mem_range.mp hi
    exact sbWord_mailbox (by omega)
  unfold sbRead
  rw [if_neg (by simp [hr])]
  dsimp only
  rw [hw, if_neg (by simp), if_pos (by simp; omega)]

theorem natLe_mod (m v : Nat) : natLe m (v % 256 ^ m) = natLe m v := by
  induction m generalizing v with
  | zero => rfl
  | succ m ih =>
    have h1 : BitVec.ofNat 8 (v % 256 ^ (m + 1)) = BitVec.ofNat 8 v := by
      refine BitVec.eq_of_toNat_eq ?_
      rw [BitVec.toNat_ofNat, BitVec.toNat_ofNat]
      exact Nat.mod_mod_of_dvd v (Dvd.intro_left (256 ^ m) (Nat.pow_succ ..).symm)
    have h2 : v % 256 ^ (m + 1) / 256 = v / 256 % 256 ^ m := by
      rw [Nat.pow_succ, Nat.mul_comm, Nat.mod_mul_right_div_self]
    rw [natLe, h1, h2, ih]
    rfl

theorem sbWord_beatStatus (s : State) : sbWord s 0x20000 = some (some (wordOf (beatStatus s) 0)) := by
  have hp : placeOf 0 0x20000 = .moduleRegs 0 := by decide
  have hm : moduleReg s 0 = some { base := 0, words := 1, value := beatStatus s, sb := true, vf := false } := by
    simp [moduleReg]
  unfold sbWord
  rw [hp]
  dsimp only
  rw [hm]
  simp

theorem sbWord_beatTrim (s : State) : sbWord s 0x20008 = some (some (wordOf (beatTrim s) 0)) := by
  have hp : placeOf 0 0x20008 = .moduleRegs 0x008 := by decide
  have hm : moduleReg s 0x008 = some { base := 0x008, words := 1, value := beatTrim s, sb := true, vf := false } := by
    simp [moduleReg]
  unfold sbWord
  rw [hp]
  dsimp only
  rw [hm]
  simp

theorem sbRead_words {ws : List (Option (Option Nat))} (hr : sbRange ofs n = true)
    (hw : (List.range (n.toNat / 8)).map (fun i => sbWord s (ofs.toNat + 8 * i)) = ws)
    (hnone : ws.any (· == none) = false) (hhidden : ws.any (· == some none) = false) :
    sbRead s ofs n = (0, ws.flatMap fun w => natLe 8 ((w.getD none).getD 0)) := by
  unfold sbRead
  rw [if_neg (by simp [hr])]
  dsimp only
  rw [hw, hnone, hhidden, if_neg Bool.false_ne_true, if_neg Bool.false_ne_true]

/-- R513: `BEAT_STATUS` can be read. -/
theorem sbRead_beatStatus (s : State) : sbRead s 0x20000 8 = (0, natLe 8 (beatStatus s)) := by
  have hw := sbWord_beatStatus s
  have hv : natLe 8 (wordOf (beatStatus s) 0) = natLe 8 (beatStatus s) := by
    have h : wordOf (beatStatus s) 0 = beatStatus s % 256 ^ 8 := by
      rw [wordOf, fld, Nat.mul_zero, Nat.shiftRight_zero]
      norm_num
    rw [h, natLe_mod]
  have hr : (List.range ((8 : BitVec 16).toNat / 8)).map (fun i => sbWord s ((0x20000 : BitVec 32).toNat + 8 * i)) =
      [some (some (wordOf (beatStatus s) 0))] := by
    have h1 : List.range ((8 : BitVec 16).toNat / 8) = [0] := by decide
    have h0 : (0x20000 : BitVec 32).toNat + 8 * 0 = 0x20000 := by decide
    rw [h1, List.map_singleton, h0, hw]
  rw [sbRead_words (by decide) hr rfl rfl, List.flatMap_singleton, Option.getD_some, Option.getD_some, hv]
theorem sbRegisterRead_answers (hu : hubAnswers s = true) (xid ofs : BitVec 32) (n : BitVec 16) :
    (sbRange ofs n = false → ∃ t, exec (.sbRegisterRead xid ofs n) s = .next t ∧ Tells t 1 2 0 xid ∧ t.time = s.time) ∧
    (sbRange ofs n = true → ofs.toNat + n.toNat ≤ 0x1000 →
      ∃ t, exec (.sbRegisterRead xid ofs n) s = .next t ∧ Tells t 1 1 0 xid ∧ t.dk = s.dk) ∧
    (∃ t, exec (.sbRegisterRead xid 0x20000 8) s = .next t ∧ Tells t 1 0 0 xid ∧ t = { s with fm := t.fm } ∧
      t.fm.replies.head?.map (·.data) = some (natLe 8 (beatStatus s))) := by
  refine ⟨fun h => ⟨_, exec_sbRegisterRead hu, ?_, rfl⟩, fun h hl => ⟨_, exec_sbRegisterRead hu, ?_, rfl⟩,
    ⟨_, exec_sbRegisterRead hu, ?_, rfl, ?_⟩⟩
  · rw [sbRead_bad h]
    exact tells_sbAnswer ..
  · rw [sbRead_mailbox h hl]
    exact tells_sbAnswer ..
  · rw [sbRead_beatStatus]
    exact tells_sbAnswer ..
  · rw [sbRead_beatStatus]
    rfl

theorem exec_sbRegisterWrite_trim (hu : hubAnswers s = true) (v : BitVec 64) : exec (.sbRegisterWrite xid 0x20008 8 v) s =
    .next (sbAnswer (writeTrim s .fm (v.setWidth 32)) 2 0 xid 0x20008 []) :=
  (if_neg (by simp [hu])).trans ((if_neg (by
    have hw := sbWord_beatTrim s
    have hr : sbRange 0x20008 8 = true := by decide
    have hw : sbWord s (0x20008 : BitVec 32).toNat ≠ none := by
      show sbWord s 0x20008 ≠ none
      rw [hw]
      exact Option.some_ne_none _
    simp only [hr, hw]
    decide)).trans (if_pos (by decide)))

theorem exec_sbRegisterWrite_bad (hu : hubAnswers s = true) (h : sbRange ofs n = false) (v : BitVec 64) :
    exec (.sbRegisterWrite xid ofs n v) s = .next (sbAnswer s 2 2 xid ofs []) :=
  (if_neg (by simp [hu])).trans (if_pos (by simp [h]))

theorem exec_sbRegisterWrite_refused (hu : hubAnswers s = true) (hr : sbRange ofs n = true)
    (hw : sbWord s ofs.toNat ≠ none) (ho : ofs ≠ 0x20008 ∨ n ≠ 8) (v : BitVec 64) :
    exec (.sbRegisterWrite xid ofs n v) s = .next (sbAnswer s 2 1 xid ofs []) :=
  (if_neg (by simp [hu])).trans ((if_neg (by simp [hr, hw])).trans (if_neg fun hc => by
    simp only [Bool.and_eq_true, decide_eq_true_eq] at hc
    exact ho.elim (fun h => h hc.1) fun h => h hc.2))

/-- R41: the fabric manager's write of `BEAT_TRIM` stores the trim, and nothing else of the beat unit changes. -/
theorem time_writeTrim_fm (s : State) (v : BitVec 64) :
    (writeTrim s .fm (v.setWidth 32)).time = { s.time with trim := v.setWidth 12 } := by
  have hv : (v.setWidth 32).setWidth 12 = v.setWidth 12 := by
    refine BitVec.eq_of_toNat_eq ?_
    simp only [BitVec.toNat_setWidth]
    omega
  have h : (writeTrim s .fm (v.setWidth 32)).time = { s.time with trim := (v.setWidth 32).setWidth 12 } := by
    show State.time (if _ then _ else _) = _
    split
    · exact (record_time ..).trans rfl
    · rfl
  rw [h, hv]

theorem sbRegisterWrite_answers (hu : hubAnswers s = true) (xid ofs : BitVec 32) (n : BitVec 16) (v : BitVec 64) :
    (∃ t, exec (.sbRegisterWrite xid 0x20008 8 v) s = .next t ∧ Tells t 2 0 0 xid ∧
      t.time = { s.time with trim := v.setWidth 12 }) ∧
    (sbRange ofs n = false → ∃ t, exec (.sbRegisterWrite xid ofs n v) s = .next t ∧ Tells t 2 2 0 xid ∧
      t = { s with fm := t.fm }) ∧
    (sbRange ofs n = true → sbWord s ofs.toNat ≠ none → ofs ≠ 0x20008 ∨ n ≠ 8 →
      ∃ t, exec (.sbRegisterWrite xid ofs n v) s = .next t ∧ Tells t 2 1 0 xid ∧ t = { s with fm := t.fm }) :=
  ⟨⟨_, exec_sbRegisterWrite_trim hu v, tells_sbAnswer .., time_writeTrim_fm s v⟩,
    fun h => ⟨_, exec_sbRegisterWrite_bad hu h v, tells_sbAnswer .., rfl⟩,
    fun hr hw ho => ⟨_, exec_sbRegisterWrite_refused hu hr hw ho v, tells_sbAnswer .., rfl⟩⟩

/-! ### What a management packet leaves -/

theorem sendMgmt_fm (s : State) (device : BitVec 16) (bytes : List Byte) : (sendMgmt s device bytes).fm = s.fm := by
  unfold sendMgmt sendParcel
  rw [if_neg (by simp [viaHub])]
  unfold queueParcel
  split
  · rfl
  · rfl

theorem foldl_sendMgmt_fm {α : Type} (device : BitVec 16) (g : α → List Byte) (l : List α) (s : State) :
    (l.foldl (fun s x => sendMgmt s device (g x)) s).fm = s.fm := by
  induction l generalizing s with
  | nil => rfl
  | cons x l ih => exact (ih _).trans (sendMgmt_fm ..)

/-! ### Request fragments (R512) -/

/-- A fragment is longer than it may be, or than its packet. -/
def Overlong (f : FmFragment) : Prop := 4096 < f.bytes.length ∨ f.total.toNat < f.ofs.toNat + f.bytes.length

/-- No fragment of the packet has come yet. -/
def Fresh (s : State) (f : FmFragment) : Prop :=
  s.fm.partials.find? (fun x => x.entry == moduleId s && x.xid == f.xid) = none

theorem exec_fmRequestFragment_overlong (hu : hubAnswers s = true) (h : Overlong f) :
    exec (.fmRequestFragment f) s = .next (sbFragStatus s 2 f.device f.xid) :=
  (if_neg (by simp [hu])).trans (if_pos (by simpa [Overlong] using h))

theorem exec_fmRequestFragment_own (hu : hubAnswers s = true) (h : ¬Overlong f) (ho : ownDevice s f.device = true) :
    exec (.fmRequestFragment f) s = .next (fmAssemble s (moduleId s) f) :=
  (if_neg (by simp [hu])).trans ((if_neg fun hc => h (by simpa [Overlong] using hc)).trans (if_pos ho))

theorem exec_fmRequestFragment_unknown (hu : hubAnswers s = true) (h : ¬Overlong f) (ho : ownDevice s f.device = false)
    (hc : coordOf s f.device = none) : exec (.fmRequestFragment f) s = .next (sbFragStatus s 3 f.device f.xid) :=
  (if_neg (by simp [hu])).trans ((if_neg fun hc => h (by simpa [Overlong] using hc)).trans ((if_neg (by simp [ho])).trans
    (if_pos (by simp [hc]))))

theorem exec_fmRequestFragment_relayed (hu : hubAnswers s = true) (h : ¬Overlong f) (ho : ownDevice s f.device = false)
    (hc : coordOf s f.device ≠ none) : ∃ t, exec (.fmRequestFragment f) s = .next t ∧
      ∃ x ∈ t.fm.relays, x.xid = f.xid ∧ x.device = f.device := by
  have he : exec (.fmRequestFragment f) s = .next ((cutFrags 3040 (fun o b =>
      { f with mtype := 0x02, entry := moduleId s, ofs := f.ofs + BitVec.ofNat 32 o, bytes := b }) f.bytes).foldl
        (fun s x => sendMgmt s f.device (fragBytes x)) (noteRelay s f)) :=
    (if_neg (by simp [hu])).trans ((if_neg fun hc => h (by simpa [Overlong] using hc)).trans ((if_neg (by simp [ho])).trans
      (if_neg (by simpa using hc))))
  refine ⟨_, he, ?_⟩
  rw [foldl_sendMgmt_fm]
  exact ⟨_, List.mem_append_right _ (List.mem_singleton_self _), rfl, rfl⟩

/-- The packet that a first fragment begins. -/
def begunPacket (s : State) (f : FmFragment) : FmPacket :=
  { entry := moduleId s, xid := f.xid, total := f.total.toNat, bytes := memWrite [] f.ofs.toNat f.bytes, got := 0 + f.bytes.length }

/-- The other packets that are being put together. -/
def otherPackets (s : State) (f : FmFragment) : List FmPacket :=
  s.fm.partials.filter fun x => !(x.entry == moduleId s && x.xid == f.xid)

theorem fmAssemble_begins (hf : Fresh s f) (hl : f.bytes.length < f.total.toNat) : fmAssemble s (moduleId s) f =
    { s with fm := { s.fm with partials := otherPackets s f ++ [begunPacket s f] } } := by
  unfold fmAssemble
  dsimp only
  rw [hf]
  exact if_pos (by simpa using hl)

theorem fmAssemble_whole (hf : Fresh s f) (hl : f.total.toNat = f.bytes.length) : fmAssemble s (moduleId s) f =
    fmRun { s with fm := { s.fm with partials := otherPackets s f } } none f.xid
      (memRead (begunPacket s f).bytes 0 (begunPacket s f).total) := by
  unfold fmAssemble
  dsimp only
  rw [hf]
  exact (if_neg (by simp [hl])).trans (if_pos rfl)

theorem refuseBusy_mbx (s : State) {j : Job} (hj : (mbx s 17).job = some j) (e : Option (BitVec 16) × BitVec 32)
    (op seq : Nat) : (mbx (refuseBusy s 17 j (some e) op seq) 17).job = some j ∧
      (mbx (refuseBusy s 17 j (some e) op seq) 17).refusals.toNat = satAdd 16 (mbx s 17).refusals.toNat 1 := by
  have hm : mbx (refuseBusy s 17 j (some e) op seq) 17 = { mbx s 17 with
      refusals := BitVec.ofNat 16 (satAdd 16 (mbx s 17).refusals.toNat 1), atBeat := expectedEnd s 17 j } := by
    refine (mbx_of_dk ((fmReplyTo_dk ..).trans (chargeRefusal_dk ..)) 17).trans ?_
    exact (mbx_modMbx ..).trans (if_pos rfl)
  rw [hm]
  exact ⟨hj, toNat_ofNat_satAdd ..⟩

theorem fmRun_busy {j : Job} (hj : (mbx s 17).job = some j) (e : Option (BitVec 16)) (xid : BitVec 32) (d : List Byte) :
    (mbx (fmRun s e xid d) 17).job = some j ∧
      (mbx (fmRun s e xid d) 17).refusals.toNat = satAdd 16 (mbx s 17).refusals.toNat 1 := by
  unfold fmRun fmPacket
  dsimp only
  rw [hj]
  exact refuseBusy_mbx s hj ..

/-- R364: a packet that comes while the Doorkeeper is not ready is answered at once. -/
theorem fmRun_unready (hj : (mbx s 17).job = none) (hd : dkReady s = false) (e : Option (BitVec 16)) (xid : BitVec 32)
    (d : List Byte) : (mbx (fmRun s e xid d) 17).job = none ∧
      ∃ a, (mbx (fmRun s e xid d) 17).reply = some a ∧ a.status = 0x0102 := by
  unfold fmRun fmPacket
  dsimp only
  rw [hj]
  dsimp only
  generalize hu : { s with fm := { s.fm with current := some (e, xid, s.time.beat + 1) } } = u
  have hdu : dkReady u = false := by
    subst hu
    exact hd
  unfold acceptPacket earlyRefusal
  rw [if_pos (by simp [hdu])]
  dsimp only
  rw [finish_mbx (by simp [replyLost])]
  exact ⟨rfl, _, rfl, rfl⟩

theorem fmRequestFragment_answers (hu : hubAnswers s = true) (f : FmFragment) :
    (Overlong f → ∃ t, exec (.fmRequestFragment f) s = .next t ∧ Tells t 4 2 f.device f.xid ∧ t = { s with fm := t.fm }) ∧
    (¬Overlong f → ownDevice s f.device = true → Fresh s f → f.bytes.length < f.total.toNat →
      ∃ t, exec (.fmRequestFragment f) s = .next t ∧ t = { s with fm := t.fm } ∧ ∃ x ∈ t.fm.partials,
        x.entry = moduleId s ∧ x.xid = f.xid ∧ x.got = f.bytes.length ∧ x.total = f.total.toNat) ∧
    (¬Overlong f → ownDevice s f.device = true → Fresh s f → f.total.toNat = f.bytes.length →
      (∀ j, (mbx s 17).job = some j → ∃ t, exec (.fmRequestFragment f) s = .next t ∧ (mbx t 17).job = some j ∧
        (mbx t 17).refusals.toNat = satAdd 16 (mbx s 17).refusals.toNat 1) ∧
      ((mbx s 17).job = none → dkReady s = false → ∃ t, exec (.fmRequestFragment f) s = .next t ∧
        (mbx t 17).job = none ∧ ∃ a, (mbx t 17).reply = some a ∧ a.status = 0x0102)) ∧
    (¬Overlong f → ownDevice s f.device = false → coordOf s f.device = none →
      ∃ t, exec (.fmRequestFragment f) s = .next t ∧ Tells t 4 3 f.device f.xid ∧ t = { s with fm := t.fm }) ∧
    (¬Overlong f → ownDevice s f.device = false → coordOf s f.device ≠ none →
      ∃ t, exec (.fmRequestFragment f) s = .next t ∧ ∃ x ∈ t.fm.relays, x.xid = f.xid ∧ x.device = f.device) := by
  refine ⟨fun h => ⟨_, exec_fmRequestFragment_overlong hu h, tells_sbFragStatus .., rfl⟩, fun h ho hf hl => ?_,
    fun h ho hf hl => ⟨fun j hj => ?_, fun hj hd => ?_⟩,
    fun h ho hc => ⟨_, exec_fmRequestFragment_unknown hu h ho hc, tells_sbFragStatus .., rfl⟩,
    fun h ho hc => exec_fmRequestFragment_relayed hu h ho hc⟩
  · refine ⟨_, (exec_fmRequestFragment_own hu h ho).trans (congrArg Host.Outcome.next (fmAssemble_begins hf hl)), rfl, ?_⟩
    exact ⟨begunPacket s f, List.mem_append_right _ (List.mem_singleton_self _), rfl, rfl, Nat.zero_add _, rfl⟩
  · refine ⟨_, (exec_fmRequestFragment_own hu h ho).trans (congrArg Host.Outcome.next (fmAssemble_whole hf hl)), ?_⟩
    exact fmRun_busy (s := { s with fm := { s.fm with partials := otherPackets s f } }) hj ..
  · refine ⟨_, (exec_fmRequestFragment_own hu h ho).trans (congrArg Host.Outcome.next (fmAssemble_whole hf hl)), ?_⟩
    exact fmRun_unready (s := { s with fm := { s.fm with partials := otherPackets s f } }) hj hd ..

/-! ### Fragments from the ports (R512, R514) -/

section
variable {port : PortId} (hu : s.power.hubUp = true) (hp : portActive s port.val = true)
include hu hp

theorem exec_fmFragmentReceived_other (hd : f.device ≠ moduleId s) :
    exec (.fmFragmentReceived port f) s = .next (fmForward s port.val none f) :=
  (if_neg (by simp [hu, hp])).trans (if_neg hd)

theorem exec_fmFragmentReceived_own (hd : f.device = moduleId s) :
    exec (.fmFragmentReceived port f) s = .next (fmArrive s f) :=
  (if_neg (by simp [hu, hp])).trans (if_pos hd)

/-- R514: a fragment for another module waits at the port of its way. -/
theorem exec_fmFragmentReceived_forwarded {o : Nat} (hd : f.device ≠ moduleId s) (hr : routePort s f.device = some o) :
    ∃ t, exec (.fmFragmentReceived port f) s = .next t ∧
      (trafOf t o).out.map (fun x => (x.klass, x.device, x.bytes)) =
        (trafOf s o).out.map (fun x => (x.klass, x.device, x.bytes)) ++ [(2, f.device, fragBytes f)] := by
  refine ⟨_, exec_fmFragmentReceived_other hu hp hd, ?_⟩
  unfold fmForward sendParcel
  rw [if_neg (by simp)]
  unfold queueParcel
  rw [hr]
  dsimp only
  rw [trafOf_modTraf, if_pos rfl, List.map_append]
  rfl

theorem exec_fmFragmentReceived_return {x : FmRelay} (hd : f.device = moduleId s) (hm : f.mtype = 0x03)
    (hx : s.fm.relays.find? (fun x => x.xid == f.xid) = some x) : ∃ t, exec (.fmFragmentReceived port f) s = .next t ∧
      Tells t 4 0 x.device f.xid ∧ t.fm.replies.head?.map (·.data) = some f.bytes := by
  have ha : fmArrive s f = fmReturn s f := (if_neg (by simp [hm])).trans (if_pos hm)
  refine ⟨_, (exec_fmFragmentReceived_own hu hp hd).trans (congrArg Host.Outcome.next ha), ?_⟩
  unfold fmReturn
  rw [hx]
  exact ⟨⟨_, rfl, rfl, rfl, rfl, rfl⟩, rfl⟩

theorem exec_fmFragmentReceived_receipt (hd : f.device = moduleId s) (hm : f.mtype = 0x04) :
    ∃ t, exec (.fmFragmentReceived port f) s = .next t ∧ t.fm.relays.map (·.xid) = s.fm.relays.map (·.xid) ∧
      ∀ x ∈ t.fm.relays, x.xid = f.xid → x.since = none ∨ x.since = some s.time.beat := by
  refine ⟨_, (exec_fmFragmentReceived_own hu hp hd).trans (congrArg Host.Outcome.next
    ((if_neg (by simp [hm])).trans (if_neg (by simp [hm])))), ?_, fun x hx hxid => ?_⟩
  · rw [List.map_map]
    refine List.map_congr_left fun x _ => ?_
    rw [Function.comp_apply]
    split
    · rfl
    · rfl
  · obtain ⟨y, -, rfl⟩ := List.mem_map.mp hx
    by_cases h : (y.xid == f.xid && y.since.isSome) = true
    · rw [if_pos h]
      exact .inr rfl
    · rw [if_neg h] at hxid ⊢
      refine .inl (Option.not_isSome_iff_eq_none.mp fun hs => h ?_)
      rw [hs, hxid, beq_self_eq_true, Bool.true_and]

end

/-! ### Receipts that are repeated, and modules that do not answer (R514) -/

theorem exec_fmReceiptRepeat_sends {e : BitVec 16} {xid : BitVec 32} {b : Nat} (hc : s.fm.current = some (some e, xid, b))
    (h : b + 512 ≤ s.time.beat) : exec .fmReceiptRepeat s =
      .next (sendReceipt { s with fm := { s.fm with current := some (some e, xid, s.time.beat) } } e xid) := by
  show execFmReceiptRepeat s = _
  unfold execFmReceiptRepeat
  rw [hc]
  exact if_pos h

theorem exec_fmReceiptRepeat_due {e : BitVec 16} {xid : BitVec 32} {b : Nat} (hc : s.fm.current = some (some e, xid, b))
    (h : b + 512 ≤ s.time.beat) : ∃ t, exec .fmReceiptRepeat s = .next t ∧
      t.fm.current = some (some e, xid, s.time.beat) := by
  refine ⟨_, exec_fmReceiptRepeat_sends hc h, ?_⟩
  unfold sendReceipt
  rw [sendMgmt_fm]

theorem exec_fmReceiptRepeat_early {e : BitVec 16} {xid : BitVec 32} {b : Nat} (hc : s.fm.current = some (some e, xid, b))
    (h : s.time.beat < b + 512) : exec .fmReceiptRepeat s = .next s := by
  show execFmReceiptRepeat s = _
  unfold execFmReceiptRepeat
  rw [hc]
  exact if_neg (Nat.not_le.mpr h)

theorem exec_fmUnreachableTimeout_tells {x : FmRelay}
    (hx : s.fm.relays.find? (fun x => x.since.elim false fun b => decide (b + 1024 ≤ s.time.beat)) = some x) :
    exec .fmUnreachableTimeout s = .next (sbFragStatus { s with fm := { s.fm with
      relays := s.fm.relays.filter fun y => y.xid != x.xid } } 3 x.device x.xid) := by
  show execFmUnreachableTimeout s = _
  unfold execFmUnreachableTimeout
  dsimp only
  rw [hx]

theorem exec_fmUnreachableTimeout {x : FmRelay}
    (hx : s.fm.relays.find? (fun x => x.since.elim false fun b => decide (b + 1024 ≤ s.time.beat)) = some x) :
    ∃ t, exec .fmUnreachableTimeout s = .next t ∧ Tells t 4 3 x.device x.xid ∧ ∀ y ∈ t.fm.relays, y.xid ≠ x.xid := by
  refine ⟨_, exec_fmUnreachableTimeout_tells hx, tells_sbFragStatus .., fun y hy => ?_⟩
  exact bne_iff_ne.mp (List.mem_filter.mp hy).2

theorem exec_fmUnreachableTimeout_none (h : ∀ x ∈ s.fm.relays, ∀ b, x.since = some b → s.time.beat < b + 1024) :
    exec .fmUnreachableTimeout s = .next s := by
  have hn : s.fm.relays.find? (fun x => x.since.elim false fun b => decide (b + 1024 ≤ s.time.beat)) = none := by
    refine List.find?_eq_none.mpr fun x hx => ?_
    cases hb : x.since with
    | none => simp
    | some b => simpa using h x hx b hb
  show execFmUnreachableTimeout s = _
  unfold execFmUnreachableTimeout
  dsimp only
  rw [hn]

end Sys2Proof.Machine

open Sys2Proof Sys2Proof.Machine

/-- Settles O59: each access and fragment by what it puts on the sideband, on a port or in the mailbox of requester 17. -/
theorem sidebandAndFabricManager : Obligations.SidebandAndFabricManager := by
  unfold Obligations.SidebandAndFabricManager
  intro s after told up
  refine ⟨fun hu xid ofs n => sbRegisterRead_answers hu xid ofs n, fun hu xid ofs n v => sbRegisterWrite_answers hu xid ofs n v,
    fun hu xid => ⟨_, if_neg (by simp [show hubAnswers s = true from hu]), tells_sbAnswer .., rfl, rfl⟩,
    fun f hu => if_pos (by simp [hu]), fun hu f => fmRequestFragment_answers hu f, fun port f hu hp => ⟨?_, ?_, ?_⟩,
    fun port f h => if_pos ?_, fun e xid b hc => ⟨exec_fmReceiptRepeat_due hc, exec_fmReceiptRepeat_early hc⟩,
    fun x b hx _ => exec_fmUnreachableTimeout hx, exec_fmUnreachableTimeout_none⟩
  · exact fun o hd hr => exec_fmFragmentReceived_forwarded hu hp hd hr
  · exact fun x hd hm hx => exec_fmFragmentReceived_return hu hp hd hm hx
  · exact fun hd hm => exec_fmFragmentReceived_receipt hu hp hd hm
  · rcases h with h | h
    · simp [h]
    · simp [h]

end


section
/-! PROOFS. The commands of the ports, the collectives and the two memory tiers complete (R68, R141 to R184, R224 to
R282). -/

namespace Sys2Proof.Machine

variable {s : State}

/-! ### Ports (R225 to R231) -/

section
variable {q : PortId} {m : Sill} {crc : BitVec 32}

theorem exec_sillTransmit_sill (hu : s.power.hubUp = true) (hs : sillState (portOf s q.val).state = true)
    (hn : (trafOf s q.val).txNext = 0) :
    ∃ t, exec (.sillTransmit q) s = .next t ∧ (trafOf t q.val).lastSill = some (mkSill s q.val) := by
  refine ⟨_, execSillTransmit_sends hu hs hn, ?_⟩
  rw [trafOf_modTraf, if_pos rfl]
  rfl

theorem exec_sillReceived_reads (hp : portActive s q.val = true) (hc : crc.toNat = sillCrc m)
    (hlo : -128 ≤ (sillResidual s q.val).1) (hhi : (sillResidual s q.val).1 ≤ 128)
    (hb : m.beat.toNat = (sillResidual s q.val).2) : exec (.sillReceived q m crc) s = .next (readSill s q.val m) := by
  rw [execSillReceived_up hp, if_neg (not_not.mpr hc), if_neg (by simp; omega)]
  exact if_neg (by simp [hb])

theorem exec_alignDone_negotiates {n : Nat} (h : (portOf s q.val).state = lsAlign) (hn : n ≤ 4095) :
    ∃ t, exec (.alignDone q n) s = .next t ∧ portOf t q.val =
      { portOf s q.val with state := lsNegotiate, since := s.time.beat, linkDelay := BitVec.ofNat 12 n } := by
  refine ⟨_, (execAlignDone_eq n).trans (if_pos ⟨h, hn⟩), ?_⟩
  rw [portOf_modPort, if_pos rfl, portOf_enterLink]
  rfl

theorem exec_negotiateDone_active (hx : (portOf s q.val).state = lsNegotiate) (ht : tablesLoaded s = true)
    (hm : m.llMajor = 1) (hc : cablingOk s q.val m = true) (hr : lanesEnough (trafOf s q.val).lanesRx = true)
    (hl : lanesEnough (trafOf s q.val).lanesTx = true) : ∃ t, exec (.negotiateDone q m) s = .next t ∧
      (portOf t q.val).state = lsActive ∧ (portOf t q.val).peerDevice = m.srcDevice := by
  refine ⟨_, (execNegotiateDone_eq hx ht).trans ((if_neg (not_not.mpr ((majorOk_iff m).mpr hm))).trans
    ((if_neg (by simp [hc])).trans (if_neg (by simp [hr, hl])))), ?_⟩
  rw [portOf_modPort, if_pos rfl]
  exact ⟨portOf_becomeActive .., rfl⟩

/-- An attempt of `EQUALIZE` or `ALIGN` that runs into its bound needs no tables. -/
theorem exec_trainingTimeout_down (hx : (portOf s q.val).state = lsEqualize ∨ (portOf s q.val).state = lsAlign)
    (hb : ∀ b, linkBound (portOf s q.val).state = some b → (portOf s q.val).since + b ≤ s.time.beat) :
    ∃ t, exec (.trainingTimeout q) s = .next t ∧ (portOf t q.val).state = lsDown ∧
      (portOf t q.val).attempts = (portOf s q.val).attempts + 1 := by
  have hbound : ∃ b, linkBound (portOf s q.val).state = some b := by
    rcases hx with h | h
    · exact ⟨2048, by rw [h]; rfl⟩
    · exact ⟨64, by rw [h]; rfl⟩
  have hn : (portOf s q.val).state ≠ 4 := by
    rcases hx with h | h
    · rw [h]; decide
    · rw [h]; decide
  obtain ⟨b, h⟩ := hbound
  refine ⟨_, execTrainingTimeout_out h (hb b h) (absurd · hn), ?_⟩
  rw [portOf_modPort, if_pos rfl, portOf_enterLink]
  exact ⟨rfl, rfl⟩

theorem exec_portRetrainingOrder_detects (h : (portOf s q.val).state = lsCableFault ∨ (portOf s q.val).state = lsFailed) :
    ∃ t, exec (.portRetrainingOrder q) s = .next t ∧ (portOf t q.val).state = lsDetect ∧
      (portOf t q.val).attempts = 0 := by
  refine ⟨_, execPortRetrainingOrder_eq.trans (if_pos h), ?_⟩
  rw [portOf_modPort, if_pos rfl, portOf_enterLink]
  exact ⟨rfl, rfl⟩

theorem exec_slotReceived_takes {rx : RxSlot} (hl : s.power.hubUp = true ∧ portActive s q.val = true)
    (hu : rx.uncorrectable = false) (hc : checkHolds (countFec s q.val rx) q.val rx.img = true) :
    exec (.slotReceived q rx) s = .next (takeSlot (countFec s q.val rx) q.val rx.img rx.dest) := by
  rw [execSlotReceived_up hl.1 hl.2, if_neg (by simp [hu])]
  exact if_neg (by simp [hc])

end

/-! ### Collectives, extents and copies (R156, R258 to R271, R387) -/

section
variable {lead : Pane16} {g : Group} {d : List Byte} {r : Run} {c : CollRun} {coll : Nat}
variable (hl : groupLed s lead.val = some g) (hd : g.plan = some d) (hr : g.run = some r)
include hl hd hr

theorem exec_chunkAdvance_advances {id : ChunkId} {inp out : Option ChunkAt} (hs : r.started = true) (hh : r.held = none)
    (he : g.ended = none) (hp : plansRun s = true) (hn : coll < collCount d)
    (hc : (joinAlone s (collNow g d r coll) r coll).colls.find? (fun y => y.index == coll) = some c) :
    exec (.chunkAdvance lead coll id inp out) s = .next
      ({ collNow g d r coll with step := (joinAlone s (collNow g d r coll) r coll).firstStep + c.step }.advance
        (modRun s lead.val fun _ => joinAlone s (collNow g d r coll) r coll) lead.val
        (joinAlone s (collNow g d r coll) r coll) coll c id inp out) := by
  show execChunkAdvance lead coll id inp out s = _
  unfold execChunkAdvance
  simp only [hl, hd, hr]
  refine (if_pos (by simp [hs, hh, he, hp, hn])).trans ?_
  unfold collNow at hc ⊢
  rw [hc]

/-- R270: with neither `NORM` nor `NOISE` set no record is written, and nothing joins the step's norm. -/
theorem exec_collectiveDone_plain {norm noise : BitVec 640} {contrib : BitVec 32} {nan : Bool}
    (hc : r.colls.find? (fun y => y.index == coll && outElems (collNow g d r coll) ≤ collFinals y) = some c)
    (hh : r.held = none) (he : g.ended = none) (hf : (planColl d coll).cflags = 0) :
    exec (.collectiveDone lead coll norm noise contrib nan) s = .next (arriveRef (modRun s lead.val fun r => { r with
      colls := r.colls.filter (·.index != coll), collsDone := r.collsDone ++ [coll]
      normSum := r.normSum + 0, normNan := r.normNan || false }) g (planColl d coll).doneLatch) := by
  have hbit (i : Nat) : bitAt (planColl d coll).cflags i = false := by rw [hf]; exact Nat.zero_testBit i
  have h := execCollectiveDone_ends (norm := norm) (noise := noise) (contrib := contrib) (nan := nan) hl hd hr hc hh he
  dsimp only [collNow] at h
  rw [if_pos hf, hbit 0, hbit 1] at h
  exact h

theorem exec_extentStart_starts {n : Nat} {e : Extent} (he : (planExtents d)[n]? = some e) (hs : r.started = true)
    (hh : r.held = none) (hb : e.start ≤ runBeat r - r.planStep * planStepBeats d)
    (hlt : runBeat r - r.planStep * planStepBeats d < planStepBeats d) (hn : n ∉ r.extentsDone)
    (ho : ∀ y ∈ r.extents, y.1 ≠ n) : exec (.extentStart lead n) s = .next (modRun s lead.val fun r =>
      { r with extents := r.extents ++ [(n, r.planStep)], extentsDone := r.extentsDone ++ [n] }) :=
  execExtentStart_due hl hd hr he ⟨hs, hh, hb, hlt, hn, by simpa using ho⟩

theorem exec_extentDone_lands {n : Nat} {e : Extent} (he : (planExtents d)[n]? = some e) (ho : ∃ y ∈ r.extents, y.1 = n) :
    exec (.extentDone lead n) s = .next (arriveRef (farToNear
      (modRun s lead.val fun r => { r with extents := r.extents.filter fun x => x.1 != n })
      (planPane g (gaPane e.far)) (gaOfs e.far) e.length ((planMaskPanes g e.paneMask).map fun p => (p, gaOfs e.near)))
      g e.doneLatch) :=
  (execExtentDone_eq hl hd hr he).trans (if_pos (by simpa using ho))

omit hr in
theorem exec_snapshotDone_takes {c : CopyRun} (hc : g.copies.find? (fun c => !c.taken) = some c) :
    exec (.snapshotDone lead) s = .next (takeSnapshot s g d c) := by
  show execSnapshotDone lead s = _
  unfold execSnapshotDone
  simp only [hl, hd, hc]

end

theorem exec_abortStop_stops {lead : Pane16} {g : Group} {e : AbortEntry} (hg : groupLed s lead.val = some g)
    (ha : g.abortDue = some e) (he : g.ended = none) (hb : e.beat < s.time.beat) :
    exec (.abortStop lead) s = .next (stopForAbort s g e) :=
  (execAbortStop_of hg ha).trans (if_pos (by simp [hb, he]))

theorem exec_drainStaged_stages {lead : Pane16} {z : DrainRun} (hd : tblFind s.store.drains lead.val = some z)
    (hs : z.staged = false) (hi : z.image ≠ []) (hw : z.wrote = false) :
    exec (.drainStaged lead) s = .next (stageDrain s lead.val z) := by
  show execDrainStaged lead s = _
  unfold execDrainStaged
  rw [hd]
  exact (if_neg (by simp [hs, hi])).trans (if_pos (by simp [hw]))

theorem exec_gridBeat_notReady {p : Pane16} {g : Group} {d : List Byte} {r : Run} (hg : groupOf s p.val = some g)
    (hd : g.plan = some d) (hr : g.run = some r) (hs : r.started = true) (he : g.ended = none) (hp : plansRun s = true)
    (hm : planModules d ≠ 1) (hb : s.time.beat % holdGrid d = 0) (hu : soonUnready s g d r (2 * holdGrid d) = true) :
    exec (.gridBeat p) s = .next (raiseHold s g d .notReady) := by
  rw [execGridBeat_eq hg hd hr hs he hp hm hb, gridCause, if_pos hu]

/-! ### The near tier (R142, R147) -/

theorem exec_pcCopyDone_takes {p : Pane16} {l sp : Nat} {drop : Bool} {r : List (Nat × Nat × Bool)}
    (h : (nearOf s p.val).copying = (l, sp, drop) :: r) : ∃ t, exec (.pcCopyDone p) s = .next t ∧
      (nearOf t p.val).copying = r ∧ (nearOf t p.val).pcSub = tblSet (nearOf s p.val).pcSub l sp := by
  obtain ⟨t, ht, hn⟩ := execPcCopyDone_some h
  exact ⟨t, ht, by rw [hn]; rfl, by rw [hn]; rfl⟩

/-! ### The far tier (R164 to R184) -/

section
variable {ch : Fin 64}

theorem exec_gcErase_erases {j : GcJob} (hj : s.far.gcs.find? (·.channel == ch.val) = some j) (hi : mediaIdle s = false)
    (hm : s.far.progs.any (fun g => g.channel == ch.val && g.moved.isSome) = false) (hd : j.lastSeq < s.far.durSeq)
    (hv : validUnits s j.channel j.block = []) (hr : (blkOf s (blkKey j.channel j.block)).dueRetire = false) :
    exec (.gcErase ch) s = .next (modBlk (modFar s fun t => { t with gcs := t.gcs.filter (·.channel != ch.val) })
      (blkKey j.channel j.block) fun b => { b with state := .erasing }) := by
  have hmoved : ∀ g ∈ s.far.progs, g.channel = ch.val → g.moved = none := by simpa using hm
  rw [execGcErase_ready hj hi hmoved (.inl hd), if_neg (by simp [hv])]
  exact if_neg (by simp [hr])

theorem exec_wearLevel_opens {v d : Nat × Nat} (hv : bestOf (fun a b : Nat × Nat => a.1 < b.1)
      (((listedBlks s ch.val).filter fun e => inUse e.2).map fun e => (e.2.erases, e.1)) = some v)
    (hd : bestOf (fun a b : Nat × Nat => b.1 < a.1) (freeCands s ch.val) = some d) (hi : mediaIdle s = false)
    (hs : 256 < eraseSpread s ch.val) (hp : poolState (freeBlks s ch.val) < 2)
    (hn : s.far.progs.any (·.channel == ch.val) = false) (hg : s.far.gcs.any (·.channel == ch.val) = false)
    (ho : openOf s ch.val .openG = none) :
    exec (.wearLevel ch) s = .next (collect (openBlk s ch.val d.2 .openG) ch.val v.2) := by
  have hw : wearClosed s ch.val = s := by
    unfold wearClosed
    rw [ho]
  rw [execWearLevel_moves hv hd hi hg hs hp hn, hw]

theorem exec_blockEraseComplete_frees {n : BitVec 15} (h : (blkOf s (blkKey ch.val n.toNat)).state = .erasing) :
    ∃ z, exec (.blockEraseComplete ch n false) s = .next (placeWaiting z ch.val) ∧ blkOf z (blkKey ch.val n.toNat) =
      { blockZero with erases := (blkOf s (blkKey ch.val n.toNat)).erases + 1 } :=
  ⟨_, execBlockEraseComplete_erased h, blkOf_blockErased ..⟩

theorem exec_farReadRetry_counts {o : Fin 17} {n u : BitVec 32} (h : mappedAt s o.val n.toNat = some u) :
    ∃ t, exec (.farReadRetry o n false) s = .next t ∧ t.far.uncorr = BitVec.ofNat 16 (satAdd 16 s.far.uncorr.toNat 1) := by
  have hf := (blockError_unworn (unitLost s o.val n.toNat u) (physBlk u)).trans (unitLost_unworn s o.val n.toNat u)
  exact ⟨_, execFarReadRetry_lost h, congrArg FarTier.uncorr hf⟩

theorem exec_holdupMeasure_measures (us : BitVec 32) : ∃ t, exec (.holdupMeasure us) s = .next t ∧
    t.far.holdupLow = decide (us.toNat < 10000) ∧ t.far.holdupBeat = s.time.beat := by
  refine ⟨_, rfl, ?_⟩
  rw [ite_far, record_far, ite_self]
  exact ⟨rfl, rfl⟩

end
end Sys2Proof.Machine

end


section
/-! PROOFS. The commands of the start-up, of contexts and tests, of the store and of the Doorkeeper complete (R341 to R434,
R449 to R534). -/

namespace Sys2Proof.Machine

variable {s : State}

/-! ### Pins, sensors and resets (R401 to R413, R485 to R500) -/

theorem exec_inputPowerLoss_off (h : s.power.input = true) : exec .inputPowerLoss s =
    .next (modPower (hubOff (holdupActions s) 0) fun p => { p with input := false, holdupOk := false }) :=
  if_neg (by simp [h])

theorem exec_pwrEnDeassert_off (h : s.power.pwrEn = true) (hp : s.test.parked = false) : exec .pwrEnDeassert s =
    .next (modPower (hubOff (holdupActions s) 4) fun p => { p with pwrEn := false }) := by
  refine (if_neg (by simp [h])).trans ?_
  rw [if_neg (by simp [hp])]

/-- A reading below every threshold is kept, and no more. -/
theorem exec_thermalThreshold_below {n : Fin 33} {c : Nat} (hu : s.power.hubUp = true) (hw : sensorWf n.val = true)
    (h1 : reaches s n.val c (thresholds n.val).1 = false) (h2 : reaches s n.val c (thresholds n.val).2.1 = false)
    (h3 : reaches s n.val c (thresholds n.val).2.2 = false) :
    exec (.thermalThreshold n c) s = .next (readSensor s n.val c) := by
  rw [execThermalThreshold_reads hu hw, if_neg (by simp [h3])]
  unfold sensorRead
  dsimp only
  rw [if_neg (by simp [h2]), if_neg (by simp [h1])]

theorem exec_thermalClear_ends {b : Nat} (ht : s.power.trip = true) (hc : s.power.coolSince = some b)
    (hb : b + 4096 ≤ s.time.beat) : ∃ t, exec .thermalClear s = .next t ∧ t.power.trip = false := by
  refine ⟨_, execThermalClear_clears ht hc hb, ?_⟩
  rw [thermalEvent_power]
  rfl

theorem exec_ethernetUncorrectableCodeword_counts {e : Fin 2} (hu : s.power.hubUp = true)
    (hc : (countError s rowL e.val 1).2 = false) :
    exec (.ethernetUncorrectableCodeword e) s = .next (countError s rowL e.val 1).1 := by
  rw [execEthernetUncorrectableCodeword_up hu]
  exact if_neg (by simp [hc])

/-- R410: the beat of a pane's hardware fault is noted, whatever the fault finds. -/
theorem exec_paneHardwareFault_noted {p : Pane16} (hu : s.power.hubUp = true) (ho : (pane s p.val).state ≠ .outOfService) :
    ∃ t, exec (.paneHardwareFault p) s = .next t ∧ tblFind t.faults.paneFaults p.val = some s.time.beat := by
  refine ⟨_, if_neg (by simp [hu, ho]), ?_⟩
  rw [abortForEvent_faults]
  exact tblFind_tblSet_self ..

/-! ### Contexts and tests (R341 to R347, R408, R425 to R429) -/

section
variable {p : Pane16} {h : Shutter}

theorem exec_teardownBegin_begins (hs : (pane s p.val).shutter = some h) (ho : (pane s p.val).state = .opened)
    (hd : h.d ≤ s.time.beat) : exec (.teardownBegin p) s = .next (beginTeardown s p.val h) := by
  show execTeardownBegin p s = _
  unfold execTeardownBegin
  dsimp only
  rw [hs]
  exact if_pos (by simp [ho, hd])

theorem exec_writersStopped_shutters (hs : (pane s p.val).shutter = some h) (ho : (pane s p.val).state = .teardown) :
    exec (.writersStopped p) s = .next (beginShutter s p.val h) := by
  show execWritersStopped p s = _
  unfold execWritersStopped
  rw [hs]
  exact if_pos ho

theorem exec_shutterComplete_ends (hs : (pane s p.val).shutter = some h) (ho : (pane s p.val).state = .shuttering)
    (hz : h.keepFar = true ∨ h.farZeroed = true) : exec (.shutterComplete p) s = .next (endShutter s p.val h) := by
  show execShutterComplete p s = _
  unfold execShutterComplete
  rw [hs]
  exact if_pos (by simpa [ho] using hz)

theorem endEscapeIf_panes (s : State) (f : Job → Bool) (a : Ans) : (endEscapeIf s f a).panes = s.panes := by
  unfold endEscapeIf
  split
  · split
    · exact (endEscape_beside s a).2.2
    · rfl
  · rfl

/-- R408: the end of a context's reset leaves its pane as it was, but for the reset. -/
theorem exec_ctxResetEnd_ends {b : Nat} (hr : (pane s p.val).resetUntil = some b) (hb : b ≤ s.time.beat) :
    ∃ t, exec (.ctxResetEnd p) s = .next t ∧ pane t p.val = { pane s p.val with resetUntil := none } := by
  have he : ∃ k tag ep, exec (.ctxResetEnd p) s = .next (endEscapeIf (decideJobs (resetDone (modPane s p.val fun x =>
      { x with resetUntil := none }) 1 p.val k tag ep 0xFF) (isCtxReset p.val) ansOk) (isCtxReset p.val) ansOk) := by
    refine ⟨srcPane p.val, (pane s p.val).jobTag, (pane s p.val).epoch - 1, ?_⟩
    show execCtxResetEnd p s = _
    unfold execCtxResetEnd
    dsimp only
    rw [hr]
    exact if_pos hb
  obtain ⟨k, tag, ep, he⟩ := he
  refine ⟨_, he, ?_⟩
  rw [pane, endEscapeIf_panes, decideJobs_panes, resetDone, queueNotice_panes, record_panes]
  exact pane_modPane_self ..

end

/-- The first waiting test is active, whether it begins or goes on. -/
theorem exec_testStart_active {p : Nat} {l : List Nat} (hw : waitingTests s = p :: l) (hu : s.power.hubUp = true)
    (ht : s.power.trip = false) (hm : mayTest s (testsIn s tsActive).length = true) :
    ∃ t, exec .testStart s = .next t ∧ (testOf t p).tstate = tsActive := by
  by_cases hs : (testOf s p).tstate = tsSuspended
  · refine ⟨_, (execTestStart_room hw hu ht hm).trans (if_pos hs), ?_⟩
    rw [testOf_modTest, if_pos rfl]
  · obtain ⟨t, hx, ha, -⟩ := exec_testStart_first hw hu ht hm hs
    exact ⟨t, hx, ha⟩

/-! ### The store (R518 to R520) -/

section
variable {xid : BitVec 32} {x : StoreTxn}

theorem exec_storeDoneReceived_ends {lead : Nat} (h : txnOf s xid = some x) (ho : x.owner = .drain lead)
    (hp : x.phase = .closed) : exec (.storeDoneReceived xid 0 x.objCrc) s = .next (endDrain s lead x.step) :=
  (execStoreDoneReceived_closed h ho hp 0 x.objCrc).trans (if_pos (by simp))

theorem exec_storeConnectionLost_fetch {r : Nat} (h : txnOf s xid = some x) (ho : x.owner = .fetch r ∨ x.owner = .restore r) :
    exec (.storeConnectionLost xid) s = .next (dropTxns s x.owner) := by
  refine execStoreConnectionLost_command h fun lead hl => ?_
  rcases ho with ho | ho
  · exact StoreOwner.noConfusion (ho.symm.trans hl)
  · exact StoreOwner.noConfusion (ho.symm.trans hl)

end

/-! ### The Doorkeeper (R374, R376) -/

section
variable {r : Req} {k : Packet} {op : Nat} {i : Instr}

theorem exec_escape_runs {op : BitVec 16} (hu : hubAnswers s = true) (hn : s.dk.esc.job = none)
    (he : earlyRefusal s 0 false op.toNat k = none) (ho : escapeOp op.toNat = true) :
    exec (.escape op k) s = .next (runEscape s op.toNat k) := by
  refine congrArg Host.Outcome.next ?_
  unfold escapeBell
  rw [if_neg (by simp [hu]), hn]
  dsimp only
  rw [he]
  exact if_pos ho

/-- A command that starts at once leaves its effect, decided where the effect has an answer. -/
theorem exec_startsAtOnce (hs : StartsAtOnce s r.val op k) (hi : exec i s = .next (doorbell s r.val op k)) (ho : op < 65536) :
    (∀ a, (startEffect op (begun s r.val op k) r.val k).2 = some a →
      exec i s = .next (decideJob (startEffect op (begun s r.val op k) r.val k).1 r.val a)) ∧
    ((startEffect op (begun s r.val op k) r.val k).2 = none →
      exec i s = .next (startEffect op (begun s r.val op k) r.val k).1) := by
  refine ⟨fun a ha => ?_, fun ha => ?_⟩
  · rw [hi, doorbell_starts hs ho, ha]
  · rw [hi, doorbell_starts hs ho, ha]

end

/-! ### The island, the recorder and the sideband (R449 to R514) -/

theorem writeRec_intervalMs (s : State) (rtype p flags tag epoch : Nat) (rest : List Byte) :
    (writeRec s rtype p flags tag epoch rest).island.intervalMs = s.island.intervalMs := by
  have h := congrArg Island.intervalMs (writeRec_beyond (s := s) rtype p flags tag epoch rest)
  exact h

theorem keptPane_intervalMs (s : State) (p : Nat) : (keptPane 0 true s p).island.intervalMs = s.island.intervalMs := by
  unfold keptPane
  split
  · exact writeRec_intervalMs ..
  · rfl

theorem boundaryRec_intervalMs (s : State) (p : Nat) : (boundaryRec s p).island.intervalMs = s.island.intervalMs := by
  unfold boundaryRec
  split
  · split
    · rfl
    · exact writeRec_intervalMs (tookFree s) ..
  · rfl

theorem foldl_intervalMs {f : State → Nat → State} (hf : ∀ s p, (f s p).island.intervalMs = s.island.intervalMs)
    (l : List Nat) (s : State) : (l.foldl f s).island.intervalMs = s.island.intervalMs := by
  induction l generalizing s with
  | nil => rfl
  | cons p l ih => exact (ih _).trans (hf s p)

theorem operRec_intervalMs (s : State) : (operRec s).island.intervalMs = s.island.intervalMs :=
  writeRec_intervalMs (tookFree s) ..

/-- The records of a boundary, durable or waiting, leave the interval as it is. -/
theorem boundaryRecs_intervalMs (s : State) :
    (operRec ((List.range 16).foldl boundaryRec (endKept s 0 true))).island.intervalMs = s.island.intervalMs := by
  rw [operRec_intervalMs, foldl_intervalMs boundaryRec_intervalMs, endKept_eq, foldl_intervalMs keptPane_intervalMs]

theorem exec_meterIntervalBoundary_passes (hr : s.island.running = true) (ho : s.island.stopped = false)
    (hb : s.island.lastBoundary + s.island.intervalMs ≤ islandMs s) : ∃ t, exec .meterIntervalBoundary s = .next t ∧
      t.island.lastBoundary = islandMs s - islandMs s % s.island.intervalMs :=
  ⟨modIsland (operRec ((List.range 16).foldl boundaryRec (endKept s 0 true))) fun i =>
      { i with lastBoundary := islandMs s - islandMs s % i.intervalMs },
    if_neg (by simp [hr, ho]; omega), congrArg (fun n => islandMs s - islandMs s % n) (boundaryRecs_intervalMs s)⟩

/-- R475: with none suppressed there is nothing to tell. -/
theorem exec_suppressedSummary_none (h : s.evrec.suppressed = []) : ∃ t, exec .suppressedSummary s = .next t ∧
    t.evrec.nextRseq = s.evrec.nextRseq ∧ t.evrec.suppressed = [] := by
  have ht : toldEpochs s = [] := by
    unfold toldEpochs
    rw [h]
    rfl
  refine ⟨_, rfl, ?_⟩
  show ((toldEpochs s).foldl (fun t e => dueOwn t (summaryRec s.evrec e)) s).evrec.nextRseq = _ ∧
    ((toldEpochs s).foldl (fun t e => dueOwn t (summaryRec s.evrec e)) s).evrec.suppressed.filter
      (fun e => !(toldEpochs s).contains (e.1 / 65536)) = []
  rw [ht]
  exact ⟨rfl, by rw [List.foldl_nil, h]; rfl⟩

theorem hubAnswers_up (h : s.power.hubUp = true) : hubAnswers s = true := by
  unfold hubAnswers
  rw [h, Bool.true_or]

end Sys2Proof.Machine

end


section
open Sys2Proof Sys2Proof.Machine

/-- Settles O60: command by command, the branch that its conditions choose. -/
theorem everyEventCompletes : Obligations.EveryEventCompletes := by
  unfold Obligations.EveryEventCompletes
  intro s goes
  refine ⟨fun q => ?ports, fun lead g d r hl hd hr => ?collectives, fun lead g hg => ?groups,
    fun lead z hz hs hi hw => exec_drainStaged_stages hz hs hi hw, rfl,
    fun p g d r hg hd hr hs he hp hm hb hu => exec_gridBeat_notReady hg hd hr hs he hp hm hb hu,
    fun p => ?nearTier, fun ch => ?channels,
    fun o n u h => ⟨execFarReadRetry_recovered h, exec_farReadRetry_counts h⟩, fun n => rfl,
    fun hr hp => congrArg _ (if_neg (by simp [hr, hp])), exec_holdupMeasure_measures,
    fun hd hr hp => congrArg _ (if_pos (by simp [hd, hr, hp])),
    -- pins, sensors and firmware
    exec_inputPowerLoss_off, fun h => congrArg _ (if_pos h), fun h => congrArg _ (if_neg (by simp [h])),
    exec_pwrEnDeassert_off, fun x hu hm => execResetNRise_starts hu hm,
    fun hu hm => congrArg _ (if_pos (by simp [hu, hm])), fun hu hr ht hd _ => exec_doorkeeperReady hu hr ht hd,
    execPaneBringupDone_up, fun n c hu hw h1 h2 h3 => exec_thermalThreshold_below hu hw h1 h2 h3,
    fun b ht hc hb => exec_thermalClear_ends ht hc hb, fun m hu hm => execCapEffecterSet_sets hu hm,
    fun n hu hr => congrArg _ (if_pos (by simp [hu, hr])), fun p => ?contexts, fun f => rfl, fun xid x hx => ?store,
    fun r => ?mailboxes, fun op k hu hn he ho => exec_escape_runs hu hn he ho,
    -- faults and tests
    rfl, fun hu => ⟨congrArg _ (if_pos hu), congrArg _ (if_pos hu)⟩, fun e hu ho => execEngineFault_resets hu ho,
    fun r hr h4 => execResetEscalation_climbs hr h4,
    fun e hu hc => exec_ethernetUncorrectableCodeword_counts hu hc,
    fun p l hw hu ht hm => exec_testStart_active hw hu ht hm, fun g h => ?hubTest, ?island,
    fun r n x hx hr hs => execCcrSnoopAck_open rfl hx (List.contains_iff_mem.mpr hr) (.inl hs),
    -- the recorder, the host and the fabric manager
    fun e hl hd => exec_eventDelivery hl hd, fun d e l hq hm => exec_eventAccept hq hm, exec_suppressedSummary_none, rfl,
    fun hu => ?host, fun a fn h => congrArg _ (if_neg (by simp [h])),
    fun f hu hb ht ho => exec_fmRequestFragment_own hu (by simp [Overlong]; omega) ho,
    fun e xid b hc hb => exec_fmReceiptRepeat_sends hc hb, fun x hx => exec_fmUnreachableTimeout_tells hx,
    fun r k e he hs => ?commands, fun r k e he hm hs a ha => ?modes,
    fun r k hm hs => (exec_startsAtOnce hs (congrArg _ (if_pos (by simpa using hm))) (by norm_num)).1⟩
  case ports =>
    intro p x live enters
    exact ⟨fun n hl hn => execSlotTransmit_sends hl.1 hl.2 hn, exec_sillTransmit_sill,
      fun rx hl hu hc => exec_slotReceived_takes hl hu hc,
      fun m crc hp hc hlo hhi hb => exec_sillReceived_reads hp hc hlo hhi hb,
      fun w hw hb => execLaneSwitch_one hw hb, fun w hw hp hb => execReplayTimeout_due hp ⟨w, hw, hb⟩,
      fun h => ⟨_, if_pos h, portOf_enterLink ..⟩, fun h => ⟨_, if_pos h, portOf_enterLink ..⟩,
      fun n h hn => exec_alignDone_negotiates h hn, fun m hx ht hm hc hr hl => exec_negotiateDone_active hx ht hm hc hr hl,
      exec_trainingTimeout_down,
      fun hu hp ht hx hn hb => ⟨_, execTrainingBackoff_over hu hp ht hx hn hb, portOf_enterLink ..⟩,
      exec_portRetrainingOrder_detects, fun f hl hd => exec_fmFragmentReceived_other hl.1 hl.2 hd,
      fun f hl hd => exec_fmFragmentReceived_own hl.1 hl.2 hd⟩
  case collectives =>
    exact ⟨fun coll c id inp out hs hh he hp hn hc => exec_chunkAdvance_advances hl hd hr hs hh he hp hn hc,
      fun coll c a b n nan hc hh he hf => exec_collectiveDone_plain hl hd hr hc hh he hf,
      fun n e he hs hh hb hlt hn ho => exec_extentStart_starts hl hd hr he hs hh hb hlt hn ho,
      fun n e he ho => exec_extentDone_lands hl hd hr he ho, fun c hc => exec_snapshotDone_takes hl hd hc⟩
  case groups =>
    exact ⟨fun e ha he hb => exec_abortStop_stops hg ha he hb, fun c hc => execStormAckReceived_commits hg hc,
      fun c hc => execCopyAbandonTimeout_overdue hg hc⟩
  case nearTier =>
    exact ⟨fun line hl hp => ⟨execNearReadRetry_reads hl hp .uncorrectable, execNearReadRetry_reads hl hp .clean⟩,
      fun l sp r h => execSpareTakeoverDone_some h, fun n => rfl, fun line e hl => execScrubBurst_reads hl e,
      fun l sp drop r h => exec_pcCopyDone_takes h⟩
  case channels =>
    exact ⟨fun b hi hg hv => execGcVictim_collects hi hg hv,
      fun j hj hi hm hd hv hr => exec_gcErase_erases hj hi hm hd hv hr,
      fun v d hv hd hi hs hp hn hg ho => exec_wearLevel_opens hv hd hi hs hp hn hg ho, fun h => if_pos h,
      fun g hg => ⟨execPageProgramComplete_some hg, execProgramFailed_some hg⟩,
      fun n h => ⟨execBlockEraseComplete_failed h, exec_blockEraseComplete_frees h⟩⟩
  case contexts =>
    exact ⟨fun h hs ho hd => exec_teardownBegin_begins hs ho hd, fun h hs ho => exec_writersStopped_shutters hs ho,
      fun h hs ho hz => exec_shutterComplete_ends hs ho hz, fun b hr hb => exec_ctxResetEnd_ends hr hb,
      exec_paneHardwareFault_noted, fun y ht hp => (if_pos ht).trans (if_pos hp),
      fun y ht hp => (if_pos ht).trans (if_neg (Nat.not_lt.mpr hp)),
      fun hu hv => (exec_vfFlr p hu hv).imp fun t ⟨ht, hm, _, hh, _⟩ => ⟨ht, hm, hh⟩⟩
  case store =>
    exact ⟨fun k a hp => exec_storeGrantReceived_moves hx hp k a,
      fun lead d ho hd hp => exec_rdmaWritesComplete_closes hx ho hd hp,
      fun d r r' j ho hj hp => execRdmaReadsComplete_fetch hx hp ho hj d,
      fun lead ho hp => exec_storeDoneReceived_ends hx ho hp, fun ms hp => execStoreRefuseReceived_busy hx hp ms,
      fun lead v ms ho hp hv => execStoreRefuseReceived_drain hx hp hv ho ms,
      fun b hp hb => (execStoreRetryExpiry_waiting hx hp).trans (if_pos hb),
      fun lead ho => execStoreConnectionLost_drain hx ho, fun r ho => exec_storeConnectionLost_fetch hx ho⟩
  case mailboxes =>
    exact ⟨fun h => congrArg _ (if_pos h), fun h => congrArg _ (if_pos h),
      fun j hj hs hc => execCommandStart_starts hj hs hc, fun j a hj ha => execCommandReply_decided hj ha,
      fun j hj hl => exec_commandOverrun_tells hj hl⟩
  case hubTest =>
    exact ⟨(exec_hubTestDone_passed g h).imp fun t ⟨ht, hh, _⟩ => ⟨ht, hh⟩,
      (exec_hubTestDone_failed g h).imp fun t ⟨ht, _, _, hu, _, hd⟩ => ⟨ht, hu, hd⟩⟩
  case island =>
    exact ⟨exec_meterIntervalBoundary_passes, exec_meterRecordRetry_stores, rfl, fun u hu => if_pos hu,
      fun h => (exec_islandStart h).imp fun t ⟨ht, hp, hr, _⟩ => ⟨ht, hr, hp⟩⟩
  case host =>
    have ha := hubAnswers_up hu
    exact ⟨(exec_pfFlr hu).imp fun t ⟨ht, hv, _, _, _, he, _⟩ => ⟨ht, hv, he⟩, exec_vfEnableChange_off hu,
      fun n hn hv => (exec_vfEnableChange_on hu (Nat.pos_of_ne_zero hn) hv).imp fun t ⟨ht, h, hm, _⟩ => ⟨ht, h, hm⟩,
      fun a fn ofs n hf hok => ⟨exec_wideRegisterRead hf ha hok, fun v => exec_registerWrite v hf ha hok⟩,
      fun xid ofs n => exec_sbRegisterRead ha, fun xid v => exec_sbRegisterWrite_trim ha v,
      fun xid => if_neg (by simp [ha])⟩
  case commands =>
    have hrow : e.1 < 65536 ∧ exec e.2 s = .next (doorbell s r.val e.1 k) := by
      fin_cases he <;> exact ⟨by norm_num, rfl⟩
    exact exec_startsAtOnce hs hrow.2 hrow.1
  case modes =>
    have hrow : exec e.2 s = .next (modeBell s r.val e.1 k) := by
      fin_cases he <;> rfl
    exact (exec_startsAtOnce hs (hrow.trans (congrArg _ (if_pos hm))) (by norm_num)).1 a ha

end
